-- ==== Sys2Proof/Word.lean ====
section
/-!
DEFINITION. The word types of the module's registers and memories, and the plainest arithmetic on them.
-/

namespace Sys2Proof

/-- One byte of a memory. -/
abbrev Byte := BitVec 8

/-- A 128-bit word (the native word of 00_scope.md); a 32-bit register uses bits [31:0] only. -/
abbrev Word := BitVec 128

/-- Bits `[lo + w - 1 : lo]` of a natural number. -/
def bitsOf (x lo w : Nat) : Nat := x / 2 ^ lo % 2 ^ w

/-- Bit `k` of a natural number. -/
def bitOf (x k : Nat) : Bool := x / 2 ^ k % 2 == 1

/-- `x` with bits `[lo + w - 1 : lo]` replaced by the low bits of `v`. -/
def putBits (x lo w v : Nat) : Nat :=
  x - bitsOf x lo w * 2 ^ lo + v % 2 ^ w * 2 ^ lo

/-- The signed two's-complement reading of a `w`-bit number. -/
def signedOf (w x : Nat) : Int :=
  if x % 2 ^ w < 2 ^ (w - 1) then (x % 2 ^ w : Nat) else (x % 2 ^ w : Nat) - (2 ^ w : Nat)

/-- The low `w` bits of a signed number, as a natural number. -/
def unsignedOf (w : Nat) (x : Int) : Nat := (x % (2 ^ w : Nat)).toNat

/-- A count that stops at `top`. -/
def satInc (top x : Nat) : Nat := if x < top then x + 1 else top

/-- `1` for `true`, `0` for `false`. -/
def b2n (b : Bool) : Nat := if b then 1 else 0

/-- A signed number limited to `lo … hi`. -/
def clampInt (lo hi x : Int) : Int := max lo (min hi x)

/-- A natural number limited to `lo … hi`. -/
def clampNat (lo hi x : Nat) : Nat := max lo (min hi x)

/-- A signed number saturated to `w` bits. -/
def satSigned (w : Nat) (x : Int) : Int := clampInt (-(2 ^ (w - 1) : Nat)) ((2 ^ (w - 1) : Nat) - 1) x

/-- Ceiling division of natural numbers. -/
def ceilDiv (a b : Nat) : Nat := (a + b - 1) / b

/-- A raw fixed-point number with `f` fraction bits, as a rational. -/
def ofFixed (f : Nat) (x : Int) : Rat := (x : Rat) / ((2 ^ f : Nat) : Rat)

/-- A rational truncated toward minus infinity to `f` fraction bits (R8). -/
def toFixed (f : Nat) (x : Rat) : Int := (x * ((2 ^ f : Nat) : Rat)).floor

/-- A rational truncated toward zero to `f` fraction bits. -/
def toFixedZero (f : Nat) (x : Rat) : Int :=
  if x < 0 then -((-x * ((2 ^ f : Nat) : Rat)).floor) else (x * ((2 ^ f : Nat) : Rat)).floor

/-- The ceiling of a rational, as a natural number (0 for a negative one). -/
def ceilNat (x : Rat) : Nat := x.ceil.toNat

/-- The magnitude of a rational. -/
def ratAbs (x : Rat) : Rat := if x < 0 then -x else x

/-- The smaller of two rationals. -/
def ratMin (x y : Rat) : Rat := if x ≤ y then x else y

/-- The larger of two rationals. -/
def ratMax (x y : Rat) : Rat := if x ≤ y then y else x

end Sys2Proof
end

