-- ==== Sys2Proof/Syntax.lean ====
section
/-!
DEFINITION. The commands of the block and their operands: one constructor of Instr per row of spec/opcode_table.json.
The table gives no bit fields, so the operands are read from the rules: the index of the object a command names, the
values it writes, and, for an event of the module's surroundings, what the surroundings present to the module.
-/

namespace Sys2Proof

/-- The fields of a command word beside its opcode and its queue (R169). -/
structure CmdArgs where
  flg : BitVec 8
  tag : BitVec 16
  p1 : BitVec 32
  p0 : BitVec 64
  deriving DecidableEq, Repr

/-- The levels of the input terminals (R20, R152, R201): a set bit is a terminal that reads high. -/
structure InputLevels where
  gi : BitVec 16
  limA : BitVec 48
  limB : BitVec 48
  tripA : Bool
  tripB : Bool
  deriving DecidableEq, Repr

/-- For how long the levels of a TICK have held (R152, R201): the general inputs in steps of 250 ns, LIMA and LIMB in µs, A0's or
GI0's first; the terminals of the feedback ports in cycles of 1/240 MHz (R355), FB0_P0 first; an input beyond a list has held for longer than any filter. -/
structure HeldTimes where
  gi : List Nat
  limA : List Nat
  limB : List Nat
  ports : List Nat
  deriving DecidableEq, Repr

/-- What a TICK presents to the module: the levels of its input terminals, for how long they have held, the synchronised levels of
the terminals of the feedback ports, bit 4p + j for FBp_Pj, the voltages the excitation sources sense in UQ4.12 V, EX0 below, and
whether the crystal oscillates. -/
structure TickInputs where
  now : InputLevels
  held : HeldTimes
  ports : BitVec 48
  sensed : BitVec 32
  xtal : Bool
  deriving DecidableEq, Repr

/-- When the lines of a port took new levels, in FBS cycles, and the level of Z then (R355, R367). -/
structure QuadAt where
  cyc : Nat
  z : Bool
  deriving DecidableEq, Repr

/-- What the encoder let a serial frame wait for, in units of 20 ns: from the due strobe until the data line was high, and in BISS
from the first clock to the start bit (R371, R372). -/
structure FrameWaits where
  line : Nat
  start : Nat
  deriving DecidableEq, Repr

/-- The voltages of VAUX and VHOLD in UQ5.11 V, as KN_SUPPLY.VAUX_V and KN_LGASP.VHOLD_V show them (R61). -/
structure AuxVolts where
  vaux : BitVec 16
  vhold : BitVec 16
  deriving DecidableEq, Repr

/-- Which program or erase the flash leaves busy (R129): one of the kiln log or of the patina ring, or one of a commit or of the host;
and whether the second erase of a target plinth's sector succeeds. -/
structure FlashLate where
  ring : Bool
  again : Bool
  deriving DecidableEq, Repr

/-- Where an uncorrectable memory error lies, as far as its effect differs (R424). -/
inductive EccLoc where
  | axisState (n : Fin 48)
  | regState (b : Fin 4)
  | checkpoint (n : Fin 48)
  | ringWord (q : Fin 64) (i : Fin 32)
  | dram
  | other
  deriving DecidableEq, Repr


/-- What the timing comparators of one axis have given in the window of a patina pass (R439), none without an edge: the mean gate
delays, rising and falling, in UQ8.8 ns. -/
structure PatinaAx where
  dly : Option (BitVec 16 × BitVec 16)
  deriving DecidableEq, Repr

/-- What a patina pass measures on the module (R439): the cycles of the reference in use over 65,536 AON cycles, the read and
write eye, the means of the four die sensors in °C over each hour of the window, oldest first, and the axes, A0 first. -/
structure PatinaWin where
  refCount : Nat
  eyeR : BitVec 8
  eyeW : BitVec 8
  dies : List (Vector Rat 4)
  axes : List PatinaAx
  deriving DecidableEq, Repr

/-- What a computation of a coil meets: the tick phase of the interpolation instant in PWM cycles (R25), and the mean drop across a
conducting low-side FET in the period that runs, in V (R439). -/
structure CoilAt where
  tph : BitVec 14
  drop : Rat
  deriving DecidableEq, Repr

/-- What the characterisation measures on one coil (R84): the current that its first 10 µs pulse reaches, in A; whether the
peak-current comparator trips within 2 µs of it; the averaged phase voltage at 0.5 A, in V; in the pulse for L the current
2 µs after its start and its rise over the 5 µs after that, in A. -/
structure CoilMeas where
  iEnd : Rat
  trip2 : Bool
  v : Rat
  i2 : Rat
  di : Rat
  deriving DecidableEq, Repr

/-- What the characterisation measures on one axis (R84): both coils, and L in µH along the eight electrical angles. -/
structure MotorMeas where
  a : CoilMeas
  b : CoilMeas
  ls : List Rat
  deriving DecidableEq, Repr

/-- What the tests of an untested axis find at the end of ARMING (R83): whether its bridge self-test passes, and what its
characterisation measures. -/
structure ArmingTest where
  bridgeOk : Bool
  motor : MotorMeas
  deriving DecidableEq, Repr

/-- What step 13 observes at one port (R86): its three words of a serial encoder with the verdict of their CRC, none where one
times out; the Hall codes seen in 1 ms (bit c for code c); whether a quadrature fault was raised in 1 ms. -/
structure PortMeas where
  words : List (Option (Nat × Bool))
  codes : BitVec 8
  qfault : Bool
  deriving DecidableEq, Repr

/-- What step 11 measures on a channel (R402): the errors of the two points of its check, in 0.01 % of full scale. -/
structure FrontMeas where
  e1 : Int
  e2 : Int
  deriving DecidableEq, Repr

/-- What a start meets in its surroundings (R72, R73): the last step that completes in this command; a step failure the
hardware shows (step, code, detail); whether the crystal runs, whether retraining succeeds, what a full training finds;
the supplies (VAUX and VHOLD in UQ5.11 V, VM of each bank in UQ8.8 V) and rails found good (bit 0 VIO_H, 1 VIO_N, 2 VIO_F); the
SRAM rows that fail the march test; self-test results of engines (bit 8
ER) and regulators (bit 4 CRS); for each slice its mean codes at zero, positive and negative reference; bridges that fail and
gate delays (rising in [15:0], falling in [31:16]); what step 11 measures on each channel, on each excitation source
its current in A and the faults of R385 found (bits SENSE_OPEN, COMPLIANCE, OVL), and the pull-up of the front end in Ω; axes whose test the clamp met twice; what step 12 measures on each axis and step 13 at
each port; the duration of each step in 10 µs; and the time from the trigger to RUN in µs. -/
structure StartMeas where
  upTo : Fin 16
  fail : Option (Fin 16 × BitVec 8 × BitVec 16)
  xtalOk : Bool
  retrainOk : Bool
  eyes : BitVec 2048
  vaux : BitVec 16
  vhold : BitVec 16
  vms : List (BitVec 16)
  rails : BitVec 3
  rows : List Nat
  eng : BitVec 9
  reg : BitVec 5
  slices : List (Int × Int × Int)
  bridgeFail : BitVec 48
  delays : List (BitVec 32)
  front : List FrontMeas
  sources : List (Rat × BitVec 3)
  rpu : Nat
  clampTwice : BitVec 48
  motors : List MotorMeas
  ports : List PortMeas
  durs : List (BitVec 20)
  toRun : BitVec 24
  deriving DecidableEq, Repr


/-- The commands: one constructor per row of spec/opcode_table.json. -/
inductive Instr where
  /-- VAUX_GOOD (R50) -/
  | vauxGood (vselH vselN : Bool) (v : AuxVolts)
  /-- VAUX_LOST (R50) -/
  | vauxLost (vaux vhold : BitVec 16)
  /-- LG_PROGRAM_DONE (R66) -/
  | lgProgramDone
  /-- LAST_GASP_END (R65) -/
  | lastGaspEnd
  /-- VHOLD_LOW (R500) -/
  | vholdLow
  /-- VIO_OVERLOAD (R51) -/
  | vioOverload (rail : Fin 3)
  /-- VM_UV (R54) -/
  | vmUv (b : Fin 4) (vm : BitVec 16)
  /-- VM_UV_RECOVER (R56) -/
  | vmUvRecover (b : Fin 4)
  /-- RESUME (R56) -/
  | resumeBank (b : Fin 4)
  /-- VM_RESUME_RAMP_END (R56) -/
  | vmResumeRampEnd (b : Fin 4)
  /-- VM_OV_CLAMP (R57) -/
  | vmOvClamp (b : Fin 4) (vm : BitVec 16)
  /-- VM_OV_RELEASE (R58) -/
  | vmOvRelease (b : Fin 4) (dur : BitVec 48)
  /-- VM_OV_TIMEOUT (R59) -/
  | vmOvTimeout (b : Fin 4) (vm : BitVec 16)
  /-- RESET (R64) -/
  | resetIn
  /-- RESET_N_RISE (R72) -/
  | resetNRise (tripA tripB : Bool)
  /-- TAP_TEST_INSTRUCTION (R68) -/
  | tapTestInstruction (code : Fin 3)
  /-- KILN_START (R72) -/
  | kilnStart (w : StartMeas)
  /-- KILN_STEP_TIMEOUT (R74) -/
  | kilnStepTimeout
  /-- KILN_RESTART (R74) -/
  | kilnRestart
  /-- STEP16_COMPLETE (R88) -/
  | step16Complete
  /-- RESTART (R91) -/
  | restartCmd (clrCnt : Bool)
  /-- DRAM_FAST (R95) -/
  | dramFast
  /-- HOME_RESET (R95) -/
  | homeReset
  /-- LOG_SECTOR_ERASE (R92) -/
  | logSectorErase
  /-- COMMIT_IMAGE (R116) -/
  | commitImage
  /-- COMMIT_OVERLAY (R119) -/
  | commitOverlay
  /-- COMMIT_CAL (R125) -/
  | commitCal
  /-- COMMIT_KIND3 (R116) -/
  | commitKind3
  /-- TIE_ACK (R122) -/
  | tieAck
  /-- COMMIT_FLASH_OP_DONE (R120) -/
  | commitFlashOpDone (readOk : Bool)
  /-- FLASH_TIMEOUT (R129) -/
  | flashTimeout (late : FlashLate)
  /-- AUTO_CAL_WRITE (R125) -/
  | autoCalWrite
  /-- CAL_WRITE_DONE (R125) -/
  | calWriteDone (readOk : Bool)
  /-- NV_ACC_READ (R126) -/
  | nvAccRead
  /-- NV_ACC_PROGRAM (R126) -/
  | nvAccProgram
  /-- NV_ACC_ERASE_4K (R126) -/
  | nvAccErase4k
  /-- NV_ACC_ERASE_64K (R126) -/
  | nvAccErase64k
  /-- NV_ACC_DONE (R126) -/
  | nvAccDone
  /-- KEY_PROGRAM (R115) -/
  | keyProgram (slot : Fin 4) (guard : BitVec 8)
  /-- KEY_REVOKE (R115) -/
  | keyRevoke (slot : Fin 4) (guard : BitVec 8)
  /-- KEY_REQUIRE_SIG (R115) -/
  | keyRequireSig (guard : BitVec 8)
  /-- TICK (R19) -/
  | tick (lv : TickInputs)
  /-- AXIS_SLOT (R21) -/
  | axisSlot (n : Fin 48) (camMissing : Bool)
  /-- ARMING_COMPLETE (R133) -/
  | armingComplete (n : Fin 48) (found : ArmingTest)
  /-- STANDSTILL_RAMP (R163) -/
  | standstillRamp (n : Fin 48)
  /-- AX_CTRL_ENABLE (R135) -/
  | axCtrlEnable (n : Fin 48)
  /-- AX_CTRL_DISABLE (R135) -/
  | axCtrlDisable (n : Fin 48)
  /-- AX_CTRL_ESTOP (R136) -/
  | axCtrlEstop (n : Fin 48)
  /-- AX_CTRL_MAQ_ENTER (R164) -/
  | axCtrlMaqEnter (n : Fin 48)
  /-- AX_CTRL_MAQ_EXIT (R164) -/
  | axCtrlMaqExit (n : Fin 48)
  /-- AX_RETGT (R147) -/
  | axRetgt (n : Fin 48) (w : Word)
  /-- AX_SLIM (R156) -/
  | axSlim (n : Fin 48) (enable : Bool) (w : Word)
  /-- LIMIT_ACTIVE (R153) -/
  | limitActive (n : Fin 48) (sideB : Bool)
  /-- LIM_LATCH_CLEAR (R154) -/
  | limLatchClear (n : Fin 48) (a b : Bool)
  /-- HOME_REFERENCE (R159) -/
  | homeReference (n : Fin 48) (ts : BitVec 48)
  /-- QUEUE_DISPATCH (R181) -/
  | queueDispatch
  /-- MOVE_ABS (R171) -/
  | moveAbs (q : Fin 64) (c : CmdArgs)
  /-- MOVE_REL (R146) -/
  | moveRel (q : Fin 64) (c : CmdArgs)
  /-- VEL (R145) -/
  | velCmd (q : Fin 64) (c : CmdArgs)
  /-- STOP (R150) -/
  | stopCmd (q : Fin 64) (c : CmdArgs)
  /-- HOLD (R171) -/
  | holdCmd (q : Fin 64) (c : CmdArgs)
  /-- HOME (R157) -/
  | homeCmd (q : Fin 64) (c : CmdArgs)
  /-- SET_POS (R160) -/
  | setPos (q : Fin 64) (c : CmdArgs)
  /-- ENABLE (R135) -/
  | enableCmd (q : Fin 64) (c : CmdArgs)
  /-- DISABLE (R135) -/
  | disableCmd (q : Fin 64) (c : CmdArgs)
  /-- GROUP_MOVE (R212) -/
  | groupMove (q : Fin 64) (c : CmdArgs)
  /-- GEAR (R227) -/
  | gearCmd (q : Fin 64) (c : CmdArgs)
  /-- CAM (R232) -/
  | camCmd (q : Fin 64) (c : CmdArgs)
  /-- TENSION_TRIM (R236) -/
  | tensionTrim (q : Fin 64) (c : CmdArgs)
  /-- WAIT_INPUT (R174) -/
  | waitInput (q : Fin 64) (c : CmdArgs)
  /-- WAIT_TIME (R171) -/
  | waitTime (q : Fin 64) (c : CmdArgs)
  /-- WAIT_QUEUE (R174) -/
  | waitQueue (q : Fin 64) (c : CmdArgs)
  /-- WAIT_POS (R174) -/
  | waitPos (q : Fin 64) (c : CmdArgs)
  /-- WAIT_TIMEOUT (R184) -/
  | waitTimeout (q : Fin 64)
  /-- SET_PARAM (R171) -/
  | setParam (q : Fin 64) (c : CmdArgs)
  /-- SET_OUTPUT (R171) -/
  | setOutput (q : Fin 64) (c : CmdArgs)
  /-- OUTPUT_PULSE_END (R171) -/
  | outputPulseEnd (outs : BitVec 8)
  /-- JUMP (R174) -/
  | jumpCmd (q : Fin 64) (c : CmdArgs)
  /-- CALL (R189) -/
  | callCmd (q : Fin 64) (c : CmdArgs)
  /-- RETURN (R189) -/
  | returnCmd (q : Fin 64) (c : CmdArgs)
  /-- LOOP (R190) -/
  | loopCmd (q : Fin 64) (c : CmdArgs)
  /-- SIGNAL (R171) -/
  | signalCmd (q : Fin 64) (c : CmdArgs)
  /-- END (R189) -/
  | endCmd (q : Fin 64) (c : CmdArgs)
  /-- STRATA_MARK (R450) -/
  | strataMark (q : Fin 64) (c : CmdArgs)
  /-- NOP (R171) -/
  | nopCmd (q : Fin 64) (c : CmdArgs)
  /-- ROUTINE_FETCH (R191) -/
  | routineFetch (q : Fin 64) (eccError : Bool)
  /-- Q_PUSH (R193) -/
  | qPush (q : Fin 64) (w : Word)
  /-- Q_PUSH_DB (R193) -/
  | qPushDb (q : Fin 64) (w : Word)
  /-- PUBLISH (R193) -/
  | publish (q : Fin 64)
  /-- DISCARD (R193) -/
  | discard (q : Fin 64)
  /-- Q_MDB (R194) -/
  | qMdb (hi : Bool) (mask : BitVec 32)
  /-- PAUSE (R180) -/
  | pause (q : Fin 64)
  /-- Q_RESUME (R180) -/
  | qResume (q : Fin 64)
  /-- FLUSH (R180) -/
  | flush (q : Fin 64)
  /-- Q_RTN_START (R188) -/
  | qRtnStart (q : Fin 64) (rtn : BitVec 8)
  /-- Q_ABORT (R202) -/
  | qAbort (q : Fin 64) (halt : Bool) (tag : BitVec 16)
  /-- Q_ABORT_X (R202) -/
  | qAbortX (w : BitVec 32)
  /-- ABORT_INPUT (R207) -/
  | abortInput (k : Fin 4)
  /-- Q_CPL_POP (R195) -/
  | qCplPop
  /-- Q_CPL_RD_WRITE (R195) -/
  | qCplRdWrite (v : BitVec 32)
  /-- Q_EVT_POP (R198) -/
  | qEvtPop
  /-- Q_EVT_RD_WRITE (R198) -/
  | qEvtRdWrite (v : BitVec 32)
  /-- GR_MEMB (R211) -/
  | grMemb (g : Fin 16) (hi : Bool) (mask : BitVec 32)
  /-- GR_STOP (R217) -/
  | grStop (g : Fin 16)
  /-- REG_MARK (R234) -/
  | regMark (r : Fin 4) (ts : BitVec 48)
  /-- COIL_COMPUTE (R24) -/
  | coilCompute (k : Fin 96) (at_ : CoilAt)
  /-- AX_HARM_DATA (R245) -/
  | axHarmData (n : Fin 48) (isWrite : Bool) (v : BitVec 32)
  /-- PWM_PERIOD_START (R272) -/
  | pwmPeriodStart (k : Fin 96) (vm : BitVec 16)
  /-- PEAK_TRIP (R278) -/
  | peakTrip (k : Fin 96) (cnt : BitVec 14)
  /-- SHORT_CIRCUIT (R280) -/
  | shortCircuit (n : Fin 48) (coilB : Bool)
  /-- BFAULT_CLEAR (R280) -/
  | bfaultClear (b : Fin 4) (mask : BitVec 12)
  /-- GATE_UV (R281) -/
  | gateUv (b : Fin 4)
  /-- PW_PERIOD (R267) -/
  | pwPeriod (b : Fin 4) (v : BitVec 14)
  /-- STAG_USER_CHANGE (R268) -/
  | stagUserChange (b : Fin 4) (on : Bool)
  /-- PW_CH_OFS (R268) -/
  | pwChOfs (b : Fin 4) (k : Fin 24) (v : BitVec 14)
  /-- PW_SAFE (R283) -/
  | pwSafe (b : Fin 4) (v : BitVec 32)
  /-- SAFE_COPY_CHECK (R283) -/
  | safeCopyCheck (b : Fin 4) (upset : Option (Fin 3 × BitVec 32))
  /-- DBG_HALT (R287) -/
  | dbgHalt (guard : BitVec 8)
  /-- DBG_HALT_END (R287) -/
  | dbgHaltEnd (guard : BitVec 8)
  /-- CLOCK_STOP (R288) -/
  | clockStop (b : Fin 4)
  /-- CLOCK_STOP_END (R288) -/
  | clockStopEnd (b : Fin 4)
  /-- TRIP_INPUT (R290) -/
  | tripInput (a b : Bool)
  /-- TRIP_CLEAR (R292) -/
  | tripClear
  /-- TRIP_DISC (R293) -/
  | tripDisc
  /-- SYNC_DRIVE (R294) -/
  | syncDrive
  /-- SYNC_EDGE (R295) -/
  | syncEdge (cyc : Nat)
  /-- SYNC_LOST (R296) -/
  | syncLost
  /-- SAMPLE_HOLD (R307) -/
  | sampleHold (k : Fin 96) (kind : Fin 8)
  /-- SAMPLE_DELIVERED (R309) -/
  | sampleDelivered (k : Fin 96) (kind : Fin 8) (raw : Int) (full : Bool)
  /-- SHADOW_BLOCK_END (R314) -/
  | shadowBlockEnd (b : Fin 4) (sl : Fin 5) (pairs : List (Int × Int × Rat))
  /-- SPARE_RECAL (R315) -/
  | spareRecal (b : Fin 4) (zero pos neg : Int)
  /-- CS_INJ_GO (R318) -/
  | csInjGo (b : Fin 4) (sel : BitVec 8)
  /-- INJ_RESULT (R318) -/
  | injResult (b : Fin 4) (raw : Int) (wait : BitVec 9)
  /-- SCAN_GO (R320) -/
  | scanGo (b : Fin 4)
  /-- SCAN_STOP (R320) -/
  | scanStop (b : Fin 4)
  /-- SCAN_RESULT (R320) -/
  | scanResult (b : Fin 4) (slice : Fin 5) (raw : Int) (wait : BitVec 9)
  /-- CS_SCAN_POP (R320) -/
  | csScanPop (b : Fin 4)
  /-- CS_TRIG_FIRE (R321) -/
  | csTrigFire (b : Fin 4) (k : Fin 4)
  /-- CS_PCHK_GO (R324) -/
  | csPchkGo (b : Fin 4) (ch : BitVec 5) (range : Bool)
  /-- PCHK_DONE (R324) -/
  | pchkDone (b : Fin 4) (s1 s2 : Int)
  /-- RETRY_RESUME (R343) -/
  | retryResume (n : Fin 48)
  /-- RESYNC (R346) -/
  | resync (b : Fin 4) (axis : BitVec 4)
  /-- PEAK_CLR (R352) -/
  | peakClr (b : Fin 4) (axis : BitVec 4)
  /-- QUAD_EDGE (R357) -/
  | quadEdge (p : Fin 12) (a b : Bool) (e : QuadAt)
  /-- HALL_CHANGE (R359) -/
  | hallChange (p : Fin 12) (code : BitVec 3) (cyc : Nat)
  /-- STEP_EDGE (R360) -/
  | stepEdge (p : Fin 12) (dir ena : Bool) (cyc : Nat)
  /-- INDEX_EDGE (R367) -/
  | indexEdge (p : Fin 12)
  /-- SPEED_TIMEOUT (R366) -/
  | speedTimeout (p : Fin 12)
  /-- SERIAL_READ (R370) -/
  | serialRead (p : Fin 12)
  /-- SERIAL_WORD (R373) -/
  | serialWord (p : Fin 12) (waits : FrameWaits) (raw : BitVec 64) (eBit wBit : Bool) (crc : BitVec 6)
  /-- ARM (R368) -/
  | armPort (p : Fin 12)
  /-- DISARM (R368) -/
  | disarmPort (p : Fin 12)
  /-- PORT_FAULT_CLEAR (R376) -/
  | portFaultClear (p : Fin 12)
  /-- FB_MODE (R356) -/
  | fbMode (p : Fin 12) (mode : BitVec 3)
  /-- FB_FOLLOW_ENGAGE (R378) -/
  | fbFollowEngage (p : Fin 12) (axis : BitVec 6) (prof : BitVec 3)
  /-- FB_FOLLOW_DISENGAGE (R378) -/
  | fbFollowDisengage (p : Fin 12)
  /-- AUX_RESULT (R389) -/
  | auxResult (k : Fin 2) (raw : BitVec 24) (meas : BitVec 16)
  /-- AUX_GO (R389) -/
  | auxGo (k : Fin 2)
  /-- AUX_STOP (R389) -/
  | auxStop (k : Fin 2)
  /-- EX_FAULT (R385) -/
  | exFault (e : Fin 2) (bits : BitVec 3)
  /-- SF_EX_CFG (R386) -/
  | sfExCfg (e : Fin 2) (v : BitVec 32)
  /-- SF_CROSSPOINT_WRITE (R381) -/
  | sfCrosspointWrite (reg : Fin 3) (c : Fin 8) (v : BitVec 32)
  /-- TDAC_HOLD (R402) -/
  | tdacHold (hold : Bool) (code : BitVec 12)
  /-- SF_CHK_GO (R402) -/
  | sfChkGo (c : Fin 8)
  /-- SF_CHK_DONE (R402) -/
  | sfChkDone (e1 e2 : Int)
  /-- CAL_ZERO (R400) -/
  | calZero (c : Fin 8) (navg : BitVec 4)
  /-- CAL_FULL_SCALE (R400) -/
  | calFullScale (c : Fin 8) (navg : BitVec 4)
  /-- CAL_CANCEL (R400) -/
  | calCancel
  /-- CAL_TIMEOUT (R400) -/
  | calTimeout
  /-- SF_Q_POP (R401) -/
  | sfQPop
  /-- REP_PERIOD_END (R404) -/
  | repPeriodEnd (r : Fin 4)
  /-- SF_REP_HOST (R404) -/
  | sfRepHost (r : Fin 4) (v : BitVec 32)
  /-- UNIT_FAULT (R408) -/
  | unitFault (u : BitVec 8) (mech : BitVec 4)
  /-- AUDIT_MISMATCH (R409) -/
  | auditMismatch (u : BitVec 8) (sparePasses : Bool) (axes : BitVec 48)
  /-- TAKEOVER_COMPLETE (R415) -/
  | takeoverComplete (u : BitVec 8) (dur : BitVec 16) (rep : BitVec 8)
  /-- REF_FAIL (R421) -/
  | refFail
  /-- PLL_FAIL (R422) -/
  | pllFail (u : BitVec 8)
  /-- ECC_CORRECTABLE (R424) -/
  | eccCorrectable (dram : Bool) (addr : BitVec 40) (row : BitVec 24) (reserve : Bool)
  /-- ECC_UNCORRECTABLE (R424) -/
  | eccUncorrectable (loc : EccLoc) (addr : BitVec 40)
  /-- ECC_RESTORE (R424) -/
  | eccRestore (off : BitVec 32)
  /-- SCRUB (R425) -/
  | scrub (dram : Bool) (progress : BitVec 16)
  /-- FAULT_LINE (R429) -/
  | faultLine (asserted : Bool)
  /-- FM_INJECT (R408) -/
  | fmInject (w : BitVec 32)
  /-- LEDGER_INTERVAL (R430) -/
  | ledgerInterval (tbp : BitVec 24)
  /-- THERMAL_FAULT (R435) -/
  | thermalFault (n : Fin 48)
  /-- PATINA_PASS (R440) -/
  | patinaPass (w : PatinaWin)
  /-- PASS_NOW (R440) -/
  | passNow (w : PatinaWin)
  /-- CLR_LIMITS (R445) -/
  | clrLimits
  /-- PATINA_LOG_MINUTE (R439) -/
  | patinaLogMinute
  /-- PATINA_RECORD_WRITTEN (R443) -/
  | patinaRecordWritten (ok : Bool)
  /-- STRATA_TRIGGER (R452) -/
  | strataTrigger
  /-- STRATA_FREEZE (R453) -/
  | strataFreeze
  /-- ST_TRIG (R452) -/
  | stTrig
  /-- ST_ARM (R453) -/
  | stArm
  /-- ST_DISARM (R453) -/
  | stDisarm
  /-- ST_RELEASE (R453) -/
  | stRelease (layer : Fin 16)
  /-- ST_RELEASE_ALL (R453) -/
  | stReleaseAll
  /-- ST_EN (R453) -/
  | stEn (en : Bool)
  /-- ST_REGION (R447) -/
  | stRegion (v : BitVec 4)
  /-- ST_SEL (R451) -/
  | stSel (k : Fin 5) (w : Word)
  /-- HP_READ (R472) -/
  | hpRead (req : Word)
  /-- HP_WRITE (R473) -/
  | hpWrite (req : Word) (data : List Word)
  /-- HP_NOP (R463) -/
  | hpNop (req : Word)
  /-- BROADCAST_FRAME (R477) -/
  | broadcastFrame (req : Word) (data : List Word)
  /-- FRAME_DISCARD (R475) -/
  | frameDiscard (cause : Fin 6) (bcast : Bool)
  /-- FRAME_TIMEOUT (R475) -/
  | frameTimeout (bcast : Bool)
  /-- LANE_RESET (R476) -/
  | laneReset
  /-- GEN_CHANGE (R462) -/
  | genChange
  /-- HP_CLR (R478) -/
  | hpClr
  /-- ALIAS_SET (R484) -/
  | aliasSet (a : BitVec 24) (w : Word)
  /-- ALIAS_CLR (R484) -/
  | aliasClr (a : BitVec 24) (w : Word)
  /-- ALIAS_TGL (R484) -/
  | aliasTgl (a : BitVec 24) (w : Word)
  /-- MASKED_WRITE (R486) -/
  | maskedWrite (slot : BitVec 7) (axis : BitVec 8) (w : BitVec 32)
  /-- WIDE_WORD0_READ (R487) -/
  | wideWord0Read (a : BitVec 40)
  /-- WIDE_WORD_READ (R487) -/
  | wideWordRead (a : BitVec 40)
  /-- WIDE_WORD_STAGE (R487) -/
  | wideWordStage (a : BitVec 40) (w : BitVec 32)
  /-- WIDE_WORD0_WRITE (R487) -/
  | wideWord0Write (a : BitVec 40) (w : BitVec 32)
  /-- IADDR_WRITE (R488) -/
  | iaddrWrite (hi : Bool) (w : BitVec 32)
  /-- IDATA_READ (R488) -/
  | idataRead
  /-- IDATA_WRITE (R488) -/
  | idataWrite (w : BitVec 32)
  /-- PREFETCH_DONE (R488) -/
  | prefetchDone
  /-- LOCK_SET (R489) -/
  | lockSet (bits : BitVec 6)
  /-- REGISTER_WRITE (R491) -/
  | registerWrite (a : BitVec 24) (w : Word)
  /-- VHOLD_CHARGED (R52) -/
  | vholdCharged
  /-- INTERNAL_SUPPLIES_OFF (R500) -/
  | internalSuppliesOff
  /-- GATE_UV_RECOVER (R281) -/
  | gateUvRecover (b : Fin 4)
  /-- EX_FAULT_CLEAR (R386) -/
  | exFaultClear (e : Fin 2)
  /-- TCK_EDGE (R68) -/
  | tckEdge (trst tms tdi : Bool) (pins : BitVec 201)
  deriving DecidableEq, Repr

end Sys2Proof
end

