-- ==== Sys2Proof/Config.lean ====
section
/-!
DEFINITION. The values the spec leaves open, as opaque constants: nothing in Lean can evaluate them or prove a value of
them, so a statement holds whatever they are. `State` keeps the counter `Clock.draws` that each command advances; a free
value of a command is one of these applied to that counter and to a number that tells the uses apart.
-/

namespace Sys2Proof.Config

/-- A fresh free natural number: the first argument is the command counter, the second the use. -/
opaque freeNat : Nat → Nat → Nat

/-- A free bit. -/
def freeBit (draw use : Nat) : Bool := freeNat draw use % 2 == 1

/-- The angle of a vector of length zero (R331), which the rule does not state. Log entry 84 (DESIGN CHOICE). -/
opaque angleOfZero : Int

/-- What a field of `w` bits shows for a number that its format cannot represent, where the spec does not say.
Log entry 67 (DESIGN CHOICE). -/
opaque outOfFormat : Nat → Rat → Nat

/-- The image's winding resistance (UQ4.12 Ω) of an axis's coil a (0) or b (1), with which R84 compares
what step 12 measures. The spec names no register or section that holds them. Log entry 39 (DESIGN CHOICE). -/
opaque imageR : Nat → Nat → BitVec 16
/-- The image's winding inductance (µH) of an axis's coil a (0) or b (1) (R84). Log entry 39 (DESIGN CHOICE). -/
opaque imageL : Nat → Nat → BitVec 16

/-- The model value of a sample in MAQUETTE (R165), in A or V, from what the spec says it is computed from: the kind of the sample and
the coil, the mode and the compare values, VM in V, the raw R and L of the winding, the saliency in 0.1 %, the rotor's electrical angle in
addresses, the instant of the hold in the period, and the coil's current before it. The spec gives no formula.
Log entry 82 (DESIGN CHOICE). -/
opaque modelSample : List Rat → Rat

end Sys2Proof.Config
end

