-- ==== Sys2Proof/Machine/EventCodes.lean ====
section
/-!
DEFINITION. The event codes of the spec's event tables that the meanings post (severity in bits [15:14], block in
bits [13:8], detail in bits [7:0]).
-/

namespace Sys2Proof.Machine.Ev

def VM_UV : Nat := 0x87C0
def VM_RESUMED : Nat := 0x47C1
def VM_OV_CLAMP : Nat := 0x87C2
def VM_OV_RELEASE : Nat := 0x47C3
def VM_OV_TIMEOUT : Nat := 0xC7C4
def VIO_OVERLOAD : Nat := 0x82E0
def LG_RECORD : Nat := 0x42E1
def KILN_RUN : Nat := 0x0201
def KILN_STEP_FAIL : Nat := 0x8202
def KILN_ALT : Nat := 0x4203
def KILN_SKIP : Nat := 0x4204
def KILN_AXIS_OFF : Nat := 0x8205
def KILN_UNIT_RETIRED : Nat := 0x8206
def KILN_LOW_SALIENCY : Nat := 0x8207
def KILN_PORT_FAIL : Nat := 0x8208
def KILN_HOME_REVERSED : Nat := 0x4209
def KILN_LOG_ERR : Nat := 0x820A
def KILN_UNTESTED : Nat := 0x420B
def NV_CFG_TIE : Nat := 0x8301
def NV_COPY_FALLBACK : Nat := 0x8302
def NV_COMMIT_DONE : Nat := 0x0303
def NV_COMMIT_FAIL : Nat := 0x8304
def NV_PARAM_SKIP : Nat := 0x4305
def NV_CAL_WRITTEN : Nat := 0x0306
def NV_CAL_INVALID : Nat := 0x8307
def NV_TIE_ACK : Nat := 0x4308
def AX_ARMED : Nat := 0x0401
def AX_DISABLED : Nat := 0x4402
def AX_ESTOP : Nat := 0x8403
def AX_FAULT : Nat := 0xC404
def AX_LIMIT : Nat := 0x8405
def AX_LIMIT_CLEAR : Nat := 0x4406
def AX_SOFT_LIMIT : Nat := 0x4407
def AX_HOME_DONE : Nat := 0x0408
def AX_HOME_FAIL : Nat := 0x8409
def AX_MAQ_ENTER : Nat := 0x440A
def AX_MAQ_EXIT : Nat := 0x440B
def AX_REVERSAL : Nat := 0x040C
def AX_CAUSE_POSTED : Nat := 0x840D
def Q_REJECT : Nat := 0x8501
def Q_HALTED : Nat := 0x8502
def Q_ABORTED : Nat := 0x4503
def Q_SIGNAL : Nat := 0x0504
def Q_RTN_START : Nat := 0x0505
def Q_RTN_END : Nat := 0x0506
def Q_PUSH_OVF : Nat := 0x8507
def Q_SLOT_WAIT : Nat := 0x4508
def Q_EVT_LOSS : Nat := 0x8509
def Q_CPL_LOSS : Nat := 0x850A
def Q_ABORT_LATE : Nat := 0x850B
def Q_RTN_CONFLICT : Nat := 0x850C
def Q_ABORT_NOREC : Nat := 0x450D
def GR_LOCKED : Nat := 0x0601
def GR_PATH_ESTOP : Nat := 0x8602
def GR_PATH_BROKEN : Nat := 0x8603
def GR_SOFT_SHORT : Nat := 0x4604
def GR_MASTER_LOST : Nat := 0x8605
def GR_OVERSPEED : Nat := 0x8606
def GR_CAM_LATE : Nat := 0x8607
def GR_CAM_CLAMP : Nat := 0x4608
def GR_REG_MARK : Nat := 0x0609
def GR_REG_LOST : Nat := 0x860A
def GR_TRIM_STALE : Nat := 0x860B
def GR_TRIM_SAT : Nat := 0x460C
def AX_RES_SLEW : Nat := 0x4420
def AX_GUARD : Nat := 0x8421
def AX_DUTY_SAT : Nat := 0x4422
def AX_HARM_LIM : Nat := 0x4423
def PW_TRIP : Nat := 0xC701
def PW_TRIP_CLEAR : Nat := 0x4702
def PW_TRIP_CLR_REFUSED : Nat := 0x8703
def PW_TRIP_DISC : Nat := 0x8704
def PW_BRIDGE_FAULT : Nat := 0xC705
def PW_BANK_SAFE : Nat := 0xC706
def PW_ILIM : Nat := 0x8707
def PW_SAFE_FIX : Nat := 0x8708
def PW_SAFE_ALLDIFF : Nat := 0xC709
def PW_SYNC_LOCK : Nat := 0x070A
def PW_SYNC_LOST : Nat := 0x870B
def PW_SYNC_CONFLICT : Nat := 0x870C
def PW_FRAME_BAD : Nat := 0x870D
def CS_OVERRUN : Nat := 0x8801
def CS_CLIP : Nat := 0x4802
def CS_DRIFT : Nat := 0x8803
def CS_WIN : Nat := 0x4804
def CS_SCAN_OVF : Nat := 0x8805
def CS_INJ_OVR : Nat := 0x4806
def CS_PATH_FAIL : Nat := 0x8807
def CS_PATH_OK : Nat := 0x0808
def CS_SEL_BAD : Nat := 0x4809
def LA_SRC_CHANGE : Nat := 0x0901
def LA_STALL : Nat := 0x8902
def LA_RETRY : Nat := 0x4903
def LA_RETRY_OUT : Nat := 0x8904
def LA_FERR_WARN : Nat := 0x8905
def LA_FERR_FAULT : Nat := 0xC906
def LA_OBS_LOST : Nat := 0x8907
def LA_RESYNC : Nat := 0x4908
def FB_QFAULT : Nat := 0xCA01
def FB_HFAULT : Nat := 0xCA02
def FB_SFAULT : Nat := 0xCA03
def FB_INDEX_SLIP : Nat := 0x8A04
def FB_SER_WARN : Nat := 0x4A05
def FB_FAULT_CLEAR : Nat := 0x0A06
def FB_FOLLOW_ON : Nat := 0x4A07
def FB_FOLLOW_OFF : Nat := 0x4A08
def SF_EX_FAULT : Nat := 0x8B01
def SF_CH_OPEN : Nat := 0x8B02
def SF_CLIP : Nat := 0x4B03
def SF_RANGE : Nat := 0x4B04
def SF_CJC_STALE : Nat := 0x8B05
def SF_XCHK_FAIL : Nat := 0x8B06
def SF_XCHK_OK : Nat := 0x0B07
def SF_CAL_DONE : Nat := 0x0B08
def SF_CAL_FAIL : Nat := 0x8B09
def SF_CFG_BAD : Nat := 0x4B0A
def SF_Q_OVF : Nat := 0x8B0B
def SF_CHK_FAIL : Nat := 0x8B0C
def SF_CHK_OK : Nat := 0x0B0D
def FM_TAKEOVER : Nat := 0x4C01
def FM_NO_SPARE : Nat := 0x8C02
def FM_UNIT_LOST : Nat := 0xCC03
def FM_SPARE_FAIL : Nat := 0x8C04
def FM_ECC_CORR : Nat := 0x4C05
def FM_ECC_UNCORR : Nat := 0x8C06
def FM_ROW_RETIRED : Nat := 0x4C07
def FM_FAULT_LINE : Nat := 0x8C08
def FM_INJECTED : Nat := 0x4C09
def HL_ALLOC : Nat := 0x4D01
def HL_OWN_LIMIT : Nat := 0x8D02
def HL_THERMAL : Nat := 0xCD03
def HL_W_STALE : Nat := 0x8D04
def HL_TBP_HIGH : Nat := 0x8D05
def PT_RECORD : Nat := 0x0E01
def PT_RECORD_FAIL : Nat := 0x8E02
def PT_REPLAN : Nat := 0x4E03
def PT_WIND : Nat := 0x8E04
def PT_WEAR : Nat := 0x8E05
def PT_EYE_LOW : Nat := 0x8E06
def PT_OSC_DRIFT : Nat := 0x8E07
def PT_COLDPLATE : Nat := 0x8E08
def PT_FRICTION : Nat := 0x4E09
def ST_TRIGGER : Nat := 0x4F01
def ST_FROZEN : Nat := 0x0F02
def ST_TRIG_LOST : Nat := 0x8F03
def ST_GAP : Nat := 0x8F04
def HP_GEN : Nat := 0x1001
def HP_FRAME_ERR : Nat := 0x5002
def HP_BUS_ERR : Nat := 0x5003
def HP_LANE_RESET : Nat := 0x5004
def GL_LOCK_SET : Nat := 0x0101
def GL_DBG_HALT : Nat := 0x8102
def GL_DBG_END : Nat := 0x4103

end Sys2Proof.Machine.Ev
end

