-- ==== Sys2Proof/Machine/RegMap.lean ====
section
/-!
DEFINITION. The register map: one name per register of the spec's field tables, with its address expression, its width,
its apply mode and its fields (bits, access code, reset or start value). Written out from the header lines and field
tables of the spec's chapters; a field the tables mark "img" has the start value its Meaning column gives (R13), a field
marked "live" is computed on a read (Machine/Regs.lean) and holds 0 here.
-/

namespace Sys2Proof.Machine

/-- Access codes of R12. -/
inductive Acc where
  | rw | ro | wo | w1c | rwl | rwb
  deriving DecidableEq, Repr

/-- Apply modes of the header lines (R491). -/
inductive ApplyMode where
  | immediate | axApply | pwApply | csApply | laApply | fbApply | sfApply
  | nextTick | nextSyncFrame | nextHostFrame | segment | engineSlot | asR267 | passStart | snapshot
  deriving DecidableEq, Repr

/-- One field of a register: its lowest bit, its width, its access code and the value it holds after reset. -/
structure FieldDesc where
  lo : Nat
  width : Nat
  acc : Acc
  reset : Nat
  deriving DecidableEq, Repr

/-- One register description: address `base + st1·i + st2·j` for `i < n1`, `j < n2`. Bits no field covers are reserved. -/
structure RegDesc where
  base : Nat
  n1 : Nat
  st1 : Nat
  n2 : Nat
  st2 : Nat
  wide : Bool
  apply : ApplyMode
  fields : List FieldDesc
  deriving DecidableEq, Repr

/-- The registers, by the spec's names. -/
inductive Reg where
  /-- R61, 02_terminals_supplies.md -/
  | PW_VMON_CFG
  /-- R61, 02_terminals_supplies.md -/
  | PW_VMON_TIM
  /-- R61, 02_terminals_supplies.md -/
  | PW_VMON_STAT
  /-- R61, 02_terminals_supplies.md -/
  | PW_VM_MEAS
  /-- R61, 02_terminals_supplies.md -/
  | KN_SUPPLY
  /-- R61, 02_terminals_supplies.md -/
  | KN_LGASP
  /-- R97, 03_kiln_sequence.md -/
  | KN_STATE
  /-- R97, 03_kiln_sequence.md -/
  | KN_CFG
  /-- R97, 03_kiln_sequence.md -/
  | KN_FAILCNT
  /-- R97, 03_kiln_sequence.md -/
  | KN_ALT
  /-- R97, 03_kiln_sequence.md -/
  | KN_LAST
  /-- R97, 03_kiln_sequence.md -/
  | KN_CTRL
  /-- R97, 03_kiln_sequence.md -/
  | KN_TIME
  /-- R97, 03_kiln_sequence.md -/
  | KN_STEPTIME
  /-- R97, 03_kiln_sequence.md -/
  | KN_AXOFF_LO
  /-- R97, 03_kiln_sequence.md -/
  | KN_AXOFF_HI
  /-- R97, 03_kiln_sequence.md -/
  | KN_UNTESTED_LO
  /-- R97, 03_kiln_sequence.md -/
  | KN_UNTESTED_HI
  /-- R97, 03_kiln_sequence.md -/
  | KN_HOMEREV_LO
  /-- R97, 03_kiln_sequence.md -/
  | KN_HOMEREV_HI
  /-- R97, 03_kiln_sequence.md -/
  | KN_MCEN_LO
  /-- R97, 03_kiln_sequence.md -/
  | KN_MCEN_HI
  /-- R97, 03_kiln_sequence.md -/
  | KN_UNITS
  /-- R97, 03_kiln_sequence.md -/
  | KN_CORES
  /-- R97, 03_kiln_sequence.md -/
  | KN_MCHAR_A
  /-- R97, 03_kiln_sequence.md -/
  | KN_MCHAR_B
  /-- R97, 03_kiln_sequence.md -/
  | KN_MCHAR_S
  /-- R97, 03_kiln_sequence.md -/
  | KN_MEMO
  /-- R127, 04_configuration_image.md -/
  | NV_STATUS
  /-- R127, 04_configuration_image.md -/
  | NV_SEQ_A
  /-- R127, 04_configuration_image.md -/
  | NV_SEQ_B
  /-- R127, 04_configuration_image.md -/
  | NV_CAL_STAT
  /-- R127, 04_configuration_image.md -/
  | NV_COMMIT
  /-- R127, 04_configuration_image.md -/
  | NV_COMMIT_SRC
  /-- R127, 04_configuration_image.md -/
  | NV_COMMIT_LEN
  /-- R127, 04_configuration_image.md -/
  | NV_COMMIT_STAT
  /-- R127, 04_configuration_image.md -/
  | NV_ACC_ADDR
  /-- R127, 04_configuration_image.md -/
  | NV_ACC_CTRL
  /-- R127, 04_configuration_image.md -/
  | NV_ACC_DATA
  /-- R127, 04_configuration_image.md -/
  | NV_KEY_STAT
  /-- R127, 04_configuration_image.md -/
  | NV_KEY_CMD
  /-- R127, 04_configuration_image.md -/
  | NV_KEY_DATA
  /-- R167, 05_motion_profiles.md -/
  | AX_STATE
  /-- R167, 05_motion_profiles.md -/
  | AX_CTRL
  /-- R167, 05_motion_profiles.md -/
  | AX_FAULT
  /-- R167, 05_motion_profiles.md -/
  | AX_CFG
  /-- R167, 05_motion_profiles.md -/
  | AX_CUR
  /-- R167, 05_motion_profiles.md -/
  | AX_IHOLD
  /-- R167, 05_motion_profiles.md -/
  | AX_LIM_CFG
  /-- R167, 05_motion_profiles.md -/
  | AX_LIM_STAT
  /-- R167, 05_motion_profiles.md -/
  | AX_LIM_AWAY
  /-- R167, 05_motion_profiles.md -/
  | AX_SLIM
  /-- R167, 05_motion_profiles.md -/
  | AX_PROF
  /-- R167, 05_motion_profiles.md -/
  | AX_RETGT
  /-- R167, 05_motion_profiles.md -/
  | AX_HOME_CFG
  /-- R167, 05_motion_profiles.md -/
  | AX_HOME_VF
  /-- R167, 05_motion_profiles.md -/
  | AX_HOME_VS
  /-- R167, 05_motion_profiles.md -/
  | AX_HOME_DIST
  /-- R167, 05_motion_profiles.md -/
  | AX_HOME_POS
  /-- R167, 05_motion_profiles.md -/
  | AX_HOME_CAP
  /-- R167, 05_motion_profiles.md -/
  | AX_HOME_STAT
  /-- R167, 05_motion_profiles.md -/
  | AX_MAQ_CFG
  /-- R167, 05_motion_profiles.md -/
  | AX_SEG
  /-- R209, 06_command_queues.md -/
  | Q_CFG
  /-- R209, 06_command_queues.md -/
  | Q_STATUS
  /-- R209, 06_command_queues.md -/
  | Q_CTRL
  /-- R209, 06_command_queues.md -/
  | Q_LEVEL
  /-- R209, 06_command_queues.md -/
  | Q_LAST
  /-- R209, 06_command_queues.md -/
  | Q_SIGNAL
  /-- R209, 06_command_queues.md -/
  | Q_RTN
  /-- R209, 06_command_queues.md -/
  | Q_PC
  /-- R209, 06_command_queues.md -/
  | Q_ABORT
  /-- R209, 06_command_queues.md -/
  | Q_ABORT_STAT
  /-- R209, 06_command_queues.md -/
  | Q_HEAD
  /-- R209, 06_command_queues.md -/
  | Q_PUSH
  /-- R209, 06_command_queues.md -/
  | Q_PUSH_DB
  /-- R209, 06_command_queues.md -/
  | Q_DB
  /-- R209, 06_command_queues.md -/
  | Q_UNIT_CFG
  /-- R209, 06_command_queues.md -/
  | Q_UNIT_STAT
  /-- R209, 06_command_queues.md -/
  | Q_CPL_WR
  /-- R209, 06_command_queues.md -/
  | Q_CPL_RD
  /-- R209, 06_command_queues.md -/
  | Q_CPL_LOST
  /-- R209, 06_command_queues.md -/
  | Q_CPL_QN
  /-- R209, 06_command_queues.md -/
  | Q_CPL_PEEK
  /-- R209, 06_command_queues.md -/
  | Q_CPL_POP
  /-- R209, 06_command_queues.md -/
  | Q_EVT_WR
  /-- R209, 06_command_queues.md -/
  | Q_EVT_RD
  /-- R209, 06_command_queues.md -/
  | Q_EVT_LOST
  /-- R209, 06_command_queues.md -/
  | Q_EVT_MWR
  /-- R209, 06_command_queues.md -/
  | Q_EVT_PEEK
  /-- R209, 06_command_queues.md -/
  | Q_EVT_POP
  /-- R209, 06_command_queues.md -/
  | Q_IRQ
  /-- R209, 06_command_queues.md -/
  | Q_IRQ_EN
  /-- R209, 06_command_queues.md -/
  | Q_MDB_LO
  /-- R209, 06_command_queues.md -/
  | Q_MDB_HI
  /-- R209, 06_command_queues.md -/
  | Q_ABORT_X
  /-- R209, 06_command_queues.md -/
  | Q_ABIN
  /-- R209, 06_command_queues.md -/
  | Q_GI_CFG
  /-- R209, 06_command_queues.md -/
  | Q_GI_STAT
  /-- R238, 07_armatures_following.md -/
  | GR_MEMB_LO
  /-- R238, 07_armatures_following.md -/
  | GR_MEMB_HI
  /-- R238, 07_armatures_following.md -/
  | GR_CFG
  /-- R238, 07_armatures_following.md -/
  | GR_STATUS
  /-- R238, 07_armatures_following.md -/
  | GR_CTRL
  /-- R238, 07_armatures_following.md -/
  | GR_PATH
  /-- R238, 07_armatures_following.md -/
  | GR_LEN
  /-- R238, 07_armatures_following.md -/
  | GR_TGT
  /-- R238, 07_armatures_following.md -/
  | GR_CAMTAB
  /-- R238, 07_armatures_following.md -/
  | GR_VAX_CMD
  /-- R238, 07_armatures_following.md -/
  | GR_VAX_STATE
  /-- R238, 07_armatures_following.md -/
  | GR_REG_CFG
  /-- R238, 07_armatures_following.md -/
  | GR_REG_GAIN
  /-- R238, 07_armatures_following.md -/
  | GR_REG_STAT
  /-- R238, 07_armatures_following.md -/
  | GR_REG_GEOM
  /-- R238, 07_armatures_following.md -/
  | GR_REG_EXP
  /-- R238, 07_armatures_following.md -/
  | GR_REG_ERR
  /-- R238, 07_armatures_following.md -/
  | GR_FSTATE
  /-- R238, 07_armatures_following.md -/
  | GR_FSTAT
  /-- R238, 07_armatures_following.md -/
  | GR_TRIM_SP
  /-- R238, 07_armatures_following.md -/
  | GR_TRIM_KP
  /-- R238, 07_armatures_following.md -/
  | GR_TRIM_KI
  /-- R238, 07_armatures_following.md -/
  | GR_TRIM_LIM
  /-- R238, 07_armatures_following.md -/
  | GR_TRIM_OUT
  /-- R264, 08_commutation_current.md -/
  | AX_COMM_CFG
  /-- R264, 08_commutation_current.md -/
  | AX_RES_THR
  /-- R264, 08_commutation_current.md -/
  | AX_RES_THR2
  /-- R264, 08_commutation_current.md -/
  | AX_MODE_CFG
  /-- R264, 08_commutation_current.md -/
  | AX_CR_PI
  /-- R264, 08_commutation_current.md -/
  | AX_CR_FF
  /-- R264, 08_commutation_current.md -/
  | AX_CR_CHOP
  /-- R264, 08_commutation_current.md -/
  | AX_CUR_LIM
  /-- R264, 08_commutation_current.md -/
  | AX_COMM_OFS
  /-- R264, 08_commutation_current.md -/
  | AX_COIL
  /-- R264, 08_commutation_current.md -/
  | AX_CR_STAT
  /-- R264, 08_commutation_current.md -/
  | AX_CR_RL_A
  /-- R264, 08_commutation_current.md -/
  | AX_CR_RL_B
  /-- R264, 08_commutation_current.md -/
  | AX_HARM_CFG
  /-- R264, 08_commutation_current.md -/
  | AX_HARM_SPD
  /-- R264, 08_commutation_current.md -/
  | AX_HARM_SEL
  /-- R264, 08_commutation_current.md -/
  | AX_HARM_DATA
  /-- R297, 09_bridges_pwm_trip.md -/
  | PW_CFG
  /-- R297, 09_bridges_pwm_trip.md -/
  | PW_PERIOD
  /-- R297, 09_bridges_pwm_trip.md -/
  | PW_MINP
  /-- R297, 09_bridges_pwm_trip.md -/
  | PW_SAFE
  /-- R297, 09_bridges_pwm_trip.md -/
  | PW_SAFE_STAT
  /-- R297, 09_bridges_pwm_trip.md -/
  | PW_ILIM
  /-- R297, 09_bridges_pwm_trip.md -/
  | PW_STAT
  /-- R297, 09_bridges_pwm_trip.md -/
  | PW_BFAULT
  /-- R297, 09_bridges_pwm_trip.md -/
  | PW_DT
  /-- R297, 09_bridges_pwm_trip.md -/
  | PW_CH_OFS
  /-- R297, 09_bridges_pwm_trip.md -/
  | PW_CH_STAT
  /-- R297, 09_bridges_pwm_trip.md -/
  | PW_TRIP_CFG
  /-- R297, 09_bridges_pwm_trip.md -/
  | PW_TRIP_STAT
  /-- R297, 09_bridges_pwm_trip.md -/
  | PW_TRIP_TS
  /-- R297, 09_bridges_pwm_trip.md -/
  | PW_SYNC_CFG
  /-- R297, 09_bridges_pwm_trip.md -/
  | PW_SYNC_DLY
  /-- R297, 09_bridges_pwm_trip.md -/
  | PW_SYNC_STAT
  /-- R326, 10_current_sensing.md -/
  | CS_CFG
  /-- R326, 10_current_sensing.md -/
  | CS_SCHED
  /-- R326, 10_current_sensing.md -/
  | CS_RANGE
  /-- R326, 10_current_sensing.md -/
  | CS_STAT
  /-- R326, 10_current_sensing.md -/
  | CS_CNT
  /-- R326, 10_current_sensing.md -/
  | CS_SLICE
  /-- R326, 10_current_sensing.md -/
  | CS_INJ_CTRL
  /-- R326, 10_current_sensing.md -/
  | CS_INJ_STAT
  /-- R326, 10_current_sensing.md -/
  | CS_INJ_RES
  /-- R326, 10_current_sensing.md -/
  | CS_SCAN_CFG
  /-- R326, 10_current_sensing.md -/
  | CS_SCAN_STAT
  /-- R326, 10_current_sensing.md -/
  | CS_SCAN_LIST
  /-- R326, 10_current_sensing.md -/
  | CS_SCAN_PEEK
  /-- R326, 10_current_sensing.md -/
  | CS_SCAN_POP
  /-- R326, 10_current_sensing.md -/
  | CS_TRIG
  /-- R326, 10_current_sensing.md -/
  | CS_WIN_CFG
  /-- R326, 10_current_sensing.md -/
  | CS_WIN_THR
  /-- R326, 10_current_sensing.md -/
  | CS_WIN_STAT
  /-- R326, 10_current_sensing.md -/
  | CS_PCHK
  /-- R326, 10_current_sensing.md -/
  | CS_PCHK_STAT
  /-- R352, 11_load_angle_stall.md -/
  | LA_CFG
  /-- R352, 11_load_angle_stall.md -/
  | LA_CTRL
  /-- R352, 11_load_angle_stall.md -/
  | LA_BSTAT
  /-- R352, 11_load_angle_stall.md -/
  | LA_OBS_CFG
  /-- R352, 11_load_angle_stall.md -/
  | LA_RS_CFG
  /-- R352, 11_load_angle_stall.md -/
  | LA_STALL_CFG
  /-- R352, 11_load_angle_stall.md -/
  | LA_RETRY_CFG
  /-- R352, 11_load_angle_stall.md -/
  | LA_LF_CFG
  /-- R352, 11_load_angle_stall.md -/
  | LA_VER_CFG
  /-- R352, 11_load_angle_stall.md -/
  | LA_VER_LIM
  /-- R352, 11_load_angle_stall.md -/
  | LA_AX_STAT
  /-- R352, 11_load_angle_stall.md -/
  | LA_AX
  /-- R352, 11_load_angle_stall.md -/
  | LA_VER
  /-- R379, 12_feedback_ports.md -/
  | FB_CFG
  /-- R379, 12_feedback_ports.md -/
  | FB_CTRL
  /-- R379, 12_feedback_ports.md -/
  | FB_STAT
  /-- R379, 12_feedback_ports.md -/
  | FB_ERR
  /-- R379, 12_feedback_ports.md -/
  | FB_CPR
  /-- R379, 12_feedback_ports.md -/
  | FB_IDX
  /-- R379, 12_feedback_ports.md -/
  | FB_IDX_OFS
  /-- R379, 12_feedback_ports.md -/
  | FB_SPD_CFG
  /-- R379, 12_feedback_ports.md -/
  | FB_SER
  /-- R379, 12_feedback_ports.md -/
  | FB_SER_TIM
  /-- R379, 12_feedback_ports.md -/
  | FB_SERR
  /-- R379, 12_feedback_ports.md -/
  | FB_SER_JMP
  /-- R379, 12_feedback_ports.md -/
  | FB_FOLLOW
  /-- R379, 12_feedback_ports.md -/
  | FB_PINS
  /-- R379, 12_feedback_ports.md -/
  | FB_SCALE
  /-- R379, 12_feedback_ports.md -/
  | FB_STATE
  /-- R379, 12_feedback_ports.md -/
  | FB_CNT
  /-- R379, 12_feedback_ports.md -/
  | FB_IDX_CAP
  /-- R379, 12_feedback_ports.md -/
  | FB_SWORD
  /-- R405, 13_sensor_front_end.md -/
  | SF_CFG
  /-- R405, 13_sensor_front_end.md -/
  | SF_STATUS
  /-- R405, 13_sensor_front_end.md -/
  | SF_AUX_CFG
  /-- R405, 13_sensor_front_end.md -/
  | SF_SEQ
  /-- R405, 13_sensor_front_end.md -/
  | SF_AUX_STAT
  /-- R405, 13_sensor_front_end.md -/
  | SF_EX_CFG
  /-- R405, 13_sensor_front_end.md -/
  | SF_EX_STAT
  /-- R405, 13_sensor_front_end.md -/
  | SF_BLANK_CFG
  /-- R405, 13_sensor_front_end.md -/
  | SF_TDAC
  /-- R405, 13_sensor_front_end.md -/
  | SF_CHK
  /-- R405, 13_sensor_front_end.md -/
  | SF_CAL_CMD
  /-- R405, 13_sensor_front_end.md -/
  | SF_Q_STAT
  /-- R405, 13_sensor_front_end.md -/
  | SF_DWR
  /-- R405, 13_sensor_front_end.md -/
  | SF_Q_PEEK
  /-- R405, 13_sensor_front_end.md -/
  | SF_Q_POP
  /-- R405, 13_sensor_front_end.md -/
  | SF_CH_CFG
  /-- R405, 13_sensor_front_end.md -/
  | SF_CH_BIAS
  /-- R405, 13_sensor_front_end.md -/
  | SF_CH_CURVE
  /-- R405, 13_sensor_front_end.md -/
  | SF_CH_STAT
  /-- R405, 13_sensor_front_end.md -/
  | SF_CH_P
  /-- R405, 13_sensor_front_end.md -/
  | SF_XCHK
  /-- R405, 13_sensor_front_end.md -/
  | SF_XTOL
  /-- R405, 13_sensor_front_end.md -/
  | SF_CAL_ZERO
  /-- R405, 13_sensor_front_end.md -/
  | SF_CAL_GAIN
  /-- R405, 13_sensor_front_end.md -/
  | SF_CAL_REF
  /-- R405, 13_sensor_front_end.md -/
  | SF_DATA
  /-- R405, 13_sensor_front_end.md -/
  | SF_REP_CFG
  /-- R405, 13_sensor_front_end.md -/
  | SF_REP_VLO
  /-- R405, 13_sensor_front_end.md -/
  | SF_REP_VHI
  /-- R405, 13_sensor_front_end.md -/
  | SF_REP_HOST
  /-- R405, 13_sensor_front_end.md -/
  | SF_REP_OLO
  /-- R405, 13_sensor_front_end.md -/
  | SF_REP_OHI
  /-- R405, 13_sensor_front_end.md -/
  | SF_REP_OFLT
  /-- R405, 13_sensor_front_end.md -/
  | SF_REP_STAT
  /-- R436, 14_fault_masking_heat.md -/
  | FM_CFG
  /-- R436, 14_fault_masking_heat.md -/
  | FM_STATUS
  /-- R436, 14_fault_masking_heat.md -/
  | FM_TKO
  /-- R436, 14_fault_masking_heat.md -/
  | FM_CNT
  /-- R436, 14_fault_masking_heat.md -/
  | FM_ECC_S
  /-- R436, 14_fault_masking_heat.md -/
  | FM_ECC_D
  /-- R436, 14_fault_masking_heat.md -/
  | FM_ECC_LAST
  /-- R436, 14_fault_masking_heat.md -/
  | FM_SCRUB
  /-- R436, 14_fault_masking_heat.md -/
  | FM_CLK
  /-- R436, 14_fault_masking_heat.md -/
  | FM_FAULTN
  /-- R436, 14_fault_masking_heat.md -/
  | FM_INJECT
  /-- R436, 14_fault_masking_heat.md -/
  | HL_CFG
  /-- R436, 14_fault_masking_heat.md -/
  | HL_CFG2
  /-- R436, 14_fault_masking_heat.md -/
  | HL_THERM
  /-- R436, 14_fault_masking_heat.md -/
  | HL_TAU
  /-- R436, 14_fault_masking_heat.md -/
  | HL_STATE
  /-- R436, 14_fault_masking_heat.md -/
  | HL_STAT
  /-- R436, 14_fault_masking_heat.md -/
  | HL_AX_CFG
  /-- R436, 14_fault_masking_heat.md -/
  | HL_AX_STATE
  /-- R436, 14_fault_masking_heat.md -/
  | HL_AX_P
  /-- R456, 15_patina_strata.md -/
  | PT_CFG
  /-- R456, 15_patina_strata.md -/
  | PT_CFG2
  /-- R456, 15_patina_strata.md -/
  | PT_CFG3
  /-- R456, 15_patina_strata.md -/
  | PT_STAT
  /-- R456, 15_patina_strata.md -/
  | PT_CTRL
  /-- R456, 15_patina_strata.md -/
  | PT_SEQ
  /-- R456, 15_patina_strata.md -/
  | PT_MOD
  /-- R456, 15_patina_strata.md -/
  | PT_AX
  /-- R456, 15_patina_strata.md -/
  | PT_PLAN
  /-- R456, 15_patina_strata.md -/
  | ST_CFG
  /-- R456, 15_patina_strata.md -/
  | ST_REGION
  /-- R456, 15_patina_strata.md -/
  | ST_STAT
  /-- R456, 15_patina_strata.md -/
  | ST_RATE
  /-- R456, 15_patina_strata.md -/
  | ST_CTRL
  /-- R456, 15_patina_strata.md -/
  | ST_TRIG_CFG
  /-- R456, 15_patina_strata.md -/
  | ST_TRIG_EVT
  /-- R456, 15_patina_strata.md -/
  | ST_TRIG_CS
  /-- R456, 15_patina_strata.md -/
  | ST_TIME
  /-- R456, 15_patina_strata.md -/
  | ST_SEL
  /-- R456, 15_patina_strata.md -/
  | ST_WR
  /-- R456, 15_patina_strata.md -/
  | ST_LAYER
  /-- R456, 15_patina_strata.md -/
  | ST_LAYER_ST
  /-- R478, 16_host_port.md -/
  | HP_CFG
  /-- R478, 16_host_port.md -/
  | HP_STAT
  /-- R478, 16_host_port.md -/
  | HP_ERR
  /-- R478, 16_host_port.md -/
  | HP_CTRL
  /-- R478, 16_host_port.md -/
  | HP_LAST
  /-- R478, 16_host_port.md -/
  | HP_FRAMES
  /-- R496, 17_register_model.md -/
  | GL_ID
  /-- R496, 17_register_model.md -/
  | GL_STATUS
  /-- R496, 17_register_model.md -/
  | GL_LOCK
  /-- R496, 17_register_model.md -/
  | GL_AXSEL
  /-- R496, 17_register_model.md -/
  | GL_DBG
  /-- R497, 17_register_model.md -/
  | GL_SCRATCH
  /-- R497, 17_register_model.md -/
  | GL_IADDR
  /-- R497, 17_register_model.md -/
  | GL_IADDR_HI
  /-- R497, 17_register_model.md -/
  | GL_IDATA
  /-- R497, 17_register_model.md -/
  | GL_ISTAT
  /-- R497, 17_register_model.md -/
  | GL_TS
  deriving DecidableEq, Repr

/-- The description of each register. -/
def Reg.desc : Reg → RegDesc
  | .PW_VMON_CFG => ⟨0x40f00, 4, 0x1000, 1, 0x0, false, .immediate, [
      ⟨0, 8, .rw, 0x10⟩, ⟨8, 4, .rw, 2⟩, ⟨12, 2, .rw, 0⟩, ⟨16, 8, .rwl, 0x80⟩, ⟨24, 4, .rwl, 4⟩, ⟨28, 1, .rwl, 1⟩]⟩
  | .PW_VMON_TIM => ⟨0x40f04, 4, 0x1000, 1, 0x0, false, .immediate, [
      ⟨0, 8, .rw, 0x32⟩, ⟨8, 8, .rw, 0x64⟩, ⟨16, 8, .rw, 0x14⟩]⟩
  | .PW_VMON_STAT => ⟨0x40f08, 4, 0x1000, 1, 0x0, false, .immediate, [
      ⟨0, 1, .w1c, 0⟩, ⟨1, 1, .ro, 0⟩, ⟨2, 1, .w1c, 0⟩, ⟨3, 1, .ro, 0⟩, ⟨4, 1, .w1c, 0⟩, ⟨5, 1, .ro, 0⟩, ⟨6, 1, .wo, 0⟩, ⟨8, 8, .ro, 0⟩, ⟨16, 8, .ro, 0⟩]⟩
  | .PW_VM_MEAS => ⟨0x40f0c, 4, 0x1000, 1, 0x0, false, .immediate, [
      ⟨0, 16, .ro, 0⟩]⟩
  | .KN_SUPPLY => ⟨0x8f00, 1, 0x0, 1, 0x0, false, .immediate, [
      ⟨0, 1, .ro, 0⟩, ⟨1, 1, .ro, 0⟩, ⟨2, 1, .ro, 0⟩, ⟨3, 1, .ro, 0⟩, ⟨4, 1, .ro, 0⟩, ⟨5, 1, .ro, 0⟩, ⟨6, 1, .ro, 0⟩, ⟨8, 1, .w1c, 0⟩, ⟨9, 1, .ro, 0⟩, ⟨16, 16, .ro, 0⟩]⟩
  | .KN_LGASP => ⟨0x8f04, 1, 0x0, 1, 0x0, false, .immediate, [
      ⟨0, 8, .rw, 0x22⟩, ⟨8, 1, .rw, 1⟩, ⟨16, 16, .ro, 0⟩]⟩
  | .KN_STATE => ⟨0x8000, 1, 0x0, 1, 0x0, false, .immediate, [
      ⟨0, 5, .ro, 0⟩, ⟨5, 3, .ro, 0⟩, ⟨8, 2, .ro, 0⟩, ⟨16, 8, .ro, 0⟩, ⟨24, 8, .ro, 0⟩]⟩
  | .KN_CFG => ⟨0x8004, 1, 0x0, 1, 0x0, false, .immediate, [
      ⟨0, 1, .rw, 1⟩, ⟨1, 1, .rw, 1⟩, ⟨2, 1, .rw, 1⟩, ⟨3, 1, .rw, 1⟩, ⟨4, 1, .rw, 1⟩, ⟨5, 1, .rw, 0⟩, ⟨8, 8, .rw, 0xa⟩, ⟨16, 8, .rw, 0x1e⟩, ⟨24, 8, .rw, 0x1e⟩]⟩
  | .KN_FAILCNT => ⟨0x8008, 1, 0x0, 1, 0x0, false, .immediate, [
      ⟨0, 32, .ro, 0⟩]⟩
  | .KN_ALT => ⟨0x800c, 1, 0x0, 1, 0x0, false, .immediate, [
      ⟨0, 16, .ro, 0⟩, ⟨16, 1, .ro, 0⟩, ⟨17, 1, .ro, 0⟩, ⟨18, 1, .ro, 0⟩]⟩
  | .KN_LAST => ⟨0x8010, 1, 0x0, 1, 0x0, false, .immediate, [
      ⟨0, 5, .ro, 0⟩, ⟨8, 8, .ro, 0⟩, ⟨16, 16, .ro, 0⟩]⟩
  | .KN_CTRL => ⟨0x8014, 1, 0x0, 1, 0x0, false, .immediate, [
      ⟨0, 1, .wo, 0⟩, ⟨1, 1, .wo, 0⟩, ⟨2, 1, .wo, 0⟩, ⟨3, 1, .wo, 0⟩]⟩
  | .KN_TIME => ⟨0x8018, 1, 0x0, 1, 0x0, false, .immediate, [
      ⟨0, 24, .ro, 0⟩]⟩
  | .KN_STEPTIME => ⟨0x8040, 16, 0x4, 1, 0x0, false, .immediate, [
      ⟨0, 20, .ro, 0⟩]⟩
  | .KN_AXOFF_LO => ⟨0x8080, 1, 0x0, 1, 0x0, false, .immediate, [
      ⟨0, 32, .ro, 0⟩]⟩
  | .KN_AXOFF_HI => ⟨0x8084, 1, 0x0, 1, 0x0, false, .immediate, [
      ⟨0, 32, .ro, 0⟩]⟩
  | .KN_UNTESTED_LO => ⟨0x8088, 1, 0x0, 1, 0x0, false, .immediate, [
      ⟨0, 32, .ro, 0⟩]⟩
  | .KN_UNTESTED_HI => ⟨0x808c, 1, 0x0, 1, 0x0, false, .immediate, [
      ⟨0, 32, .ro, 0⟩]⟩
  | .KN_HOMEREV_LO => ⟨0x8090, 1, 0x0, 1, 0x0, false, .immediate, [
      ⟨0, 32, .ro, 0⟩]⟩
  | .KN_HOMEREV_HI => ⟨0x8094, 1, 0x0, 1, 0x0, false, .immediate, [
      ⟨0, 32, .ro, 0⟩]⟩
  | .KN_MCEN_LO => ⟨0x8098, 1, 0x0, 1, 0x0, false, .immediate, [
      ⟨0, 32, .rw, 0xffffffff⟩]⟩
  | .KN_MCEN_HI => ⟨0x809c, 1, 0x0, 1, 0x0, false, .immediate, [
      ⟨0, 16, .rw, 0xffff⟩]⟩
  | .KN_UNITS => ⟨0x80a0, 1, 0x0, 1, 0x0, false, .immediate, [
      ⟨0, 20, .ro, 0⟩, ⟨20, 12, .ro, 0⟩]⟩
  | .KN_CORES => ⟨0x80a4, 1, 0x0, 1, 0x0, false, .immediate, [
      ⟨0, 9, .ro, 0⟩, ⟨16, 5, .ro, 0⟩, ⟨24, 8, .ro, 0⟩]⟩
  | .KN_MCHAR_A => ⟨0x8100, 48, 0x10, 1, 0x0, false, .immediate, [
      ⟨0, 16, .ro, 0⟩, ⟨16, 16, .ro, 0⟩]⟩
  | .KN_MCHAR_B => ⟨0x8104, 48, 0x10, 1, 0x0, false, .immediate, [
      ⟨0, 16, .ro, 0⟩, ⟨16, 16, .ro, 0⟩]⟩
  | .KN_MCHAR_S => ⟨0x8108, 48, 0x10, 1, 0x0, false, .immediate, [
      ⟨0, 10, .ro, 0⟩, ⟨16, 1, .ro, 0⟩, ⟨17, 1, .ro, 0⟩, ⟨18, 1, .ro, 0⟩, ⟨19, 1, .ro, 0⟩, ⟨20, 1, .ro, 0⟩, ⟨21, 1, .ro, 0⟩, ⟨22, 1, .ro, 1⟩, ⟨23, 1, .ro, 0⟩]⟩
  | .KN_MEMO => ⟨0x8f08, 1, 0x0, 1, 0x0, false, .immediate, [
      ⟨0, 1, .ro, 0⟩, ⟨1, 3, .ro, 0⟩, ⟨8, 8, .ro, 0⟩, ⟨16, 8, .ro, 0⟩, ⟨24, 2, .ro, 0⟩]⟩
  | .NV_STATUS => ⟨0x8800, 1, 0x0, 1, 0x0, false, .immediate, [
      ⟨0, 1, .ro, 0⟩, ⟨1, 1, .ro, 0⟩, ⟨2, 1, .ro, 0⟩, ⟨3, 1, .ro, 0⟩, ⟨4, 1, .ro, 0⟩, ⟨8, 2, .ro, 0⟩, ⟨10, 1, .ro, 0⟩, ⟨12, 3, .ro, 0⟩, ⟨16, 2, .ro, 0⟩]⟩
  | .NV_SEQ_A => ⟨0x8804, 1, 0x0, 1, 0x0, false, .immediate, [
      ⟨0, 32, .ro, 0⟩]⟩
  | .NV_SEQ_B => ⟨0x8808, 1, 0x0, 1, 0x0, false, .immediate, [
      ⟨0, 32, .ro, 0⟩]⟩
  | .NV_CAL_STAT => ⟨0x880c, 1, 0x0, 1, 0x0, false, .immediate, [
      ⟨0, 1, .ro, 0⟩, ⟨1, 1, .ro, 0⟩, ⟨2, 1, .ro, 0⟩, ⟨3, 1, .ro, 0⟩]⟩
  | .NV_COMMIT => ⟨0x8810, 1, 0x0, 1, 0x0, false, .immediate, [
      ⟨0, 1, .wo, 0⟩, ⟨1, 1, .wo, 0⟩, ⟨2, 2, .wo, 0⟩]⟩
  | .NV_COMMIT_SRC => ⟨0x8814, 1, 0x0, 1, 0x0, false, .immediate, [
      ⟨0, 32, .rw, 0x6000000⟩]⟩
  | .NV_COMMIT_LEN => ⟨0x8818, 1, 0x0, 1, 0x0, false, .immediate, [
      ⟨0, 32, .rw, 0⟩]⟩
  | .NV_COMMIT_STAT => ⟨0x881c, 1, 0x0, 1, 0x0, false, .immediate, [
      ⟨0, 1, .ro, 0⟩, ⟨1, 1, .w1c, 0⟩, ⟨2, 1, .w1c, 0⟩, ⟨3, 1, .ro, 0⟩, ⟨4, 4, .ro, 0⟩, ⟨8, 8, .ro, 0⟩, ⟨16, 7, .ro, 0⟩]⟩
  | .NV_ACC_ADDR => ⟨0x8820, 1, 0x0, 1, 0x0, false, .immediate, [
      ⟨0, 32, .rw, 0⟩]⟩
  | .NV_ACC_CTRL => ⟨0x8824, 1, 0x0, 1, 0x0, false, .immediate, [
      ⟨0, 2, .rw, 0⟩, ⟨2, 1, .wo, 0⟩, ⟨8, 1, .ro, 0⟩, ⟨9, 1, .w1c, 0⟩, ⟨10, 1, .w1c, 0⟩, ⟨11, 1, .w1c, 0⟩]⟩
  | .NV_ACC_DATA => ⟨0x8830, 4, 0x4, 1, 0x0, false, .immediate, [
      ⟨0, 32, .rw, 0⟩]⟩
  | .NV_KEY_STAT => ⟨0x8840, 1, 0x0, 1, 0x0, false, .immediate, [
      ⟨0, 4, .ro, 0⟩, ⟨4, 4, .ro, 0⟩, ⟨8, 1, .ro, 0⟩, ⟨16, 1, .w1c, 0⟩, ⟨17, 1, .w1c, 0⟩]⟩
  | .NV_KEY_CMD => ⟨0x8844, 1, 0x0, 1, 0x0, false, .immediate, [
      ⟨0, 2, .wo, 0⟩, ⟨2, 2, .wo, 0⟩, ⟨8, 8, .wo, 0⟩]⟩
  | .NV_KEY_DATA => ⟨0x8850, 8, 0x4, 1, 0x0, false, .immediate, [
      ⟨0, 32, .rw, 0⟩]⟩
  | .AX_STATE => ⟨0x10000, 48, 0x400, 1, 0x0, true, .snapshot, [
      ⟨0, 64, .ro, 0⟩, ⟨64, 48, .ro, 0⟩, ⟨112, 4, .ro, 0⟩, ⟨116, 4, .ro, 0⟩, ⟨120, 1, .ro, 0⟩, ⟨121, 1, .ro, 1⟩, ⟨122, 1, .ro, 0⟩, ⟨123, 1, .ro, 0⟩, ⟨124, 1, .ro, 0⟩, ⟨125, 1, .ro, 0⟩, ⟨126, 1, .ro, 0⟩]⟩
  | .AX_CTRL => ⟨0x10010, 48, 0x400, 1, 0x0, false, .immediate, [
      ⟨0, 1, .wo, 0⟩, ⟨1, 1, .wo, 0⟩, ⟨2, 1, .wo, 0⟩, ⟨3, 1, .wo, 0⟩, ⟨4, 1, .wo, 0⟩]⟩
  | .AX_FAULT => ⟨0x10014, 48, 0x400, 1, 0x0, false, .immediate, [
      ⟨0, 8, .ro, 0⟩, ⟨8, 8, .ro, 0⟩, ⟨16, 1, .w1c, 0⟩, ⟨17, 1, .w1c, 0⟩, ⟨18, 1, .w1c, 0⟩, ⟨19, 1, .w1c, 0⟩]⟩
  | .AX_CFG => ⟨0x10018, 48, 0x400, 1, 0x0, false, .immediate, [
      ⟨0, 2, .rw, 2⟩, ⟨2, 1, .rwl, 0⟩, ⟨3, 1, .rw, 0⟩, ⟨4, 1, .rw, 1⟩]⟩
  | .AX_CUR => ⟨0x1001c, 48, 0x400, 1, 0x0, false, .axApply, [
      ⟨0, 16, .rwb, 0⟩, ⟨16, 7, .rwb, 0x32⟩]⟩
  | .AX_IHOLD => ⟨0x10020, 48, 0x400, 1, 0x0, false, .axApply, [
      ⟨0, 10, .rwb, 0x32⟩, ⟨10, 10, .rwb, 0x64⟩, ⟨20, 8, .rwb, 0x14⟩]⟩
  | .AX_LIM_CFG => ⟨0x10024, 48, 0x400, 1, 0x0, false, .immediate, [
      ⟨0, 1, .rwl, 0⟩, ⟨1, 1, .rwl, 0⟩, ⟨2, 1, .rwl, 0⟩, ⟨8, 1, .rwl, 0⟩, ⟨9, 1, .rwl, 0⟩, ⟨10, 1, .rwl, 0⟩, ⟨16, 1, .rwl, 0⟩, ⟨17, 1, .rwl, 1⟩, ⟨24, 8, .rwl, 0x14⟩]⟩
  | .AX_LIM_STAT => ⟨0x10028, 48, 0x400, 1, 0x0, false, .immediate, [
      ⟨0, 1, .ro, 0⟩, ⟨1, 1, .ro, 0⟩, ⟨2, 1, .w1c, 0⟩, ⟨3, 1, .w1c, 0⟩, ⟨4, 1, .w1c, 0⟩, ⟨5, 1, .w1c, 0⟩, ⟨6, 1, .w1c, 0⟩, ⟨8, 8, .ro, 0⟩]⟩
  | .AX_LIM_AWAY => ⟨0x1002c, 48, 0x400, 1, 0x0, false, .immediate, [
      ⟨0, 32, .rwl, 0x10000⟩]⟩
  | .AX_SLIM => ⟨0x10030, 48, 0x400, 1, 0x0, true, .immediate, [
      ⟨0, 64, .rwl, 0x8000000000000000⟩, ⟨64, 64, .rwl, 0x7fffffffffffffff⟩]⟩
  | .AX_PROF => ⟨0x10040, 48, 0x400, 8, 0x10, true, .segment, [
      ⟨0, 32, .rwl, 0⟩, ⟨32, 32, .rwl, 0⟩, ⟨64, 32, .rwl, 0⟩, ⟨96, 32, .rwl, 0⟩]⟩
  | .AX_RETGT => ⟨0x100c0, 48, 0x400, 1, 0x0, true, .engineSlot, [
      ⟨0, 64, .rw, 0⟩, ⟨64, 1, .rw, 0⟩, ⟨65, 1, .rw, 0⟩, ⟨66, 3, .rw, 0⟩]⟩
  | .AX_HOME_CFG => ⟨0x100d0, 48, 0x400, 1, 0x0, false, .immediate, [
      ⟨0, 3, .rw, 0⟩, ⟨3, 1, .rw, 0⟩, ⟨4, 4, .rw, 0⟩, ⟨8, 4, .rw, 0⟩, ⟨16, 16, .rw, 4⟩]⟩
  | .AX_HOME_VF => ⟨0x100d4, 48, 0x400, 1, 0x0, false, .immediate, [
      ⟨0, 32, .rw, 0x1900000⟩]⟩
  | .AX_HOME_VS => ⟨0x100d8, 48, 0x400, 1, 0x0, false, .immediate, [
      ⟨0, 32, .rw, 0x280000⟩]⟩
  | .AX_HOME_DIST => ⟨0x100dc, 48, 0x400, 1, 0x0, false, .immediate, [
      ⟨0, 32, .rw, 0x1000000⟩]⟩
  | .AX_HOME_POS => ⟨0x100e0, 48, 0x400, 1, 0x0, true, .immediate, [
      ⟨0, 64, .rw, 0⟩]⟩
  | .AX_HOME_CAP => ⟨0x100f0, 48, 0x400, 1, 0x0, true, .snapshot, [
      ⟨0, 64, .ro, 0⟩, ⟨64, 48, .ro, 0⟩]⟩
  | .AX_HOME_STAT => ⟨0x10100, 48, 0x400, 1, 0x0, false, .immediate, [
      ⟨0, 3, .ro, 0⟩, ⟨3, 1, .ro, 0⟩, ⟨4, 1, .w1c, 0⟩, ⟨5, 1, .w1c, 0⟩, ⟨8, 8, .ro, 0⟩]⟩
  | .AX_MAQ_CFG => ⟨0x10104, 48, 0x400, 1, 0x0, false, .immediate, [
      ⟨0, 8, .rw, 0⟩, ⟨8, 1, .rw, 0⟩]⟩
  | .AX_SEG => ⟨0x10110, 48, 0x400, 1, 0x0, true, .snapshot, [
      ⟨0, 16, .ro, 0⟩, ⟨16, 4, .ro, 0xf⟩, ⟨20, 3, .ro, 0⟩, ⟨24, 32, .ro, 0⟩, ⟨64, 64, .ro, 0⟩]⟩
  | .Q_CFG => ⟨0x20000, 64, 0x100, 1, 0x0, false, .immediate, [
      ⟨0, 1, .rw, 0⟩, ⟨1, 1, .rw, 0⟩, ⟨2, 1, .rw, 0⟩, ⟨3, 1, .rw, 0⟩, ⟨4, 2, .rw, 2⟩, ⟨8, 4, .rw, 0⟩]⟩
  | .Q_STATUS => ⟨0x20004, 64, 0x100, 1, 0x0, false, .immediate, [
      ⟨0, 3, .ro, 0⟩, ⟨3, 1, .ro, 0⟩, ⟨4, 3, .ro, 0⟩, ⟨8, 4, .ro, 0⟩, ⟨16, 1, .w1c, 0⟩, ⟨17, 1, .w1c, 0⟩, ⟨18, 1, .w1c, 0⟩, ⟨19, 1, .w1c, 0⟩, ⟨20, 1, .w1c, 0⟩, ⟨21, 1, .w1c, 0⟩, ⟨22, 1, .w1c, 0⟩, ⟨24, 8, .ro, 0⟩]⟩
  | .Q_CTRL => ⟨0x20008, 64, 0x100, 1, 0x0, false, .immediate, [
      ⟨0, 1, .wo, 0⟩, ⟨1, 1, .wo, 0⟩, ⟨2, 1, .wo, 0⟩]⟩
  | .Q_LEVEL => ⟨0x2000c, 64, 0x100, 1, 0x0, false, .immediate, [
      ⟨0, 6, .ro, 0⟩, ⟨8, 6, .ro, 0⟩, ⟨16, 6, .ro, 0x20⟩, ⟨24, 8, .ro, 0⟩]⟩
  | .Q_LAST => ⟨0x20010, 64, 0x100, 1, 0x0, false, .immediate, [
      ⟨0, 16, .ro, 0⟩, ⟨16, 8, .ro, 0⟩, ⟨24, 8, .ro, 0⟩]⟩
  | .Q_SIGNAL => ⟨0x20014, 64, 0x100, 1, 0x0, false, .immediate, [
      ⟨0, 16, .ro, 0⟩, ⟨16, 16, .ro, 0⟩]⟩
  | .Q_RTN => ⟨0x20018, 64, 0x100, 1, 0x0, false, .immediate, [
      ⟨0, 8, .rw, 0⟩, ⟨31, 1, .wo, 0⟩]⟩
  | .Q_PC => ⟨0x2001c, 64, 0x100, 1, 0x0, false, .immediate, [
      ⟨0, 32, .ro, 0xffffffff⟩]⟩
  | .Q_ABORT => ⟨0x20020, 64, 0x100, 1, 0x0, false, .immediate, [
      ⟨0, 1, .wo, 0⟩, ⟨1, 1, .wo, 0⟩, ⟨16, 16, .wo, 0⟩]⟩
  | .Q_ABORT_STAT => ⟨0x20024, 64, 0x100, 1, 0x0, false, .immediate, [
      ⟨0, 16, .ro, 0⟩, ⟨16, 7, .ro, 0⟩, ⟨23, 1, .w1c, 0⟩, ⟨24, 8, .ro, 0⟩]⟩
  | .Q_HEAD => ⟨0x20030, 64, 0x100, 1, 0x0, true, .snapshot, [
      ⟨0, 128, .ro, 0⟩]⟩
  | .Q_PUSH => ⟨0x20040, 64, 0x100, 1, 0x0, true, .immediate, [
      ⟨0, 128, .wo, 0⟩]⟩
  | .Q_PUSH_DB => ⟨0x20050, 64, 0x100, 1, 0x0, true, .immediate, [
      ⟨0, 128, .wo, 0⟩]⟩
  | .Q_DB => ⟨0x20060, 64, 0x100, 1, 0x0, false, .immediate, [
      ⟨0, 1, .wo, 0⟩, ⟨1, 1, .wo, 0⟩]⟩
  | .Q_UNIT_CFG => ⟨0x24000, 1, 0x0, 1, 0x0, false, .immediate, [
      ⟨0, 1, .rw, 0⟩, ⟨1, 2, .rw, 2⟩, ⟨16, 10, .rw, 0x300⟩]⟩
  | .Q_UNIT_STAT => ⟨0x24004, 1, 0x0, 1, 0x0, false, .immediate, [
      ⟨0, 9, .ro, 0x100⟩, ⟨16, 8, .ro, 0⟩, ⟨24, 1, .ro, 0⟩, ⟨31, 1, .w1c, 0⟩]⟩
  | .Q_CPL_WR => ⟨0x24010, 1, 0x0, 1, 0x0, false, .immediate, [
      ⟨0, 32, .ro, 0⟩]⟩
  | .Q_CPL_RD => ⟨0x24014, 1, 0x0, 1, 0x0, false, .immediate, [
      ⟨0, 32, .rw, 0⟩]⟩
  | .Q_CPL_LOST => ⟨0x2401c, 1, 0x0, 1, 0x0, false, .immediate, [
      ⟨0, 32, .ro, 0⟩]⟩
  | .Q_CPL_QN => ⟨0x24018, 1, 0x0, 1, 0x0, false, .immediate, [
      ⟨0, 6, .ro, 0⟩, ⟨31, 1, .ro, 1⟩]⟩
  | .Q_CPL_PEEK => ⟨0x24020, 1, 0x0, 1, 0x0, true, .snapshot, [
      ⟨0, 128, .ro, 0⟩]⟩
  | .Q_CPL_POP => ⟨0x24030, 1, 0x0, 1, 0x0, true, .snapshot, [
      ⟨0, 128, .ro, 0⟩]⟩
  | .Q_EVT_WR => ⟨0x24040, 1, 0x0, 1, 0x0, false, .immediate, [
      ⟨0, 32, .ro, 0⟩]⟩
  | .Q_EVT_RD => ⟨0x24044, 1, 0x0, 1, 0x0, false, .immediate, [
      ⟨0, 32, .rw, 0⟩]⟩
  | .Q_EVT_LOST => ⟨0x24048, 1, 0x0, 1, 0x0, false, .immediate, [
      ⟨0, 32, .ro, 0⟩]⟩
  | .Q_EVT_MWR => ⟨0x2404c, 1, 0x0, 1, 0x0, false, .immediate, [
      ⟨0, 32, .ro, 0⟩]⟩
  | .Q_EVT_PEEK => ⟨0x24050, 1, 0x0, 1, 0x0, true, .snapshot, [
      ⟨0, 128, .ro, 0⟩]⟩
  | .Q_EVT_POP => ⟨0x24060, 1, 0x0, 1, 0x0, true, .snapshot, [
      ⟨0, 128, .ro, 0⟩]⟩
  | .Q_IRQ => ⟨0x24070, 1, 0x0, 1, 0x0, false, .immediate, [
      ⟨0, 1, .w1c, 0⟩, ⟨1, 1, .w1c, 0⟩, ⟨2, 1, .w1c, 0⟩, ⟨3, 1, .w1c, 0⟩, ⟨4, 1, .w1c, 0⟩, ⟨5, 1, .w1c, 0⟩, ⟨6, 1, .w1c, 0⟩, ⟨7, 1, .w1c, 0⟩, ⟨8, 1, .w1c, 0⟩]⟩
  | .Q_IRQ_EN => ⟨0x24074, 1, 0x0, 1, 0x0, false, .immediate, [
      ⟨0, 1, .rw, 0⟩, ⟨1, 1, .rw, 0⟩, ⟨2, 1, .rw, 0⟩, ⟨3, 1, .rw, 0⟩, ⟨4, 1, .rw, 0⟩, ⟨5, 1, .rw, 0⟩, ⟨6, 1, .rw, 0⟩, ⟨7, 1, .rw, 0⟩, ⟨8, 1, .rw, 0⟩]⟩
  | .Q_MDB_LO => ⟨0x24078, 1, 0x0, 1, 0x0, false, .immediate, [
      ⟨0, 32, .wo, 0⟩]⟩
  | .Q_MDB_HI => ⟨0x2407c, 1, 0x0, 1, 0x0, false, .immediate, [
      ⟨0, 32, .wo, 0⟩]⟩
  | .Q_ABORT_X => ⟨0x24080, 1, 0x0, 1, 0x0, false, .immediate, [
      ⟨0, 3, .wo, 0⟩, ⟨3, 1, .wo, 0⟩, ⟨8, 6, .wo, 0⟩, ⟨16, 16, .wo, 0⟩]⟩
  | .Q_ABIN => ⟨0x24090, 4, 0x4, 1, 0x0, false, .immediate, [
      ⟨0, 1, .rw, 0⟩, ⟨4, 4, .rw, 0⟩, ⟨8, 3, .rw, 4⟩, ⟨11, 1, .rw, 0⟩, ⟨16, 6, .rw, 0⟩]⟩
  | .Q_GI_CFG => ⟨0x24100, 16, 0x4, 1, 0x0, false, .immediate, [
      ⟨0, 1, .rw, 0⟩, ⟨8, 8, .rw, 8⟩]⟩
  | .Q_GI_STAT => ⟨0x24140, 1, 0x0, 1, 0x0, false, .immediate, [
      ⟨0, 16, .ro, 0⟩]⟩
  | .GR_MEMB_LO => ⟨0x30000, 16, 0x100, 1, 0x0, false, .immediate, [
      ⟨0, 32, .rw, 0⟩]⟩
  | .GR_MEMB_HI => ⟨0x30004, 16, 0x100, 1, 0x0, false, .immediate, [
      ⟨0, 32, .rw, 0⟩]⟩
  | .GR_CFG => ⟨0x30008, 16, 0x100, 1, 0x0, false, .immediate, [
      ⟨0, 1, .rw, 0⟩]⟩
  | .GR_STATUS => ⟨0x3000c, 16, 0x100, 1, 0x0, false, .immediate, [
      ⟨0, 1, .ro, 0⟩, ⟨1, 1, .ro, 0⟩, ⟨2, 1, .w1c, 0⟩, ⟨3, 1, .w1c, 0⟩, ⟨4, 1, .w1c, 0⟩, ⟨8, 4, .ro, 0⟩, ⟨16, 5, .ro, 0⟩]⟩
  | .GR_CTRL => ⟨0x30010, 16, 0x100, 1, 0x0, false, .immediate, [
      ⟨0, 1, .wo, 0⟩]⟩
  | .GR_PATH => ⟨0x30020, 16, 0x100, 1, 0x0, true, .snapshot, [
      ⟨0, 64, .ro, 0⟩, ⟨64, 48, .ro, 0⟩, ⟨112, 16, .ro, 0⟩]⟩
  | .GR_LEN => ⟨0x30030, 16, 0x100, 1, 0x0, true, .snapshot, [
      ⟨0, 64, .ro, 0⟩, ⟨64, 64, .ro, 0⟩]⟩
  | .GR_TGT => ⟨0x30080, 16, 0x100, 8, 0x10, true, .immediate, [
      ⟨0, 64, .rw, 0⟩, ⟨64, 64, .rw, 0⟩]⟩
  | .GR_CAMTAB => ⟨0x31000, 64, 0x4, 1, 0x0, false, .immediate, [
      ⟨0, 32, .rw, 0xffffffff⟩]⟩
  | .GR_VAX_CMD => ⟨0x31100, 4, 0x20, 1, 0x0, true, .nextTick, [
      ⟨0, 48, .rw, 0⟩, ⟨64, 32, .rw, 0⟩]⟩
  | .GR_VAX_STATE => ⟨0x31110, 4, 0x20, 1, 0x0, true, .snapshot, [
      ⟨0, 64, .ro, 0⟩, ⟨64, 48, .ro, 0⟩]⟩
  | .GR_REG_CFG => ⟨0x31200, 4, 0x40, 1, 0x0, false, .immediate, [
      ⟨0, 1, .rw, 0⟩, ⟨2, 2, .rw, 0⟩, ⟨4, 4, .rw, 0⟩, ⟨8, 6, .rw, 0⟩, ⟨16, 4, .rw, 0⟩, ⟨24, 8, .rw, 3⟩]⟩
  | .GR_REG_GAIN => ⟨0x31204, 4, 0x40, 1, 0x0, false, .immediate, [
      ⟨0, 16, .rw, 0x1000⟩, ⟨16, 16, .rw, 0x100⟩]⟩
  | .GR_REG_STAT => ⟨0x31208, 4, 0x40, 1, 0x0, false, .immediate, [
      ⟨0, 16, .ro, 0⟩, ⟨16, 8, .ro, 0⟩, ⟨24, 1, .w1c, 0⟩, ⟨25, 1, .w1c, 0⟩, ⟨26, 1, .w1c, 0⟩, ⟨27, 1, .w1c, 0⟩]⟩
  | .GR_REG_GEOM => ⟨0x31210, 4, 0x40, 1, 0x0, true, .immediate, [
      ⟨0, 64, .rw, 0⟩, ⟨64, 32, .rw, 0⟩, ⟨96, 32, .rw, 0⟩]⟩
  | .GR_REG_EXP => ⟨0x31220, 4, 0x40, 1, 0x0, true, .immediate, [
      ⟨0, 64, .rw, 0⟩]⟩
  | .GR_REG_ERR => ⟨0x31230, 4, 0x40, 1, 0x0, true, .snapshot, [
      ⟨0, 32, .ro, 0⟩, ⟨64, 64, .ro, 0⟩]⟩
  | .GR_FSTATE => ⟨0x32000, 48, 0x40, 1, 0x0, true, .snapshot, [
      ⟨0, 64, .ro, 0⟩, ⟨64, 48, .ro, 0⟩, ⟨112, 2, .ro, 0⟩, ⟨114, 1, .ro, 0⟩, ⟨115, 1, .ro, 0⟩, ⟨116, 1, .ro, 0⟩, ⟨117, 6, .ro, 0⟩]⟩
  | .GR_FSTAT => ⟨0x32010, 48, 0x40, 1, 0x0, false, .immediate, [
      ⟨0, 1, .w1c, 0⟩, ⟨1, 1, .w1c, 0⟩, ⟨2, 1, .w1c, 0⟩, ⟨3, 1, .ro, 0⟩, ⟨4, 3, .ro, 0⟩, ⟨7, 1, .ro, 0⟩, ⟨8, 1, .w1c, 0⟩, ⟨16, 8, .ro, 0⟩]⟩
  | .GR_TRIM_SP => ⟨0x32014, 48, 0x40, 1, 0x0, false, .immediate, [
      ⟨0, 32, .ro, 0⟩]⟩
  | .GR_TRIM_KP => ⟨0x32018, 48, 0x40, 1, 0x0, false, .immediate, [
      ⟨0, 32, .rw, 0⟩]⟩
  | .GR_TRIM_KI => ⟨0x3201c, 48, 0x40, 1, 0x0, false, .immediate, [
      ⟨0, 32, .rw, 0⟩]⟩
  | .GR_TRIM_LIM => ⟨0x32020, 48, 0x40, 1, 0x0, false, .immediate, [
      ⟨0, 16, .rw, 0⟩, ⟨16, 16, .rw, 0⟩]⟩
  | .GR_TRIM_OUT => ⟨0x32024, 48, 0x40, 1, 0x0, false, .immediate, [
      ⟨0, 32, .ro, 0⟩]⟩
  | .AX_COMM_CFG => ⟨0x10200, 48, 0x400, 1, 0x0, false, .axApply, [
      ⟨0, 4, .rwb, 0⟩, ⟨4, 1, .rwb, 0⟩, ⟨5, 1, .rwb, 0⟩, ⟨6, 1, .rwb, 0⟩]⟩
  | .AX_RES_THR => ⟨0x10204, 48, 0x400, 1, 0x0, false, .axApply, [
      ⟨0, 16, .rwb, 0⟩, ⟨16, 16, .rwb, 0⟩]⟩
  | .AX_RES_THR2 => ⟨0x10208, 48, 0x400, 1, 0x0, false, .axApply, [
      ⟨0, 16, .rwb, 0⟩, ⟨16, 16, .rwb, 0⟩]⟩
  | .AX_MODE_CFG => ⟨0x1020c, 48, 0x400, 1, 0x0, false, .axApply, [
      ⟨0, 16, .rwb, 0⟩, ⟨16, 2, .rwb, 0⟩]⟩
  | .AX_CR_PI => ⟨0x10210, 48, 0x400, 1, 0x0, false, .axApply, [
      ⟨0, 16, .rwb, 0⟩, ⟨16, 16, .rwb, 0⟩]⟩
  | .AX_CR_FF => ⟨0x10214, 48, 0x400, 1, 0x0, false, .axApply, [
      ⟨0, 1, .rwb, 1⟩, ⟨1, 1, .rwb, 1⟩, ⟨2, 1, .rwb, 1⟩]⟩
  | .AX_CR_CHOP => ⟨0x10218, 48, 0x400, 1, 0x0, false, .axApply, [
      ⟨0, 8, .rwb, 0x3c⟩, ⟨8, 4, .rwb, 0⟩, ⟨12, 4, .rwb, 0xc⟩, ⟨16, 4, .rwb, 4⟩]⟩
  | .AX_CUR_LIM => ⟨0x1021c, 48, 0x400, 1, 0x0, false, .axApply, [
      ⟨0, 1, .rwb, 0⟩, ⟨8, 7, .rwb, 0x3c⟩]⟩
  | .AX_COMM_OFS => ⟨0x10220, 48, 0x400, 1, 0x0, true, .snapshot, [
      ⟨0, 64, .ro, 0⟩]⟩
  | .AX_COIL => ⟨0x10230, 48, 0x400, 1, 0x0, true, .snapshot, [
      ⟨0, 10, .ro, 0⟩, ⟨10, 3, .ro, 0⟩, ⟨13, 1, .ro, 0⟩, ⟨14, 1, .ro, 0⟩, ⟨15, 1, .ro, 0⟩, ⟨16, 16, .ro, 0⟩, ⟨32, 16, .ro, 0⟩, ⟨48, 17, .ro, 0⟩, ⟨65, 17, .ro, 0⟩, ⟨82, 4, .ro, 0⟩, ⟨86, 4, .ro, 0⟩, ⟨90, 16, .ro, 0⟩, ⟨106, 1, .ro, 0⟩, ⟨107, 1, .ro, 0⟩, ⟨108, 1, .ro, 0⟩, ⟨109, 3, .ro, 0⟩, ⟨112, 1, .ro, 0⟩]⟩
  | .AX_CR_STAT => ⟨0x10240, 48, 0x400, 1, 0x0, false, .immediate, [
      ⟨0, 1, .w1c, 0⟩, ⟨1, 1, .w1c, 0⟩, ⟨2, 1, .w1c, 0⟩, ⟨3, 1, .w1c, 0⟩, ⟨4, 1, .w1c, 0⟩, ⟨8, 8, .ro, 0⟩, ⟨16, 11, .ro, 0⟩]⟩
  | .AX_CR_RL_A => ⟨0x10244, 48, 0x400, 1, 0x0, false, .immediate, [
      ⟨0, 16, .ro, 0⟩, ⟨16, 16, .ro, 0⟩]⟩
  | .AX_CR_RL_B => ⟨0x10248, 48, 0x400, 1, 0x0, false, .immediate, [
      ⟨0, 16, .ro, 0⟩, ⟨16, 16, .ro, 0⟩]⟩
  | .AX_HARM_CFG => ⟨0x10250, 48, 0x400, 1, 0x0, false, .axApply, [
      ⟨0, 4, .rwb, 4⟩, ⟨8, 8, .rwb, 0x10⟩]⟩
  | .AX_HARM_SPD => ⟨0x10254, 48, 0x400, 1, 0x0, false, .axApply, [
      ⟨0, 16, .rwb, 0⟩, ⟨16, 16, .rwb, 0⟩]⟩
  | .AX_HARM_SEL => ⟨0x10258, 48, 0x400, 1, 0x0, false, .immediate, [
      ⟨0, 7, .rw, 0⟩]⟩
  | .AX_HARM_DATA => ⟨0x1025c, 48, 0x400, 1, 0x0, false, .immediate, [
      ⟨0, 16, .rw, 0⟩, ⟨16, 16, .rw, 0⟩]⟩
  | .PW_CFG => ⟨0x40000, 4, 0x1000, 1, 0x0, false, .immediate, [
      ⟨0, 2, .rw, 1⟩, ⟨2, 1, .rw, 0⟩, ⟨3, 1, .rw, 0⟩]⟩
  | .PW_PERIOD => ⟨0x40004, 4, 0x1000, 1, 0x0, false, .asR267, [
      ⟨0, 14, .rw, 0x1388⟩]⟩
  | .PW_MINP => ⟨0x40008, 4, 0x1000, 1, 0x0, false, .pwApply, [
      ⟨0, 7, .rwb, 0x14⟩]⟩
  | .PW_SAFE => ⟨0x4000c, 4, 0x1000, 1, 0x0, false, .immediate, [
      ⟨0, 4, .rwl, 5⟩, ⟨16, 12, .rwl, 0⟩]⟩
  | .PW_SAFE_STAT => ⟨0x40010, 4, 0x1000, 1, 0x0, false, .immediate, [
      ⟨0, 1, .ro, 0⟩, ⟨1, 5, .ro, 0⟩, ⟨8, 1, .w1c, 0⟩, ⟨9, 1, .w1c, 0⟩, ⟨10, 1, .w1c, 0⟩]⟩
  | .PW_ILIM => ⟨0x40014, 4, 0x1000, 1, 0x0, false, .pwApply, [
      ⟨0, 16, .rwb, 0x4800⟩, ⟨16, 8, .rwb, 0x10⟩]⟩
  | .PW_STAT => ⟨0x40018, 4, 0x1000, 1, 0x0, false, .immediate, [
      ⟨0, 1, .w1c, 0⟩, ⟨1, 1, .w1c, 0⟩, ⟨2, 1, .w1c, 0⟩, ⟨3, 1, .w1c, 0⟩, ⟨8, 8, .ro, 0⟩, ⟨16, 16, .ro, 0⟩]⟩
  | .PW_BFAULT => ⟨0x4001c, 4, 0x1000, 1, 0x0, false, .immediate, [
      ⟨0, 12, .w1c, 0⟩, ⟨16, 4, .ro, 0⟩, ⟨20, 1, .ro, 0⟩, ⟨21, 1, .ro, 0⟩]⟩
  | .PW_DT => ⟨0x40040, 4, 0x1000, 12, 0x4, false, .pwApply, [
      ⟨0, 8, .rwb, 0x28⟩, ⟨8, 8, .rwb, 0x28⟩]⟩
  | .PW_CH_OFS => ⟨0x40080, 4, 0x1000, 24, 0x4, false, .asR267, [
      ⟨0, 14, .rw, 0⟩]⟩
  | .PW_CH_STAT => ⟨0x40100, 4, 0x1000, 24, 0x10, true, .snapshot, [
      ⟨0, 14, .ro, 0⟩, ⟨14, 4, .ro, 0⟩, ⟨18, 1, .ro, 0⟩, ⟨19, 2, .ro, 0⟩, ⟨21, 1, .ro, 0⟩, ⟨22, 4, .ro, 0⟩, ⟨32, 32, .ro, 0⟩, ⟨64, 14, .ro, 0⟩, ⟨78, 14, .ro, 0⟩]⟩
  | .PW_TRIP_CFG => ⟨0x44000, 1, 0x0, 1, 0x0, false, .immediate, [
      ⟨0, 1, .rwl, 1⟩, ⟨1, 1, .rwl, 1⟩, ⟨8, 4, .rwl, 0xf⟩, ⟨16, 8, .rwl, 0x14⟩]⟩
  | .PW_TRIP_STAT => ⟨0x44004, 1, 0x0, 1, 0x0, false, .immediate, [
      ⟨0, 1, .w1c, 0⟩, ⟨1, 1, .w1c, 0⟩, ⟨2, 1, .w1c, 0⟩, ⟨3, 1, .ro, 0⟩, ⟨4, 1, .ro, 0⟩, ⟨5, 1, .ro, 0⟩, ⟨8, 8, .ro, 0⟩]⟩
  | .PW_TRIP_TS => ⟨0x44010, 1, 0x0, 1, 0x0, true, .snapshot, [
      ⟨0, 48, .ro, 0⟩, ⟨48, 48, .ro, 0⟩]⟩
  | .PW_SYNC_CFG => ⟨0x44020, 1, 0x0, 1, 0x0, false, .nextSyncFrame, [
      ⟨0, 2, .rw, 0⟩, ⟨4, 4, .rw, 4⟩, ⟨8, 5, .rw, 8⟩, ⟨16, 16, .rw, 0x1388⟩]⟩
  | .PW_SYNC_DLY => ⟨0x44024, 1, 0x0, 1, 0x0, false, .nextSyncFrame, [
      ⟨0, 16, .rw, 0⟩]⟩
  | .PW_SYNC_STAT => ⟨0x44028, 1, 0x0, 1, 0x0, false, .immediate, [
      ⟨0, 1, .ro, 0⟩, ⟨1, 1, .w1c, 0⟩, ⟨2, 1, .w1c, 0⟩, ⟨3, 1, .w1c, 0⟩, ⟨16, 16, .ro, 0⟩]⟩
  | .CS_CFG => ⟨0x50000, 4, 0x1000, 1, 0x0, false, .immediate, [
      ⟨0, 2, .rw, 1⟩, ⟨2, 1, .rw, 1⟩, ⟨4, 4, .rw, 8⟩, ⟨8, 8, .rw, 0xa⟩]⟩
  | .CS_SCHED => ⟨0x50004, 4, 0x1000, 1, 0x0, false, .csApply, [
      ⟨0, 8, .rwb, 0x3c⟩, ⟨8, 8, .rwb, 0x28⟩, ⟨16, 4, .rwb, 8⟩]⟩
  | .CS_RANGE => ⟨0x50008, 4, 0x1000, 1, 0x0, false, .csApply, [
      ⟨0, 16, .rwb, 0x1400⟩, ⟨16, 2, .rwb, 0⟩]⟩
  | .CS_STAT => ⟨0x5000c, 4, 0x1000, 1, 0x0, false, .immediate, [
      ⟨0, 1, .w1c, 0⟩, ⟨1, 1, .w1c, 0⟩, ⟨2, 1, .w1c, 0⟩, ⟨3, 1, .w1c, 0⟩, ⟨4, 1, .w1c, 0⟩, ⟨5, 1, .w1c, 0⟩, ⟨6, 1, .ro, 0⟩, ⟨8, 3, .ro, 0⟩, ⟨16, 5, .ro, 0⟩]⟩
  | .CS_CNT => ⟨0x50010, 4, 0x1000, 1, 0x0, false, .immediate, [
      ⟨0, 16, .ro, 0⟩, ⟨16, 8, .ro, 0⟩, ⟨24, 8, .ro, 0⟩]⟩
  | .CS_SLICE => ⟨0x50040, 4, 0x1000, 5, 0x10, true, .snapshot, [
      ⟨0, 16, .ro, 0⟩, ⟨16, 16, .ro, 0⟩, ⟨32, 8, .ro, 0⟩, ⟨40, 3, .ro, 0⟩, ⟨43, 3, .ro, 0⟩, ⟨48, 32, .ro, 0⟩, ⟨80, 16, .ro, 0⟩]⟩
  | .CS_INJ_CTRL => ⟨0x50100, 4, 0x1000, 1, 0x0, false, .immediate, [
      ⟨0, 8, .rw, 0⟩, ⟨8, 1, .wo, 0⟩]⟩
  | .CS_INJ_STAT => ⟨0x50104, 4, 0x1000, 1, 0x0, false, .immediate, [
      ⟨0, 1, .w1c, 0⟩, ⟨1, 1, .w1c, 0⟩, ⟨2, 1, .ro, 0⟩, ⟨3, 1, .w1c, 0⟩, ⟨16, 9, .ro, 0⟩]⟩
  | .CS_INJ_RES => ⟨0x50110, 4, 0x1000, 1, 0x0, true, .snapshot, [
      ⟨0, 128, .ro, 0⟩]⟩
  | .CS_SCAN_CFG => ⟨0x50120, 4, 0x1000, 1, 0x0, false, .immediate, [
      ⟨0, 4, .rw, 0⟩, ⟨4, 1, .rw, 0⟩, ⟨5, 1, .wo, 0⟩, ⟨6, 1, .wo, 0⟩]⟩
  | .CS_SCAN_STAT => ⟨0x50124, 4, 0x1000, 1, 0x0, false, .immediate, [
      ⟨0, 9, .ro, 0⟩, ⟨9, 1, .ro, 0⟩, ⟨10, 1, .w1c, 0⟩, ⟨16, 16, .ro, 0⟩]⟩
  | .CS_SCAN_LIST => ⟨0x50140, 4, 0x1000, 16, 0x4, false, .immediate, [
      ⟨0, 8, .rw, 0x42⟩]⟩
  | .CS_SCAN_PEEK => ⟨0x50180, 4, 0x1000, 1, 0x0, true, .snapshot, [
      ⟨0, 128, .ro, 0⟩]⟩
  | .CS_SCAN_POP => ⟨0x50190, 4, 0x1000, 1, 0x0, true, .snapshot, [
      ⟨0, 128, .ro, 0⟩]⟩
  | .CS_TRIG => ⟨0x50200, 4, 0x1000, 4, 0x4, false, .immediate, [
      ⟨0, 1, .rw, 0⟩, ⟨1, 2, .rw, 0⟩, ⟨3, 1, .rw, 0⟩, ⟨4, 5, .rw, 0⟩, ⟨16, 16, .rw, 0⟩]⟩
  | .CS_WIN_CFG => ⟨0x50300, 4, 0x1000, 8, 0x8, false, .immediate, [
      ⟨0, 1, .rw, 0⟩, ⟨1, 2, .rw, 0⟩, ⟨3, 1, .rw, 0⟩, ⟨4, 4, .rw, 1⟩, ⟨8, 8, .rw, 0⟩]⟩
  | .CS_WIN_THR => ⟨0x50304, 4, 0x1000, 8, 0x8, false, .immediate, [
      ⟨0, 16, .rw, 0x8000⟩, ⟨16, 16, .rw, 0x7fff⟩]⟩
  | .CS_WIN_STAT => ⟨0x50340, 4, 0x1000, 1, 0x0, false, .immediate, [
      ⟨0, 8, .w1c, 0⟩, ⟨8, 8, .ro, 0⟩]⟩
  | .CS_PCHK => ⟨0x50380, 4, 0x1000, 1, 0x0, false, .immediate, [
      ⟨0, 5, .rw, 0⟩, ⟨5, 1, .rw, 0⟩, ⟨8, 1, .wo, 0⟩]⟩
  | .CS_PCHK_STAT => ⟨0x50384, 4, 0x1000, 1, 0x0, false, .immediate, [
      ⟨0, 1, .ro, 0⟩, ⟨1, 1, .w1c, 0⟩, ⟨2, 1, .w1c, 0⟩, ⟨3, 1, .w1c, 0⟩, ⟨16, 16, .ro, 0⟩]⟩
  | .LA_CFG => ⟨0x60000, 4, 0x1000, 1, 0x0, false, .immediate, [
      ⟨0, 2, .rw, 2⟩, ⟨4, 4, .rw, 4⟩, ⟨8, 4, .rw, 6⟩]⟩
  | .LA_CTRL => ⟨0x60004, 4, 0x1000, 1, 0x0, false, .immediate, [
      ⟨0, 4, .wo, 0⟩, ⟨4, 1, .wo, 0⟩, ⟨5, 1, .wo, 0⟩]⟩
  | .LA_BSTAT => ⟨0x60008, 4, 0x1000, 1, 0x0, false, .immediate, [
      ⟨0, 12, .ro, 0⟩, ⟨16, 12, .ro, 0⟩]⟩
  | .LA_OBS_CFG => ⟨0x60100, 4, 0x1000, 12, 0x40, false, .laApply, [
      ⟨0, 16, .rwb, 0x64⟩, ⟨16, 1, .rwb, 1⟩, ⟨17, 1, .rwb, 1⟩, ⟨18, 1, .rwb, 0⟩, ⟨20, 3, .rwb, 2⟩]⟩
  | .LA_RS_CFG => ⟨0x60104, 4, 0x1000, 12, 0x40, false, .laApply, [
      ⟨0, 10, .rwb, 0⟩, ⟨16, 16, .rwb, 0x800⟩]⟩
  | .LA_STALL_CFG => ⟨0x60108, 4, 0x1000, 12, 0x40, false, .laApply, [
      ⟨0, 1, .rwb, 0⟩, ⟨1, 2, .rwb, 1⟩, ⟨4, 8, .rwb, 0x50⟩, ⟨12, 4, .rwb, 4⟩, ⟨16, 8, .rwb, 0x28⟩, ⟨24, 8, .rwb, 0x32⟩]⟩
  | .LA_RETRY_CFG => ⟨0x6010c, 4, 0x1000, 12, 0x40, false, .laApply, [
      ⟨0, 8, .rwb, 0x32⟩, ⟨8, 4, .rwb, 2⟩, ⟨16, 16, .rwb, 0x64⟩]⟩
  | .LA_LF_CFG => ⟨0x60110, 4, 0x1000, 12, 0x40, false, .laApply, [
      ⟨0, 8, .rwb, 0x2d⟩, ⟨8, 8, .rwb, 4⟩]⟩
  | .LA_VER_CFG => ⟨0x60114, 4, 0x1000, 12, 0x40, false, .immediate, [
      ⟨0, 1, .rw, 0⟩, ⟨4, 4, .rw, 0⟩, ⟨8, 1, .rw, 0⟩]⟩
  | .LA_VER_LIM => ⟨0x60118, 4, 0x1000, 12, 0x40, false, .immediate, [
      ⟨0, 16, .rwl, 0xc0⟩, ⟨16, 16, .rwl, 0x200⟩]⟩
  | .LA_AX_STAT => ⟨0x6011c, 4, 0x1000, 12, 0x40, false, .immediate, [
      ⟨0, 1, .w1c, 0⟩, ⟨1, 1, .w1c, 0⟩, ⟨2, 1, .w1c, 0⟩, ⟨3, 1, .w1c, 0⟩, ⟨4, 1, .w1c, 0⟩, ⟨5, 1, .ro, 0⟩, ⟨8, 8, .ro, 0⟩, ⟨16, 4, .ro, 0⟩]⟩
  | .LA_AX => ⟨0x60120, 4, 0x1000, 12, 0x40, true, .snapshot, [
      ⟨0, 16, .ro, 0⟩, ⟨16, 1, .ro, 0⟩, ⟨17, 2, .ro, 0⟩, ⟨19, 1, .ro, 0⟩, ⟨20, 1, .ro, 0⟩, ⟨21, 1, .ro, 0⟩, ⟨22, 1, .ro, 0⟩, ⟨23, 1, .ro, 0⟩, ⟨24, 16, .ro, 0⟩, ⟨40, 16, .ro, 0⟩, ⟨56, 16, .ro, 0⟩, ⟨72, 16, .ro, 0⟩, ⟨88, 16, .ro, 0⟩, ⟨104, 16, .ro, 0⟩]⟩
  | .LA_VER => ⟨0x60130, 4, 0x1000, 12, 0x40, true, .immediate, [
      ⟨0, 64, .rw, 0⟩, ⟨64, 32, .ro, 0⟩]⟩
  | .FB_CFG => ⟨0x70000, 12, 0x200, 1, 0x0, false, .fbApply, [
      ⟨0, 3, .rwb, 0⟩, ⟨3, 1, .rwb, 0⟩, ⟨4, 2, .rwb, 2⟩, ⟨6, 1, .rwb, 0⟩, ⟨7, 1, .rwb, 0⟩, ⟨8, 4, .rwb, 4⟩, ⟨12, 4, .rwb, 0⟩, ⟨16, 8, .rwb, 8⟩, ⟨24, 2, .rw, 2⟩]⟩
  | .FB_CTRL => ⟨0x70004, 12, 0x200, 1, 0x0, false, .immediate, [
      ⟨0, 1, .wo, 0⟩, ⟨1, 1, .wo, 0⟩]⟩
  | .FB_STAT => ⟨0x70008, 12, 0x200, 1, 0x0, false, .immediate, [
      ⟨0, 1, .w1c, 0⟩, ⟨1, 3, .ro, 0⟩, ⟨4, 1, .ro, 0⟩, ⟨5, 1, .ro, 0⟩, ⟨6, 1, .w1c, 0⟩, ⟨7, 1, .w1c, 0⟩, ⟨8, 1, .w1c, 0⟩, ⟨9, 1, .ro, 0⟩, ⟨10, 1, .w1c, 0⟩, ⟨11, 1, .w1c, 0⟩, ⟨12, 1, .w1c, 0⟩, ⟨13, 1, .ro, 0⟩, ⟨14, 1, .ro, 0⟩, ⟨15, 1, .w1c, 0⟩]⟩
  | .FB_ERR => ⟨0x7000c, 12, 0x200, 1, 0x0, false, .immediate, [
      ⟨0, 16, .ro, 0⟩, ⟨16, 8, .ro, 0⟩, ⟨24, 8, .ro, 0⟩]⟩
  | .FB_CPR => ⟨0x70010, 12, 0x200, 1, 0x0, false, .immediate, [
      ⟨0, 32, .rw, 0⟩]⟩
  | .FB_IDX => ⟨0x70014, 12, 0x200, 1, 0x0, false, .immediate, [
      ⟨0, 16, .rw, 0⟩, ⟨16, 16, .ro, 0⟩]⟩
  | .FB_IDX_OFS => ⟨0x70018, 12, 0x200, 1, 0x0, false, .immediate, [
      ⟨0, 32, .rw, 0⟩]⟩
  | .FB_SPD_CFG => ⟨0x7001c, 12, 0x200, 1, 0x0, false, .fbApply, [
      ⟨0, 8, .rwb, 4⟩, ⟨8, 16, .rwb, 0x64⟩]⟩
  | .FB_SER => ⟨0x70020, 12, 0x200, 1, 0x0, false, .fbApply, [
      ⟨0, 7, .rwb, 0x18⟩, ⟨7, 1, .rwb, 0⟩, ⟨8, 2, .rwb, 2⟩, ⟨10, 2, .rwb, 0⟩, ⟨12, 11, .rwb, 0x2f⟩, ⟨23, 4, .rwb, 1⟩]⟩
  | .FB_SER_TIM => ⟨0x70024, 12, 0x200, 1, 0x0, false, .fbApply, [
      ⟨0, 8, .rwb, 0x14⟩, ⟨8, 8, .rwb, 0x14⟩, ⟨16, 8, .rwb, 3⟩]⟩
  | .FB_SERR => ⟨0x70028, 12, 0x200, 1, 0x0, false, .immediate, [
      ⟨0, 8, .ro, 0⟩, ⟨8, 8, .ro, 0⟩, ⟨16, 8, .ro, 0⟩, ⟨24, 8, .ro, 0⟩]⟩
  | .FB_SER_JMP => ⟨0x7002c, 12, 0x200, 1, 0x0, false, .fbApply, [
      ⟨0, 32, .rwb, 0⟩]⟩
  | .FB_FOLLOW => ⟨0x70030, 12, 0x200, 1, 0x0, false, .immediate, [
      ⟨0, 1, .rw, 0⟩, ⟨8, 6, .rw, 0⟩, ⟨16, 3, .rw, 0⟩]⟩
  | .FB_PINS => ⟨0x70034, 12, 0x200, 1, 0x0, false, .immediate, [
      ⟨0, 4, .ro, 0⟩, ⟨4, 4, .ro, 0⟩, ⟨8, 3, .ro, 0⟩]⟩
  | .FB_SCALE => ⟨0x70040, 12, 0x200, 1, 0x0, true, .nextTick, [
      ⟨0, 64, .rw, 0x100000000⟩]⟩
  | .FB_STATE => ⟨0x70050, 12, 0x200, 1, 0x0, true, .snapshot, [
      ⟨0, 64, .ro, 0⟩, ⟨64, 48, .ro, 0⟩]⟩
  | .FB_CNT => ⟨0x70060, 12, 0x200, 1, 0x0, true, .snapshot, [
      ⟨0, 64, .ro, 0⟩, ⟨64, 48, .ro, 0⟩]⟩
  | .FB_IDX_CAP => ⟨0x70070, 12, 0x200, 1, 0x0, true, .snapshot, [
      ⟨0, 64, .ro, 0⟩, ⟨64, 48, .ro, 0⟩]⟩
  | .FB_SWORD => ⟨0x70080, 12, 0x200, 1, 0x0, true, .snapshot, [
      ⟨0, 64, .ro, 0⟩, ⟨64, 1, .ro, 0⟩, ⟨65, 1, .ro, 0⟩, ⟨66, 1, .ro, 0⟩, ⟨67, 6, .ro, 0⟩, ⟨80, 48, .ro, 0⟩]⟩
  | .SF_CFG => ⟨0x80000, 1, 0x0, 1, 0x0, false, .immediate, [
      ⟨0, 2, .rw, 1⟩, ⟨2, 1, .rw, 1⟩]⟩
  | .SF_STATUS => ⟨0x80004, 1, 0x0, 1, 0x0, false, .immediate, [
      ⟨0, 8, .ro, 0⟩, ⟨8, 8, .ro, 0⟩, ⟨16, 8, .ro, 0⟩, ⟨24, 1, .w1c, 0⟩, ⟨25, 1, .w1c, 0⟩, ⟨26, 1, .ro, 0⟩]⟩
  | .SF_AUX_CFG => ⟨0x80010, 2, 0x4, 1, 0x0, false, .sfApply, [
      ⟨0, 17, .rwb, 0x64⟩, ⟨17, 1, .rwb, 0⟩, ⟨18, 8, .rwb, 4⟩, ⟨26, 1, .rw, 1⟩, ⟨27, 1, .wo, 0⟩, ⟨28, 1, .wo, 0⟩]⟩
  | .SF_SEQ => ⟨0x80018, 2, 0x4, 1, 0x0, false, .passStart, [
      ⟨0, 24, .rw, 0⟩, ⟨24, 3, .rw, 0⟩]⟩
  | .SF_AUX_STAT => ⟨0x80020, 2, 0x4, 1, 0x0, false, .immediate, [
      ⟨0, 1, .ro, 0⟩, ⟨1, 3, .ro, 0⟩, ⟨8, 24, .ro, 0⟩]⟩
  | .SF_EX_CFG => ⟨0x80030, 2, 0x4, 1, 0x0, false, .immediate, [
      ⟨0, 1, .rw, 0⟩, ⟨1, 2, .rw, 0⟩, ⟨3, 5, .rw, 0⟩, ⟨8, 5, .rw, 0⟩, ⟨13, 5, .rw, 0x10⟩, ⟨18, 7, .rw, 0xa⟩]⟩
  | .SF_EX_STAT => ⟨0x80038, 2, 0x4, 1, 0x0, false, .immediate, [
      ⟨0, 1, .w1c, 0⟩, ⟨1, 1, .w1c, 0⟩, ⟨2, 1, .w1c, 0⟩, ⟨3, 1, .ro, 0⟩, ⟨16, 16, .ro, 0⟩]⟩
  | .SF_BLANK_CFG => ⟨0x80040, 1, 0x0, 1, 0x0, false, .immediate, [
      ⟨0, 1, .rw, 0⟩, ⟨1, 4, .rw, 0⟩, ⟨5, 8, .rw, 0⟩, ⟨13, 1, .rw, 0⟩, ⟨14, 1, .rw, 0⟩, ⟨15, 1, .rw, 0⟩, ⟨16, 8, .rw, 0xa⟩]⟩
  | .SF_TDAC => ⟨0x80048, 1, 0x0, 1, 0x0, false, .immediate, [
      ⟨0, 12, .rw, 0⟩, ⟨12, 1, .rw, 0⟩, ⟨13, 2, .ro, 0⟩]⟩
  | .SF_CHK => ⟨0x8004c, 1, 0x0, 1, 0x0, false, .immediate, [
      ⟨0, 3, .rw, 0⟩, ⟨3, 1, .wo, 0⟩, ⟨4, 1, .ro, 0⟩, ⟨5, 1, .w1c, 0⟩, ⟨6, 1, .w1c, 0⟩, ⟨16, 16, .ro, 0⟩]⟩
  | .SF_CAL_CMD => ⟨0x80050, 1, 0x0, 1, 0x0, false, .immediate, [
      ⟨0, 3, .rw, 0⟩, ⟨3, 2, .wo, 0⟩, ⟨8, 4, .rw, 4⟩, ⟨12, 1, .ro, 0⟩, ⟨13, 1, .w1c, 0⟩, ⟨14, 1, .w1c, 0⟩, ⟨16, 8, .ro, 0⟩]⟩
  | .SF_Q_STAT => ⟨0x80060, 1, 0x0, 1, 0x0, false, .immediate, [
      ⟨0, 9, .ro, 0⟩, ⟨16, 16, .ro, 0⟩]⟩
  | .SF_DWR => ⟨0x80064, 1, 0x0, 1, 0x0, false, .immediate, [
      ⟨0, 32, .ro, 0⟩]⟩
  | .SF_Q_PEEK => ⟨0x80070, 1, 0x0, 1, 0x0, true, .snapshot, [
      ⟨0, 128, .ro, 0⟩]⟩
  | .SF_Q_POP => ⟨0x80080, 1, 0x0, 1, 0x0, true, .snapshot, [
      ⟨0, 128, .ro, 0⟩]⟩
  | .SF_CH_CFG => ⟨0x80100, 8, 0x40, 1, 0x0, false, .sfApply, [
      ⟨0, 1, .rwb, 0⟩, ⟨1, 5, .rwb, 0x10⟩, ⟨6, 5, .rwb, 0x10⟩, ⟨13, 3, .rwb, 0⟩, ⟨16, 1, .rwb, 0⟩, ⟨17, 3, .rwb, 0⟩, ⟨20, 3, .rwb, 7⟩, ⟨23, 2, .rwb, 0⟩, ⟨25, 1, .rwb, 0⟩, ⟨26, 1, .rwb, 1⟩]⟩
  | .SF_CH_BIAS => ⟨0x80104, 8, 0x40, 1, 0x0, false, .sfApply, [
      ⟨0, 5, .rwb, 0⟩, ⟨5, 2, .rwb, 0⟩]⟩
  | .SF_CH_CURVE => ⟨0x80108, 8, 0x40, 1, 0x0, false, .sfApply, [
      ⟨0, 4, .rwb, 0⟩, ⟨4, 4, .rwb, 0⟩, ⟨8, 3, .rwb, 0⟩, ⟨12, 2, .rwb, 0⟩]⟩
  | .SF_CH_STAT => ⟨0x8010c, 8, 0x40, 1, 0x0, false, .immediate, [
      ⟨0, 1, .ro, 1⟩, ⟨1, 1, .w1c, 0⟩, ⟨2, 1, .w1c, 0⟩, ⟨3, 1, .w1c, 0⟩, ⟨4, 1, .ro, 0⟩, ⟨5, 1, .w1c, 0⟩, ⟨6, 1, .ro, 0⟩, ⟨8, 3, .ro, 0⟩, ⟨16, 16, .ro, 0⟩]⟩
  | .SF_CH_P => ⟨0x80110, 8, 0x40, 3, 0x4, false, .sfApply, [
      ⟨0, 32, .rwb, 0⟩]⟩
  | .SF_XCHK => ⟨0x8011c, 8, 0x40, 1, 0x0, false, .immediate, [
      ⟨0, 1, .rw, 0⟩, ⟨1, 4, .rw, 3⟩, ⟨8, 8, .rw, 0xa⟩]⟩
  | .SF_XTOL => ⟨0x80120, 8, 0x40, 1, 0x0, false, .immediate, [
      ⟨0, 32, .rw, 0⟩]⟩
  | .SF_CAL_ZERO => ⟨0x80124, 8, 0x40, 1, 0x0, false, .immediate, [
      ⟨0, 32, .rw, 0⟩]⟩
  | .SF_CAL_GAIN => ⟨0x80128, 8, 0x40, 1, 0x0, false, .immediate, [
      ⟨0, 32, .rw, 0x1000000⟩]⟩
  | .SF_CAL_REF => ⟨0x8012c, 8, 0x40, 1, 0x0, false, .immediate, [
      ⟨0, 32, .rw, 0⟩]⟩
  | .SF_DATA => ⟨0x80130, 8, 0x40, 1, 0x0, true, .snapshot, [
      ⟨0, 128, .ro, 0x8000000000⟩]⟩
  | .SF_REP_CFG => ⟨0x80300, 4, 0x20, 1, 0x0, false, .immediate, [
      ⟨0, 1, .rw, 0⟩, ⟨1, 1, .rw, 0⟩, ⟨2, 4, .rw, 0⟩, ⟨6, 1, .rw, 0⟩, ⟨16, 14, .rw, 0x3e8⟩]⟩
  | .SF_REP_VLO => ⟨0x80304, 4, 0x20, 1, 0x0, false, .immediate, [
      ⟨0, 32, .rw, 0⟩]⟩
  | .SF_REP_VHI => ⟨0x80308, 4, 0x20, 1, 0x0, false, .immediate, [
      ⟨0, 32, .rw, 0⟩]⟩
  | .SF_REP_HOST => ⟨0x80318, 4, 0x20, 1, 0x0, false, .immediate, [
      ⟨0, 32, .rw, 0⟩]⟩
  | .SF_REP_OLO => ⟨0x8030c, 4, 0x20, 1, 0x0, false, .immediate, [
      ⟨0, 17, .rw, 0xa⟩]⟩
  | .SF_REP_OHI => ⟨0x80310, 4, 0x20, 1, 0x0, false, .immediate, [
      ⟨0, 17, .rw, 0xa⟩]⟩
  | .SF_REP_OFLT => ⟨0x80314, 4, 0x20, 1, 0x0, false, .immediate, [
      ⟨0, 17, .rw, 0xa⟩]⟩
  | .SF_REP_STAT => ⟨0x8031c, 4, 0x20, 1, 0x0, false, .immediate, [
      ⟨0, 17, .ro, 0⟩, ⟨17, 1, .ro, 0⟩, ⟨18, 1, .ro, 0⟩]⟩
  | .FM_CFG => ⟨0x90000, 1, 0x0, 1, 0x0, false, .immediate, [
      ⟨0, 1, .rw, 1⟩, ⟨1, 1, .rw, 1⟩, ⟨2, 1, .rw, 0⟩, ⟨8, 8, .rw, 0x40⟩, ⟨16, 8, .rw, 3⟩, ⟨24, 8, .rw, 8⟩]⟩
  | .FM_STATUS => ⟨0x90004, 1, 0x0, 1, 0x0, false, .immediate, [
      ⟨0, 1, .ro, 0⟩, ⟨1, 1, .ro, 0⟩, ⟨2, 1, .ro, 0⟩, ⟨3, 1, .ro, 0⟩, ⟨4, 4, .ro, 0⟩, ⟨8, 1, .ro, 0⟩, ⟨9, 1, .w1c, 0⟩, ⟨10, 1, .w1c, 0⟩, ⟨11, 1, .w1c, 0⟩, ⟨12, 1, .w1c, 0⟩, ⟨13, 1, .w1c, 0⟩, ⟨16, 4, .ro, 0xf⟩, ⟨20, 4, .ro, 0xf⟩, ⟨24, 4, .ro, 0xf⟩]⟩
  | .FM_TKO => ⟨0x90010, 1, 0x0, 1, 0x0, true, .snapshot, [
      ⟨0, 8, .ro, 0⟩, ⟨8, 4, .ro, 0⟩, ⟨16, 48, .ro, 0⟩, ⟨64, 16, .ro, 0⟩, ⟨80, 8, .ro, 0⟩]⟩
  | .FM_CNT => ⟨0x90020, 1, 0x0, 1, 0x0, false, .immediate, [
      ⟨0, 8, .ro, 0⟩, ⟨8, 8, .ro, 0⟩, ⟨16, 8, .ro, 0⟩]⟩
  | .FM_ECC_S => ⟨0x90024, 1, 0x0, 1, 0x0, false, .immediate, [
      ⟨0, 24, .ro, 0⟩, ⟨24, 8, .ro, 0⟩]⟩
  | .FM_ECC_D => ⟨0x90028, 1, 0x0, 1, 0x0, false, .immediate, [
      ⟨0, 24, .ro, 0⟩, ⟨24, 8, .ro, 0⟩]⟩
  | .FM_ECC_LAST => ⟨0x90030, 1, 0x0, 1, 0x0, true, .snapshot, [
      ⟨0, 40, .ro, 0⟩, ⟨40, 1, .ro, 0⟩, ⟨41, 1, .ro, 0⟩, ⟨48, 48, .ro, 0⟩]⟩
  | .FM_SCRUB => ⟨0x90040, 1, 0x0, 1, 0x0, false, .immediate, [
      ⟨0, 16, .ro, 0⟩, ⟨16, 16, .ro, 0⟩]⟩
  | .FM_CLK => ⟨0x90044, 1, 0x0, 1, 0x0, false, .immediate, [
      ⟨0, 7, .ro, 0⟩, ⟨7, 1, .ro, 0⟩, ⟨8, 1, .ro, 0⟩]⟩
  | .FM_FAULTN => ⟨0x90048, 1, 0x0, 1, 0x0, false, .immediate, [
      ⟨0, 5, .rw, 7⟩, ⟨8, 1, .rw, 0⟩, ⟨12, 4, .rw, 0xf⟩, ⟨16, 1, .ro, 0⟩]⟩
  | .FM_INJECT => ⟨0x9004c, 1, 0x0, 1, 0x0, false, .immediate, [
      ⟨0, 8, .wo, 0⟩, ⟨8, 8, .wo, 0⟩]⟩
  | .HL_CFG => ⟨0x91000, 1, 0x0, 1, 0x0, false, .immediate, [
      ⟨0, 8, .rwl, 0xdc⟩, ⟨8, 8, .rw, 0x14⟩, ⟨16, 8, .rw, 0x10⟩, ⟨24, 8, .rwl, 0x32⟩]⟩
  | .HL_CFG2 => ⟨0x91004, 1, 0x0, 1, 0x0, false, .immediate, [
      ⟨0, 8, .rw, 0x50⟩, ⟨8, 8, .rw, 0x14⟩, ⟨16, 8, .rwl, 0x8c⟩]⟩
  | .HL_THERM => ⟨0x91008, 1, 0x0, 1, 0x0, false, .immediate, [
      ⟨0, 16, .rw, 0x386⟩, ⟨16, 16, .rw, 0xe67⟩]⟩
  | .HL_TAU => ⟨0x9100c, 1, 0x0, 1, 0x0, false, .immediate, [
      ⟨0, 16, .rw, 0x12c⟩, ⟨16, 16, .rw, 0x1f4⟩]⟩
  | .HL_STATE => ⟨0x91010, 1, 0x0, 1, 0x0, true, .snapshot, [
      ⟨0, 16, .ro, 0⟩, ⟨16, 16, .ro, 0⟩, ⟨32, 16, .ro, 0⟩, ⟨48, 16, .ro, 0⟩, ⟨64, 55, .ro, 0x40080100200400⟩]⟩
  | .HL_STAT => ⟨0x91020, 1, 0x0, 1, 0x0, false, .immediate, [
      ⟨0, 1, .w1c, 0⟩, ⟨1, 1, .w1c, 0⟩, ⟨2, 1, .w1c, 0⟩, ⟨3, 1, .w1c, 0⟩, ⟨4, 1, .w1c, 0⟩]⟩
  | .HL_AX_CFG => ⟨0x91100, 48, 0x10, 1, 0x0, false, .immediate, [
      ⟨0, 2, .rw, 0⟩, ⟨8, 7, .rw, 0x1e⟩, ⟨15, 1, .rw, 0⟩, ⟨16, 3, .rw, 0⟩, ⟨24, 8, .rw, 0x82⟩]⟩
  | .HL_AX_STATE => ⟨0x91104, 48, 0x10, 1, 0x0, false, .immediate, [
      ⟨0, 16, .ro, 0x4800⟩, ⟨16, 16, .ro, 0⟩]⟩
  | .HL_AX_P => ⟨0x91108, 48, 0x10, 1, 0x0, false, .immediate, [
      ⟨0, 16, .ro, 0⟩, ⟨16, 3, .ro, 7⟩, ⟨19, 1, .ro, 0⟩, ⟨20, 1, .ro, 0⟩]⟩
  | .PT_CFG => ⟨0xa0000, 1, 0x0, 1, 0x0, false, .immediate, [
      ⟨0, 1, .rw, 1⟩, ⟨1, 1, .rw, 1⟩, ⟨2, 1, .rw, 1⟩, ⟨3, 1, .rw, 1⟩, ⟨4, 1, .rw, 1⟩, ⟨8, 8, .rw, 0x14⟩, ⟨16, 8, .rw, 0x50⟩, ⟨24, 8, .rw, 0x32⟩]⟩
  | .PT_CFG2 => ⟨0xa0004, 1, 0x0, 1, 0x0, false, .immediate, [
      ⟨0, 8, .rw, 0x46⟩, ⟨8, 8, .rw, 0x10⟩, ⟨16, 8, .rw, 0x64⟩, ⟨24, 8, .rw, 0x64⟩]⟩
  | .PT_CFG3 => ⟨0xa0008, 1, 0x0, 1, 0x0, false, .immediate, [
      ⟨0, 16, .rw, 0x19a⟩, ⟨16, 8, .rw, 0x32⟩, ⟨24, 4, .rw, 1⟩]⟩
  | .PT_STAT => ⟨0xa000c, 1, 0x0, 1, 0x0, false, .immediate, [
      ⟨0, 1, .w1c, 0⟩, ⟨1, 1, .w1c, 0⟩, ⟨2, 1, .w1c, 0⟩, ⟨3, 1, .w1c, 0⟩, ⟨4, 1, .w1c, 0⟩, ⟨5, 1, .w1c, 0⟩, ⟨6, 1, .w1c, 0⟩, ⟨7, 1, .w1c, 0⟩, ⟨16, 16, .ro, 0⟩]⟩
  | .PT_CTRL => ⟨0xa0010, 1, 0x0, 1, 0x0, false, .immediate, [
      ⟨0, 1, .wo, 0⟩, ⟨1, 1, .wo, 0⟩]⟩
  | .PT_SEQ => ⟨0xa0014, 1, 0x0, 1, 0x0, false, .immediate, [
      ⟨0, 32, .ro, 0⟩]⟩
  | .PT_MOD => ⟨0xa0020, 1, 0x0, 1, 0x0, true, .snapshot, [
      ⟨0, 16, .ro, 0⟩, ⟨16, 16, .ro, 0x8000⟩, ⟨32, 16, .ro, 0⟩, ⟨48, 16, .ro, 0⟩, ⟨64, 16, .ro, 0⟩, ⟨80, 16, .ro, 0⟩, ⟨96, 4, .ro, 0⟩]⟩
  | .PT_AX => ⟨0xa0100, 48, 0x20, 1, 0x0, true, .snapshot, [
      ⟨0, 16, .ro, 0⟩, ⟨16, 32, .ro, 0⟩, ⟨48, 32, .ro, 0⟩, ⟨80, 32, .ro, 0⟩, ⟨112, 16, .ro, 0⟩]⟩
  | .PT_PLAN => ⟨0xa0110, 48, 0x20, 1, 0x0, true, .snapshot, [
      ⟨0, 16, .ro, 0⟩, ⟨16, 11, .ro, 0x400⟩, ⟨32, 16, .ro, 0⟩, ⟨48, 1, .ro, 0⟩, ⟨64, 6, .ro, 0⟩]⟩
  | .ST_CFG => ⟨0xb0000, 1, 0x0, 1, 0x0, false, .immediate, [
      ⟨0, 1, .rw, 0⟩, ⟨1, 1, .rw, 1⟩]⟩
  | .ST_REGION => ⟨0xb0004, 1, 0x0, 1, 0x0, false, .immediate, [
      ⟨0, 4, .rw, 2⟩]⟩
  | .ST_STAT => ⟨0xb0008, 1, 0x0, 1, 0x0, false, .immediate, [
      ⟨0, 2, .ro, 0⟩, ⟨2, 1, .ro, 0⟩, ⟨3, 1, .w1c, 0⟩, ⟨4, 1, .w1c, 0⟩, ⟨5, 1, .w1c, 0⟩, ⟨6, 1, .w1c, 0⟩, ⟨8, 5, .ro, 0⟩, ⟨16, 8, .ro, 0⟩, ⟨24, 8, .ro, 0⟩]⟩
  | .ST_RATE => ⟨0xb000c, 1, 0x0, 1, 0x0, false, .immediate, [
      ⟨0, 22, .ro, 0x6ddd0⟩]⟩
  | .ST_CTRL => ⟨0xb0010, 1, 0x0, 1, 0x0, false, .immediate, [
      ⟨0, 1, .wo, 0⟩, ⟨1, 1, .wo, 0⟩, ⟨2, 1, .wo, 0⟩, ⟨3, 1, .wo, 0⟩, ⟨4, 1, .wo, 0⟩, ⟨8, 4, .wo, 0⟩]⟩
  | .ST_TRIG_CFG => ⟨0xb0014, 1, 0x0, 1, 0x0, false, .immediate, [
      ⟨0, 32, .rw, 6⟩]⟩
  | .ST_TRIG_EVT => ⟨0xb0018, 1, 0x0, 1, 0x0, false, .immediate, [
      ⟨0, 32, .rw, 0xc000c000⟩]⟩
  | .ST_TRIG_CS => ⟨0xb001c, 1, 0x0, 1, 0x0, false, .immediate, [
      ⟨0, 32, .rw, 0⟩]⟩
  | .ST_TIME => ⟨0xb0020, 1, 0x0, 1, 0x0, false, .immediate, [
      ⟨0, 32, .rw, 0x7d04e20⟩]⟩
  | .ST_SEL => ⟨0xb0040, 5, 0x10, 1, 0x0, true, .nextTick, [
      ⟨0, 48, .rw, 0⟩, ⟨48, 4, .rw, 0⟩]⟩
  | .ST_WR => ⟨0xb0090, 1, 0x0, 1, 0x0, true, .snapshot, [
      ⟨0, 32, .ro, 0⟩, ⟨32, 32, .ro, 0⟩, ⟨64, 32, .ro, 0⟩]⟩
  | .ST_LAYER => ⟨0xb0100, 16, 0x20, 1, 0x0, true, .snapshot, [
      ⟨0, 32, .ro, 0⟩, ⟨32, 32, .ro, 0⟩, ⟨64, 48, .ro, 0⟩, ⟨112, 8, .ro, 0⟩, ⟨120, 8, .ro, 0⟩]⟩
  | .ST_LAYER_ST => ⟨0xb0110, 16, 0x20, 1, 0x0, false, .immediate, [
      ⟨0, 1, .ro, 0⟩, ⟨1, 1, .ro, 0⟩, ⟨2, 1, .ro, 0⟩, ⟨3, 1, .ro, 0⟩, ⟨8, 12, .ro, 0⟩, ⟨20, 8, .ro, 0⟩]⟩
  | .HP_CFG => ⟨0xc0000, 1, 0x0, 1, 0x0, false, .nextHostFrame, [
      ⟨0, 2, .rw, 0⟩, ⟨2, 2, .rw, 0⟩, ⟨4, 1, .rw, 1⟩]⟩
  | .HP_STAT => ⟨0xc0004, 1, 0x0, 1, 0x0, false, .immediate, [
      ⟨0, 2, .ro, 0⟩, ⟨2, 2, .ro, 0⟩, ⟨4, 2, .ro, 0⟩, ⟨6, 1, .w1c, 0⟩]⟩
  | .HP_ERR => ⟨0xc0008, 1, 0x0, 1, 0x0, false, .immediate, [
      ⟨0, 8, .ro, 0⟩, ⟨8, 8, .ro, 0⟩, ⟨16, 8, .ro, 0⟩, ⟨24, 8, .ro, 0⟩]⟩
  | .HP_CTRL => ⟨0xc000c, 1, 0x0, 1, 0x0, false, .immediate, [
      ⟨0, 1, .wo, 0⟩]⟩
  | .HP_LAST => ⟨0xc0010, 1, 0x0, 1, 0x0, true, .snapshot, [
      ⟨0, 40, .ro, 0⟩, ⟨40, 4, .ro, 0⟩, ⟨44, 3, .ro, 0⟩, ⟨47, 1, .ro, 0⟩, ⟨48, 48, .ro, 0⟩, ⟨96, 16, .ro, 0⟩]⟩
  | .HP_FRAMES => ⟨0xc0020, 1, 0x0, 1, 0x0, false, .immediate, [
      ⟨0, 32, .ro, 0⟩]⟩
  | .GL_ID => ⟨0x0, 1, 0x0, 1, 0x0, false, .immediate, [
      ⟨0, 16, .ro, 2⟩, ⟨16, 16, .ro, 0x4860⟩]⟩
  | .GL_STATUS => ⟨0x4, 1, 0x0, 1, 0x0, false, .immediate, [
      ⟨0, 1, .w1c, 0⟩, ⟨1, 1, .w1c, 0⟩, ⟨2, 1, .w1c, 0⟩, ⟨3, 1, .w1c, 0⟩, ⟨4, 1, .ro, 0⟩]⟩
  | .GL_LOCK => ⟨0x8, 1, 0x0, 1, 0x0, false, .immediate, [
      ⟨0, 6, .rw, 0⟩]⟩
  | .GL_AXSEL => ⟨0xc, 1, 0x0, 1, 0x0, false, .immediate, [
      ⟨0, 6, .rw, 0⟩]⟩
  | .GL_DBG => ⟨0x10, 1, 0x0, 1, 0x0, false, .immediate, [
      ⟨0, 1, .rwl, 0⟩, ⟨8, 8, .wo, 0⟩]⟩
  | .GL_SCRATCH => ⟨0x14, 1, 0x0, 1, 0x0, false, .immediate, [
      ⟨0, 32, .rw, 0⟩]⟩
  | .GL_IADDR => ⟨0x20, 1, 0x0, 1, 0x0, false, .immediate, [
      ⟨0, 32, .rw, 0⟩]⟩
  | .GL_IADDR_HI => ⟨0x24, 1, 0x0, 1, 0x0, false, .immediate, [
      ⟨0, 8, .rw, 0⟩, ⟨8, 1, .rw, 0⟩]⟩
  | .GL_IDATA => ⟨0x28, 1, 0x0, 1, 0x0, false, .immediate, [
      ⟨0, 32, .rw, 0⟩]⟩
  | .GL_ISTAT => ⟨0x2c, 1, 0x0, 1, 0x0, false, .immediate, [
      ⟨0, 1, .ro, 0⟩, ⟨1, 1, .w1c, 0⟩, ⟨8, 4, .ro, 0⟩]⟩
  | .GL_TS => ⟨0x30, 1, 0x0, 1, 0x0, true, .snapshot, [
      ⟨0, 48, .ro, 0⟩, ⟨48, 32, .ro, 0⟩]⟩

/-- Part 0 of the list of all registers. -/
def Reg.part0 : List Reg :=
  [.PW_VMON_CFG, .PW_VMON_TIM, .PW_VMON_STAT, .PW_VM_MEAS, .KN_SUPPLY, .KN_LGASP, .KN_STATE, .KN_CFG, .KN_FAILCNT, .KN_ALT, .KN_LAST, .KN_CTRL, .KN_TIME, .KN_STEPTIME, .KN_AXOFF_LO, .KN_AXOFF_HI, .KN_UNTESTED_LO, .KN_UNTESTED_HI, .KN_HOMEREV_LO, .KN_HOMEREV_HI, .KN_MCEN_LO, .KN_MCEN_HI, .KN_UNITS, .KN_CORES, .KN_MCHAR_A, .KN_MCHAR_B, .KN_MCHAR_S, .KN_MEMO, .NV_STATUS, .NV_SEQ_A, .NV_SEQ_B, .NV_CAL_STAT, .NV_COMMIT, .NV_COMMIT_SRC, .NV_COMMIT_LEN, .NV_COMMIT_STAT, .NV_ACC_ADDR, .NV_ACC_CTRL, .NV_ACC_DATA, .NV_KEY_STAT]
/-- Part 1 of the list of all registers. -/
def Reg.part1 : List Reg :=
  [.NV_KEY_CMD, .NV_KEY_DATA, .AX_STATE, .AX_CTRL, .AX_FAULT, .AX_CFG, .AX_CUR, .AX_IHOLD, .AX_LIM_CFG, .AX_LIM_STAT, .AX_LIM_AWAY, .AX_SLIM, .AX_PROF, .AX_RETGT, .AX_HOME_CFG, .AX_HOME_VF, .AX_HOME_VS, .AX_HOME_DIST, .AX_HOME_POS, .AX_HOME_CAP, .AX_HOME_STAT, .AX_MAQ_CFG, .AX_SEG, .Q_CFG, .Q_STATUS, .Q_CTRL, .Q_LEVEL, .Q_LAST, .Q_SIGNAL, .Q_RTN, .Q_PC, .Q_ABORT, .Q_ABORT_STAT, .Q_HEAD, .Q_PUSH, .Q_PUSH_DB, .Q_DB, .Q_UNIT_CFG, .Q_UNIT_STAT, .Q_CPL_WR]
/-- Part 2 of the list of all registers. -/
def Reg.part2 : List Reg :=
  [.Q_CPL_RD, .Q_CPL_LOST, .Q_CPL_QN, .Q_CPL_PEEK, .Q_CPL_POP, .Q_EVT_WR, .Q_EVT_RD, .Q_EVT_LOST, .Q_EVT_MWR, .Q_EVT_PEEK, .Q_EVT_POP, .Q_IRQ, .Q_IRQ_EN, .Q_MDB_LO, .Q_MDB_HI, .Q_ABORT_X, .Q_ABIN, .Q_GI_CFG, .Q_GI_STAT, .GR_MEMB_LO, .GR_MEMB_HI, .GR_CFG, .GR_STATUS, .GR_CTRL, .GR_PATH, .GR_LEN, .GR_TGT, .GR_CAMTAB, .GR_VAX_CMD, .GR_VAX_STATE, .GR_REG_CFG, .GR_REG_GAIN, .GR_REG_STAT, .GR_REG_GEOM, .GR_REG_EXP, .GR_REG_ERR, .GR_FSTATE, .GR_FSTAT, .GR_TRIM_SP, .GR_TRIM_KP]
/-- Part 3 of the list of all registers. -/
def Reg.part3 : List Reg :=
  [.GR_TRIM_KI, .GR_TRIM_LIM, .GR_TRIM_OUT, .AX_COMM_CFG, .AX_RES_THR, .AX_RES_THR2, .AX_MODE_CFG, .AX_CR_PI, .AX_CR_FF, .AX_CR_CHOP, .AX_CUR_LIM, .AX_COMM_OFS, .AX_COIL, .AX_CR_STAT, .AX_CR_RL_A, .AX_CR_RL_B, .AX_HARM_CFG, .AX_HARM_SPD, .AX_HARM_SEL, .AX_HARM_DATA, .PW_CFG, .PW_PERIOD, .PW_MINP, .PW_SAFE, .PW_SAFE_STAT, .PW_ILIM, .PW_STAT, .PW_BFAULT, .PW_DT, .PW_CH_OFS, .PW_CH_STAT, .PW_TRIP_CFG, .PW_TRIP_STAT, .PW_TRIP_TS, .PW_SYNC_CFG, .PW_SYNC_DLY, .PW_SYNC_STAT, .CS_CFG, .CS_SCHED, .CS_RANGE]
/-- Part 4 of the list of all registers. -/
def Reg.part4 : List Reg :=
  [.CS_STAT, .CS_CNT, .CS_SLICE, .CS_INJ_CTRL, .CS_INJ_STAT, .CS_INJ_RES, .CS_SCAN_CFG, .CS_SCAN_STAT, .CS_SCAN_LIST, .CS_SCAN_PEEK, .CS_SCAN_POP, .CS_TRIG, .CS_WIN_CFG, .CS_WIN_THR, .CS_WIN_STAT, .CS_PCHK, .CS_PCHK_STAT, .LA_CFG, .LA_CTRL, .LA_BSTAT, .LA_OBS_CFG, .LA_RS_CFG, .LA_STALL_CFG, .LA_RETRY_CFG, .LA_LF_CFG, .LA_VER_CFG, .LA_VER_LIM, .LA_AX_STAT, .LA_AX, .LA_VER, .FB_CFG, .FB_CTRL, .FB_STAT, .FB_ERR, .FB_CPR, .FB_IDX, .FB_IDX_OFS, .FB_SPD_CFG, .FB_SER, .FB_SER_TIM]
/-- Part 5 of the list of all registers. -/
def Reg.part5 : List Reg :=
  [.FB_SERR, .FB_SER_JMP, .FB_FOLLOW, .FB_PINS, .FB_SCALE, .FB_STATE, .FB_CNT, .FB_IDX_CAP, .FB_SWORD, .SF_CFG, .SF_STATUS, .SF_AUX_CFG, .SF_SEQ, .SF_AUX_STAT, .SF_EX_CFG, .SF_EX_STAT, .SF_BLANK_CFG, .SF_TDAC, .SF_CHK, .SF_CAL_CMD, .SF_Q_STAT, .SF_DWR, .SF_Q_PEEK, .SF_Q_POP, .SF_CH_CFG, .SF_CH_BIAS, .SF_CH_CURVE, .SF_CH_STAT, .SF_CH_P, .SF_XCHK, .SF_XTOL, .SF_CAL_ZERO, .SF_CAL_GAIN, .SF_CAL_REF, .SF_DATA, .SF_REP_CFG, .SF_REP_VLO, .SF_REP_VHI, .SF_REP_HOST, .SF_REP_OLO]
/-- Part 6 of the list of all registers. -/
def Reg.part6 : List Reg :=
  [.SF_REP_OHI, .SF_REP_OFLT, .SF_REP_STAT, .FM_CFG, .FM_STATUS, .FM_TKO, .FM_CNT, .FM_ECC_S, .FM_ECC_D, .FM_ECC_LAST, .FM_SCRUB, .FM_CLK, .FM_FAULTN, .FM_INJECT, .HL_CFG, .HL_CFG2, .HL_THERM, .HL_TAU, .HL_STATE, .HL_STAT, .HL_AX_CFG, .HL_AX_STATE, .HL_AX_P, .PT_CFG, .PT_CFG2, .PT_CFG3, .PT_STAT, .PT_CTRL, .PT_SEQ, .PT_MOD, .PT_AX, .PT_PLAN, .ST_CFG, .ST_REGION, .ST_STAT, .ST_RATE, .ST_CTRL, .ST_TRIG_CFG, .ST_TRIG_EVT, .ST_TRIG_CS]
/-- Part 7 of the list of all registers. -/
def Reg.part7 : List Reg :=
  [.ST_TIME, .ST_SEL, .ST_WR, .ST_LAYER, .ST_LAYER_ST, .HP_CFG, .HP_STAT, .HP_ERR, .HP_CTRL, .HP_LAST, .HP_FRAMES, .GL_ID, .GL_STATUS, .GL_LOCK, .GL_AXSEL, .GL_DBG, .GL_SCRATCH, .GL_IADDR, .GL_IADDR_HI, .GL_IDATA, .GL_ISTAT, .GL_TS]

/-- Every register. -/
def Reg.all : List Reg :=
  Reg.part0 ++ Reg.part1 ++ Reg.part2 ++ Reg.part3 ++ Reg.part4 ++ Reg.part5 ++ Reg.part6 ++ Reg.part7

/-- The full-window byte address of register `r` at indexes `i`, `j`. -/
def Reg.addr (r : Reg) (i j : Nat) : Nat :=
  r.desc.base + r.desc.st1 * i + r.desc.st2 * j

/-- A register field: the register, the field's lowest bit and its width. -/
structure Fld where
  reg : Reg
  lo : Nat
  width : Nat
  deriving DecidableEq, Repr

end Sys2Proof.Machine
end

