-- ==== Sys2Proof/Machine/Fields.lean ====
section
/-!
DEFINITION. The fields of the register map that the meanings name, each as its register's name and the field's name in
the spec's field tables.
-/

namespace Sys2Proof.Machine.F

open Sys2Proof.Machine

def PW_VMON_CFG_UV_THR : Fld := ⟨.PW_VMON_CFG, 0, 8⟩
def PW_VMON_CFG_UV_RESUME : Fld := ⟨.PW_VMON_CFG, 12, 2⟩
def PW_VMON_CFG_OV_EN : Fld := ⟨.PW_VMON_CFG, 28, 1⟩
def PW_VMON_TIM_UV_RAMP : Fld := ⟨.PW_VMON_TIM, 8, 8⟩
def PW_VMON_STAT_UV : Fld := ⟨.PW_VMON_STAT, 0, 1⟩
def PW_VMON_STAT_UV_NOW : Fld := ⟨.PW_VMON_STAT, 1, 1⟩
def PW_VMON_STAT_OV : Fld := ⟨.PW_VMON_STAT, 2, 1⟩
def PW_VMON_STAT_OV_NOW : Fld := ⟨.PW_VMON_STAT, 3, 1⟩
def PW_VMON_STAT_OV_TIMEOUT : Fld := ⟨.PW_VMON_STAT, 4, 1⟩
def PW_VMON_STAT_RESUME_PEND : Fld := ⟨.PW_VMON_STAT, 5, 1⟩
def PW_VMON_STAT_UV_CNT : Fld := ⟨.PW_VMON_STAT, 8, 8⟩
def PW_VMON_STAT_OV_CNT : Fld := ⟨.PW_VMON_STAT, 16, 8⟩
def PW_VM_MEAS_VM : Fld := ⟨.PW_VM_MEAS, 0, 16⟩
def KN_SUPPLY_VAUX_GOOD : Fld := ⟨.KN_SUPPLY, 0, 1⟩
def KN_SUPPLY_LG_ARMED : Fld := ⟨.KN_SUPPLY, 1, 1⟩
def KN_SUPPLY_VIO_H_GOOD : Fld := ⟨.KN_SUPPLY, 2, 1⟩
def KN_SUPPLY_VIO_N_GOOD : Fld := ⟨.KN_SUPPLY, 3, 1⟩
def KN_SUPPLY_VIO_F_GOOD : Fld := ⟨.KN_SUPPLY, 4, 1⟩
def KN_SUPPLY_VSEL_H : Fld := ⟨.KN_SUPPLY, 5, 1⟩
def KN_SUPPLY_VSEL_N : Fld := ⟨.KN_SUPPLY, 6, 1⟩
def KN_SUPPLY_VIO_OVL : Fld := ⟨.KN_SUPPLY, 8, 1⟩
def KN_SUPPLY_LG_PREV : Fld := ⟨.KN_SUPPLY, 9, 1⟩
def KN_SUPPLY_VAUX_V : Fld := ⟨.KN_SUPPLY, 16, 16⟩
def KN_LGASP_LG_EN : Fld := ⟨.KN_LGASP, 8, 1⟩
def KN_LGASP_VHOLD_V : Fld := ⟨.KN_LGASP, 16, 16⟩
def KN_STATE_STEP : Fld := ⟨.KN_STATE, 0, 5⟩
def KN_STATE_PHASE : Fld := ⟨.KN_STATE, 5, 3⟩
def KN_STATE_ATTEMPT : Fld := ⟨.KN_STATE, 8, 2⟩
def KN_STATE_HOLD_STEP : Fld := ⟨.KN_STATE, 16, 8⟩
def KN_STATE_HOLD_CODE : Fld := ⟨.KN_STATE, 24, 8⟩
def KN_CFG_BRIDGE_TEST_EN : Fld := ⟨.KN_CFG, 0, 1⟩
def KN_CFG_FE_TEST_EN : Fld := ⟨.KN_CFG, 1, 1⟩
def KN_CFG_MCHAR_EN : Fld := ⟨.KN_CFG, 2, 1⟩
def KN_CFG_FB_CHECK_EN : Fld := ⟨.KN_CFG, 3, 1⟩
def KN_CFG_AUTOSTART_EN : Fld := ⟨.KN_CFG, 4, 1⟩
def KN_CFG_FORCE_FULL_TRAIN : Fld := ⟨.KN_CFG, 5, 1⟩
def KN_CFG_MCHAR_TOL : Fld := ⟨.KN_CFG, 16, 8⟩
def KN_CFG_SAL_MIN : Fld := ⟨.KN_CFG, 24, 8⟩
def KN_ALT_IN_FORCE : Fld := ⟨.KN_ALT, 0, 16⟩
def KN_ALT_DRAM_SLOW : Fld := ⟨.KN_ALT, 16, 1⟩
def KN_ALT_OTHER_COPY_FIRST : Fld := ⟨.KN_ALT, 17, 1⟩
def KN_ALT_RC_CLOCK : Fld := ⟨.KN_ALT, 18, 1⟩
def KN_TIME_TO_RUN : Fld := ⟨.KN_TIME, 0, 24⟩
def KN_STEPTIME_DUR : Fld := ⟨.KN_STEPTIME, 0, 20⟩
def KN_UNITS_SLICE : Fld := ⟨.KN_UNITS, 0, 20⟩
def KN_UNITS_FB : Fld := ⟨.KN_UNITS, 20, 12⟩
def KN_CORES_ENG : Fld := ⟨.KN_CORES, 0, 9⟩
def KN_CORES_REG : Fld := ⟨.KN_CORES, 16, 5⟩
def KN_CORES_SC : Fld := ⟨.KN_CORES, 24, 8⟩
def KN_MCHAR_A_R : Fld := ⟨.KN_MCHAR_A, 0, 16⟩
def KN_MCHAR_A_L : Fld := ⟨.KN_MCHAR_A, 16, 16⟩
def KN_MCHAR_B_R : Fld := ⟨.KN_MCHAR_B, 0, 16⟩
def KN_MCHAR_B_L : Fld := ⟨.KN_MCHAR_B, 16, 16⟩
def KN_MCHAR_S_SAL : Fld := ⟨.KN_MCHAR_S, 0, 10⟩
def KN_MCHAR_S_LOW_SAL : Fld := ⟨.KN_MCHAR_S, 21, 1⟩
def KN_MCHAR_S_IMG_VALUES : Fld := ⟨.KN_MCHAR_S, 23, 1⟩
def KN_MEMO_VALID : Fld := ⟨.KN_MEMO, 0, 1⟩
def KN_MEMO_STEP : Fld := ⟨.KN_MEMO, 1, 3⟩
def KN_MEMO_CODE : Fld := ⟨.KN_MEMO, 8, 8⟩
def KN_MEMO_CNT : Fld := ⟨.KN_MEMO, 16, 8⟩
def KN_MEMO_REQ : Fld := ⟨.KN_MEMO, 24, 2⟩
def NV_STATUS_COPY : Fld := ⟨.NV_STATUS, 0, 1⟩
def NV_STATUS_A_VALID : Fld := ⟨.NV_STATUS, 1, 1⟩
def NV_STATUS_B_VALID : Fld := ⟨.NV_STATUS, 2, 1⟩
def NV_STATUS_CFG_TIE : Fld := ⟨.NV_STATUS, 3, 1⟩
def NV_STATUS_SIGNED : Fld := ⟨.NV_STATUS, 4, 1⟩
def NV_STATUS_PROFILE : Fld := ⟨.NV_STATUS, 8, 2⟩
def NV_STATUS_ADDR4 : Fld := ⟨.NV_STATUS, 10, 1⟩
def NV_STATUS_SIZE : Fld := ⟨.NV_STATUS, 12, 3⟩
def NV_STATUS_GEN : Fld := ⟨.NV_STATUS, 16, 2⟩
def NV_SEQ_A_SEQ : Fld := ⟨.NV_SEQ_A, 0, 32⟩
def NV_SEQ_B_SEQ : Fld := ⟨.NV_SEQ_B, 0, 32⟩
def NV_CAL_STAT_COPY : Fld := ⟨.NV_CAL_STAT, 0, 1⟩
def NV_CAL_STAT_A_VALID : Fld := ⟨.NV_CAL_STAT, 1, 1⟩
def NV_CAL_STAT_B_VALID : Fld := ⟨.NV_CAL_STAT, 2, 1⟩
def NV_CAL_STAT_PENDING : Fld := ⟨.NV_CAL_STAT, 3, 1⟩
def NV_COMMIT_SRC_SRC : Fld := ⟨.NV_COMMIT_SRC, 0, 32⟩
def NV_COMMIT_LEN_LEN : Fld := ⟨.NV_COMMIT_LEN, 0, 32⟩
def NV_COMMIT_STAT_BUSY : Fld := ⟨.NV_COMMIT_STAT, 0, 1⟩
def NV_COMMIT_STAT_DONE : Fld := ⟨.NV_COMMIT_STAT, 1, 1⟩
def NV_COMMIT_STAT_FAIL : Fld := ⟨.NV_COMMIT_STAT, 2, 1⟩
def NV_COMMIT_STAT_TARGET : Fld := ⟨.NV_COMMIT_STAT, 3, 1⟩
def NV_COMMIT_STAT_PHASE : Fld := ⟨.NV_COMMIT_STAT, 4, 4⟩
def NV_COMMIT_STAT_CODE : Fld := ⟨.NV_COMMIT_STAT, 8, 8⟩
def NV_COMMIT_STAT_PROGRESS : Fld := ⟨.NV_COMMIT_STAT, 16, 7⟩
def NV_ACC_ADDR_ADDR : Fld := ⟨.NV_ACC_ADDR, 0, 32⟩
def NV_ACC_CTRL_BUSY : Fld := ⟨.NV_ACC_CTRL, 8, 1⟩
def NV_ACC_CTRL_DONE : Fld := ⟨.NV_ACC_CTRL, 9, 1⟩
def NV_ACC_CTRL_REFUSED : Fld := ⟨.NV_ACC_CTRL, 10, 1⟩
def NV_ACC_CTRL_TIMEOUT : Fld := ⟨.NV_ACC_CTRL, 11, 1⟩
def NV_ACC_DATA_DATA : Fld := ⟨.NV_ACC_DATA, 0, 32⟩
def NV_KEY_STAT_PROG : Fld := ⟨.NV_KEY_STAT, 0, 4⟩
def NV_KEY_STAT_REVOKED : Fld := ⟨.NV_KEY_STAT, 4, 4⟩
def NV_KEY_STAT_REQUIRE_SIG : Fld := ⟨.NV_KEY_STAT, 8, 1⟩
def NV_KEY_STAT_DONE : Fld := ⟨.NV_KEY_STAT, 16, 1⟩
def NV_KEY_STAT_FAIL : Fld := ⟨.NV_KEY_STAT, 17, 1⟩
def NV_KEY_DATA_HASH : Fld := ⟨.NV_KEY_DATA, 0, 32⟩
def AX_FAULT_CAUSE : Fld := ⟨.AX_FAULT, 0, 8⟩
def AX_FAULT_ESTOP_CAUSE : Fld := ⟨.AX_FAULT, 8, 8⟩
def AX_FAULT_FAULTED : Fld := ⟨.AX_FAULT, 16, 1⟩
def AX_FAULT_ESTOPPED : Fld := ⟨.AX_FAULT, 17, 1⟩
def AX_FAULT_CTRL_IGNORED : Fld := ⟨.AX_FAULT, 18, 1⟩
def AX_FAULT_RETGT_REFUSED : Fld := ⟨.AX_FAULT, 19, 1⟩
def AX_CFG_APPLY : Fld := ⟨.AX_CFG, 0, 2⟩
def AX_CFG_SLIM_EN : Fld := ⟨.AX_CFG, 2, 1⟩
def AX_CFG_EN_AT_RUN : Fld := ⟨.AX_CFG, 3, 1⟩
def AX_CFG_FAULT_HOLD : Fld := ⟨.AX_CFG, 4, 1⟩
def AX_CUR_IRUN : Fld := ⟨.AX_CUR, 0, 16⟩
def AX_CUR_HOLD_PCT : Fld := ⟨.AX_CUR, 16, 7⟩
def AX_IHOLD_RAMP : Fld := ⟨.AX_IHOLD, 10, 10⟩
def AX_IHOLD_ARM_RAMP : Fld := ⟨.AX_IHOLD, 20, 8⟩
def AX_LIM_CFG_EN_A : Fld := ⟨.AX_LIM_CFG, 0, 1⟩
def AX_LIM_CFG_POL_A : Fld := ⟨.AX_LIM_CFG, 1, 1⟩
def AX_LIM_CFG_REACT_A : Fld := ⟨.AX_LIM_CFG, 2, 1⟩
def AX_LIM_CFG_EN_B : Fld := ⟨.AX_LIM_CFG, 8, 1⟩
def AX_LIM_CFG_POL_B : Fld := ⟨.AX_LIM_CFG, 9, 1⟩
def AX_LIM_CFG_REACT_B : Fld := ⟨.AX_LIM_CFG, 10, 1⟩
def AX_LIM_CFG_SWAP : Fld := ⟨.AX_LIM_CFG, 16, 1⟩
def AX_LIM_CFG_AUTO_CLR : Fld := ⟨.AX_LIM_CFG, 17, 1⟩
def AX_LIM_CFG_DEB : Fld := ⟨.AX_LIM_CFG, 24, 8⟩
def AX_LIM_STAT_ACT_A : Fld := ⟨.AX_LIM_STAT, 0, 1⟩
def AX_LIM_STAT_ACT_B : Fld := ⟨.AX_LIM_STAT, 1, 1⟩
def AX_LIM_STAT_LATCH_A : Fld := ⟨.AX_LIM_STAT, 2, 1⟩
def AX_LIM_STAT_LATCH_B : Fld := ⟨.AX_LIM_STAT, 3, 1⟩
def AX_LIM_STAT_CLR_REFUSED : Fld := ⟨.AX_LIM_STAT, 4, 1⟩
def AX_LIM_STAT_HARD : Fld := ⟨.AX_LIM_STAT, 5, 1⟩
def AX_LIM_STAT_BOTH : Fld := ⟨.AX_LIM_STAT, 6, 1⟩
def AX_LIM_STAT_CNT : Fld := ⟨.AX_LIM_STAT, 8, 8⟩
def AX_LIM_AWAY_AWAY : Fld := ⟨.AX_LIM_AWAY, 0, 32⟩
def AX_SLIM_LO : Fld := ⟨.AX_SLIM, 0, 64⟩
def AX_SLIM_HI : Fld := ⟨.AX_SLIM, 64, 64⟩
def AX_PROF_VMAX : Fld := ⟨.AX_PROF, 0, 32⟩
def AX_PROF_ACC : Fld := ⟨.AX_PROF, 32, 32⟩
def AX_PROF_DEC : Fld := ⟨.AX_PROF, 64, 32⟩
def AX_PROF_JERK : Fld := ⟨.AX_PROF, 96, 32⟩
def AX_HOME_CFG_METHOD : Fld := ⟨.AX_HOME_CFG, 0, 3⟩
def AX_HOME_CFG_DIR : Fld := ⟨.AX_HOME_CFG, 3, 1⟩
def AX_HOME_CFG_SRC_GI : Fld := ⟨.AX_HOME_CFG, 4, 4⟩
def AX_HOME_CFG_SRC_FB : Fld := ⟨.AX_HOME_CFG, 8, 4⟩
def AX_HOME_CFG_BACKOFF : Fld := ⟨.AX_HOME_CFG, 16, 16⟩
def AX_HOME_VF_V : Fld := ⟨.AX_HOME_VF, 0, 32⟩
def AX_HOME_VS_V : Fld := ⟨.AX_HOME_VS, 0, 32⟩
def AX_HOME_DIST_DIST : Fld := ⟨.AX_HOME_DIST, 0, 32⟩
def AX_HOME_POS_POS : Fld := ⟨.AX_HOME_POS, 0, 64⟩
def AX_HOME_CAP_CAP_POS : Fld := ⟨.AX_HOME_CAP, 0, 64⟩
def AX_HOME_CAP_TS : Fld := ⟨.AX_HOME_CAP, 64, 48⟩
def AX_HOME_STAT_PHASE : Fld := ⟨.AX_HOME_STAT, 0, 3⟩
def AX_HOME_STAT_DIR_USED : Fld := ⟨.AX_HOME_STAT, 3, 1⟩
def AX_HOME_STAT_DONE : Fld := ⟨.AX_HOME_STAT, 4, 1⟩
def AX_HOME_STAT_FAIL : Fld := ⟨.AX_HOME_STAT, 5, 1⟩
def AX_HOME_STAT_CODE : Fld := ⟨.AX_HOME_STAT, 8, 8⟩
def AX_MAQ_CFG_LOAD : Fld := ⟨.AX_MAQ_CFG, 0, 8⟩
def AX_MAQ_CFG_STALL_INJ : Fld := ⟨.AX_MAQ_CFG, 8, 1⟩
def Q_CFG_STOP_ON_REJECT : Fld := ⟨.Q_CFG, 0, 1⟩
def Q_CFG_REPLACE : Fld := ⟨.Q_CFG, 1, 1⟩
def Q_CFG_ABORT_HALT : Fld := ⟨.Q_CFG, 2, 1⟩
def Q_CFG_SLOT_REJECT : Fld := ⟨.Q_CFG, 3, 1⟩
def Q_CFG_CPL_SEL : Fld := ⟨.Q_CFG, 4, 2⟩
def Q_CFG_LOOKAHEAD : Fld := ⟨.Q_CFG, 8, 4⟩
def Q_STATUS_STATE : Fld := ⟨.Q_STATUS, 0, 3⟩
def Q_STATUS_ROUTINE : Fld := ⟨.Q_STATUS, 3, 1⟩
def Q_STATUS_LEVEL : Fld := ⟨.Q_STATUS, 4, 3⟩
def Q_STATUS_WAIT_WHY : Fld := ⟨.Q_STATUS, 8, 4⟩
def Q_STATUS_ABORT_DONE : Fld := ⟨.Q_STATUS, 16, 1⟩
def Q_STATUS_REJECTED : Fld := ⟨.Q_STATUS, 17, 1⟩
def Q_STATUS_PUSH_OVF : Fld := ⟨.Q_STATUS, 18, 1⟩
def Q_STATUS_PUSH_DROP : Fld := ⟨.Q_STATUS, 19, 1⟩
def Q_STATUS_SLOT_STARVED : Fld := ⟨.Q_STATUS, 20, 1⟩
def Q_STATUS_RTN_REFUSED : Fld := ⟨.Q_STATUS, 21, 1⟩
def Q_STATUS_FETCH_ERR : Fld := ⟨.Q_STATUS, 22, 1⟩
def Q_STATUS_REJ_STATUS : Fld := ⟨.Q_STATUS, 24, 8⟩
def Q_LEVEL_PEND : Fld := ⟨.Q_LEVEL, 0, 6⟩
def Q_LEVEL_STAGED : Fld := ⟨.Q_LEVEL, 8, 6⟩
def Q_LEVEL_FREE : Fld := ⟨.Q_LEVEL, 16, 6⟩
def Q_LEVEL_INFLIGHT : Fld := ⟨.Q_LEVEL, 24, 8⟩
def Q_LAST_TAG : Fld := ⟨.Q_LAST, 0, 16⟩
def Q_LAST_STATUS : Fld := ⟨.Q_LAST, 16, 8⟩
def Q_LAST_OPC : Fld := ⟨.Q_LAST, 24, 8⟩
def Q_SIGNAL_VALUE : Fld := ⟨.Q_SIGNAL, 0, 16⟩
def Q_SIGNAL_CNT : Fld := ⟨.Q_SIGNAL, 16, 16⟩
def Q_PC_PC : Fld := ⟨.Q_PC, 0, 32⟩
def Q_ABORT_STAT_DISCARDED : Fld := ⟨.Q_ABORT_STAT, 0, 16⟩
def Q_ABORT_STAT_MERGED : Fld := ⟨.Q_ABORT_STAT, 16, 7⟩
def Q_ABORT_STAT_NO_REC : Fld := ⟨.Q_ABORT_STAT, 23, 1⟩
def Q_ABORT_STAT_DUR : Fld := ⟨.Q_ABORT_STAT, 24, 8⟩
def Q_UNIT_CFG_CPL_FULL : Fld := ⟨.Q_UNIT_CFG, 0, 1⟩
def Q_UNIT_CFG_EVT_SEV : Fld := ⟨.Q_UNIT_CFG, 1, 2⟩
def Q_UNIT_CFG_CPL_HWM : Fld := ⟨.Q_UNIT_CFG, 16, 10⟩
def Q_UNIT_STAT_SLOTS_FREE : Fld := ⟨.Q_UNIT_STAT, 0, 9⟩
def Q_UNIT_STAT_SHARED_USED : Fld := ⟨.Q_UNIT_STAT, 16, 8⟩
def Q_UNIT_STAT_CPL_STALL : Fld := ⟨.Q_UNIT_STAT, 24, 1⟩
def Q_UNIT_STAT_ABORT_BAD : Fld := ⟨.Q_UNIT_STAT, 31, 1⟩
def Q_CPL_QN_QUEUE : Fld := ⟨.Q_CPL_QN, 0, 6⟩
def Q_CPL_QN_EMPTY : Fld := ⟨.Q_CPL_QN, 31, 1⟩
def Q_IRQ_CPL : Fld := ⟨.Q_IRQ, 0, 1⟩
def Q_IRQ_REJECT : Fld := ⟨.Q_IRQ, 1, 1⟩
def Q_IRQ_HALT : Fld := ⟨.Q_IRQ, 2, 1⟩
def Q_IRQ_ABORT_DONE : Fld := ⟨.Q_IRQ, 3, 1⟩
def Q_IRQ_SIGNAL : Fld := ⟨.Q_IRQ, 4, 1⟩
def Q_IRQ_EVT : Fld := ⟨.Q_IRQ, 5, 1⟩
def Q_IRQ_EVT_LOST : Fld := ⟨.Q_IRQ, 6, 1⟩
def Q_IRQ_CPL_HWM : Fld := ⟨.Q_IRQ, 7, 1⟩
def Q_IRQ_PUSH_OVF : Fld := ⟨.Q_IRQ, 8, 1⟩
def Q_ABIN_EN : Fld := ⟨.Q_ABIN, 0, 1⟩
def Q_ABIN_GI : Fld := ⟨.Q_ABIN, 4, 4⟩
def Q_ABIN_SCOPE : Fld := ⟨.Q_ABIN, 8, 3⟩
def Q_ABIN_HALT : Fld := ⟨.Q_ABIN, 11, 1⟩
def Q_ABIN_INDEX : Fld := ⟨.Q_ABIN, 16, 6⟩
def Q_GI_CFG_POL : Fld := ⟨.Q_GI_CFG, 0, 1⟩
def Q_GI_CFG_DEB : Fld := ⟨.Q_GI_CFG, 8, 8⟩
def Q_GI_STAT_ACTIVE : Fld := ⟨.Q_GI_STAT, 0, 16⟩
def GR_CFG_MFAULT : Fld := ⟨.GR_CFG, 0, 1⟩
def GR_STATUS_RUNNING : Fld := ⟨.GR_STATUS, 0, 1⟩
def GR_STATUS_ESTOP : Fld := ⟨.GR_STATUS, 1, 1⟩
def GR_STATUS_BROKEN : Fld := ⟨.GR_STATUS, 2, 1⟩
def GR_STATUS_MEMB_REFUSED : Fld := ⟨.GR_STATUS, 3, 1⟩
def GR_STATUS_SOFT_SHORT : Fld := ⟨.GR_STATUS, 4, 1⟩
def GR_STATUS_LEAD : Fld := ⟨.GR_STATUS, 8, 4⟩
def GR_STATUS_COUNT : Fld := ⟨.GR_STATUS, 16, 5⟩
def GR_LEN_L : Fld := ⟨.GR_LEN, 0, 64⟩
def GR_LEN_S0 : Fld := ⟨.GR_LEN, 64, 64⟩
def GR_TGT_T0 : Fld := ⟨.GR_TGT, 0, 64⟩
def GR_TGT_T1 : Fld := ⟨.GR_TGT, 64, 64⟩
def GR_CAMTAB_OFFSET : Fld := ⟨.GR_CAMTAB, 0, 32⟩
def GR_VAX_CMD_VT : Fld := ⟨.GR_VAX_CMD, 0, 48⟩
def GR_VAX_CMD_ACC : Fld := ⟨.GR_VAX_CMD, 64, 32⟩
def GR_VAX_STATE_POS : Fld := ⟨.GR_VAX_STATE, 0, 64⟩
def GR_VAX_STATE_VEL : Fld := ⟨.GR_VAX_STATE, 64, 48⟩
def GR_REG_CFG_EN : Fld := ⟨.GR_REG_CFG, 0, 1⟩
def GR_REG_CFG_SRC : Fld := ⟨.GR_REG_CFG, 2, 2⟩
def GR_REG_CFG_GI : Fld := ⟨.GR_REG_CFG, 4, 4⟩
def GR_REG_CFG_AXIS : Fld := ⟨.GR_REG_CFG, 8, 6⟩
def GR_REG_CFG_PORT : Fld := ⟨.GR_REG_CFG, 16, 4⟩
def GR_REG_CFG_MISS_LIM : Fld := ⟨.GR_REG_CFG, 24, 8⟩
def GR_REG_GAIN_GAIN : Fld := ⟨.GR_REG_GAIN, 0, 16⟩
def GR_REG_GAIN_RATE : Fld := ⟨.GR_REG_GAIN, 16, 16⟩
def GR_REG_STAT_MARKS : Fld := ⟨.GR_REG_STAT, 0, 16⟩
def GR_REG_STAT_MISSES : Fld := ⟨.GR_REG_STAT, 16, 8⟩
def GR_REG_STAT_LOST : Fld := ⟨.GR_REG_STAT, 24, 1⟩
def GR_REG_STAT_CLAMPED : Fld := ⟨.GR_REG_STAT, 25, 1⟩
def GR_REG_STAT_OUTSIDE : Fld := ⟨.GR_REG_STAT, 26, 1⟩
def GR_REG_STAT_IDLE : Fld := ⟨.GR_REG_STAT, 27, 1⟩
def GR_REG_GEOM_PITCH : Fld := ⟨.GR_REG_GEOM, 0, 64⟩
def GR_REG_GEOM_WIN : Fld := ⟨.GR_REG_GEOM, 64, 32⟩
def GR_REG_GEOM_CMAX : Fld := ⟨.GR_REG_GEOM, 96, 32⟩
def GR_REG_EXP_EXP : Fld := ⟨.GR_REG_EXP, 0, 64⟩
def GR_REG_ERR_ERR : Fld := ⟨.GR_REG_ERR, 0, 32⟩
def GR_REG_ERR_OFS : Fld := ⟨.GR_REG_ERR, 64, 64⟩
def GR_FSTAT_CAM_LATE : Fld := ⟨.GR_FSTAT, 0, 1⟩
def GR_FSTAT_OVERSPEED : Fld := ⟨.GR_FSTAT, 1, 1⟩
def GR_FSTAT_MLOSS : Fld := ⟨.GR_FSTAT, 2, 1⟩
def GR_FSTAT_TRIM_ON : Fld := ⟨.GR_FSTAT, 3, 1⟩
def GR_FSTAT_TRIM_CH : Fld := ⟨.GR_FSTAT, 4, 3⟩
def GR_FSTAT_TRIM_STALE : Fld := ⟨.GR_FSTAT, 7, 1⟩
def GR_FSTAT_TRIM_SAT : Fld := ⟨.GR_FSTAT, 8, 1⟩
def GR_FSTAT_LATE_CNT : Fld := ⟨.GR_FSTAT, 16, 8⟩
def GR_TRIM_SP_VALUE : Fld := ⟨.GR_TRIM_SP, 0, 32⟩
def GR_TRIM_KP_VALUE : Fld := ⟨.GR_TRIM_KP, 0, 32⟩
def GR_TRIM_KI_VALUE : Fld := ⟨.GR_TRIM_KI, 0, 32⟩
def GR_TRIM_LIM_ULIM : Fld := ⟨.GR_TRIM_LIM, 0, 16⟩
def GR_TRIM_LIM_ILIM : Fld := ⟨.GR_TRIM_LIM, 16, 16⟩
def GR_TRIM_OUT_U : Fld := ⟨.GR_TRIM_OUT, 0, 32⟩
def AX_COMM_CFG_TABLE : Fld := ⟨.AX_COMM_CFG, 0, 4⟩
def AX_COMM_CFG_INV : Fld := ⟨.AX_COMM_CFG, 4, 1⟩
def AX_COMM_CFG_HARM_EN : Fld := ⟨.AX_COMM_CFG, 5, 1⟩
def AX_COMM_CFG_LEARN : Fld := ⟨.AX_COMM_CFG, 6, 1⟩
def AX_RES_THR_THR64 : Fld := ⟨.AX_RES_THR, 0, 16⟩
def AX_RES_THR_THR16 : Fld := ⟨.AX_RES_THR, 16, 16⟩
def AX_RES_THR2_THR4 : Fld := ⟨.AX_RES_THR2, 0, 16⟩
def AX_RES_THR2_THRFS : Fld := ⟨.AX_RES_THR2, 16, 16⟩
def AX_MODE_CFG_VSTRONG : Fld := ⟨.AX_MODE_CFG, 0, 16⟩
def AX_MODE_CFG_FORCE : Fld := ⟨.AX_MODE_CFG, 16, 2⟩
def AX_CR_PI_KP : Fld := ⟨.AX_CR_PI, 0, 16⟩
def AX_CR_PI_KI : Fld := ⟨.AX_CR_PI, 16, 16⟩
def AX_CR_FF_FF_R : Fld := ⟨.AX_CR_FF, 0, 1⟩
def AX_CR_FF_FF_L : Fld := ⟨.AX_CR_FF, 1, 1⟩
def AX_CR_FF_FF_E : Fld := ⟨.AX_CR_FF, 2, 1⟩
def AX_CR_CHOP_TBLANK : Fld := ⟨.AX_CR_CHOP, 0, 8⟩
def AX_CR_CHOP_FD_MIN : Fld := ⟨.AX_CR_CHOP, 8, 4⟩
def AX_CR_CHOP_FD_MAX : Fld := ⟨.AX_CR_CHOP, 12, 4⟩
def AX_CR_CHOP_FD_INIT : Fld := ⟨.AX_CR_CHOP, 16, 4⟩
def AX_CUR_LIM_LF_EN : Fld := ⟨.AX_CUR_LIM, 0, 1⟩
def AX_CUR_LIM_LF_MIN : Fld := ⟨.AX_CUR_LIM, 8, 7⟩
def AX_COMM_OFS_OFS : Fld := ⟨.AX_COMM_OFS, 0, 64⟩
def AX_COIL_ADDR : Fld := ⟨.AX_COIL, 0, 10⟩
def AX_COIL_LEVEL : Fld := ⟨.AX_COIL, 10, 3⟩
def AX_COIL_MODE_A : Fld := ⟨.AX_COIL, 13, 1⟩
def AX_COIL_MODE_B : Fld := ⟨.AX_COIL, 14, 1⟩
def AX_COIL_SLEW : Fld := ⟨.AX_COIL, 15, 1⟩
def AX_COIL_TGT_A : Fld := ⟨.AX_COIL, 16, 16⟩
def AX_COIL_TGT_B : Fld := ⟨.AX_COIL, 32, 16⟩
def AX_COIL_DUTY_A : Fld := ⟨.AX_COIL, 48, 17⟩
def AX_COIL_DUTY_B : Fld := ⟨.AX_COIL, 65, 17⟩
def AX_COIL_FD_A : Fld := ⟨.AX_COIL, 82, 4⟩
def AX_COIL_FD_B : Fld := ⟨.AX_COIL, 86, 4⟩
def AX_COIL_IAMP : Fld := ⟨.AX_COIL, 90, 16⟩
def AX_COIL_LF_ACT : Fld := ⟨.AX_COIL, 106, 1⟩
def AX_COIL_CAP_ACT : Fld := ⟨.AX_COIL, 107, 1⟩
def AX_COIL_GUARD_ACT : Fld := ⟨.AX_COIL, 108, 1⟩
def AX_COIL_LEVEL_REQ : Fld := ⟨.AX_COIL, 109, 3⟩
def AX_COIL_MODE_REQ : Fld := ⟨.AX_COIL, 112, 1⟩
def AX_CR_STAT_SLEW : Fld := ⟨.AX_CR_STAT, 0, 1⟩
def AX_CR_STAT_GUARD : Fld := ⟨.AX_CR_STAT, 1, 1⟩
def AX_CR_STAT_SAT_A : Fld := ⟨.AX_CR_STAT, 2, 1⟩
def AX_CR_STAT_SAT_B : Fld := ⟨.AX_CR_STAT, 3, 1⟩
def AX_CR_STAT_LEARN_LIM : Fld := ⟨.AX_CR_STAT, 4, 1⟩
def AX_CR_STAT_CHG_CNT : Fld := ⟨.AX_CR_STAT, 8, 8⟩
def AX_CR_STAT_GUARD_T : Fld := ⟨.AX_CR_STAT, 16, 11⟩
def AX_CR_RL_A_R : Fld := ⟨.AX_CR_RL_A, 0, 16⟩
def AX_CR_RL_A_L : Fld := ⟨.AX_CR_RL_A, 16, 16⟩
def AX_CR_RL_B_R : Fld := ⟨.AX_CR_RL_B, 0, 16⟩
def AX_CR_RL_B_L : Fld := ⟨.AX_CR_RL_B, 16, 16⟩
def AX_HARM_CFG_SHIFT : Fld := ⟨.AX_HARM_CFG, 0, 4⟩
def AX_HARM_CFG_LIM : Fld := ⟨.AX_HARM_CFG, 8, 8⟩
def AX_HARM_SPD_VLO : Fld := ⟨.AX_HARM_SPD, 0, 16⟩
def AX_HARM_SPD_VHI : Fld := ⟨.AX_HARM_SPD, 16, 16⟩
def AX_HARM_SEL_BIN : Fld := ⟨.AX_HARM_SEL, 0, 7⟩
def PW_CFG_APPLY : Fld := ⟨.PW_CFG, 0, 2⟩
def PW_CFG_SYNC_EN : Fld := ⟨.PW_CFG, 2, 1⟩
def PW_CFG_STAG_USER : Fld := ⟨.PW_CFG, 3, 1⟩
def PW_PERIOD_PERIOD : Fld := ⟨.PW_PERIOD, 0, 14⟩
def PW_MINP_MINP : Fld := ⟨.PW_MINP, 0, 7⟩
def PW_SAFE_STAT_IN_SAFE : Fld := ⟨.PW_SAFE_STAT, 0, 1⟩
def PW_SAFE_STAT_WHY : Fld := ⟨.PW_SAFE_STAT, 1, 5⟩
def PW_SAFE_STAT_FIX : Fld := ⟨.PW_SAFE_STAT, 8, 1⟩
def PW_SAFE_STAT_ALL_DIFF : Fld := ⟨.PW_SAFE_STAT, 9, 1⟩
def PW_SAFE_STAT_CODE_BAD : Fld := ⟨.PW_SAFE_STAT, 10, 1⟩
def PW_ILIM_ILIM : Fld := ⟨.PW_ILIM, 0, 16⟩
def PW_ILIM_ILIM_N : Fld := ⟨.PW_ILIM, 16, 8⟩
def PW_STAT_PERIOD_REFUSED : Fld := ⟨.PW_STAT, 0, 1⟩
def PW_STAT_GATE_UV : Fld := ⟨.PW_STAT, 1, 1⟩
def PW_STAT_CLK_STOP : Fld := ⟨.PW_STAT, 2, 1⟩
def PW_STAT_DBG : Fld := ⟨.PW_STAT, 3, 1⟩
def PW_STAT_DEADLINE_CNT : Fld := ⟨.PW_STAT, 8, 8⟩
def PW_STAT_ILIM_CNT : Fld := ⟨.PW_STAT, 16, 16⟩
def PW_BFAULT_AX : Fld := ⟨.PW_BFAULT, 0, 12⟩
def PW_BFAULT_KIND : Fld := ⟨.PW_BFAULT, 16, 4⟩
def PW_BFAULT_COIL_A : Fld := ⟨.PW_BFAULT, 20, 1⟩
def PW_BFAULT_COIL_B : Fld := ⟨.PW_BFAULT, 21, 1⟩
def PW_DT_DT_R : Fld := ⟨.PW_DT, 0, 8⟩
def PW_DT_DT_F : Fld := ⟨.PW_DT, 8, 8⟩
def PW_CH_OFS_OFS : Fld := ⟨.PW_CH_OFS, 0, 14⟩
def PW_TRIP_CFG_EN_A : Fld := ⟨.PW_TRIP_CFG, 0, 1⟩
def PW_TRIP_CFG_EN_B : Fld := ⟨.PW_TRIP_CFG, 1, 1⟩
def PW_TRIP_CFG_BANKS : Fld := ⟨.PW_TRIP_CFG, 8, 4⟩
def PW_TRIP_CFG_DISC_T : Fld := ⟨.PW_TRIP_CFG, 16, 8⟩
def PW_TRIP_STAT_LATCH : Fld := ⟨.PW_TRIP_STAT, 0, 1⟩
def PW_TRIP_STAT_CLR_REFUSED : Fld := ⟨.PW_TRIP_STAT, 1, 1⟩
def PW_TRIP_STAT_DISC : Fld := ⟨.PW_TRIP_STAT, 2, 1⟩
def PW_TRIP_STAT_ACT_A : Fld := ⟨.PW_TRIP_STAT, 3, 1⟩
def PW_TRIP_STAT_ACT_B : Fld := ⟨.PW_TRIP_STAT, 4, 1⟩
def PW_TRIP_STAT_FIRST : Fld := ⟨.PW_TRIP_STAT, 5, 1⟩
def PW_TRIP_STAT_CNT : Fld := ⟨.PW_TRIP_STAT, 8, 8⟩
def PW_TRIP_TS_SET_TS : Fld := ⟨.PW_TRIP_TS, 0, 48⟩
def PW_TRIP_TS_CLR_TS : Fld := ⟨.PW_TRIP_TS, 48, 48⟩
def PW_SYNC_CFG_ROLE : Fld := ⟨.PW_SYNC_CFG, 0, 2⟩
def PW_SYNC_CFG_LOSS_N : Fld := ⟨.PW_SYNC_CFG, 4, 4⟩
def PW_SYNC_CFG_ADJ_MAX : Fld := ⟨.PW_SYNC_CFG, 8, 5⟩
def PW_SYNC_CFG_FRAME : Fld := ⟨.PW_SYNC_CFG, 16, 16⟩
def PW_SYNC_DLY_DLY : Fld := ⟨.PW_SYNC_DLY, 0, 16⟩
def PW_SYNC_STAT_LOCKED : Fld := ⟨.PW_SYNC_STAT, 0, 1⟩
def PW_SYNC_STAT_LOST : Fld := ⟨.PW_SYNC_STAT, 1, 1⟩
def PW_SYNC_STAT_FRAME_BAD : Fld := ⟨.PW_SYNC_STAT, 2, 1⟩
def PW_SYNC_STAT_CONFLICT : Fld := ⟨.PW_SYNC_STAT, 3, 1⟩
def PW_SYNC_STAT_ERR : Fld := ⟨.PW_SYNC_STAT, 16, 16⟩
def CS_CFG_APPLY : Fld := ⟨.CS_CFG, 0, 2⟩
def CS_CFG_SHADOW_EN : Fld := ⟨.CS_CFG, 2, 1⟩
def CS_CFG_SHADOW_N : Fld := ⟨.CS_CFG, 4, 4⟩
def CS_CFG_CAL_INT : Fld := ⟨.CS_CFG, 8, 8⟩
def CS_SCHED_GUARD : Fld := ⟨.CS_SCHED, 0, 8⟩
def CS_SCHED_MINWIN : Fld := ⟨.CS_SCHED, 8, 8⟩
def CS_SCHED_KEEP : Fld := ⟨.CS_SCHED, 16, 4⟩
def CS_RANGE_LOW_MAX : Fld := ⟨.CS_RANGE, 0, 16⟩
def CS_RANGE_FORCE : Fld := ⟨.CS_RANGE, 16, 2⟩
def CS_STAT_CLIP : Fld := ⟨.CS_STAT, 0, 1⟩
def CS_STAT_NOWIN : Fld := ⟨.CS_STAT, 1, 1⟩
def CS_STAT_EDGE : Fld := ⟨.CS_STAT, 2, 1⟩
def CS_STAT_OVR : Fld := ⟨.CS_STAT, 3, 1⟩
def CS_STAT_SEL_BAD : Fld := ⟨.CS_STAT, 4, 1⟩
def CS_STAT_DRIFT : Fld := ⟨.CS_STAT, 5, 1⟩
def CS_STAT_SHADOW_ACT : Fld := ⟨.CS_STAT, 6, 1⟩
def CS_STAT_SPARE : Fld := ⟨.CS_STAT, 8, 3⟩
def CS_STAT_RETIRED : Fld := ⟨.CS_STAT, 16, 5⟩
def CS_CNT_SUBST_CNT : Fld := ⟨.CS_CNT, 0, 16⟩
def CS_CNT_OVR_CNT : Fld := ⟨.CS_CNT, 16, 8⟩
def CS_CNT_DISP_MAX : Fld := ⟨.CS_CNT, 24, 8⟩
def CS_SLICE_OFS : Fld := ⟨.CS_SLICE, 0, 16⟩
def CS_SLICE_GAIN : Fld := ⟨.CS_SLICE, 16, 16⟩
def CS_SLICE_SKEW : Fld := ⟨.CS_SLICE, 32, 8⟩
def CS_SLICE_ROLE : Fld := ⟨.CS_SLICE, 40, 3⟩
def CS_SLICE_FOR : Fld := ⟨.CS_SLICE, 43, 3⟩
def CS_SLICE_PAIRS : Fld := ⟨.CS_SLICE, 48, 32⟩
def CS_SLICE_RESID : Fld := ⟨.CS_SLICE, 80, 16⟩
def CS_INJ_CTRL_SEL : Fld := ⟨.CS_INJ_CTRL, 0, 8⟩
def CS_INJ_STAT_VALID : Fld := ⟨.CS_INJ_STAT, 0, 1⟩
def CS_INJ_STAT_OVR : Fld := ⟨.CS_INJ_STAT, 1, 1⟩
def CS_INJ_STAT_BUSY : Fld := ⟨.CS_INJ_STAT, 2, 1⟩
def CS_INJ_STAT_REQ_DROP : Fld := ⟨.CS_INJ_STAT, 3, 1⟩
def CS_INJ_STAT_WAIT : Fld := ⟨.CS_INJ_STAT, 16, 9⟩
def CS_SCAN_CFG_LEN : Fld := ⟨.CS_SCAN_CFG, 0, 4⟩
def CS_SCAN_CFG_CONT : Fld := ⟨.CS_SCAN_CFG, 4, 1⟩
def CS_SCAN_STAT_LEVEL : Fld := ⟨.CS_SCAN_STAT, 0, 9⟩
def CS_SCAN_STAT_RUN : Fld := ⟨.CS_SCAN_STAT, 9, 1⟩
def CS_SCAN_STAT_OVF : Fld := ⟨.CS_SCAN_STAT, 10, 1⟩
def CS_SCAN_STAT_DROP_CNT : Fld := ⟨.CS_SCAN_STAT, 16, 16⟩
def CS_SCAN_LIST_SEL : Fld := ⟨.CS_SCAN_LIST, 0, 8⟩
def CS_TRIG_EN : Fld := ⟨.CS_TRIG, 0, 1⟩
def CS_TRIG_SRC : Fld := ⟨.CS_TRIG, 1, 2⟩
def CS_TRIG_ACT : Fld := ⟨.CS_TRIG, 3, 1⟩
def CS_TRIG_CH : Fld := ⟨.CS_TRIG, 4, 5⟩
def CS_TRIG_DLY : Fld := ⟨.CS_TRIG, 16, 16⟩
def CS_WIN_CFG_EN : Fld := ⟨.CS_WIN_CFG, 0, 1⟩
def CS_WIN_CFG_SRC : Fld := ⟨.CS_WIN_CFG, 1, 2⟩
def CS_WIN_CFG_INSIDE : Fld := ⟨.CS_WIN_CFG, 3, 1⟩
def CS_WIN_CFG_N : Fld := ⟨.CS_WIN_CFG, 4, 4⟩
def CS_WIN_CFG_SEL : Fld := ⟨.CS_WIN_CFG, 8, 8⟩
def CS_WIN_THR_LO : Fld := ⟨.CS_WIN_THR, 0, 16⟩
def CS_WIN_THR_HI : Fld := ⟨.CS_WIN_THR, 16, 16⟩
def CS_WIN_STAT_HIT : Fld := ⟨.CS_WIN_STAT, 0, 8⟩
def CS_WIN_STAT_NOW : Fld := ⟨.CS_WIN_STAT, 8, 8⟩
def CS_PCHK_CH : Fld := ⟨.CS_PCHK, 0, 5⟩
def CS_PCHK_RANGE : Fld := ⟨.CS_PCHK, 5, 1⟩
def CS_PCHK_STAT_BUSY : Fld := ⟨.CS_PCHK_STAT, 0, 1⟩
def CS_PCHK_STAT_DONE : Fld := ⟨.CS_PCHK_STAT, 1, 1⟩
def CS_PCHK_STAT_FAIL : Fld := ⟨.CS_PCHK_STAT, 2, 1⟩
def CS_PCHK_STAT_REFUSED : Fld := ⟨.CS_PCHK_STAT, 3, 1⟩
def CS_PCHK_STAT_ERR : Fld := ⟨.CS_PCHK_STAT, 16, 16⟩
def LA_CFG_APPLY : Fld := ⟨.LA_CFG, 0, 2⟩
def LA_CFG_GAP_N : Fld := ⟨.LA_CFG, 4, 4⟩
def LA_CFG_RS_SH : Fld := ⟨.LA_CFG, 8, 4⟩
def LA_BSTAT_VALID : Fld := ⟨.LA_BSTAT, 0, 12⟩
def LA_BSTAT_STALL_NOW : Fld := ⟨.LA_BSTAT, 16, 12⟩
def LA_OBS_CFG_VX : Fld := ⟨.LA_OBS_CFG, 0, 16⟩
def LA_OBS_CFG_EMF_EN : Fld := ⟨.LA_OBS_CFG, 16, 1⟩
def LA_OBS_CFG_RS_EN : Fld := ⟨.LA_OBS_CFG, 17, 1⟩
def LA_OBS_CFG_FB_SRC : Fld := ⟨.LA_OBS_CFG, 18, 1⟩
def LA_OBS_CFG_EMF_SH : Fld := ⟨.LA_OBS_CFG, 20, 3⟩
def LA_RS_CFG_K0 : Fld := ⟨.LA_RS_CFG, 0, 10⟩
def LA_RS_CFG_IMIN : Fld := ⟨.LA_RS_CFG, 16, 16⟩
def LA_STALL_CFG_EN : Fld := ⟨.LA_STALL_CFG, 0, 1⟩
def LA_STALL_CFG_REACT : Fld := ⟨.LA_STALL_CFG, 1, 2⟩
def LA_STALL_CFG_DEG : Fld := ⟨.LA_STALL_CFG, 4, 8⟩
def LA_STALL_CFG_N : Fld := ⟨.LA_STALL_CFG, 12, 4⟩
def LA_STALL_CFG_EMF_PCT : Fld := ⟨.LA_STALL_CFG, 16, 8⟩
def LA_STALL_CFG_BLANK : Fld := ⟨.LA_STALL_CFG, 24, 8⟩
def LA_RETRY_CFG_PCT : Fld := ⟨.LA_RETRY_CFG, 0, 8⟩
def LA_RETRY_CFG_MAX : Fld := ⟨.LA_RETRY_CFG, 8, 4⟩
def LA_LF_CFG_TGT : Fld := ⟨.LA_LF_CFG, 0, 8⟩
def LA_LF_CFG_DOWN : Fld := ⟨.LA_LF_CFG, 8, 8⟩
def LA_VER_CFG_EN : Fld := ⟨.LA_VER_CFG, 0, 1⟩
def LA_VER_CFG_PORT : Fld := ⟨.LA_VER_CFG, 4, 4⟩
def LA_VER_CFG_OFS_MODE : Fld := ⟨.LA_VER_CFG, 8, 1⟩
def LA_VER_LIM_WARN : Fld := ⟨.LA_VER_LIM, 0, 16⟩
def LA_VER_LIM_FAULT : Fld := ⟨.LA_VER_LIM, 16, 16⟩
def LA_AX_STAT_STALL : Fld := ⟨.LA_AX_STAT, 0, 1⟩
def LA_AX_STAT_FERR_WARN : Fld := ⟨.LA_AX_STAT, 1, 1⟩
def LA_AX_STAT_FERR_FAULT : Fld := ⟨.LA_AX_STAT, 2, 1⟩
def LA_AX_STAT_OBS_LOST : Fld := ⟨.LA_AX_STAT, 3, 1⟩
def LA_AX_STAT_RESYNC_REFUSED : Fld := ⟨.LA_AX_STAT, 4, 1⟩
def LA_AX_STAT_RETRYING : Fld := ⟨.LA_AX_STAT, 5, 1⟩
def LA_AX_STAT_STALL_CNT : Fld := ⟨.LA_AX_STAT, 8, 8⟩
def LA_AX_STAT_RETRY_CNT : Fld := ⟨.LA_AX_STAT, 16, 4⟩
def LA_AX_VALID : Fld := ⟨.LA_AX, 16, 1⟩
def LA_AX_SRC : Fld := ⟨.LA_AX, 17, 2⟩
def LA_AX_STALL_NOW : Fld := ⟨.LA_AX, 23, 1⟩
def LA_AX_ILF : Fld := ⟨.LA_AX, 72, 16⟩
def LA_AX_PEAK : Fld := ⟨.LA_AX, 88, 16⟩
def LA_AX_PEAK_V : Fld := ⟨.LA_AX, 104, 16⟩
def LA_VER_OFS : Fld := ⟨.LA_VER, 0, 64⟩
def LA_VER_FERR : Fld := ⟨.LA_VER, 64, 32⟩
def FB_CFG_MODE : Fld := ⟨.FB_CFG, 0, 3⟩
def FB_CFG_INV : Fld := ⟨.FB_CFG, 3, 1⟩
def FB_CFG_IDX_MODE : Fld := ⟨.FB_CFG, 4, 2⟩
def FB_CFG_IDX_GATE : Fld := ⟨.FB_CFG, 6, 1⟩
def FB_CFG_ENA_EN : Fld := ⟨.FB_CFG, 7, 1⟩
def FB_CFG_FLT : Fld := ⟨.FB_CFG, 8, 4⟩
def FB_CFG_POL : Fld := ⟨.FB_CFG, 12, 4⟩
def FB_CFG_QERR_LIM : Fld := ⟨.FB_CFG, 16, 8⟩
def FB_CFG_APPLY : Fld := ⟨.FB_CFG, 24, 2⟩
def FB_STAT_FAULT : Fld := ⟨.FB_STAT, 0, 1⟩
def FB_STAT_FCAUSE : Fld := ⟨.FB_STAT, 1, 3⟩
def FB_STAT_FAILED : Fld := ⟨.FB_STAT, 4, 1⟩
def FB_STAT_ARMED : Fld := ⟨.FB_STAT, 5, 1⟩
def FB_STAT_INDEX_SLIP : Fld := ⟨.FB_STAT, 6, 1⟩
def FB_STAT_INDEX_SEEN : Fld := ⟨.FB_STAT, 7, 1⟩
def FB_STAT_SER_WARN : Fld := ⟨.FB_STAT, 8, 1⟩
def FB_STAT_WARN_NOW : Fld := ⟨.FB_STAT, 9, 1⟩
def FB_STAT_MODE_REFUSED : Fld := ⟨.FB_STAT, 10, 1⟩
def FB_STAT_FOLLOW_REFUSED : Fld := ⟨.FB_STAT, 11, 1⟩
def FB_STAT_MODE_BAD : Fld := ⟨.FB_STAT, 12, 1⟩
def FB_STAT_STILL : Fld := ⟨.FB_STAT, 13, 1⟩
def FB_STAT_DIR : Fld := ⟨.FB_STAT, 14, 1⟩
def FB_STAT_SKIP : Fld := ⟨.FB_STAT, 15, 1⟩
def FB_ERR_QERR_CNT : Fld := ⟨.FB_ERR, 0, 16⟩
def FB_ERR_WIN_ERR : Fld := ⟨.FB_ERR, 16, 8⟩
def FB_ERR_CONSEC : Fld := ⟨.FB_ERR, 24, 8⟩
def FB_CPR_CPR : Fld := ⟨.FB_CPR, 0, 32⟩
def FB_IDX_TOL : Fld := ⟨.FB_IDX, 0, 16⟩
def FB_IDX_DEV : Fld := ⟨.FB_IDX, 16, 16⟩
def FB_IDX_OFS_OFS : Fld := ⟨.FB_IDX_OFS, 0, 32⟩
def FB_SPD_CFG_SPD_N : Fld := ⟨.FB_SPD_CFG, 0, 8⟩
def FB_SPD_CFG_SPD_TO : Fld := ⟨.FB_SPD_CFG, 8, 16⟩
def FB_SER_DLEN : Fld := ⟨.FB_SER, 0, 7⟩
def FB_SER_GRAY : Fld := ⟨.FB_SER, 7, 1⟩
def FB_SER_EW : Fld := ⟨.FB_SER, 8, 2⟩
def FB_SER_SX : Fld := ⟨.FB_SER, 10, 2⟩
def FB_SER_DIV : Fld := ⟨.FB_SER, 12, 11⟩
def FB_SER_RDIV : Fld := ⟨.FB_SER, 23, 4⟩
def FB_SER_TIM_TM : Fld := ⟨.FB_SER_TIM, 0, 8⟩
def FB_SER_TIM_TOUT : Fld := ⟨.FB_SER_TIM, 8, 8⟩
def FB_SER_TIM_ELIM : Fld := ⟨.FB_SER_TIM, 16, 8⟩
def FB_SERR_CRC_CNT : Fld := ⟨.FB_SERR, 0, 8⟩
def FB_SERR_TO_CNT : Fld := ⟨.FB_SERR, 8, 8⟩
def FB_SERR_EBIT_CNT : Fld := ⟨.FB_SERR, 16, 8⟩
def FB_SERR_JMP_CNT : Fld := ⟨.FB_SERR, 24, 8⟩
def FB_SER_JMP_JMP : Fld := ⟨.FB_SER_JMP, 0, 32⟩
def FB_FOLLOW_EN : Fld := ⟨.FB_FOLLOW, 0, 1⟩
def FB_FOLLOW_AXIS : Fld := ⟨.FB_FOLLOW, 8, 6⟩
def FB_FOLLOW_PROFILE : Fld := ⟨.FB_FOLLOW, 16, 3⟩
def FB_SCALE_SCALE : Fld := ⟨.FB_SCALE, 0, 64⟩
def FB_STATE_POS : Fld := ⟨.FB_STATE, 0, 64⟩
def FB_STATE_SPD : Fld := ⟨.FB_STATE, 64, 48⟩
def FB_CNT_CNT : Fld := ⟨.FB_CNT, 0, 64⟩
def FB_CNT_TS : Fld := ⟨.FB_CNT, 64, 48⟩
def FB_IDX_CAP_CNT : Fld := ⟨.FB_IDX_CAP, 0, 64⟩
def FB_IDX_CAP_TS : Fld := ⟨.FB_IDX_CAP, 64, 48⟩
def SF_CFG_APPLY : Fld := ⟨.SF_CFG, 0, 2⟩
def SF_CFG_MIRROR : Fld := ⟨.SF_CFG, 2, 1⟩
def SF_STATUS_SETTLE_DROP : Fld := ⟨.SF_STATUS, 0, 8⟩
def SF_STATUS_RANGE_DROP : Fld := ⟨.SF_STATUS, 8, 8⟩
def SF_STATUS_BLANK_DROP : Fld := ⟨.SF_STATUS, 16, 8⟩
def SF_STATUS_QOVF : Fld := ⟨.SF_STATUS, 24, 1⟩
def SF_STATUS_CFG_BAD : Fld := ⟨.SF_STATUS, 25, 1⟩
def SF_STATUS_BLANK_NOW : Fld := ⟨.SF_STATUS, 26, 1⟩
def SF_AUX_CFG_OSR16 : Fld := ⟨.SF_AUX_CFG, 0, 17⟩
def SF_AUX_CFG_ORD : Fld := ⟨.SF_AUX_CFG, 17, 1⟩
def SF_AUX_CFG_CONT : Fld := ⟨.SF_AUX_CFG, 26, 1⟩
def SF_SEQ_CH : Fld := ⟨.SF_SEQ, 0, 24⟩
def SF_SEQ_LEN : Fld := ⟨.SF_SEQ, 24, 3⟩
def SF_AUX_STAT_RUN : Fld := ⟨.SF_AUX_STAT, 0, 1⟩
def SF_AUX_STAT_CH : Fld := ⟨.SF_AUX_STAT, 1, 3⟩
def SF_AUX_STAT_PASSES : Fld := ⟨.SF_AUX_STAT, 8, 24⟩
def SF_EX_CFG_EN : Fld := ⟨.SF_EX_CFG, 0, 1⟩
def SF_EX_CFG_MODE : Fld := ⟨.SF_EX_CFG, 1, 2⟩
def SF_EX_CFG_FPIN : Fld := ⟨.SF_EX_CFG, 3, 5⟩
def SF_EX_CFG_SPIN : Fld := ⟨.SF_EX_CFG, 8, 5⟩
def SF_EX_CFG_IEXC : Fld := ⟨.SF_EX_CFG, 18, 7⟩
def SF_EX_STAT_ON : Fld := ⟨.SF_EX_STAT, 3, 1⟩
def SF_EX_STAT_MEAS : Fld := ⟨.SF_EX_STAT, 16, 16⟩
def SF_BLANK_CFG_GI_EN : Fld := ⟨.SF_BLANK_CFG, 0, 1⟩
def SF_BLANK_CFG_GI : Fld := ⟨.SF_BLANK_CFG, 1, 4⟩
def SF_BLANK_CFG_GO : Fld := ⟨.SF_BLANK_CFG, 5, 8⟩
def SF_BLANK_CFG_CLAMP : Fld := ⟨.SF_BLANK_CFG, 13, 1⟩
def SF_BLANK_CFG_UV : Fld := ⟨.SF_BLANK_CFG, 14, 1⟩
def SF_BLANK_CFG_TRIP : Fld := ⟨.SF_BLANK_CFG, 15, 1⟩
def SF_BLANK_CFG_EXT : Fld := ⟨.SF_BLANK_CFG, 16, 8⟩
def SF_TDAC_CODE : Fld := ⟨.SF_TDAC, 0, 12⟩
def SF_TDAC_HOLD : Fld := ⟨.SF_TDAC, 12, 1⟩
def SF_TDAC_OWNER : Fld := ⟨.SF_TDAC, 13, 2⟩
def SF_CHK_CH : Fld := ⟨.SF_CHK, 0, 3⟩
def SF_CHK_BUSY : Fld := ⟨.SF_CHK, 4, 1⟩
def SF_CHK_DONE : Fld := ⟨.SF_CHK, 5, 1⟩
def SF_CHK_FAIL : Fld := ⟨.SF_CHK, 6, 1⟩
def SF_CHK_ERR : Fld := ⟨.SF_CHK, 16, 16⟩
def SF_CAL_CMD_BUSY : Fld := ⟨.SF_CAL_CMD, 12, 1⟩
def SF_CAL_CMD_DONE : Fld := ⟨.SF_CAL_CMD, 13, 1⟩
def SF_CAL_CMD_FAIL : Fld := ⟨.SF_CAL_CMD, 14, 1⟩
def SF_CAL_CMD_CODE : Fld := ⟨.SF_CAL_CMD, 16, 8⟩
def SF_Q_STAT_LEVEL : Fld := ⟨.SF_Q_STAT, 0, 9⟩
def SF_Q_STAT_DROP_CNT : Fld := ⟨.SF_Q_STAT, 16, 16⟩
def SF_DWR_CNT : Fld := ⟨.SF_DWR, 0, 32⟩
def SF_CH_CFG_EN : Fld := ⟨.SF_CH_CFG, 0, 1⟩
def SF_CH_CFG_PSEL : Fld := ⟨.SF_CH_CFG, 1, 5⟩
def SF_CH_CFG_NSEL : Fld := ⟨.SF_CH_CFG, 6, 5⟩
def SF_CH_CFG_GAIN : Fld := ⟨.SF_CH_CFG, 13, 3⟩
def SF_CH_CFG_AUTO : Fld := ⟨.SF_CH_CFG, 16, 1⟩
def SF_CH_CFG_GMIN : Fld := ⟨.SF_CH_CFG, 17, 3⟩
def SF_CH_CFG_GMAX : Fld := ⟨.SF_CH_CFG, 20, 3⟩
def SF_CH_CFG_REF : Fld := ⟨.SF_CH_CFG, 23, 2⟩
def SF_CH_CFG_BURN : Fld := ⟨.SF_CH_CFG, 25, 1⟩
def SF_CH_CFG_BLANK_EN : Fld := ⟨.SF_CH_CFG, 26, 1⟩
def SF_CH_CURVE_CURVE : Fld := ⟨.SF_CH_CURVE, 0, 4⟩
def SF_CH_CURVE_TABLE : Fld := ⟨.SF_CH_CURVE, 4, 4⟩
def SF_CH_CURVE_CJC : Fld := ⟨.SF_CH_CURVE, 8, 3⟩
def SF_CH_CURVE_RSRC : Fld := ⟨.SF_CH_CURVE, 12, 2⟩
def SF_CH_STAT_STALE : Fld := ⟨.SF_CH_STAT, 0, 1⟩
def SF_CH_STAT_CLIP : Fld := ⟨.SF_CH_STAT, 1, 1⟩
def SF_CH_STAT_OPEN : Fld := ⟨.SF_CH_STAT, 2, 1⟩
def SF_CH_STAT_RANGE : Fld := ⟨.SF_CH_STAT, 3, 1⟩
def SF_CH_STAT_IMPL : Fld := ⟨.SF_CH_STAT, 4, 1⟩
def SF_CH_STAT_CJC : Fld := ⟨.SF_CH_STAT, 5, 1⟩
def SF_CH_STAT_FAILED : Fld := ⟨.SF_CH_STAT, 6, 1⟩
def SF_CH_STAT_GAIN_NOW : Fld := ⟨.SF_CH_STAT, 8, 3⟩
def SF_CH_STAT_RESULTS : Fld := ⟨.SF_CH_STAT, 16, 16⟩
def SF_CH_P_P : Fld := ⟨.SF_CH_P, 0, 32⟩
def SF_XCHK_EN : Fld := ⟨.SF_XCHK, 0, 1⟩
def SF_XCHK_XN : Fld := ⟨.SF_XCHK, 1, 4⟩
def SF_XCHK_XWIN : Fld := ⟨.SF_XCHK, 8, 8⟩
def SF_XTOL_VALUE : Fld := ⟨.SF_XTOL, 0, 32⟩
def SF_CAL_ZERO_VALUE : Fld := ⟨.SF_CAL_ZERO, 0, 32⟩
def SF_CAL_GAIN_VALUE : Fld := ⟨.SF_CAL_GAIN, 0, 32⟩
def SF_CAL_REF_VALUE : Fld := ⟨.SF_CAL_REF, 0, 32⟩
def SF_REP_CFG_EN : Fld := ⟨.SF_REP_CFG, 0, 1⟩
def SF_REP_CFG_MODE : Fld := ⟨.SF_REP_CFG, 1, 1⟩
def SF_REP_CFG_SRC : Fld := ⟨.SF_REP_CFG, 2, 4⟩
def SF_REP_CFG_FLT_ACT : Fld := ⟨.SF_REP_CFG, 6, 1⟩
def SF_REP_CFG_PWM_F : Fld := ⟨.SF_REP_CFG, 16, 14⟩
def SF_REP_VLO_VALUE : Fld := ⟨.SF_REP_VLO, 0, 32⟩
def SF_REP_VHI_VALUE : Fld := ⟨.SF_REP_VHI, 0, 32⟩
def SF_REP_OLO_OUT : Fld := ⟨.SF_REP_OLO, 0, 17⟩
def SF_REP_OHI_OUT : Fld := ⟨.SF_REP_OHI, 0, 17⟩
def SF_REP_OFLT_OUT : Fld := ⟨.SF_REP_OFLT, 0, 17⟩
def SF_REP_STAT_OUT : Fld := ⟨.SF_REP_STAT, 0, 17⟩
def SF_REP_STAT_STALE : Fld := ⟨.SF_REP_STAT, 17, 1⟩
def SF_REP_STAT_CLAMPED : Fld := ⟨.SF_REP_STAT, 18, 1⟩
def FM_CFG_AUDIT_E : Fld := ⟨.FM_CFG, 0, 1⟩
def FM_CFG_AUDIT_R : Fld := ⟨.FM_CFG, 1, 1⟩
def FM_CFG_INJ_EN : Fld := ⟨.FM_CFG, 2, 1⟩
def FM_CFG_RESID_MAX : Fld := ⟨.FM_CFG, 8, 8⟩
def FM_CFG_ROW_LIM : Fld := ⟨.FM_CFG, 16, 8⟩
def FM_CFG_SCRUB_H : Fld := ⟨.FM_CFG, 24, 8⟩
def FM_STATUS_IN_TKO : Fld := ⟨.FM_STATUS, 0, 1⟩
def FM_STATUS_ER_FREE : Fld := ⟨.FM_STATUS, 1, 1⟩
def FM_STATUS_CRS_FREE : Fld := ⟨.FM_STATUS, 2, 1⟩
def FM_STATUS_SPL_FREE : Fld := ⟨.FM_STATUS, 3, 1⟩
def FM_STATUS_SLICE_SPARE : Fld := ⟨.FM_STATUS, 4, 4⟩
def FM_STATUS_RC_REF : Fld := ⟨.FM_STATUS, 8, 1⟩
def FM_STATUS_NO_SPARE : Fld := ⟨.FM_STATUS, 9, 1⟩
def FM_STATUS_UNIT_LOST : Fld := ⟨.FM_STATUS, 10, 1⟩
def FM_STATUS_SPARE_FAIL : Fld := ⟨.FM_STATUS, 11, 1⟩
def FM_STATUS_FAULT_LINE : Fld := ⟨.FM_STATUS, 12, 1⟩
def FM_STATUS_INJ_REFUSED : Fld := ⟨.FM_STATUS, 13, 1⟩
def FM_STATUS_ER_FOR : Fld := ⟨.FM_STATUS, 16, 4⟩
def FM_STATUS_CRS_FOR : Fld := ⟨.FM_STATUS, 20, 4⟩
def FM_STATUS_SPL_FOR : Fld := ⟨.FM_STATUS, 24, 4⟩
def FM_CNT_TKO : Fld := ⟨.FM_CNT, 0, 8⟩
def FM_CNT_AUDIT_MIS : Fld := ⟨.FM_CNT, 8, 8⟩
def FM_CNT_DEADLINE : Fld := ⟨.FM_CNT, 16, 8⟩
def FM_ECC_S_CORR : Fld := ⟨.FM_ECC_S, 0, 24⟩
def FM_ECC_S_UNC : Fld := ⟨.FM_ECC_S, 24, 8⟩
def FM_ECC_D_CORR : Fld := ⟨.FM_ECC_D, 0, 24⟩
def FM_ECC_D_UNC : Fld := ⟨.FM_ECC_D, 24, 8⟩
def FM_SCRUB_PROGRESS : Fld := ⟨.FM_SCRUB, 0, 16⟩
def FM_SCRUB_PASSES : Fld := ⟨.FM_SCRUB, 16, 16⟩
def FM_CLK_MON_FAIL : Fld := ⟨.FM_CLK, 0, 7⟩
def FM_CLK_REF_FAIL : Fld := ⟨.FM_CLK, 7, 1⟩
def FM_CLK_XTAL_OK : Fld := ⟨.FM_CLK, 8, 1⟩
def FM_FAULTN_DRIVE : Fld := ⟨.FM_FAULTN, 0, 5⟩
def FM_FAULTN_REACT : Fld := ⟨.FM_FAULTN, 8, 1⟩
def FM_FAULTN_BANKS : Fld := ⟨.FM_FAULTN, 12, 4⟩
def FM_FAULTN_LINE : Fld := ⟨.FM_FAULTN, 16, 1⟩
def HL_CFG_CAP : Fld := ⟨.HL_CFG, 0, 8⟩
def HL_CFG_HYST : Fld := ⟨.HL_CFG, 8, 8⟩
def HL_CFG_STEP : Fld := ⟨.HL_CFG, 16, 8⟩
def HL_CFG_KNEE : Fld := ⟨.HL_CFG, 24, 8⟩
def HL_CFG2_PFIX : Fld := ⟨.HL_CFG2, 0, 8⟩
def HL_CFG2_TSW : Fld := ⟨.HL_CFG2, 8, 8⟩
def HL_CFG2_TJ_LIM : Fld := ⟨.HL_CFG2, 16, 8⟩
def HL_THERM_RTH_M : Fld := ⟨.HL_THERM, 0, 16⟩
def HL_THERM_RTH_A : Fld := ⟨.HL_THERM, 16, 16⟩
def HL_TAU_TAU_M : Fld := ⟨.HL_TAU, 0, 16⟩
def HL_TAU_TAU_A : Fld := ⟨.HL_TAU, 16, 16⟩
def HL_STATE_P : Fld := ⟨.HL_STATE, 0, 16⟩
def HL_STATE_PBAR : Fld := ⟨.HL_STATE, 16, 16⟩
def HL_STATE_CAPEFF : Fld := ⟨.HL_STATE, 32, 16⟩
def HL_STATE_TBP : Fld := ⟨.HL_STATE, 48, 16⟩
def HL_STATE_S : Fld := ⟨.HL_STATE, 64, 55⟩
def HL_STAT_FLOORED : Fld := ⟨.HL_STAT, 0, 1⟩
def HL_STAT_TJ : Fld := ⟨.HL_STAT, 1, 1⟩
def HL_STAT_WIND : Fld := ⟨.HL_STAT, 2, 1⟩
def HL_STAT_W_STALE : Fld := ⟨.HL_STAT, 3, 1⟩
def HL_STAT_TBP_HIGH : Fld := ⟨.HL_STAT, 4, 1⟩
def HL_AX_CFG_CLASS : Fld := ⟨.HL_AX_CFG, 0, 2⟩
def HL_AX_CFG_FLOOR_PCT : Fld := ⟨.HL_AX_CFG, 8, 7⟩
def HL_AX_CFG_W_EN : Fld := ⟨.HL_AX_CFG, 15, 1⟩
def HL_AX_CFG_WCH : Fld := ⟨.HL_AX_CFG, 16, 3⟩
def HL_AX_CFG_W_LIM : Fld := ⟨.HL_AX_CFG, 24, 8⟩
def HL_AX_STATE_CAP : Fld := ⟨.HL_AX_STATE, 0, 16⟩
def HL_AX_STATE_DTJ : Fld := ⟨.HL_AX_STATE, 16, 16⟩
def HL_AX_P_P : Fld := ⟨.HL_AX_P, 0, 16⟩
def HL_AX_P_GROUP : Fld := ⟨.HL_AX_P, 16, 3⟩
def HL_AX_P_OWN : Fld := ⟨.HL_AX_P, 19, 1⟩
def HL_AX_P_FLOOR : Fld := ⟨.HL_AX_P, 20, 1⟩
def PT_CFG_EN : Fld := ⟨.PT_CFG, 0, 1⟩
def PT_CFG_HL_EN : Fld := ⟨.PT_CFG, 1, 1⟩
def PT_CFG_DT_EN : Fld := ⟨.PT_CFG, 2, 1⟩
def PT_CFG_DER_EN : Fld := ⟨.PT_CFG, 3, 1⟩
def PT_CFG_SPD_EN : Fld := ⟨.PT_CFG, 4, 1⟩
def PT_CFG_DT_ADD_MAX : Fld := ⟨.PT_CFG, 8, 8⟩
def PT_CFG_DER_MIN : Fld := ⟨.PT_CFG, 16, 8⟩
def PT_CFG_SPD_MIN : Fld := ⟨.PT_CFG, 24, 8⟩
def PT_CFG2_DEG_MAX : Fld := ⟨.PT_CFG2, 0, 8⟩
def PT_CFG2_EYE_MIN : Fld := ⟨.PT_CFG2, 8, 8⟩
def PT_CFG2_OSC_PPM : Fld := ⟨.PT_CFG2, 16, 8⟩
def PT_CFG2_ENDUR : Fld := ⟨.PT_CFG2, 24, 8⟩
def PT_CFG3_RCP_WARN : Fld := ⟨.PT_CFG3, 0, 16⟩
def PT_CFG3_FRIC_PCT : Fld := ⟨.PT_CFG3, 16, 8⟩
def PT_CFG3_REC_H : Fld := ⟨.PT_CFG3, 24, 4⟩
def PT_STAT_REC_FAIL : Fld := ⟨.PT_STAT, 0, 1⟩
def PT_STAT_WEAR : Fld := ⟨.PT_STAT, 1, 1⟩
def PT_STAT_EYE_LOW : Fld := ⟨.PT_STAT, 2, 1⟩
def PT_STAT_OSC : Fld := ⟨.PT_STAT, 3, 1⟩
def PT_STAT_CP : Fld := ⟨.PT_STAT, 4, 1⟩
def PT_STAT_FRIC : Fld := ⟨.PT_STAT, 5, 1⟩
def PT_STAT_WIND : Fld := ⟨.PT_STAT, 6, 1⟩
def PT_STAT_PLAN_CHG : Fld := ⟨.PT_STAT, 7, 1⟩
def PT_STAT_PASSES : Fld := ⟨.PT_STAT, 16, 16⟩
def PT_PLAN_VLIM : Fld := ⟨.PT_PLAN, 32, 16⟩
def ST_CFG_EN : Fld := ⟨.ST_CFG, 0, 1⟩
def ST_CFG_REARM : Fld := ⟨.ST_CFG, 1, 1⟩
def ST_REGION_M : Fld := ⟨.ST_REGION, 0, 4⟩
def ST_STAT_STATE : Fld := ⟨.ST_STAT, 0, 2⟩
def ST_STAT_ARMED : Fld := ⟨.ST_STAT, 2, 1⟩
def ST_STAT_RATE_REFUSED : Fld := ⟨.ST_STAT, 3, 1⟩
def ST_STAT_SPLIT_REFUSED : Fld := ⟨.ST_STAT, 4, 1⟩
def ST_STAT_GAP : Fld := ⟨.ST_STAT, 5, 1⟩
def ST_STAT_TRIG_LOST : Fld := ⟨.ST_STAT, 6, 1⟩
def ST_STAT_LAYERS : Fld := ⟨.ST_STAT, 8, 5⟩
def ST_STAT_GEN : Fld := ⟨.ST_STAT, 16, 8⟩
def ST_STAT_DROPS : Fld := ⟨.ST_STAT, 24, 8⟩
def ST_RATE_W : Fld := ⟨.ST_RATE, 0, 22⟩
def ST_TRIG_CFG_VALUE : Fld := ⟨.ST_TRIG_CFG, 0, 32⟩
def ST_TRIG_EVT_VALUE : Fld := ⟨.ST_TRIG_EVT, 0, 32⟩
def ST_TRIG_CS_VALUE : Fld := ⟨.ST_TRIG_CS, 0, 32⟩
def ST_TIME_VALUE : Fld := ⟨.ST_TIME, 0, 32⟩
def ST_SEL_MASK : Fld := ⟨.ST_SEL, 0, 48⟩
def ST_SEL_DEC : Fld := ⟨.ST_SEL, 48, 4⟩
def ST_LAYER_END : Fld := ⟨.ST_LAYER, 32, 32⟩
def ST_LAYER_CAUSE : Fld := ⟨.ST_LAYER, 112, 8⟩
def ST_LAYER_TRIGS : Fld := ⟨.ST_LAYER, 120, 8⟩
def ST_LAYER_ST_VALID : Fld := ⟨.ST_LAYER_ST, 0, 1⟩
def ST_LAYER_ST_PENDING : Fld := ⟨.ST_LAYER_ST, 1, 1⟩
def ST_LAYER_ST_SHORT : Fld := ⟨.ST_LAYER_ST, 2, 1⟩
def ST_LAYER_ST_GAP : Fld := ⟨.ST_LAYER_ST, 3, 1⟩
def ST_LAYER_ST_CHUNKS : Fld := ⟨.ST_LAYER_ST, 8, 12⟩
def ST_LAYER_ST_GEN : Fld := ⟨.ST_LAYER_ST, 20, 8⟩
def HP_CFG_LANES_H : Fld := ⟨.HP_CFG, 0, 2⟩
def HP_CFG_LANES_D : Fld := ⟨.HP_CFG, 2, 2⟩
def HP_CFG_BCAST_EN : Fld := ⟨.HP_CFG, 4, 1⟩
def HP_STAT_GEN : Fld := ⟨.HP_STAT, 0, 2⟩
def HP_STAT_LANES_H : Fld := ⟨.HP_STAT, 2, 2⟩
def HP_STAT_LANES_D : Fld := ⟨.HP_STAT, 4, 2⟩
def HP_STAT_RESYNC : Fld := ⟨.HP_STAT, 6, 1⟩
def HP_ERR_FRAME_CNT : Fld := ⟨.HP_ERR, 0, 8⟩
def HP_ERR_BUS_CNT : Fld := ⟨.HP_ERR, 8, 8⟩
def HP_ERR_LOCK_CNT : Fld := ⟨.HP_ERR, 16, 8⟩
def HP_ERR_CMD_CNT : Fld := ⟨.HP_ERR, 24, 8⟩
def HP_FRAMES_CNT : Fld := ⟨.HP_FRAMES, 0, 32⟩
def GL_STATUS_LOCK_VIOL : Fld := ⟨.GL_STATUS, 0, 1⟩
def GL_STATUS_HOLD_MISS : Fld := ⟨.GL_STATUS, 1, 1⟩
def GL_STATUS_STAGE_MISS : Fld := ⟨.GL_STATUS, 2, 1⟩
def GL_STATUS_DBG_REFUSED : Fld := ⟨.GL_STATUS, 3, 1⟩
def GL_STATUS_HALTED : Fld := ⟨.GL_STATUS, 4, 1⟩
def GL_LOCK_LOCK : Fld := ⟨.GL_LOCK, 0, 6⟩
def GL_AXSEL_AXIS : Fld := ⟨.GL_AXSEL, 0, 6⟩
def GL_DBG_HALT : Fld := ⟨.GL_DBG, 0, 1⟩
def GL_IADDR_ADDR : Fld := ⟨.GL_IADDR, 0, 32⟩
def GL_IADDR_HI_ADDR : Fld := ⟨.GL_IADDR_HI, 0, 8⟩
def GL_IADDR_HI_INC : Fld := ⟨.GL_IADDR_HI, 8, 1⟩
def GL_ISTAT_BUSY : Fld := ⟨.GL_ISTAT, 0, 1⟩
def GL_ISTAT_EARLY : Fld := ⟨.GL_ISTAT, 1, 1⟩
def GL_ISTAT_STATUS : Fld := ⟨.GL_ISTAT, 8, 4⟩

end Sys2Proof.Machine.F
end

