-- ==== Sys2Proof/Machine/Motion.lean ====
section
/-!
DEFINITION. Motion planning: phases of whole ticks, the positioning plan of R141 to R143, the stop part and the release
phase of R148, the VEL plan of R145, the blend velocity of R149, and the evaluation of a plan at a boundary (R143).
Positions are in microsteps, velocities in microsteps/s, exact rationals until they are published.
-/

namespace Sys2Proof.Machine

/-- The tick, 20 µs. -/
def tickT : Rat := 1 / 50000

/-- Position, velocity and acceleration at a boundary. -/
structure Kin where
  p : Rat
  v : Rat
  a : Rat
  deriving DecidableEq, Repr

/-- One phase (R143): whole ticks, exact start values, start and end acceleration. -/
structure Phase where
  n : Nat
  p : Rat
  v : Rat
  a0 : Rat
  a1 : Rat
  deriving DecidableEq, Repr

/-- The limits of a profile slot, widened (R138). -/
structure Lim where
  V : Rat
  A : Rat
  D : Rat
  J : Rat
  deriving DecidableEq, Repr

/-- R143: the state `k` ticks into a phase; `k` may be fractional (R159). -/
def Phase.at (ph : Phase) (k : Rat) : Kin :=
  let f := (ph.a1 - ph.a0) / (ph.n : Rat)
  { a := ph.a0 + f * k
    v := ph.v + tickT * k * (ph.a0 + f * k / 2)
    p := ph.p + tickT * k * ph.v + tickT * tickT * k * k * (ph.a0 / 2 + f * k / 6) }

/-- The state at the end of a phase. -/
def Phase.stop (ph : Phase) : Kin := ph.at (ph.n : Rat)

/-- Chains phases given as (ticks, start acceleration, end acceleration); phases of no ticks are left out. -/
def chain : Kin → List (Nat × Rat × Rat) → List Phase
  | _, [] => []
  | s, (n, a0, a1) :: rest =>
    if n = 0 then chain s rest
    else
      let ph : Phase := { n := n, p := s.p, v := s.v, a0 := a0, a1 := a1 }
      ph :: chain ph.stop rest

/-- The total ticks of a list of phases. -/
def phaseTicks (phs : List Phase) : Nat := (phs.map (·.n)).sum

/-- The state at the end of a list of phases that starts at `s`. -/
def endOf (s : Kin) : List Phase → Kin
  | [] => s
  | ph :: rest => endOf ph.stop rest

/-- The state `k` ticks into a list of phases; past the end, a cruise at the end velocity. -/
def evalPhases (s : Kin) : List Phase → Rat → Kin
  | [], k => { p := s.p + tickT * k * s.v, v := s.v, a := 0 }
  | ph :: rest, k => if k < (ph.n : Rat) then ph.at k else evalPhases ph.stop rest (k - (ph.n : Rat))

/-- The index of the phase that runs `k` ticks into the plan, in order of execution (AX_SEG.PHASE). -/
def phaseIndex : List Phase → Nat → Nat → Option Nat
  | [], _, _ => none
  | ph :: rest, k, i => if k < ph.n then some i else phaseIndex rest (k - ph.n) (i + 1)

/-- The sign of a rational as `1` or `-1`; zero counts as positive. -/
def sgn (x : Rat) : Rat := if x < 0 then -1 else 1

/-- R142: a ramp of `2·n1 + n2` ticks whose velocity change is `dv` meets the acceleration limit `A` and the jerk `J`. -/
def rampOk (A J dv : Rat) (n1 n2 : Nat) : Bool :=
  let m : Rat := (n1 + n2 : Nat)
  decide (dv ≤ A * m * tickT) &&
    (if J = 0 then n1 == 0 else decide (dv ≤ J * (n1 : Rat) * tickT * m * tickT))

/-- The smallest `n1` for which a ramp of `u = 2·n1 + n2` ticks meets R142, searched upward from `n1`. -/
def rampN1 (A J dv : Rat) (u : Nat) : Nat → Nat → Option Nat
  | 0, _ => none
  | fuel + 1, n1 =>
    if u < 2 * n1 then none
    else if rampOk A J dv n1 (u - 2 * n1) then some n1
    else rampN1 A J dv u fuel (n1 + 1)

/-- The smallest natural number whose square is at least `x`. -/
def ceilSqrt (x : Nat) : Nat := if x = 0 then 0 else Nat.sqrt (x - 1) + 1

/-- The ramp of `u` ticks with the smallest `n1`, as (n1, n2). A jerk of zero allows `n1 = 0` only; otherwise the search
starts at the smallest `n1` that `n1·u` allows, since `n1 + n2 ≤ u`. -/
def rampOf (A J dv : Rat) (u : Nat) : Option (Nat × Nat) :=
  let first := if J = 0 ∨ u = 0 then 0 else ceilNat (dv / (J * tickT * tickT * (u : Rat)))
  (rampN1 A J dv u (if J = 0 then 1 else u / 2 + 1) first).map fun n1 => (n1, u - 2 * n1)

/-- A length below which no ramp of velocity change `dv` meets the limits: with `m = n1 + n2` ticks at least `dv / (A·T)`
and `n1` at least `dv / (J·T²·m)`, the length `m + n1` is least at the larger of the two bounds on `m`. -/
def rampFloor (A J dv : Rat) : Nat :=
  if dv ≤ 0 then 0
  else
    let m := dv / (A * tickT)
    if J = 0 then ceilNat m
    else
      let c := dv / (J * tickT * tickT)
      if c ≤ m * m then ceilNat (m + c / m) else ceilSqrt (ceilNat (4 * c))

/-- A bound on every search of whole ticks: above any number of ticks a plan of the number formats of R9 can need. -/
def searchFuel : Nat := 2 ^ 96

/-- The smallest ramp length at or above `u` that meets the limits. -/
def leastRamp (A J dv : Rat) : Nat → Nat → Nat × Nat
  | 0, u => (0, u)
  | fuel + 1, u =>
    match rampOf A J dv u with
    | some r => r
    | none => leastRamp A J dv fuel (u + 1)

/-- R148: the stop part from speed `v ≥ 0`, (N5, N6) with the smallest total, ties by the smallest N5. -/
def stopTicks (lim : Lim) (v : Rat) : Nat × Nat :=
  if v = 0 then (0, 0) else leastRamp lim.D lim.J v searchFuel (rampFloor lim.D lim.J v)

/-- The phases of a ramp from velocity `v0` to `v1` in `2·n1 + n2` ticks. -/
def rampPhases (v0 v1 : Rat) (n1 n2 : Nat) : List (Nat × Rat × Rat) :=
  let m : Rat := (n1 + n2 : Nat)
  let a := if n1 + n2 = 0 then 0 else (v1 - v0) / (m * tickT)
  [(n1, 0, a), (n2, a, a), (n1, a, 0)]

/-- The phases of the stop part from the state `s` (its acceleration taken as zero). -/
def stopPart (lim : Lim) (s : Kin) : List Phase :=
  let n := stopTicks lim (ratAbs s.v)
  chain s (rampPhases s.v 0 n.1 n.2)

/-- The stop distance of R148 from speed `v ≥ 0`. -/
def stopDist (lim : Lim) (v : Rat) : Rat :=
  let n := stopTicks lim v
  ((2 * n.1 + n.2 : Nat) : Rat) * tickT * v / 2

/-- R148 step 1: the release phase from acceleration `a`. -/
def releasePart (lim : Lim) (s : Kin) : List Phase :=
  if s.a = 0 ∨ lim.J = 0 then []
  else chain s [(ceilNat (ratAbs s.a / (lim.J * tickT)), s.a, 0)]

/-- One choice of phase lengths of R141. -/
structure Tuple where
  n1 : Nat
  n2 : Nat
  n4 : Nat
  n5 : Nat
  n6 : Nat
  vp : Rat
  deriving DecidableEq, Repr

/-- R142: the tuple of `total` ticks with ramps of `u` and `w` ticks, if one meets every constraint. `d` is the distance,
`vs` and `ve` the end velocities. -/
def tupleOf (lim : Lim) (d vs ve : Rat) (total u w : Nat) : Option Tuple :=
  if total < u + w then none
  else
    let n4 := total - (u + w)
    let den : Rat := (u : Rat) / 2 + (n4 : Rat) + (w : Rat) / 2
    let num := d / tickT - (u : Rat) * vs / 2 - (w : Rat) * ve / 2
    if den = 0 then
      (if num = 0 ∧ vs = ve then some ⟨0, 0, 0, 0, 0, vs⟩ else none)
    else
      let vp := num / den
      if vp < ve ∨ lim.V < vp then none
      else
        let up := if vp < vs then rampOf lim.D lim.J (vs - vp) u else rampOf lim.A lim.J (vp - vs) u
        match up, rampOf lim.D lim.J (vp - ve) w with
        | some (n1, n2), some (n5, n6) => some ⟨n1, n2, n4, n5, n6, vp⟩
        | _, _ => none

/-- The tie-break of R142 after N4: the smallest N1, then N5, then N2. -/
def Tuple.before (x y : Tuple) : Bool :=
  if x.n1 ≠ y.n1 then decide (x.n1 < y.n1)
  else if x.n5 ≠ y.n5 then decide (x.n5 < y.n5)
  else decide (x.n2 < y.n2)

/-- The best of the tuples whose up ramp has `u`, `u + 1`, … ticks, `k` of them, with ramps of `s` ticks together. -/
def bestSplit (lim : Lim) (d vs ve : Rat) (total s : Nat) : Nat → Nat → Option Tuple
  | 0, _ => none
  | k + 1, u =>
    match tupleOf lim d vs ve total u (s - u), bestSplit lim d vs ve total s k (u + 1) with
    | some t, some b => if b.before t then some b else some t
    | some t, none => some t
    | none, b => b

/-- The best tuple with ramps of `s` ticks together. With `total` and `s` fixed, vp is linear in the up ramp's length, so
its smaller end value bounds both ramps from below. -/
def bestOfRamps (lim : Lim) (d vs ve : Rat) (total s : Nat) : Option Tuple :=
  let den : Rat := (total : Rat) - (s : Rat) / 2
  if den = 0 then bestSplit lim d vs ve total s (s + 1) 0
  else
    let low := ratMin ((d / tickT - (s : Rat) * ve / 2) / den) ((d / tickT - (s : Rat) * vs / 2) / den)
    let uLo := rampFloor lim.A lim.J (low - vs)
    let wLo := rampFloor lim.D lim.J (low - ve)
    if s < uLo + wLo then none else bestSplit lim d vs ve total s (s - (uLo + wLo) + 1) uLo

/-- The next length of the ramps together to look at after `s` ticks have failed: none where vp is over the limit with these and
so with all longer ramps. Where both ends of vp's range lie above the end velocities they grow with `s`, so that no length
below the least ramps for the lower end can do. -/
def nextRamps (lim : Lim) (d vs ve : Rat) (total s : Nat) : Option Nat :=
  let den : Rat := (total : Rat) - (s : Rat) / 2
  let low := ratMin ((d / tickT - (s : Rat) * ve / 2) / den) ((d / tickT - (s : Rat) * vs / 2) / den)
  if 0 < den ∧ vs ≤ low ∧ ve ≤ low then
    (if lim.V < low then none
     else some (max (s + 1) (rampFloor lim.A lim.J (low - vs) + rampFloor lim.D lim.J (low - ve))))
  else some (s + 1)

/-- The tuple of `total` ticks with the largest N4, that is, the smallest ramps together. -/
def bestOfTotal (lim : Lim) (d vs ve : Rat) (total : Nat) : Nat → Nat → Option Tuple
  | 0, _ => none
  | fuel + 1, s =>
    if total < s then none
    else
      match bestOfRamps lim d vs ve total s with
      | some t => some t
      | none =>
        match nextRamps lim d vs ve total s with
        | some s' => bestOfTotal lim d vs ve total fuel s'
        | none => none

/-- Whether `total` ticks are too few for the distance even with continuous time and no jerk limit. -/
def tooShort (lim : Lim) (d vs ve : Rat) (total : Nat) : Bool :=
  let tau := (total : Rat) * tickT
  let pk := (lim.A * lim.D * tau + lim.D * vs + lim.A * ve) / (lim.A + lim.D)
  if lim.V < vs ∨ pk < vs ∨ pk < ve then false
  else
    let top := ratMin pk lim.V
    let reach := (top * top - vs * vs) / (2 * lim.A) + (top * top - ve * ve) / (2 * lim.D)
      + top * (tau - (top - vs) / lim.A - (top - ve) / lim.D)
    decide (reach < d)

/-- R142: the tuple with the smallest total, searched upward from `total`. -/
def leastTuple (lim : Lim) (d vs ve : Rat) : Nat → Nat → Option Tuple
  | 0, _ => none
  | fuel + 1, total =>
    if tooShort lim d vs ve total then leastTuple lim d vs ve fuel (total + 1)
    else
      match bestOfTotal lim d vs ve total (total + 1) 0 with
      | some t => some t
      | none => leastTuple lim d vs ve fuel (total + 1)

/-- The fewest ticks a plan over the distance `d` can take: those of the distance at the highest velocity. -/
def fewestTicks (lim : Lim) (d vs : Rat) : Nat := ceilNat (d / (tickT * ratMax lim.V vs))

/-- R141 to R143: the phases P1 to P7 from `s` (acceleration zero) over the distance `d ≥ 0` in direction `dir`, and the ticks of
P5 to P7. -/
def movePart (lim : Lim) (s : Kin) (dir d ve : Rat) : List Phase × Nat :=
  let vs := dir * s.v
  match leastTuple lim d vs ve searchFuel (fewestTicks lim d vs) with
  | none => ([], 0)
  | some t =>
    let vp := ofFixed 32 (toFixedZero 32 t.vp)
    let up := rampPhases vs vp t.n1 t.n2
    let down := rampPhases vp ve t.n5 t.n6
    (chain s ((up ++ [(t.n4, 0, 0)] ++ down).map fun (x : Nat × Rat × Rat) => (x.1, dir * x.2.1, dir * x.2.2)), 2 * t.n5 + t.n6)

/-- The velocity of a plan of `total` ticks without P5 to P7 that ends at `b` or below, with the shortest ramp from `u` ticks on. -/
def riseOf (lim : Lim) (d vs b : Rat) (total : Nat) : Nat → Nat → Option Rat
  | 0, _ => none
  | fuel + 1, u =>
    let den : Rat := (total : Rat) - (u : Rat) / 2
    let vp := (d / tickT - (u : Rat) * vs / 2) / den
    if total < u ∨ den = 0 ∨ vp < 0 then none
    else if b < vp then (if vs ≤ vp then none else riseOf lim d vs b total fuel (u + 1))
    else if (rampOf (if vp < vs then lim.D else lim.A) lim.J (ratAbs (vp - vs)) u).isSome then some vp
    else riseOf lim d vs b total fuel (u + 1)

/-- The shortest such plan from `total` ticks on: its ticks and its velocity. -/
def leastRise (lim : Lim) (d vs b : Rat) : Nat → Nat → Option (Nat × Rat)
  | 0, _ => none
  | fuel + 1, total =>
    match riseOf lim d vs b total (total + 1) 0 with
    | some v => some (total, v)
    | none => leastRise lim d vs b fuel (total + 1)

/-- R142, R149: the end velocity up to `b` that a plan over the distance `d` from `vs` reaches: `b` where a tuple of R142 ends with it,
no later than the shortest plan that runs without P5 to P7; else the velocity of that plan. Log entry 138 (DESIGN CHOICE). -/
def reachVel (lim : Lim) (d vs b : Rat) : Rat :=
  let first := fewestTicks lim d vs
  match leastRise lim d vs b searchFuel first with
  | none => 0
  | some (n, v) => if (leastTuple lim d vs b (n + 1 - first) first).isSome then b else v

/-- A plan: its phases, where a stop part before a reversal runs the tick at which it ends, and the ticks of P5 to P7. -/
structure Plan where
  phases : List Phase
  revAt : Option Nat
  tail : Nat
  deriving DecidableEq, Repr

/-- R148, steps 1 and 2: what runs before P1 to P7 of a positioning segment from `s` to `target`: its phases, whether the axis reverses
after them, and the state from which P1 to P7 run. -/
def planHead (lim : Lim) (s : Kin) (target : Rat) : List Phase × Bool × Kin :=
  let rel := releasePart lim s
  let s1 : Kin := { endOf s rel with a := 0 }
  let d := target - s1.p
  let away := decide (s1.v ≠ 0) && decide (d * s1.v < 0 ∨ d = 0)
  if away || decide (ratAbs d < stopDist lim (ratAbs s1.v)) then
    let st := stopPart lim s1
    (rel ++ st, true, { endOf s1 st with v := 0, a := 0 })
  else (rel, false, s1)

/-- R148: the plan of a positioning segment from the state `s` to the position `target`, with end velocity `ve` (a
speed in the direction of the target, R149). -/
def planPos (lim : Lim) (s : Kin) (target ve : Rat) : Plan :=
  let h := planHead lim s target
  let d := target - h.2.2.p
  let mv := if d = 0 then ([], 0) else movePart lim h.2.2 (sgn d) (ratAbs d) ve
  { phases := h.1 ++ mv.1, revAt := if h.2.1 then some (phaseTicks h.1) else none, tail := mv.2 }

/-- R141, R148, R149: the direction of P1 to P7 of the plan of a positioning segment; 0 where there is no distance. -/
def planDir (lim : Lim) (s : Kin) (target : Rat) : Rat :=
  let d := target - (planHead lim s target).2.2.p
  if d = 0 then 0 else sgn d

/-- R149: the end velocity, bounded by `b`, of the plan of a positioning segment from `s` to `target`, as a speed.
Log entry 138 (DESIGN CHOICE). -/
def planReach (lim : Lim) (s : Kin) (target b : Rat) : Rat :=
  let k := (planHead lim s target).2.2
  reachVel lim (ratAbs (target - k.p)) (ratAbs k.v) b

/-- R150, R151: a release phase and a stop part. -/
def planStop (lim : Lim) (s : Kin) : List Phase :=
  let rel := releasePart lim s
  rel ++ stopPart lim { endOf s rel with a := 0 }

/-- R145: the plan of a VEL segment toward `vt` (already limited), from the state `s`. -/
def planVel (lim : Lim) (s : Kin) (vt : Rat) : Plan :=
  let rel := releasePart lim s
  let s1 : Kin := { endOf s rel with a := 0 }
  let needStop := decide (s1.v ≠ 0) && decide (vt = 0 ∨ vt * s1.v < 0)
  let st := if needStop then stopPart lim s1 else []
  let s2 : Kin := if needStop then { endOf s1 st with v := 0, a := 0 } else s1
  let dir := sgn vt
  let x := dir * s2.v
  let y := dir * vt
  let dv := ratAbs (y - x)
  let lo := if x ≤ y then lim.A else lim.D
  let n := if dv = 0 then (0, 0) else leastRamp lo lim.J dv searchFuel (rampFloor lo lim.J dv)
  { phases := rel ++ st ++ chain s2 (rampPhases s2.v vt n.1 n.2)
    revAt := if needStop && decide (vt ≠ 0) then some (phaseTicks (rel ++ st)) else none, tail := 0 }

/-- The highest speed from which a stop part of `w` ticks meets the limits: the best split with N5 from `k` down to 0. -/
def topSpeed (lim : Lim) (w : Nat) : Nat → Rat
  | 0 => if lim.J = 0 then lim.D * tickT * (w : Rat) else 0
  | k + 1 =>
    let m : Rat := (w - (k + 1) : Nat)
    let here := ratMin (lim.D * tickT * m) (lim.J * ((k + 1 : Nat) : Rat) * tickT * m * tickT)
    ratMax here (topSpeed lim w k)

/-- R149: the highest speed from which the next segment stops within `d`, over stop parts of up to the first length at
which the distance, not the limits, decides. -/
def blendTop (lim : Lim) (d : Rat) : Nat → Nat → Rat → Rat
  | 0, _, best => best
  | fuel + 1, w, best =>
    let byLim := topSpeed lim w (if lim.J = 0 then 0 else w / 2)
    let byDist := 2 * d / (tickT * (w : Rat))
    let best' := ratMax best (ratMin byLim byDist)
    if byDist ≤ byLim then best' else blendTop lim d fuel (w + 1) best'

/-- R149: the highest blend velocity into a next command of distance `d` with limits `nxt`. -/
def blendVel (cur nxt : Lim) (d : Rat) : Rat :=
  if d = 0 then 0 else ratMin (ratMin cur.V nxt.V) (blendTop nxt d searchFuel 1 0)

/-- A raw Q40.24 number read modulo 2⁶⁴ as a signed number, in microsteps (R146). -/
def wrapPos (x : Rat) : Rat :=
  let span : Rat := ((2 ^ 40 : Nat) : Rat)
  x - span * (((x + span / 2) / span).floor : Rat)

/-- The published position: 64 bits of Q40.24, rounded toward minus infinity (R143). -/
def pubPos (x : Rat) : Nat := unsignedOf 64 (toFixed 24 x)

/-- The published velocity: 48 bits of Q32.16, rounded toward minus infinity (R143). -/
def pubVel (x : Rat) : Nat := unsignedOf 48 (toFixed 16 x)

end Sys2Proof.Machine
end

