-- ==== Sys2Proof/Machine/State.lean ====
section
/-!
DEFINITION. The state of the module as plain data, and the state after reset.
Register fields live in `Mach.regs`, keyed by register and indexes; state the spec describes but shows in no field, or
shows only as a live or snapshot field, has typed fields of its own.
-/

namespace Sys2Proof.Machine

/-! ### Registers -/

/-- The key of a register: its name and up to two indexes. -/
structure RegKey where
  r : Reg
  i : Nat
  j : Nat
  deriving DecidableEq, Repr

/-- An RWB or named-point write that waits for its boundary: the value in force meanwhile (R492), whether the tick after
which it applies has passed, and the channels that have taken it already (R297). -/
structure Staged where
  key : RegKey
  force : Word
  at_ : ApplyMode
  choice : Nat
  ready : Bool
  seen : Nat
  deriving DecidableEq, Repr

/-! ### Time -/

/-- The timebase (R19): ticks since RUN, timestamp units since the last boundary, the count of commands taken (the
argument of the free values), the always-on hours counter in seconds. -/
structure Clock where
  running : Bool
  tick : Nat
  sub : Nat
  draws : Nat
  hours : Nat
  deriving DecidableEq, Repr

/-! ### Axes -/

/-- The axis states of R132, in the order of their codes. -/
inductive AxMode where
  | off | arming | hold | move | follow | stop | estop | fault | maquette
  deriving DecidableEq, Repr

/-- The code of an axis state (R132). -/
def AxMode.code : AxMode → Nat
  | .off => 0 | .arming => 1 | .hold => 2 | .move => 3 | .follow => 4
  | .stop => 5 | .estop => 6 | .fault => 7 | .maquette => 8

/-- What a segment runs toward. -/
inductive SegKind where
  | position | velocity | stopping
  deriving DecidableEq, Repr

/-- A segment in flight (R141): its start state and phases, the tick of its start boundary, its target (raw Q40.24,
without wrap), the velocity at its end, the slot and limits it was planned with, the tick at which a stop part before a reversal
ends, the ticks of its P5 to P7, and the status with which its command retires. -/
structure Seg where
  kind : SegKind
  start : Kin
  phases : List Phase
  t0 : Nat
  target : Int
  vEnd : Rat
  prof : Nat
  lim : Lim
  revAt : Option Nat
  tail : Nat
  status : Nat
  deriving DecidableEq, Repr

/-- A command an engine has been given: its queue, its number there (none for an engagement without a command), its word, the
targets captured at dispatch for a GROUP_MOVE (R212), and the armature's members at dispatch (R211). -/
structure MotionCmd where
  q : Nat
  id : Option Nat
  w : Word
  tgts : List Int
  axs : List Nat
  deriving DecidableEq, Repr

/-- A homing in progress (R158): the command's slot, the step, the distance travelled since it started and the position up to which
that is counted (R161), the position at which the present back-off distance began to count, whether the reference has been
captured, and whether the engine owes a stop part for a reference edge. -/
structure Home where
  prof : Nat
  method : Nat
  step : Nat
  from_ : Rat
  gone : Rat
  backFrom : Option Rat
  captured : Bool
  stopDue : Bool
  failCode : Nat
  deriving DecidableEq, Repr

/-- The law of a follower (R227, R232). -/
inductive Law where
  | gear (ratio : Int)
  | cam (table offset count : Nat) (cubic periodic : Bool) (dm rise : Int) (mofs : Int)
  deriving DecidableEq, Repr

/-- A follower (R226): master selector, law, profile slot, base, master value and travel since engagement, the sync
correction in progress, offsets accumulated, the state of cam reading, the command that engaged it
while it synchronises, the port of an engagement by FB_FOLLOW (R378), and whether the next evaluation is that of the boundary of
the engagement, from whose state the offsets go on (R226, R235). -/
structure Follow where
  sel : Nat
  law : Law
  prof : Nat
  base : Rat
  mb : Rat
  mlast : Rat
  mvel : Rat
  travel : Rat
  sync : Option (Nat × List Phase × Rat)
  offs : Rat
  clamp : Bool
  lateRun : Nat
  lateCnt : Nat
  extrap : Bool
  cmd : Option MotionCmd
  port : Option Nat
  first : Bool
  deriving DecidableEq, Repr

/-- The tension-trim loop of an axis (R236). -/
structure Trim where
  on : Bool
  ch : Nat
  sp : Int
  i : Rat
  u : Rat
  stale : Bool
  satI : Bool
  satU : Bool
  deriving DecidableEq, Repr

/-- A stall retry (R343): retries so far, whether the pause runs, the reduced speed in percent, and the segment whose goal
the command is replanned to. -/
structure Retry where
  count : Nat
  waiting : Bool
  vPct : Option Nat
  goal : Option Seg
  deriving DecidableEq, Repr

/-- What a bank undervoltage keeps of an axis (R55): the state before, the commands in flight and looked ahead, the goal in flight,
the STOP commands, the homing and the stall retry. -/
structure Kept where
  mode : AxMode
  cmds : List MotionCmd
  ahead : List MotionCmd
  seg : Option Seg
  stops : List MotionCmd
  home : Option Home
  retry : Retry
  deriving DecidableEq, Repr

/-- A motion that an axis in HOLD has taken and that has not begun (R133, R144): the boundary at which it begins, and the standstill
that the axis keeps until then (R163). -/
structure Fresh where
  at_ : Nat
  still : Option Nat
  ramp0 : Option Nat
  redDone : Bool
  holdOvr : Option Nat
  keepRun : Bool
  deriving DecidableEq, Repr

/-- What is published beside a boundary's position and velocity (R22): the current target, the resolution level and the
regulation mode requested (R249, R252). -/
structure Req where
  ibase : Nat
  level : Nat
  strong : Bool
  deriving DecidableEq, Repr

/-- One axis: the engine's state of it. `cur` is the state at the last boundary passed, `nxt` the result published for
the next one (R22). -/
structure Axis where
  mode : AxMode
  sub : AxMode
  cur : Kin
  nxt : Kin
  curReq : Req
  nxtReq : Req
  /-- The result for the next boundary has been published in this tick (R22, R25). -/
  pubd : Bool
  homed : Bool
  posUnc : Bool
  seg : Option Seg
  cmds : List MotionCmd
  ahead : List MotionCmd
  toTake : List MotionCmd
  retgt : Option Word
  fbEngage : Option (Nat × Nat)
  slimCheck : Bool
  stopCmds : List MotionCmd
  eb : Option Nat
  hardAt : Option (Nat × Nat)
  pendFault : Option Nat
  prevEnd : Rat
  prevVel : Bool
  latPosA : Rat
  latPosB : Rat
  bothPrev : Bool
  home : Option Home
  dirUsed : Bool
  arming0 : Nat
  enWait : List MotionCmd
  still : Option Nat
  ramp0 : Option Nat
  redDone : Bool
  holdOvr : Option Nat
  keepRun : Bool
  recovering : Option Nat
  group : Option Nat
  follow : Option Follow
  trim : Trim
  retry : Retry
  stallRun : Nat
  declared : Bool
  resync : Bool
  blankUntil : Nat
  /-- The axis has moved while the clamp of its bank held (R58). -/
  clampMoved : Bool
  ferrWarned : Bool
  kept : Option Kept
  /-- A cause that requires coast has reached the axis in FAULT (R134). -/
  coast : Bool
  /-- A motion taken and not begun (R133), and the commands of this tick whose effect has not begun (R203): queue and number. -/
  fresh : Option Fresh
  young : List (Nat × Nat)
  /-- The plans in force from the last boundaries, the newest first: boundary, segment, state (R159). -/
  plans : List (Nat × Option Seg × Kin)
  /-- The commutation address at which the model rotor of MAQUETTE stands still (R165). -/
  frozen : Option Rat
  /-- AX_STATE, AX_SEG and GR_FSTATE as of the last tick boundary passed. -/
  snapState : Word
  snapSeg : Word
  snapFollow : Word
  deriving DecidableEq, Repr

/-! ### Queues -/

/-- The queue states of R179, in the order of their codes. -/
inductive QState where
  | idle | run | wait | paused | aborting | halted
  deriving DecidableEq, Repr

/-- The code of a queue state (R179). -/
def QState.code : QState → Nat
  | .idle => 0 | .run => 1 | .wait => 2 | .paused => 3 | .aborting => 4 | .halted => 5

/-- One frame of a call stack (R189): the DRAM offset of the next routine word (none on the ring), the base offset, the
end of the section the frame runs in, four loop counters. -/
structure Frame where
  pc : Option Nat
  base : Nat
  bound : Nat
  c0 : Nat
  c1 : Nat
  c2 : Nat
  c3 : Nat
  deriving DecidableEq, Repr

/-- A wait being evaluated (R174): the tick of dispatch, the timeout tick, the input level and the
position at dispatch, and the reference position of WAIT_POS. -/
structure Wait where
  from_ : Nat
  dueTick : Option Nat
  level0 : Bool
  pos0 : Rat
  ref : Rat
  met : Bool
  deriving DecidableEq, Repr

/-- A dispatched, unretired command (R182): its number, its word, whether it was dispatched as
lookahead, the planner slots it holds once begun, the parts of a group command still running, the worst status of its parts, the
completion-ring entry reserved for it, whether an autostart routine dispatched it (R88), and its retirement (status and
boundary tick) once decided. -/
structure InFlight where
  id : Nat
  w : Word
  lookahead : Bool
  slots : Nat
  parts : Nat
  worst : Nat
  reserved : Bool
  auto_ : Bool
  wait : Option Wait
  done : Option (Nat × Nat)
  deriving DecidableEq, Repr

/-- A command that an abort ends (R203): its word, whether an autostart routine dispatched it, the completion-ring entry reserved for
it (R197), and its status. -/
structure Ended where
  w : Word
  auto_ : Bool
  reserved : Bool
  status : Nat
  deriving DecidableEq, Repr

/-- An abort that runs on a queue (R203 to R206): its tag and scope, whether it asks for HALTED, the instants of its reference and of
its completion, whether a takeover delays it, and the commands it ends, in dispatch order. -/
structure AbortRun where
  tag : Nat
  scope : Nat
  halt : Bool
  ref : Nat
  due : Nat
  late : Bool
  ended : List Ended
  deriving DecidableEq, Repr

/-- One queue: its state, its ring (published and staged entries, oldest first), its call stack (present frame first),
its dispatched commands in dispatch order, the routine word fetched for the head (its offset, and whether it carries an
uncorrectable error), the status a JUMP tests (R174), whether the vector or the table header that its head names has been read
(R212, R231), and the abort that runs on it (R203). -/
structure Queue where
  st : QState
  why : Nat
  published : List Word
  staged : List Word
  stack : List Frame
  inflight : List InFlight
  nextId : Nat
  fetched : Option (Nat × Bool)
  lastStatus : Nat
  slotNoted : Bool
  auto_ : Bool
  vec : Bool
  abort : Option AbortRun
  deriving DecidableEq, Repr

/-- The completion and event rings (R195, R198): the records still held, newest first, and the counts. -/
structure Rings where
  cpl : List (Word × Nat)
  cplWr : Nat
  cplRd : Nat
  cplLost : Nat
  evt : List Word
  evtWr : Nat
  evtRd : Nat
  evtLost : Nat
  evtMwr : Nat
  evtLossDue : Bool
  deriving DecidableEq, Repr

/-! ### Armatures, masters, registration -/

/-- A member's part in a GROUP_MOVE (R212): its axis, its start position, its distance and its target. -/
structure Member where
  ax : Nat
  start : Rat
  d : Rat
  target : Int
  deriving DecidableEq, Repr

/-- One armature: the path segment in flight (path progress as a segment of distance L), whether it is the emergency
path or a stop part of GR_CTRL.STOP, the members, the cumulative path parameter at its start (R215), a replan for a blend that
waits for its boundary (R149, R216), and whether a member has left the path by a fault (R220). -/
structure Arm where
  run : Option Seg
  emergency : Bool
  stopping : Bool
  ebAt : Option Nat
  members : List Member
  cmd : Option MotionCmd
  ahead : List MotionCmd
  s0 : Rat
  len : Rat
  sCur : Rat
  vCur : Rat
  next : Option Seg
  mfault : Bool
  tag : Nat
  deriving DecidableEq, Repr

/-- A virtual master (R224): velocity, position and its remainder, exact. -/
structure VMaster where
  p : Rat
  v : Rat
  deriving DecidableEq, Repr

/-- A registration channel (R234, R235): the correction still to be moved into the offsets, and what has been applied. -/
structure RegChan where
  pending : Rat
  ofs : Rat
  deriving DecidableEq, Repr

/-! ### Image -/

/-- A section of the loaded image (R109, R110): type, instance, flags, type parameter, DRAM offset and length. -/
structure Section where
  ty : Nat
  inst : Nat
  flags : Nat
  param : Nat
  off : Nat
  len : Nat
  deriving DecidableEq, Repr

/-! ### Coils -/

/-- The compare values of one coil period (R272): coast; quiet with its signed duty in steps of 2⁻¹⁵; strong with its
drive sign, its threshold and its fast-decay time in cycles. -/
inductive Compare where
  | coast
  | quiet (d : Int)
  | strong (neg : Bool) (thr tfast : Nat)
  deriving DecidableEq, Repr

/-- What a period carries beside its compare values (R260, R301): the tags of its conversion requests, its target, its
used address and its amplitude. -/
structure PTag where
  level : Nat
  strong : Bool
  slew : Bool
  chg : Bool
  rchg : Bool
  low : Bool
  u : Nat
  tgt : Int
  iamp : Nat
  deriving DecidableEq, Repr

/-- A scheduled sample as delivered (R300, R310): its kind, its hold instant in cycles, its value in A or V, its tag. -/
structure Sample where
  kind : Nat
  at_ : Nat
  val : Rat
  tag : Nat
  deriving DecidableEq, Repr

/-- A scheduled sample held and not yet delivered (R306, R307): kind, hold instant, slice, displacement, and the marks
EDGE, NOWIN, CLAMP and SAFE found at the hold. -/
structure Held where
  kind : Nat
  at_ : Nat
  slice : Nat
  disp : Nat
  edge : Bool
  nowin : Bool
  clamp : Bool
  safe : Bool
  lost : Bool
  deriving DecidableEq, Repr

/-- The modes of a bridge (R285), from the highest rank to the lowest: passively off, braked by the clamp or by clamp control,
gates off, forced by the safe state (brake, coast), coast, driven by its compare values. -/
inductive BridgeMode where
  | passive | brake | off | safeBrake | safeCoast | coast | drive
  deriving DecidableEq, Repr

/-- A period start that a restart of the bank has set for a channel (R267): the reference it belongs to, its cycle, its length. -/
structure Restart where
  ref : Nat
  t0 : Nat
  period : Nat
  deriving DecidableEq, Repr

/-- A scheduled sample that the arbiter has placed, or found no place for (R306, R307): its kind, its cycle after the counter zero, slice,
position and displacement, and the bridge state that its window assumes (R308). -/
structure SampleReq where
  kind : Nat
  at_ : Nat
  slice : Nat
  pos : Nat
  disp : Nat
  nowin : Bool
  want : Int
  deriving DecidableEq, Repr

/-- One coil: the regulator's state (R413), its channel's state (R266 to R279), and the samples of the running period. -/
structure Coil where
  on : Bool
  /-- The last computation found the axis in FAULT (R242). -/
  inFault : Bool
  aPrev : Int
  level : Nat
  u : Nat
  slew : Option Nat
  mid : Bool
  strong : Bool
  ePrev : Int
  integ : Rat
  satRun : Nat
  satNoted : Bool
  fd : Nat
  sDuty : Rat
  low : Bool
  rsHit : Bool
  imPrev : Option Rat
  im : Rat
  shadow : Compare
  shTag : PTag
  fresh : Bool
  missed : Nat
  active : Compare
  tag : PTag
  t0 : Nat
  /-- The starts that restarts of the bank have set, in order (R267). -/
  starts : List Restart
  period : Nat
  index : Nat
  carry : Int
  j : Nat
  c : Int
  endCount : Nat
  rounded : Bool
  tripAt : Option Nat
  /-- The peak-current threshold in steps of the DAC that the running period set; none while it sets none (R278). -/
  dac : Option Nat
  /-- A state the bridge has left but keeps to its next period start (R58, R292). -/
  tail : Option BridgeMode
  tonPrev : Nat
  ilimRun : Nat
  ilimNoted : Bool
  /-- The bridge-state segments of the last periods, newest first: start cycle, and 1 or −1 for a drive diagonal, 0 for
  slow decay or brake, 2 for coast, 3 for a forced brake. -/
  segs : List (Nat × Int)
  /-- The sample requests of the running period that are still to be held, and those of the coming one (R306). -/
  reqs : List SampleReq
  shReqs : List SampleReq
  held : List Held
  samples : List Sample
  ripple : Option (Nat × Rat)
  clipRun : Nat
  clipNow : Bool
  clipNoted : Bool
  /-- The harmonic-learning accumulators: bin, sum of errors, samples (R246). -/
  acc : List (Nat × Rat × Nat)
  /-- The ripple-slope block: sums of numerators and denominators, usable and all periods (R334). -/
  rsNum : Rat
  rsDen : Rat
  rsUsed : Nat
  rsAll : Nat
  /-- e(m) of the coil's last period where it contributed (R330). -/
  em : Option Rat
  /-- Interval sums for the heat ledger (R430): ī², |ī| and periods. -/
  sumSq : Rat
  sumAbs : Rat
  sumN : Nat
  deriving DecidableEq, Repr

/-- What patina gathers on one axis in its window (R439): the ticks of HOLD at zero velocity so far; the sums of terminal voltage and
current of each coil in the second that runs; sum and count of the winding resistances of its seconds, of the inductances of its
blocks, of the friction of its ticks and of the Ron,25 in Ω of its periods. -/
structure PatAcc where
  rest : Nat
  va : Rat
  ia : Rat
  vb : Rat
  ib : Rat
  ra : Rat × Nat
  rb : Rat × Nat
  la : Rat × Nat
  lb : Rat × Nat
  fric : Rat × Nat
  ron : Rat × Nat
  deriving DecidableEq, Repr

/-- One axis's observers, rating guard and load following (R261, R263, R331 to R340, R347), and patina's window on it (R439). -/
structure Obs where
  ed : Rat
  eq_ : Rat
  fastRun : Nat
  gapE : Nat
  gapR : Nat
  emfOk : Bool
  rsOk : Bool
  la : Option Rat
  lb : Option Rat
  rsDelta : Int
  lastDelta : Option Int
  ke : Rat
  keN : Nat
  keOk : Bool
  src : Nat
  /-- The stall criteria A and B of the present tick (R329, R341). -/
  critA : Bool
  critB : Bool
  ilf : Nat
  accSign : Int
  segT0 : Option Nat
  guardG : Nat
  guardOn : Bool
  travel : Int
  pat : PatAcc
  deriving DecidableEq, Repr

/-! ### Banks -/

/-- A request for one injected conversion (R318): its selector, the trigger that made it, the cycle of the request. -/
structure InjReq where
  sel : Nat
  trig : Nat
  at_ : Nat
  deriving DecidableEq, Repr

/-- One power bank: the three copies of PW_SAFE (R283), what forces it (R284), its gate supply and clamp, its time
reference in PWM cycles, its converters (R306 to R324) and its part in SYNC (R295). `clampLate` says that the clamp in force has
exceeded OV_TMAX (R59), `brake` which of its axes brake while it is forced (R286), `frameBad` that its last frame was bad. -/
structure Bank where
  safe0 : Nat
  safe1 : Nat
  safe2 : Nat
  allDiff : Bool
  ovForce : Bool
  clkStop : Bool
  gateUv : Bool
  clamp : Bool
  clampLate : Bool
  brake : Nat
  ref : Nat
  /-- The holds of the slices: slice and cycle (R307). -/
  busy : List (Nat × Nat)
  lastPos : Nat
  rippleCnt : Nat
  lastShadow : Nat
  /-- DRIFT in a row at the block ends of S0 to S4 (MECH 7). -/
  drift : List Nat
  inj : Option InjReq
  scan : Option Nat
  scanStop : Bool
  scanTrig : Nat
  scanQ : List Word
  measAt : List Nat
  /-- Of each slice the cycle of the last change of its coefficients, with OFS and GAIN before it (R314). -/
  coef : List (Nat × Int × Int)
  /-- The triggers that have a source event: their number, and the cycle at which they fire (R321). -/
  trigs : List (Nat × Nat)
  winRun : List Nat
  winNow : Nat
  pchk : Option (Nat × Bool × Bool)
  syncErr : Int
  adj : Int
  locked : Bool
  frameBad : Bool
  rampT0 : Option Nat
  deriving DecidableEq, Repr

/-- The SYNC unit (R294 to R296): the role in force, whether the line is driven, frames without an edge, the reference, and
whether PW_SYNC_CFG has been written since the role was taken. -/
structure Sync where
  role : Nat
  driving : Bool
  missed : Nat
  ref : Option Nat
  firstErr : Option Int
  rewritten : Bool
  deriving DecidableEq, Repr

/-! ### Feedback ports -/

/-- One feedback port (R354 to R378): filtered levels, Hall state, count and exact scaled position, speed in counts/s, the
edge timing of R364 and R365 in FBS cycles, the error window, and the serial reader. -/
structure Port where
  pin : Nat
  flt : Nat
  hall : Option Nat
  cnt : Int
  s : Rat
  speed : Rat
  dir : Int
  lastCyc : Option Nat
  lastAbs : Nat
  lastTs : Nat
  interval : Option Nat
  skipNext : Bool
  reversed : Bool
  k : Nat
  startCyc : Option Nat
  dirty : Bool
  events : Nat
  word : Option Nat
  wordAbs : Nat
  reading : Bool
  latchAbs : Nat
  freeAt : Nat
  warnNow : Bool
  modeAt : Nat
  snapBad : Bool
  deriving DecidableEq, Repr

/-! ### Sensor front end -/

/-- One auxiliary converter (R389): whether a pass runs, whether it ends at the next output, the list index and channel
connected, and the gain code of the conversion. -/
structure Conv where
  run : Bool
  stop : Bool
  idx : Nat
  conn : Option Nat
  gain : Nat
  deriving DecidableEq, Repr

/-- One logical channel (R390, R394, R399): its count of results, the automatic gain, whether the next conversion is
dropped, IMPL with its runs, the latest AUXB value with its time, and the flag events noted. -/
structure SfChan where
  seq : Nat
  autoGain : Option Nat
  drop : Bool
  impl : Bool
  disRun : Nat
  agrRun : Nat
  lastB : Option (Int × Nat)
  nOpen : Bool
  nClip : Bool
  nRange : Bool
  nCjc : Bool
  deriving DecidableEq, Repr

/-- A system calibration in progress (R400): channel, command, results wanted, results and their sum. -/
structure SfCal where
  ch : Nat
  cmd : Nat
  want : Nat
  n : Nat
  sum : Rat
  deriving DecidableEq, Repr

/-- The front end (R381 to R405): converters, channels, excitation changes, faults and step-11 currents in 0.1 µA, result queue, test DAC (owner and
waiting users: 0 host, 1 front-end check, 2 + b the check of bank b), calibration, report outputs, blanking. -/
structure FrontEnd where
  convs : Vector Conv 2
  chans : Vector SfChan 8
  exAt : Vector (Option Nat) 2
  exLive : Vector Nat 2
  exNoted : Vector Nat 2
  exI : Vector Nat 2
  rpu : Rat
  queue : List Word
  dacOwner : Option Nat
  dacWait : List Nat
  dacCode : Nat
  chk : Option Nat
  cal : Option SfCal
  repNext : Vector (Option Nat) 4
  blankAct : Bool
  blankEnd : Option Nat
  goPrev : BitVec 8
  deriving DecidableEq, Repr

/-! ### Fault masking and the heat ledger -/

/-- A takeover whose interruption runs (R415): the unit, the mechanism, the timestamp of detection, whether a takeover of its bank's
other kind has run with it (R420), the axes whose results ER publishes again (R416). -/
structure Tko where
  unit : Nat
  mech : Nat
  ts : Nat
  joint : Bool
  resumed : List Nat
  deriving DecidableEq, Repr

/-- The fault-masking unit (R407 to R429): takeovers in progress, retired spares, the reference in use, FAULT_N as seen,
the last correctable-error events, the SRAM rows with recent errors (row and second of each error), the rows mapped into the
repair reserve (R73, R424), the DRAM words that carry an uncorrectable error with their bits, the axes whose snapshot registers wait for ER (R419). -/
structure FaultMask where
  tkos : List Tko
  splRetired : Bool
  rcRetired : Bool
  rcRef : Bool
  xtalOk : Bool
  line : Bool
  corrAt : Vector (Option Nat) 2
  rows : List (Nat × Nat)
  mapped : List Nat
  badWords : List (Nat × Nat)
  owed : List Nat
  deriving DecidableEq, Repr

/-- The heat ledger's state of one axis (R430 to R435): filtered loss, the cap in force, the fall of its own limit, the
intervals for which its limits have been exceeded or its winding data stale, and the conditions noted. -/
structure HeatAx where
  pn : Rat
  cap : Nat
  ownFall : Rat
  jRun : Nat
  wRun : Nat
  staleRun : Nat
  staleNoted : Bool
  deriving DecidableEq, Repr

/-- The heat ledger: filtered module loss, the axes, whether the base plate is noted as hot; the sums of T_bp in °C and of P̄ in W over
the intervals of patina's running hour, with their number (R439). -/
structure Heat where
  pbar : Rat
  axes : Vector HeatAx 48
  tbpNoted : Bool
  hour : Rat × Rat × Nat
  deriving DecidableEq, Repr

/-! ### The kiln sequence and the NVM -/

/-- What the module does as a whole: no VAUX, RESET_N low, a start in progress, the pause before an internal
restart, RUN, kiln hold, a last gasp, or its end without VAUX while the internal supplies still stand (R65). -/
inductive KnPhase where
  | off | resetLow | start | waiting | run | hold | gasp | spent
  deriving DecidableEq, Repr

/-- A last gasp in progress (R65, R66): the record's sector, its bytes, and the programs finished. -/
structure Gasp where
  sector : Nat
  bytes : List Byte
  done : Nat
  deriving DecidableEq, Repr

/-- The kiln controller (R72 to R99): the phase; the trigger of the present start and its step in progress; the steps it has
completed (bit s − 1); the flash address of its open log record, once closed or not; its start number; the hours at its trigger; VHOLD as last measured, in UQ5.11 V (R52);
the values that KN_MEMO held before its latest writes, newest first, each with the time of the write where time ran (R38); the unit
failures of this start (unit, step, code; R74); whether a clear of the counts leaves the persistent alternative of step 6 out of
this start (R91); the
consecutive-failure counts (step s in bits [4s−1:4s−4]); the steps with an alternative or a skip in force; the persistent alternatives; the events
raised during the start; the skipped parameter records of each PARAM section (its number, first address, number skipped);
the axes whose latest autostart homing failed (R88), whether step 16 is complete, whether the DRAM has been trained; the counts of steps 1 to 4 at the trigger; a clear of all
counts that KN_CTRL.CLR_CNT asks of the next start; the homing directions reversed at this start; and the detail of a failure that KN_MEMO holds. -/
structure Kiln where
  phase : KnPhase
  vauxGood : Bool
  rstLow : Bool
  begun : Bool
  vhold : Nat
  mirror : List (Nat × Option Nat)
  units : List (Nat × Nat × Nat)
  slowKept : Bool
  trigger : Nat
  step : Nat
  done : Nat
  log : Option Nat
  closed : Bool
  startNo : Nat
  hours0 : Nat
  counts : Nat
  alt : Nat
  slow : Bool
  rcStart : Bool
  otherFirst : Option Nat
  otherDone : Bool
  cut : Nat
  raised : List (Nat × Nat × Nat)
  skips : List (Nat × Nat × Nat)
  homeFail : Nat
  step16 : Bool
  trained : Bool
  gasp : Option Gasp
  before : Nat
  clrCnt : Bool
  homeRev : Nat
  memoDetail : Nat
  deriving DecidableEq, Repr

/-- The one-time-programmable key store (R115). -/
structure Otp where
  hashes : Vector (Option Nat) 4
  revoked : Nat
  reqSig : Bool
  deriving DecidableEq, Repr

/-- A commit or calibration write in progress (R120, R125): its kind (0 IMAGE, 1 OVERLAY, 2 CAL), whether it is automatic,
its target, sequence number, target offset, length and image CRC; the plinth to be written; for an overlay the end of the
copied part, the offset, source and length of the records, and the table entry; for a calibration write its bytes; the phase
as NV_COMMIT_STAT shows it, and the operations finished in that phase. -/
structure Commit where
  kind : Nat
  auto_ : Bool
  target : Nat
  seq : Nat
  off : Nat
  len : Nat
  crc : Nat
  plinth : List Byte
  base : Nat
  ovOff : Nat
  src : Nat
  ovLen : Nat
  entry : Nat
  flags : Nat
  bytes : List Byte
  phase : Nat
  k : Nat
  deriving DecidableEq, Repr

/-- A transfer that the module sends to the flash (R102, R103): whether in 8D-8D-8D form, the rate of NCLK in kHz, the command,
how many address bytes it has and the address, its dummy cycles, the bytes written, how many bytes are read. -/
structure FlashXfer where
  octal : Bool
  khz : Nat
  op : Nat
  addrN : Nat
  addr : Nat
  dummy : Nat
  out : List Byte
  nin : Nat
  deriving DecidableEq, Repr

/-- What the module does on the flash's pins: a transfer, a low pulse on NRESET_N (R129), or a pause, both in µs (R104). -/
inductive FlashAct where
  | xfer (x : FlashXfer)
  | resetPulse (us : Nat)
  | pause (us : Nat)
  deriving DecidableEq, Repr

/-- The flash profile in use (R102): its code, the rate of NCLK in kHz, 4-byte addressing, dummy cycles of a read. -/
structure FlashProf where
  code : Nat
  khz : Nat
  addr4 : Bool
  dummy : Nat
  deriving DecidableEq, Repr

/-- A host flash operation that runs or waits (R126): its code, address and data. -/
structure FlashAcc where
  op : Nat
  addr : Nat
  data : Nat
  deriving DecidableEq, Repr

/-- The NVM controller: the copy in use (copy, flash offset, length), the flash capacity, a commit, a host operation, the
erases per region (patina ring, kiln log, calibration sections, image area), the DRAM eye centres, whether the automatic
calibration write of this start has been made, and whether the NVM controller's clock is lost (R426); the profile in use, whether
the flash is in octal mode, the last acts on its pins, newest first (R102 to R104), and the range of the last program or erase of
the kiln log or the patina ring (R129). -/
structure Nvm where
  inUse : Option (Nat × Nat × Nat)
  capacity : Nat
  commit : Option Commit
  acc : Option FlashAcc
  wear : Vector Nat 4
  eyes : Nat
  eyesOk : Bool
  autoDone : Bool
  lost : Bool
  prof : FlashProf
  octal : Bool
  profOf : Option Nat
  sent : List FlashAct
  ringOp : Option (Nat × Nat)
  deriving DecidableEq, Repr

/-- Patina (R439 to R446): the second at which the window began, the axes that moved in it, the minutes logged (T_bp, P̄),
the hours of the window (means of T_bp in °C and of P̄ in W, oldest first), staged records, the register values at the end of step 8, the warnings noted, the axes whose friction is noted, the gate
delays of step 10 (rising in [15:0], falling in [31:16]) and the plan applied at this start, per axis. -/
structure Patina where
  win0 : Nat
  moved : Nat
  mins : List (Nat × Nat)
  hrs : List (Rat × Rat)
  staged : List (List Byte)
  img : List (RegKey × Word)
  noted : Nat
  fricNoted : Nat
  dly10 : Vector Nat 48
  applied : Vector Nat 48
  deriving DecidableEq, Repr

/-- A capture pending (R452): the layer slot, the trigger boundary, whether the last frame of the span has been written. -/
structure Capture where
  layer : Nat
  t : Nat
  last : Nat
  whole : Bool
  short : Bool
  deriving DecidableEq, Repr

/-- The strata recorder (R447 to R455): recording and arm; the write position (chunk, word) with its sequence; the chunks of
the live ring, oldest first; the chunks pinned or frozen with their layer; the frames in the ring (boundary, byte offset,
chunk sequence), oldest first; the chunk written before the present one; the capture pending; sources that have fired; words that
wait for the next frame; the marks of the frame being built. -/
structure Strata where
  on : Bool
  armed : Bool
  chunk : Nat
  word : Nat
  seq : Nat
  ring : List Nat
  held : List (Nat × Nat)
  frames : List (Nat × Nat × Nat)
  prev : Option Nat
  cap : Option Capture
  fired : Nat
  marks : List Word
  evtFrom : Nat
  samples : List Word
  gapNext : Bool
  deriving DecidableEq, Repr

/-! ### The host port and boundary scan -/

/-- What the reply of the last accepted frame carries (R465 to R469): its status, its command, LEN and SEQ, the axis and slot
it named, the first faulting address, and its data. -/
structure HpReply where
  status : Nat
  cmd : Nat
  len : Nat
  seq : Nat
  axis : Nat
  slot : Nat
  addr : Nat
  words : List Word
  deriving DecidableEq, Repr

/-- The host port (R458 to R479, R485 to R490): the generation in force (0 while silent), one that waits for the next frame,
the one the last valid plinth names, HP_CFG as the image left it; the reply of the last accepted frame, whether the next
reply carries FRAME_ERR, the reply words of the last frame; which errors have been posted; a clear of HP_ERR that is due;
the hold (address, register) and the stage (address, mask of its words, words); the prefetched unit and its status; the
recorded values of the guarded fields; the timestamp of a debug halt's entry; the edges of the last accepted frame but for those of
its WAIT; SEQ, axis and select of the frame that is being executed. -/
structure HostPort where
  gen : Nat
  want : Option Nat
  plinthGen : Nat
  imgCfg : Nat
  rep : HpReply
  frameErr : Bool
  out : List Word
  errNoted : Bool
  busNoted : Bool
  clrDue : Bool
  hold : Option (Nat × Word)
  stage : Option (Nat × Nat × Word)
  pre : Nat
  preStat : Nat
  locks : List (RegKey × Nat)
  dbgAt : Option Nat
  edges : Nat
  now : Option (Nat × Nat × Bool)
  deriving DecidableEq, Repr

/-- The states of the IEEE 1149.1 TAP controller. -/
inductive TapState where
  | testLogicReset | runTestIdle
  | selectDr | captureDr | shiftDr | exit1Dr | pauseDr | exit2Dr | updateDr
  | selectIr | captureIr | shiftIr | exit1Ir | pauseIr | exit2Ir | updateIr
  deriving DecidableEq, Repr

/-- The TAP (R68): controller, instruction in force, the shift registers of instruction and data (bit 0 next to TDO), the
boundary cells updated, and TDO. -/
structure Tap where
  st : TapState
  ir : Nat
  irShift : Nat
  dr : Nat
  cells : BitVec 349
  tdo : Bool
  deriving DecidableEq, Repr


/-! ### The whole module -/

/-- Everything but the queue of waiting commands. -/
structure Mach where
  clk : Clock
  regs : List (RegKey × Word)
  staged : List Staged
  dram : List Host.Cell
  flash : List Host.Cell
  inp : InputLevels
  snapIn : InputLevels
  go : BitVec 8
  goPulse : Vector (Option (Nat × Bool)) 8
  readData : Word
  axes : Vector Axis 48
  queues : Vector Queue 64
  rings : Rings
  arms : Vector Arm 16
  vmasters : Vector VMaster 4
  regchans : Vector RegChan 4
  sections : List Section
  coils : Vector Coil 96
  obs : Vector Obs 48
  /-- The learned bins of each axis as the 512 bytes of R247, one number. -/
  harm : Vector Nat 48
  /-- The commutation tables of the image: 1,024 entries of 32 bits as one number; none is the built-in sine (R243). -/
  comm : Vector (Option Nat) 16
  banks : Vector Bank 4
  sync : Sync
  /-- A last gasp runs; a debug halt runs (R287); a boundary-scan test instruction is in force (R68). -/
  gasp : Bool
  dbgHalt : Bool
  testInstr : Bool
  /-- Ron,25 of each axis as patina holds it for the ledger, UQ8.8 mΩ; 0 is the ledger's own 60 mΩ (R430). -/
  ledRon : Vector Nat 48
  ports : Vector Port 12
  sf : FrontEnd
  fm : FaultMask
  heat : Heat
  kn : Kiln
  otp : Otp
  nv : Nvm
  pt : Patina
  st : Strata
  hp : HostPort
  tap : Tap
  deriving DecidableEq, Repr

/-- The state of the block: what the module holds, and the commands that wait, first in, first out. -/
structure State where
  pending : List Instr
  m : Mach
  deriving DecidableEq, Repr

/-- Why a command stops. No meaning of this model raises a fault: the spec gives every command of the table an effect. -/
inductive Fault where
  /-- Raised by no command. Safe: it can hide no behaviour. -/
  | none
  deriving DecidableEq, Repr

/-- Why a command is refused. -/
inductive Refusal where
  /-- Raised by the dispatch for a command that has no meaning yet. Safe: the model stops where the module goes on. -/
  | notModelled (mnemonic : String)
  deriving DecidableEq, Repr

/-! ### Reset -/

/-- Frame 0 on the ring (R189). -/
def Frame.ring : Frame := { pc := none, base := 0, bound := 0, c0 := 0, c1 := 0, c2 := 0, c3 := 0 }

/-- The state at rest at position zero. -/
def Kin.zero : Kin := { p := 0, v := 0, a := 0 }

/-- A trim loop that does not run. -/
def Trim.off : Trim := { on := false, ch := 0, sp := 0, i := 0, u := 0, stale := false, satI := false, satU := false }

/-- An axis after reset: OFF, position zero and uncertain (AX_STATE of R167). Log entry 4 (DESIGN CHOICE). -/
def Axis.reset : Axis :=
  { mode := .off, sub := .off, cur := .zero, nxt := .zero
    pubd := false, curReq := { ibase := 0, level := 0, strong := false }, nxtReq := { ibase := 0, level := 0, strong := false }, homed := false, posUnc := true, seg := none, cmds := []
    ahead := [], toTake := [], retgt := none, fbEngage := none, slimCheck := false, stopCmds := [], eb := none, hardAt := none
    pendFault := none, prevEnd := 0, prevVel := false, latPosA := 0, latPosB := 0, bothPrev := false, home := none
    dirUsed := false, arming0 := 0, enWait := [], still := none, ramp0 := none, redDone := false, holdOvr := none
    keepRun := false, recovering := none, group := none, follow := none, trim := .off
    retry := { count := 0, waiting := false, vPct := none, goal := none }
    stallRun := 0, declared := false, resync := false, blankUntil := 0, clampMoved := false, ferrWarned := false, kept := none, coast := false, fresh := none, young := [], plans := [], frozen := none
    snapState := BitVec.ofNat 128 (2 ^ 121), snapSeg := BitVec.ofNat 128 (0xF * 2 ^ 16), snapFollow := 0 }

/-- A queue after reset: IDLE, empty, frame 0 on the ring. -/
def Queue.reset : Queue :=
  { st := .idle, why := 0, published := [], staged := [], stack := [.ring], inflight := [], nextId := 0, fetched := none
    lastStatus := 0, slotNoted := false, auto_ := false, vec := false, abort := none }

/-- Empty rings. -/
def Rings.reset : Rings :=
  { cpl := [], cplWr := 0, cplRd := 0, cplLost := 0, evt := [], evtWr := 0, evtRd := 0, evtLost := 0, evtMwr := 0
    evtLossDue := false }

/-- An armature at rest. -/
def Arm.reset : Arm :=
  { run := none, emergency := false, stopping := false, ebAt := none, members := [], cmd := none, ahead := []
    s0 := 0, len := 0, sCur := 0, vCur := 0, next := none, mfault := false, tag := 0 }

/-- A period tag after reset. -/
def PTag.reset : PTag :=
  { level := 0, strong := false, slew := false, chg := false, rchg := false, low := false, u := 0, tgt := 0, iamp := 0 }

/-- A coil after reset: coasting. Log entry 4 (DESIGN CHOICE). -/
def Coil.reset : Coil :=
  { on := false, inFault := false, aPrev := 0, level := 0, u := 0, slew := none, mid := false, strong := false, ePrev := 0, integ := 0
    satRun := 0, satNoted := false, fd := 0, sDuty := 0, low := false, rsHit := false, imPrev := none, im := 0, shadow := .coast
    shTag := .reset, fresh := false, missed := 0, active := .coast, tag := .reset, t0 := 0, starts := []
    period := 5000, index := 0, carry := 0, j := 0, c := 0, endCount := 0, rounded := false, tripAt := none, dac := none, tail := none
    tonPrev := 0, ilimRun := 0, ilimNoted := false, segs := [], reqs := [], shReqs := [], held := [], samples := [], ripple := none
    clipRun := 0, clipNow := false, clipNoted := false, acc := [], rsNum := 0, rsDen := 0, rsUsed := 0, rsAll := 0
    em := none, sumSq := 0, sumAbs := 0, sumN := 0 }

/-- A window of patina in which nothing has been gathered. -/
def PatAcc.reset : PatAcc :=
  { rest := 0, va := 0, ia := 0, vb := 0, ib := 0, ra := (0, 0), rb := (0, 0), la := (0, 0), lb := (0, 0), fric := (0, 0), ron := (0, 0) }

/-- The observers of an axis after reset. -/
def Obs.reset : Obs :=
  { ed := 0, eq_ := 0, fastRun := 0, gapE := 0, gapR := 0, emfOk := false, rsOk := false, la := none, lb := none
    rsDelta := 0, lastDelta := none, ke := 0, keN := 0, keOk := false, src := 0, critA := false, critB := false, ilf := 0, accSign := 0, segT0 := none
    guardG := 0, guardOn := false, travel := 0, pat := .reset }

/-- A bank after reset: COAST in all three copies of PW_SAFE. -/
def Bank.reset : Bank :=
  { safe0 := 5, safe1 := 5, safe2 := 5, allDiff := false, ovForce := false, clkStop := false, gateUv := false
    clamp := false, clampLate := false, brake := 0, ref := 0, busy := [], lastPos := 3, rippleCnt := 0, lastShadow := 3
    drift := [0, 0, 0, 0, 0], inj := none, scan := none, scanStop := false, scanTrig := 0xFF, scanQ := []
    measAt := [0, 0, 0, 0, 0], coef := List.replicate 5 (0, 0, 0), trigs := [], winRun := [0, 0, 0, 0, 0, 0, 0, 0], winNow := 0, pchk := none, syncErr := 0, adj := 0, locked := false, frameBad := false, rampT0 := none }

/-- A port after reset: OFF, count zero. Log entry 4 (DESIGN CHOICE). -/
def Port.reset : Port :=
  { pin := 0, flt := 0, hall := none, cnt := 0, s := 0, speed := 0, dir := 0, lastCyc := none, lastAbs := 0, lastTs := 0
    interval := none, skipNext := false, reversed := false, k := 0, startCyc := none, dirty := false, events := 0
    word := none, wordAbs := 0, reading := false, latchAbs := 0, freeAt := 0, warnNow := false, modeAt := 0, snapBad := false }

/-- A channel of the front end after reset. -/
def SfChan.reset : SfChan :=
  { seq := 0, autoGain := none, drop := false, impl := false, disRun := 0, agrRun := 0, lastB := none, nOpen := false
    nClip := false, nRange := false, nCjc := false }

/-- A converter after reset: not connected. -/
def Conv.reset : Conv := { run := false, stop := false, idx := 0, conn := none, gain := 0 }

/-- The front end after reset. -/
def FrontEnd.reset : FrontEnd :=
  { convs := Vector.replicate 2 .reset
    chans := Vector.replicate 8 .reset
    exAt := Vector.replicate 2 none, exLive := Vector.replicate 2 0, exNoted := Vector.replicate 2 0, exI := Vector.replicate 2 0, rpu := 10000
    queue := [], dacOwner := none, dacWait := [], dacCode := 0, chk := none, cal := none
    repNext := Vector.replicate 4 none
    blankAct := false, blankEnd := none, goPrev := 0 }

/-- The fault-masking unit after reset. -/
def FaultMask.reset : FaultMask :=
  { tkos := [], splRetired := false, rcRetired := false, rcRef := false, xtalOk := false, line := false
    corrAt := Vector.replicate 2 none, rows := [], mapped := [], badWords := [], owed := [] }

/-- An axis of the heat ledger after reset. -/
def HeatAx.reset : HeatAx :=
  { pn := 0, cap := 0x4800, ownFall := 0, jRun := 0, wRun := 0, staleRun := 0, staleNoted := false }

/-- The heat ledger after reset. -/
def Heat.reset : Heat :=
  { pbar := 0, axes := Vector.replicate 48 .reset, tbpNoted := false, hour := (0, 0, 0) }

/-- The kiln controller after reset: VAUX is not yet good. Log entry 4 (DESIGN CHOICE). -/
def Kiln.reset : Kiln :=
  { phase := .off, vauxGood := false, rstLow := false, begun := false, vhold := 0, mirror := [], units := [], slowKept := false, trigger := 0, step := 0, done := 0
    log := none, closed := false, startNo := 0, hours0 := 0, counts := 0, alt := 0, slow := false, rcStart := false, otherFirst := none
    otherDone := false, cut := 0, raised := [], skips := [], homeFail := 0, step16 := false, trained := false, gasp := none
    before := 0, clrCnt := false, homeRev := 0, memoDetail := 0 }

/-- The key store as delivered: nothing programmed. -/
def Otp.reset : Otp := { hashes := Vector.replicate 4 none, revoked := 0, reqSig := false }

/-- The NVM controller after reset. -/
def Nvm.reset : Nvm :=
  { inUse := none, capacity := 2 ^ 30, commit := none, acc := none, wear := Vector.replicate 4 0, eyes := 0
    eyesOk := false, autoDone := false, lost := false, prof := { code := 0, khz := 25000, addr4 := false, dummy := 0 }, octal := false, profOf := none, sent := []
    ringOp := none }

/-- Patina after reset. -/
def Patina.reset : Patina :=
  { win0 := 0, moved := 0, mins := [], hrs := [], staged := [], img := [], noted := 0, fricNoted := 0
    dly10 := Vector.replicate 48 0, applied := Vector.replicate 48 (1024 * 2 ^ 16) }

/-- The strata recorder after reset: off, every chunk free. -/
def Strata.reset : Strata :=
  { on := false, armed := false, chunk := 0, word := 0, seq := 0, ring := [], held := [], frames := [], prev := none, cap := none
    fired := 0, marks := [], evtFrom := 0, samples := [], gapNext := false }

/-- The implicit NOP's reply (R465). -/
def HpReply.first : HpReply := { status := 0, cmd := 0, len := 0, seq := 0, axis := 0, slot := 0, addr := 0, words := [] }

/-- The host port after reset: silent. Log entry 4 (DESIGN CHOICE). -/
def HostPort.reset : HostPort :=
  { gen := 0, want := none, plinthGen := 1, imgCfg := 0x10, rep := .first, frameErr := false, out := [], errNoted := false
    busNoted := false, clrDue := false, hold := none, stage := none, pre := 0, preStat := 0, locks := [], dbgAt := none, edges := 0
    now := none }

/-- The TAP after its reset: IDCODE (R68). -/
def Tap.reset : Tap := { st := .testLogicReset, ir := 2, irShift := 2, dr := 0, cells := 0, tdo := false }


/-- The module right after power-on reset, before any start. Log entries 2 (DESIGN CHOICE), 86 (DEDUCED). -/
def Mach.reset : Mach :=
  { clk := { running := false, tick := 0, sub := 0, draws := 0, hours := 0 }
    regs := [], staged := [], dram := [], flash := []
    inp := { gi := 0, limA := 0, limB := 0, tripA := false, tripB := false }, snapIn := { gi := 0, limA := 0, limB := 0, tripA := false, tripB := false }
    go := 0, goPulse := Vector.replicate 8 none, readData := 0
    axes := Vector.replicate 48 .reset
    queues := Vector.replicate 64 .reset
    rings := .reset
    arms := Vector.replicate 16 .reset
    vmasters := Vector.replicate 4 { p := 0, v := 0 }
    regchans := Vector.replicate 4 { pending := 0, ofs := 0 }
    sections := []
    coils := Vector.replicate 96 .reset
    obs := Vector.replicate 48 .reset
    harm := Vector.replicate 48 0
    comm := Vector.replicate 16 none
    banks := Vector.replicate 4 .reset
    sync := { role := 0, driving := false, missed := 0, ref := none, firstErr := none, rewritten := false }
    gasp := false, dbgHalt := false, testInstr := false
    ledRon := Vector.replicate 48 0
    ports := Vector.replicate 12 .reset
    sf := .reset
    fm := .reset
    heat := .reset
    kn := .reset
    otp := .reset
    nv := .reset
    pt := .reset
    st := .reset
    hp := .reset
    tap := .reset
    }

/-- The block right after reset: no command waits. Log entry 2 (DESIGN CHOICE). -/
def State.reset : State := { pending := [], m := .reset }

end Sys2Proof.Machine
end

