-- ==== Sys2Proof/Machine/Ops.lean ====
section
/-!
DEFINITION. The named operations over the state: memories, registers, time, rings, events, interrupt lines.
-/

namespace Sys2Proof.Machine

/-! ### Memories: one canonical form -/

/-- The byte at `a` of a memory whose unlisted bytes read as `d`. Log entry 3 (DESIGN CHOICE). -/
def memGet (d : Byte) : List Host.Cell → Nat → Byte
  | [], _ => d
  | (k, b) :: rest, a => if k = a then b else if a < k then d else memGet d rest a

/-- Writes a byte, keeping addresses rising and no byte equal to the default listed. -/
def memSet (d : Byte) : List Host.Cell → Nat → Byte → List Host.Cell
  | [], a, b => if b = d then [] else [(a, b)]
  | (k, c) :: rest, a, b =>
    if k < a then (k, c) :: memSet d rest a b
    else if k = a then (if b = d then rest else (k, b) :: rest)
    else (if b = d then (k, c) :: rest else (a, b) :: (k, c) :: rest)

/-- The canonical form of a memory whose unlisted bytes read as `d`: addresses strictly rising from `lo`, no default
byte listed. -/
def memWfFrom (d : Byte) : Nat → List Host.Cell → Bool
  | _, [] => true
  | lo, (k, b) :: rest => decide (lo ≤ k) && decide (b ≠ d) && memWfFrom d (k + 1) rest

/-- `n` bytes from `a`, least significant first (R6). -/
def memRead (d : Byte) (c : List Host.Cell) (a : Nat) : Nat → Nat
  | 0 => 0
  | n + 1 => (memGet d c a).toNat + 256 * memRead d c (a + 1) n

/-- Writes the `n` low bytes of `v` at `a`, least significant first (R6). -/
def memWrite (d : Byte) (c : List Host.Cell) (a : Nat) : Nat → Nat → List Host.Cell
  | 0, _ => c
  | n + 1, v => memWrite d (memSet d c a (BitVec.ofNat 8 v)) (a + 1) n (v / 256)

/-- Writes a list of bytes from `a`. -/
def memPut (d : Byte) (c : List Host.Cell) (a : Nat) : List Byte → List Host.Cell
  | [] => c
  | b :: rest => memPut d (memSet d c a b) (a + 1) rest

/-- `n` bytes from `a` as a list. -/
def memBytes (d : Byte) (c : List Host.Cell) (a : Nat) : Nat → List Byte
  | 0 => []
  | n + 1 => memGet d c a :: memBytes d c (a + 1) n

/-- R499: an unwritten DRAM byte reads as zero. Log entry 3 (DESIGN CHOICE). -/
def dramDefault : Byte := 0

/-- An erased flash byte. Log entry 3 (DESIGN CHOICE). -/
def flashDefault : Byte := 0xFF

/-- The DRAM holds its canonical form. -/
def Memory.wf (c : List Host.Cell) : Bool := memWfFrom dramDefault 0 c

/-- The flash holds its canonical form. -/
def Flash.wf (c : List Host.Cell) : Bool := memWfFrom flashDefault 0 c

def Mach.dramRead (m : Mach) (a n : Nat) : Nat := memRead dramDefault m.dram a n
def Mach.dramWrite (m : Mach) (a n v : Nat) : Mach := { m with dram := memWrite dramDefault m.dram a n v }
/-- Whether a DRAM word carries an uncorrectable error (R424): it was found with one and has not been written since.
Log entry 117 (DEDUCED). -/
def Mach.badWord (m : Mach) (off : Nat) : Bool := m.fm.badWords.any fun x => x.1 == off / 16 && x.2 == m.dramRead (16 * (off / 16)) 16

def Mach.flashRead (m : Mach) (a n : Nat) : Nat := memRead flashDefault m.flash a n
def Mach.flashWrite (m : Mach) (a n v : Nat) : Mach := { m with flash := memWrite flashDefault m.flash a n v }

/-- A flash program clears bits only: each byte becomes the AND of the old and the new. -/
def Mach.flashProgram (m : Mach) (a : Nat) : List Byte → Mach
  | [] => m
  | b :: rest =>
    Mach.flashProgram { m with flash := memSet flashDefault m.flash a (memGet flashDefault m.flash a &&& b) } (a + 1) rest

/-- A flash erase of `n` bytes from `a`. -/
def Mach.flashErase (m : Mach) (a n : Nat) : Mach :=
  { m with flash := m.flash.filter fun c => c.1 < a || a + n ≤ c.1 }

/-! ### Registers -/

/-- The order of register keys. -/
def RegKey.before (x y : RegKey) : Bool :=
  if x.r.ctorIdx ≠ y.r.ctorIdx then decide (x.r.ctorIdx < y.r.ctorIdx)
  else if x.i ≠ y.i then decide (x.i < y.i)
  else decide (x.j < y.j)

/-- The value of a register after reset, from its fields' reset and start values. AX_PROF[7] has start values of its own
(R167), and NV and KN registers take their module-dependent values from typed state. Log entry 4 (DESIGN CHOICE). -/
def RegKey.resetVal (k : RegKey) : Word :=
  if k.r = .AX_PROF ∧ k.j = 7 then BitVec.ofNat 128 (0x9C400000 + 0x009C4000 * 2 ^ 32 + 0x009C4000 * 2 ^ 64)
  else BitVec.ofNat 128 ((k.r.desc.fields.map fun f => f.reset * 2 ^ f.lo).sum)

/-- The value listed for a register, or its reset value. -/
def regGet : List (RegKey × Word) → RegKey → Word
  | [], k => k.resetVal
  | (x, w) :: rest, k => if x = k then w else if k.before x then k.resetVal else regGet rest k

/-- Sets a register, keeping keys rising and no reset value listed. -/
def regSet : List (RegKey × Word) → RegKey → Word → List (RegKey × Word)
  | [], k, w => if w = k.resetVal then [] else [(k, w)]
  | (x, v) :: rest, k, w =>
    if x = k then (if w = k.resetVal then rest else (k, w) :: rest)
    else if k.before x then (if w = k.resetVal then (x, v) :: rest else (k, w) :: (x, v) :: rest)
    else (x, v) :: regSet rest k w

/-- The canonical form of the register file. -/
def regsWf : List (RegKey × Word) → Bool
  | [] => true
  | (x, w) :: rest =>
    decide (w ≠ x.resetVal) && (match rest with | [] => true | (y, _) :: _ => x.before y) && regsWf rest

/-- The last written value of a register (R492: what reads and aliases see). -/
def Mach.reg (m : Mach) (r : Reg) (i j : Nat) : Nat := (regGet m.regs ⟨r, i, j⟩).toNat

/-- Sets the last written value of a register. -/
def Mach.setReg (m : Mach) (r : Reg) (i j v : Nat) : Mach :=
  { m with regs := regSet m.regs ⟨r, i, j⟩ (BitVec.ofNat 128 v) }

/-- The value in force of a register: a staged write has not taken effect (R492). -/
def Mach.force (m : Mach) (r : Reg) (i j : Nat) : Nat :=
  match m.staged.find? (fun s => s.key == ⟨r, i, j⟩) with
  | some s => s.force.toNat
  | none => m.reg r i j

/-- The value in force of a field. -/
def Mach.rd (m : Mach) (f : Fld) (i : Nat := 0) (j : Nat := 0) : Nat := bitsOf (m.force f.reg i j) f.lo f.width

/-- The value in force of a field read as a signed number. -/
def Mach.rdS (m : Mach) (f : Fld) (i : Nat := 0) (j : Nat := 0) : Int := signedOf f.width (m.rd f i j)

/-- The value of a field in force for channel `k` of its bank (R297): a staged write that the channel has taken, or the
value in force. -/
def Mach.rdCh (m : Mach) (k : Nat) (f : Fld) (i : Nat := 0) (j : Nat := 0) : Nat :=
  match m.staged.find? (fun s => s.key == ⟨f.reg, i, j⟩) with
  | some s => bitsOf (if bitOf s.seen k then m.reg f.reg i j else s.force.toNat) f.lo f.width
  | none => bitsOf (m.reg f.reg i j) f.lo f.width

/-- The last written value of a field: what a computation for the boundary at which a staged write takes effect uses.
Log entry 94 (DEDUCED). -/
def Mach.rdNew (m : Mach) (f : Fld) (i : Nat := 0) (j : Nat := 0) : Nat := bitsOf (m.reg f.reg i j) f.lo f.width

/-- A one-bit field in force. -/
def Mach.rb (m : Mach) (f : Fld) (i : Nat := 0) (j : Nat := 0) : Bool := m.rd f i j == 1

/-- The module's own update of a field: last written value and value in force alike (R493). -/
def Mach.wr (m : Mach) (f : Fld) (v : Nat) (i : Nat := 0) (j : Nat := 0) : Mach :=
  let m' := m.setReg f.reg i j (putBits (m.reg f.reg i j) f.lo f.width v)
  { m' with staged := m'.staged.map fun s =>
      if s.key == ⟨f.reg, i, j⟩ then { s with force := BitVec.ofNat 128 (putBits s.force.toNat f.lo f.width v) } else s }

/-- Sets a one-bit field. -/
def Mach.setBit (m : Mach) (f : Fld) (i : Nat := 0) (j : Nat := 0) : Mach := m.wr f 1 i j

/-- Clears a field. -/
def Mach.clrFld (m : Mach) (f : Fld) (i : Nat := 0) (j : Nat := 0) : Mach := m.wr f 0 i j

/-- Writes a signed value into a field. -/
def Mach.wrS (m : Mach) (f : Fld) (v : Int) (i : Nat := 0) (j : Nat := 0) : Mach := m.wr f (unsignedOf f.width v) i j

/-- Increments a count that saturates at its field's largest value. -/
def Mach.bump (m : Mach) (f : Fld) (i : Nat := 0) (j : Nat := 0) : Mach :=
  m.wr f (satInc (2 ^ f.width - 1) (m.rd f i j)) i j

/-- Increments a count that runs modulo its field's width. -/
def Mach.wrap (m : Mach) (f : Fld) (i : Nat := 0) (j : Nat := 0) : Mach := m.wr f (m.rd f i j + 1) i j

/-! ### Indexed state -/

/-- The element at `k` of a vector, or `d` past its end. -/
def vget {α : Type} {n : Nat} (d : α) (v : Vector α n) (k : Nat) : α := if h : k < n then v[k] else d

/-- The vector with the element at `k` changed. -/
def vmod {α : Type} {n : Nat} (v : Vector α n) (k : Nat) (f : α → α) : Vector α n :=
  if h : k < n then v.set k (f v[k]) else v

def Mach.ax (m : Mach) (n : Nat) : Axis := vget .reset m.axes n
def Mach.modAx (m : Mach) (n : Nat) (f : Axis → Axis) : Mach := { m with axes := vmod m.axes n f }
def Mach.qu (m : Mach) (q : Nat) : Queue := vget .reset m.queues q
def Mach.modQ (m : Mach) (q : Nat) (f : Queue → Queue) : Mach := { m with queues := vmod m.queues q f }
def Mach.arm (m : Mach) (g : Nat) : Arm := vget .reset m.arms g
def Mach.modArm (m : Mach) (g : Nat) (f : Arm → Arm) : Mach := { m with arms := vmod m.arms g f }
def Mach.regch (m : Mach) (r : Nat) : RegChan := vget { pending := 0, ofs := 0 } m.regchans r
def Mach.modRegch (m : Mach) (r : Nat) (f : RegChan → RegChan) : Mach := { m with regchans := vmod m.regchans r f }
def Mach.vmaster (m : Mach) (v : Nat) : VMaster := vget { p := 0, v := 0 } m.vmasters v

def Mach.coil (m : Mach) (k : Nat) : Coil := vget .reset m.coils k
def Mach.modCoil (m : Mach) (k : Nat) (f : Coil → Coil) : Mach := { m with coils := vmod m.coils k f }
def Mach.ob (m : Mach) (n : Nat) : Obs := vget .reset m.obs n
def Mach.modOb (m : Mach) (n : Nat) (f : Obs → Obs) : Mach := { m with obs := vmod m.obs n f }
def Mach.bank (m : Mach) (b : Nat) : Bank := vget .reset m.banks b
def Mach.modBank (m : Mach) (b : Nat) (f : Bank → Bank) : Mach := { m with banks := vmod m.banks b f }

def Mach.port (m : Mach) (p : Nat) : Port := vget .reset m.ports p
def Mach.modPort (m : Mach) (p : Nat) (f : Port → Port) : Mach := { m with ports := vmod m.ports p f }

def Mach.hax (m : Mach) (n : Nat) : HeatAx := vget .reset m.heat.axes n
def Mach.modHax (m : Mach) (n : Nat) (f : HeatAx → HeatAx) : Mach :=
  { m with heat := { m.heat with axes := vmod m.heat.axes n f } }

/-- Applies an operation for each of `0 … n − 1` in ascending order. -/
def Mach.each (m : Mach) (n : Nat) (f : Mach → Nat → Mach) : Mach := (List.range n).foldl f m

/-- Applies an operation for each number of a list. -/
def Mach.forAll (m : Mach) (l : List Nat) (f : Mach → Nat → Mach) : Mach := l.foldl f m

/-- An operation under a condition. -/
def Mach.when (m : Mach) (c : Bool) (f : Mach → Mach) : Mach := if c then f m else m

/-- The bank of axis `n` (R17). -/
def bankOf (n : Nat) : Nat := n / 12

/-- The axes of bank `b` (R17). -/
def axesOfBank (b : Nat) : List Nat := (List.range 12).map (12 * b + ·)

/-- The end of the system region (R30). -/
def Mach.sysSize (m : Mach) : Nat := 0x10000000 * max 1 (m.rd F.ST_REGION_M)

/-! ### Time and free values -/

/-- The timestamp now: zero before RUN (R19), then 1,000 units per tick, modulo 2⁴⁸ (R11). Log entry 7 (DESIGN CHOICE). -/
def Mach.stamp (m : Mach) : Nat := if m.clk.running then (m.clk.tick * 1000 + m.clk.sub) % 2 ^ 48 else 0

/-- Time now in timestamp units since RUN, without wrap. -/
def Mach.absNow (m : Mach) : Nat := m.clk.tick * 1000 + m.clk.sub

/-- The timestamp of tick boundary `t`. -/
def tickStamp (t : Nat) : Nat := t * 1000 % 2 ^ 48

/-- A free value of this command. -/
def Mach.free (m : Mach) (use : Nat) : Nat := Config.freeNat m.clk.draws use

/-- The start of a command: it advances the command counter, and the time within the tick by an open amount.
Log entry 7 (DESIGN CHOICE). -/
def Mach.begin_ (m : Mach) : Mach :=
  { m with clk := { m.clk with
      draws := m.clk.draws + 1
      sub := m.clk.sub + Config.freeNat m.clk.draws 0 % (1000 - m.clk.sub % 1000) } }

/-- The hours counter `k` seconds later: it wraps after 2³² s (R11). -/
def Mach.hoursAdd (m : Mach) (k : Nat) : Mach := { m with clk := { m.clk with hours := (m.clk.hours + k) % 2 ^ 32 } }

/-- The seconds from `t` to now on the hours counter. -/
def Mach.hoursSince (m : Mach) (t : Nat) : Nat := (m.clk.hours + 2 ^ 32 - t % 2 ^ 32) % 2 ^ 32

/-- The signed difference of two timestamps (R11). -/
def tsDiff (a b : Nat) : Int := signedOf 48 (unsignedOf 48 ((a : Int) - (b : Int)))

/-! ### Rings and interrupt lines -/

/-- The event record of R199. -/
def eventWord (code obj ts data : Nat) : Word :=
  BitVec.ofNat 128 (code % 2 ^ 16 * 2 ^ 112 + obj % 2 ^ 8 * 2 ^ 104 + ts % 2 ^ 48 * 2 ^ 48 + data % 2 ^ 48)

/-- Whether the event ring holds 4,096 unread records. -/
def Rings.evtFull (r : Rings) : Bool := decide ((r.evtWr + 2 ^ 32 - r.evtRd) % 2 ^ 32 = 4096)

/-- R198: a record enters the event ring; a full ring loses its oldest unread record. -/
def Rings.pushEvt (r : Rings) (w : Word) : Rings :=
  { r with
    evt := (w :: r.evt).take 4096
    evtWr := (r.evtWr + 1) % 2 ^ 32
    evtRd := if r.evtFull then (r.evtRd + 1) % 2 ^ 32 else r.evtRd
    evtLost := if r.evtFull then (r.evtLost + 1) % 2 ^ 32 else r.evtLost
    evtMwr := (r.evtMwr + 1) % 2 ^ 32
    evtLossDue := r.evtFull || r.evtLossDue }

/-- R198, R200: an event record enters the ring with the stamp `ts`; the record is mirrored to DRAM; Q_IRQ.EVT sets at or above
the selected severity. -/
def Mach.enterEvt (m : Mach) (code obj data ts : Nat) : Mach :=
  let w := eventWord code obj ts data
  let m1 := ({ m with rings := m.rings.pushEvt w } : Mach).dramWrite (0x04000000 + 16 * (m.rings.evtMwr % 65536)) 16 w.toNat
  let m2 := m1.when m.rings.evtFull (·.setBit F.Q_IRQ_EVT_LOST)
  m2.when (decide (m2.rd F.Q_UNIT_CFG_EVT_SEV ≤ code / 2 ^ 14)) (·.setBit F.Q_IRQ_EVT)

/-- An event is raised: during a start it waits for RUN (R87), else it enters the ring. -/
def Mach.postAt (m : Mach) (code obj data ts : Nat) : Mach :=
  if m.kn.phase = .start then { m with kn := { m.kn with raised := m.kn.raised ++ [(code, obj, data)] } }
  else m.enterEvt code obj data ts

/-- Posts an event stamped now. -/
def Mach.post (m : Mach) (code obj data : Nat) : Mach := m.postAt code obj data m.stamp

/-- The completion record of R196. -/
def cplWord (opc status tag ts pos : Nat) : Word :=
  BitVec.ofNat 128 (opc % 2 ^ 8 * 2 ^ 120 + status % 2 ^ 8 * 2 ^ 112 + tag % 2 ^ 16 * 2 ^ 96
    + ts % 2 ^ 48 * 2 ^ 48 + pos % 2 ^ 48)

/-- Unread completion records. -/
def Mach.cplUnread (m : Mach) : Nat := (m.rings.cplWr + 2 ^ 32 - m.rings.cplRd) % 2 ^ 32

/-- The completion entries reserved for the commands of a queue: those dispatched, and those an abort is ending (R197). -/
def Queue.reserved (q : Queue) : Nat :=
  (q.inflight.filter (·.reserved)).length + (match q.abort with | some r => (r.ended.filter (·.reserved)).length | none => 0)

/-- Completion entries reserved by dispatched commands (R197). -/
def Mach.cplReserved (m : Mach) : Nat := (m.queues.toList.map Queue.reserved).sum

/-- STALL mode (R197). -/
def Mach.cplStall (m : Mach) : Bool := m.rd F.Q_UNIT_CFG_CPL_FULL == 0

/-- R195, R197: a completion record enters the ring; a full ring loses its oldest unread record. -/
def Rings.pushCpl (r : Rings) (w : Word) (q : Nat) (full : Bool) : Rings :=
  { r with
    cpl := ((w, q) :: r.cpl).take 1024
    cplWr := (r.cplWr + 1) % 2 ^ 32
    cplRd := if full then (r.cplRd + 1) % 2 ^ 32 else r.cplRd
    cplLost := if full then (r.cplLost + 1) % 2 ^ 32 else r.cplLost }

/-- The record numbered `k` of a ring whose newest record is numbered `wr − 1`. -/
def ringAt {α : Type} (l : List α) (wr k : Nat) : Option α := l[(wr + 2 ^ 32 - 1 - k) % 2 ^ 32]?

/-- R195, R197, R210: a completion record is posted; Q_CPL_LOSS, with the queue of the record lost, at the first loss and at every
1,024th after it. Log entry 97 (DEDUCED). -/
def Mach.postCpl (m : Mach) (w : Word) (q : Nat) : Mach :=
  let full := decide (m.cplUnread = 1024)
  let lost := match ringAt m.rings.cpl m.rings.cplWr m.rings.cplRd with | some x => x.2 | none => q
  let m1 : Mach := { m with rings := m.rings.pushCpl w q full }
  let m2 := m1.when (full && m1.rings.cplLost % 1024 == 1) (·.post Ev.Q_CPL_LOSS lost m1.rings.cplLost)
  m2.when (decide (m2.rd F.Q_UNIT_CFG_CPL_HWM ≤ m2.cplUnread)) (·.setBit F.Q_IRQ_CPL_HWM)

/-! ### Numbers shown in a field -/

/-- A number as a field of `w` unsigned bits with `f` fraction bits shows it; free where the field cannot hold it.
Log entry 67 (DESIGN CHOICE). -/
def shownU (w f : Nat) (x : Rat) : Nat :=
  let k := toFixed f x
  if 0 ≤ k ∧ k < ((2 ^ w : Nat) : Int) then k.toNat else Config.outOfFormat w x % 2 ^ w

/-- A whole number as a field of `w` signed bits shows it; free where the field cannot hold it.
Log entry 67 (DESIGN CHOICE). -/
def shownS (w : Nat) (k : Int) : Int :=
  if satSigned w k = k then k else signedOf w (Config.outOfFormat w (k : Rat) % 2 ^ w)

/-! ### Inputs -/

/-- Whether general input `k` is active (R201), from levels `x`. -/
def Mach.giActiveIn (m : Mach) (x : InputLevels) (k : Nat) : Bool :=
  (bitOf x.gi.toNat k) == (m.rb F.Q_GI_CFG_POL k)

/-- Whether general input `k` is active now. -/
def Mach.giActive (m : Mach) (k : Nat) : Bool := m.giActiveIn m.inp k

/-- Whether LIMA_n (`b` false) or LIMB_n (`b` true) is active by its POL (R152), from levels `x`. -/
def Mach.limActiveIn (m : Mach) (x : InputLevels) (n : Nat) (b : Bool) : Bool :=
  if b then (bitOf x.limB.toNat n) == m.rb F.AX_LIM_CFG_POL_B n
  else (bitOf x.limA.toNat n) == m.rb F.AX_LIM_CFG_POL_A n

/-- Whether a limit input is active now. -/
def Mach.limActive (m : Mach) (n : Nat) (b : Bool) : Bool := m.limActiveIn m.inp n b

/-- Whether a limit input limits the positive direction (R152). -/
def Mach.limIsPos (m : Mach) (n : Nat) (b : Bool) : Bool := b != m.rb F.AX_LIM_CFG_SWAP n

/-- The input of the limit of one direction: `true` names LIMB_n. -/
def Mach.limOfDir (m : Mach) (n : Nat) (pos : Bool) : Bool := pos != m.rb F.AX_LIM_CFG_SWAP n

end Sys2Proof.Machine
end

