-- ==== Sys2Proof/Machine/Gate.lean ====
section
/-!
DEFINITION. The mode of a bridge at a moment (R134, R282 to R286): energised, forced, and the highest rank that applies; a channel
that takes its mode in the middle of a period (R284, R291).
-/

namespace Sys2Proof.Machine

/-- The number of the coil of channel `k` of bank `b` (R266). -/
def coilOf (b k : Nat) : Nat := 24 * b + k
/-- Whether a coil is its axis's coil b. -/
def isCoilB (K : Nat) : Bool := K % 2 == 1

/-- R134: the bridges of an axis in FAULT hold. -/
def Mach.faultHolds (m : Mach) (n : Nat) : Bool :=
  let c := m.rd F.AX_FAULT_CAUSE n
  m.rb F.AX_CFG_FAULT_HOLD n && !(m.ax n).coast && (c == 5 || c == 6 || c == 7 || c == 11)

/-- Whether engine `k` has no working unit (R410, R426): it is retired and ER does not stand in for it, or ER does and is retired.
Log entry 35 (DEDUCED). -/
def Mach.engineDown (m : Mach) (k : Nat) : Bool :=
  if m.rd F.FM_STATUS_ER_FOR = k then bitOf (m.rd F.KN_CORES_ENG) 8 else bitOf (m.rd F.KN_CORES_ENG) k
/-- Whether bank `b` has no working regulator. -/
def Mach.regDown (m : Mach) (b : Nat) : Bool :=
  if m.rd F.FM_STATUS_CRS_FOR = b then bitOf (m.rd F.KN_CORES_REG) 4 else bitOf (m.rd F.KN_CORES_REG) b

/-- Whether the bridges of an axis are energised (R132, R134). -/
def Mach.energised (m : Mach) (n : Nat) : Bool :=
  match (m.ax n).mode with
  | .off | .maquette => false
  | .fault => m.faultHolds n || ((m.ax n).recovering.isSome && !(m.ax n).coast)
  | _ => true

/-- The value of PW_SAFE in force (R283): none from the moment all three copies differ until a write stores them again. -/
def Bank.safeOf (x : Bank) : Option Nat :=
  if x.allDiff then none
  else if x.safe0 = x.safe1 ∨ x.safe0 = x.safe2 then some x.safe0
  else if x.safe1 = x.safe2 then some x.safe1
  else none

/-- Whether the safe pattern brakes an axis while it acts on it (R282, R286): it was braked when the pattern came into force, and is
not OFF or in MAQUETTE. -/
def Mach.braked (m : Mach) (n : Nat) : Bool :=
  bitOf (m.bank (bankOf n)).brake (n % 12) && (m.ax n).mode != .off && (m.ax n).mode != .maquette

/-- The reasons for which a bank is forced to its safe pattern (R284), as PW_SAFE_STAT.WHY. -/
def Mach.safeWhy (m : Mach) (b : Nat) : Nat :=
  let x := m.bank b
  b2n (m.rb F.PW_TRIP_STAT_LATCH && bitOf (m.rd F.PW_TRIP_CFG_BANKS) b) + 2 * b2n m.gasp + 4 * b2n x.ovForce
    + 8 * b2n m.dbgHalt + 16 * b2n x.clkStop

/-- A bank is forced to its safe pattern (R284). -/
def Mach.forced (m : Mach) (b : Nat) : Bool := m.safeWhy b != 0

/-- The row of the table of R285 in which a mode stands. -/
def BridgeMode.rank : BridgeMode → Nat
  | .passive => 1 | .brake => 2 | .off => 3 | .safeBrake => 4 | .safeCoast => 4 | .coast => 5 | .drive => 6

/-- The module has no gate supplies (R62, R63, R284). -/
def Mach.dead (m : Mach) : Bool := m.kn.phase == .off || m.kn.phase == .spent

/-- The bank safe pattern on the bridges of an axis (R282, R286). -/
def Mach.safeMode (m : Mach) (n : Nat) : BridgeMode := if m.braked n then .safeBrake else .safeCoast

/-- R285, R426: the highest row that applies to the bridges of an axis. -/
def Mach.bridge (m : Mach) (n : Nat) : BridgeMode :=
  let b := bankOf n
  if m.dead then .passive
  else if (m.bank b).clamp then .brake
  else if bitOf (m.rd F.PW_BFAULT_AX b) (n % 12) || (m.bank b).gateUv then .off
  else if m.forced b then m.safeMode n
  else if m.rb F.PW_VMON_STAT_UV_NOW b || m.testInstr then .coast
  else if (m.ax n).mode == .fault && m.rd F.AX_FAULT_CAUSE n == 3 then (if (m.ax n).coast then .coast else m.safeMode n)
  else if m.energised n && !m.regDown (bankOf n) then .drive
  else .coast

/-- What the bridge of channel `K` does: up to its next period start it keeps a state that has ended, where nothing above its axis's
own state and coast applies (R58, R285, R292). -/
def Mach.bridgeCh (m : Mach) (K : Nat) : BridgeMode :=
  let now := m.bridge (K / 2)
  match (m.coil K).tail with
  | some t => if 5 ≤ now.rank ∧ t.rank < now.rank then t else now
  | none => now

/-- The time now in cycles of the PWM domain, four to a timestamp unit. -/
def Mach.cyc (m : Mach) : Nat := 4 * (m.clk.tick * 1000 + m.clk.sub)

/-- The bridge-state segment that a mode stands for, where it is not the period's own drive. -/
def BridgeMode.seg : BridgeMode → Option Int
  | .brake | .safeBrake => some 3
  | .drive => none
  | _ => some 2

/-- R284, R291: a channel takes a state at once, in the middle of a period or of a dead time: what the period had still to do is
dropped. -/
def Mach.cutCoil (m : Mach) (K : Nat) : Mach :=
  match (m.bridgeCh K).seg with
  | none => m
  | some s =>
    m.modCoil K fun c =>
      let t := max c.t0 m.cyc
      { c with segs := ((t, s) :: c.segs.filter (·.1 ≤ t)).take 24 }

/-- The channels of a bank take the states that now apply to them. -/
def Mach.cutBank (m : Mach) (b : Nat) : Mach := (List.range 24).foldl (fun m k => m.cutCoil (coilOf b k)) m

/-- The channels of an axis take the states that now apply to them. -/
def Mach.cutAxis (m : Mach) (n : Nat) : Mach := (m.cutCoil (2 * n)).cutCoil (2 * n + 1)

end Sys2Proof.Machine
end

