-- ==== Sys2Proof/Machine/Axis.lean ====
section
/-!
DEFINITION. What happens to an axis: its state as commands see it, retiring its commands, entering OFF, HOLD, ESTOP and
FAULT (R132 to R137, R151, R185), leaving FOLLOW (R229), and the armature whose member leaves its path (R218, R219).
-/

namespace Sys2Proof.Machine

/-- The commanded position of R143 as microsteps: rounded to Q40.24. -/
def cmdPos (p : Rat) : Rat := ofFixed 24 (toFixed 24 p)

/-- The commanded velocity of R143: rounded to Q32.16. -/
def cmdVel (v : Rat) : Rat := ofFixed 16 (toFixed 16 v)

/-- The state by which commands are judged: the sub-state in MAQUETTE (R164). -/
def Axis.eff (a : Axis) : AxMode := if a.mode = .maquette then a.sub else a.mode

/-- Sets the state, or the sub-state of an axis in MAQUETTE. -/
def Axis.setEff (a : Axis) (x : AxMode) : Axis :=
  if a.mode = .maquette then { a with sub := x } else { a with mode := x }

/-- The opcode of a command word. -/
def opcOf (w : Word) : Nat := bitsOf w.toNat 120 8
/-- The flags of a command word. -/
def flgOf (w : Word) : Nat := bitsOf w.toNat 112 8
/-- The tag of a command word. -/
def tagOf (w : Word) : Nat := bitsOf w.toNat 96 16
/-- P1 of a command word. -/
def p1Of (w : Word) : Nat := bitsOf w.toNat 64 32
/-- P0 of a command word. -/
def p0Of (w : Word) : Nat := bitsOf w.toNat 0 64
/-- The profile slot a command word names (R169). -/
def profOf (w : Word) : Nat := bitsOf w.toNat 116 4
/-- FLG.BARRIER. -/
def isBarrier (w : Word) : Bool := bitOf (flgOf w) 0
/-- FLG.IRQ. -/
def isIrq (w : Word) : Bool := bitOf (flgOf w) 1
/-- FLG.REL. -/
def isRel (w : Word) : Bool := bitOf (flgOf w) 2
/-- FLG.BLEND. -/
def isBlend (w : Word) : Bool := bitOf (flgOf w) 3

/-- Axis-class opcodes (R170). -/
def axisClass (opc : Nat) : Bool := decide (1 ≤ opc ∧ opc ≤ 0x13)

/-! ### Retiring -/

/-- A part of a dispatched command ends with `st`; with its last part the command retires at tick boundary `at_`
(R184), with the largest status of its parts. Log entry 71 (DEDUCED). -/
def InFlight.endPart (e : InFlight) (st at_ : Nat) : InFlight :=
  if e.done.isSome then e
  else if e.parts ≤ 1 then { e with parts := 0, slots := 0, done := some (max e.worst st, at_) }
  else { e with parts := e.parts - 1, worst := max e.worst st }

/-- A command an engine held ends its part. -/
def Mach.retire (m : Mach) (c : MotionCmd) (st at_ : Nat) : Mach :=
  match c.id with
  | none => m
  | some k => m.modQ c.q fun q =>
      { q with inflight := q.inflight.map fun e => if e.id = k then e.endPart st at_ else e }

/-- Retires a list of commands. -/
def Mach.retireAll (m : Mach) (cs : List MotionCmd) (st at_ : Nat) : Mach := cs.foldl (·.retire · st at_) m

/-- R185: the in-flight motion command retires with `st` at boundary `at_`, lookahead commands with 0x85; the segment is left as it is.
Log entry 72 (DEDUCED). -/
def Mach.dropMotion (m : Mach) (n st at_ : Nat) : Mach :=
  let a := m.ax n
  let m1 := (m.retireAll a.cmds st at_).retireAll a.ahead 0x85 at_
  m1.modAx n fun a => { a with cmds := [], ahead := [] }

/-! ### Segments -/

/-- The state of a segment at boundary `t` (R143, R144): the start before it, the exact target at the end of a
positioning segment, a cruise past the end of a VEL's ramp. A positioning segment whose next one has been dropped goes on at its end
velocity until its stop begins (R149, R151, R217). Log entry 139 (DEDUCED). -/
def Seg.at (g : Seg) (t : Nat) : Kin :=
  if t ≤ g.t0 then g.start
  else
    let k := t - g.t0
    match g.kind with
    | .velocity => evalPhases g.start g.phases (k : Rat)
    | .position =>
      if phaseTicks g.phases ≤ k then
        { p := ofFixed 24 g.target + ((k - phaseTicks g.phases : Nat) : Rat) * tickT * g.vEnd, v := g.vEnd, a := 0 }
      else evalPhases g.start g.phases (k : Rat)
    | .stopping =>
      if phaseTicks g.phases ≤ k then { p := (endOf g.start g.phases).p, v := 0, a := 0 }
      else evalPhases g.start g.phases (k : Rat)

/-- A stop part from the state `s` at boundary `B` (R148). -/
def stopSeg (lim : Lim) (s : Kin) (B prof : Nat) : Seg :=
  { kind := .stopping, start := s, phases := planStop lim s, t0 := B, target := 0, vEnd := 0, prof := prof, lim := lim, revAt := none
    tail := 0, status := 0 }

/-- The boundary at which a segment's phases end. -/
def Seg.endTick (g : Seg) : Nat := g.t0 + phaseTicks g.phases

/-- The state at a fractional instant `k` ticks after the segment's start (R159). -/
def Seg.atInstant (g : Seg) (k : Rat) : Kin :=
  if k ≤ 0 then g.start
  else if g.kind ≠ .velocity ∧ (phaseTicks g.phases : Rat) ≤ k then g.at g.endTick
  else evalPhases g.start g.phases k

/-- The limits of a profile slot, widened; a slot 7 whose DEC is zero acts as if DEC were 0x009C_4000 (R138, R139). A write
to a slot holds for the segment that starts at the next boundary (R140). Log entry 94 (DEDUCED). -/
def Mach.limOf (m : Mach) (n k : Nat) : Lim :=
  let dec := m.rdNew F.AX_PROF_DEC n k
  { V := ofFixed 9 (min (m.rdNew F.AX_PROF_VMAX n k) 0x9C400000 : Nat)
    A := (m.rdNew F.AX_PROF_ACC n k : Nat)
    D := if k = 7 ∧ dec = 0 then (0x009C4000 : Nat) else (dec : Nat)
    J := ((m.rdNew F.AX_PROF_JERK n k * 256 : Nat) : Rat) }

/-- R139: a slot whose VMAX, ACC or DEC is zero is unusable; the DEC of slot 7 never makes it so. -/
def Mach.profUsable (m : Mach) (n k : Nat) : Bool :=
  m.rdNew F.AX_PROF_VMAX n k != 0 && m.rdNew F.AX_PROF_ACC n k != 0 && (k == 7 || m.rdNew F.AX_PROF_DEC n k != 0)

/-- The hold current of R162. -/
def Mach.iRun (m : Mach) (n : Nat) : Nat := min (m.rd F.AX_CUR_IRUN n) 0x4800
def Mach.iHold (m : Mach) (n : Nat) : Nat := m.iRun n * min (m.rd F.AX_CUR_HOLD_PCT n) 100 / 100

/-- The first tick boundary at least 1 µs (50 units) after now (R151, R153). -/
def Mach.safeBoundary (m : Mach) : Nat := if m.clk.sub + 50 ≤ 1000 then m.clk.tick + 1 else m.clk.tick + 2

/-- The boundary from which a path value that the owner has not computed yet can change (R218): the owner computes
boundary t + 2 in its slot of tick t. -/
def Mach.pathBoundary (m : Mach) (owner : Nat) : Nat :=
  if m.clk.sub + 50 ≤ (owner % 6) * 1666 / 10 then m.clk.tick + 2 else m.clk.tick + 3

/-! ### Changes of state -/

/-- Marks the axis position-uncertain (R345). -/
def Mach.uncertain (m : Mach) (n : Nat) : Mach := m.modAx n fun a => { a with posUnc := true }

/-- The standstill of R163 begins at boundary `t`. -/
def Axis.beginStill (a : Axis) (t : Nat) : Axis := { a with still := some t, ramp0 := none, redDone := false }

/-- IRUN is restored (R163); a HOLD override ends (R171). -/
def Axis.endStill (a : Axis) : Axis :=
  { a with still := none, ramp0 := none, redDone := false, holdOvr := none, keepRun := false }

/-- An axis takes a motion that begins at boundary `B`; one in HOLD stays there until then (R133, R144). -/
def Axis.moveFrom (a : Axis) (B : Nat) : Axis :=
  if a.eff = .hold then
    { a.endStill with fresh := some { at_ := B, still := a.still, ramp0 := a.ramp0, redDone := a.redDone, holdOvr := a.holdOvr
                                      keepRun := a.keepRun } }
  else a.endStill

/-- The axis as boundary `B` shows it: a motion taken in HOLD shows from the boundary at which it begins (R133, R163, R215). -/
def Axis.shown (a : Axis) (B : Nat) : Axis :=
  match a.fresh with
  | some f =>
    if B < f.at_ then
      { a.setEff .hold with seg := none, group := none, still := f.still, ramp0 := f.ramp0, redDone := f.redDone, holdOvr := f.holdOvr
                            keepRun := f.keepRun }
    else a
  | none => a

/-- The segment whose goal the in-flight command has: the one that runs, or the one to which a stall retry goes back (R147, R343). -/
def Axis.aim (a : Axis) : Option Seg :=
  match a.seg with
  | some g => if g.kind = .stopping then a.retry.goal else some g
  | none => a.retry.goal

/-- A follower's engagement ends as its axis leaves FOLLOW: a command still synchronising retires with 0x01 at boundary `at_` (R229), an
engagement by FB_FOLLOW clears EN and is posted (R378). The law stays until it is dropped. -/
def Mach.followEnd (m : Mach) (n at_ : Nat) : Mach :=
  match (m.ax n).follow with
  | none => m
  | some f =>
    let m1 := match f.cmd with
      | some c => m.retire c 0x01 at_
      | none => m
    let m2 := match f.port with
      | some p => (m1.clrFld F.FB_FOLLOW_EN p).post Ev.FB_FOLLOW_OFF p n
      | none => m1
    let m3 := m2.modAx n fun a => { a with follow := some { f with cmd := none, port := none } }
    m3.each 4 fun m r => if m.rd F.GR_REG_CFG_AXIS r = n then m.modRegch r fun c => { c with pending := 0 } else m

/-- R229, R235: the axis leaves FOLLOW and the law is dropped. -/
def Mach.leaveFollow (m : Mach) (n at_ : Nat) : Mach := (m.followEnd n at_).modAx n fun a => { a with follow := none }

/-- Ends a homing with a failure code (R161): FAIL, CODE and the event; the command retires with the motion.
Log entry 51 (DEDUCED). -/
def Mach.homeFail (m : Mach) (n code : Nat) : Mach :=
  (((m.setBit F.AX_HOME_STAT_FAIL n).wr F.AX_HOME_STAT_CODE code n).wr F.AX_HOME_STAT_PHASE 0 n).post Ev.AX_HOME_FAIL n code

/-- A homing that its axis's leaving MOVE cuts off ends as aborted (code 3). Log entry 22 (DEDUCED). -/
def Mach.homeCut (m : Mach) (n : Nat) : Mach :=
  match (m.ax n).home with
  | none => m
  | some h => ((if h.failCode = 0 then m.homeFail n 3 else m)).modAx n fun a => { a with home := none }

/-- A cause that changes nothing is posted (R134, R136, R137). Log entry 77 (DEDUCED). -/
def Mach.postCause (m : Mach) (n cause : Nat) (estop : Bool) : Mach :=
  m.post Ev.AX_CAUSE_POSTED n (cause + 256 * b2n estop)

/-- The trim loop stops, and its output with it (R236, R238). Log entry 72 (DEDUCED). -/
def Mach.trimStop (m : Mach) (n : Nat) : Mach :=
  ((m.modAx n fun a => { a with trim := .off }).clrFld F.GR_FSTAT_TRIM_ON n).wrS F.GR_TRIM_OUT_U 0 n

/-- Waiting ENABLE commands retire at boundary `at_` (R135). -/
def Mach.endEnable (m : Mach) (n st at_ : Nat) : Mach :=
  let a := m.ax n
  (m.retireAll a.enWait st at_).modAx n fun a => { a with enWait := [] }

/-- R153, R342: the commanded position holds its value at boundary `at_`; the command retires with `st` there. A stop that is due
already stays due (R137). Log entry 113 (DEDUCED). -/
def Mach.hardStopAt (m : Mach) (n at_ st : Nat) : Mach :=
  m.modAx n fun a => { a with hardAt := match a.hardAt with
    | some (t, s) => some (min t at_, max s st)
    | none => some (at_, st) }

/-- Whether a GROUP_MOVE of the armature is in flight (R211, R238): dispatched, and not retired at a boundary passed. -/
def Mach.groupInFlight (m : Mach) (g : Nat) : Bool :=
  (m.qu (48 + g)).inflight.any fun e =>
    opcOf e.w == 0x10 && match e.done with | some (_, t) => decide (m.clk.tick < t) | none => true

/-- The armature whose GROUP_MOVE the axis is a running member of (R177). -/
def Mach.groupOf (m : Mach) (n : Nat) : Option Nat := (m.ax n).group

/-- The engine of the armature's lowest-numbered member owns the path (R211). -/
def Arm.owner (a : Arm) : Nat := match a.members with | [] => 0 | x :: _ => x.ax

/-- An axis enters ESTOP by itself (R151): its command retires, the emergency plan is due at the safe boundary.
Log entry 98 (DEDUCED). -/
def Mach.estopAxis (m : Mach) (n cause : Nat) (ownPlan : Bool) : Mach :=
  let st := if cause = 3 ∨ cause = 4 then 0x02 else 0x01
  let m1 := (m.homeCut n).dropMotion n st (m.clk.tick + 1)
  let m1' := m1.followEnd n (m.clk.tick + 1)
  let m2 := m1'.retireAll (m1'.ax n).stopCmds 0x01 (m.clk.tick + 1)
  let m3 := m2.modAx n fun a =>
    { a.setEff .estop with
      stopCmds := [], fresh := none, retry := { count := 0, waiting := false, vPct := none, goal := none }
      eb := if ownPlan then some m.safeBoundary else none }
  let m4 := ((m3.wr F.AX_FAULT_ESTOP_CAUSE cause n).setBit F.AX_FAULT_ESTOPPED n).clrFld F.LA_AX_STAT_RETRYING (n / 12) (n % 12)
  m4.post Ev.AX_ESTOP n cause

/-- R218: an ESTOP cause that reaches the members `own` (of them `n` first) of a running GROUP_MOVE stops the whole armature
along the path; the other members take cause ARMATURE. `skip` names a member that is leaving the path; one that has left it takes no cause.
Log entries 98 (DEDUCED), 139 (DEDUCED). -/
def Mach.groupEstop (m : Mach) (g n cause : Nat) (skip : Option Nat) (own : List Nat) : Mach :=
  let a := m.arm g
  if a.emergency then m
  else
    let st := if cause = 3 ∨ cause = 4 then 0x02 else 0x01
    let m1 := match a.cmd with
      | some c => m.retire c st (m.clk.tick + 1)
      | none => m
    let m2 := m1.retireAll a.ahead 0x85 (m.clk.tick + 1)
    let m3 := m2.modArm g fun a =>
      { a with emergency := true, stopping := false, cmd := none, ahead := [], ebAt := some (m.pathBoundary a.owner) }
    let m4 := m3.forAll (a.members.map (·.ax)) fun m k =>
      if skip = some k ∨ m.groupOf k ≠ some g then m
      else if (m.ax k).hardAt.isSome then m.postCause k (if own.contains k then cause else 8) true
      else m.estopAxis k (if own.contains k then cause else 8) false
    if skip.isSome then m4 else m4.post Ev.GR_PATH_ESTOP g (n + 256 * cause)

/-- Whether an ESTOP cause stops the axis (R133, R136): it moves, and no hard stop, which is more severe, is due (R137). -/
def Mach.stoppable (m : Mach) (n : Nat) : Bool :=
  let a := m.ax n
  a.hardAt.isNone && a.fresh.isNone && match a.eff with
    | .move | .follow | .stop => true
    | _ => false

/-- An ESTOP cause reaches an axis, and with it the axes `own` (R133, R136, R151, R218). Log entry 77 (DEDUCED). -/
def Mach.estopWith (m : Mach) (n cause : Nat) (own : List Nat) : Mach :=
  if m.stoppable n then
    match m.groupOf n with
    | some g => if (m.arm g).run.isSome then m.groupEstop g n cause none own else m.estopAxis n cause true
    | none => m.estopAxis n cause true
  else m.postCause n cause true

/-- An ESTOP cause reaches one axis. -/
def Mach.estop (m : Mach) (n cause : Nat) : Mach := m.estopWith n cause [n]

/-- One ESTOP cause reaches several axes at once; a member stopped with its armature takes the cause as its own (R218). -/
def Mach.estopAll (m : Mach) (ns : List Nat) (cause : Nat) : Mach :=
  m.forAll ns fun m' n => if m.stoppable n && (m'.ax n).eff == .estop then m' else m'.estopWith n cause ns

/-- R219: a member leaves its path at once; the others stop along it. Log entry 24 (DEDUCED). -/
def Mach.breakPath (m : Mach) (n code : Nat) : Mach :=
  match m.groupOf n with
  | none => m
  | some g =>
    let m1 := m.modAx n fun a => { a with group := none }
    let m2 := (m1.setBit F.GR_STATUS_BROKEN g).post Ev.GR_PATH_BROKEN g (n + 256 * code)
    let m3 := m2.groupEstop g n 8 (some n) []
    m3.modArm g fun a =>
      { a with members := a.members.filter (·.ax ≠ n), mfault := a.mfault || decide (code < 0xFE) }

/-- R225, R239: followers of a master axis that enters OFF or FAULT take ESTOP cause ARMATURE. Log entry 154 (DEDUCED). -/
def Mach.masterLost (m : Mach) (n : Nat) : Mach :=
  m.each 48 fun m k =>
    match (m.ax k).follow with
    | some f =>
      if f.sel = n then ((m.setBit F.GR_FSTAT_MLOSS k).post Ev.GR_MASTER_LOST k f.sel).estop k 8 else m
    | none => m

/-- What entering OFF or FAULT ends for an axis, beside its commands. -/
def Axis.atRest (a : Axis) : Axis :=
  { a with
    seg := none, stopCmds := [], eb := none, hardAt := none, pendFault := none, home := none, fresh := none, coast := false
    nxt := { p := a.cur.p, v := 0, a := 0 }, prevEnd := cmdPos a.cur.p, prevVel := false
    still := none, ramp0 := none, redDone := false, holdOvr := none, keepRun := false, group := none
    recovering := none, retry := { count := 0, waiting := false, vPct := none, goal := none }, stallRun := 0 }

/-- R88: an axis that enters FAULT during the homing of an autostart routine has failed it. -/
def Mach.homeFaulted (m : Mach) (n : Nat) : Mach :=
  let auto := (m.ax n).cmds.any fun c => (m.qu c.q).inflight.any fun e => e.auto_ && decide (c.id = some e.id)
  if (m.ax n).home.isSome && auto && m.kn.phase == .run && !m.kn.step16 then
    { m with kn := { m.kn with homeFail := putBits m.kn.homeFail n 1 1 } }
  else m

/-- R55: what a bank undervoltage keeps of an axis; a share of a GROUP_MOVE is not kept (R220). -/
def Axis.keep (a : Axis) : Axis :=
  if a.group.isSome then
    { a with kept := some { mode := a.eff, cmds := [], ahead := [], seg := none, stops := [], home := none, retry := a.retry } }
  else
    { a with kept := some { mode := a.eff, cmds := a.cmds, ahead := a.ahead, seg := if a.home.isSome then none else a.aim
                            stops := a.stopCmds, home := a.home, retry := a.retry }
             cmds := [], ahead := [], stopCmds := [], home := none }

/-- R55, R135: what is kept of an axis's commands ends: those in flight with 0x01, those looked ahead with 0x85, a homing as aborted. -/
def Mach.keptEnd (m : Mach) (n at_ : Nat) : Mach :=
  match (m.ax n).kept with
  | none => m
  | some k =>
    let m1 := ((m.retireAll (k.cmds ++ k.stops) 0x01 at_).retireAll k.ahead 0x85 at_).modAx n fun a => { a with kept := none }
    match k.home with
    | some h => if h.failCode = 0 then m1.homeFail n 3 else m1
    | none => m1

/-- An axis enters FAULT (R134): an axis not at standstill is marked position-uncertain; every cause but 0x01 ends its
commands; cause 0x01 keeps them (R55). A waiting ENABLE retires at boundary `at_` (R135); a cause that waited for the ramp's end is
posted (R137). Log entry 72 (DEDUCED). -/
def Mach.enterFault (m : Mach) (n cause at_ : Nat) : Mach :=
  let before := ((m.ax n).shown m.clk.tick).eff
  let moving := decide ((m.ax n).cur.v ≠ 0)
  let waits := (m.ax n).pendFault
  let mh := m.homeFaulted n
  let m0 := if cause = 1 then mh.modAx n Axis.keep else (mh.homeCut n).dropMotion n 0x01 (m.clk.tick + 1)
  let m1 := m0.retireAll (m0.ax n).stopCmds 0x01 (m.clk.tick + 1)
  let m2 := m1.breakPath n cause
  let m3 := ((m2.endEnable n 0x01 at_).leaveFollow n (m.clk.tick + 1)).trimStop n
  let m4 := m3.modAx n fun a => ({ a with posUnc := a.posUnc || moving }.atRest).setEff .fault
  let m5 := ((m4.wr F.AX_FAULT_CAUSE cause n).setBit F.AX_FAULT_FAULTED n).clrFld F.LA_AX_STAT_RETRYING (n / 12) (n % 12)
  let m6 := (m5.cutAxis n).post Ev.AX_FAULT n (cause + 256 * before.code)
  (match waits with | some c => m6.postCause n c false | none => m6).masterLost n

/-- R134: the causes whose bridges coast in FAULT whatever else applies. -/
def coastCause (cause : Nat) : Bool := cause == 0x01 || cause == 0x04 || cause == 0x08 || cause == 0x09 || cause == 0x0A

/-- A fault cause with path "immediate" reaches an axis (R133, R134, R137); a second undervoltage in FAULT 0x01 leaves what R56
recovers. Log entry 77 (DEDUCED). -/
def Mach.fault (m : Mach) (n cause : Nat) : Mach :=
  match (m.ax n).eff with
  | .off | .maquette => m
  | .fault =>
    let again := cause == 1 && m.rd F.AX_FAULT_CAUSE n == 1
    ((m.modAx n fun a => { a with coast := a.coast || (coastCause cause && !again) }).cutAxis n).postCause n cause false
  | _ => m.enterFault n cause (m.clk.tick + 1)

/-- A fault cause with path "after ESTOP" waits for the end of the ramp; one that finds another waiting is posted (R133, R137). -/
def Mach.faultWaits (m : Mach) (n cause : Nat) : Mach :=
  match (m.ax n).eff, (m.ax n).pendFault with
  | .off, _ | .maquette, _ => m
  | .fault, _ | _, some _ => m.postCause n cause false
  | _, none => m.modAx n fun a => { a with pendFault := some cause }

/-- A fault cause with path "after ESTOP", which comes with its ESTOP cause, reaches the axes `ns` at once (R133, R134, R349, R375). -/
def Mach.faultAfterEstop (m : Mach) (ns : List Nat) (fcause ecause : Nat) : Mach :=
  let hit := ns.filter fun n => match (m.ax n).eff with | .off | .maquette | .fault => false | _ => true
  (m.estopAll hit ecause).forAll ns fun m n => m.faultWaits n fcause

/-- R242: a coil that is energised again later starts with the requested resolution and mode. -/
def Mach.coilsOff (m : Mach) (n : Nat) : Mach :=
  let off (c : Coil) : Coil := { c with on := false, slew := none, mid := false }
  (m.modCoil (2 * n) off).modCoil (2 * n + 1) off

/-- An axis enters OFF at once (R135): the position value is kept; leaving a state with energised bridges marks it
position-uncertain. Its channels coast from that moment (R286). -/
def Mach.enterOff (m : Mach) (n : Nat) (st : Nat) : Mach :=
  let a := m.ax n
  let before := (a.shown m.clk.tick).eff
  let t := m.clk.tick + 1
  let m1 := ((m.homeCut n).dropMotion n st t).retireAll a.stopCmds 0x01 t
  let m2 := (m1.breakPath n 0xFE).keptEnd n t
  let m3 := ((m2.endEnable n 0x01 t).leaveFollow n t).trimStop n
  let m4 := m3.modAx n fun a => ({ a with posUnc := a.posUnc || m.energised n }.atRest).setEff .off
  (((m4.cutAxis n).coilsOff n).post Ev.AX_DISABLED n before.code).masterLost n

/-- A DISABLE (R133, R164): no effect in OFF. -/
def Mach.disable (m : Mach) (n : Nat) : Mach :=
  match (m.ax n).eff with
  | .off | .maquette => m
  | _ => m.enterOff n 0x01

/-- An axis comes to rest in HOLD at boundary `t` after a segment, STOP or ESTOP (R133, R163). -/
def Mach.enterHold (m : Mach) (n t : Nat) : Mach :=
  m.modAx n fun a =>
    { (a.setEff .hold).beginStill t with
      seg := none, eb := none, hardAt := none, group := none, prevEnd := cmdPos a.cur.p, prevVel := false, fresh := none
      cur := { a.cur with v := 0, a := 0 }, nxt := { p := a.cur.p, v := 0, a := 0 }
      retry := { count := 0, waiting := false, vPct := none, goal := none } }

/-- The axis's ramp has ended at boundary `t`: HOLD, or FAULT where a cause waits for it (R133). -/
def Mach.rampEnd (m : Mach) (n t : Nat) : Mach :=
  match (m.ax n).pendFault with
  | some c => (m.modAx n fun a => { a with pendFault := none, cur := { a.cur with v := 0, a := 0 } }).enterFault n c t
  | none => m.enterHold n t

/-! ### Enabling -/

/-- ENABLE is refused (R68, R135, R286): the trip latch, a bank forced to its safe pattern or under voltage, an axis the start left
OFF, a boundary-scan test instruction since the last reset. -/
def Mach.enableRefused (m : Mach) (n : Nat) : Bool :=
  m.rb F.PW_TRIP_STAT_LATCH || m.forced (bankOf n) || m.testInstr || m.rb F.PW_VMON_STAT_UV_NOW (bankOf n)
    || (if n < 32 then bitOf (m.reg .KN_AXOFF_LO 0 0) n else bitOf (m.reg .KN_AXOFF_HI 0 0) (n - 32))

/-- An axis enters ARMING (R133). -/
def Mach.enterArming (m : Mach) (n : Nat) : Mach :=
  m.modAx n fun a => { a.setEff .arming with arming0 := m.clk.tick }

end Sys2Proof.Machine
end

