-- ==== Sys2Proof/Machine/Engine.lean ====
section
/-!
DEFINITION. What an engine does with the commands it takes: the legality of R177, the start of a motion segment
(R144 to R149, R154, R156), STOP, HOLD, SET_POS, homing (R157 to R161) and retargets (R147).
-/

namespace Sys2Proof.Machine

/-- The entries of the legality table of R177. -/
inductive Verdict where
  | accept | noEffect | reject
  deriving DecidableEq, Repr

/-- R177: an axis-class opcode against the state of its axis; `grp` says the axis moves as a member of a GROUP_MOVE. -/
def legal (opc : Nat) (st : AxMode) (grp : Bool) : Verdict :=
  match opc, st with
  | 0x04, .off | 0x04, .arming | 0x04, .hold => .noEffect
  | 0x04, .move => if grp then .reject else .accept
  | 0x04, .follow | 0x04, .stop => .accept
  | 0x04, _ => .reject
  | 0x05, .hold | 0x06, .hold => .accept
  | 0x05, _ | 0x06, _ => .reject
  | 0x07, .off | 0x07, .hold => .accept
  | 0x07, _ => .reject
  | 0x08, .off | 0x08, .arming => .accept
  | 0x08, .fault => .reject
  | 0x08, _ => .noEffect
  | 0x09, .off => .noEffect
  | 0x09, _ => .accept
  | 0x11, .hold | 0x11, .follow | 0x12, .hold | 0x12, .follow => .accept
  | 0x11, .move | 0x12, .move => if grp then .reject else .accept
  | 0x13, .fault => .reject
  | 0x13, _ => .accept
  | 0x10, .hold => .accept
  | 0x10, .move => if grp then .accept else .reject
  | _, .hold => .accept
  | _, .move => if grp then .reject else .accept
  | _, _ => .reject

/-- The state of the plan in force at boundary `t`. -/
def Axis.planAt (a : Axis) (t : Nat) : Kin :=
  match a.seg with
  | some g => g.at t
  | none => a.nxt

/-- A Q40.24 raw value as microsteps, read as a signed number. -/
def posOf (x : Nat) : Rat := ofFixed 24 (signedOf 64 x)

/-- The target nearest to `p` among those equal to `raw` modulo 2⁶⁴ (R146), in microsteps. -/
def absTarget (p : Rat) (raw : Nat) : Rat := p + wrapPos (posOf raw - p)

/-- Whether the soft limits act (R156). -/
def Mach.slimOn (m : Mach) (n : Nat) : Bool :=
  m.rb F.AX_CFG_SLIM_EN n && decide (m.rdS F.AX_SLIM_LO n < m.rdS F.AX_SLIM_HI n)

/-- A position as the plain signed Q40.24 number that soft limits compare (R156). -/
def softNum (p : Rat) : Rat := wrapPos p

/-- The soft limits as microsteps. -/
def Mach.slimLo (m : Mach) (n : Nat) : Rat := ofFixed 24 (m.rdS F.AX_SLIM_LO n)
def Mach.slimHi (m : Mach) (n : Nat) : Rat := ofFixed 24 (m.rdS F.AX_SLIM_HI n)

/-- R154: the latch of the limit of one direction is set. -/
def Mach.latched (m : Mach) (n : Nat) (pos : Bool) : Bool :=
  if m.limOfDir n pos then m.rb F.AX_LIM_STAT_LATCH_B n else m.rb F.AX_LIM_STAT_LATCH_A n

/-- R156: what becomes of a motion from `p` toward `t`: refused, run as given, or replaced by a limit (false LO). -/
inductive Soft where
  | refuse | asGiven | limit (hi : Bool) (t : Rat)
  deriving DecidableEq, Repr

/-- R156: the soft limits judge a positioning target. -/
def Mach.softTarget (m : Mach) (n : Nat) (p t : Rat) : Soft :=
  if !m.slimOn n then .asGiven
  else
    let x := softNum p
    let y := softNum t
    if m.slimHi n < x ∧ 0 ≤ t - p then .refuse
    else if x < m.slimLo n ∧ t - p ≤ 0 then .refuse
    else if m.slimHi n < y then .limit true (t + (m.slimHi n - y))
    else if y < m.slimLo n then .limit false (t + (m.slimLo n - y))
    else .asGiven

/-- A positioning command's own target from the start state `s` (R146): none where a MOVE_REL is out of range. -/
def Mach.targetOf (m : Mach) (n : Nat) (s : Kin) (w : Word) : Option Rat :=
  let a := m.ax n
  if opcOf w = 0x02 then
    let base := if a.prevVel then cmdPos s.p else a.prevEnd
    let t := base + posOf (p0Of w)
    if ((2 ^ 39 : Nat) : Rat) ≤ ratAbs (t - s.p) then none else some t
  else if isRel w then some (cmdPos s.p + posOf (p0Of w))
  else some (absTarget s.p (p0Of w))

/-- The limits a motion command plans with: its slot's, with the speed of a retry in place of VMAX (R343). -/
def Mach.cmdLim (m : Mach) (n k : Nat) : Lim :=
  let l := m.limOf n k
  match (m.ax n).retry.vPct with
  | some pct => { l with V := ofFixed 9 (min (m.rdNew F.AX_PROF_VMAX n k) 0x9C400000 * pct / 100 : Nat) }
  | none => l

/-- R149, R154, R156: the distance of a command that starts at `t`: none where it would retire without motion. -/
def Mach.nextDist (m : Mach) (n : Nat) (t : Rat) (w : Word) : Rat :=
  let t2 :=
    if opcOf w = 0x02 then t + posOf (p0Of w)
    else if isRel w then cmdPos t + posOf (p0Of w)
    else absTarget t (p0Of w)
  if t2 = t ∨ m.latched n (decide (t < t2)) then 0
  else match m.softTarget n t t2 with
    | .refuse => 0
    | .asGiven => t2 - t
    | .limit _ t' => t' - t

/-- R149: the end velocity of a blending segment to `t` from `s` with the limits `lim`: into the next dispatched command where it moves
in the direction of the segment's P1 to P7. Log entry 71 (DEDUCED). -/
def Mach.blendInto (m : Mach) (n : Nat) (s : Kin) (lim : Lim) (w : Word) (t : Rat) : Rat :=
  if !isBlend w then 0
  else
    match (m.ax n).ahead with
    | [] => 0
    | c :: _ =>
      let d := m.nextDist n t c.w
      if 0 < d * planDir lim s t then planReach lim s t (blendVel lim (m.limOf n (profOf c.w)) (ratAbs d)) else 0

/-- Puts a positioning segment in force from boundary `B`. -/
def Mach.setPosSeg (m : Mach) (n B : Nat) (s : Kin) (prof : Nat) (lim : Lim) (t ve : Rat) (st : Nat) : Mach :=
  let plan := planPos lim s t ve
  m.modAx n fun a =>
    { (a.moveFrom B).setEff .move with
      seg := some { kind := .position, start := s, phases := plan.phases, t0 := B, target := toFixed 24 t
                    vEnd := planDir lim s t * ve, prof := prof, lim := lim, revAt := plan.revAt, tail := plan.tail, status := st }
      prevEnd := t, prevVel := false }

/-- The last command in flight is a VEL. -/
def Axis.velCmd (a : Axis) : Bool := match a.cmds.getLast? with | some c => opcOf c.w == 0x03 | none => false

/-- R146, R147: the command in flight is replanned to a position; a VEL stays the previous command of a MOVE_REL. -/
def Mach.replanPos (m : Mach) (n B : Nat) (s : Kin) (prof : Nat) (lim : Lim) (t : Rat) (st : Nat) : Mach :=
  (m.setPosSeg n B s prof lim t 0 st).modAx n fun a => { a with prevVel := a.velCmd }

/-- Puts a VEL segment in force from boundary `B` (R145). -/
def Mach.setVelSeg (m : Mach) (n B : Nat) (s : Kin) (prof : Nat) (lim : Lim) (vt : Rat) : Mach :=
  let above := decide (lim.V < ratAbs vt)
  let v := if above then sgn vt * lim.V else vt
  let plan := planVel lim s v
  m.modAx n fun a =>
    { (a.moveFrom B).setEff .move with
      seg := some { kind := .velocity, start := s, phases := plan.phases, t0 := B, target := 0
                    vEnd := v, prof := prof, lim := lim, revAt := plan.revAt, tail := plan.tail
                    status := if above then 0x02 else 0x00 }
      prevVel := true }

/-- The commanded velocity of a VEL (R171). -/
def velOf (w : Word) : Rat := ofFixed 16 (signedOf 48 (p0Of w))

/-- R144 to R149, R154, R156: a motion command starts its segment at boundary `B` from the state `s`, or retires without
motion at boundary `at_`. `fresh` says that it becomes the command in flight (a replan keeps the earlier ones too).
Log entry 113 (DEDUCED). -/
def Mach.startMotion (m : Mach) (n : Nat) (c : MotionCmd) (B at_ : Nat) (s : Kin) : Mach :=
  let prof := profOf c.w
  let lim := m.cmdLim n prof
  let keep (m : Mach) : Mach := m.modAx n fun a => { a with cmds := a.cmds ++ [c] }
  if opcOf c.w = 0x03 then
    let vt := velOf c.w
    if vt ≠ 0 ∧ m.latched n (decide (0 < vt)) then m.retire c 0x02 at_
    else if m.slimOn n && (decide (m.slimHi n < softNum s.p ∧ 0 < vt) || decide (softNum s.p < m.slimLo n ∧ vt < 0)) then
      m.retire c 0x02 at_
    else keep (m.setVelSeg n B s prof lim vt)
  else
    match m.targetOf n s c.w with
    | none => m.retire c 0x81 at_
    | some t =>
      if t ≠ s.p ∧ m.latched n (decide (s.p < t)) then m.retire c 0x02 at_
      else
        match m.softTarget n s.p t with
        | .refuse => m.retire c 0x02 at_
        | .asGiven => keep (m.setPosSeg n B s prof lim t (m.blendInto n s lim c.w t) 0x00)
        | .limit hi t' => keep ((m.setPosSeg n B s prof lim t' 0 0x02).post Ev.AX_SOFT_LIMIT n (b2n hi))

/-! ### Homing -/

/-- The level of a homing's switch or limit reference (R157, R158). -/
def Mach.homeRefActive (m : Mach) (n method : Nat) : Bool :=
  if method = 1 ∨ method = 3 then m.giActive (m.rd F.AX_HOME_CFG_SRC_GI n)
  else m.limActive n (m.limOfDir n (m.ax n).dirUsed)

/-- The search speed of a homing step, in microsteps/s. -/
def Mach.homeV (m : Mach) (n : Nat) (fast : Bool) : Rat :=
  ofFixed 9 (min (if fast then m.rd F.AX_HOME_VF_V n else m.rd F.AX_HOME_VS_V n) 0x9C400000 : Nat)

/-- Shows a homing step (R158). -/
def Mach.homePhase (m : Mach) (n ph : Nat) : Mach :=
  (m.modAx n fun a => { a with home := a.home.map fun h => { h with step := ph } }).wr F.AX_HOME_STAT_PHASE ph n

/-- A homing step runs at a speed in a direction (`up`: the direction DIR_USED) from boundary `B`. -/
def Mach.homeRun (m : Mach) (n B : Nat) (s : Kin) (h : Home) (fast up : Bool) : Mach :=
  let pos := (m.ax n).dirUsed == up
  let v := m.homeV n fast
  let lim : Lim := { m.limOf n h.prof with V := v }
  (m.setVelSeg n B s h.prof lim (if pos then v else -v)).modAx n fun a => { a with prevVel := false }

/-- A homing decelerates with a stop part of its slot (R158). -/
def Mach.homeStop (m : Mach) (n B : Nat) (s : Kin) (h : Home) : Mach :=
  m.modAx n fun a => { a with seg := some (stopSeg (m.limOf n h.prof) s B h.prof) }

/-- R160: a segment's positions shifted by `d`. -/
def Seg.shift (g : Seg) (d : Rat) : Seg :=
  { g with start := { g.start with p := g.start.p + d }, target := g.target + toFixed 24 d
           phases := g.phases.map fun ph => { ph with p := ph.p + d } }

/-- R160: the position reassigned by Δ: commanded position, target, plans, verification offset
(R348); the commutation offset keeps the address in force (R241). -/
def Mach.reassign (m : Mach) (n : Nat) (d : Rat) : Mach :=
  let sh (k : Kin) : Kin := { k with p := k.p + d }
  let m1 := m.modAx n fun a =>
    { a with cur := sh a.cur, nxt := sh a.nxt, prevEnd := a.prevEnd + d, posUnc := false
             latPosA := a.latPosA + d, latPosB := a.latPosB + d, seg := a.seg.map (·.shift d)
             plans := a.plans.map fun e => (e.1, e.2.1.map (·.shift d), sh e.2.2) }
  let ofs := m1.reg .LA_VER (n / 12) (n % 12)
  let m2 := m1.wr F.LA_VER_OFS (unsignedOf 64 ((bitsOf ofs 0 64 : Int) + toFixed 24 d)) (n / 12) (n % 12)
  m2.wr F.AX_COMM_OFS_OFS (unsignedOf 34 ((bitsOf (m2.reg .AX_COMM_OFS n 0) 0 64 : Int) - toFixed 24 d)) n

/-- R160: the end of a homing: coordinates assigned, HOMED set, the command retires at boundary `at_`. -/
def Mach.homeDone (m : Mach) (n at_ : Nat) (h : Home) : Mach :=
  let cap := posOf (m.rd F.AX_HOME_CAP_CAP_POS n)
  let d := posOf (m.rd F.AX_HOME_POS_POS n) - cap
  let m1 := (m.reassign n d).modAx n fun a => { a with homed := true, home := none }
  let m2 := ((m1.setBit F.AX_HOME_STAT_DONE n).wr F.AX_HOME_STAT_PHASE 0 n)
  let m3 := m2.retireAll (m2.ax n).cmds 0x00 at_
  (m3.modAx n fun a => { a with cmds := [] }).post Ev.AX_HOME_DONE n (b2n (m.ax n).dirUsed + 2 * h.method)

/-- R158: the slow approach begins; methods 5 and 6 run it alone. -/
def Mach.homeApproach (m : Mach) (n B : Nat) (s : Kin) (h : Home) : Mach :=
  (m.homeRun n B s h false true).homePhase n (if h.method = 5 then 5 else 4)

/-- R154, R156, R158: a HOME whose first motion is refused: its direction's latch is set and not suspended, or its start lies beyond a
soft limit that it would move further away from. `away` says that it begins with the back-off. Log entry 115 (DEDUCED). -/
def Mach.homeRefused (m : Mach) (n method : Nat) (away : Bool) (p : Rat) : Bool :=
  let pos := (m.ax n).dirUsed != away
  let suspended := !away && (method == 2 || method == 4)
  let soft := m.slimOn n && (if pos then decide (m.slimHi n < softNum p) else decide (softNum p < m.slimLo n))
  (!suspended && m.latched n pos) || soft

/-- R157, R158: a HOME command is taken at tick boundary `B − 1`. Log entry 115 (DEDUCED). -/
def Mach.startHome (m : Mach) (n : Nat) (c : MotionCmd) (B at_ : Nat) (s : Kin) : Mach :=
  let method := m.rd F.AX_HOME_CFG_METHOD n
  let h : Home := { prof := profOf c.w, method := method, step := 1, from_ := s.p, gone := 0, backFrom := none, captured := false, stopDue := false
                    failCode := 0 }
  let lowSal := m.rb F.KN_MCHAR_S_LOW_SAL n
  -- R332: from 15/16 of 256·VX on the induced-voltage observer is valid
  let vx : Rat := ((240 * max 1 (m.rd F.LA_OBS_CFG_VX (n / 12) (n % 12)) : Nat) : Rat)
  let away := decide (1 ≤ method ∧ method ≤ 4) && m.homeRefActive n method
  let m1 := ((m.clrFld F.AX_HOME_STAT_CODE n)).modAx n fun a =>
    { (a.moveFrom B).setEff .move with home := some h, cmds := [c] }
  if method = 7 ∨ (1 ≤ method ∧ m.rd F.AX_HOME_VS_V n = 0) ∨ (1 ≤ method ∧ method ≤ 4 ∧ m.rd F.AX_HOME_VF_V n = 0)
      ∨ (3 ≤ method ∧ method ≤ 5 ∧ 12 ≤ m.rd F.AX_HOME_CFG_SRC_FB n) then
    m.retire c 0x81 at_
  else if method = 6 ∧ lowSal ∧ m.homeV n false < vx then
    (m.homeFail n 4).retire c 0x82 at_
  else if method = 0 then
    let m2 := (m1.wr F.AX_HOME_CAP_CAP_POS (pubPos s.p) n).wr F.AX_HOME_CAP_TS (tickStamp B) n
    (m2.homeDone n at_ h).enterHold n B
  else if m.homeRefused n method away s.p then m.retire c 0x02 at_
  else if method ≤ 4 then
    if away then
      (m1.homeRun n B s h false false).homePhase n 3
    else (m1.homeRun n B s h true true).homePhase n 1
  else m1.homeApproach n B s h

/-- R161: a homing fails: the axis stops with a stop part, and the HOME retires where that begins, as R150 has it.
Log entry 22 (DEDUCED). -/
def Mach.homeAbandon (m : Mach) (n B code : Nat) : Mach :=
  match (m.ax n).home with
  | none => m
  | some h =>
    let s := (m.ax n).planAt B
    let m1 := ((m.homeFail n code).homeStop n B s h).retireAll (m.ax n).cmds 0x02 B
    m1.modAx n fun a => { a with home := none, cmds := [] }

/-- R158, R159: a reference is captured at position `p` with timestamp `ts`. In steps 1 and 4 the axis decelerates, from the
next boundary that the engine evaluates (R21, R22); a method that takes an index after its switch waits for the index.
Log entry 21 (DEDUCED). -/
def Mach.homeEdge (m : Mach) (n : Nat) (index : Bool) (p : Rat) (ts : Nat) : Mach :=
  match (m.ax n).home with
  | none => m
  | some h =>
    if h.failCode ≠ 0 ∨ h.stopDue then m
    else
      let due (m : Mach) (cap : Bool) : Mach := m.modAx n fun a => { a with home := some { h with captured := cap, stopDue := true } }
      let cap (m : Mach) : Mach := due ((m.wr F.AX_HOME_CAP_CAP_POS (pubPos p) n).wr F.AX_HOME_CAP_TS ts n) true
      let idx := h.method = 3 ∨ h.method = 4 ∨ h.method = 5
      if h.step = 1 ∧ !index then due m false
      else if h.step = 4 ∧ !index ∧ idx then m.homePhase n 5
      else if h.step = 4 ∧ !index then cap m
      else if h.step = 5 ∧ index then cap m
      else m

/-- A homing at the start of its slot of tick `t`: distance, limits and the back-off of step 3 (R158, R161).
Log entries 21 (DEDUCED), 23 (DEDUCED). -/
def Mach.homeSlot (m : Mach) (n : Nat) : Mach :=
  match (m.ax n).home with
  | none => m
  | some h =>
    let B := m.clk.tick + 1
    let s := (m.ax n).planAt B
    if h.stopDue then
      ((m.homeStop n B s h).modAx n fun a => { a with home := some { h with stopDue := false } }).homePhase n
        (if h.captured then 6 else 2)
    else if h.failCode ≠ 0 ∨ h.captured then m
    else
      let far := m.rd F.AX_HOME_DIST_DIST n
      let gone := h.gone + ratAbs ((m.ax n).cur.p - h.from_)
      let h : Home := { h with gone := gone, from_ := (m.ax n).cur.p }
      let m := m.modAx n fun a => { a with home := some h }
      if far ≠ 0 ∧ ((far : Nat) : Rat) < gone then
        m.homeAbandon n B (if h.step = 5 ∨ (h.method = 5 ∧ h.step = 4) then 5 else 1)
      else if h.step = 3 ∧ h.backFrom.isNone ∧ !m.homeRefActive n h.method then
        let back : Rat := ((m.rd F.AX_HOME_CFG_BACKOFF n * 256 : Nat) : Rat)
        let t := if (m.ax n).dirUsed then s.p - back else s.p + back
        let lim : Lim := { m.limOf n h.prof with V := m.homeV n false }
        (m.setPosSeg n B s h.prof lim t 0 0).modAx n fun a => { a with home := some { h with backFrom := some s.p } }
      else m

/-- A homing step whose motion ends at boundary `B` (R158). -/
def Mach.homeStepEnd (m : Mach) (n B : Nat) : Mach :=
  match (m.ax n).home with
  | none => m
  | some h =>
    let s : Kin := { (m.ax n).cur with v := 0, a := 0 }
    if h.step = 2 then
      if m.homeRefActive n h.method then (m.homeRun n B s h false false).homePhase n 3
      else
        let m1 := (m.modAx n fun a => { a with home := some { h with step := 3, backFrom := some s.p } })
        let back : Rat := ((m.rd F.AX_HOME_CFG_BACKOFF n * 256 : Nat) : Rat)
        let t := if (m.ax n).dirUsed then s.p - back else s.p + back
        let lim : Lim := { m.limOf n h.prof with V := m.homeV n false }
        (m1.setPosSeg n B s h.prof lim t 0 0).wr F.AX_HOME_STAT_PHASE 3 n
    else if h.step = 3 then m.homeApproach n B s h
    else if h.captured then (m.homeDone n B h).enterHold n B
    else m.enterHold n B

/-! ### Hold and retargets -/

/-- R171: HOLD replaces the hold current or keeps the run current until the next segment or FOLLOW entry. A reduction that KEEP_RUN has
suspended in its ramp ramps from the next boundary on. Log entry 140 (DEDUCED). -/
def Mach.applyHold (m : Mach) (n p1 : Nat) : Mach :=
  let i := bitsOf p1 0 16
  let keep := bitOf p1 16
  m.modAx n fun a =>
    { a with holdOvr := if i = 0 then none else some (min i (m.iRun n)), keepRun := keep
             ramp0 := if a.keepRun && !keep then a.ramp0.map fun _ => m.clk.tick else a.ramp0 }

/-- R147: whether a retarget is refused. -/
def Mach.retgtRefused (m : Mach) (n prof : Nat) : Bool :=
  let a := m.ax n
  let op := match a.cmds with
    | [] => false
    | c :: _ => decide (1 ≤ opcOf c.w ∧ opcOf c.w ≤ 3)
  !(a.eff == .move && op) || a.home.isSome || a.group.isSome || !m.profUsable n prof

/-- R147, R148, R154, R156: a retarget replans the in-flight command from boundary `t + 1`. Commanded values are taken as R143 publishes
them. Log entries 113 (DEDUCED), 114 (DESIGN CHOICE). -/
def Mach.applyRetgt (m : Mach) (n : Nat) (w : Word) : Mach :=
  let prof := bitsOf w.toNat 66 3
  if m.retgtRefused n prof then m.setBit F.AX_FAULT_RETGT_REFUSED n
  else
    let a := m.ax n
    let B := m.clk.tick + 1
    let s := a.planAt B
    let rel := bitOf w.toNat 65
    let isVel : Bool := match a.aim with | some g => g.kind == .velocity | none => false
    let m1 := (m.modAx n fun a => { a with retry := { a.retry with waiting := false, goal := none } }).clrFld F.LA_AX_STAT_RETRYING
      (n / 12) (n % 12)
    let lim := m1.cmdLim n prof
    if bitOf w.toNat 64 then
      let base := if !rel then 0 else match a.aim with
        | some g => if isVel then g.vEnd else cmdVel s.v
        | none => cmdVel s.v
      let vt := base + ofFixed 16 (signedOf 48 (bitsOf w.toNat 0 48))
      if vt ≠ 0 ∧ m.latched n (decide (0 < vt)) then m.setBit F.AX_FAULT_RETGT_REFUSED n
      else m1.setVelSeg n B s prof lim vt
    else
      let v := posOf (bitsOf w.toNat 0 64)
      let t := if !rel then absTarget s.p (bitsOf w.toNat 0 64) else match a.aim with
        | some g => if isVel then cmdPos s.p + v else ofFixed 24 g.target + v
        | none => cmdPos s.p + v
      if t ≠ s.p ∧ m.latched n (decide (s.p < t)) then m.setBit F.AX_FAULT_RETGT_REFUSED n
      else
        match m1.softTarget n s.p t with
        | .refuse => m.setBit F.AX_FAULT_RETGT_REFUSED n
        | .asGiven => m1.replanPos n B s prof lim t 0x00
        | .limit hi t' => (m1.replanPos n B s prof lim t' 0x02).post Ev.AX_SOFT_LIMIT n (b2n hi)

end Sys2Proof.Machine
end

