-- ==== Sys2Proof/Machine/Follow.lean ====
section
/-!
DEFINITION. Followers: masters (R222 to R225), the gear and cam laws (R227, R232), engagement and lock (R226),
registration (R234, R235) and the tension trim (R236, R237).
-/

namespace Sys2Proof.Machine

/-! ### Masters -/

/-- The kind of a master selector (R222). -/
def selKind (sel : Nat) : Nat := bitsOf sel 12 4
/-- The index of a master selector. -/
def selIndex (sel : Nat) : Nat := bitsOf sel 0 8

/-- Whether a master selector is in range (R222). -/
def selInRange (sel : Nat) : Bool :=
  bitsOf sel 8 4 == 0 &&
    (match selKind sel with
     | 0 => decide (selIndex sel < 48)
     | 1 => decide (selIndex sel < 12)
     | 2 => decide (selIndex sel < 4)
     | 3 => decide (selIndex sel < 16)
     | _ => false)

/-- Whether following `sel` leads back to axis `n` through axis masters (R222). Log entry 25 (DEDUCED). -/
def Mach.chainBack (m : Mach) (n : Nat) : Nat → Nat → Bool
  | 0, _ => true
  | fuel + 1, sel =>
    if selKind sel = 0 then
      let k := selIndex sel
      if k = n then true
      else match (m.ax k).follow with
        | some f => m.chainBack n fuel f.sel
        | none => false
    else false

/-- The scaled position of a feedback port at the last boundary (R362, R363), in microsteps. -/
def Mach.portPos (m : Mach) (p : Nat) : Rat := posOf (m.rd F.FB_STATE_POS p)

/-- The port is failed in the present input snapshot (R363, R375, R377). -/
def Mach.portBad (m : Mach) (p : Nat) : Bool := (m.port p).snapBad

/-- A selector's master is a failed port (R225). -/
def Mach.masterBad (m : Mach) (sel : Nat) : Bool := selKind sel == 1 && m.portBad (selIndex sel)
/-- The speed of a feedback port, in microsteps/s. -/
def Mach.portVel (m : Mach) (p : Nat) : Rat := ofFixed 16 (m.rdS F.FB_STATE_SPD p)

/-- R223: the value and velocity of a master at boundary `B` as a follower's slot takes them, and whether they are
extrapolated. The values held are for the boundary the slot evaluates. Log entry 26 (DEDUCED). -/
def Mach.master (m : Mach) (n sel : Nat) : Rat × Rat × Bool :=
  let k := selIndex sel
  match selKind sel with
  | 0 =>
    let a := m.ax k
    if k % 6 < n % 6 then (cmdPos a.nxt.p, ofFixed 16 (toFixed 16 a.nxt.v), false)
    else (a.cur.p + a.cur.v * tickT + a.cur.a * tickT * tickT / 2, a.cur.v + a.cur.a * tickT, true)
  | 1 => (m.portPos k + m.portVel k * tickT, m.portVel k, true)
  | 2 => ((m.vmaster k).p, (m.vmaster k).v, false)
  | _ =>
    let a := m.arm k
    (match a.run with
     | some g => (wrapPos (a.s0 + (g.at (m.clk.tick + 1)).p), (g.at (m.clk.tick + 1)).v, false)
     | none => (a.sCur, 0, false))

/-! ### Laws -/

/-- Point `j` of a cam table (R230). -/
def Mach.camY (m : Mach) (off j : Nat) : Rat := posOf (m.dramRead (off + 0x20 + 8 * j) 8)

/-- A follower law's value, its slope over the master, and the clamp of a non-periodic table (0 none, 1 start, 2 end). -/
structure LawVal where
  y : Rat
  dy : Rat
  clamp : Nat
  deriving DecidableEq, Repr

/-- R232: the cam law at phase `x`. -/
def Mach.camLaw (m : Mach) (off n : Nat) (cubic periodic : Bool) (dm rise x : Rat) : LawVal :=
  let q : Int := if periodic then (x / ((n : Rat) * dm)).floor else 0
  let u := x - (q : Rat) * (n : Rat) * dm
  if !periodic && decide (u ≤ 0) then { y := m.camY off 0, dy := 0, clamp := 1 }
  else if !periodic && decide (((n - 1 : Nat) : Rat) * dm ≤ u) then { y := m.camY off (n - 1), dy := 0, clamp := 2 }
  else
    let i : Int := (u / dm).floor
    let f := ofFixed 32 (toFixed 32 ((u - (i : Rat) * dm) / dm))
    let pt (j : Int) : Rat :=
      if periodic then m.camY off (j % (n : Int)).toNat + rise * ((j / (n : Int) : Int) : Rat)
      else m.camY off (clampInt 0 ((n : Int) - 1) j).toNat
    let a := pt (i - 1)
    let b := pt i
    let c := pt (i + 1)
    let d := pt (i + 2)
    let k1 := if cubic then (c - a) / 2 else c - b
    let k2 := if cubic then a - 5 * b / 2 + 2 * c - d / 2 else 0
    let k3 := if cubic then (d - a) / 2 + 3 * (b - c) / 2 else 0
    { y := (q : Rat) * rise + b + f * k1 + f * f * k2 + f * f * f * k3
      dy := (k1 + 2 * f * k2 + 3 * f * f * k3) / dm
      clamp := 0 }

/-- F of R226 at a master travel since the engagement. -/
def Mach.lawVal (m : Mach) (law : Law) (mb travel : Rat) : LawVal :=
  match law with
  | .gear r => { y := ofFixed 32 r * travel, dy := ofFixed 32 r, clamp := 0 }
  | .cam _ off n cubic periodic dm rise mofs =>
    m.camLaw off n cubic periodic (ofFixed 24 dm) (ofFixed 24 rise) (mb - ofFixed 24 mofs + travel)

/-- The points that the law needs at phase `x` (R232, R233), as indices. -/
def camPoints (n : Nat) (periodic : Bool) (dm x : Rat) : List Nat :=
  let q : Int := if periodic then (x / ((n : Rat) * dm)).floor else 0
  let u := x - (q : Rat) * (n : Rat) * dm
  if !periodic && decide (u ≤ 0) then [0]
  else if !periodic && decide (((n - 1 : Nat) : Rat) * dm ≤ u) then [n - 1]
  else
    let i : Int := (u / dm).floor
    [i - 1, i, i + 1, i + 2].map fun j => if periodic then (j % (n : Int)).toNat else (clampInt 0 ((n : Int) - 1) j).toNat

/-- R233: a point that the law needs at a master travel carries an uncorrectable error. -/
def Mach.pointBad (m : Mach) (law : Law) (mb travel : Rat) : Bool :=
  match law with
  | .gear _ => false
  | .cam _ off n _ periodic dm _ mofs =>
    (camPoints n periodic (ofFixed 24 dm) (mb - ofFixed 24 mofs + travel)).any fun j => m.badWord (off + 0x20 + 8 * j)

/-- R230, R231: the header of the table at `off`: point count, cubic, periodic, step and rise; none where it is invalid. The count of an
image section equals its type parameter. -/
def Mach.camHeader (m : Mach) (off : Nat) : Option (Nat × Bool × Bool × Int × Int) :=
  let magic := m.dramRead off 4
  let ver := m.dramRead (off + 4) 2
  let interp := m.dramRead (off + 6) 1
  let flags := m.dramRead (off + 7) 1
  let n := m.dramRead (off + 8) 4
  let dm := m.dramRead (off + 0x10) 8
  let rise := signedOf 64 (m.dramRead (off + 0x18) 8)
  if magic = 0x43414D54 ∧ ver = 1 ∧ interp ≤ 1 ∧ flags ≤ 1 ∧ 2 ≤ n ∧ n ≤ 16777216 ∧ m.dramRead (off + 0xC) 4 = 0
      ∧ dm ≠ 0 ∧ (flags = 1 ∨ rise = 0) ∧ m.sections.all (fun s => s.ty != 3 || s.off != off || s.param == n) then
    some (n, interp == 1, flags == 1, (dm : Int), rise)
  else none

/-! ### A follower at the next boundary -/

/-- R235: registration corrections due this tick for the axis: what each channel moves, and the sum.
Log entry 74 (DEDUCED). -/
def Mach.regStep (m : Mach) (n : Nat) : Mach × Rat :=
  (List.range 4).foldl (fun (x : Mach × Rat) r =>
    let m := x.1
    if m.rb F.GR_REG_CFG_EN r && m.rd F.GR_REG_CFG_AXIS r == n then
      let c := m.regch r
      let rate : Rat := ofFixed 8 (max 1 (m.rd F.GR_REG_GAIN_RATE r) : Nat)
      let d := ratMax (-rate) (ratMin rate c.pending)
      (m.modRegch r fun c => { c with pending := c.pending - d, ofs := c.ofs + d }, x.2 + d)
    else x) (m, 0)

/-- What a follower's law gives for boundary t + 1 (R226): master, travel, law value, the step of the offsets, whether the
sync correction ends there and with what, and the state. -/
structure FollowVal where
  mv : Rat × Rat × Bool
  travel : Rat
  clamp : Nat
  step : Rat
  ended : Bool
  cEnd : Rat
  kin : Kin

/-- R226, R227, R232, R235, R237: a follower at boundary t + 1; its offsets move in FOLLOW, from the boundary after the engagement.
Log entry 73 (DEDUCED). -/
def Mach.followVal (m : Mach) (n : Nat) (f : Follow) : FollowVal :=
  let B := m.clk.tick + 1
  let a := m.ax n
  let mv := m.master n f.sel
  let travel := f.travel + wrapPos (mv.1 - f.mlast)
  let y := m.lawVal f.law f.mb travel
  let step := if a.eff = .follow ∧ !f.first then (m.regStep n).2 + (if a.trim.on then a.trim.u else 0) * tickT else 0
  let sync := f.sync.map fun x => (x, evalPhases { p := 0, v := x.2.2, a := 0 } x.2.1 ((B - x.1 : Nat) : Rat))
  let ended := match f.sync with | some x => decide (x.1 + phaseTicks x.2.1 ≤ B) | none => false
  let cEnd := match f.sync with | some x => (endOf { p := 0, v := x.2.2, a := 0 } x.2.1).p | none => 0
  let c := if ended then cEnd else match sync with | some x => x.2.p | none => 0
  let cv := if ended then 0 else match sync with | some x => x.2.v | none => 0
  let v := y.dy * mv.2.1 + cv + step / tickT
  { mv := mv, travel := travel, clamp := y.clamp, step := step, ended := ended, cEnd := cEnd
    kin := { p := f.base + y.y + c + f.offs + step, v := v, a := (v - a.nxt.v) / tickT } }

/-- The state of an axis at boundary t + 1 under the plan or the law in force. -/
def Mach.stateAt (m : Mach) (n : Nat) : Kin :=
  let a := m.ax n
  match a.eff, a.follow with
  | .follow, some f => (m.followVal n f).kin
  | .follow, none => a.nxt
  | _, _ => a.planAt (m.clk.tick + 1)

/-- R235: an axis's state at boundary t + 1 becomes the start of another plan: the corrections it holds are counted. -/
def Mach.stepTaken (m : Mach) (n : Nat) : Mach :=
  match (m.ax n).eff, (m.ax n).follow with
  | .follow, some f => if f.first then m else (m.regStep n).1
  | _, _ => m

/-- R150: a STOP taken in MOVE or FOLLOW: a stop part with the STOP's slot starts at boundary `B`. -/
def Mach.startStop (m' : Mach) (n : Nat) (c : MotionCmd) (B : Nat) : Mach :=
  let s := m'.stateAt n
  let m := m'.stepTaken n
  let lim := m.limOf n (profOf c.w)
  let m1 := (m.homeCut n).dropMotion n 0x01 (m.clk.tick + 1)
  let m2 := (m1.leaveFollow n (m.clk.tick + 1)).clrFld F.LA_AX_STAT_RETRYING (n / 12) (n % 12)
  m2.modAx n fun a =>
    { (a.moveFrom B).setEff .stop with
      seg := some (stopSeg lim s B (profOf c.w))
      stopCmds := a.stopCmds ++ [c], retry := { count := 0, waiting := false, vPct := none, goal := none } }

/-! ### Engagement -/

/-- R226: the axis engages to a master at boundary t + 1 (the slot runs in tick t). -/
def Mach.engage (m' : Mach) (n sel : Nat) (law : Law) (prof : Nat) (cmd : Option MotionCmd) (port : Option Nat) : Mach :=
  let s : Kin := m'.stateAt n
  let m := m'.stepTaken n
  let t := m.clk.tick
  let B := t + 1
  let a := m.ax n
  let mv := m.master n sel
  let v0 := m.lawVal law mv.1 0
  let dv := s.v - v0.dy * mv.2.1
  let lim := m.limOf n prof
  let st := stopPart lim { p := 0, v := dv, a := 0 }
  -- a law in force is replaced; its command, if it still synchronises, ends
  let m0 := match a.follow with
    | some f =>
      let m' := match f.cmd with | some c => m.retire c 0x01 B | none => m
      match f.port with
      | some p => (m'.clrFld F.FB_FOLLOW_EN p).post Ev.FB_FOLLOW_OFF p (n + 64)
      | none => m'
    | none => m
  let m1 := (m0.dropMotion n 0x01 B).clrFld F.LA_AX_STAT_RETRYING (n / 12) (n % 12)
  let locked := decide (dv = 0)
  let m2 := m1.modAx n fun a =>
    { (a.moveFrom B).setEff .follow with
      seg := none, prevVel := false, retry := { count := 0, waiting := false, vPct := none, goal := none }
      nxt := s
      follow := some
        { sel := sel, law := law, prof := prof, base := s.p - v0.y, mb := mv.1, mlast := mv.1, mvel := mv.2.1, travel := 0
          sync := if locked then none else some (B, st, dv), offs := 0, clamp := false
          lateRun := 0, lateCnt := m.rd F.GR_FSTAT_LATE_CNT n, extrap := mv.2.2
          cmd := if locked then none else cmd, port := port, first := true } }
  let m3 := if locked then
      (match cmd with | some c => m2.retire c 0x00 B | none => m2).postAt Ev.GR_LOCKED n 0 (tickStamp B)
    else m2
  -- R222, R375, R377: on a failed port the ESTOP cause comes as soon as the follower engages
  let lost := m.masterBad sel
  let m4 := match port with
    | some p => (m3.setBit F.FB_FOLLOW_EN p).post Ev.FB_FOLLOW_ON p n
    | none => m3
  m4.when lost fun m => (m.estopAxis n 7 true).faultWaits n 7

/-- A follower's evaluation for boundary t + 1 in its slot of tick t (R226 to R229, R233). The emergency stop part that begins one
boundary later begins at the state a constant acceleration gives there. Log entry 116 (DEDUCED). -/
def Mach.followSlot (m : Mach) (n : Nat) (camMissing : Bool) : Mach :=
  match (m.ax n).follow with
  | none => m
  | some f =>
    let B := m.clk.tick + 1
    let a := m.ax n
    let old := a.nxt
    let isCam := match f.law with | .cam .. => true | .gear _ => false
    let ecc := m.pointBad f.law f.mb (f.travel + wrapPos ((m.master n f.sel).1 - f.mlast))
    if isCam && (camMissing || ecc) then
      let f' := { f with lateRun := f.lateRun + 1, lateCnt := satInc 255 f.lateCnt, first := false }
      let table := match f.law with | .cam t .. => t | .gear _ => 0
      let m1 := m.modAx n fun a =>
        { a with nxt := { p := old.p + old.v * tickT, v := old.v, a := 0 }, follow := some f' }
      let m2 := ((m1.setBit F.GR_FSTAT_CAM_LATE n).wr F.GR_FSTAT_LATE_CNT f'.lateCnt n).post Ev.GR_CAM_LATE n (table + 64 * b2n ecc)
      if ecc || decide (2 ≤ f'.lateRun) then m2.estop n 8 else m2
    else
      let x := m.followVal n f
      let v := x.kin.v
      let p := x.kin.p
      let f' : Follow :=
        { f with
          mlast := x.mv.1, mvel := x.mv.2.1, travel := x.travel, extrap := x.mv.2.2, offs := f.offs + x.step
          base := if x.ended then f.base + x.cEnd else f.base
          sync := if x.ended then none else f.sync
          cmd := if x.ended then none else f.cmd
          clamp := x.clamp ≠ 0, lateRun := 0, first := false }
      let m1 := (m.stepTaken n).modAx n fun a => { a with nxt := x.kin, follow := some f', prevEnd := p }
      let m2 := if x.ended then
          (match f.cmd with | some c => m1.retire c 0x00 B | none => m1).postAt Ev.GR_LOCKED n
            (unsignedOf 48 (toFixed 24 x.cEnd)) (tickStamp B)
        else m1
      let m3 := if x.clamp ≠ 0 ∧ !f.clamp then m2.post Ev.GR_CAM_CLAMP n (x.clamp - 1) else m2
      -- R228, R229: overspeed, a set latch ahead, a soft limit that an emergency stop could not keep
      if a.eff ≠ .follow then m3
      else if m.masterBad f.sel then m3.faultAfterEstop [n] 7 7
      else if (m.limOf n f.prof).V < ratAbs v then
        ((m3.setBit F.GR_FSTAT_OVERSPEED n).post Ev.GR_OVERSPEED n (pubVel v)).estop n 8
      else if v ≠ 0 ∧ m3.latched n (decide (0 < v)) then m3.estop n 3
      else if m3.slimOn n then
        let s : Kin := { p := p + v * tickT + x.kin.a * tickT * tickT / 2, v := v + x.kin.a * tickT, a := x.kin.a }
        let z := softNum p + ((endOf s (planStop (m3.limOf n 7) s)).p - p)
        if 0 < v ∧ m3.slimHi n < z then (m3.post Ev.AX_SOFT_LIMIT n 1).estop n 4
        else if v < 0 ∧ z < m3.slimLo n then (m3.post Ev.AX_SOFT_LIMIT n 0).estop n 4
        else m3
      else m3

/-! ### Registration -/

/-- The delay of a general input's filter in timestamp units (R201). -/
def Mach.giDelay (m : Mach) (k : Nat) : Rat := ((m.rd F.Q_GI_CFG_DEB k * 25 : Nat) : Rat) / 2

/-- A timestamp less `delay` units, in ticks. -/
def Mach.instant (m : Mach) (ts : Nat) (delay : Rat) : Rat :=
  ((m.clk.tick : Nat) : Rat) + ((tsDiff ts (tickStamp m.clk.tick) : Rat) - delay) / 1000

/-- R159: the state of an axis at timestamp `ts` less `delay` units, by the plan in force at that instant; without a segment it goes on
from the boundary before. -/
def Mach.kinAtStamp (m : Mach) (n ts : Nat) (delay : Rat) : Kin :=
  let x := m.instant ts delay
  let a := m.ax n
  let e := (a.plans.find? fun e => decide (((e.1 : Nat) : Rat) ≤ x)).getD (a.plans.getLastD (m.clk.tick, a.seg, a.cur))
  match e.2.1 with
  | some g => g.atInstant (x - ((g.t0 : Nat) : Rat))
  | none => { e.2.2 with p := e.2.2.p + e.2.2.v * tickT * (x - ((e.1 : Nat) : Rat)) }

/-- R159: the commanded position there, as AX_HOME_CAP holds it. -/
def Mach.posAtStamp (m : Mach) (n ts : Nat) (delay : Rat) : Rat := cmdPos (m.kinAtStamp n ts delay).p

/-- The source value and velocity of a registration channel at timestamp `ts` less `delay` units (R234). A follower's master value is
that of the boundary its slot evaluated last; an axis without a follower law has the value 0 at rest.
Log entry 152 (DESIGN CHOICE). -/
def Mach.regSource (m : Mach) (r ts : Nat) (delay : Rat) : Rat × Rat :=
  let n := m.rd F.GR_REG_CFG_AXIS r
  let dt : Rat := (m.instant ts delay - ((m.clk.tick : Nat) : Rat)) * tickT
  match m.rd F.GR_REG_CFG_SRC r with
  | 1 =>
    match (m.ax n).follow with
    | some f => (f.mlast + f.mvel * (dt - if (m.ax n).pubd then tickT else 0), f.mvel)
    | none => (0, 0)
  | 2 =>
    let p := m.rd F.GR_REG_CFG_PORT r
    (m.portPos p + m.portVel p * dt, m.portVel p)
  | _ => (m.posAtStamp n ts delay, (m.kinAtStamp n ts delay).v)

/-- Whether a registration channel runs (R234, R238). -/
def Mach.regActive (m : Mach) (r : Nat) : Bool :=
  m.rb F.GR_REG_CFG_EN r && decide (m.rd F.GR_REG_CFG_AXIS r < 48) && m.rd F.GR_REG_GEOM_PITCH r != 0
    && (m.rd F.GR_REG_CFG_SRC r != 2 || decide (m.rd F.GR_REG_CFG_PORT r < 12))

/-- EXP advances by one pitch (R234). -/
def Mach.regAdvance (m : Mach) (r : Nat) : Mach :=
  m.wr F.GR_REG_EXP_EXP (m.rd F.GR_REG_EXP_EXP r + m.rd F.GR_REG_GEOM_PITCH r) r

/-- R234: a mark on a registration input, its filtered edge at `ts`, from which the filter delay is subtracted. -/
def Mach.regMark (m : Mach) (r ts : Nat) : Mach :=
  if !m.regActive r then m
  else
    let n := m.rd F.GR_REG_CFG_AXIS r
    let src := m.regSource r ts (m.giDelay (m.rd F.GR_REG_CFG_GI r))
    if src.2 ≤ 0 then m.setBit F.GR_REG_STAT_OUTSIDE r
    else
      let e := wrapPos (src.1 - posOf (m.rd F.GR_REG_EXP_EXP r))
      let win := ofFixed 8 (m.rd F.GR_REG_GEOM_WIN r : Nat)
      if win < ratAbs e then m.setBit F.GR_REG_STAT_OUTSIDE r
      else
        let err := satSigned 32 (toFixed 8 e)
        let m1 := ((m.regAdvance r).wr F.GR_REG_STAT_MISSES 0 r).wrap F.GR_REG_STAT_MARKS r
        let m2 := (m1.wrS F.GR_REG_ERR_ERR err r).postAt Ev.GR_REG_MARK r (unsignedOf 32 err) m.stamp
        if (m.ax n).eff = .follow then
          let g := ofFixed 12 (m.rdS F.GR_REG_GAIN_GAIN r) * e
          let cmax := ofFixed 8 (m.rd F.GR_REG_GEOM_CMAX r : Nat)
          let lim := ratMax (-cmax) (ratMin cmax g)
          let m3 := if lim = g then m2 else m2.setBit F.GR_REG_STAT_CLAMPED r
          m3.modRegch r fun c => { c with pending := c.pending + lim }
        else m2.setBit F.GR_REG_STAT_IDLE r

/-- R234: at a boundary the source has passed EXP + WIN with no mark accepted. -/
def Mach.regMiss (m : Mach) (r : Nat) : Mach :=
  if !m.regActive r then m
  else
    let src := m.regSource r (tickStamp m.clk.tick) 0
    let e := wrapPos (src.1 - posOf (m.rd F.GR_REG_EXP_EXP r))
    if ofFixed 8 (m.rd F.GR_REG_GEOM_WIN r : Nat) ≤ e then
      let k := satInc 255 (m.rd F.GR_REG_STAT_MISSES r)
      let m1 := (m.regAdvance r).wr F.GR_REG_STAT_MISSES k r
      let lim := m.rd F.GR_REG_CFG_MISS_LIM r
      if lim ≠ 0 ∧ k = lim then (m1.setBit F.GR_REG_STAT_LOST r).post Ev.GR_REG_LOST r k else m1
    else m

/-! ### Tension trim -/

/-- The output register of a trim loop (R238). -/
def Mach.trimShow (m : Mach) (n : Nat) : Mach := m.wrS F.GR_TRIM_OUT_U (m.ax n).trim.u.floor n

/-- R237: a suppressed or stale result of the channel is not used. -/
def Mach.trimStale (m : Mach) (n : Nat) : Mach :=
  let a := m.ax n
  if !a.trim.on || a.trim.stale then m
  else ((m.modAx n fun a => { a with trim := { a.trim with stale := true } }).setBit F.GR_FSTAT_TRIM_STALE n).post
    Ev.GR_TRIM_STALE n a.trim.ch

/-- R171, R236, R237: TENSION_TRIM starts or stops the trim loop of an axis; a channel that failed at the start is stale.
Log entry 153 (DESIGN CHOICE). -/
def Mach.trimCmd (m : Mach) (n p1 p0 : Nat) : Mach :=
  let ch := bitsOf p1 0 3
  if bitOf p1 3 then
    let m1 := m.modAx n fun a =>
      { a with trim := { Trim.off with on := true, ch := ch, sp := signedOf 32 (bitsOf p0 0 32) } }
    let m2 := ((m1.setBit F.GR_FSTAT_TRIM_ON n).wr F.GR_FSTAT_TRIM_CH ch n).wr F.GR_TRIM_SP_VALUE (bitsOf p0 0 32) n
    ((m2.clrFld F.GR_FSTAT_TRIM_STALE n).trimShow n).when (m.rb F.SF_CH_STAT_FAILED ch) (·.trimStale n)
  else m.trimStop n

/-- R236: a new valid result `y` of the channel updates the loop; it acts only in FOLLOW (R237). It ends TRIM_STALE.
Log entry 153 (DESIGN CHOICE). -/
def Mach.trimUpdate (m : Mach) (n : Nat) (y : Int) : Mach :=
  let a := m.ax n
  let t := a.trim
  if !t.on || a.eff ≠ .follow then m
  else
    let e : Rat := (satSigned 32 (t.sp - y) : Int)
    let ki := ofFixed 16 (m.rdS F.GR_TRIM_KI_VALUE n)
    let kp := ofFixed 16 (m.rdS F.GR_TRIM_KP_VALUE n)
    let ilim : Rat := (m.rd F.GR_TRIM_LIM_ILIM n : Nat)
    let ulim : Rat := (m.rd F.GR_TRIM_LIM_ULIM n : Nat)
    let iRaw := t.i + ki * e
    let i := ratMin (ratMax iRaw (-ilim)) ilim
    let uRaw := kp * e + i
    let u := ofFixed 16 (toFixed 16 (ratMin (ratMax uRaw (-ulim)) ulim))
    let satI := decide (i ≠ iRaw)
    let satU := decide (uRaw < -ulim ∨ ulim < uRaw)
    let m1 := m.modAx n fun a => { a with trim := { t with i := i, u := u, stale := false, satI := satI, satU := satU } }
    let m2 := (m1.clrFld F.GR_FSTAT_TRIM_STALE n).when (satI || satU) (·.setBit F.GR_FSTAT_TRIM_SAT n)
    let m3 := m2.when (satI && !t.satI) (·.post Ev.GR_TRIM_SAT n 0)
    (m3.when (satU && !t.satU) (·.post Ev.GR_TRIM_SAT n 1)).trimShow n

/-! ### Virtual masters -/

/-- R224: one virtual master advances for the next boundary; GR_VAX_STATE shows the boundary passed.
Log entry 26 (DEDUCED). -/
def Mach.vmasterStep (m : Mach) (v : Nat) : Mach :=
  let x := m.vmaster v
  let vt := ofFixed 16 (m.rdS F.GR_VAX_CMD_VT v)
  let acc : Rat := (m.rd F.GR_VAX_CMD_ACC v : Nat)
  let dv := acc * tickT
  let v' := if acc = 0 then vt else if x.v + dv < vt then x.v + dv else if vt < x.v - dv then x.v - dv else vt
  let y : VMaster := { v := v', p := wrapPos (x.p + (x.v + v') / 2 * tickT) }
  let m1 := { m with vmasters := vmod m.vmasters v fun _ => y }
  (m1.wr F.GR_VAX_STATE_POS (pubPos x.p) v).wr F.GR_VAX_STATE_VEL (pubVel x.v) v

end Sys2Proof.Machine
end

