-- ==== Sys2Proof/Machine/Arm.lean ====
section
/-!
DEFINITION. Armatures: membership (R211), GROUP_MOVE and its path (R212 to R216, R221), the stop that keeps the path
(R217), and what a boundary does to a running path (R214, R218, R220).
-/

namespace Sys2Proof.Machine

/-- The members of armature `g`, in ascending axis number (R211). -/
def Mach.membersOf (m : Mach) (g : Nat) : List Nat :=
  (List.range 48).filter fun n =>
    if n < 32 then bitOf (m.reg .GR_MEMB_LO g 0) n else bitOf (m.reg .GR_MEMB_HI g 0) (n - 32)

/-- Whether a path of the armature runs. -/
def Mach.groupRunning (m : Mach) (g : Nat) : Bool := (m.arm g).run.isSome

/-- R211: a write to a membership register. -/
def Mach.writeMemb (m : Mach) (g : Nat) (hi : Bool) (v : Nat) : Mach :=
  let r : Reg := if hi then .GR_MEMB_HI else .GR_MEMB_LO
  let m1 := m.setReg r g 0 (if hi then v % 2 ^ 16 else v % 2 ^ 32)
  if m.groupInFlight g || m.groupRunning g || decide (16 < (m1.membersOf g).length) then m.setBit F.GR_STATUS_MEMB_REFUSED g else m1

/-- The path limits over members (R213): the minimum of each member's limit times L/|d|, rounded toward zero in the
widened format; a member without jerk limit removes the path's. -/
def pathLim (ls : List (Lim × Rat)) (len : Rat) : Option Lim :=
  let one (l : Lim) (d : Rat) : Lim :=
    let k := len / ratAbs d
    { V := ofFixed 16 (toFixedZero 16 (l.V * k)), A := ofFixed 8 (toFixedZero 8 (l.A * k))
      D := ofFixed 8 (toFixedZero 8 (l.D * k)), J := (toFixedZero 0 (l.J * k) : Int) }
  let both (x y : Lim) : Lim :=
    { V := ratMin x.V y.V, A := ratMin x.A y.A, D := ratMin x.D y.D
      J := if x.J = 0 ∨ y.J = 0 then 0 else ratMin x.J y.J }
  match (ls.filter fun x => x.2 ≠ 0).map fun x => one x.1 x.2 with
  | [] => none
  | x :: rest => some (rest.foldl both x)

/-- The path limits of a GROUP_MOVE with profile slot `k`. -/
def Mach.groupLim (m : Mach) (ms : List Member) (len : Rat) (k : Nat) : Option Lim :=
  pathLim (ms.map fun x => (m.limOf x.ax k, x.d)) len

/-- The members of a GROUP_MOVE command from their start positions (R212). -/
def memberList (rel : Bool) (starts : List (Nat × Rat)) (tgts : List Int) : List Member :=
  (starts.zip tgts).map fun x =>
    let s := cmdPos x.1.2
    let raw := unsignedOf 64 x.2
    let t := if rel then s + posOf raw else absTarget s raw
    { ax := x.1.1, start := s, d := t - s, target := toFixed 24 t }

/-- The longest distance (R213). -/
def pathLen (ms : List Member) : Rat := ms.foldl (fun a x => ratMax a (ratAbs x.d)) 0

/-- The lead member: the lowest index with the longest distance. -/
def leadIndex (ms : List Member) : Nat := (ms.findIdx? fun x => ratAbs x.d = pathLen ms).getD 0

/-- R221: the path progress at which a member reaches a soft limit, if it would pass one. -/
def Mach.softSigma (m : Mach) (len : Rat) (x : Member) : Option Rat :=
  match m.softTarget x.ax x.start (x.start + x.d) with
  | .asGiven => none
  | .refuse => some 0
  | .limit _ t => some (if x.d = 0 then 0 else len * (t - x.start) / x.d)

/-- R149, R216: the end velocity of a blending GROUP_MOVE to the path progress `sig`, planned from the path state `k`, into a next one
with proportional distances. The next path's bounds act on it as they stand. Log entries 71 (DEDUCED), 141 (DEDUCED). -/
def Mach.groupBlend (m : Mach) (g : Nat) (c : MotionCmd) (ms : List Member) (len : Rat) (lim : Lim) (k : Kin) (sig : Rat) : Rat :=
  if !isBlend c.w then 0
  else
    match (m.arm g).ahead with
    | [] => 0
    | nx :: _ =>
      let ms2 := memberList (isRel nx.w) (ms.map fun x => (x.ax, x.start + x.d)) nx.tgts
      let len2 := pathLen ms2
      let prop := (ms.zip ms2).all fun p => decide (p.1.ax = p.2.ax ∧ p.1.d * len2 = p.2.d * len)
      if len2 = 0 ∨ !prop then 0
      else match m.groupLim ms2 len2 (profOf nx.w) with
        | none => 0
        | some l2 => planReach lim k sig (blendVel lim l2 len2)

/-- A GROUP_MOVE starts at boundary `B` with path speed `vs` from the members' states there (R212 to R216, R221), or
retires without motion at boundary `at_`. -/
def Mach.startGroup (m : Mach) (g : Nat) (c : MotionCmd) (B at_ : Nat) (vs : Rat) : Mach :=
  let axs := c.axs
  let ms := memberList (isRel c.w) (axs.map fun n => (n, (m.ax n).nxt.p)) c.tgts
  let len := pathLen ms
  if len = 0 then m.retire c 0x00 at_
  else if ms.any fun x => x.d ≠ 0 && m.latched x.ax (decide (0 < x.d)) then m.retire c 0x02 at_
  else
    match m.groupLim ms len (profOf c.w) with
    | none => m.retire c 0x02 at_
    | some lim =>
      let shorts := ms.filterMap fun x => (m.softSigma len x).map fun s => (x.ax, s)
      let worst := shorts.foldl (fun (b : Option (Nat × Rat)) x =>
        match b with | none => some x | some y => if x.2 < y.2 then some x else b) none
      let sig := match worst with | some x => ratMax 0 x.2 | none => len
      let ms' := if worst.isNone then ms else
        ms.map fun x => { x with target := toFixed 24 (x.start + x.d * sig / len) }
      let k : Kin := { p := 0, v := vs, a := 0 }
      let ve := if worst.isNone then m.groupBlend g c ms len lim k sig else 0
      let plan := planPos lim k sig ve
      let seg : Seg := { kind := .position, start := k, phases := plan.phases, t0 := B
                         target := toFixed 24 sig, vEnd := ve, prof := profOf c.w, lim := lim, revAt := plan.revAt, tail := plan.tail
                         status := if worst.isNone then 0x00 else 0x02 }
      let m1 := m.modArm g fun a =>
        { a with run := some seg, emergency := false, stopping := false, ebAt := none, members := ms', cmd := some c
                 s0 := a.sCur, len := len, next := none, mfault := false, tag := tagOf c.w }
      let m2 := m1.forAll axs fun m n => m.modAx n fun a => { (a.moveFrom B).setEff .move with group := some g }
      let m3 := (m2.wr F.GR_STATUS_LEAD (leadIndex ms) g).wr F.GR_LEN_L (unsignedOf 64 (toFixed 24 sig)) g
      let m4 := m3.wr F.GR_LEN_S0 (pubPos (m3.arm g).s0) g
      match worst with
      | some x => (m4.setBit F.GR_STATUS_SOFT_SHORT g).post Ev.GR_SOFT_SHORT g x.1
      | none => m4

/-- R217: GR_CTRL.STOP on a running GROUP_MOVE. Log entries 73 (DEDUCED), 139 (DEDUCED). -/
def Mach.groupStop (m : Mach) (g : Nat) : Mach :=
  let a := m.arm g
  if a.run.isNone || a.emergency || a.stopping then m
  else
    let B := m.pathBoundary a.owner
    let m1 := match a.cmd with
      | some c => m.retire c 0x01 B
      | none => m
    let m2 := m1.retireAll a.ahead 0x85 B
    let m3 := m2.modArm g fun a => { a with stopping := true, ebAt := some B, cmd := none, ahead := [] }
    m3.forAll (a.members.map (·.ax)) fun m n => m.modAx n fun x => x.setEff .stop

/-- A member's published state from the path state `k` of a path of length `len` (R214). -/
def Member.at (x : Member) (k : Kin) (len : Rat) : Kin :=
  { p := ofFixed 24 (toFixed 24 (x.start + x.d * k.p / len)), v := ofFixed 16 (toFixed 16 (x.d * k.v / len))
    a := x.d * k.a / len }

/-- A member's evaluation for boundary t + 1 in its slot (R214). -/
def Mach.memberSlot (m : Mach) (n g : Nat) : Mach :=
  let a := m.arm g
  match a.run, a.members.find? (·.ax = n) with
  | some seg, some x =>
    let B := m.clk.tick + 1
    let ended := (decide (seg.endTick = B) || (decide (seg.endTick ≤ B) && seg.vEnd == 0)) && seg.kind == .position
    let k : Kin := if ended then { p := ofFixed 24 x.target, v := x.d * seg.vEnd / a.len, a := 0 } else x.at (seg.at B) a.len
    m.modAx n fun y => { y with nxt := k }
  | _, _ => m

/-- R149, R215, R216: in the owner's slot of tick n, which computes the path for boundary n + 2, a GROUP_MOVE whose next one has come
before its P5 is replanned from there to the same end, with the new end velocity. -/
def Mach.pathSlot (m : Mach) (g : Nat) : Mach :=
  let a := m.arm g
  match a.next.orElse fun _ => a.run, a.cmd with
  | some seg, some c =>
    let B := m.clk.tick + 2
    let k := seg.at B
    let sig := ofFixed 24 seg.target
    let ve := m.groupBlend g c a.members a.len seg.lim k sig
    let early := decide (seg.t0 < B ∧ B < seg.endTick ∧ B ≤ seg.endTick - seg.tail)
    if seg.kind = .position ∧ seg.status = 0 ∧ !a.emergency ∧ !a.stopping ∧ ve ≠ seg.vEnd ∧ early then
      let plan := planPos seg.lim k sig ve
      m.modArm g fun a => { a with next := some { seg with start := k, phases := plan.phases, t0 := B, vEnd := ve, revAt := plan.revAt
                                                           tail := plan.tail } }
    else m
  | _, _ => m

/-- R156, R218, R221: a member that lies beyond a soft limit and moves further, or whose path cannot stop before a limit that has just
changed, takes the ESTOP cause SOFT_LIMIT. -/
def Mach.memberSoft (m : Mach) (n g : Nat) : Mach :=
  let a := m.arm g
  let x := m.ax n
  let m0 := m.modAx n fun y => { y with slimCheck := false }
  let stop (p v : Rat) : Mach := (m0.post Ev.AX_SOFT_LIMIT n (b2n (decide (0 < v ∧ m.slimHi n < softNum p)))).estop n 4
  if !m.slimOn n || !m.stoppable n then m0
  else if (m.slimHi n < softNum x.nxt.p ∧ 0 < x.nxt.v) ∨ (softNum x.nxt.p < m.slimLo n ∧ x.nxt.v < 0) then stop x.nxt.p x.nxt.v
  else if x.slimCheck then
    match a.run, a.members.find? (·.ax = n) with
    | some seg, some y =>
      let k := seg.at (m.clk.tick + 1)
      let e := softNum x.nxt.p + y.d * ((endOf k (planStop seg.lim k)).p - k.p) / a.len
      if (m.slimHi n < e ∧ 0 < y.d) ∨ (e < m.slimLo n ∧ y.d < 0) then stop e y.d else m0
    | _, _ => m0
  else m0

/-- The members enter HOLD or FAULT as their path ends at boundary `B` (R218, R220). -/
def Mach.groupEnd (m : Mach) (g B : Nat) : Mach :=
  let a := m.arm g
  let m1 := m.modArm g fun a => { a with run := none, emergency := false, stopping := false, ebAt := none, members := []
                                         vCur := 0, next := none, mfault := false }
  let done (m : Mach) (n : Nat) : Mach :=
    let m' := m.modAx n fun x => { x with group := none }
    if a.mfault && m.rb F.GR_CFG_MFAULT g && (m.ax n).pendFault.isNone then m'.enterFault n 0x0B B else m'.rampEnd n B
  m1.forAll (a.members.map (·.ax)) done

/-- R184, R213, R216: at boundary `B`, at which the path `seg` ends, the GROUP_MOVEs looked ahead start in turn; one that retires without
motion gives way to the next. A path that still moves when none is left stops. Log entry 139 (DEDUCED). -/
def Mach.groupAhead (m : Mach) (g B : Nat) (seg : Seg) : List MotionCmd → Mach
  | [] =>
    if seg.vEnd = 0 then m.groupEnd g B
    else m.modArm g fun a => { a with run := some (stopSeg seg.lim (seg.at B) B seg.prof) }
  | nx :: rest =>
    let a := m.arm g
    let len2 := pathLen (memberList (isRel nx.w) (a.members.map fun x => (x.ax, ofFixed 24 x.target)) nx.tgts)
    let m1 := (m.modArm g fun a => { a with ahead := rest }).startGroup g nx B B (if a.len = 0 then 0 else seg.vEnd * len2 / a.len)
    if (m1.arm g).cmd.isSome then m1 else m1.groupAhead g B seg rest

/-- A replan of a path that waits for boundary `B` is in force from it (R149, R216). -/
def Mach.armNext (m : Mach) (g B : Nat) : Mach :=
  m.modArm g fun a => match a.next with
    | some x => if x.t0 ≤ B then { a with run := if a.emergency || a.stopping then a.run else some x, next := none } else a
    | none => a

/-- A path's emergency path or stop part begins at boundary `B`, where it stands at `k` (R217, R218). -/
def Mach.armStops (m : Mach) (g B : Nat) (seg : Seg) (k : Kin) : Mach :=
  let a := m.arm g
  let base := if a.emergency then 7 else seg.prof
  let lim := if a.emergency then (m.groupLim a.members a.len base).getD seg.lim else seg.lim
  if k.v = 0 then m.groupEnd g B
  else m.modArm g fun a => { a with ebAt := none, run := some (stopSeg lim k B base) }

/-- A path's segment ends at boundary `B`: its command retires, and the next move of the queue starts. -/
def Mach.armEnds (m : Mach) (g B : Nat) (seg : Seg) : Mach :=
  let a := m.arm g
  let m1 := match a.cmd with
    | some c => m.retire c seg.status B
    | none => m
  let m2 := m1.modArm g fun a => { a with cmd := none }
  if seg.kind = .position then m2.groupAhead g B seg a.ahead else m2.groupEnd g B

/-- What boundary `B` (the present tick) does to a path: an emergency path or a stop part begins, the move ends, the next
move of the queue starts. Log entry 24 (DEDUCED). -/
def Mach.armTick (m : Mach) (g : Nat) : Mach :=
  let B := m.clk.tick
  let m1 := m.armNext g B
  match (m1.arm g).run with
  | none => m1.modArm g fun a => { a with vCur := 0 }
  | some seg =>
    let k := seg.at B
    let m2 := m1.modArm g fun a => { a with sCur := wrapPos (a.s0 + k.p), vCur := k.v }
    if (m1.arm g).ebAt = some B then m2.armStops g B seg k
    else if decide (seg.endTick ≤ B) && (m1.arm g).ebAt.isNone then m2.armEnds g B seg
    else m2

end Sys2Proof.Machine
end

