-- ==== Sys2Proof/Machine/Slot.lean ====
section
/-!
DEFINITION. The engine slot (R21, R22) and the tick boundary (R19, R20) of an axis: commands taken, stall and following
error judged, the state published, the current target and the requests that go with it, the snapshot registers.
-/

namespace Sys2Proof.Machine

/-! ### Commands taken in the slot -/

/-- Ends a command at the boundary after it was taken (R184). -/
def Mach.taken (m : Mach) (c : MotionCmd) (st : Nat) : Mach := m.retire c st (m.clk.tick + 1)

/-- ENABLE accepted by an axis (R135, R177). -/
def Mach.takeEnable (m : Mach) (n : Nat) (c : MotionCmd) : Mach :=
  if (m.ax n).eff = .off then
    if m.enableRefused n then m.taken c 0x82
    else (m.enterArming n).modAx n fun a => { a with enWait := a.enWait ++ [c] }
  else m.modAx n fun a => { a with enWait := a.enWait ++ [c] }

/-- The effect of an accepted axis-class command on one axis (R171). A STOP taken for the boundary of a hard stop gives way to it
(R137). -/
def Mach.actNow (m : Mach) (n : Nat) (c : MotionCmd) : Mach :=
  let B := m.clk.tick + 1
  let s := (m.ax n).planAt B
  match opcOf c.w with
  | 0x04 =>
    let due := match (m.ax n).hardAt with | some h => decide (h.1 ≤ B) | none => false
    if (m.ax n).eff = .stop || due then m.modAx n fun a => { a with stopCmds := a.stopCmds ++ [c] } else m.startStop n c B
  | 0x05 => (m.applyHold n (p1Of c.w)).taken c 0x00
  | 0x06 => m.startHome n c B B s
  | 0x07 =>
    let p := cmdPos s.p
    let d := if isRel c.w then posOf (p0Of c.w) else posOf (p0Of c.w) - p
    (m.reassign n d).taken c 0x00
  | 0x08 => m.takeEnable n c
  | 0x09 => (m.disable n).taken c 0x00
  | 0x11 => m.engage n (bitsOf (p1Of c.w) 0 16) (.gear (signedOf 64 (p0Of c.w))) (profOf c.w) (some c) none
  | 0x12 =>
    let t := bitsOf (p1Of c.w) 0 6
    let off := m.rd F.GR_CAMTAB_OFFSET t
    match m.camHeader off with
    | some (k, cubic, periodic, dm, rise) =>
      m.engage n (bitsOf (p1Of c.w) 8 16) (.cam t off k cubic periodic dm rise (signedOf 64 (p0Of c.w))) (profOf c.w)
        (some c) none
    | none => m.taken c 0x81
  | 0x13 => (m.trimCmd n (p1Of c.w) (p0Of c.w)).taken c 0x00
  | _ => m.startMotion n c B B s

/-- R144, R203: whether the effect of a command begins at the boundary after it is taken. -/
def beginsLater (opc : Nat) : Bool := decide (1 ≤ opc ∧ opc ≤ 4) || opc == 0x06 || opc == 0x11 || opc == 0x12

/-- A command taken in this tick has not begun (R203). -/
def Mach.notBegun (m : Mach) (c : MotionCmd) (n : Nat) : Mach :=
  match c.id with
  | some k => m.modAx n fun a => { a with young := (c.q, k) :: a.young }
  | none => m

/-- An accepted axis-class command acts on one axis. -/
def Mach.actOn (m : Mach) (n : Nat) (c : MotionCmd) : Mach :=
  (m.actNow n c).when (beginsLater (opcOf c.w)) (·.notBegun c n)

/-- A command of an axis queue is taken in the axis's slot (R175 check 4, R177). -/
def Mach.takeAxis (m : Mach) (n : Nat) (c : MotionCmd) : Mach :=
  match legal (opcOf c.w) (m.ax n).eff (m.ax n).group.isSome with
  | .reject => m.taken c 0x82
  | .noEffect => m.taken c 0x00
  | .accept => m.actOn n c

/-- A command of a group queue is taken in the slot of the lowest-numbered member (R170, R178). Log entry 33 (DEDUCED). -/
def Mach.takeGroup (m : Mach) (g : Nat) (c : MotionCmd) : Mach :=
  let axs := c.axs
  let verdict (n : Nat) : Verdict :=
    let a := m.ax n
    if opcOf c.w = 0x10 then
      (if a.eff = .hold ∨ (a.eff = .move ∧ a.group = some g) then .accept else .reject)
    else if opcOf c.w = 0x08 ∧ a.eff = .off ∧ m.enableRefused n then .reject
    else legal (opcOf c.w) a.eff a.group.isSome
  if axs = [] ∨ axs.any fun n => verdict n = .reject then m.taken c 0x82
  else if opcOf c.w = 0x10 then
    (if m.groupRunning g then m.modArm g fun a => { a with ahead := a.ahead ++ [c] }
     else ((m.startGroup g c (m.clk.tick + 2) (m.clk.tick + 1) 0).notBegun c) (axs.headD 0))
  else
    let acts := axs.filter fun n => verdict n = .accept
    if acts = [] then m.taken c 0x00
    else
      let m1 := match c.id with
        | some k => m.modQ c.q fun q =>
            { q with inflight := q.inflight.map fun e => if e.id = k then { e with parts := acts.length } else e }
        | none => m
      acts.foldl (fun m n => m.actOn n c) m1

/-- A command an engine takes: from queue q < 48 for axis q, else for the armature's members. -/
def Mach.take (m : Mach) (c : MotionCmd) : Mach :=
  if c.q < 48 then m.takeAxis c.q c else m.takeGroup (c.q - 48) c

/-- The engine takes the commands dispatched to the axis in this tick, in order. -/
def Mach.takeAll (m : Mach) (n : Nat) : Mach :=
  let cs := (m.ax n).toTake
  cs.foldl (fun m c => m.take c) (m.modAx n fun a => { a with toTake := [] })

/-! ### Current target, resolution and mode requests -/

/-- I_base of R261 at boundary `B`. -/
def Mach.iBase (m : Mach) (n B : Nat) : Nat :=
  let a := (m.ax n).shown B
  let run := m.iRun n
  let hold := m.iHold n
  let rest := a.holdOvr.getD hold
  match a.eff with
  | .off | .maquette => 0
  | .arming =>
    let nr := 50 * max 1 (m.rd F.AX_IHOLD_ARM_RAMP n)
    hold * min (B - a.arming0) nr / nr
  | .hold =>
    if a.keepRun then run
    else if a.redDone then rest
    else match a.ramp0 with
      | some t =>
        let nr := 50 * min 1000 (m.rd F.AX_IHOLD_RAMP n)
        let k := B - t
        if nr ≤ k then rest else run - (run - rest) * k / nr
      | none => run
  | .fault =>
    match a.recovering with
    | some t => let nr := 50 * max 1 (m.rd F.PW_VMON_TIM_UV_RAMP (bankOf n)); hold * min (B - t) nr / nr
    | none => if m.faultHolds n then hold else 0
  | _ => run

/-- The threshold of a resolution level, in microsteps/s (R249). -/
def Mach.resThr (m : Mach) (n k : Nat) : Rat :=
  let x := match k with
    | 1 => m.rd F.AX_RES_THR_THR64 n
    | 2 => m.rd F.AX_RES_THR_THR16 n
    | 3 => m.rd F.AX_RES_THR2_THR4 n
    | _ => m.rd F.AX_RES_THR2_THRFS n
  ((x * 256 : Nat) : Rat)

/-- R249: the level reached upward from `l`. -/
def Mach.resUp (m : Mach) (n : Nat) (v : Rat) : Nat → Nat → Nat
  | 0, l => l
  | fuel + 1, l =>
    let thr := m.resThr n (l + 1)
    if l < 4 ∧ thr ≠ 0 ∧ thr ≤ ratAbs v then m.resUp n v fuel (l + 1) else l

/-- R249: the level reached downward from `l`. -/
def Mach.resDown (m : Mach) (n : Nat) (v : Rat) : Nat → Nat
  | 0 => 0
  | l + 1 => if 16 * ratAbs v < 15 * m.resThr n (l + 1) then m.resDown n v l else l + 1

/-- The requests published with velocity `v` (R249, R252). -/
def Mach.reqOf (m : Mach) (n B : Nat) (v : Rat) (old : Req) : Req :=
  let up := m.resUp n v 4 old.level
  let lvl := if old.level < up then up else m.resDown n v old.level
  let vs : Rat := ((256 * m.rd F.AX_MODE_CFG_VSTRONG n : Nat) : Rat)
  let strong := match m.rd F.AX_MODE_CFG_FORCE n with
    | 1 => false
    | 2 => true
    | _ =>
      if vs ≠ 0 ∧ vs ≤ ratAbs v then true
      else if vs = 0 ∨ 16 * ratAbs v < 15 * vs then false
      else old.strong
  { ibase := m.iBase n B, level := lvl, strong := strong }

/-! ### Stall and following error -/

/-- The verification port of an axis, where verification acts (R348). -/
def Mach.verPort (m : Mach) (n : Nat) : Option Nat :=
  let p := m.rd F.LA_VER_CFG_PORT (n / 12) (n % 12)
  if m.rb F.LA_VER_CFG_EN (n / 12) (n % 12) ∧ p < 12 then some p else none

/-- The feedback position p_fb of R348, in microsteps. -/
def Mach.pFb (m : Mach) (n p : Nat) : Rat :=
  wrapPos (m.portPos p + posOf (m.rd F.LA_VER_OFS (n / 12) (n % 12)))

/-- R348: OFS is captured so that the feedback position equals the commanded position. -/
def Mach.verCapture (m : Mach) (n : Nat) : Mach :=
  match m.verPort n with
  | some p =>
    if m.rd F.LA_VER_CFG_OFS_MODE (n / 12) (n % 12) = 0 then
      m.wr F.LA_VER_OFS (pubPos (cmdPos (m.ax n).cur.p - m.portPos p)) (n / 12) (n % 12)
    else m
  | none => m

/-- DEG of criterion A (R341): with the ripple-slope source, above 75 acts as 75. -/
def Mach.stallDeg (m : Mach) (b j src : Nat) : Nat :=
  let d := clampNat 20 120 (m.rd F.LA_STALL_CFG_DEG b j)
  if src = 1 then min 75 d else d

/-- The state code of LA_STALL (R353). -/
def stallState (x : AxMode) : Nat := match x with | .hold => 0 | .move => 1 | .follow => 2 | _ => 3

/-- R343: a stall retry begins: a stop part with slot 7, then a pause. -/
def Mach.startRetry (m : Mach) (n : Nat) : Mach :=
  let b := n / 12
  let j := n % 12
  let a := m.ax n
  let B := m.clk.tick + 1
  let s := a.planAt B
  let lim := m.limOf n 7
  let k := a.retry.count + 1
  let pct := clampNat 10 100 (m.rd F.LA_RETRY_CFG_PCT b j)
  let prof := match a.seg with | some g => g.prof | none => 0
  let m1 := m.modAx n fun a =>
    { a with
      retry := { count := k, waiting := true, vPct := some pct, goal := (a.retry.goal.orElse fun _ => a.seg) }
      seg := some (stopSeg lim s B prof) }
  (m1.setBit F.LA_AX_STAT_RETRYING b j).post Ev.LA_RETRY n
    (k % 16 + 2 ^ 16 * (min (m.rd F.AX_PROF_VMAX n prof) 0x9C400000 * pct / 100))

/-- R342: the reaction to a declared stall. -/
def Mach.stallReact (m : Mach) (n : Nat) : Mach :=
  let b := n / 12
  let j := n % 12
  let a := m.ax n
  let sixth : Bool := match a.home with | some h => h.method == 6 | none => false
  let react := if sixth then 2 else m.rd F.LA_STALL_CFG_REACT b j
  let plain : Bool := match a.cmds with
    | c :: _ => decide (c.q < 48 ∧ 1 ≤ opcOf c.w ∧ opcOf c.w ≤ 3)
    | [] => false
  match a.eff with
  | .move | .stop | .follow =>
    if react = 0 then m
    else if a.eff = .follow ∨ a.group.isSome then m.estop n 5
    else if react = 2 then m.hardStopAt n m.safeBoundary 0x01
    else if react = 3 ∧ a.eff = .move ∧ plain then
      (if a.retry.count < m.rd F.LA_RETRY_CFG_MAX b j then m.startRetry n
       else (m.post Ev.LA_RETRY_OUT n a.retry.count).estop n 5)
    else m.estop n 5
  | _ => m

/-- R341, R342: the stall criteria of the present boundary are judged in the axis's slot. -/
def Mach.stallSlot (m : Mach) (n : Nat) : Mach :=
  let b := n / 12
  let j := n % 12
  let a := m.ax n
  let crit := m.rb F.LA_AX_STALL_NOW b j
  let live := match a.eff with
    | .hold | .move | .follow | .stop | .estop => true
    | _ => false
  let checks := m.rb F.LA_STALL_CFG_EN b j && live && decide (a.blankUntil ≤ m.clk.tick)
  if !(checks && crit) then m.modAx n fun a => { a with stallRun := 0, declared := a.declared && crit }
  else
    let k := a.stallRun + 1
    let need := max 1 (m.rd F.LA_STALL_CFG_N b j)
    let now := decide (need ≤ k) && !a.declared
    let m1 := m.modAx n fun a => { a with stallRun := k, declared := a.declared || now }
    if !now then m1
    else
      let la := m.reg .LA_AX b j
      let m2 := (((m1.setBit F.LA_AX_STAT_STALL b j).bump F.LA_AX_STAT_STALL_CNT b j).uncertain n).wr F.LA_AX_ILF
        a.curReq.ibase b j
      let m3 := m2.post Ev.LA_STALL n
        (bitsOf la 0 16 + 2 ^ 16 * b2n (m.ob n).critA + 2 ^ 17 * b2n (m.ob n).critB + 2 ^ 18 * m.rd F.LA_STALL_CFG_REACT b j
          + 2 ^ 20 * m.rd F.LA_AX_SRC b j + 2 ^ 22 * stallState a.eff)
      match a.home with
      | some h =>
        if h.method = 6 ∧ !h.captured ∧ h.failCode = 0 then
          ((((m3.wr F.AX_HOME_CAP_CAP_POS (pubPos a.cur.p) n).wr F.AX_HOME_CAP_TS (tickStamp m.clk.tick) n).modAx n
            fun a => { a with home := some { h with captured := true, step := 6 } }).homePhase n 6).stallReact n
        else m3.stallReact n
      | none => m3.stallReact n

/-- R349: the following error of the present boundary. -/
def Mach.ferrSlot (m : Mach) (n : Nat) : Mach :=
  let b := n / 12
  let j := n % 12
  let a := m.ax n
  match m.verPort n, a.mode with
  | some p, .hold | some p, .move | some p, .follow | some p, .stop | some p, .estop =>
    if m.portBad p then m
    else
      let e := wrapPos (cmdPos a.cur.p - m.pFb n p)
      let raw := unsignedOf 32 (satSigned 32 (toFixed 8 e))
      let warn : Rat := (m.rd F.LA_VER_LIM_WARN b j : Nat)
      let lim : Rat := (m.rd F.LA_VER_LIM_FAULT b j : Nat)
      let m1 := m.wr F.LA_VER_FERR raw b j
      let above := decide (warn ≠ 0 ∧ warn < ratAbs e)
      let m2 := if above && !a.ferrWarned then
          ((m1.setBit F.LA_AX_STAT_FERR_WARN b j).post Ev.LA_FERR_WARN n raw).modAx n fun a => { a with ferrWarned := true }
        else if above then m1.setBit F.LA_AX_STAT_FERR_WARN b j
        else if a.ferrWarned && decide (ratAbs e ≤ 15 * warn / 16) then m1.modAx n fun a => { a with ferrWarned := false }
        else m1
      if lim ≠ 0 ∧ lim < ratAbs e ∧ a.pendFault ≠ some 5 then
        (((m2.setBit F.LA_AX_STAT_FERR_FAULT b j).uncertain n).post Ev.LA_FERR_FAULT n raw).faultAfterEstop [n] 5 6
      else m2
  | _, _ => m

/-! ### Limits -/

/-- R155: both enabled limit inputs active at the snapshot's boundary: an axis outside FAULT takes the cause; in FAULT each onset posts
it. -/
def Mach.bothSlot (m : Mach) (n : Nat) : Mach :=
  let both := m.rb F.AX_LIM_CFG_EN_A n && m.rb F.AX_LIM_CFG_EN_B n && m.limActiveIn m.snapIn n false
    && m.limActiveIn m.snapIn n true
  let a := m.ax n
  let m1 := m.modAx n fun a => { a with bothPrev := both }
  if both && a.eff ≠ .off && (a.eff ≠ .fault || !a.bothPrev) then (m1.setBit F.AX_LIM_STAT_BOTH n).fault n 6 else m1

/-- R154: one latch clears automatically once its input is inactive and the axis lies AWAY from where it set. -/
def Mach.autoClear (m : Mach) (n : Nat) (sideB : Bool) : Mach :=
  let f := if sideB then F.AX_LIM_STAT_LATCH_B else F.AX_LIM_STAT_LATCH_A
  let a := m.ax n
  let at_ := if sideB then a.latPosB else a.latPosA
  let gone := if m.limIsPos n sideB then at_ - a.cur.p else a.cur.p - at_
  if m.rb F.AX_LIM_CFG_AUTO_CLR n && m.rb f n && !m.limActiveIn m.snapIn n sideB
      && decide (ofFixed 8 (m.rd F.AX_LIM_AWAY_AWAY n : Nat) ≤ gone) then
    (m.clrFld f n).post Ev.AX_LIMIT_CLEAR n (b2n sideB + 2)
  else m

/-- R156: the commanded position lies beyond a soft limit and moves further beyond it. -/
def Mach.softBeyond (m : Mach) (n : Nat) (k : Kin) : Bool :=
  m.slimOn n && (decide (m.slimHi n < softNum k.p ∧ 0 < k.v) || decide (softNum k.p < m.slimLo n ∧ k.v < 0))

/-- The ESTOP cause SOFT_LIMIT (R156). -/
def Mach.softStop (m : Mach) (n : Nat) (hi : Bool) : Mach := (m.post Ev.AX_SOFT_LIMIT n (b2n hi)).estop n 4

/-- The positions at which the axis turns or rests under a positioning segment from boundary `B` on. -/
def Seg.turns (g : Seg) (B : Nat) : List Rat :=
  let t := ofFixed 24 g.target
  match g.revAt with
  | some r => if B < g.t0 + r then [(g.at (g.t0 + r)).p, t] else [t]
  | none => [t]

/-- R156: soft limits against the segment in flight: a VEL is replanned to the limit in time; a changed limit replaces
the target; where no stop under the slot's limits can keep the axis within, the ESTOP cause SOFT_LIMIT applies. -/
def Mach.softSlot (m : Mach) (n : Nat) : Mach :=
  let a := m.ax n
  let check := a.slimCheck
  let m0 := m.modAx n fun a => { a with slimCheck := false }
  match a.seg with
  | some g =>
    let B := m.clk.tick + 1
    let s := g.at B
    let x := softNum s.p
    let hi := m.slimHi n
    let lo := m.slimLo n
    let own := a.home.isNone && !a.retry.waiting
    -- the limit that the axis passes on its way from `s` to `p`
    let passes (p : Rat) : Option Bool :=
      let y := x + (p - s.p)
      if hi < y ∧ s.p < p then some true else if y < lo ∧ p < s.p then some false else none
    let stop (k : Kin) : Rat := (endOf k (planStop g.lim k)).p
    let toLimit (up : Bool) : Mach :=
      (m0.replanPos n B s g.prof g.lim (s.p + ((if up then hi else lo) - x)) 0x02).post Ev.AX_SOFT_LIMIT n (b2n up)
    if !m.slimOn n || !m.stoppable n then m0
    else if m.softBeyond n s then m0.softStop n (decide (hi < x))
    else
      match g.kind with
      | .stopping => (match passes (endOf g.start g.phases).p with | some up => m0.softStop n up | none => m0)
      | .velocity =>
        (match passes (stop s) with
         | some up => m0.softStop n up
         | none =>
           match passes (stop (g.at (B + 1))) with
           | some up => if own then toLimit up else m0
           | none => m0)
      | .position =>
        match (g.turns B).findSome? passes with
        | none => m0
        | some up =>
          if passes (stop s) = some up then m0.softStop n up
          else if check && own && passes (ofFixed 24 g.target) = some up then toLimit up
          else m0
  | none => m0

/-! ### The slot -/

/-- R149: a lookahead that arrives before P5 of a blending segment replans it to the same target. -/
def Mach.blendSlot (m : Mach) (n : Nat) : Mach :=
  let a := m.ax n
  match a.seg, a.cmds with
  | some g, c :: _ =>
    let B := m.clk.tick + 1
    if g.kind = .position ∧ isBlend c.w ∧ a.home.isNone ∧ a.group.isNone ∧ g.status = 0 then
      let s := g.at B
      let t := ofFixed 24 g.target
      let ve := m.blendInto n s g.lim c.w t
      let early := decide (B < g.endTick ∧ B ≤ g.endTick - g.tail)
      if ve ≠ ratAbs g.vEnd ∧ early then m.setPosSeg n B s g.prof g.lim t ve 0x00 else m
    else m
  | _, _ => m

/-- The state of an axis for boundary t + 1 where neither a follower law nor a path gives it. -/
def Mach.planSlot (m : Mach) (n : Nat) : Mach :=
  let B := m.clk.tick + 1
  m.modAx n fun a =>
    match a.seg with
    | some g => { a with nxt := g.at B }
    | none => { a with nxt := { a.nxt with v := 0, a := 0 } }

/-- R378: an engagement by FB_FOLLOW at the axis's engine slot. -/
def Mach.fbSlot (m : Mach) (n : Nat) : Mach :=
  match (m.ax n).fbEngage with
  | none => m
  | some (p, prof) =>
    let m0 := m.modAx n fun a => { a with fbEngage := none }
    match (m.ax n).eff with
    | .hold | .follow =>
      m0.engage n (0x1000 + p) (.gear (2 ^ 32)) prof none (some p)
    | _ => m0.setBit F.FB_STAT_FOLLOW_REFUSED p

/-- A retarget that waits acts in the axis's slot (R147). -/
def Mach.retgtSlot (m : Mach) (n : Nat) : Mach :=
  match (m.ax n).retgt with
  | some w => (m.modAx n fun a => { a with retgt := none }).applyRetgt n w
  | none => m

/-- What an axis's slot checks (R152 to R156, R349, R375): limits, stall, following error, homing. -/
def Mach.checkSlot (m : Mach) (n : Nat) : Mach :=
  let m1 := (((m.fbSlot n).bothSlot n).autoClear n false).autoClear n true
  ((((m1.stallSlot n).ferrSlot n).homeSlot n).softSlot n).blendSlot n

/-- The registration channels of an axis look for a missed mark (R235). -/
def Mach.regSlots (m : Mach) (n : Nat) : Mach := m.each 4 fun m r => if m.rd F.GR_REG_CFG_AXIS r = n then m.regMiss r else m

/-- The state of an axis for the next boundary: along its path, by its follower law, or by its own segment (R143, R214, R224). -/
def Mach.moveSlot (m : Mach) (n : Nat) (camMissing : Bool) : Mach :=
  match (m.ax n).group, (m.ax n).follow with
  | some g, _ => ((if (m.arm g).owner = n then m.pathSlot g else m).memberSlot n g).memberSoft n g
  | none, some _ => m.followSlot n camMissing
  | none, none => m.planSlot n

/-- The axis's slot in its engine (R21, R22): commands, retarget, planning, following, limits, stall, profile.
Log entry 35 (DEDUCED). -/
def Mach.axisSlot (m : Mach) (n : Nat) (camMissing : Bool) : Mach :=
  let B := m.clk.tick + 1
  let m8 := ((((m.takeAll n).retgtSlot n).checkSlot n).regSlots n).moveSlot n camMissing
  m8.modAx n fun a => { a with nxtReq := m8.reqOf n B (cmdVel a.nxt.v) a.nxtReq, pubd := true }

/-! ### The boundary -/

/-- R184: at boundary `B`, at which a segment `g` ends in the state `s`, the commands looked ahead start in turn; one that retires
without motion gives way to the next. An axis that still moves when none is left stops. Log entry 139 (DEDUCED). -/
def Mach.startAhead (m : Mach) (n B : Nat) (g : Seg) (s : Kin) : List MotionCmd → Mach
  | [] => if s.v = 0 then m.enterHold n B else m.modAx n fun a => { a with seg := some (stopSeg g.lim s B g.prof) }
  | c :: rest =>
    let m1 := (m.modAx n fun a => { a with ahead := rest, seg := none }).startMotion n c B B s
    if (m1.ax n).seg.isSome then m1 else m1.startAhead n B g s rest

/-- What boundary B does to a segment that ends there (R144, R145, R150, R158). -/
def Mach.segEnd (m : Mach) (n B : Nat) (g : Seg) : Mach :=
  let a := m.ax n
  match g.kind with
  | .velocity =>
    if a.home.isSome then m
    else
      let m1 := (m.retireAll a.cmds g.status B).modAx n fun a =>
        { a with cmds := [], retry := { count := 0, waiting := false, vPct := none, goal := none } }
      if g.vEnd = 0 then m1.enterHold n B else m1
  | .position =>
    if a.home.isSome then m.homeStepEnd n B
    else
      let m1 := (m.retireAll a.cmds g.status B).modAx n fun a =>
        { a with cmds := [], retry := { count := 0, waiting := false, vPct := none, goal := none } }
      m1.startAhead n B g { a.cur with a := 0 } a.ahead
  | .stopping =>
    if a.home.isSome then m.homeStepEnd n B
    else if a.retry.waiting then m.modAx n fun a => { a with seg := none }
    else
      let m1 := (m.retireAll a.stopCmds 0x00 B).modAx n fun a => { a with stopCmds := [] }
      m1.rampEnd n B

/-- The requests that go with zero velocity are in force (R249, R252). -/
def Mach.reqAtRest (m : Mach) (n B : Nat) : Mach :=
  let r := m.reqOf n B 0 (m.ax n).curReq
  m.modAx n fun a =>
    { a with curReq := { a.curReq with level := r.level, strong := r.strong }, nxtReq := { a.nxtReq with level := r.level, strong := r.strong } }

/-- The commands in flight of a hard stop: the axis's own, and the GROUP_MOVE of a member (R153, R219). -/
def Mach.hardCmds (m : Mach) (n : Nat) : List MotionCmd :=
  match m.groupOf n with
  | some g => (m.arm g).cmd.toList
  | none => []

/-- R153, R161, R342: the hard stop due at boundary `B` takes effect; the commands in flight retire with `st`. -/
def Mach.hardStop (m0 : Mach) (n B st : Nat) : Mach :=
  let m := (m0.retireAll (m0.hardCmds n) st B).reqAtRest n B
  let a := m.ax n
  let m1 := if st = 0x02 then (m.breakPath n 0xFF).when (decide (a.cur.v ≠ 0)) (·.uncertain n) else m
  let m2 := (m1.retireAll a.stopCmds st B).modAx n fun a => { a with stopCmds := [] }
  match a.home with
  | some h =>
    if h.captured ∧ h.failCode = 0 then (m2.homeDone n B h).rampEnd n B
    else ((m2.homeCut n).dropMotion n st B).rampEnd n B
  | none => ((m2.leaveFollow n B).dropMotion n st B).rampEnd n B

/-- AX_REVERSAL as the stop part before a reversal ends (R145, R148). -/
def Mach.revNote (m : Mach) (n B : Nat) : Mach :=
  let a := m.ax n
  match a.seg with
  | some g =>
    if g.revAt = some (B - g.t0) ∧ g.t0 < B then m.postAt Ev.AX_REVERSAL n (unsignedOf 48 (toFixed 24 a.cur.p)) (tickStamp B) else m
  | none => m

/-- Whether a cause with path "after ESTOP" has no ramp to wait for (R133): the axis is in ARMING or in HOLD. -/
def Axis.faultDue (a : Axis) : Bool :=
  a.fresh.isSome || a.eff == .arming || a.eff == .hold

/-- What boundary B does to an axis once the state published for it is in force. -/
def Mach.axisTick (m : Mach) (n : Nat) : Mach :=
  let B := m.clk.tick
  let a := m.ax n
  match a.hardAt.filter (fun h => decide (h.1 ≤ B)), (if a.faultDue then a.pendFault else none) with
  | some h, _ => (m.revNote n B).hardStop n B h.2
  | none, some c => (m.modAx n fun a => { a with pendFault := none }).enterFault n c B
  | none, none =>
    if a.group.isSome then m
    else
      let m0 := m.revNote n B
      if a.eff = .estop then
        if a.eb = some B then
          let s := a.cur
          let m1 := (m0.leaveFollow n B).modAx n fun a => { a with eb := none }
          if s.v = 0 then m1.rampEnd n B
          else
            m1.modAx n fun a => { a with seg := some (stopSeg (m.limOf n 7) s B 7) }
        else match a.seg with
          | some g => if g.kind = .stopping ∧ a.eb.isNone ∧ g.endTick ≤ B then m0.rampEnd n B else m0
          | none => m0
      else
        match a.seg with
        | some g => if g.endTick = B ∨ (g.endTick ≤ B ∧ g.kind ≠ .velocity) then m0.segEnd n B g else m0
        | none => m0

/-- AX_STATE at a boundary (R167). -/
def Mach.stateWord (m : Mach) (n : Nat) : Word :=
  let B := m.clk.tick
  let a := (m.ax n).shown B
  let ired := a.eff == .hold && (a.redDone || (match a.ramp0 with | some t => decide (t < B) | none => false)) && !a.keepRun
  let rev := match a.seg with
    | some g => (match g.revAt with
      | some r => decide (g.t0 + phaseTicks (releasePart g.lim g.start) ≤ B ∧ B < g.t0 + r)
      | none => false)
    | none => false
  BitVec.ofNat 128
    (pubPos a.cur.p + pubVel a.cur.v * 2 ^ 64 + a.mode.code * 2 ^ 112
      + (if a.mode = .maquette then a.sub.code else 0) * 2 ^ 116 + b2n a.homed * 2 ^ 120 + b2n a.posUnc * 2 ^ 121
      + b2n (m.latched n false) * 2 ^ 122 + b2n (m.latched n true) * 2 ^ 123 + b2n ired * 2 ^ 124
      + b2n (a.seg.isSome || a.group.isSome) * 2 ^ 125 + b2n rev * 2 ^ 126)

/-- The segment that runs for an axis: its own, or the path of its GROUP_MOVE with the member's target. -/
def Mach.runSeg (m : Mach) (n : Nat) (a : Axis) : Option Seg :=
  match a.group with
  | some g =>
    let x := m.arm g
    x.run.map fun r => match x.members.find? (·.ax = n) with | some y => { r with target := y.target } | none => r
  | none => a.seg

/-- The command in flight that AX_SEG names: the axis's, its GROUP_MOVE, or the STOP that runs. -/
def Mach.segCmd (m : Mach) (a : Axis) : Option MotionCmd :=
  match a.group with
  | some g => (m.arm g).cmd
  | none => (a.cmds ++ a.stopCmds).head?

/-- AX_SEG at a boundary (R167). -/
def Mach.segWord (m : Mach) (n : Nat) : Word :=
  let B := m.clk.tick
  let a := (m.ax n).shown B
  match m.runSeg n a with
  | none => BitVec.ofNat 128 (0xF * 2 ^ 16)
  | some g =>
    let tag := match m.segCmd a with | some c => tagOf c.w | none => 0
    let total := phaseTicks g.phases
    let cruise := g.kind == .velocity && decide (g.t0 + total ≤ B)
    let ph := match phaseIndex g.phases (B - g.t0) 0 with
      | some i => i
      | none => if cruise then g.phases.length else 0xF
    let remain := if cruise then 2 ^ 32 - 1 else min (2 ^ 32 - 1) (g.t0 + total - B)
    BitVec.ofNat 128
      (tag + min ph 0xF * 2 ^ 16 + g.prof * 2 ^ 20 + remain * 2 ^ 24
        + (if g.kind = .position then unsignedOf 64 g.target else 0) * 2 ^ 64)

/-- GR_FSTATE at a boundary (R238). -/
def Mach.followWord (m : Mach) (n : Nat) : Word :=
  match (m.ax n).follow with
  | none => 0
  | some f =>
    let law := match f.law with | .gear _ => 1 | .cam .. => 2
    let table := match f.law with | .gear _ => 0 | .cam t .. => t
    BitVec.ofNat 128
      (pubPos f.mlast + pubVel f.mvel * 2 ^ 64 + law * 2 ^ 112 + b2n f.sync.isSome * 2 ^ 114 + b2n f.extrap * 2 ^ 115
        + b2n f.clamp * 2 ^ 116 + table % 64 * 2 ^ 117)

/-- R165: where the model rotor of an axis in MAQUETTE stands from the present boundary on, while STALL_INJ stops it. -/
def Mach.rotorStop (m : Mach) (n : Nat) : Option Rat :=
  let a := m.ax n
  if a.mode = .maquette ∧ m.rb F.AX_MAQ_CFG_STALL_INJ n then
    some (a.frozen.getD (ofFixed 24 (toFixed 24 a.cur.p + (m.rd F.AX_COMM_OFS_OFS n : Nat)) - (m.rd F.AX_MAQ_CFG_LOAD n : Nat)))
  else none

/-- The snapshot registers of an axis. Log entry 35 (DEDUCED). -/
def Mach.snapShow (m : Mach) (n : Nat) : Mach :=
  let st := m.stateWord n
  let sg := m.segWord n
  let fo := m.followWord n
  m.modAx n fun a => { a with snapState := st, snapSeg := sg, snapFollow := fo }

/-- The snapshot registers of an axis at a boundary, which wait where ER still owes it (R419); the plan in force from it is kept
(R159). -/
def Mach.axisSnap (m : Mach) (n : Nat) : Mach :=
  let B := m.clk.tick
  let stop := m.rotorStop n
  let m1 := if m.fm.owed.contains n then m else m.snapShow n
  m1.modAx n fun a =>
    { a with young := [], frozen := stop, clampMoved := a.clampMoved || ((m.bank (bankOf n)).clamp && a.cur.v != 0)
             fresh := a.fresh.filter fun f => decide (B < f.at_), plans := (B, a.seg, a.cur) :: a.plans.take 15 }

/-- R346: a resynchronisation that waits for this boundary acts as a SET_POS to p_fb. -/
def Mach.resyncTick (m : Mach) (n : Nat) : Mach :=
  if !(m.ax n).resync then m
  else
    let m0 := m.modAx n fun a => { a with resync := false }
    match m0.verPort n with
    | some p =>
      let d := wrapPos (m0.pFb n p - cmdPos (m0.ax n).cur.p)
      (m0.reassign n d).post Ev.LA_RESYNC n (unsignedOf 48 (toFixed 24 d))
    | none => m0

/-- GR_PATH at a boundary (R215), which waits while ER still owes a member (R419). -/
def Mach.pathSnap (m : Mach) (g : Nat) : Mach :=
  let a := m.arm g
  if a.members.any (fun x => m.fm.owed.contains x.ax) then m
  else m.setReg .GR_PATH g 0 (pubPos a.sCur + pubVel a.vCur * 2 ^ 64 + a.tag * 2 ^ 112)

/-- Whether ER is taking over the engine of an axis and has not yet published it again (R416). -/
def Mach.erOwes (m : Mach) (n : Nat) : Bool := m.fm.tkos.any fun t => t.unit == 0x20 + n / 6 && !t.resumed.contains n

/-- R416: what the failed engine still owed for the boundary that comes, as ER evaluates it from the checkpoints: the results equal
those the engine would have published. Its snapshot registers wait for ER's publication. Log entry 35 (DEDUCED). -/
def Mach.owedSlot (m : Mach) (n : Nat) : Mach :=
  if (m.ax n).pubd || m.dbgHalt || m.gasp || !m.erOwes n then m
  else
    let m1 := if m.fm.owed.contains n then m else m.axisSlot n false
    { m1 with fm := { m1.fm with owed := m1.fm.owed.filter (· != n) ++ [n] } }

/-- R416, R419: ER publishes axis `n`; the regulator resumes it from its next deadline, and its snapshot registers go on.
Log entry 35 (DEDUCED). -/
def Mach.erPublish (m : Mach) (n : Nat) : Mach :=
  let m1 := if m.fm.owed.contains n then m.snapShow n else m
  let mark (t : Tko) : Tko := if t.unit == 0x20 + n / 6 then { t with resumed := n :: t.resumed } else t
  let m2 : Mach := { m1 with fm := { m1.fm with owed := m1.fm.owed.filter (· != n), tkos := m1.fm.tkos.map mark } }
  match (m.ax n).group with
  | some g => m2.pathSnap g
  | none => m2

/-- The slot of an axis as its engine, or ER in its place, comes to it (R21, R416); a boundary that ER owed is published, and the axis's
own slot for the next boundary is still to come. An engine that is lost does nothing (R410). Log entry 35 (DEDUCED). -/
def Mach.engineSlot (m : Mach) (n : Nat) (camMissing : Bool) : Mach :=
  if m.engineDown (n / 6) then m
  else if m.fm.owed.contains n then m.erPublish n
  else (m.axisSlot n camMissing).when (m.erOwes n) (·.erPublish n)

/-- The engines' part of a tick boundary (R19, R22): the states published for it are in force; segments, ramps and paths
that end there end; the snapshot registers are taken. -/
def Mach.enginesTick (m : Mach) : Mach :=
  let m1 : Mach := { m with axes := m.axes.map fun (a : Axis) => { a with cur := a.nxt, curReq := a.nxtReq, pubd := false } }
  let m2 := m1.each 16 fun m g => m.armTick g
  let m3 := (m2.each 48 fun m n => m.axisTick n).each 48 Mach.resyncTick
  m3.each 48 fun m n => m.axisSnap n

end Sys2Proof.Machine
end

