-- ==== Sys2Proof/Machine/Queue.lean ====
section
/-!
DEFINITION. The queue unit: pushing and publishing (R193, R194), the control bits (R180), starting a routine (R188),
retirement and its records (R184, R195, R197), the read counts of the rings (R195, R198) and aborts (R202 to R208).
-/

namespace Sys2Proof.Machine

/-- The present frame of a queue. -/
def Queue.frame (q : Queue) : Frame := match q.stack with | [] => .ring | f :: _ => f

/-- Whether the queue takes its commands from a routine. -/
def Queue.inRoutine (q : Queue) : Bool := q.frame.pc.isSome

/-- Whether nothing is published, dispatched or running (R179). -/
def Queue.drained (q : Queue) : Bool := q.published.isEmpty && q.inflight.isEmpty && !q.inRoutine && decide (q.stack.length ≤ 1)

/-- The state that the queue's content decides (R180). -/
def Queue.settle (q : Queue) : Queue :=
  match q.st with
  | .idle => if q.drained then q else { q with st := .run, why := 0 }
  | .run | .wait => if q.drained then { q with st := .idle, why := 0 } else q
  | _ => q

/-- Leaves PAUSED or HALTED (R180). -/
def Queue.resume (q : Queue) : Queue :=
  match q.st with
  | .paused | .halted => ({ q with st := .run, why := 0 } : Queue).settle
  | _ => q

/-! ### Pushing -/

/-- R193: a word is staged, or dropped when 32 entries are occupied or the queue is ABORTING. -/
def Mach.push (m : Mach) (q : Nat) (w : Word) : Mach :=
  let x := m.qu q
  if x.st = .aborting then m.setBit F.Q_STATUS_PUSH_DROP q
  else if 32 ≤ x.published.length + x.staged.length then
    (((m.setBit F.Q_STATUS_PUSH_OVF q).setBit F.Q_IRQ_PUSH_OVF).post Ev.Q_PUSH_OVF q (tagOf w))
  else m.modQ q fun x => { x with staged := x.staged ++ [w] }

/-- R193, R194: the staged entries are published. -/
def Mach.publish (m : Mach) (q : Nat) : Mach :=
  m.modQ q fun x => ({ x with published := x.published ++ x.staged, staged := [] } : Queue).settle

/-- R193: the staged entries are dropped. -/
def Mach.discard (m : Mach) (q : Nat) : Mach := m.modQ q fun x => { x with staged := [] }

/-- R193: Q_DB; DISCARD takes precedence. -/
def Mach.writeQDb (m : Mach) (q v : Nat) : Mach :=
  if bitOf v 1 then m.discard q else if bitOf v 0 then m.publish q else m

/-- R194: Q_MDB publishes the queues of a mask at one instant. -/
def Mach.mdb (m : Mach) (hi : Bool) (mask : Nat) : Mach :=
  m.each 32 fun m i => if bitOf mask i then m.publish (if hi then 32 + i else i) else m

/-! ### Control -/

/-- R180: FLUSH acts in IDLE, PAUSED and HALTED. -/
def Mach.flush (m : Mach) (q : Nat) : Mach :=
  m.modQ q fun x =>
    match x.st with
    | .idle | .paused | .halted => { x with published := [], staged := [], stack := [.ring], fetched := none, slotNoted := false, vec := false }
    | _ => x

/-- R180: RESUME acts in PAUSED and HALTED. -/
def Mach.qResume (m : Mach) (q : Nat) : Mach := m.modQ q Queue.resume

/-- R180: PAUSE acts in RUN and WAIT. -/
def Mach.pause (m : Mach) (q : Nat) : Mach :=
  m.modQ q fun x => match x.st with | .run | .wait => { x with st := .paused, why := 0 } | _ => x

/-- R180: the bits of one Q_CTRL write act in the order FLUSH, RESUME, PAUSE. -/
def Mach.writeQCtrl (m : Mach) (q v : Nat) : Mach :=
  ((m.when (bitOf v 2) (·.flush q)).when (bitOf v 1) (·.qResume q)).when (bitOf v 0) (·.pause q)

/-- The queue enters HALTED (R180): reason 1 reject, 2 abort, 3 fetch error. -/
def Mach.halt (m : Mach) (q why : Nat) : Mach :=
  ((m.modQ q fun x => { x with st := .halted, why := 0 }).setBit F.Q_IRQ_HALT).post Ev.Q_HALTED q why

/-! ### Routines -/

/-- The ROUTINE section of a number (R110, R188). -/
def Mach.routine (m : Mach) (rtn : Nat) : Option Section := m.sections.find? fun s => s.ty = 2 ∧ s.inst = rtn

/-- The frame that starts at offset `off` of a stretch [`base`, `bound`). -/
def Frame.at (off base bound : Nat) : Frame := { Frame.ring with pc := some off, base := base, bound := bound }

/-- R188, R192: a routine starts in frame 0 of an IDLE queue. Log entry 76 (DEDUCED). -/
def Mach.rtnStart (m : Mach) (q rtn : Nat) (auto : Bool) : Mach :=
  match (m.qu q).st, m.routine rtn with
  | .idle, some s =>
    (m.modQ q fun x => { x with st := .run, why := 0, stack := [.at s.off s.off (s.off + s.len)], fetched := none, auto_ := auto }).post
      Ev.Q_RTN_START q (rtn + 256 * b2n auto)
  | _, _ => m.setBit F.Q_STATUS_RTN_REFUSED q

/-- R189: the call stack empties to frame 0 on the ring; Q_RTN_END says why (0 END, 1 RETURN, 2 past the section end). -/
def Mach.rtnEnd (m : Mach) (q why : Nat) : Mach :=
  (m.modQ q fun x => { x with stack := [.ring], fetched := none, auto_ := false }).post Ev.Q_RTN_END q why

/-! ### Retirement -/

/-- The position a completion record carries (R184): of the queue's axis or of the armature's lowest member. -/
def Mach.recordPos (m : Mach) (q : Nat) : Nat :=
  if q < 48 then pubPos (m.ax q).cur.p
  else match m.membersOf (q - 48) with
    | [] => 0
    | n :: _ => pubPos (m.ax n).cur.p

/-- The axis state a Q_REJECT event carries (R210). -/
def Mach.rejectState (m : Mach) (q : Nat) : Nat := if q < 48 then (m.ax q).mode.code else 0xF

/-- Whether a status is a reject (R176). -/
def isReject (st : Nat) : Bool := decide (0x80 ≤ st ∧ st ≤ 0x84)

/-- R176, R184, R195, R197: a command leaves the queue with a status at timestamp `ts`: its record, Q_LAST, the status a
JUMP tests, and what a reject does. -/
def Mach.postRetired (m : Mach) (q : Nat) (w : Word) (st ts : Nat) : Mach :=
  let opc := opcOf w
  let sel := m.rd F.Q_CFG_CPL_SEL q
  let posts := isIrq w || isReject st || decide (2 ≤ sel)
  let m1 := ((m.wr F.Q_LAST_TAG (tagOf w) q).wr F.Q_LAST_STATUS st q).wr F.Q_LAST_OPC opc q
  let m2 := m1.modQ q fun x =>
    if axisClass opc || opc == 0x30 || opc == 0x31 || opc == 0x50 then { x with lastStatus := st } else x
  let m3 := if posts then m2.postCpl (cplWord opc st (tagOf w) ts (m.recordPos q)) q else m2
  let m4 := m3.when (isIrq w) (·.setBit F.Q_IRQ_CPL)
  if isReject st then
    let m5 := ((m4.setBit F.Q_STATUS_REJECTED q).wr F.Q_STATUS_REJ_STATUS st q).setBit F.Q_IRQ_REJECT
    let m6 := m5.post Ev.Q_REJECT q (st + 256 * opc + 2 ^ 16 * tagOf w + 2 ^ 32 * m.rejectState q)
    let m7 := m6
    if m7.rb F.Q_CFG_STOP_ON_REJECT q && ((m7.qu q).st == .run || (m7.qu q).st == .wait) then m7.halt q 1 else m7
  else m4

/-- R88: the homing of an autostart routine that retires before step 16 completes is noted. Log entry 51 (DEDUCED). -/
def Mach.homeNote (m : Mach) (q : Nat) (w : Word) (st : Nat) (auto : Bool) : Mach :=
  if auto && decide (q < 48) && opcOf w == 0x06 && m.kn.phase == .run && !m.kn.step16 then
    { m with kn := { m.kn with homeFail := putBits m.kn.homeFail q 1 (b2n (st != 0)) } }
  else m

/-- R181: the retirements due at the present boundary are applied, in retirement order, ties in dispatch order. -/
def Mach.retireDue (m : Mach) (q : Nat) : Mach :=
  let t := m.clk.tick
  let due := (m.qu q).inflight.filter fun e => match e.done with | some (_, a) => decide (a ≤ t) | none => false
  let m1 := m.modQ q fun x =>
    { x with inflight := x.inflight.filter fun e => match e.done with | some (_, a) => decide (t < a) | none => true }
  let m2 := due.foldl (fun m e => match e.done with
    | some (st, a) => (m.homeNote q e.w st e.auto_).postRetired q e.w st (tickStamp a)
    | none => m) m1
  m2.modQ q Queue.settle

/-! ### Ring read counts -/

/-- R195, R198: the read count taken for a written value `v`, where the ring holds `h` records below `wr`. -/
def takenCount (wr h v : Nat) : Nat :=
  let v := v % 2 ^ 32
  if (wr + 2 ^ 32 - v) % 2 ^ 32 ≤ h then v
  else if (v + 2 ^ 32 - wr) % 2 ^ 32 < 2 ^ 31 then wr
  else (wr + 2 ^ 32 - h) % 2 ^ 32

/-- R195: a write of Q_CPL_RD; in STALL mode unread records, reservations and the 64 entries kept stay within 1,024. Unread records
that reach the high-water mark set Q_IRQ.CPL_HWM (R197). -/
def Mach.writeCplRd (m : Mach) (v : Nat) : Mach :=
  let r := m.rings
  let x := takenCount r.cplWr r.cpl.length v
  let room := 960 - m.cplReserved
  let unread := (r.cplWr + 2 ^ 32 - x) % 2 ^ 32
  let x' := if m.cplStall ∧ room < unread then (r.cplWr + 2 ^ 32 - room) % 2 ^ 32 else x
  let m1 : Mach := { m with rings := { r with cplRd := x' } }
  let hwm := m.rd F.Q_UNIT_CFG_CPL_HWM
  m1.when (decide (m.cplUnread < hwm ∧ hwm ≤ m1.cplUnread)) (·.setBit F.Q_IRQ_CPL_HWM)

/-- R198: a write of Q_EVT_RD; after losses Q_EVT_LOSS is posted. Its object is 0: the loss is no queue's.
Log entry 97 (DEDUCED). -/
def Mach.writeEvtRd (m : Mach) (v : Nat) : Mach :=
  let r := m.rings
  let m1 := { m with rings := { r with evtRd := takenCount r.evtWr r.evt.length v, evtLossDue := false } }
  m1.when r.evtLossDue (·.post Ev.Q_EVT_LOSS 0 r.evtLost)

/-- The record at Q_CPL_RD, zero when the ring is empty (R195), and its queue. -/
def Mach.cplPeek (m : Mach) : Option (Word × Nat) :=
  if m.rings.cplWr = m.rings.cplRd then none else ringAt m.rings.cpl m.rings.cplWr m.rings.cplRd

/-- The record at Q_EVT_RD (R198). -/
def Mach.evtPeek (m : Mach) : Option Word :=
  if m.rings.evtWr = m.rings.evtRd then none else ringAt m.rings.evt m.rings.evtWr m.rings.evtRd

/-- R195: Q_CPL_POP's side effect. -/
def Mach.cplPop (m : Mach) : Mach :=
  if m.rings.cplWr = m.rings.cplRd then m
  else { m with rings := { m.rings with cplRd := (m.rings.cplRd + 1) % 2 ^ 32 } }

/-- R198: Q_EVT_POP's side effect. -/
def Mach.evtPop (m : Mach) : Mach :=
  if m.rings.evtWr = m.rings.evtRd then m
  else { m with rings := { m.rings with evtRd := (m.rings.evtRd + 1) % 2 ^ 32 } }

/-! ### Aborts -/

/-- The queues of one axis's scope (R202): its own, those of its armatures, and those of their members. -/
def Mach.axisScope (m : Mach) (n : Nat) : List Nat :=
  let gs := (List.range 16).filter fun g => (m.membersOf g).contains n
  n :: (gs.map (48 + ·)) ++ (gs.map fun g => m.membersOf g).flatten

/-- The set of queues of a scope and index (R202): none where they are invalid. -/
def Mach.abortSet (m : Mach) (scope index : Nat) : Option (List Nat) :=
  let pick (l : List Nat) : List Nat := (List.range 64).filter l.contains
  match scope with
  | 0 => if index < 64 then some [index] else none
  | 1 => if index < 48 then some (pick (m.axisScope index)) else none
  | 2 => if index < 16 then some (pick ((48 + index) :: m.membersOf index)) else none
  | 3 => if index < 4 then some (pick ((axesOfBank index).map fun n => m.axisScope n).flatten) else none
  | 4 => some (List.range 64)
  | _ => none

/-- The axes an abort reaches: of every axis queue, and the members of every group queue. -/
def Mach.abortAxes (m : Mach) (qs : List Nat) : List Nat :=
  (List.range 48).filter fun n => qs.contains n || (List.range 16).any fun g => qs.contains (48 + g) && (m.membersOf g).contains n

/-- An abort takes the kept commands of an axis in FAULT with cause 0x01 (R208); its recovery ends in HOLD. -/
def Mach.dropKept (m : Mach) (n : Nat) : Mach :=
  match (m.ax n).kept with
  | none => m
  | some _ =>
    (m.keptEnd n m.clk.tick).modAx n fun a =>
      { a with kept := some { mode := .hold, cmds := [], ahead := [], seg := none, stops := [], home := none
                              retry := { count := 0, waiting := false, vPct := none, goal := none } } }

/-- Whether a dispatched command waits for its engine or behind a running one: it has not begun (R203).
Log entry 34 (DEDUCED). -/
def Mach.waitsEngine (m : Mach) (q id : Nat) : Bool :=
  let mine (c : MotionCmd) : Bool := c.q == q && c.id == some id
  (m.axes.toList.any fun a => a.ahead.any mine || a.toTake.any mine || (match a.kept with | some k => k.ahead.any mine | none => false))
    || m.arms.toList.any fun a => a.ahead.any mine

/-- Whether a command has been taken and its effect begins at a boundary still to come (R144, R203). -/
def Mach.startsLater (m : Mach) (q id : Nat) : Bool :=
  (m.axes.toList.any fun a => a.young.contains (q, id))
    || m.arms.toList.any fun a => match a.cmd, a.run with
      | some c, some g => c.q == q && c.id == some id && decide (m.clk.tick < g.t0)
      | _, _ => false

/-- The status with which an unretired command ends in an abort (R203, R208): one that waits, that begins later or that its engine has
turned away has not begun. -/
def Mach.abortStatus (m : Mach) (q : Nat) (e : InFlight) : Nat :=
  let away := match e.done with | some (st, _) => isReject st || st == 0x85 | none => m.waitsEngine q e.id
  if away || m.startsLater q e.id then 0x85 else 0x01

/-- Whether a command is one of the queues `qs`. -/
def MotionCmd.among (c : MotionCmd) (qs : List Nat) : Bool := qs.contains c.q

/-- The motion that an axis in HOLD has taken from the queues `qs` and not begun does not begin; the axis stays as it was (R203). -/
def Axis.unbegin (a : Axis) (qs : List Nat) : Axis :=
  let mine := (a.cmds.any (·.among qs)) || (match a.follow with | some f => (f.cmd.any (·.among qs)) | none => false)
    || (match a.group with | some g => qs.contains (48 + g) | none => false)
  match a.fresh with
  | some f =>
    if mine then
      { a.setEff .hold with
        still := f.still, ramp0 := f.ramp0, redDone := f.redDone, holdOvr := f.holdOvr, keepRun := f.keepRun, fresh := none, seg := none
        cmds := [], follow := none, home := none, group := none, nxt := { p := a.cur.p, v := 0, a := 0 }
        retry := { count := 0, waiting := false, vPct := none, goal := none } }
    else a
  | none => a

/-- A GROUP_MOVE of a queue of `qs` that has been taken and not begun does not begin (R203). -/
def Mach.armUnbegin (m : Mach) (qs : List Nat) (g : Nat) : Mach :=
  m.modArm g fun a =>
    match a.run with
    | some r =>
      if qs.contains (48 + g) ∧ m.clk.tick < r.t0 then
        { a with run := none, members := [], cmd := none, ahead := [], next := none, ebAt := none, stopping := false, emergency := false }
      else a
    | none => a

/-- What an abort of the queues `qs` takes from an axis that has not begun it: what waits for its engine or behind a running command,
and a motion of the next boundary (R203). -/
def Mach.axisUnbegin (m : Mach) (qs : List Nat) (n : Nat) : Mach :=
  let homing := (m.ax n).home.isSome && (m.ax n).fresh.isSome
  let m1 := m.modAx n fun a =>
    let b := a.unbegin qs
    { b with toTake := b.toTake.filter fun c => !c.among qs, ahead := b.ahead.filter fun c => !c.among qs }
  m1.when (homing && (m1.ax n).home.isNone) (·.wr F.AX_HOME_STAT_PHASE 0 n)

/-- One queue of an abort's set is emptied and enters ABORTING (R203, R205). -/
def Mach.abortQueue (m : Mach) (q : Nat) (r : AbortRun) : Mach :=
  let x := m.qu q
  let gone := x.published.length + x.staged.length
  let ended := x.inflight.map fun e => ({ w := e.w, auto_ := e.auto_, reserved := e.reserved, status := m.abortStatus q e } : Ended)
  let m1 := m.modQ q fun x =>
    { x with st := .aborting, why := 0, published := [], staged := [], stack := [.ring], fetched := none, inflight := [], slotNoted := false
             auto_ := false, vec := false, abort := some { r with ended := ended } }
  m1.wr F.Q_ABORT_STAT_DISCARDED (min gone 0xFFFF) q

/-- R206: the instant at which an abort is complete as far as is known: one that a running takeover overlaps waits for the end of its
interruption, for 20 µs at most. Log entry 75 (DESIGN CHOICE). -/
def Mach.abortAt (m : Mach) (r : AbortRun) : Nat := if r.late && !m.fm.tkos.isEmpty then r.due + 1000 else r.due

/-- An abort completes on a queue (R203, R204, R206). -/
def Mach.abortEnd (m : Mach) (q : Nat) : Mach :=
  match (m.qu q).abort with
  | none => m
  | some r =>
    let due := m.abortAt r
    let ts := if m.clk.running then due % 2 ^ 48 else 0
    let took := (due - r.ref) / 2
    let m1 := m.modQ q fun x => { x with abort := none }
    let m2 := r.ended.foldl (fun m e => (m.homeNote q e.w e.status e.auto_).postRetired q e.w e.status ts) m1
    let m3 := m2.wr F.Q_ABORT_STAT_DUR (min took 255) q
    let noRoom := m3.cplStall && decide (1024 ≤ m3.cplUnread + m3.cplReserved)
    let m4 := if noRoom then (m3.setBit F.Q_ABORT_STAT_NO_REC q).postAt Ev.Q_ABORT_NOREC q r.tag ts
      else m3.postCpl (cplWord 0x00 0x01 r.tag ts (m.recordPos q)) q
    let m5 := ((m4.setBit F.Q_STATUS_ABORT_DONE q).setBit F.Q_IRQ_ABORT_DONE).postAt Ev.Q_ABORTED q
      (r.tag + 2 ^ 16 * m4.rd F.Q_ABORT_STAT_DISCARDED q + 2 ^ 32 * min took 255 + 2 ^ 40 * r.scope) ts
    let m6 := m5.when r.late (·.postAt Ev.Q_ABORT_LATE q (min took 0xFFFF) ts)
    if r.halt || m6.rb F.Q_CFG_ABORT_HALT q then m6.halt q 2
    else m6.modQ q fun x => { x with st := .idle, why := 0 }

/-- A queue put into a list ordered by the instants at which aborts complete; queues of one instant keep their order. -/
def insertDue (x : Nat × Nat) : List (Nat × Nat) → List (Nat × Nat)
  | [] => [x]
  | y :: r => if x.1 < y.1 then x :: y :: r else y :: insertDue x r

/-- The queues whose aborts are complete by now, in the order of completion (R204, R205); before RUN an abort completes at once (R89). -/
def Mach.abortsComplete (m : Mach) : List Nat :=
  (((List.range 64).filterMap fun q => match (m.qu q).abort with
    | some r => if !m.clk.running || decide (m.abortAt r ≤ m.absNow) then some (m.abortAt r, q) else none
    | none => none).foldl (fun l x => insertDue x l) []).map (·.2)

/-- The aborts that are complete by now. Log entry 75 (DESIGN CHOICE). -/
def Mach.abortsDue (m : Mach) : Mach := m.forAll m.abortsComplete Mach.abortEnd

/-- R202 to R208: an abort of a set of queues is requested, its reference `ago` units before now; it completes within `span` units of
40 ns, and later where a takeover overlaps it (R206). A request for a queue that is ABORTING is merged.
Log entry 75 (DESIGN CHOICE). -/
def Mach.abort (m : Mach) (qs : List Nat) (tag scope : Nat) (halt : Bool) (ago span : Nat) : Mach :=
  if m.gasp then m
  else
    let merged := qs.filter fun q => (m.qu q).st == .aborting
    let set := qs.filter fun q => (m.qu q).st != .aborting
    let late := !m.fm.tkos.isEmpty
    let due := m.absNow + 2 * (m.free 100 % (span + 1))
    let r : AbortRun := { tag := tag, scope := scope, halt := halt, ref := m.absNow - ago, due := due, late := late, ended := [] }
    let axs := m.abortAxes set
    let m1 := m.forAll merged fun m q => m.bump F.Q_ABORT_STAT_MERGED q
    let m2 := m1.forAll set fun m q => m.retireDue q
    let m3 := m2.forAll set fun m q => m.abortQueue q r
    let m4 := (m3.each 48 fun m n => m.axisUnbegin set n).each 16 fun m g => m.armUnbegin set g
    let m5 := ((m4.forAll axs Mach.dropKept).estopAll axs 2).forAll axs fun m n => m.endEnable n 0x01 (m.clk.tick + 1)
    m5.abortsDue

/-- A takeover begins: the aborts that run are overlapped by it (R206). -/
def Mach.abortsOverlap (m : Mach) : Mach :=
  { m with queues := m.queues.map fun x => { x with abort := x.abort.map fun r => { r with late := true } } }

/-- R206: the interruption of a takeover, of `dur` timestamp units, has delayed the aborts that it overlaps.
Log entry 75 (DESIGN CHOICE). -/
def Mach.abortsDelay (m : Mach) (dur : Nat) : Mach :=
  { m with queues := m.queues.map fun x =>
      { x with abort := x.abort.map fun r => if r.late then { r with due := r.due + min dur 1000 } else r } }

/-- R205: a request by a register write completes within 8 µs. -/
def Mach.abortByWrite (m : Mach) (qs : List Nat) (tag scope : Nat) (halt : Bool) : Mach := m.abort qs tag scope halt 0 200

/-- R202: a write of Q_ABORT[q]. -/
def Mach.writeQAbort (m : Mach) (q v : Nat) : Mach :=
  if bitOf v 0 then m.abortByWrite [q] (bitsOf v 16 16) 0 (bitOf v 1) else m

/-- R202: every write of Q_ABORT_X requests an abort. -/
def Mach.writeAbortX (m : Mach) (v : Nat) : Mach :=
  match m.abortSet (bitsOf v 0 3) (bitsOf v 8 6) with
  | some qs => m.abortByWrite qs (bitsOf v 16 16) (bitsOf v 0 3) (bitOf v 3)
  | none => m.setBit F.Q_UNIT_STAT_ABORT_BAD

/-- R205, R207: the active edge of an abort input, after its filter; the reference is the pin edge for DEB up to 8, else the end of the
debounce. An input whose scope or index is invalid acts as a write of Q_ABORT_X does (R202). Log entry 142 (DEDUCED). -/
def Mach.abortInput (m : Mach) (k : Nat) : Mach :=
  if m.rb F.Q_ABIN_EN k then
    match m.abortSet (m.rd F.Q_ABIN_SCOPE k) (m.rd F.Q_ABIN_INDEX k) with
    | some qs =>
      let deb := m.rd F.Q_GI_CFG_DEB (m.rd F.Q_ABIN_GI k)
      m.abort qs (0xFF00 + k) (m.rd F.Q_ABIN_SCOPE k) (m.rb F.Q_ABIN_HALT k) (if deb ≤ 8 then deb * 25 / 2 else 0) 150
    | none => m.setBit F.Q_UNIT_STAT_ABORT_BAD
  else m

/-! ### Planner slots -/

/-- Whether a dispatched command is a lookahead still held behind a running one. -/
def Mach.isAhead (m : Mach) (q : Nat) (e : InFlight) : Bool := e.lookahead && e.done.isNone && m.waitsEngine q e.id

/-- The planner slots a queue's commands hold (R186): one for each lookahead; one for what the axis of an axis queue runs, which a
replan and a STOP reuse; those of the members for a group queue. Log entry 31 (DEDUCED). -/
def Mach.queueSlots (m : Mach) (q : Nat) : Nat :=
  let live := (m.qu q).inflight.filter (·.done.isNone)
  let run := live.filter fun e => !m.isAhead q e
  (live.filter (m.isAhead q)).length
    + (if q < 48 then b2n (run.any fun e => decide (0 < e.slots) || opcOf e.w == 0x04) else (run.map (·.slots)).sum)

/-- Planner slots in use, and those of the shared pool (R186, R187). -/
def Mach.slotsUsed (m : Mach) : Nat := ((List.range 64).map m.queueSlots).sum
def Mach.sharedUsed (m : Mach) : Nat :=
  ((List.range 64).map fun q => ((m.qu q).inflight.filter (m.isAhead q)).length).sum

end Sys2Proof.Machine
end

