-- ==== Sys2Proof/Machine/Bridge.lean ====
section
/-!
DEFINITION. The bridges: their states by rank (R285), the safe state (R282 to R288), periods and stagger (R266 to R268),
the gate timing of a period (R272 to R279), bridge faults (R280, R281), trip inputs (R289 to R293), SYNC (R294 to R296).
-/

namespace Sys2Proof.Machine

/-- The axis takes the state OFF, or MAQUETTE with sub-state OFF (R267, R284). -/
def Mach.axisOff (m : Mach) (n : Nat) : Bool := (m.ax n).eff == .off

/-- Every axis of a bank is OFF or in MAQUETTE with sub-state OFF (R267). -/
def Mach.bankOff (m : Mach) (b : Nat) : Bool := (axesOfBank b).all m.axisOff

/-- Every axis is OFF. -/
def Mach.allOff (m : Mach) : Bool := (List.range 48).all fun n => (m.ax n).mode == .off

/-- P of a bank in cycles (R266, PW_PERIOD). -/
def Mach.periodOf (m : Mach) (b : Nat) : Nat := clampNat 2000 12500 (m.rd F.PW_PERIOD_PERIOD b)

/-- The stagger offset of a channel (R268). -/
def Mach.chanOfs (m : Mach) (b k : Nat) : Nat :=
  let P := m.periodOf b
  if m.rb F.PW_CFG_STAG_USER b then m.rd F.PW_CH_OFS_OFS b k % P else (4 * k + b) * (P / 96)

/-- Dead times and minimum pulse of a channel, in cycles (R270, R273). -/
def Mach.dtR (m : Mach) (K : Nat) : Nat := m.rdCh (K % 24) F.PW_DT_DT_R (K / 24) (K % 24 / 2)
def Mach.dtF (m : Mach) (K : Nat) : Nat := m.rdCh (K % 24) F.PW_DT_DT_F (K / 24) (K % 24 / 2)
def Mach.minp (m : Mach) (K : Nat) : Nat := clampNat 10 100 (m.rdCh (K % 24) F.PW_MINP_MINP (K / 24))

/-! ### Forcing -/

/-- The axes that the safe pattern in force brakes (R282). -/
def Mach.safeMask (m : Mach) (b : Nat) : Nat :=
  match (m.bank b).safeOf with
  | some v => if bitsOf v 0 4 = 10 then bitsOf v 16 12 else 0
  | none => 0

/-- The axes of a bank in FAULT with cause 0x03, which keep the pattern of their trip (R134, R292). -/
def Mach.tripHeld (m : Mach) (b : Nat) : Nat :=
  ((List.range 12).map fun j => b2n ((m.ax (12 * b + j)).mode == .fault && m.rd F.AX_FAULT_CAUSE (12 * b + j) == 3) * 2 ^ j).sum

/-- R276, R284, R286: a bank is forced to its safe pattern, which its axes then keep; `was` says that it was forced before. The
carries of its channels clear, and every channel takes its level at once. -/
def Mach.forceBank (m : Mach) (b : Nat) (was : Bool) : Mach :=
  let held := m.tripHeld b
  let m1 := if was then m
    else m.modBank b fun x => { x with brake := m.safeMask b ||| (x.brake &&& held) }
  ((List.range 24).foldl (fun m k => m.modCoil (coilOf b k) fun c => { c with carry := 0 }) m1).cutBank b

/-- The channels of a bank keep the states they have now to their next period starts (R58, R292). -/
def Mach.tailBank (m : Mach) (b : Nat) : Mach :=
  (List.range 24).foldl (fun x k => x.modCoil (coilOf b k) fun c => { c with tail := some (m.bridgeCh (coilOf b k)) }) m

/-! ### Legs -/

/-- The state of a leg (R269): high side, low side, or neither. -/
inductive Leg where
  | H | L | Z
  deriving DecidableEq, Repr

/-- The state that a bridge-state segment gives leg 1, or leg 2 (R269). -/
def legOf (leg2 : Bool) (s : Int) : Leg :=
  if s = 2 then .Z
  else if s = 1 then (if leg2 then .L else .H)
  else if s = -1 then (if leg2 then .H else .L)
  else .L

/-- R270, R291: whether the high-side and the low-side FET of a leg are on at cycle `x`: a change between H and L turns its FET on only
after the dead time; one from Z, to Z or to a forced level acts at once, in the middle of a dead time too (R284). -/
def Coil.gates (c : Coil) (dtR dtF : Nat) (leg2 : Bool) (x : Nat) : Bool × Bool :=
  let l := c.segs.filter (·.1 ≤ x)
  match l with
  | [] => (false, false)
  | s :: _ =>
    let now := legOf leg2 s.2
    let same := l.takeWhile fun t => legOf leg2 t.2 == now
    let first := same.getLastD s
    let before := match l.drop same.length with | t :: _ => legOf leg2 t.2 | [] => .Z
    let dead := if before = Leg.Z ∨ first.2 = 3 then 0 else if now = Leg.H then dtR else dtF
    let on := decide (first.1 + dead ≤ x) || same.any (·.2 == 3)
    match now with
    | .H => (on, false)
    | .L => (false, on)
    | .Z => (false, false)

/-- The FETs of a leg of channel `K` at cycle `x`. -/
def Mach.gates (m : Mach) (K : Nat) (leg2 : Bool) (x : Nat) : Bool × Bool :=
  if m.bridgeCh K = .passive then (false, false) else (m.coil K).gates (m.dtR K) (m.dtF K) leg2 x

/-! ### Safe patterns -/

/-- Every axis of a bank that is not OFF takes an immediate fault cause. -/
def Mach.faultBank (m : Mach) (b cause : Nat) : Mach := m.forAll (axesOfBank b) fun m n => m.fault n cause

/-- R282, R283, R286: a write of PW_SAFE stores its value in all three copies; while the bank is forced it releases no braked axis. -/
def Mach.writeSafe (m : Mach) (b v : Nat) : Mach :=
  let m1 := m.modBank b fun x => { x with safe0 := v, safe1 := v, safe2 := v, allDiff := false }
  let m2 := (m1.modBank b fun x => { x with brake := if m.forced b then x.brake ||| m1.safeMask b else x.brake }).setReg .PW_SAFE b 0 v
  if bitsOf v 0 4 = 5 ∨ bitsOf v 0 4 = 10 then m2 else m2.setBit F.PW_SAFE_STAT_CODE_BAD b

/-- R283: the comparison of the three copies; `upset` names a copy and what a disturbance has left in it. -/
def Mach.safeCheck (m : Mach) (b : Nat) (upset : Option (Nat × Nat)) : Mach :=
  let m0 := match upset with
    | some (0, v) => m.modBank b fun x => { x with safe0 := v }
    | some (1, v) => m.modBank b fun x => { x with safe1 := v }
    | some (_, v) => m.modBank b fun x => { x with safe2 := v }
    | none => m
  let x := m0.bank b
  match x.safeOf with
  | some v =>
    let bad := if x.safe0 ≠ v then some 0 else if x.safe1 ≠ v then some 1 else if x.safe2 ≠ v then some 2 else none
    let m1 := match bad with
      | some i =>
        ((m0.modBank b fun x => { x with safe0 := v, safe1 := v, safe2 := v }).setBit F.PW_SAFE_STAT_FIX b).post Ev.PW_SAFE_FIX b i
      | none => m0
    let m2 := m1.setReg .PW_SAFE b 0 v
    if bitsOf v 0 4 = 5 ∨ bitsOf v 0 4 = 10 then m2 else m2.setBit F.PW_SAFE_STAT_CODE_BAD b
  | none =>
    if x.allDiff then m0
    else ((m0.modBank b fun x => { x with allDiff := true, brake := 0 }).setBit F.PW_SAFE_STAT_ALL_DIFF b).post Ev.PW_SAFE_ALLDIFF b 0

/-- R287: a debug halt. Log entry 96 (DEDUCED). -/
def Mach.debugHalt (m : Mach) : Mach :=
  if m.dbgHalt then m
  else
    let m1 : Mach := { m with dbgHalt := true }
    m1.each 4 fun m' b => (((m'.forceBank b (m.forced b)).faultBank b 4).setBit F.PW_STAT_DBG b).post Ev.PW_BANK_SAFE b 4

/-- R287: the end of a debug halt. -/
def Mach.debugHaltEnd (m : Mach) : Mach := { m with dbgHalt := false }

/-- R288: no refresh strobe for 1 µs; the watchdog does not act in a swap of the PWM PLL (R422). -/
def Mach.clockStop (m : Mach) (b : Nat) : Mach := if m.fm.tkos.any (·.unit == 0x41) then m else (m.modBank b fun x => { x with clkStop := true }).forceBank b (m.forced b)

/-- R288: the strobes have run for 10 µs. -/
def Mach.clockStopEnd (m : Mach) (b : Nat) : Mach :=
  if (m.bank b).clkStop then
    (((m.modBank b fun x => { x with clkStop := false }).faultBank b 4).setBit F.PW_STAT_CLK_STOP b).post Ev.PW_BANK_SAFE b 3
  else m

/-! ### Bridge faults -/

/-- R280: a short circuit in a coil of an axis. -/
def Mach.shortCircuit (m : Mach) (n : Nat) (coilB : Bool) : Mach :=
  let b := bankOf n
  let m1 := m.wr F.PW_BFAULT_AX (m.rd F.PW_BFAULT_AX b ||| 2 ^ (n % 12)) b
  let m2 := ((m1.wr F.PW_BFAULT_KIND 1 b).wr F.PW_BFAULT_COIL_A (b2n !coilB) b).wr F.PW_BFAULT_COIL_B (b2n coilB) b
  (((m2.cutCoil (2 * n)).cutCoil (2 * n + 1)).fault n 4).post Ev.PW_BRIDGE_FAULT n (1 + 16 * b2n (!coilB) + 32 * b2n coilB)

/-- R280: a clear of PW_BFAULT bits acts on the axes that are OFF. -/
def Mach.bfaultClear (m : Mach) (b mask : Nat) : Mach :=
  m.each 12 fun m j =>
    if bitOf mask j && (m.ax (12 * b + j)).mode == .off then
      m.wr F.PW_BFAULT_AX (m.rd F.PW_BFAULT_AX b - 2 ^ j * b2n (bitOf (m.rd F.PW_BFAULT_AX b) j)) b
    else m

/-- R281: a bank's gate-drive supply has been low for 1 µs. -/
def Mach.gateLow (m : Mach) (b : Nat) : Mach :=
  ((((m.modBank b fun x => { x with gateUv := true }).cutBank b).setBit F.PW_STAT_GATE_UV b).faultBank b 4).post Ev.PW_BANK_SAFE b 2

/-- R281: the supply is back; nothing but the missing supply held the bridges off. -/
def Mach.gateGood (m : Mach) (b : Nat) : Mach := m.modBank b fun x => { x with gateUv := false }

/-! ### Period, stagger -/

/-- R267: the next reference instant of a bank in its own cycles: that of a restart that no channel has started yet, else the first one
after every period start so far. -/
def Mach.nextRef (m : Mach) (b : Nat) : Nat :=
  let P := m.periodOf b
  let last := (List.range 24).foldl (fun t k => max t (m.coil (coilOf b k)).t0) 0
  let due := (List.range 24).foldl (fun t k => (m.coil (coilOf b k)).starts.foldl (fun t r => max t r.ref) t) (m.bank b).ref
  if last < due then due else due + P * ((last - due) / P + 1)

/-- R267, R268: a bank restarts at the reference `ref` with its present period and offsets; a channel that has still to start its period
under the present reference does so first. -/
def Mach.restartBank (m : Mach) (b ref : Nat) : Mach :=
  let m1 := m.modBank b fun x => { x with locked := false }
  m1.each 24 fun m k => m.modCoil (coilOf b k) fun c =>
    { c with
      starts := (c.starts.filter fun r => decide (r.ref < ref)) ++ [{ ref := ref, t0 := ref + m1.chanOfs b k, period := m1.periodOf b }]
      carry := 0 }

/-- R266, R267: the next period of a channel: when it starts and how long it is; whether it still belongs to the reference before a
restart that is due; the reference of the restart it starts with. -/
structure NextStart where
  t0 : Nat
  period : Nat
  old : Bool
  ref : Option Nat
  deriving DecidableEq, Repr

/-- The next period of a channel; `adj` is what SYNC takes from the running one (R295). -/
def Mach.nextStart (m : Mach) (K : Nat) (adj : Int) : NextStart :=
  let c := m.coil K
  let after (P : Nat) : Nat := ((c.t0 : Int) + (P : Int) - adj).toNat
  match c.starts with
  | [] => let P := m.periodOf (K / 24); { t0 := after P, period := P, old := false, ref := none }
  | r :: _ =>
    if c.t0 + c.period < r.ref then { t0 := after c.period, period := c.period, old := true, ref := none }
    else { t0 := r.t0, period := r.period, old := false, ref := some r.ref }

/-- R267: a write of PW_PERIOD. -/
def Mach.writePeriod (m : Mach) (b v : Nat) : Mach :=
  if m.bankOff b then
    let ref := m.nextRef b
    (m.setReg .PW_PERIOD b 0 (bitsOf v 0 14)).restartBank b ref
  else m.setBit F.PW_STAT_PERIOD_REFUSED b

/-- R268: a write of a channel offset. -/
def Mach.writeChOfs (m : Mach) (b k v : Nat) : Mach :=
  if m.bankOff b then
    let ref := m.nextRef b
    let m1 := m.setReg .PW_CH_OFS b k (bitsOf v 0 14)
    if m1.rb F.PW_CFG_STAG_USER b then m1.restartBank b ref else m1
  else m.setBit F.PW_STAT_PERIOD_REFUSED b

/-- R295: LOCKED while every SYNC_EN bank is at zero phase error; the event where it sets. -/
def Mach.syncLock (m : Mach) : Mach :=
  let on := (List.range 4).filter fun b => m.rb F.PW_CFG_SYNC_EN b
  let locked := !on.isEmpty && on.all fun b => (m.bank b).locked
  if locked && !m.rb F.PW_SYNC_STAT_LOCKED then
    (m.setBit F.PW_SYNC_STAT_LOCKED).post Ev.PW_SYNC_LOCK 0 (unsignedOf 16 (m.sync.firstErr.getD 0))
  else if locked then m else m.clrFld F.PW_SYNC_STAT_LOCKED

/-- R268: a write of PW_CFG; one that would change STAG_USER is accepted only with the bank's axes OFF. -/
def Mach.writePwCfg (m : Mach) (b v : Nat) : Mach :=
  if bitOf v 3 == m.rb F.PW_CFG_STAG_USER b then (m.setReg .PW_CFG b 0 (bitsOf v 0 4)).syncLock
  else if m.bankOff b then
    let ref := m.nextRef b
    (m.setReg .PW_CFG b 0 (bitsOf v 0 4)).restartBank b ref
  else m.setBit F.PW_STAT_PERIOD_REFUSED b

/-! ### The gate timing of a period -/

/-- R275: the four bits of a dither index reversed. -/
def rev4 (j : Nat) : Nat := bitsOf j 0 1 * 8 + bitsOf j 1 1 * 4 + bitsOf j 2 1 * 2 + bitsOf j 3 1

/-- R273: the pulse of a quiet period: the requested x, the pulse c in sixteenths, the carry after it. -/
def quietPulse (P dtR dtF minp adj : Nat) (d carry : Int) : Int × Nat × Int :=
  let x := Int.tdiv (d * (P : Int) * 16) 32768 + carry
  let a := x.natAbs
  let hon := (dtR + minp) * 16
  let hoff := (dtF + minp + adj) * 16
  let full := P * 16
  let c := if 2 * a < hon then 0
    else if a < hon then hon
    else if full ≤ a then full
    else if 2 * (full - a) < hoff then full
    else if full - a < hoff then full - hoff
    else a
  let s : Int := if x < 0 then -1 else if x = 0 then 0 else 1
  (x, c, clampInt (-(8 * P : Nat)) ((8 * P : Nat)) (s * ((a : Int) - (c : Int))))

/-- R273: the cycles that the minimum-pulse rule reserves for an adjustment by SYNC. -/
def Mach.syncRoom (m : Mach) (b : Nat) : Nat := if m.rb F.PW_CFG_SYNC_EN b then min 16 (m.rd F.PW_SYNC_CFG_ADJ_MAX) else 0

/-- R274, R275: the turn-off count of a quiet period with a pulse of `x` sixteenths and dither index `j`. -/
def quietEnd (P j x : Nat) : Nat := min P (x / 16 + b2n (decide (rev4 j < x % 16)))

/-- R278: the step of the threshold DAC for a UQ4.12 threshold. -/
def dacStep (t : Nat) : Nat := (t + 16) / 32

/-- The limit of the peak-current comparator of a channel (R278, PW_ILIM). -/
def Mach.ilim (m : Mach) (K : Nat) : Nat := min 0x4800 (m.rdCh (K % 24) F.PW_ILIM_ILIM (K / 24))

/-- Takes the staged fields that apply at this period start (R297, R264, R352): the bank's for this channel, the axis's
with its coil a. -/
def Mach.periodApply (m : Mach) (K : Nat) : Mach :=
  let b := K / 24
  let n := K / 2
  let k := K % 24
  let l := m.staged.map fun s =>
    let mine := (s.at_ == .pwApply || s.at_ == .csApply) && s.key.i == b
      && (s.key.r != .PW_DT || s.key.j == k / 2) && (s.choice != 2 || s.ready)
    if mine then { s with seen := s.seen ||| 2 ^ k } else s
  let gone (s : Staged) : Bool :=
    match s.at_ with
    | .pwApply | .csApply => s.key.i == b && (if s.key.r == .PW_DT then s.seen == 3 * 4 ^ s.key.j else s.seen == 2 ^ 24 - 1)
    | .axApply => s.choice == 1 && s.key.i == n && !isCoilB K
    | .laApply => s.choice == 1 && s.key.i == b && 12 * b + s.key.j == n && !isCoilB K
    | _ => false
  { m with staged := l.filter fun s => !gone s }

/-- The on-time of the running strong-mode period as far as it is known: none in a period that coasts (R257). -/
def Coil.strongTon (c : Coil) : Nat := if c.dac.isNone then 0 else c.tripAt.getD c.period

/-- The signed mean duty of a strong-mode period, on-time by period (R254); none for a period of another mode. -/
def Coil.strongDuty (c : Coil) : Option Rat :=
  match c.active with
  | .strong neg _ _ => some ((if neg then -1 else 1) * ((c.strongTon : Rat) / (max 1 c.period : Nat)))
  | _ => none

/-- The end of a coil's period, as seen at the start of the next: the measured on-time, the counts of tripped and of
clipped periods (R257, R279, R327). -/
def Mach.periodEnd (m : Mach) (K : Nat) : Mach :=
  let c := m.coil K
  let n := K / 2
  let ton := c.tripAt.getD c.period
  let m1 := match c.active with
    | .strong _ thr _ =>
      m.modCoil K fun c =>
        { c with ilimRun := 0, ilimNoted := false
                 tonPrev := if thr = 0 then c.tonPrev else ton
                 sDuty := c.strongDuty.getD c.sDuty }
    | .quiet _ => if c.tripAt.isNone then m.modCoil K fun c => { c with ilimRun := 0, ilimNoted := false } else m
    | .coast => m.modCoil K fun c => { c with ilimRun := 0, ilimNoted := false }
  let run := if c.clipNow then c.clipRun + 1 else 0
  let m2 := m1.modCoil K fun c => { c with clipRun := run, clipNow := false, clipNoted := c.clipNow && c.clipNoted }
  if run = 4 ∧ !c.clipNoted then
    (m2.modCoil K fun c => { c with clipNoted := true }).post Ev.CS_CLIP n (b2n (isCoilB K) + 2 * b2n c.tag.low)
  else m2

/-- A frame length in cycles. Log entry 88 (DEDUCED). -/
def Mach.syncFrame (m : Mach) : Nat := max 2000 (m.rd F.PW_SYNC_CFG_FRAME)

/-- R295: at each of its references a bank that follows SYNC measures its phase error. Log entry 88 (DEDUCED). -/
def Mach.syncMeasure (m : Mach) (b : Nat) : Mach :=
  let P := m.periodOf b
  match m.sync.ref with
  | none => m.modBank b fun x => { x with syncErr := 0 }
  | some r =>
    if m.sync.role = 0 ∨ !m.rb F.PW_CFG_SYNC_EN b ∨ m.syncFrame % P ≠ 0 then
      (m.modBank b fun x => { x with syncErr := 0, locked := false }).syncLock
    else
      let due : Int := (r + m.rd F.PW_SYNC_DLY_DLY : Nat)
      let e0 : Int := (((m.bank b).ref : Int) - due) % (P : Int)
      let e := if (P : Int) < 2 * e0 then e0 - P else e0
      let m1 := m.modBank b fun x => { x with syncErr := e, locked := decide (e = 0) }
      let m2 := if b = 0 then m1.wr F.PW_SYNC_STAT_ERR (unsignedOf 16 e) else m1
      ({ m2 with sync := { m2.sync with firstErr := some (m2.sync.firstErr.getD e) } } : Mach).syncLock

/-- R321: a source event of triggers at cycle `t`: each enabled one of that source (and channel) falls due DLY cycles later. The last 16
are kept. -/
def Mach.trigEvent (m : Mach) (b src ch t : Nat) : Mach :=
  let l := (List.range 4).filterMap fun k =>
    if m.rb F.CS_TRIG_EN b k && m.rd F.CS_TRIG_SRC b k == src && (src == 0 || src == 3 || m.rd F.CS_TRIG_CH b k == ch) then
      some (k, t + m.rd F.CS_TRIG_DLY b k)
    else none
  if l.isEmpty then m else m.modBank b fun x => { x with trigs := (x.trigs ++ l).drop (x.trigs.length + l.length - 16) }

/-- R321: a trip ends the on-time of a quiet period before the turn-off that was planned at cycle `was`. -/
def Mach.trigMoved (m : Mach) (b ch was : Nat) : Mach :=
  m.modBank b fun x =>
    { x with trigs := x.trigs.filter fun p => !(m.rd F.CS_TRIG_SRC b p.1 == 2 && m.rd F.CS_TRIG_CH b p.1 == ch
                                                 && p.2 == was + m.rd F.CS_TRIG_DLY b p.1) }

/-- R26, R266 to R277: a channel's period starts: the shadow values load, or the last ones repeat where none were written
in time; the period's gate timing is formed. -/
def Mach.periodStart (m : Mach) (K : Nat) : Mach :=
  let b := K / 24
  let k := K % 24
  let n := K / 2
  let m0 := ((m.periodEnd K).periodApply K)
  let c := m0.coil K
  let x := m0.bank b
  let adjMax := m0.syncRoom b
  let m1 := if k = 0 then
      m0.modBank b fun x => { x with adj := clampInt (-(adjMax : Int)) adjMax x.syncErr }
    else m0
  let adj := (m1.bank b).adj
  let next := m1.nextStart K adj
  let P := next.period
  let t0 := next.t0
  let ref := match next.ref with
    | some r => r
    | none => if next.old then ((x.ref : Int) + P - adj).toNat else t0 - m1.chanOfs b 0
  let m2 := if k = 0 then ((m1.modBank b fun x => { x with ref := ref }).trigEvent b 0 0 ref).syncMeasure b else m1
  let repeat_ := !c.fresh
  let m3 := if repeat_ then
      (m2.bump F.PW_STAT_DEADLINE_CNT b).bump F.FM_CNT_DEADLINE
    else m2
  let cmp := if repeat_ then c.active else c.shadow
  let carry0 := if next.ref.isSome then 0 else c.carry
  let tag := if repeat_ then { c.tag with chg := true, rchg := false } else c.shTag
  let j := (c.j + 1) % 16
  let bm := m3.bridge n
  let lim := m3.ilim K
  let dac : Option Nat := if bm ≠ .drive then none
    else match cmp with
      | .quiet _ => some (dacStep lim)
      | .strong _ thr _ => if min thr lim = 0 then none else some (dacStep (min thr lim))
      | .coast => none
  let base : Coil :=
    { c with active := cmp, tag := tag, fresh := false, missed := if repeat_ then c.missed + 1 else 0, t0 := t0
             starts := if next.old then c.starts else c.starts.drop 1, reqs := if repeat_ then [] else c.shReqs, shReqs := []
             period := P, index := c.index + 1, j := j, tripAt := none, dac := dac, tail := none, samples := [], held := []
             rounded := false }
  let hist (l : List (Nat × Int)) : List (Nat × Int) := (l ++ c.segs).take 24
  let (c', kind, neg, fr, tf) : Coil × Nat × Bool × Nat × Nat := match bm, cmp with
    | .drive, .quiet d =>
      let (x, p, carry) := quietPulse P (m3.dtR K) (m3.dtF K) (m3.minp K) adjMax d carry0
      let e := quietEnd P j p
      let s : Int := if x < 0 then -1 else 1
      let seg := if p = 0 then [(t0, (0 : Int))] else if e < P then [(t0 + e, (0 : Int)), (t0, s)] else [(t0, s)]
      ({ base with carry := carry, c := p, endCount := if p = 0 then 0 else e, rounded := decide (p ≠ x.natAbs)
                   segs := hist seg }, 1, decide (x < 0), p % 16, 0)
    | .drive, .strong neg thr tfast =>
      if min thr lim = 0 then ({ base with carry := 0, c := 0, endCount := 0, segs := hist [(t0, 2)] }, 0, false, 0, 0)
      else ({ base with carry := 0, c := 16 * P, endCount := P, segs := hist [(t0, if neg then -1 else 1)] }, 2, neg, 0, tfast)
    | .brake, _ | .safeBrake, _ =>
      ({ base with carry := 0, c := 0, endCount := 0, segs := hist [(t0, 3)] }, if bm = .brake then 0 else 3, false, 0, 0)
    | .safeCoast, _ => ({ base with carry := 0, c := 0, endCount := 0, segs := hist [(t0, 2)] }, 3, false, 0, 0)
    | _, _ => ({ base with carry := 0, c := 0, endCount := 0, segs := hist [(t0, 2)] }, 0, false, 0, 0)
  let m4 := m3.modCoil K fun _ => c'
  let w : Nat := c'.c.natAbs / 16 + fr * 2 ^ 14 + b2n neg * 2 ^ 18 + kind * 2 ^ 19 + b2n c'.rounded * 2 ^ 21 + j * 2 ^ 22
    + unsignedOf 32 c'.carry * 2 ^ 32 + c'.tonPrev % 2 ^ 14 * 2 ^ 64 + tf % 2 ^ 14 * 2 ^ 78
  let m5 := (m4.setReg .PW_CH_STAT b k w).trigEvent b 1 k t0
  if kind = 1 ∧ 0 < c'.endCount ∧ c'.endCount < P then m5.trigEvent b 2 k (t0 + c'.endCount) else m5

/-- R277: the fast decay of a strong-mode period that has tripped after `ton` cycles: none where it could not be driven, and cut at the
period's end. -/
def Mach.fastOf (m : Mach) (K ton tfast : Nat) : Nat :=
  if tfast < m.dtR K + m.minp K then 0 else min tfast ((m.coil K).period - ton)

/-- R277, R279: the peak-current comparator of a channel trips `cnt` cycles after its counter zero. -/
def Mach.peakTrip (m : Mach) (K cnt : Nat) : Mach :=
  let b := K / 24
  let c := m.coil K
  if m.bridgeCh K ≠ .drive ∨ c.dac.isNone ∨ c.tripAt.isSome ∨ c.endCount ≤ cnt then m
  else match c.active with
    | .coast => m
    | .quiet _ =>
      let run := c.ilimRun + 1
      let need := max 1 (m.rdCh (K % 24) F.PW_ILIM_ILIM_N b)
      let m1 := m.modCoil K fun c =>
        { c with tripAt := some cnt, endCount := cnt, ilimRun := run, segs := ((c.t0 + cnt, 0) :: (c.segs.filter (·.1 ≤ c.t0 + cnt))).take 24 }
      let m2 := ((m1.trigMoved b (K % 24) (c.t0 + c.endCount)).trigEvent b 2 (K % 24) (c.t0 + cnt)).bump F.PW_STAT_ILIM_CNT b
      if need ≤ run ∧ !c.ilimNoted then
        (m2.modCoil K fun c => { c with ilimNoted := true }).post Ev.PW_ILIM (K / 2) (b2n (isCoilB K))
      else m2
    | .strong neg thr tfast =>
      let blank := max (max 20 (m.rd F.AX_CR_CHOP_TBLANK (K / 2))) (m.dtR K + m.minp K)
      if thr = 0 ∨ cnt < blank then m
      else
        let tf := m.fastOf K cnt tfast
        (m.trigEvent b 2 (K % 24) (c.t0 + cnt)).modCoil K fun c =>
          { c with tripAt := some cnt, endCount := cnt
                   segs := ((c.t0 + cnt + tf, 0) :: ((if tf = 0 then [] else [(c.t0 + cnt, if neg then 1 else -1)]) ++ c.segs)).take 24 }

/-! ### Trip inputs -/

/-- R63: the inputs are sampled, but with RESET_N low or without VAUX. -/
def Mach.sampled (m : Mach) : Bool := !m.dead && m.kn.phase != .resetLow

/-- R83: an undervoltage or a trip stops the tests that step 10 or 12 runs on the banks of a mask. -/
def Mach.testsCut (m : Mach) (banks : Nat) : Mach :=
  if m.kn.phase == .start && (m.kn.step == 10 || m.kn.step == 12) then { m with kn := { m.kn with cut := m.kn.cut ||| banks } } else m

/-- R289, R290: an enabled trip input that is active sets the latch. Log entry 16 (DEDUCED). -/
def Mach.tripAct (m : Mach) : Mach :=
  let a := m.inp.tripA
  let b := m.inp.tripB
  let actA := a && m.rb F.PW_TRIP_CFG_EN_A
  let actB := b && m.rb F.PW_TRIP_CFG_EN_B
  if !m.sampled || m.rb F.PW_TRIP_STAT_LATCH || !(actA || actB) then m
  else
    let first := b2n (actB && !actA)
    let was := m.forced
    let ts := m.stamp
    let m1 := ((((m.testsCut 15).setBit F.PW_TRIP_STAT_LATCH).wr F.PW_TRIP_STAT_FIRST first).bump F.PW_TRIP_STAT_CNT).wr F.PW_TRIP_TS_SET_TS ts
    let banks := m1.rd F.PW_TRIP_CFG_BANKS
    let m2 := m1.each 4 fun m k => if bitOf banks k then (m.forceBank k (was k)).faultBank k 3 else m
    m2.postAt Ev.PW_TRIP 0 (b2n a + 2 * b2n b + 4 * first + 16 * banks) ts

/-- The levels of the trip inputs. -/
def Mach.tripLevels (m : Mach) (a b : Bool) : Mach := { m with inp := { m.inp with tripA := a, tripB := b } }.tripAct

/-- An enabled trip input is active now. -/
def Mach.tripActive (m : Mach) : Bool :=
  (m.inp.tripA && m.rb F.PW_TRIP_CFG_EN_A) || (m.inp.tripB && m.rb F.PW_TRIP_CFG_EN_B)

/-- R292: a write of one to PW_TRIP_STAT.LATCH. -/
def Mach.tripClear (m : Mach) : Mach :=
  if !m.rb F.PW_TRIP_STAT_LATCH then m
  else if m.tripActive then
    (m.setBit F.PW_TRIP_STAT_CLR_REFUSED).post Ev.PW_TRIP_CLR_REFUSED 0 (b2n m.inp.tripA + 2 * b2n m.inp.tripB)
  else
    let ts := m.stamp
    let since := unsignedOf 48 ((ts : Int) - (m.rd F.PW_TRIP_TS_SET_TS : Int))
    let banks := m.rd F.PW_TRIP_CFG_BANKS
    let m1 := m.each 4 fun m k => if bitOf banks k then m.tailBank k else m
    ((m1.clrFld F.PW_TRIP_STAT_LATCH).wr F.PW_TRIP_TS_CLR_TS ts).post Ev.PW_TRIP_CLEAR 0 since

/-- R293: exactly one enabled input has been active for DISC_T. -/
def Mach.tripDisc (m : Mach) : Mach :=
  let a := m.inp.tripA && m.rb F.PW_TRIP_CFG_EN_A
  let b := m.inp.tripB && m.rb F.PW_TRIP_CFG_EN_B
  if m.rd F.PW_TRIP_CFG_DISC_T = 0 ∨ a = b then m
  else (m.setBit F.PW_TRIP_STAT_DISC).post Ev.PW_TRIP_DISC 0 (b2n b)

/-! ### SYNC -/

/-- R294: ROLE takes effect; role 3 acts as 0. -/
def Mach.takeRole (m : Mach) : Mach :=
  { m with sync := { m.sync with role := m.rd F.PW_SYNC_CFG_ROLE % 3, rewritten := false } }

/-- R294, R296, R297: a frame begins: the writes that wait for it take effect, a rewritten ROLE among them. -/
def Mach.frameBegin (m : Mach) : Mach :=
  ({ m with staged := m.staged.filter fun s => s.at_ != .nextSyncFrame } : Mach).when m.sync.rewritten Mach.takeRole

/-- R294: the master drives SYNC low at a frame; SYNC is an input until RUN. -/
def Mach.syncDrive (m : Mach) : Mach :=
  let m1 := m.frameBegin
  if m1.clk.running && m1.sync.role == 2 then { m1 with sync := { m1.sync with driving := true } } else m1

/-- R295: a bank whose period does not divide the frame ignores SYNC, and is reported once. -/
def Mach.frameCheck (m : Mach) (b : Nat) : Mach :=
  if !m.rb F.PW_CFG_SYNC_EN b then m
  else
    let bad := m.syncFrame % m.periodOf b != 0
    let m1 := m.modBank b fun x => { x with frameBad := bad, syncErr := if bad then 0 else x.syncErr }
    if bad && !(m.bank b).frameBad then (m1.setBit F.PW_SYNC_STAT_FRAME_BAD).post Ev.PW_FRAME_BAD b (m.periodOf b) else m1

/-- R294 to R296: a falling edge of SYNC at cycle `r` of the PWM domain. Log entry 88 (DEDUCED). -/
def Mach.syncEdge (m : Mach) (r : Nat) : Mach :=
  let conflict := m.sync.role == 2 && !m.sync.driving
  let m1 := if conflict then
      (({ m with sync := { m.sync with role := 1 } } : Mach).setBit F.PW_SYNC_STAT_CONFLICT).post Ev.PW_SYNC_CONFLICT 0 0
    else m
  let m2 := m1.frameBegin
  if m2.sync.role = 0 then { m2 with sync := { m2.sync with driving := false, ref := none } }
  else ({ m2 with sync := { m2.sync with driving := false, missed := 0, ref := some r } } : Mach).each 4 Mach.frameCheck

/-- R296: a follower has seen no edge for LOSS_N frames. -/
def Mach.syncLost (m : Mach) : Mach :=
  if m.sync.role = 1 then
    let n := max 1 (m.rd F.PW_SYNC_CFG_LOSS_N)
    let m0 := m.each 4 fun m b => m.modBank b fun x => { x with syncErr := 0, locked := false }
    let m1 : Mach := { m0 with sync := { m.sync with ref := none, firstErr := none, missed := n } }
    ((m1.clrFld F.PW_SYNC_STAT_LOCKED).setBit F.PW_SYNC_STAT_LOST).post Ev.PW_SYNC_LOST 0 (m.rd F.PW_SYNC_CFG_LOSS_N)
  else m

end Sys2Proof.Machine
end

