-- ==== Sys2Proof/Machine/Place.lean ====
section
/-!
DEFINITION. The scheduled samples of a coil's period (R303 to R307): the slices, the windows, the nominal instants, and the bank arbiter,
which places the requests when they come with the period's compare values.
-/

namespace Sys2Proof.Machine

/-! ### Slices -/

/-- A slice converts in an interleave position: active, or standing in (R312, R317). -/
def Mach.sliceActive (m : Mach) (b s : Nat) : Bool := m.rd F.CS_SLICE_ROLE b s == 0 || m.rd F.CS_SLICE_ROLE b s == 3

/-- The slice that holds an interleave position. -/
def Mach.sliceAt (m : Mach) (b pos : Nat) : Option Nat :=
  (List.range 5).find? fun s => m.sliceActive b s && m.rd F.CS_SLICE_FOR b s == pos

/-- The bank's spare in service: the slice in a spare role. -/
def Mach.spareOf (m : Mach) (b : Nat) : Option Nat :=
  (List.range 5).find? fun s => m.rd F.CS_SLICE_ROLE b s == 1 || m.rd F.CS_SLICE_ROLE b s == 2

/-- Shadowing runs (R313): SHADOW_EN and a spare in service. -/
def Mach.shadowing (m : Mach) (b : Nat) : Bool := m.rb F.CS_CFG_SHADOW_EN b && (m.spareOf b).isSome

/-- A slice can hold at cycle `t`: no other hold of it lies within 67 cycles (R307, R319). -/
def Bank.freeAt (x : Bank) (s t : Nat) : Bool := x.busy.all fun h => h.1 != s || decide (h.2 + 67 ≤ t ∨ t + 67 ≤ h.2)

/-- A slice holds at cycle `t` and is busy for 67 cycles (R307); holds of more than two of the longest periods ago are forgotten. -/
def Mach.useSlice (m : Mach) (b s t : Nat) : Mach :=
  m.modBank b fun x => { x with busy := (x.busy.filter fun h => decide (t ≤ h.2 + 25000)) ++ [(s, t)] }

/-- The position reserved at the bank reference before cycle `t` when no spare is in service (R307). The spec names no
rule for the choice: it is free. Log entry 82 (DESIGN CHOICE). -/
def Mach.reservedPos (m : Mach) (b t : Nat) : Nat :=
  Config.freeNat ((t - (m.bank b).ref) / m.periodOf b) (40 + b) % 4

/-! ### Windows -/

/-- The windows of a coming period (R304), and the bridge states that they assume (R308). -/
structure Windows where
  on : Option (Nat × Nat)
  off : Option (Nat × Nat)
  onWant : Int
  offWant : Int
  deriving DecidableEq, Repr

/-- R304: the windows of the period that compare values `cmp` give; `ton` is the on-time of the period before it. -/
def Mach.planWindows (m : Mach) (K P : Nat) (cmp : Compare) (ton : Nat) : Windows :=
  let b := K / 24
  let c := m.coil K
  let g := max 50 (m.rdCh (K % 24) F.CS_SCHED_GUARD b)
  let r := m.dtR K
  let f := m.dtF K
  let off0 := some (g, P - 240)
  let bm := m.bridge (K / 2)
  let rest (s : Int) : Windows := { on := none, off := off0, onWant := 1, offWant := s }
  match bm == .drive || (m.ax (K / 2)).mode == .maquette, cmp with
  | true, .quiet d =>
    let q := quietPulse P r f (m.minp K) (m.syncRoom b) d c.carry
    let e := quietEnd P ((c.j + 1) % 16) q.2.1
    let s : Int := if q.1 < 0 then -1 else 1
    if q.2.1 = 0 then rest 0
    else if P ≤ e then { on := some (r + g, P - 240), off := none, onWant := s, offWant := 0 }
    else { on := some (r + g, e - 4), off := some (e + f + g, P - 240), onWant := s, offWant := 0 }
  | true, .strong neg thr tf =>
    if min thr (m.ilim K) = 0 then rest 2
    else { on := some (r + g, ton - 4), off := some (ton + tf + f + g, P - 240), onWant := if neg then -1 else 1, offWant := 0 }
  | _, _ => rest (match bm.seg with | some 3 => 0 | _ => 2)

/-- The order of a period's samples by nominal instant (R303, R305, R306). -/
def sampleOrder (P : Nat) : List Nat := if 4000 ≤ P then [0, 4, 1, 2, 5, 3] else [0, 4, 2, 5]

/-- R305: the nominal instant of a sample in its window, with the window's end. -/
def Mach.nominal (m : Mach) (K P : Nat) (w : Windows) (kind : Nat) : Option (Nat × Nat) :=
  let four := decide (4000 ≤ P)
  let minw := max 10 (m.rdCh (K % 24) F.CS_SCHED_MINWIN (K / 24))
  match (if kind = 0 ∨ kind = 1 ∨ kind = 4 then w.on else w.off) with
  | none => none
  | some (s, e) =>
    if e < s + minw then none
    else
      let W := e - s
      let d := if kind = 4 ∨ kind = 5 then W / 2
        else if !four then W / 2
        else if kind = 0 ∨ kind = 2 then W / 4 else 3 * W / 4
      some (s + d, e)

/-! ### Placement -/

/-- R307: the instant lies more than KEEP cycles from the turn-on instant of every other channel of the bank. -/
def Mach.keepOk (m : Mach) (K t : Nat) : Bool :=
  let b := K / 24
  let P := m.periodOf b
  let keep := m.rdCh (K % 24) F.CS_SCHED_KEEP b
  let ref := (m.bank b).ref
  (List.range 24).all fun k =>
    if k = K % 24 then true
    else
      let on := (ref + m.chanOfs b k + m.dtR (coilOf b k)) % P
      let d := (t % P + P - on) % P
      decide (keep < d ∧ keep < P - d)

/-- R307, R312: the slice that takes a hold at cycle `t`: the first free position after the one used last. -/
def Mach.freeSlice (m : Mach) (b t : Nat) : Option (Nat × Nat) :=
  let x := m.bank b
  let spare := (m.spareOf b).isSome
  let inRef := decide ((t - x.ref) % m.periodOf b < 67)
  ([1, 2, 3, 4].map fun i => (x.lastPos + i) % 4).findSome? fun pos =>
    match m.sliceAt b pos with
    | some s => if x.freeAt s t ∧ (spare ∨ !inRef ∨ pos ≠ m.reservedPos b t) then some (pos, s) else none
    | none => none

/-- R307: the first cycle in `t … e` at which the sample can be placed, with its position and slice. -/
def Mach.place (m : Mach) (K : Nat) : Nat → Nat → Option (Nat × Nat × Nat)
  | 0, _ => none
  | fuel + 1, t =>
    match (if m.keepOk K t then m.freeSlice (K / 24) t else none) with
    | some (pos, s) => some (t, pos, s)
    | none => m.place K fuel (t + 1)

/-- R306, R307: one request of the coming period, which starts at `t0`, is placed, or finds no place.
Log entry 147 (DEDUCED). -/
def Mach.placeOne (m : Mach) (K P t0 : Nat) (w : Windows) (kind : Nat) : Mach :=
  let want := if kind = 0 ∨ kind = 1 ∨ kind = 4 then w.onWant else w.offWant
  let add (m : Mach) (r : SampleReq) : Mach := m.modCoil K fun c => { c with shReqs := c.shReqs ++ [r] }
  let miss (d : Nat) : SampleReq := { kind := kind, at_ := d, slice := 0, pos := 0, disp := 0, nowin := true, want := want }
  match m.nominal K P w kind with
  | none => add m (miss (P / 2))
  | some (t, e) =>
    match m.place K (e - t + 1) (t0 + t) with
    | none => add m (miss t)
    | some (at_, pos, s) =>
      let m1 := (m.useSlice (K / 24) s at_).modBank (K / 24) fun x => { x with lastPos := pos }
      add m1 { kind := kind, at_ := at_ - t0, slice := s, pos := pos, disp := at_ - (t0 + t), nowin := false, want := want }

/-- R306: the requests of a coil go to the arbiter together with its compare values, in the order of their nominal instants; those of
several coils are placed in the order in which they come. Log entry 147 (DEDUCED). -/
def Mach.placeReqs (m : Mach) (K ton : Nat) : Mach :=
  let n := m.nextStart K (m.bank (K / 24)).adj
  let w := m.planWindows K n.period (m.coil K).shadow ton
  (sampleOrder n.period).foldl (fun m k => m.placeOne K n.period n.t0 w k) (m.modCoil K fun c => { c with shReqs := [] })

/-- The bridge-state segment of a coil at a cycle; a brake is the state of slow decay. -/
def Coil.stateAt (c : Coil) (t : Nat) : Int :=
  match c.segs.find? (·.1 ≤ t) with
  | some s => if s.2 = 3 then 0 else s.2
  | none => 2

end Sys2Proof.Machine
end

