-- ==== Sys2Proof/Machine/Real.lean ====
section
/-!
DEFINITION. The real functions the rules name (R331, R335, R347, R396, R397): series summed in whole multiples of 2⁻⁹⁶ and rounded
to the nearest multiple of 2⁻⁶⁴. The rules state no rounding of an intermediate value. Log entry 84 (DESIGN CHOICE).
-/

namespace Sys2Proof.Machine

/-- The unit of the series: 2⁹⁶. -/
def fxOne : Int := (2 ^ 96 : Nat)

/-- The product of two values in the unit. -/
def fxMul (a b : Int) : Int := a * b / fxOne

/-- A rational in the unit. -/
def toFx (x : Rat) : Int := (x * fxOne).floor

/-- A value in the unit, rounded to the nearest multiple of 2⁻⁶⁴. -/
def ofFx (x : Int) : Rat := ((x + (2 ^ 31 : Nat)) / ((2 ^ 32 : Nat) : Int) : Int) / ((2 ^ 64 : Nat) : Rat)

/-- 2π in the unit. -/
def fxTurn : Int := 497805226624462170461043889244

/-- The series of terms t, t·q/((k+1)(k+2)), …: sine and cosine at q = −x². -/
def trigSeries (q : Int) : Nat → Nat → Int → Int
  | 0, _, _ => 0
  | f + 1, k, t => t + trigSeries q f (k + 2) (fxMul t q / ((k + 1) * (k + 2) : Nat))

/-- The argument of a turn's fraction, taken into half a turn either way. -/
def fxAngle (t : Rat) : Int := fxMul (toFx (t - (t + 1 / 2).floor)) fxTurn

/-- The sine and the cosine of a fraction of a turn. Log entry 84 (DESIGN CHOICE). -/
def sinTurn (t : Rat) : Rat := let x := fxAngle t; ofFx (trigSeries (-fxMul x x) 24 1 x)
/-- . Log entry 84 (DESIGN CHOICE). -/
def cosTurn (t : Rat) : Rat := let x := fxAngle t; ofFx (trigSeries (-fxMul x x) 24 0 fxOne)

/-- The largest `v` in [lo, lo + 2ⁿ) with `p v`, for a `p` that holds up to some point, `lo` among it. -/
def searchLast (p : Int → Bool) : Nat → Int → Int
  | 0, lo => lo
  | n + 1, lo => let mid := lo + ((2 ^ n : Nat) : Int); searchLast p n (if p mid then mid else lo)

/-- `atan2 y x` in 360°/65,536, rounded toward minus infinity, from −32,768 to 32,767 (R331); free where both are zero.
Log entry 84 (DESIGN CHOICE). -/
def atan2 (y x : Rat) : Int :=
  if y = 0 ∧ x = 0 then Config.angleOfZero
  else
    let (y', x', base) : Rat × Rat × Int := if y < 0 ∨ (y = 0 ∧ x < 0) then (-y, -x, -32768) else (y, x, 0)
    let big := ratMax y' (ratMax x' (-x'))
    let slack : Rat := big / (2 ^ 56 : Nat)
    base + searchLast (fun k => decide (-slack ≤ y' * cosTurn (k / 65536) - x' * sinTurn (k / 65536))) 15 0

/-- `acos y` in degrees, to the nearest 2⁻⁴⁶ turn (R335). Log entry 84 (DESIGN CHOICE). -/
def acosDeg (y : Rat) : Rat :=
  let k := if 1 ≤ y then -2 else searchLast (fun k => decide (y ≤ cosTurn (k / (2 ^ 48 : Nat)))) 47 0
  360 * (((k + 2) / 4 : Int) : Rat) / (2 ^ 46 : Nat)

/-- `|sin|` of a load angle in 360°/65,536, and the sine of whole degrees (R347). Log entry 84 (DESIGN CHOICE). -/
def sinAbs (d : Int) : Rat := ratAbs (sinTurn (d / 65536))
/-- . Log entry 84 (DESIGN CHOICE). -/
def sinDeg (d : Nat) : Rat := sinTurn ((d : Rat) / 360)

/-- The square root, rounded down to a multiple of 2⁻⁶⁴; zero at and below zero. Log entry 84 (DESIGN CHOICE). -/
def sqrtRat (x : Rat) : Rat :=
  let n : Int := (x * (2 ^ 128 : Nat)).floor
  (searchLast (fun k => decide (k * k ≤ n)) (n.toNat.log2 / 2 + 1) 0 : Rat) / (2 ^ 64 : Nat)

/-- 2·(z + z³/3 + z⁵/5 + …), the logarithm of (1 + z)/(1 − z). -/
def lnSeries (q : Int) : Nat → Nat → Int → Int
  | 0, _, _ => 0
  | f + 1, k, t => 2 * t / (k : Int) + lnSeries q f (k + 2) (fxMul t q)

/-- The logarithm of a number from 1/2 to 2, in the unit. -/
def lnNear (y : Rat) : Int := let z := toFx ((y - 1) / (y + 1)); lnSeries (fxMul z z) 48 1 z

/-- The natural logarithm of a positive number (R396). Log entry 84 (DESIGN CHOICE). -/
def lnRat (x : Rat) : Rat :=
  let k : Int := (x.num.natAbs.log2 : Int) - x.den.log2
  let y := if 0 ≤ k then x / (2 ^ k.toNat : Nat) else x * (2 ^ (-k).toNat : Nat)
  ofFx (lnNear y + k * lnNear 2)

/-- The terms of eˣ. -/
def expSeries (x : Int) : Nat → Nat → Int → Int
  | 0, _, _ => 0
  | f + 1, k, t => t + expSeries x f (k + 1) (fxMul t x / ((k + 1 : Nat) : Int))

/-- A value squared `n` times. -/
def fxSquares : Nat → Int → Int
  | 0, x => x
  | n + 1, x => fxSquares n (fxMul x x)

/-- eˣ for x at or below zero. -/
def expNeg (x : Rat) : Rat := ofFx (fxSquares 8 (expSeries (toFx (x / 256)) 40 0 fxOne))

end Sys2Proof.Machine
end

