-- ==== Sys2Proof/Machine/Commut.lean ====
section
/-!
DEFINITION. The regulator: position to table address (R240 to R244), learned correction (R245, R246), resolution (R248 to
R251), modes (R252 to R258), amplitude (R261 to R263), and the observers' part of a coil computation (R330 to R339).
-/

namespace Sys2Proof.Machine

/-! ### Tables and addresses -/

/-- The grid spacing of a resolution level (R248). -/
def gridOf (level : Nat) : Int := match level with | 0 => 1 | 1 => 4 | 2 => 16 | 3 => 64 | _ => 256

/-- The cell of a level's grid that holds the commutation position `a`, a raw Q40.24 number (R248). -/
def cellOf (level : Nat) (a : Int) : Int :=
  let x := a / 2 ^ 24
  if level = 4 then (x - 128) / 256 else x / gridOf level

/-- The used address of a level (R248). -/
def usedAddr (level : Nat) (a : Int) : Nat :=
  if level = 4 then ((256 * cellOf 4 a + 128) % 1024).toNat else ((gridOf level * cellOf level a) % 1024).toNat

/-- The table entry of a coil at an address (R243); −32,768 acts as −32,767. -/
def Mach.tableEntry (m : Mach) (t u : Nat) (coilB : Bool) : Int :=
  match vget none m.comm t with
  | some w => max (-32767) (signedOf 16 (bitsOf w (32 * u + (if coilB then 16 else 0)) 16))
  | none => if coilB then sineTable u else cosTable u

/-- A correction bin of a coil (R245, R247). -/
def Mach.bin (m : Mach) (n b : Nat) (coilB : Bool) : Int :=
  signedOf 16 (bitsOf (vget 0 m.harm n) (32 * b + (if coilB then 16 else 0)) 16)

/-- Sets a correction bin. -/
def Mach.setBin (m : Mach) (n b : Nat) (coilB : Bool) (v : Int) : Mach :=
  { m with harm := vmod m.harm n fun w => putBits w (32 * b + (if coilB then 16 else 0)) 16 (unsignedOf 16 v) }

/-- The regulator treats the axis as energised (R134, R165): in MAQUETTE by its sub-state. -/
def Mach.regOn (m : Mach) (n : Nat) : Bool :=
  match (m.ax n).eff with
  | .off | .maquette => false
  | .fault => m.faultHolds n || (m.ax n).recovering.isSome
  | _ => true

/-! ### Amplitude -/

/-- R261: the amplitude before the rating guard, and whether load following and the cap act. -/
def Mach.ampOf (m : Mach) (n ibase : Nat) : Nat × Bool × Bool :=
  let b := n / 12
  let j := n % 12
  let moves := match (m.ax n).eff with | .hold | .move | .follow | .stop => true | _ => false
  let lf := m.rb F.AX_CUR_LIM_LF_EN n && moves && m.rb F.LA_AX_VALID b j
  let lo := ceilDiv (ibase * clampNat 10 100 (m.rd F.AX_CUR_LIM_LF_MIN n)) 100
  let ilf := if lf then min ibase (max lo (m.rd F.LA_AX_ILF b j)) else ibase
  let cap := (m.hax n).cap
  (min (min ilf cap) 0x4800, decide (ilf < ibase), decide (cap < ilf))

/-- 4.2424 A, the guard's amplitude (R263). -/
def guardAmp : Nat := 0x43E1

/-- R263: the guard time after a period of coil a of `P` cycles whose amplitude before the guard was `amp`. -/
def Mach.guardStep (m : Mach) (n P amp : Nat) : Mach :=
  let o := m.ob n
  let g := if guardAmp < amp then min 400000000 (o.guardG + P) else o.guardG - P
  let on := if g = 0 then false else o.guardOn || g == 400000000
  let m1 := (m.modOb n fun o => { o with guardG := g, guardOn := on }).wr F.AX_CR_STAT_GUARD_T (g / 200000) n
  if on && !o.guardOn then (m1.setBit F.AX_CR_STAT_GUARD n).post Ev.AX_GUARD n amp else m1

/-! ### Samples -/

/-- A delivered sample of a kind (R303). -/
def Coil.sample (c : Coil) (kind : Nat) : Option Sample := c.samples.find? (·.kind = kind)

/-- The value of a sample, or the coil's target where none was delivered (R302). Log entry 83 (DEDUCED). -/
def Coil.sampleVal (c : Coil) (kind : Nat) : Rat :=
  match c.sample kind with | some s => s.val | none => ofFixed 12 c.tag.tgt

/-- The kinds a period requests (R303). -/
def kindsOf (P : Nat) : List Nat := if 4000 ≤ P then [0, 1, 2, 3, 4, 5] else [0, 2, 4, 5]

/-- The tags by which an observer leaves a period out (R338): SUBST to OVR, CLAMP and SAFE. -/
def badTag (t : Nat) : Bool := bitsOf t 14 7 != 0

/-- Every sample of the period is present and free of those tags. -/
def Coil.clean (c : Coil) : Bool :=
  (kindsOf c.period).all fun k => match c.sample k with | some s => !badTag s.tag | none => false

/-- The duty of a period as a fraction, for its means (R255, R330). -/
def Coil.dutyMag (c : Coil) : Rat :=
  match c.active with
  | .quiet d => ratAbs ((d : Rat) / 32768)
  | .strong _ thr _ => if thr = 0 then 0 else ((c.tripAt.getD c.period : Nat) : Rat) / (c.period : Rat)
  | .coast => 0

/-- R255: the mean current of a period. -/
def Coil.mean (c : Coil) : Rat :=
  let D := c.dutyMag
  if 4000 ≤ c.period then
    D * (c.sampleVal 0 + c.sampleVal 1) / 2 + (1 - D) * (c.sampleVal 2 + c.sampleVal 3) / 2
  else D * c.sampleVal 0 + (1 - D) * c.sampleVal 2

/-- Whether a ripple sample carries CLAMP or SAFE (R311). -/
def Coil.clamped (c : Coil) : Bool := c.samples.any fun s => s.kind < 4 && bitsOf s.tag 19 2 != 0

/-- Whether a ripple sample carries SUBST (R311). -/
def Coil.substituted (c : Coil) : Bool := c.samples.any fun s => s.kind < 4 && bitOf s.tag 14

/-! ### Electrical quantities -/

/-- The loop resistance and the inductance in force, Ω and H (AX_CR_RL). -/
def Mach.loopR (m : Mach) (n : Nat) (coilB : Bool) : Rat :=
  ofFixed 12 ((if coilB then m.rd F.AX_CR_RL_B_R n else m.rd F.AX_CR_RL_A_R n) : Nat)
def Mach.loopL (m : Mach) (n : Nat) (coilB : Bool) : Rat :=
  (((if coilB then m.rd F.AX_CR_RL_B_L n else m.rd F.AX_CR_RL_A_L n) : Nat) : Rat) / 1000000

/-- Ron,25 of an axis in Ω: 60 mΩ, or the value that patina holds (R430). -/
def Mach.ron25 (m : Mach) (n : Nat) : Rat :=
  let r := vget 0 m.ledRon n
  if r = 0 then 60 / 1000 else ofFixed 8 (r : Nat) / 1000

/-- T̂_n in °C (R431). -/
def Mach.junction (m : Mach) (n : Nat) : Rat :=
  ofFixed 8 (m.rdS F.HL_STATE_TBP) + ofFixed 8 (m.rd F.HL_AX_STATE_DTJ n : Nat)

/-- Ron(T̂_n) (R430). -/
def Mach.ron (m : Mach) (n : Nat) : Rat := m.ron25 n * (1 + (m.junction n - 25) / 240)

/-- R_w, the winding resistance (R330). -/
def Mach.windR (m : Mach) (n : Nat) (coilB : Bool) : Rat := m.loopR n coilB - 2 * m.ron n

/-- VM of a bank in V. -/
def Mach.vm (m : Mach) (b : Nat) : Rat := ofFixed 8 (m.rd F.PW_VM_MEAS_VM b : Nat)

/-- The bank's PWM frequency, Hz. -/
def pwmFreq (P : Nat) : Rat := 200000000 / (P : Rat)

/-- The commanded electrical angle of a position, as a fraction of a turn (R328). -/
def turnOf (a : Int) : Rat := ofFixed 24 (a % (1024 * 2 ^ 24)) / 1024

/-- The induced voltage of a coil from the filtered phasor, in coil coordinates (R331); zero while it is not valid. -/
def Mach.eHat (m : Mach) (n : Nat) (coilB : Bool) (a : Int) : Rat :=
  let o := m.ob n
  if !o.emfOk then 0
  else
    let th := turnOf a
    if coilB then o.ed * sinTurn th + o.eq_ * cosTurn th
    else o.ed * cosTurn th - o.eq_ * sinTurn th

/-! ### Observers -/

/-- VX in full steps/s (R340). -/
def Mach.vx (m : Mach) (n : Nat) : Rat := (max 1 (m.rd F.LA_OBS_CFG_VX (n / 12) (n % 12)) : Nat)

/-- R330: the mean terminal voltage v(m) of a period whose samples are usable. -/
def Mach.termV (m : Mach) (K : Nat) : Option Rat :=
  let c := m.coil K
  if !c.clean then none
  else
    let pvOn := c.sampleVal 4
    let pvOff := c.sampleVal 5
    let D := c.dutyMag
    match c.active with
    | .quiet _ => some (D * pvOn + (1 - D) * pvOff)
    | .strong _ thr tf =>
      if thr = 0 then none
      else
        let P : Rat := (c.period : Nat)
        let ton : Rat := (c.tripAt.getD c.period : Nat)
        let t : Rat := (match c.tripAt with | some x => m.fastOf K x tf | none => 0 : Nat)
        some ((ton * pvOn - t * pvOn + (P - ton - t) * pvOff) / P)
    | .coast => none

/-- R330: e(m) of the period that ends. -/
def Mach.emfOf (m : Mach) (K : Nat) (c : Coil) (im : Rat) : Option Rat :=
  let n := K / 2
  let cb := isCoilB K
  (m.termV K).map fun v =>
      let di := if c.tag.rchg then 0 else match c.imPrev with | some p => im - p | none => 0
      v - m.windR n cb * im - m.loopL n cb * di * pwmFreq c.period

/-- R331: both coils' e(m) rotated into the frame of the commanded angle and filtered. -/
def Mach.emfFilter (m : Mach) (n : Nat) (a : Int) (ea eb : Rat) : Mach :=
  let th := turnOf a
  let cs := cosTurn th
  let sn := sinTurn th
  let sh : Rat := ((2 ^ min 6 (m.rd F.LA_OBS_CFG_EMF_SH (n / 12) (n % 12)) : Nat) : Rat)
  m.modOb n fun o =>
    { o with ed := o.ed + (ea * cs + eb * sn - o.ed) / sh, eq_ := o.eq_ + (eb * cs - ea * sn - o.eq_) / sh }

/-- R334: one usable period of the ripple-slope observer: the numerator and the denominator. -/
def Coil.slopes (c : Coil) : Option (Rat × Rat) :=
  if c.period < 4000 || !c.clean then none
  else match c.sample 0, c.sample 1, c.sample 2, c.sample 3 with
    | some n1, some n2, some f1, some f2 =>
      if n1.at_ = n2.at_ ∨ f1.at_ = f2.at_ then none
      else
        let dt (x y : Sample) : Rat := ((y.at_ : Rat) - (x.at_ : Rat)) / 200000000
        let sOn := (n2.val - n1.val) / dt n1 n2
        let sOff := (f2.val - f1.val) / dt f1 f2
        some (c.sampleVal 4 - c.sampleVal 5, sOn - sOff)
    | _, _, _, _ => none

/-- An angle in degrees taken modulo 180° into −90° exclusive to +90° inclusive (R335). -/
def half180 (x : Rat) : Rat := x - 180 * (((x + 90) / 180).ceil - 1 : Int)

/-- κ0 of R335. -/
def Mach.kappa0 (m : Mach) (n : Nat) : Rat :=
  let k := m.rd F.LA_RS_CFG_K0 (n / 12) (n % 12)
  ((if k = 0 then m.rd F.KN_MCHAR_S_SAL n else k : Nat) : Rat) / 2000

/-- R335: the load angle from both inductances, in 360°/65,536 rounded toward minus infinity (R328). -/
def Mach.rsAngle (m : Mach) (n : Nat) (a : Int) (la lb : Rat) : Option Int :=
  let k := m.kappa0 n
  if k = 0 ∨ la + lb = 0 then none
  else
    let y := ratMax (-1) (ratMin 1 ((lb - la) / (la + lb) / k))
    let phi := 2 * 360 * turnOf a
    let ac := acosDeg y
    let d1 := half180 ((phi - ac) / 2)
    let d2 := half180 ((phi + ac) / 2)
    let last : Rat := match (m.ob n).lastDelta with | some x => (x : Rat) * 360 / 65536 | none => 0
    let e1 := ratAbs (d1 - last)
    let e2 := ratAbs (d2 - last)
    let d := if e1 < e2 then d1 else if e2 < e1 then d2 else ratMax d1 d2
    some (d * 65536 / 360).floor

/-- R339: an observer's estimate becomes invalid; the loss is posted where it was the source in use. -/
def Mach.obsLost (m : Mach) (n src : Nat) : Mach :=
  if (m.ob n).src = src then
    (m.setBit F.LA_AX_STAT_OBS_LOST (n / 12) (n % 12)).post Ev.LA_OBS_LOST n src
  else m

/-- The conditions of R337 that do not depend on blocks. -/
def Mach.rsCond (m : Mach) (n iamp : Nat) (v : Rat) : Bool :=
  let b := n / 12
  let j := n % 12
  m.rb F.LA_OBS_CFG_RS_EN b j && !m.rb F.KN_MCHAR_S_LOW_SAL n && decide (4000 ≤ m.periodOf b)
    && decide (m.rd F.LA_RS_CFG_IMIN b j ≤ iamp) && decide (ratAbs v < 256 * m.vx n)

/-- One more value of a mean. -/
def meanAdd (s : Rat × Nat) (x : Rat) : Rat × Nat := (s.1 + x, s.2 + 1)

/-- R439: a period of coil `K` in quiet mode with I_amp ≥ 0.5 A, in a HOLD at zero velocity that has lasted 2 s, counts toward the
winding resistance of its second. -/
def Mach.patPeriod (m : Mach) (K iamp : Nat) (im : Rat) : Mach :=
  let c := m.coil K
  let quiet : Bool := match c.active with | .quiet _ => true | _ => false
  match m.termV K with
  | some v =>
    if 100000 ≤ (m.ob (K / 2)).pat.rest ∧ quiet = true ∧ 0x800 ≤ iamp then
      m.modOb (K / 2) fun o =>
        if isCoilB K then { o with pat := { o.pat with vb := o.pat.vb + v, ib := o.pat.ib + im } }
        else { o with pat := { o.pat with va := o.pat.va + v, ia := o.pat.ia + im } }
    else m
  | none => m

/-- R334, R439: the inductance that a block has yielded. -/
def Mach.patBlock (m : Mach) (K : Nat) (est : Option Rat) : Mach :=
  match est with
  | some l => m.modOb (K / 2) fun o =>
      if isCoilB K then { o with pat := { o.pat with lb := meanAdd o.pat.lb l } } else { o with pat := { o.pat with la := meanAdd o.pat.la l } }
  | none => m

/-- The observers' part of a coil computation (R330 to R339, R439); `a` is the commutation position of the period that ends. -/
def Mach.observe (m : Mach) (K : Nat) (a : Int) (im v : Rat) (iamp : Nat) : Mach :=
  let n := K / 2
  let b := n / 12
  let j := n % 12
  let c := m.coil K
  -- induced voltage
  let e := m.emfOf K c im
  let m1 := m.modCoil K fun c => { c with em := e }
  let m2 := if isCoilB K then
      let ca := m1.coil (2 * n)
      match ca.em, e with
      | some ea, some eb => (m1.emfFilter n a ea eb).modOb n fun o => { o with gapE := 0 }
      | _, _ => m1.modOb n fun o => { o with gapE := o.gapE + 1 }
    else m1
  let gapN := max 1 (m.rd F.LA_CFG_GAP_N b)
  let o := m2.ob n
  let fast := decide (15 * 256 * m.vx n / 16 ≤ ratAbs v)
  let runE := if !fast then 0 else if isCoilB K then o.fastRun else o.fastRun + 1
  let gap := decide (gapN ≤ o.gapE)
  let run' := if gap then 0 else runE
  let need := 4 * 2 ^ min 6 (m.rd F.LA_OBS_CFG_EMF_SH b j)
  let ok := m.rb F.LA_OBS_CFG_EMF_EN b j && !gap && decide (need ≤ run')
  let m3 := m2.modOb n fun o => { o with fastRun := run', emfOk := ok }
  let m4 := (if o.emfOk && gap then m3.obsLost n 2 else m3).patPeriod K iamp im
  -- ripple slope
  let s := c.slopes
  let used := match s with | some _ => c.rsUsed + 1 | none => c.rsUsed
  let num := match s with | some x => c.rsNum + x.1 | none => c.rsNum
  let den := match s with | some x => c.rsDen + x.2 | none => c.rsDen
  let all := c.rsAll + 1
  let cond := m.rsCond n iamp v
  let full := decide (2 ^ clampNat 4 10 (m.rd F.LA_CFG_RS_SH b) ≤ used)
  let hit := s.isSome || (m.coil (2 * n)).rsHit
  let gapR := if !isCoilB K then o.gapR else if hit then 0 else o.gapR + 1
  let lostR := decide (gapN ≤ gapR)
  let m5 := m4.modCoil K fun c =>
    if full || !cond then { c with rsNum := 0, rsDen := 0, rsUsed := 0, rsAll := 0 }
    else { c with rsNum := num, rsDen := den, rsUsed := used, rsAll := all }
  let m6 := (m5.modCoil K fun c => { c with rsHit := s.isSome }).modOb n fun o => { o with gapR := gapR }
  if !cond then m6.modOb n fun o => { o with rsOk := false, la := none, lb := none }
  else if lostR then
    (if o.rsOk then m6.obsLost n 1 else m6).modOb n fun o => { o with rsOk := false, la := none, lb := none }
  else if !full then m6
  else
    let est := if all ≤ 2 * used ∧ den ≠ 0 then some (num / den) else none
    let m7 := (m6.patBlock K est).modOb n fun o => if isCoilB K then { o with lb := est } else { o with la := est }
    match (m7.ob n).la, (m7.ob n).lb with
    | some la, some lb =>
      match m7.rsAngle n a la lb with
      | some d => m7.modOb n fun o => { o with rsOk := true, rsDelta := d, lastDelta := some d, la := none, lb := none }
      | none => m7.modOb n fun o => { o with rsOk := false, la := none, lb := none }
    | _, _ => if est.isNone then m7.modOb n fun o => { o with rsOk := false } else m7

/-! ### Harmonic learning -/

/-- Adds an error to the accumulator of a bin (R246). -/
def addAcc (b : Nat) (e : Rat) : List (Nat × Rat × Nat) → List (Nat × Rat × Nat)
  | [] => [(b, e, 1)]
  | (k, s, n) :: rest => if k = b then (k, s + e, n + 1) :: rest else (k, s, n) :: addAcc b e rest

/-- R246: the update of the bins with samples of one coil. -/
def Mach.learnCoil (m : Mach) (n K iamp : Nat) : Mach :=
  let sh := m.rd F.AX_HARM_CFG_SHIFT n
  let lim : Int := (64 * m.rd F.AX_HARM_CFG_LIM n : Nat)
  let cb := isCoilB K
  let amp := ofFixed 12 (iamp : Nat)
  let m1 := (m.coil K).acc.foldl (fun m x =>
    let step := toFixedZero 0 (x.2.1 / (x.2.2 : Rat) * 32768 / (amp * ((2 ^ sh : Nat) : Rat)))
    let v := m.bin n x.1 cb + step
    let m' := m.setBin n x.1 cb (clampInt (-lim) lim v)
    if v < -lim ∨ lim < v then (m'.setBit F.AX_CR_STAT_LEARN_LIM n).post Ev.AX_HARM_LIM n (x.1 + 128 * b2n cb) else m') m
  m1.modCoil K fun c => { c with acc := [] }

/-- R246: the learning part of a coil computation. -/
def Mach.learn (m : Mach) (K : Nat) (res : Kin) (aNow aOld : Int) (e : Rat) (iamp : Nat) : Mach :=
  let n := K / 2
  let c := m.coil K
  let other := m.coil (if isCoilB K then K - 1 else K + 1)
  let st := (m.ax n).eff
  let lo := m.rd F.AX_HARM_SPD_VLO n
  let hi := m.rd F.AX_HARM_SPD_VHI n
  let v := ratAbs res.v
  let quiet (x : Coil) : Bool := match x.active with | .quiet _ => true | _ => false
  let ok := m.rb F.AX_COMM_CFG_LEARN n && (st == .move || st == .follow) && decide (res.a = 0) && lo != 0 && hi != 0
    && decide (((256 * lo : Nat) : Rat) ≤ v) && decide (v ≤ ((256 * hi : Nat) : Rat)) && quiet c && quiet other && !c.tag.chg
  if !ok then
    ((m.modCoil (2 * n) fun c => { c with acc := [] }).modCoil (2 * n + 1) fun c => { c with acc := [] }).modOb n fun o => { o with travel := 0 }
  else
    let m1 := if c.substituted then m else m.modCoil K fun c => { c with acc := addAcc (c.tag.u / 8) e c.acc }
    if isCoilB K then m1
    else
      let t := (m.ob n).travel + (aNow - aOld).natAbs
      if (1024 * 2 ^ 24 : Int) ≤ t ∧ iamp ≠ 0 then
        ((m1.learnCoil n K iamp).learnCoil n (K + 1) iamp).modOb n fun o => { o with travel := 0 }
      else m1.modOb n fun o => { o with travel := t }

/-! ### The computation -/

/-- The level, address and slew that one computation decides (R248 to R251). -/
structure LevelStep where
  level : Nat
  u : Nat
  slew : Option Nat
  mid : Bool
  start : Bool
  deriving DecidableEq, Repr

/-- R242, R250, R251: one computation of a coil at position `a` with requested level `req`; `anew` says that the coil is being
energised anew. -/
def levelStep (c : Coil) (a : Int) (req : Nat) (still anew : Bool) : LevelStep :=
  if anew then { level := req, u := usedAddr req a, slew := none, mid := false, start := false }
  else if req = c.level ∧ !c.mid ∧ c.slew.isNone then
    { level := req, u := usedAddr req a, slew := none, mid := false, start := false }
  else if still then
    let goal := usedAddr req a
    if goal = c.u then { level := req, u := goal, slew := none, mid := false, start := false }
    else
      let up := (goal + 1024 - c.u) % 1024
      let u := if up ≤ 512 then (c.u + 1) % 1024 else (c.u + 1023) % 1024
      if u = goal then { level := req, u := u, slew := none, mid := false, start := c.slew.isNone }
      else { level := c.level, u := u, slew := some goal, mid := true, start := c.slew.isNone }
  else
    let g := max c.level req
    if cellOf g a ≠ cellOf g c.aPrev then { level := req, u := usedAddr req a, slew := none, mid := false, start := false }
    else if c.mid then { level := c.level, u := c.u, slew := none, mid := true, start := false }
    else { level := c.level, u := usedAddr c.level a, slew := none, mid := false, start := false }

/-- R301: the range of the next period. -/
def Mach.rangeLow (m : Mach) (K iamp : Nat) (was : Bool) : Bool :=
  let b := K / 24
  let k := K % 24
  let lim := min 0x1800 (m.rdCh k F.CS_RANGE_LOW_MAX b)
  match m.rdCh k F.CS_RANGE_FORCE b with
  | 1 => false
  | 2 => decide (iamp ≤ 0x1800)
  | _ => if was then decide (iamp ≤ lim) else decide (16 * iamp ≤ 15 * lim)

/-- The sign of a number. -/
def isign (x : Int) : Int := if x < 0 then -1 else if x = 0 then 0 else 1

/-- The fields of AX_COIL and AX_CR_STAT after a computation (R264). -/
def Mach.coilShow (m : Mach) (K : Nat) (req : Req) (duty : Int) (lf cap : Bool) : Mach :=
  let n := K / 2
  let c := m.coil K
  let o := m.ob n
  let m1 := if isCoilB K then
      (((m.wr F.AX_COIL_MODE_B (b2n c.strong) n).wrS F.AX_COIL_TGT_B c.shTag.tgt n).wrS F.AX_COIL_DUTY_B duty n).wr
        F.AX_COIL_FD_B c.fd n
    else
      (((((m.wr F.AX_COIL_ADDR c.u n).wr F.AX_COIL_LEVEL c.level n).wr F.AX_COIL_MODE_A (b2n c.strong) n).wrS
        F.AX_COIL_TGT_A c.shTag.tgt n).wrS F.AX_COIL_DUTY_A duty n).wr F.AX_COIL_FD_A c.fd n
  let slew := (m.coil (2 * n)).slew.isSome || (m.coil (2 * n + 1)).slew.isSome
  ((((((m1.wr F.AX_COIL_SLEW (b2n slew) n).wr F.AX_COIL_IAMP c.shTag.iamp n).wr F.AX_COIL_LF_ACT (b2n lf) n).wr
    F.AX_COIL_CAP_ACT (b2n cap) n).wr F.AX_COIL_GUARD_ACT (b2n o.guardOn) n).wr F.AX_COIL_LEVEL_REQ req.level n).wr
    F.AX_COIL_MODE_REQ (b2n req.strong) n

/-- The PI step of R256: the duty in steps of 2⁻¹⁵, the new integrator, and whether the duty was limited.
Log entry 81 (DEDUCED). -/
def piStep (v vff kp e ki integ vm : Rat) (openD : Int) : Int × Rat × Bool :=
  let integ' := integ + ki * e
  let u := vff + kp * e + integ' + v
  if vm = 0 then (openD, integ, false)
  else
    let d := u / vm
    if 1 < d then (32768, integ, true)
    else if d < -1 then (-32768, integ, true)
    else (toFixedZero 15 d, integ', false)

/-- R24 to R26, R240 to R263: one computation of a coil: from the samples of its running period, the compare values of
the next with its requests of samples (R306). AX_RES_SLEW comes from the coil that begins to slew first (log entry 148, DESIGN CHOICE). `tph` is the midpoint of the next period, in PWM cycles after the last tick boundary (R25).
Log entries 80 (DEDUCED), 81 (DEDUCED), 148 (DESIGN CHOICE). -/
def Mach.coilCompute (m : Mach) (K tph : Nat) : Mach :=
  let n := K / 2
  let b := K / 24
  let cb := isCoilB K
  let a := m.ax n
  let c := m.coil K
  let P := m.periodOf b
  let ahead := a.pubd && decide (4000 ≤ tph)
  let exact := if ahead then a.nxt else a.cur
  let res : Kin := { exact with v := cmdVel exact.v }
  let req := if ahead then a.nxtReq else a.curReq
  let dt : Rat := ((tph - (if ahead then 4000 else 0) : Nat) : Rat) / 200000000
  let pos := toFixed 24 res.p + toFixed 24 (res.v * dt)
  let ac := pos + (m.rd F.AX_COMM_OFS_OFS n : Nat)
  let still := decide (res.v = 0)
  let im := match c.active with | .coast => 0 | _ => c.mean
  let m0 := m.modCoil K fun c => { c with im := im, sumSq := c.sumSq + im * im, sumAbs := c.sumAbs + ratAbs im, sumN := c.sumN + 1 }
  let (amp, lf, cap) := m.ampOf n req.ibase
  let o := m.ob n
  let iamp := if o.guardOn then min amp guardAmp else amp
  let inFault := a.eff == .fault
  if !m.regOn n then
    let low := m.rangeLow K iamp c.low
    let t := { PTag.reset with level := c.level, u := c.u, low := low, rchg := low != c.low }
    let m1 := (m0.observe K c.aPrev im res.v iamp).modCoil K fun c =>
      { c with on := false, inFault := inFault, low := low, aPrev := ac, slew := none, mid := false, shadow := .coast, shTag := t, fresh := true
               imPrev := none, em := none, acc := [] }
    let m2 := if cb then m1 else m1.guardStep n P 0
    (m2.coilShow K req 0 false false).placeReqs K 0
  else
    let anew := !c.on || (inFault && !c.inFault)
    -- resolution
    let ls := levelStep c ac req.level still anew
    let tbl := m.rd F.AX_COMM_CFG_TABLE n
    let e := m.tableEntry tbl ls.u cb
    let corr := if m.rb F.AX_COMM_CFG_HARM_EN n then m.bin n (ls.u / 8) cb else 0
    let x := clampInt (-32767) 32767 (e + corr)
    let t0 := Int.tdiv ((iamp : Int) * x) 32768
    let tgt := if cb && m.rb F.AX_COMM_CFG_INV n then -t0 else t0
    -- mode
    let strong := if anew || still || e == 0 || isign e != isign c.ePrev then req.strong else c.strong
    let lvlChg := c.on && ls.level != c.level
    let modeChg := c.on && strong != c.strong
    -- loop
    let vm := m.vm b
    let Rl := m.loopR n cb
    let L := m.loopL n cb
    let f := pwmFreq P
    let err := ofFixed 12 c.tag.tgt - im
    let kpr := m.rd F.AX_CR_PI_KP n
    let kir := m.rd F.AX_CR_PI_KI n
    let kp := if kpr = 0 then L * f / 4 else ofFixed 8 (kpr : Nat)
    let ki := if kir = 0 then Rl / 4 else ofFixed 12 (kir : Nat)
    let itN := ofFixed 12 tgt
    let vff := (if m.rb F.AX_CR_FF_FF_R n then Rl * itN else 0)
      + (if m.rb F.AX_CR_FF_FF_L n then L * (itN - ofFixed 12 c.tag.tgt) * f else 0)
      + (if m.rb F.AX_CR_FF_FF_E n then m.eHat n cb ac else 0)
    let fdMin := m.rd F.AX_CR_CHOP_FD_MIN n
    let fdMax := max fdMin (m.rd F.AX_CR_CHOP_FD_MAX n)
    let wasStrong := c.strongDuty.isSome
    let ton := if wasStrong then c.strongTon else c.tripAt.getD c.endCount
    let fd := if modeChg && strong || !c.on && strong then clampNat fdMin fdMax (m.rd F.AX_CR_CHOP_FD_INIT n)
      else if strong && wasStrong then
        (if c.tripAt.isSome ∧ ton ≤ max 20 (m.rd F.AX_CR_CHOP_TBLANK n) + 5 then min (c.fd + 1) fdMax
         else if c.tripAt.isNone then max (c.fd - 1) fdMin else c.fd)
      else c.fd
    -- bumpless entry into quiet mode (R254): the period's voltage is VM times the last strong period's mean duty
    let integ0 := if modeChg && !strong then vm * c.strongDuty.getD c.sDuty - vff - kp * err - ki * err else c.integ
    let openD := signedOf 16 (m.free 1)
    let (d, integ1, sat) := piStep 0 vff kp err ki integ0 vm openD
    let integ := if strong then c.integ else if c.clamped then integ0 else integ1
    let cmp : Compare := if strong then
        .strong (decide (tgt < 0)) tgt.natAbs (fd * (P - ton) / 16)
      else .quiet d
    let low := m.rangeLow K iamp c.low
    let tag : PTag :=
      { level := ls.level, strong := strong, slew := ls.slew.isSome, chg := lvlChg || modeChg, rchg := low != c.low
        low := low, u := ls.u, tgt := tgt, iamp := iamp }
    let satRun := if strong || !sat then 0 else c.satRun + 1
    let m1 := m0.observe K c.aPrev im res.v iamp
    let m2 := m1.learn K res ac c.aPrev err iamp
    let m3 := m2.modCoil K fun c =>
      { c with on := true, inFault := inFault, aPrev := ac, level := ls.level, u := ls.u, slew := ls.slew, mid := ls.mid, strong := strong
               ePrev := e, integ := integ, satRun := satRun, satNoted := satRun != 0 && c.satNoted, fd := fd, low := low
               imPrev := some im, shadow := cmp, shTag := tag, fresh := true }
    let chg := b2n lvlChg + b2n modeChg
    let m4 := m3.wr F.AX_CR_STAT_CHG_CNT (m3.rd F.AX_CR_STAT_CHG_CNT n + chg) n
    let m5 := if satRun = 16 ∧ !c.satNoted then
        ((m4.modCoil K fun c => { c with satNoted := true }).setBit
          (if cb then F.AX_CR_STAT_SAT_B else F.AX_CR_STAT_SAT_A) n).post Ev.AX_DUTY_SAT n (b2n cb)
      else m4
    let otherSlew := (m.coil (if cb then K - 1 else K + 1)).slew.isSome
    let m6 := if ls.start then
        let s := m5.setBit F.AX_CR_STAT_SLEW n
        if otherSlew then s else s.post Ev.AX_RES_SLEW n (c.u + 2 ^ 10 * usedAddr req.level ac + 2 ^ 20 * req.level)
      else m5
    let m7 := if cb then m6 else m6.guardStep n P amp
    let shown := if strong then toFixed 15 (c.strongDuty.getD (isign tgt * (ton : Rat) / (max 1 c.period : Nat))) else d
    (m7.coilShow K req shown lf cap).placeReqs K ton

/-- R264: an access to AX_HARM_DATA advances AX_HARM_SEL.BIN. -/
def Mach.harmAdvance (m : Mach) (n : Nat) : Mach := m.wrap F.AX_HARM_SEL_BIN n

/-- The word of AX_HARM_DATA: the selected bin of both coils. -/
def Mach.harmWord (m : Mach) (n : Nat) : Nat := bitsOf (vget 0 m.harm n) (32 * m.rd F.AX_HARM_SEL_BIN n) 32

/-- R245, R264: a write of AX_HARM_DATA; dropped while LEARN = 1. -/
def Mach.writeHarm (m : Mach) (n v : Nat) : Mach :=
  let b := m.rd F.AX_HARM_SEL_BIN n
  let m1 : Mach := if m.rb F.AX_COMM_CFG_LEARN n then m
    else { m with harm := vmod m.harm n fun w => putBits w (32 * b) 32 v }
  m1.harmAdvance n

end Sys2Proof.Machine
end

