-- ==== Sys2Proof/Machine/Sense.lean ====
section
/-!
DEFINITION. The converter banks: the delivery of scheduled samples, their correction, tags and substitution (R300 to R302, R306 to R310,
R314), shadowing and recalibration (R313 to R317), requested conversions
(R318 to R322), window comparators (R323) and the sense-path check (R324).
-/

namespace Sys2Proof.Machine

/-- R308: EDGE at a hold, but in MAQUETTE, where no gate switches: the bridge state is not the one that the window assumed, or one of
the coil's own gate commands lies within GUARD before it. -/
def Mach.edgeAt (m : Mach) (K t : Nat) (want : Int) : Bool :=
  let c := m.coil K
  let g := max 50 (m.rdCh (K % 24) F.CS_SCHED_GUARD (K / 24))
  let near (x : Nat) : Bool := decide (x ≤ t ∧ t < x + g)
  let level (x : Int) : Int := if x = 3 then 0 else x
  let changes := (c.segs.zip (c.segs.drop 1)).filter fun p => level p.1.2 != level p.2.2
  let dead (p : (Nat × Int) × (Nat × Int)) : Nat :=
    if p.1.2 = 2 ∨ p.1.2 = 3 ∨ p.2.2 = 2 then 0 else if p.1.2 = 0 then m.dtF K else m.dtR K
  (m.ax (K / 2)).mode != .maquette && (c.stateAt t != want || changes.any fun p => near p.1.1 || near (p.1.1 + dead p))

/-! ### The model prediction -/

/-- The voltage of a bridge-state segment (R302). -/
def segVolt (vm : Rat) (s : Int) (i : Rat) : Rat :=
  if s = 1 then vm else if s = -1 then -vm else if s = 2 then (if i < 0 then vm else if i = 0 then 0 else -vm) else 0

/-- The segments between cycles `a` and `b`, oldest first, as (state, cycles). -/
def segsBetween (a b : Nat) : Nat → List (Nat × Int) → List (Int × Nat)
  | _, [] => []
  | stop, (s, x) :: rest =>
    if b ≤ s then segsBetween a b (min stop s) rest
    else
      let lo := max a s
      let hi := min b stop
      let here := if lo < hi then [(x, hi - lo)] else []
      (if s ≤ a then [] else segsBetween a b s rest) ++ here

/-- R302: the predicted current of a coil at cycle `t`. -/
def Mach.predict (m : Mach) (K t : Nat) : Rat :=
  let c := m.coil K
  let tgt := ofFixed 12 c.tag.tgt
  match c.ripple with
  | none => tgt
  | some (tr, i0) =>
    if tr + 4 * c.period < t then tgt
    else
      let n := K / 2
      let cb := isCoilB K
      let L := m.loopL n cb
      if L = 0 then tgt
      else
        let e := m.eHat n cb c.aPrev
        let vm := m.vm (K / 24)
        (segsBetween tr t t c.segs).foldl (fun i s =>
          i + (segVolt vm s.1 i0 - m.loopR n cb * i0 - e) * ((s.2 : Rat) / 200000000) / L) i0

/-- The predicted value of a sample: the current, or for a phase voltage the segment's terminal voltage. -/
def Mach.predictKind (m : Mach) (K kind t : Nat) : Rat :=
  if kind < 4 then m.predict K t
  else segVolt (m.vm (K / 24)) ((m.coil K).stateAt t) (m.predict K t)

/-! ### Window comparators -/

/-- R323: one new result of a source for the bank's window comparators. -/
def Mach.winExamine (m : Mach) (b src sel : Nat) (val : Int) : Mach :=
  m.each 8 fun m w =>
    let live := m.rb F.CS_WIN_CFG_EN b w && m.rd F.CS_WIN_CFG_SRC b w == src && m.rd F.CS_WIN_CFG_SEL b w == sel
      && (src == 3 || decide (sel ≤ 23))
    if !live then m
    else
      let inside := decide (m.rdS F.CS_WIN_THR_LO b w ≤ val) && decide (val ≤ m.rdS F.CS_WIN_THR_HI b w)
      let hit := inside == m.rb F.CS_WIN_CFG_INSIDE b w
      let x := m.bank b
      if !hit then
        m.modBank b fun x => { x with winRun := x.winRun.set w 0, winNow := putBits x.winNow w 1 0 }
      else
        let run := x.winRun.getD w 0 + 1
        let need := max 1 (m.rd F.CS_WIN_CFG_N b w)
        let m1 := m.modBank b fun x => { x with winRun := x.winRun.set w run }
        if run < need ∨ bitOf x.winNow w then m1
        else
          let m2 := m1.modBank b fun x => { x with winNow := putBits x.winNow w 1 1 }
          (m2.wr F.CS_WIN_STAT_HIT (m2.rd F.CS_WIN_STAT_HIT b ||| 2 ^ w) b).post Ev.CS_WIN b (w + 2 ^ 16 * unsignedOf 16 val)

/-! ### Scheduled samples -/

/-- The tag of R310. -/
def tagWord (h : Held) (t : PTag) (subst clip ovr : Bool) : Nat :=
  h.kind + h.slice * 2 ^ 3 + b2n t.low * 2 ^ 6 + t.level * 2 ^ 7 + b2n t.strong * 2 ^ 10 + b2n t.slew * 2 ^ 11
    + b2n t.chg * 2 ^ 12 + b2n t.rchg * 2 ^ 13 + b2n subst * 2 ^ 14 + b2n clip * 2 ^ 15 + b2n h.edge * 2 ^ 16
    + b2n h.nowin * 2 ^ 17 + b2n ovr * 2 ^ 18 + b2n h.clamp * 2 ^ 19 + b2n h.safe * 2 ^ 20 + min h.disp 127 * 2 ^ 21

/-- OFS and GAIN of a slice for a conversion held at cycle `t`: an update applies to those held after it (R314). -/
def Mach.coefAt (m : Mach) (b s t : Nat) : Int × Int :=
  let (at_, o, g) := (m.bank b).coef.getD s (0, 0, 0)
  if t < at_ then (o, g) else (m.rdS F.CS_SLICE_OFS b s, m.rdS F.CS_SLICE_GAIN b s)

/-- The corrected code of a slice for a conversion held at cycle `t` (R314). -/
def Mach.corrected (m : Mach) (b s t : Nat) (raw : Int) : Rat :=
  let (o, g) := m.coefAt b s t
  ((raw : Rat) - ofFixed 4 o) * (1 - ofFixed 19 g)

/-- OFS and GAIN of a slice take new values (R314, R315). -/
def Mach.setCoef (m : Mach) (b s : Nat) (ofs gain : Int) : Mach :=
  let old := (m.cyc, m.rdS F.CS_SLICE_OFS b s, m.rdS F.CS_SLICE_GAIN b s)
  ((m.modBank b fun x => { x with coef := x.coef.set s old, measAt := x.measAt.set s m.clk.hours }).wrS F.CS_SLICE_OFS ofs b s).wrS
    F.CS_SLICE_GAIN gain b s

/-- R300: a corrected code scaled to amperes or volts: 0 high range, 1 low range, 2 phase voltage, 3 test DAC, reference
and ground. Log entry 83 (DEDUCED). -/
def scaleCode (q : Nat) (x : Rat) : Rat :=
  match q with
  | 0 => x * 3 / 4096
  | 1 => x * 3 / 4 / 4096
  | 2 => x * 2 / 256
  | _ => 5 / 4 + x * 5 / 4 / 8192

/-- The delivered format of R300, rounded toward minus infinity: 12 fraction bits, 8 for a phase voltage. -/
def deliver (q : Nat) (v : Rat) : Int := toFixed (if q = 2 then 8 else 12) v

/-- The image's R and L of coil a (0) or b (1) of an axis. Log entry 39 (DESIGN CHOICE). -/
def imgRL (n c : Nat) : Nat × Nat := ((Config.imageR n c).toNat, (Config.imageL n c).toNat)

/-- The R and L of the motor model (R165): those of KN_MCHAR, or the image's where step 12 has not measured them. -/
def Mach.modelRL (m : Mach) (n : Nat) (coilB : Bool) : Nat × Nat :=
  let w := m.reg (if coilB then .KN_MCHAR_B else .KN_MCHAR_A) n 0
  if w = 0 then imgRL n (b2n coilB) else (bitsOf w 0 16, bitsOf w 16 16)

/-- The angle of the model rotor in addresses (R165): LOAD addresses behind the commanded one, or where STALL_INJ has stopped it. -/
def Mach.rotorAngle (m : Mach) (n : Nat) (cmd : Int) : Rat :=
  ((m.ax n).frozen).getD (ofFixed 24 cmd - (m.rd F.AX_MAQ_CFG_LOAD n : Nat))

/-- The model value of a sample in MAQUETTE (R165). Log entry 82 (DESIGN CHOICE). -/
def Mach.modelValue (m : Mach) (K kind d : Nat) : Rat :=
  let c := m.coil K
  let n := K / 2
  let cmp : List Rat := match c.active with
    | .quiet d => [1, d, 0]
    | .strong neg thr tf => [2, if neg then -(thr : Rat) else thr, tf]
    | .coast => [0, 0, 0]
  let now := match c.ripple with | some (_, i) => i | none => 0
  let (r, l) := m.modelRL n (isCoilB K)
  Config.modelSample ([(kind : Rat), (b2n (isCoilB K) : Nat)] ++ cmp
    ++ [m.vm (K / 24), r, l, (m.rd F.KN_MCHAR_S_SAL n : Nat), m.rotorAngle n c.aPrev, d, now])

/-- A sample reaches the regulator (R302, R309, R310); in MAQUETTE every one is a model value (R165). The conversion of a failed slice,
and one lost to a swap of the CSA PLL, is a prediction (R418, R422). Log entry 82 (DESIGN CHOICE). -/
def Mach.deliverSample (m : Mach) (K : Nat) (h : Held) (raw : Int) (conv full : Bool) : Mach :=
  let b := K / 24
  let k := K % 24
  let c := m.coil K
  let maq := (m.ax (K / 2)).mode == .maquette
  let clip := conv && !maq && (decide (raw ≤ -8192) || decide (8191 ≤ raw))
  let lost := conv && (m.rd F.CS_SLICE_ROLE b h.slice == 4 || h.lost)
  let subst := clip || h.edge || h.nowin || full || lost
  let q := if 4 ≤ h.kind then 2 else if c.tag.low then 1 else 0
  let meas := if maq then m.modelValue K h.kind (h.at_ - c.t0) else scaleCode q (m.corrected b h.slice h.at_ raw)
  let val := if subst && !maq then m.predictKind K h.kind h.at_ else ofFixed 18 (toFixed 18 meas)
  let s : Sample := { kind := h.kind, at_ := h.at_, val := val, tag := tagWord h c.tag subst clip full }
  let ripple := decide (h.kind < 4) && !subst
  let m1 := m.modCoil K fun c =>
    { c with samples := c.samples ++ [s], held := c.held.filter (·.kind ≠ h.kind)
             ripple := if ripple then some (h.at_, val) else c.ripple, clipNow := c.clipNow || clip }
  let m2 := (((m1.when clip (·.setBit F.CS_STAT_CLIP b)).when h.edge (·.setBit F.CS_STAT_EDGE b)).when h.nowin
    (·.setBit F.CS_STAT_NOWIN b)).when subst (·.bump F.CS_CNT_SUBST_CNT b)
  let m3 := m2.when full fun m => ((m.setBit F.CS_STAT_OVR b).bump F.CS_CNT_OVR_CNT b).post Ev.CS_OVERRUN b (k + 32 * h.kind)
  let m4 := m3.wr F.CS_CNT_DISP_MAX (max (m3.rd F.CS_CNT_DISP_MAX b) (min 255 h.disp)) b
  if subst then m4 else m4.winExamine b (if h.kind < 4 then 0 else 2) k (deliver q val)

/-- R306 to R308, R313: a scheduled sample of a coil's running period is held where the arbiter has placed it; one that found no place is
delivered as a prediction. A period that repeats its values has no requests (R415). -/
def Mach.sampleHold (m : Mach) (K kind : Nat) : Mach :=
  let b := K / 24
  let c := m.coil K
  match c.reqs.find? (·.kind = kind) with
  | none => m
  | some r =>
    let at_ := c.t0 + r.at_
    let h : Held := { kind := kind, at_ := at_, slice := r.slice, disp := r.disp, edge := !r.nowin && m.edgeAt K at_ r.want
                      nowin := r.nowin, clamp := (m.bank b).clamp, safe := m.forced b, lost := m.fm.tkos.any (·.unit == 0x42) }
    let m0 := m.modCoil K fun c => { c with reqs := c.reqs.filter (·.kind ≠ kind) }
    if r.nowin then m0.deliverSample K h 0 false false
    else
      let m1 := m0.modCoil K fun c => { c with held := c.held ++ [h] }
      if 4 ≤ kind then m1
      else
        let x := m1.bank b
        let n := max 1 (m1.rd F.CS_CFG_SHADOW_N b)
        let due := decide (n ≤ x.rippleCnt) && r.pos == (x.lastShadow + 1) % 4
        match m1.spareOf b with
        | some sp =>
          if due && m1.shadowing b && x.inj.isNone && x.freeAt sp at_ then
            ((m1.useSlice b sp at_).modBank b fun x => { x with rippleCnt := 0, lastShadow := r.pos }).wrap F.CS_SLICE_PAIRS b r.slice
          else m1.modBank b fun x => { x with rippleCnt := x.rippleCnt + 1 }
        | none => m1

/-- R300, R309: a conversion completes with its raw code and reaches the regulator; `full` says that the crossing queue
was full (R36). -/
def Mach.sampleDelivered (m : Mach) (K kind : Nat) (raw : Int) (full : Bool) : Mach :=
  match (m.coil K).held.find? (·.kind = kind) with
  | some h => m.deliverSample K h raw true full
  | none => m

/-! ### Shadowing and recalibration -/

/-- One shadow pair: active and spare value in raw LSB, and the slope of the coil current in raw LSB per ps (R314). -/
structure Fit where
  o : Rat
  g : Rat
  t : Rat
  mse : Rat
  deriving DecidableEq, Repr

/-- The determinant of a 3 by 3 matrix. -/
def det3 (a b c d e f g h i : Rat) : Rat := a * (e * i - f * h) - b * (d * i - f * g) + c * (d * h - e * g)

/-- R314: the least-squares fit x_active − x_spare = o + g·x_spare + τ·σ. With no spread of σ (two ripple samples per
period) τ is 0; with no spread of x either, o alone is fitted. -/
def fitPairs (ps : List (Rat × Rat × Rat)) : Fit :=
  let n : Rat := (ps.length : Nat)
  let x (p : Rat × Rat × Rat) : Rat := p.2.1
  let d (p : Rat × Rat × Rat) : Rat := p.1 - p.2.1
  let s (p : Rat × Rat × Rat) : Rat := p.2.2
  let sum (f : Rat × Rat × Rat → Rat) : Rat := (ps.map f).sum
  let sx := sum x
  let ss := sum s
  let sd := sum d
  let sxx := sum fun p => x p * x p
  let sss := sum fun p => s p * s p
  let sxs := sum fun p => x p * s p
  let sxd := sum fun p => x p * d p
  let ssd := sum fun p => s p * d p
  let D := det3 n sx ss sx sxx sxs ss sxs sss
  let D2 := n * sxx - sx * sx
  let r : Rat × Rat × Rat :=
    if D ≠ 0 then
      (det3 sd sx ss sxd sxx sxs ssd sxs sss / D, det3 n sd ss sx sxd sxs ss ssd sss / D, det3 n sx sd sx sxx sxd ss sxs ssd / D)
    else if D2 ≠ 0 then ((sd * sxx - sx * sxd) / D2, (n * sxd - sx * sd) / D2, 0)
    else if n ≠ 0 then (sd / n, 0, 0)
    else (0, 0, 0)
  let res (p : Rat × Rat × Rat) : Rat := d p - r.1 - r.2.1 * x p - r.2.2 * s p
  { o := r.1, g := r.2.1, t := r.2.2, mse := if n = 0 then 0 else (sum fun p => res p * res p) / n }

/-- The operating hours at the measurement of a slice's coefficients (R316). -/
def Mach.sliceTime (m : Mach) (b s h : Nat) : Mach := m.modBank b fun x => { x with measAt := x.measAt.set s h }

/-- The number of the slice in events (R327, R407). -/
def sliceNo (b s : Nat) : Nat := 5 * b + s

/-- R314: the end of a shadow block of an active slice, with its pairs of raw codes; the spare's code counts after its own correction.
Log entry 85 (DEDUCED). -/
def Mach.shadowBlock (m : Mach) (b s : Nat) (ps : List (Int × Int × Rat)) : Mach :=
  if !m.shadowing b || !m.sliceActive b s then m
  else
    let sp := (m.spareOf b).getD 4
    let f := fitPairs (ps.map fun p => ((p.1 : Rat), m.corrected b sp m.cyc p.2.1, p.2.2))
    let ofs := m.rdS F.CS_SLICE_OFS b s
    let gain := m.rdS F.CS_SLICE_GAIN b s
    let skew := m.rdS F.CS_SLICE_SKEW b s
    let ofs' := shownS 16 (ofs + toFixedZero 0 ((f.o * 16 - (ofs : Rat)) / 4))
    let gain' := shownS 16 (gain + toFixed 0 ((f.g * ((2 ^ 19 : Nat) : Rat) - (gain : Rat)) / 4))
    let skew' := shownS 8 (if 5 / 2 < f.t then skew + 1 else if f.t < -(5 / 2) then skew - 1 else skew)
    let resid := shownU 16 0 (16 * sqrtRat f.mse)
    let m1 := ((m.setCoef b s ofs' gain').wrS F.CS_SLICE_SKEW skew' b s).wr F.CS_SLICE_RESID resid b s
    let drift := decide (1024 < ofs'.natAbs) || decide (2 * 2 ^ 19 < 100 * gain'.natAbs)
    let m2 := m1.modBank b fun x => { x with drift := x.drift.set s (if drift then x.drift.getD s 0 + 1 else 0) }
    if drift then
      (m2.setBit F.CS_STAT_DRIFT b).post Ev.CS_DRIFT (sliceNo b s) (unsignedOf 16 ofs' + 2 ^ 16 * unsignedOf 16 gain')
    else m2

/-- A slice's offset in 1/16 LSB, from its code at the zero of the internal reference (R315). -/
def calOfs (zero : Int) : Int := 16 * zero

/-- A slice's gain error in 2⁻¹⁹, from its codes at ±90 % of full scale; none where they are equal (R315). -/
def calGain (pos neg : Int) : Option Int :=
  if pos = neg then none else some (toFixed 19 (1 - 2 * (9 * 8192 / 10) / ((pos - neg : Int) : Rat)))

/-- OFS and GAIN of a slice measured against the internal reference at zero and at ±90 % of full scale (R315, R73). The
coefficients are those that make the corrected codes of R314 right at these points. Log entry 85 (DEDUCED). -/
def Mach.calSlice (m : Mach) (b s : Nat) (zero pos neg : Int) : Mach :=
  let ofs := shownS 16 (calOfs zero)
  let gain : Int := match calGain pos neg with | some g => shownS 16 g | none => signedOf 16 (Config.outOfFormat 16 0 % 2 ^ 16)
  m.setCoef b s ofs gain

/-- R315: the spare recalibrates itself; not while it stands in (R317). Log entry 85 (DEDUCED). -/
def Mach.spareRecal (m : Mach) (b : Nat) (zero pos neg : Int) : Mach :=
  match m.spareOf b with
  | some s => if m.rd F.CS_CFG_CAL_INT b = 0 then m else m.calSlice b s zero pos neg
  | none => m

/-! ### Conversions on request -/

/-- The selectors of R318. -/
def selValid (x : Nat) : Bool :=
  decide (x ≤ 0x17) || (decide (0x20 ≤ x) && decide (x ≤ 0x37)) || (decide (0x40 ≤ x) && decide (x ≤ 0x42))

/-- R318: an invalid selector. -/
def Mach.selBad (m : Mach) (b sel : Nat) : Mach := (m.setBit F.CS_STAT_SEL_BAD b).post Ev.CS_SEL_BAD b sel

/-- R318: a request for one injected conversion. -/
def Mach.injGo (m : Mach) (b trig at_ : Nat) : Mach :=
  let sel := m.rd F.CS_INJ_CTRL_SEL b
  if (m.bank b).inj.isSome then m.setBit F.CS_INJ_STAT_REQ_DROP b
  else if !selValid sel then m.selBad b sel
  else (m.modBank b fun x => { x with inj := some { sel := sel, trig := trig, at_ := at_ } }).setBit F.CS_INJ_STAT_BUSY b

/-- What a selector converts: 0 high range, 1 low range, 2 phase voltage, 3 the rest (R300). -/
def Mach.selQuant (m : Mach) (b sel : Nat) : Nat :=
  if sel ≤ 0x17 then (if (m.coil (coilOf b sel)).tag.low then 1 else 0) else if sel ≤ 0x37 then 2 else 3

/-- The hold of a conversion that completes now (R307): 67 cycles earlier. Log entry 119 (DEDUCED). -/
def Mach.holdCyc (m : Mach) : Nat := m.cyc - 67

/-- Its timestamp (R322). Log entry 119 (DEDUCED). -/
def Mach.holdStamp (m : Mach) : Nat := if m.clk.running then m.holdCyc / 4 % 2 ^ 48 else 0

/-- The result word of R322. -/
def Mach.resultWord (m : Mach) (b sel slice idx trig wait : Nat) (raw : Int) : Nat × Int :=
  let q := m.selQuant b sel
  let clip := decide (raw ≤ -8192) || decide (8191 ≤ raw)
  let v := deliver q (scaleCode q (m.corrected b slice m.holdCyc raw))
  (unsignedOf 16 v + sel * 2 ^ 16 + slice * 2 ^ 24 + b2n (q == 1) * 2 ^ 27 + b2n clip * 2 ^ 28 + idx * 2 ^ 32
    + trig * 2 ^ 40 + m.holdStamp * 2 ^ 48 + min wait 511 * 2 ^ 96, v)

/-- The slice that serves requested conversions (R319): the spare, or an active slice. -/
def Mach.reqSlice (m : Mach) (b : Nat) : Nat :=
  match m.spareOf b with
  | some s => s
  | none => (m.sliceAt b (m.reservedPos b (m.bank b).ref)).getD 0

/-- R318: an injected conversion completes. -/
def Mach.injResult (m : Mach) (b : Nat) (raw : Int) (wait : Nat) : Mach :=
  match (m.bank b).inj with
  | none => m
  | some r =>
    let m := m.useSlice b (m.reqSlice b) m.holdCyc
    let (w, v) := m.resultWord b r.sel (m.reqSlice b) 0xFF r.trig wait raw
    let above := m.rb F.CS_INJ_STAT_VALID b
    let m1 := ((m.modBank b fun x => { x with inj := none }).clrFld F.CS_INJ_STAT_BUSY b).setReg .CS_INJ_RES b 0 w
    let m2 := (m1.setBit F.CS_INJ_STAT_VALID b).wr F.CS_INJ_STAT_WAIT (min wait 511) b
    let m3 := m2.when above fun m => (m.setBit F.CS_INJ_STAT_OVR b).post Ev.CS_INJ_OVR b r.sel
    m3.winExamine b 3 r.sel v

/-- The next list index from `i` whose selector is valid; invalid ones are skipped with their flag and event (R320). -/
def Mach.scanNext (m : Mach) (b : Nat) : Nat → Nat → Mach
  | 0, _ => (m.modBank b fun x => { x with scan := none, scanStop := false }).clrFld F.CS_SCAN_STAT_RUN b
  | fuel + 1, i =>
    if m.rd F.CS_SCAN_CFG_LEN b < i then (m.modBank b fun x => { x with scan := none, scanStop := false }).clrFld F.CS_SCAN_STAT_RUN b
    else
      let sel := m.rd F.CS_SCAN_LIST_SEL b i
      if selValid sel then (m.modBank b fun x => { x with scan := some i }).setBit F.CS_SCAN_STAT_RUN b
      else (m.selBad b sel).scanNext b fuel (i + 1)

/-- R320: a pass starts; a start while one runs is ignored. Log entry 37 (DEDUCED). -/
def Mach.scanGo (m : Mach) (b trig : Nat) : Mach :=
  if (m.bank b).scan.isSome then m
  else (m.modBank b fun x => { x with scanTrig := trig, scanStop := false }).scanNext b 17 0

/-- R320: STOP ends the pass after the running conversion. -/
def Mach.scanStopCmd (m : Mach) (b : Nat) : Mach :=
  m.modBank b fun x => if x.scan.isSome then { x with scanStop := true } else x

/-- R320: an entry for the scan queue. Log entry 37 (DEDUCED). -/
def Mach.scanPush (m : Mach) (b w : Nat) : Mach :=
  let q := (m.bank b).scanQ
  if 256 ≤ q.length then
    let m1 := m.bump F.CS_SCAN_STAT_DROP_CNT b
    if m1.rb F.CS_SCAN_STAT_OVF b then m1
    else (m1.setBit F.CS_SCAN_STAT_OVF b).post Ev.CS_SCAN_OVF b (m1.rd F.CS_SCAN_STAT_DROP_CNT b)
  else (m.modBank b fun x => { x with scanQ := x.scanQ ++ [BitVec.ofNat 128 w] }).wr F.CS_SCAN_STAT_LEVEL (q.length + 1) b

/-- R319: whether a scan conversion could be held at cycle `t` on a slice: an active one that is free, with no scheduled hold within 67
cycles, and not the one that an injected conversion has first. -/
def Mach.scanGrant (m : Mach) (b s t : Nat) : Bool :=
  let x := m.bank b
  m.sliceActive b s && x.freeAt s t && !((m.spareOf b).isNone && x.inj.isSome && s == m.reqSlice b)

/-- R320: a scan conversion completes on an active slice that was granted to it (R319); on another none can have been. -/
def Mach.scanResult (m : Mach) (b slice : Nat) (raw : Int) (wait : Nat) : Mach :=
  match (m.bank b).scan with
  | none => m
  | some i =>
    if !m.scanGrant b slice m.holdCyc then m else
    let sel := m.rd F.CS_SCAN_LIST_SEL b i
    let m := m.useSlice b slice m.holdCyc
    let (w, v) := m.resultWord b sel slice i (m.bank b).scanTrig wait raw
    let m1 := (m.scanPush b w).winExamine b 3 sel v
    if (m1.bank b).scanStop then (m1.modBank b fun x => { x with scan := none, scanStop := false }).clrFld F.CS_SCAN_STAT_RUN b
    else m1.scanNext b 17 (i + 1)

/-- The oldest unread scan result; zero when empty. -/
def Mach.scanPeek (m : Mach) (b : Nat) : Word := ((m.bank b).scanQ.head?).getD 0

/-- R320: CS_SCAN_POP removes the oldest entry. -/
def Mach.scanPop (m : Mach) (b : Nat) : Mach :=
  (m.modBank b fun x => { x with scanQ := x.scanQ.drop 1 }).wr F.CS_SCAN_STAT_LEVEL ((m.bank b).scanQ.length - 1) b

/-- R321: what a trigger requests at cycle `at_`. -/
def Mach.trigDo (m : Mach) (b k at_ : Nat) : Mach :=
  if !m.rb F.CS_TRIG_EN b k then m
  else if m.rb F.CS_TRIG_ACT b k then m.scanGo b k
  else m.injGo b k at_

/-- R321: a conversion trigger fires, DLY cycles after a source event; those that fire in the same cycle are handled in ascending order.
Without such an event none fires. -/
def Mach.trigFire (m : Mach) (b k : Nat) : Mach :=
  match (m.bank b).trigs.find? (·.1 = k) with
  | none => m
  | some e =>
    let now (p : Nat × Nat) : Bool := decide (p.2 = e.2 ∧ p.1 ≤ k)
    let fired := (m.bank b).trigs.filter now
    let m1 := m.modBank b fun x => { x with trigs := x.trigs.filter fun p => !now p }
    (List.range (k + 1)).foldl (fun m i => if fired.any (·.1 == i) then m.trigDo b i e.2 else m) m1

/-! ### The sense-path check and the test DAC -/

/-- R324: a check starts, or waits for the test DAC. -/
def Mach.pchkGo (m : Mach) (b : Nat) : Mach :=
  let ch := m.rd F.CS_PCHK_CH b
  let md := (m.ax (12 * b + ch / 2)).mode
  if 24 ≤ ch ∨ (m.bank b).pchk.isSome ∨ !(md == .off || md == .maquette) then m.setBit F.CS_PCHK_STAT_REFUSED b
  else (m.modBank b fun x => { x with pchk := some (ch, m.rb F.CS_PCHK_RANGE b, false) }).setBit F.CS_PCHK_STAT_BUSY b

/-- R324: the current in A that the test DAC at `v` volts represents. -/
def pchkAmps (low : Bool) (v : Rat) : Rat := (v - 5 / 4) * (if low then 6 / 5 else 24 / 5)

/-- R324: a check ends; `s1` and `s2` are the sums of the 64 conversions at 0.25 V and at 2.25 V, as delivered. -/
def Mach.pchkDone (m : Mach) (b : Nat) (s1 s2 : Int) : Mach :=
  match (m.bank b).pchk with
  | none => m
  | some (ch, low, _) =>
    let e1 := ofFixed 12 s1 / 64 - pchkAmps low (1 / 4)
    let e2 := ofFixed 12 s2 / 64 - pchkAmps low (9 / 4)
    let lim : Rat := if low then 15 / 1000 else 60 / 1000
    let fail := decide (lim < ratAbs e1) || decide (lim < ratAbs e2)
    let e := if ratAbs e1 < ratAbs e2 then e2 else e1
    let raw := unsignedOf 16 (shownS 16 (toFixed 12 e))
    let m1 := (m.modBank b fun x => { x with pchk := none }).clrFld F.CS_PCHK_STAT_BUSY b
    let m2 := ((m1.setBit F.CS_PCHK_STAT_DONE b).wr F.CS_PCHK_STAT_FAIL (b2n fail) b).wr F.CS_PCHK_STAT_ERR raw b
    m2.post (if fail then Ev.CS_PATH_FAIL else Ev.CS_PATH_OK) (12 * b + ch / 2) (ch % 2 + 2 * b2n low + 2 ^ 16 * raw)

end Sys2Proof.Machine
end

