-- ==== Sys2Proof/Machine/LoadAngle.lean ====
section
/-!
DEFINITION. The bank summary of a tick boundary (R329): the estimate in use (R340), the load angle (R328), the voltage
constant (R333), the stall criteria (R341), the load-following value (R347); the retry after its pause (R343) and the
resynchronisation (R346).
-/

namespace Sys2Proof.Machine

/-- An angle of 360°/65,536 wrapped to −180° exclusive to +180° inclusive (R328). -/
def wrapAngle (x : Int) : Int := let y := x % 65536; if 32768 < y then y - 65536 else y

/-- |ê|² of an axis, in V². -/
def Obs.emf2 (o : Obs) : Rat := o.ed * o.ed + o.eq_ * o.eq_

/-- R340: the source in use at a boundary: 0 none, 1 ripple slope, 2 induced voltage, 3 feedback. -/
def Mach.srcOf (m : Mach) (n : Nat) (v : Rat) : Nat :=
  let b := n / 12
  let j := n % 12
  let o := m.ob n
  let fb := m.rb F.LA_OBS_CFG_FB_SRC b j && (match m.verPort n with
    | some p => !m.portBad p
    | none => false)
  let hi := 256 * m.vx n
  let x := ratAbs v
  if fb then 3
  else if hi ≤ x ∧ o.emfOk then 2
  else if x < 15 * hi / 16 ∧ o.rsOk then 1
  else if 15 * hi / 16 ≤ x ∧ x < hi ∧ ((o.src = 1 ∧ o.rsOk) ∨ (o.src = 2 ∧ o.emfOk)) then o.src
  else if o.emfOk then 2
  else if o.rsOk then 1
  else 0

/-- The load angle of a source (R331, R335, R340). -/
def Mach.deltaOf (m : Mach) (n src : Nat) (v : Rat) : Int :=
  let o := m.ob n
  match src with
  | 3 =>
    match m.verPort n with
    | some p => wrapAngle ((cmdPos (m.ax n).cur.p - m.pFb n p) * 64).floor
    | none => 0
  | 2 => let s := sgn v; wrapAngle (atan2 (s * o.ed) (s * o.eq_))
  | 1 => o.rsDelta
  | _ => 0

/-- The stall criteria of a boundary (R341): A, B. -/
def Mach.criteria (m : Mach) (n src : Nat) (delta : Int) (vfs : Rat) : Bool × Bool :=
  let b := n / 12
  let j := n % 12
  let o := m.ob n
  let a := src != 0 && decide (m.stallDeg b j src * 65536 < delta.natAbs * 360)
  let pct := m.rd F.LA_STALL_CFG_EMF_PCT b j
  let lim := (pct : Rat) * o.ke * vfs / 100
  (a, src == 2 && o.keOk && pct != 0 && decide (o.emf2 < lim * lim))

/-- The boundary at which the axis's last segment started: its own, or its path's (R140, R347). -/
def Mach.segStart (m : Mach) (n : Nat) : Option Nat :=
  match (m.runSeg n (m.ax n)).filter fun g => decide (g.t0 ≤ m.clk.tick) with
  | some g => some g.t0
  | none => (m.ob n).segT0

/-- The load-following value of a boundary (R347). -/
def Mach.ilfOf (m : Mach) (n : Nat) (valid crit : Bool) (delta : Int) : Nat :=
  let b := n / 12
  let j := n % 12
  let a := m.ax n
  let o := m.ob n
  let ibase := a.curReq.ibase
  let moves := match a.eff with | .hold | .move | .follow | .stop => true | _ => false
  let declared := a.declared && crit
  let segNew := decide (m.segStart n ≠ o.segT0)
  let sign := if a.cur.a < 0 then (-1 : Int) else if a.cur.a = 0 then 0 else 1
  let x := if !valid || !moves || declared then ibase
    else if segNew || sign != o.accSign then ibase
    else
      let tgt := clampNat 10 80 (m.rd F.LA_LF_CFG_TGT b j)
      let down := max 1 (m.rd F.LA_LF_CFG_DOWN b j)
      let ireq := ceilNat (((m.rd F.AX_COIL_IAMP n : Nat) : Rat) * sinAbs delta / sinDeg tgt)
      if o.ilf ≤ ireq then ireq else max ireq (o.ilf - down)
  min (max x (ceilDiv (ibase * clampNat 10 100 (m.rd F.AX_CUR_LIM_LF_MIN n)) 100)) ibase

/-- R439: patina's window on an axis at a tick boundary: HOLD at zero velocity goes on or ends; a second's winding resistances are
its mean voltages over its mean currents; friction is the mean of I_amp·|sin δ|. Log entry 124 (DEDUCED). -/
def Mach.patTick (m : Mach) (n : Nat) (emf : Bool) (delta : Int) : Mach :=
  let a := m.ax n
  let p := (m.ob n).pat
  let v := a.cur.v
  let rest := if a.eff == .hold && v == 0 then p.rest + 1 else 0
  let second := decide (m.clk.tick % 50000 = 0)
  let close (r : Rat × Nat) (u i : Rat) : Rat × Nat := if second && i != 0 then meanAdd r (u / i) else r
  let zero := second || rest == 0
  let fric := if emf && a.eff == .move && a.cur.a == 0 && decide (256 * m.vx n ≤ ratAbs v) then
      meanAdd p.fric (ofFixed 12 (m.rd F.AX_COIL_IAMP n : Nat) * sinAbs delta)
    else p.fric
  m.modOb n fun o =>
    { o with pat := { p with rest := rest, fric := fric, ra := close p.ra p.va p.ia, rb := close p.rb p.vb p.ib
                             va := if zero then 0 else p.va, ia := if zero then 0 else p.ia
                             vb := if zero then 0 else p.vb, ib := if zero then 0 else p.ib } }

/-- R329: the bank summary of an axis is latched at a tick boundary. -/
def Mach.laTick (m : Mach) (n : Nat) : Mach :=
  let b := n / 12
  let j := n % 12
  let a := m.ax n
  let o := m.ob n
  let v := a.cur.v
  let vfs := ratAbs v / 256
  let src := m.srcOf n v
  let delta := m.deltaOf n src v
  let valid := src != 0
  let pos := toFixed 24 a.cur.p + (m.rd F.AX_COMM_OFS_OFS n : Nat)
  let near := ((pos / 2 ^ 24 + 32) % 256 : Int)
  let unk := src == 1 && decide (near ≤ 64)
  let emag : Rat := sqrtRat o.emf2
  let learn := src == 2 && decide (delta.natAbs * 360 ≤ 60 * 65536) && decide (a.cur.a = 0) && decide (vfs ≠ 0)
  let ke := if learn then o.ke + (emag / vfs - o.ke) / 256 else o.ke
  let keN := if learn then min 1024 (o.keN + 1) else o.keN
  let (ca, cb) := m.criteria n src delta vfs
  let now := ca || cb
  let ia := (m.coil (2 * n)).im
  let ib := (m.coil (2 * n + 1)).im
  let imeas := Nat.sqrt (((ia * ia + ib * ib) * ((2 ^ 24 : Nat) : Rat)).floor.toNat)
  let ilf := if m.rb F.AX_CUR_LIM_LF_EN n then m.ilfOf n valid now delta else o.ilf
  let peakOn := valid && (a.eff == .move || a.eff == .follow) && decide (m.rd F.LA_AX_PEAK b j < delta.natAbs)
  let peak := if peakOn then delta.natAbs else m.rd F.LA_AX_PEAK b j
  let peakV := if peakOn then min 65535 vfs.floor.toNat else m.rd F.LA_AX_PEAK_V b j
  let sign := if a.cur.a < 0 then (-1 : Int) else if a.cur.a = 0 then 0 else 1
  let m1 := (m.patTick n (src == 2) delta).modOb n fun o =>
    { o with src := src, ke := ke, keN := keN, keOk := decide (keN = 1024), ilf := ilf, accSign := sign
             critA := ca, critB := cb, segT0 := m.segStart n, lastDelta := if valid then some delta else o.lastDelta }
  let w := unsignedOf 16 delta + b2n valid * 2 ^ 16 + src * 2 ^ 17 + b2n unk * 2 ^ 19 + b2n o.emfOk * 2 ^ 20
    + b2n o.rsOk * 2 ^ 21 + b2n (decide (keN = 1024)) * 2 ^ 22 + b2n now * 2 ^ 23 + imeas % 2 ^ 16 * 2 ^ 24
    + shownU 16 8 emag * 2 ^ 40 + shownU 16 12 (ke * 1000) * 2 ^ 56 + ilf % 2 ^ 16 * 2 ^ 72
    + peak * 2 ^ 88 + peakV * 2 ^ 104
  let m2 := m1.setReg .LA_AX b j w
  if src = o.src then m2
  else
    (m2.modAx n fun a => { a with blankUntil := m.clk.tick + m.rd F.LA_STALL_CFG_BLANK b j }).post Ev.LA_SRC_CHANGE n
      (o.src + 4 * src)

/-- R343: after its pause a retry plans the command again from rest, at the reduced speed. -/
def Mach.retryResume (m : Mach) (n : Nat) : Mach :=
  let a := m.ax n
  match a.retry.goal with
  | none => m
  | some g =>
    if !a.retry.waiting || a.seg.isSome then m
    else
      let B := m.clk.tick + 1
      let s : Kin := { p := a.nxt.p, v := 0, a := 0 }
      let m1 := (m.modAx n fun a => { a with retry := { a.retry with waiting := false } }).clrFld F.LA_AX_STAT_RETRYING (n / 12) (n % 12)
      let lim := m1.cmdLim n g.prof
      match g.kind with
      | .velocity => m1.setVelSeg n B s g.prof lim g.vEnd
      | _ => m1.replanPos n B s g.prof lim (ofFixed 24 g.target) g.status

/-- R346: a resynchronisation from a feedback port. -/
def Mach.resync (m : Mach) (b j : Nat) : Mach :=
  if 12 ≤ j then m
  else
    let n := 12 * b + j
    match m.verPort n with
    | some p =>
      if (m.ax n).eff = .hold ∧ m.rd F.LA_VER_CFG_OFS_MODE b j = 1 ∧ !m.portBad p then
        m.modAx n fun a => { a with resync := true }
      else m.setBit F.LA_AX_STAT_RESYNC_REFUSED b j
    | none => m.setBit F.LA_AX_STAT_RESYNC_REFUSED b j

/-- R352: LA_CTRL.PEAK_CLR. -/
def Mach.peakClr (m : Mach) (b j : Nat) : Mach :=
  if 12 ≤ j then m else (m.clrFld F.LA_AX_PEAK b j).clrFld F.LA_AX_PEAK_V b j

/-- A write of LA_CTRL. -/
def Mach.writeLaCtrl (m : Mach) (b v : Nat) : Mach :=
  let j := bitsOf v 0 4
  (m.when (bitOf v 4) (·.resync b j)).when (bitOf v 5) (·.peakClr b j)

end Sys2Proof.Machine
end

