-- ==== Sys2Proof/Machine/Charact.lean ====
section
/-!
DEFINITION. The characterisation of a motor (R84, R85), which step 12 and the ARMING of an untested axis run.
-/

namespace Sys2Proof.Machine

/-- R and L in force of an axis: winding values and twice the on-resistance (AX_CR_RL). -/
def Mach.loopFrom (m : Mach) (n ra la rb lb : Nat) : Mach :=
  let r2 : Nat := (toFixed 12 (2 * m.ron n)).toNat
  let m1 := (m.wr F.AX_CR_RL_A_R (shownU 16 0 (ra + r2 : Nat)) n).wr F.AX_CR_RL_A_L la n
  (m1.wr F.AX_CR_RL_B_R (shownU 16 0 (rb + r2 : Nat)) n).wr F.AX_CR_RL_B_L lb n

/-- The image's R and L in force (R77). -/
def Mach.loopImage (m : Mach) (n : Nat) : Mach :=
  m.loopFrom n (imgRL n 0).1 (imgRL n 0).2 (imgRL n 1).1 (imgRL n 1).2

/-- Whether a measured value, none where it is beyond every number, deviates from the image's by more than `tol` percent (R84). -/
def deviates (tol : Nat) (x : Option Int) (img : Nat) : Bool :=
  match x with
  | some k => decide (tol * img < 100 * (k - img).natAbs)
  | none => true

/-- R84: a coil is open if its current stays below 20 mA. -/
def coilOpen (c : CoilMeas) : Bool := decide (c.iEnd < 1 / 50)

/-- R84: the resistance of a winding in Ω. -/
def Mach.coilOhm (m : Mach) (n : Nat) (c : CoilMeas) : Rat := c.v / (1 / 2) - 2 * m.ron n

/-- R84: that resistance in steps of UQ4.12, to the nearest as in the example of A13. Log entry 106 (DEDUCED). -/
def Mach.coilR (m : Mach) (n : Nat) (c : CoilMeas) : Int := (m.coilOhm n c * 4096 + 1 / 2).floor

/-- R84: the inductance of a winding in µH, from the bank supply `vm` in V; none where the current did not rise.
Log entry 106 (DEDUCED). -/
def Mach.coilL (m : Mach) (n : Nat) (vm : Rat) (c : CoilMeas) : Option Int :=
  if c.di = 0 then none else some (toFixed 0 ((vm - m.coilOhm n c * c.i2) * 5 / c.di))

/-- A measured number as a field of `w` bits shows it; open where the field cannot hold it. -/
def shownMeas (w : Nat) (x : Option Int) : Nat :=
  match x with
  | some k => shownU w 0 (k : Rat)
  | none => Config.outOfFormat w 0 % 2 ^ w

/-- R84: the saliency in 0.1 % from L along the electrical angles; none where no inductance was found.
Log entry 106 (DEDUCED). -/
def salOf (ls : List Rat) : Option Int :=
  match ls with
  | [] => none
  | x :: r =>
    let hi := r.foldl ratMax x
    let lo := r.foldl ratMin x
    if hi + lo = 0 then none else some (toFixed 0 (1000 * (hi - lo) / ((hi + lo) / 2)))

/-- R84, R85: the characterisation of axis `n` with what it measures, and the unit code of its failure: of several the first of open,
short, R and L. Log entry 144 (DESIGN CHOICE). -/
def Mach.motorChar (m : Mach) (n : Nat) (w : MotorMeas) : Mach × Option Nat :=
  let tol := clampNat 5 50 (m.rd F.KN_CFG_MCHAR_TOL)
  let opA := coilOpen w.a
  let opB := coilOpen w.b
  let short := w.a.trip2 || w.b.trip2
  let m1 := m.setReg .KN_MCHAR_S n 0 (b2n opA * 2 ^ 16 + b2n opB * 2 ^ 17 + b2n short * 2 ^ 18)
  if opA || opB then (m1.loopImage n, some 0x20)
  else if short then (m1.loopImage n, some 0x21)
  else
    let vm : Rat := ofFixed 8 (m.rd F.PW_VM_MEAS_VM (bankOf n) : Nat)
    let rA := some (m.coilR n w.a)
    let rB := some (m.coilR n w.b)
    let lA := m.coilL n vm w.a
    let lB := m.coilL n vm w.b
    let ra := shownMeas 16 rA
    let rb := shownMeas 16 rB
    let la := shownMeas 16 lA
    let lb := shownMeas 16 lB
    let s := salOf w.ls
    let sal := shownMeas 10 s
    let rDev := deviates tol rA (imgRL n 0).1 || deviates tol rB (imgRL n 1).1
    let lDev := deviates tol lA (imgRL n 0).2 || deviates tol lB (imgRL n 1).2
    let low := decide (s.getD (sal : Int) < (max 30 (m.rd F.KN_CFG_SAL_MIN) : Nat))
    let m2 := (m1.setReg .KN_MCHAR_A n 0 (ra + la * 2 ^ 16)).setReg .KN_MCHAR_B n 0 (rb + lb * 2 ^ 16)
    let m3 := m2.setReg .KN_MCHAR_S n 0 (sal + b2n rDev * 2 ^ 19 + b2n lDev * 2 ^ 20 + b2n low * 2 ^ 21)
    let m4 := (m3.loopFrom n ra la rb lb).wr F.AX_COMM_OFS_OFS (unsignedOf 34 (256 * 2 ^ 24 - toFixed 24 (m.ax n).cur.p)) n
    (m4.when low (·.post Ev.KILN_LOW_SALIENCY n sal), if rDev then some 0x22 else if lDev then some 0x23 else none)

end Sys2Proof.Machine
end

