-- ==== Sys2Proof/Machine/AxisCtl.lean ====
section
/-!
DEFINITION. An axis's control register (R133, R151, R164), the end of ARMING (R133), the standstill ramp (R163), limit
inputs (R152 to R154) and homing references (R159).
-/

namespace Sys2Proof.Machine

/-! ### AX_CTRL -/

/-- AX_CTRL.ENABLE: as an ENABLE command; where it does not apply CTRL_IGNORED sets (R135, R167). Log entry 78 (DEDUCED). -/
def Mach.ctrlEnable (m : Mach) (n : Nat) : Mach :=
  if (m.ax n).eff == .off && !m.enableRefused n then m.enterArming n else m.setBit F.AX_FAULT_CTRL_IGNORED n

/-- AX_CTRL.DISABLE: as a DISABLE command. -/
def Mach.ctrlDisable (m : Mach) (n : Nat) : Mach :=
  if (m.ax n).eff == .off then m.setBit F.AX_FAULT_CTRL_IGNORED n else m.disable n

/-- AX_CTRL.ESTOP: ESTOP cause HOST. -/
def Mach.ctrlEstop (m : Mach) (n : Nat) : Mach :=
  if (m.ax n).eff == .off then m.setBit F.AX_FAULT_CTRL_IGNORED n else m.estop n 1

/-- AX_CTRL.MAQ_ENTER: from OFF only (R164). -/
def Mach.ctrlMaqEnter (m : Mach) (n : Nat) : Mach :=
  if (m.ax n).mode == .off then
    (m.modAx n fun a => { a with mode := .maquette, sub := .off }).post Ev.AX_MAQ_ENTER n 0
  else m.setBit F.AX_FAULT_CTRL_IGNORED n

/-- AX_CTRL.MAQ_EXIT: to OFF from any sub-state (R164); the command in flight retires with 0x01, position-uncertain sets. -/
def Mach.ctrlMaqExit (m : Mach) (n : Nat) : Mach :=
  let a := m.ax n
  if a.mode == .maquette then
    let t := m.clk.tick + 1
    let m1 := (((m.homeCut n).dropMotion n 0x01 t).retireAll a.stopCmds 0x01 t).keptEnd n t
    let m2 := ((((m1.breakPath n 0xFE).endEnable n 0x01 t).leaveFollow n t).trimStop n).modAx n fun a =>
      { a.atRest with mode := .off, sub := .off, posUnc := true, frozen := none }
    (m2.post Ev.AX_MAQ_EXIT n a.sub.code).masterLost n
  else m.setBit F.AX_FAULT_CTRL_IGNORED n

/-- R167: a write of AX_CTRL; only the highest-ranked bit acts, and other bits of the write set CTRL_IGNORED. -/
def Mach.writeAxCtrl (m : Mach) (n v : Nat) : Mach :=
  let x := bitsOf v 0 5
  let rest (k : Nat) (m : Mach) : Mach := if x = 2 ^ k then m else m.setBit F.AX_FAULT_CTRL_IGNORED n
  if bitOf x 1 then rest 1 (m.ctrlDisable n)
  else if bitOf x 4 then rest 4 (m.ctrlMaqExit n)
  else if bitOf x 2 then rest 2 (m.ctrlEstop n)
  else if bitOf x 3 then rest 3 (m.ctrlMaqEnter n)
  else if bitOf x 0 then rest 0 (m.ctrlEnable n)
  else m

/-! ### ARMING and standstill -/

/-- Whether the axis is marked untested (R83). -/
def Mach.untested (m : Mach) (n : Nat) : Bool :=
  if n < 32 then bitOf (m.reg .KN_UNTESTED_LO 0 0) n else bitOf (m.reg .KN_UNTESTED_HI 0 0) (n - 32)

/-- Marks or clears the untested bit of an axis. -/
def Mach.setUntested (m : Mach) (n : Nat) (on : Bool) : Mach :=
  if n < 32 then m.setReg .KN_UNTESTED_LO 0 0 (putBits (m.reg .KN_UNTESTED_LO 0 0) n 1 (b2n on))
  else m.setReg .KN_UNTESTED_HI 0 0 (putBits (m.reg .KN_UNTESTED_HI 0 0) (n - 32) 1 (b2n on))

/-- R83: a failed test of an untested axis leaves it OFF, and its ENABLE retires with 0x82. -/
def Mach.armingFail (m : Mach) (n : Nat) : Mach :=
  let m1 := (m.retireAll (m.ax n).enWait 0x82 (m.clk.tick + 1)).trimStop n
  let m2 := m1.modAx n fun a => { ({ a with posUnc := true }.atRest).setEff .off with enWait := [] }
  (m2.masterLost n).post Ev.AX_DISABLED n 1

/-- R133, R162: the ARMING ramp is complete: HOLD, with the standstill reduction already complete. -/
def Mach.armingHold (m : Mach) (n : Nat) : Mach :=
  let m1 := (m.setUntested n false).modAx n fun a =>
    { a.setEff .hold with
      still := some m.clk.tick, ramp0 := none, redDone := true, holdOvr := none, keepRun := false
      blankUntil := m.clk.tick + m.rd F.LA_STALL_CFG_BLANK (n / 12) (n % 12) }
  ((m1.endEnable n 0x00 (m.clk.tick + 1)).verCapture n).post Ev.AX_ARMED n (m.iHold n)

/-- Whether KN_MCEN includes an axis. -/
def Mach.characterised (m : Mach) (n : Nat) : Bool :=
  if n < 32 then bitOf (m.reg .KN_MCEN_LO 0 0) n else bitOf (m.reg .KN_MCEN_HI 0 0) (n - 32)

/-- R83, R97, R133: the end of ARMING; an untested axis has run its bridge self-test and its characterisation with `w`, where KN_CFG and
KN_MCEN let them run. -/
def Mach.armingDone (m : Mach) (n : Nat) (bridgeOk : Bool) (w : MotorMeas) : Mach :=
  if (m.ax n).eff ≠ .arming then m
  else if !m.untested n then m.armingHold n
  else if m.characterised n && m.rb F.KN_CFG_BRIDGE_TEST_EN && !bridgeOk then m.armingFail n
  else if !(m.characterised n && m.rb F.KN_CFG_MCHAR_EN) then m.armingHold n
  else
    match m.motorChar n w with
    | (m1, some _) => m1.armingFail n
    | (m1, none) => m1.armingHold n

/-- R163: the standstill delay has expired; the current ramps from the present boundary. -/
def Mach.stillRamp (m : Mach) (n : Nat) : Mach :=
  let a := m.ax n
  if a.eff == .hold && a.still.isSome && !a.redDone && a.ramp0.isNone then
    m.modAx n fun a => { a with ramp0 := some m.clk.tick }
  else m

/-! ### Limit inputs -/

/-- Sets the level of a limit input. -/
def Mach.setLim (m : Mach) (n : Nat) (sideB level : Bool) : Mach :=
  if sideB then { m with inp := { m.inp with limB := BitVec.ofNat 48 (putBits m.inp.limB.toNat n 1 (b2n level)) } }
  else { m with inp := { m.inp with limA := BitVec.ofNat 48 (putBits m.inp.limA.toNat n 1 (b2n level)) } }

/-- The limit input is the reference of a homing in its steps 1 to 4 (R158). Log entry 79 (DEDUCED). -/
def Mach.limIsRef (m : Mach) (n : Nat) (sideB : Bool) : Bool :=
  match (m.ax n).home with
  | some h => (h.method == 2 || h.method == 4) && sideB == m.limOfDir n (m.ax n).dirUsed && !h.captured && h.failCode == 0
  | none => false

/-- R152, R153: a filtered limit input becomes active. Log entry 79 (DEDUCED). -/
def Mach.limitActive (m : Mach) (n : Nat) (sideB : Bool) : Mach :=
  let m0 := m.setLim n sideB (m.rb (if sideB then F.AX_LIM_CFG_POL_B else F.AX_LIM_CFG_POL_A) n)
  let en := m.rb (if sideB then F.AX_LIM_CFG_EN_B else F.AX_LIM_CFG_EN_A) n
  if !en then m0
  else
    let a := m.ax n
    let hard := m.rb (if sideB then F.AX_LIM_CFG_REACT_B else F.AX_LIM_CFG_REACT_A) n
    let toward := decide (0 < (if m.limIsPos n sideB then a.cur.v else -a.cur.v))
    let isRef := m.limIsRef n sideB
    let acts := !isRef && toward && (match a.eff with | .move | .follow | .stop | .estop => true | _ => false)
    let m1 := if isRef then m0
      else (m0.setBit (if sideB then F.AX_LIM_STAT_LATCH_B else F.AX_LIM_STAT_LATCH_A) n).modAx n fun a =>
        if sideB then { a with latPosB := a.cur.p } else { a with latPosA := a.cur.p }
    let m2 := (m1.bump F.AX_LIM_STAT_CNT n).post Ev.AX_LIMIT n (b2n sideB + 2 * b2n (acts && hard) + 4 * b2n toward)
    if !acts then m2
    else
      let m3 := match a.home with
        | some h => if h.failCode = 0 then
            (m2.homeFail n 2).modAx n fun a => { a with home := some { h with failCode := 2 } } else m2
        | none => m2
      if hard then (m3.setBit F.AX_LIM_STAT_HARD n).hardStopAt n m3.safeBoundary 0x02 else m3.estop n 3

/-- R152, R153: an enabled limit input whose filtered level has become active since the state `before`. -/
def Mach.limitEdges (m before : Mach) : Mach :=
  if m.inp.limA = before.inp.limA ∧ m.inp.limB = before.inp.limB then m
  else m.each 48 fun m n =>
    let edge (m : Mach) (sideB : Bool) : Mach :=
      if m.limActive n sideB && !before.limActive n sideB then m.limitActive n sideB else m
    edge (edge m false) true

/-- R154: a write of one to a LATCH bit. -/
def Mach.limClear (m : Mach) (n : Nat) (sideB : Bool) : Mach :=
  let f := if sideB then F.AX_LIM_STAT_LATCH_B else F.AX_LIM_STAT_LATCH_A
  if m.limActive n sideB then m.setBit F.AX_LIM_STAT_CLR_REFUSED n
  else if m.rb f n then (m.clrFld f n).post Ev.AX_LIMIT_CLEAR n (b2n sideB)
  else m

/-! ### Homing references -/

/-- R159: a homing reference edge with timestamp `ts`, after filtering: the filter delay is subtracted and the plan in
force at that instant is evaluated. An index edge is stamped by its port. Log entry 112 (DESIGN CHOICE). -/
def Mach.homeRef (m : Mach) (n ts : Nat) : Mach :=
  match (m.ax n).home with
  | none => m
  | some h =>
    let index := decide (h.step = 5)
    let delay : Rat := if index then 0
      else if h.method = 1 ∨ h.method = 3 then m.giDelay (m.rd F.AX_HOME_CFG_SRC_GI n)
      else ((m.rd F.AX_LIM_CFG_DEB n * 50 : Nat) : Rat)
    m.homeEdge n index (m.posAtStamp n ts delay) (unsignedOf 48 (((ts : Nat) : Rat) - delay).floor)

end Sys2Proof.Machine
end

