-- ==== Sys2Proof/Machine/Curve.lean ====
section
/-!
DEFINITION. The curves of the sensor front end (R395 to R398): from a raw code to the exact result in steps of its
format, with the flags that the curve sets.
-/

namespace Sys2Proof.Machine

/-- What a curve gives: the exact value in steps of the result's format (none where the spec states none), the value
rounded toward minus infinity where it was found by search, and the flags divider-OPEN, RANGE and CJC. -/
structure CurveOut where
  y : Option Rat
  isOpen : Bool
  range : Bool
  cjc : Bool

/-- A plain exact value. -/
def CurveOut.exact (y : Rat) (range : Bool) : CurveOut := { y := some y, isOpen := false, range := range, cjc := false }

/-- The value of an IEEE 754 binary32 word; none for an infinity or a NaN. -/
def ofBinary32 (x : Nat) : Option Rat :=
  let s : Rat := if bitOf x 31 then -1 else 1
  let e := bitsOf x 23 8
  let f : Nat := bitsOf x 0 23
  if e = 255 then none
  else if e = 0 then some (s * f / (2 ^ 149 : Nat))
  else some (s * ((2 ^ 23 + f : Nat) : Rat) * ((2 ^ e : Nat) : Rat) / (2 ^ 150 : Nat))

/-- The IEC 60751 resistance at `t` °C for a resistance `r0` at 0 °C (R396). -/
def ptRes (r0 t : Rat) : Rat :=
  let a : Rat := 39083 / 10000000
  let b : Rat := -5775 / 10000000000
  let c : Rat := if t < 0 then -4183 / 1000000000000000 else 0
  r0 * (1 + a * t + b * t * t + c * (t - 100) * t * t * t)

/-- The place in steps at which a rising `f` takes the value `r`, between `lo` and `hi`. The exact place is irrational, so the step
below it is found by comparison; the answer lies half a step above that step unless the exact place lies within 2⁻²⁰ of a step, where
it is that step. -/
def solveSteps (f : Rat → Rat) (r : Rat) (n : Nat) (lo hi : Int) : Rat :=
  let v := searchLast (fun v => decide (v ≤ hi ∧ f (v : Rat) ≤ r)) n lo
  let eps : Rat := 1 / (2 ^ 20 : Nat)
  if r < f ((v : Rat) + eps) then (v : Rat) else if f ((v : Rat) + 1 - eps) < r then (v : Rat) + 1 else (v : Rat) + 1 / 2

/-- The turning point of the IEC 60751 polynomial in steps of 1/256 °C: above its resistance no temperature answers. -/
def ptTop : Int := 866271

/-- R396: curves 1 and 2. -/
def ptCurve (r0 r : Rat) : CurveOut :=
  let at_ (v : Rat) : Rat := ptRes r0 (v / 256)
  if at_ (ptTop : Rat) < r then { y := none, isOpen := false, range := true, cjc := false }
  else .exact (solveSteps at_ r 33 (-(2 ^ 32 : Nat)) ptTop) (decide (r < ptRes r0 (-200)) || decide (ptRes r0 850 < r))

/-- A temperature in steps of Q24.8, with the range of curves 3 and 4 (R396). -/
def ntcOut (inv : Rat) : CurveOut :=
  if inv = 0 then { y := none, isOpen := false, range := true, cjc := false }
  else
    let t := 1 / inv - 27315 / 100
    .exact (t * 256) (decide (t < -80) || decide (250 < t))

/-- A curve input that has no result: the value is open. -/
def CurveOut.none_ : CurveOut := { y := none, isOpen := false, range := true, cjc := false }

/-- R396: curve 3. -/
def ntcBeta (p0 p1 p2 : Nat) (r : Rat) : CurveOut :=
  match ofBinary32 p0, ofBinary32 p1, ofBinary32 p2 with
  | some r0, some t0, some beta =>
    if r ≤ 0 ∨ r0 ≤ 0 ∨ beta = 0 ∨ t0 + 27315 / 100 = 0 then .none_
    else ntcOut (1 / (t0 + 27315 / 100) + lnRat (r / r0) / beta)
  | _, _, _ => .none_

/-- R396: curve 4. -/
def ntcSteinhart (p0 p1 p2 : Nat) (r : Rat) : CurveOut :=
  match ofBinary32 p0, ofBinary32 p1, ofBinary32 p2 with
  | some a, some b, some c =>
    if r ≤ 0 then .none_
    else let l := lnRat r; ntcOut (a + b * l + c * l * l * l)
  | _, _, _ => .none_

/-- The curve table of a CURVE section (R398): its points as pairs, and x0, x32 in V (curve 11). -/
structure CurveTable where
  pts : List (Rat × Rat)
  x0 : Rat
  x32 : Rat

/-- Whether the first parts of a list of points fall strictly. -/
def fallsStrictly : List (Rat × Rat) → Bool
  | [] => true
  | [_] => true
  | a :: b :: rest => decide (b.1 < a.1) && fallsStrictly (b :: rest)

/-- R398: the table that a channel's TABLE field names, where it is present, well formed and of curve `c`. -/
def Mach.curveTable (m : Mach) (inst c : Nat) : Option CurveTable :=
  match m.sections.find? (fun s => s.ty == 5 && s.inst == inst && s.param == c) with
  | none => none
  | some s =>
    let n := m.dramRead (s.off + 6) 2
    let x0 := signedOf 32 (m.dramRead (s.off + 8) 4)
    let x32 := signedOf 32 (m.dramRead (s.off + 12) 4)
    let head := decide (16 ≤ s.len ∧ m.dramRead s.off 4 = 0x43525654 ∧ m.dramRead (s.off + 4) 2 = 1)
    if c = 5 then
      let pts := (List.range n).map fun i =>
        (ofFixed 8 ((m.dramRead (s.off + 16 + 8 * i) 4 : Nat) : Int), (signedOf 32 (m.dramRead (s.off + 20 + 8 * i) 4) : Rat))
      if head ∧ 2 ≤ n ∧ n ≤ 256 ∧ 16 + 8 * n ≤ s.len ∧ x0 = 0 ∧ x32 = 0 ∧ fallsStrictly pts then
        some { pts := pts, x0 := 0, x32 := 0 }
      else none
    else if head ∧ n = 33 ∧ 16 + 4 * 33 ≤ s.len ∧ x0 < x32 then
      let a := ofFixed 24 x0
      let b := ofFixed 24 x32
      some { pts := (List.range 33).map fun (i : Nat) =>
               (a + (i : Rat) * (b - a) / 32, ((signedOf 32 (m.dramRead (s.off + 16 + 4 * i) 4) : Int) : Rat)), x0 := a, x32 := b }
    else none

/-- The straight line through two points at `x`, along the scale `f`. -/
def lineAt (f : Rat → Rat) (a b : Rat × Rat) (x : Rat) : Rat :=
  a.2 + (b.2 - a.2) * (f x - f a.1) / (f b.1 - f a.1)

/-- R396: curve 5, linear in ln R; the points fall in R. Outside the span the first or the last line goes on.
Log entry 150 (DEDUCED). -/
def ntcTable (r : Rat) : List (Rat × Rat) → Option Rat
  | a :: b :: rest => if b.1 ≤ r || rest.isEmpty then some (lineAt lnRat a b r) else ntcTable r (b :: rest)
  | _ => none

/-- R396: a point of a resistance of curve 5, with its range, the table's span. Log entry 150 (DEDUCED). -/
def ntcPoints (r : Rat) (pts : List (Rat × Rat)) : CurveOut :=
  if r ≤ 0 then .none_
  else match ntcTable r pts with
    | none => .none_
    | some y => .exact y (decide ((pts.head?.getD (0, 0)).1 < r) || decide (r < (pts.getLast?.getD (0, 0)).1))

/-- R398: curve 11, linear in x; the points rise in x. -/
def userTable (x : Rat) : List (Rat × Rat) → Option Rat
  | a :: b :: rest =>
    if x < a.1 then none
    else if x ≤ b.1 then some (lineAt (fun z => z) a b x)
    else userTable x (b :: rest)
  | _ => none

/-- The range of each thermocouple type in °C (R397). -/
def thermoRange (c : Nat) : Rat × Rat :=
  match c with | 6 => (-270, 1372) | 7 => (-210, 1200) | 8 => (-270, 400) | _ => (-270, 1300)

/-- Type K: its lower and its upper polynomial. Log entry 149 (PRESUMED). -/
def emfK : List (Int × Nat) × List (Int × Nat) :=
  ([(0, 0), (39450128025, 12), (23622373598, 15), (-32858906784, 17), (-49904828777, 19), (-67509059173, 21),
     (-57410327428, 23), (-31088872894, 25), (-10451609365, 27), (-19889266878, 30), (-16322697486, 33)],
   [(-17600413686, 12), (38921204975, 12), (18558770032, 15), (-99457592874, 18), (31840945719, 20), (-56072844889, 23),
     (56075059059, 26), (-32020720003, 29), (97151147152, 33), (-12104721275, 36)])

/-- Type J: its lower and its upper polynomial. Log entry 149 (PRESUMED). -/
def emfJ : List (Int × Nat) × List (Int × Nat) :=
  ([(0, 0), (50381187815, 12), (3047583693, 14), (-8568106572, 17), (13228195295, 20), (-17052958337, 23),
     (20948090697, 26), (-12538395336, 29), (15631725697, 33)],
   [(29645625681, 8), (-14976127786, 10), (31787103924, 13), (-31847686701, 16), (15720819004, 19), (-30691369056, 23)])

/-- Type T: its lower and its upper polynomial. Log entry 149 (PRESUMED). -/
def emfT : List (Int × Nat) × List (Int × Nat) :=
  ([(0, 0), (38748106364, 12), (44194434347, 15), (11844323105, 17), (20032973554, 18), (90138019559, 20),
     (22651156593, 21), (36071154205, 23), (38493939883, 25), (28213521925, 27), (14251594779, 29), (48768662286, 32),
     (1079553927, 33), (13945027062, 37), (79795153927, 41)],
   [(0, 0), (38748106364, 12), (3329222788, 14), (20618243404, 17), (-21882256846, 19), (10996880928, 21),
     (-30815758772, 24), (4547913529, 26), (-27512901673, 30)])

/-- Type N: its lower and its upper polynomial. Log entry 149 (PRESUMED). -/
def emfN : List (Int × Nat) × List (Int × Nat) :=
  ([(0, 0), (26159105962, 12), (10957484228, 15), (-93841111554, 18), (-46412039759, 21), (-26303357716, 22),
     (-22653438003, 24), (-76089300791, 27), (-93419667835, 30)],
   [(0, 0), (25929394601, 12), (1571014188, 14), (43825627237, 18), (-25261169794, 20), (64311819339, 23),
     (-10063471519, 25), (99745338992, 29), (-60863245607, 32), (20849229339, 35), (-30682196151, 39)])

/-- A polynomial of coefficients m·10⁻ᵉ, the constant first. -/
def decPoly (cs : List (Int × Nat)) (t : Rat) : Rat := cs.foldr (fun c acc => (c.1 : Rat) / (10 ^ c.2 : Nat) + t * acc) 0

/-- The IEC 60584 reference function of thermocouple curve `c` (6 to 9), from °C to mV. The rule names the standard; its coefficients
are written here. Log entry 149 (PRESUMED). -/
def emfMv (c : Nat) (t : Rat) : Rat :=
  match c with
  | 6 =>
    if t ≤ 0 then decPoly emfK.1 t
    else decPoly emfK.2 t + 1185976 / 10000000 * expNeg (-(1183432 / 10000000000) * (t - 1269686 / 10000) * (t - 1269686 / 10000))
  | 7 => if t ≤ 760 then decPoly emfJ.1 t else decPoly emfJ.2 t
  | 8 => if t ≤ 0 then decPoly emfT.1 t else decPoly emfT.2 t
  | _ => if t ≤ 0 then decPoly emfN.1 t else decPoly emfN.2 t

/-! ### From a code to a curve's output -/

/-- Whether excitation source `e` drives (R384). -/
def Mach.exOn (m : Mach) (e : Nat) : Bool := m.rb F.SF_EX_CFG_EN e && m.rd F.SF_EX_CFG_MODE e != 3

/-- Whether source `e` drives in voltage mode. -/
def Mach.exVolt (m : Mach) (e : Nat) : Bool := m.exOn e && decide (m.rd F.SF_EX_CFG_MODE e ≤ 1)

/-- The factor k of R387: 2 at 5.0 V, 1 at 2.5 V. -/
def Mach.exK (m : Mach) (e : Nat) : Rat := if m.rd F.SF_EX_CFG_MODE e = 1 then 2 else 1

/-- The source that REF names (R387): none for the internal reference. -/
def Mach.chRef (m : Mach) (c : Nat) : Option Nat :=
  match m.rd F.SF_CH_CFG_REF c with | 1 => some 0 | 2 => some 1 | _ => none

/-- The source that RSRC names (R396). -/
def Mach.chRsrc (m : Mach) (c : Nat) : Option Nat :=
  match m.rd F.SF_CH_CURVE_RSRC c with | 1 => some 0 | 2 => some 1 | _ => none

/-- V_in of a code at a gain (R387); the sensed voltage of a source is the one MEAS holds. -/
def Mach.vIn (m : Mach) (c : Nat) (code : Int) (gain : Nat) : Rat :=
  let vref : Rat := match m.chRef c with
    | none => 5 / 2
    | some e => ofFixed 12 (m.rd F.SF_EX_STAT_MEAS e : Nat) / m.exK e
  code * vref / ((2 ^ gain * 2 ^ 23 : Nat) : Rat)

/-- V_in / V_ex (R395): the reference of the channel being a source in voltage mode. -/
def Mach.ratioIn (m : Mach) (e : Nat) (code : Int) (gain : Nat) : Rat :=
  code / (((2 ^ gain * 2 ^ 23 : Nat) : Rat) * m.exK e)

/-- The resistance of R396 with its flags: divider-OPEN and RANGE; the current is the one step 11 measured (R385). -/
def Mach.resIn (m : Mach) (c : Nat) (v : Rat) : Option Rat × Bool × Bool :=
  match m.chRsrc c with
  | none => (if v = 5 / 2 then none else some (m.sf.rpu * v / (5 / 2 - v)), decide (49 / 20 < v), decide (v ≤ 0))
  | some e =>
    let i : Rat := if m.rd F.SF_EX_CFG_MODE e = 2 then (vget 0 m.sf.exI e : Nat) / 10000000 else 0
    (if i = 0 then none else some (v / i), false, false)

/-- R395 to R397: the output of the channel's curve for a code. Log entry 67 (DESIGN CHOICE). -/
def Mach.curve (m : Mach) (c : Nat) (code : Int) (gain : Nat) : CurveOut :=
  let cv := m.rd F.SF_CH_CURVE_CURVE c
  let v := m.vIn c code gain
  let p (i : Nat) := m.rd F.SF_CH_P_P c i
  if cv = 0 then .exact (v * (2 ^ 24 : Nat)) false
  else if cv ≤ 5 then
    let (r?, op, rg) := m.resIn c v
    let out : CurveOut := match r? with
      | none => .none_
      | some r =>
        match cv with
        | 1 => ptCurve 100 (r - ofFixed 16 (p 0 : Nat))
        | 2 => ptCurve 1000 (r - ofFixed 16 (p 0 : Nat))
        | 3 => ntcBeta (p 0) (p 1) (p 2) r
        | 4 => ntcSteinhart (p 0) (p 1) (p 2) r
        | _ => match m.curveTable (m.rd F.SF_CH_CURVE_TABLE c) 5 with
          | none => .none_
          | some t => ntcPoints r t.pts
    { out with isOpen := op, range := (out.range && !(r?.isNone && op)) || rg }
  else if cv ≤ 9 then
    let j := m.rd F.SF_CH_CURVE_CJC c
    let d := (m.reg .SF_DATA j 0)
    let old := decide (50000000 < tsDiff m.stamp (bitsOf d 48 48)) || bitOf d 39
    let jc := m.rd F.SF_CH_CURVE_CURVE j
    let e := emfMv cv (ofFixed 8 (signedOf 32 (bitsOf d 0 32))) + 1000 * v
    let (lo, hi) := thermoRange cv
    let beyond := decide (e < emfMv cv lo) || decide (emfMv cv hi < e)
    { y := if beyond then none else some (solveSteps (fun x => emfMv cv (x / 256)) e 19 (256 * lo).floor (256 * hi).floor)
      isOpen := false, range := beyond
      cjc := old || jc = 0 || decide (5 < jc) }
  else if cv = 10 then
    match m.chRef c with
    | none => .none_
    | some e => .exact (code * 2000 / (((2 ^ gain : Nat) : Rat) * m.exK e)) false
  else
    match m.curveTable (m.rd F.SF_CH_CURVE_TABLE c) 11 with
    | none => .none_
    | some t =>
      let x := match m.chRef c with | none => v | some e => m.ratioIn e code gain
      if x < t.x0 then .exact ((t.pts.head?.map (·.2)).getD 0) true
      else if t.x32 < x then .exact ((t.pts.getLast?.map (·.2)).getD 0) true
      else match userTable x t.pts with
        | some y => .exact y false
        | none => .none_

/-- R395: the value in the result's format: rounded toward minus infinity, either neighbour within 2⁻²⁰ of a step; open
where the exact value is open or does not fit the format. Log entry 66 (DEDUCED). -/
def roundResult (y : Option Rat) (bit : Bool) (open_ : Nat) : Int :=
  match y with
  | none => signedOf 32 open_
  | some y =>
    let n := (y + 1 / 2).floor
    let v := if ratAbs (y - n) * ((2 ^ 20 : Nat) : Rat) < 1 then n - (b2n bit : Nat) else y.floor
    if -(2 ^ 31 : Nat) ≤ v ∧ v < (2 ^ 31 : Nat) then v else signedOf 32 open_

end Sys2Proof.Machine
end

