-- ==== Sys2Proof/Machine/Feedback.lean ====
section
/-!
DEFINITION. The feedback ports: modes (R354, R356), counting (R357 to R361), scaled position and snapshot (R362, R363),
speed (R364 to R366), the index (R367, R368), serial encoders (R370 to R374), port faults (R375, R376), command inputs
(R378).
-/

namespace Sys2Proof.Machine

/-- The mode of a port in force (R354); 7 acts as OFF. -/
def Mach.portMode (m : Mach) (p : Nat) : Nat := m.rd F.FB_CFG_MODE p % 7

/-- SCALE in microsteps per count (R362). -/
def Mach.portScale (m : Mach) (p : Nat) : Rat := ofFixed 32 (m.rdS F.FB_SCALE_SCALE p)

/-- The port's filter delay in timestamp units, rounded up, so that the stamp is rounded toward minus infinity (R355). -/
def Mach.portDelay (m : Mach) (p : Nat) : Nat := ceilDiv ((m.rd F.FB_CFG_FLT p + 4) * 5) 24

/-- The timestamp of an edge at a port, less the filter delay (R355). -/
def Mach.portStamp (m : Mach) (p : Nat) : Nat := unsignedOf 48 ((m.stamp : Int) - (m.portDelay p : Int))

/-- The axis uses the port (R356): verification, or master of a follower in FOLLOW, which a command-input engagement in
force is too (R378). -/
def Mach.usesPort (m : Mach) (n p : Nat) : Bool :=
  let a := m.ax n
  (m.verPort n == some p) || (a.eff == .follow && (match a.follow with | some f => f.sel == 0x1000 + p | none => false))

/-- A write to MODE is refused while an axis that is not OFF uses the port (R356). -/
def Mach.portInUse (m : Mach) (p : Nat) : Bool :=
  (List.range 48).any fun n => m.usesPort n p && (m.ax n).mode != .off

/-- R356: an accepted change of MODE resets the port at its apply boundary. -/
def Mach.portReset (m : Mach) (p : Nat) : Mach :=
  let m1 := m.modPort p fun x => { Port.reset with pin := x.pin, flt := x.flt, snapBad := x.snapBad, modeAt := m.clk.tick }
  let m2 := ((m1.setReg .FB_ERR p 0 0).setReg .FB_SERR p 0 0).clrFld F.FB_STAT_ARMED p
  ((m2.clrFld F.FB_STAT_FAULT p).clrFld F.FB_STAT_FCAUSE p).clrFld F.FB_STAT_STILL p

/-! ### Faults -/

/-- R375: the port fault latch sets: its cause, its event, and the axes that use the port. Log entry 154 (DEDUCED). -/
def Mach.portFault (m : Mach) (p cause code data : Nat) : Mach :=
  if m.rb F.FB_STAT_FAULT p then m
  else
    let m1 := ((m.setBit F.FB_STAT_FAULT p).wr F.FB_STAT_FCAUSE cause p).post code p data
    m1.faultAfterEstop ((List.range 48).filter fun n => m1.usesPort n p) 7 7

/-- R376: a write of one to FB_STAT.FAULT. -/
def Mach.portFaultClear (m : Mach) (p : Nat) : Mach :=
  let c := m.rd F.FB_STAT_FCAUSE p
  ((((m.clrFld F.FB_STAT_FAULT p).clrFld F.FB_STAT_FCAUSE p).clrFld F.FB_ERR_WIN_ERR p).clrFld F.FB_ERR_CONSEC p).post
    Ev.FB_FAULT_CLEAR p c

/-! ### Counting -/

/-- A signed 64-bit count (R357). -/
def wrapCnt (x : Int) : Int := signedOf 64 (unsignedOf 64 x)

/-- One decoded event ends a window of 1,024 (R358). -/
def Mach.portEvent (m : Mach) (p : Nat) : Mach :=
  let n := (m.port p).events + 1
  if n = 1024 then (m.modPort p fun x => { x with events := 0 }).clrFld F.FB_ERR_WIN_ERR p
  else m.modPort p fun x => { x with events := n }

/-- An accepted edge of one count in direction `d` (before INV) at FBS cycle `cyc` (R357, R359, R360, R364, R365). -/
def Mach.portCount (m : Mach) (p : Nat) (d0 : Int) (cyc : Nat) : Mach :=
  let d := if m.rb F.FB_CFG_INV p then -d0 else d0
  let sc := m.portScale p
  let ts := m.portStamp p
  let m1 := m.modPort p fun x =>
    let rev := x.dir ≠ 0 ∧ x.dir ≠ d
    let iv := if rev || x.skipNext then none else x.lastCyc.map fun c => min (2 ^ 32 - 1) (cyc - c)
    { x with
      cnt := wrapCnt (x.cnt + d), s := x.s + (d : Rat) * sc, dir := d, lastCyc := some cyc, lastAbs := m.absNow
      lastTs := ts, interval := iv, skipNext := false
      reversed := if rev then true else if iv.isSome then false else x.reversed
      k := x.k + 1, startCyc := if x.k = 0 then x.lastCyc else x.startCyc, dirty := x.dirty || rev || x.skipNext }
  let m2 := ((m1.clrFld F.FB_STAT_STILL p).wr F.FB_STAT_DIR (b2n (decide (d < 0))) p)
  m2.portEvent p

/-- A quadrature or Hall error (R358, R359); more than QERR_LIM in a window raises the port fault. -/
def Mach.portErr (m : Mach) (p : Nat) (hall : Bool) : Mach :=
  let m1 := ((m.bump F.FB_ERR_QERR_CNT p).bump F.FB_ERR_WIN_ERR p).modPort p fun x =>
    { x with skipNext := true }
  let w := m1.rd F.FB_ERR_WIN_ERR p
  let lim := m1.rd F.FB_CFG_QERR_LIM p
  let m2 := if lim < w then
      m1.portFault p (if hall then 2 else 1) (if hall then Ev.FB_HFAULT else Ev.FB_QFAULT) (w + 256 * lim)
    else m1
  m2.portEvent p

/-- The port decodes: not failed at step 13 (R377). -/
def Mach.portLive (m : Mach) (p : Nat) : Bool := !m.rb F.FB_STAT_FAILED p

/-- The levels a port's rules use: filtered, and inverted where POL says so (R355). -/
def Mach.portLvl (m : Mach) (p : Nat) : Nat := Nat.xor ((m.port p).flt % 16) (m.rd F.FB_CFG_POL p)

/-- The filtered levels of a port become those that show as `lvl` after POL. -/
def Mach.portLevels (m : Mach) (p lvl : Nat) : Mach :=
  let t := Nat.xor (lvl % 16) (m.rd F.FB_CFG_POL p)
  m.modPort p fun x => { x with pin := t, flt := t }

/-! ### Index -/

/-- A quotient rounded to the nearest integer, ties toward minus infinity (R368). -/
def nearestDown (a b : Int) : Int :=
  let q := a / b
  if b < 2 * (a - q * b) then q + 1 else q

/-- R367, R368: an index edge, after the count of the same cycle. -/
def Mach.indexTake (m : Mach) (p : Nat) : Mach :=
  let x := m.port p
  let ts := m.portStamp p
  let m1 := ((m.wr F.FB_IDX_CAP_CNT (unsignedOf 64 x.cnt) p).wr F.FB_IDX_CAP_TS ts p).setBit F.FB_STAT_INDEX_SEEN p
  let cpr : Int := (m.rd F.FB_CPR_CPR p : Nat)
  let ofs := m.rdS F.FB_IDX_OFS_OFS p
  let e := if cpr = 0 then x.cnt else ofs + cpr * nearestDown (x.cnt - ofs) cpr
  let dev := x.cnt - e
  let m2 := m1.wrS F.FB_IDX_DEV (satSigned 16 dev) p
  let tol := m.rd F.FB_IDX_TOL p
  let inTol := decide (dev.natAbs ≤ tol)
  let mode := if cpr = 0 then 2 else m.rd F.FB_CFG_IDX_MODE p
  let armed := m.rb F.FB_STAT_ARMED p
  let reset (m : Mach) : Mach := m.modPort p fun y => { y with cnt := wrapCnt e, s := y.s - (dev : Rat) * m.portScale p }
  let slip (m : Mach) : Mach :=
    (m.setBit F.FB_STAT_INDEX_SLIP p).post Ev.FB_INDEX_SLIP p (unsignedOf 32 dev + 2 ^ 32 * tol)
  let m3 := match mode with
    | 0 => if inTol then reset m2 else slip m2
    | 1 => if !armed then m2 else if inTol then (reset m2).clrFld F.FB_STAT_ARMED p else slip m2
    | _ => if inTol then m2 else slip m2
  m3.each 48 fun m n =>
    match (m.ax n).home with
    | some h => if h.step = 5 ∧ m.rd F.AX_HOME_CFG_SRC_FB n = p then m.homeEdge n true (m.posAtStamp n ts 0) ts else m
    | none => m

/-- R367: whether the levels of a port change from `old` to `new` in an index edge: with IDX_GATE a first cycle with Z, A and B high. -/
def Mach.isIndex (m : Mach) (p old new : Nat) : Bool :=
  if m.rb F.FB_CFG_IDX_GATE p then new % 8 == 7 && old % 8 != 7 else bitOf new 2 && !bitOf old 2

/-! ### Decoding -/

/-- R357, R358, R361: quadrature lines change from the levels `old` to `new`. -/
def Mach.quadTake (m : Mach) (p old new cyc : Nat) : Mach :=
  let a := bitOf new 0
  let b := bitOf new 1
  if a ≠ bitOf old 0 ∧ b ≠ bitOf old 1 then m.portErr p false
  else if a ≠ bitOf old 0 then m.portCount p (if a = b then -1 else 1) cyc
  else if b ≠ bitOf old 1 then m.portCount p (if a = b then 1 else -1) cyc
  else m

/-- The Hall state of a code (R359). -/
def hallState (code : Nat) : Option Nat :=
  match code with | 1 => some 0 | 3 => some 1 | 2 => some 2 | 6 => some 3 | 4 => some 4 | 5 => some 5 | _ => none

/-- R359: the Hall code changes from `old` to `new`. -/
def Mach.hallTake (m : Mach) (p old new cyc : Nat) : Mach :=
  if old = new then m
  else match hallState new, hallState old with
    | none, _ => m.portErr p true
    | some _, none => m
    | some s, some o =>
      let d := (s + 6 - o) % 6
      if d = 1 then m.portCount p 1 cyc else if d = 5 then m.portCount p (-1) cyc else if d = 0 then m else m.portErr p true

/-- R360: a rising edge of STEP at the levels `new`; `dir` is DIR in the cycle before it. -/
def Mach.stepTake (m : Mach) (p : Nat) (dir : Bool) (new cyc : Nat) : Mach :=
  if m.rb F.FB_CFG_ENA_EN p && !bitOf new 2 then m else m.portCount p (if dir then -1 else 1) cyc

/-- The levels of a port after POL change from `old` to those it has now; the port decodes the change by its mode, the index after the
count of the same cycle (R357 to R361, R367). -/
def Mach.portTake (m : Mach) (p old cyc : Nat) : Mach :=
  let new := m.portLvl p
  if !m.portLive p then m
  else match m.portMode p with
    | 1 => let m1 := m.quadTake p old new cyc; if m.isIndex p old new then m1.indexTake p else m1
    | 6 => m.quadTake p old new cyc
    | 2 => m.hallTake p (bitsOf old 0 3) (bitsOf new 0 3) cyc
    | 5 => if bitOf new 0 && !bitOf old 0 then m.stepTake p (bitOf old 1) new cyc else m
    | _ => m

/-- R357, R358, R361: filtered quadrature lines take the levels `a` and `b`, and Z the level `z`. -/
def Mach.quadEdge (m : Mach) (p : Nat) (a b z : Bool) (cyc : Nat) : Mach :=
  let old := m.portLvl p
  (m.portLevels p (putBits old 0 3 (b2n a + 2 * b2n b + 4 * b2n z))).portTake p old cyc

/-- R359: the Hall code changes. -/
def Mach.hallChange (m : Mach) (p code cyc : Nat) : Mach :=
  let old := m.portLvl p
  ((m.portLevels p (putBits old 0 3 code)).modPort p fun x => { x with hall := hallState (code % 8) }).portTake p old cyc

/-- R360: a filtered rising edge of STEP; `dir` is DIR in the cycle before it, `ena` is ENA. -/
def Mach.stepEdge (m : Mach) (p : Nat) (dir ena : Bool) (cyc : Nat) : Mach :=
  let old := putBits (m.portLvl p) 0 2 (2 * b2n dir)
  (m.portLevels p (putBits old 0 3 (1 + 2 * b2n dir + 4 * b2n ena))).portTake p old cyc

/-- R367: Z rises while A and B keep their levels. -/
def Mach.indexEdge (m : Mach) (p : Nat) : Mach :=
  let old := putBits (m.portLvl p) 2 1 0
  (m.portLevels p (putBits old 2 1 1)).portTake p old 0

/-- R355: POL takes another value at the present FBS cycle; a terminal whose inversion changes changes its level.
Log entry 143 (DEDUCED). -/
def Mach.polChange (m : Mach) (p oldPol : Nat) : Mach :=
  m.portTake p (Nat.xor ((m.port p).flt % 16) oldPol) (m.absNow * 24 / 5)

/-- The terminals whose changes come by commands of their own (R357 to R360, R367): the decoded lines of the port's mode. A fall of Z
or STEP is no event. -/
def Mach.portOwn (m : Mach) (p now : Nat) : Nat :=
  let fall := Nat.xor now (m.rd F.FB_CFG_POL p)
  match m.portMode p with
  | 1 => 3 + 4 * bitsOf fall 2 1
  | 2 => 7
  | 5 => bitsOf fall 0 1
  | 6 => 3
  | _ => 0

/-- R354, R355: the terminals that no command of their own changes take the levels `now`; the filtered level follows one that has held
for FLT + 1 cycles. A failed port ignores its inputs (R377). -/
def Mach.portLevel (m : Mach) (p now : Nat) (held : Nat → Nat) : Mach :=
  if !m.portLive p then m
  else
    let own := m.portOwn p now
    let flt := m.rd F.FB_CFG_FLT p
    m.modPort p fun x =>
      let pick (old : Nat) (f : Nat → Bool) : Nat :=
        ((List.range 4).map fun j => (if !bitOf own j && f j then bitsOf now j 1 else bitsOf old j 1) * 2 ^ j).sum
      { x with pin := pick x.pin fun _ => true, flt := pick x.flt fun j => decide (flt + 1 ≤ held j) }

/-- The levels of the terminals of all ports, bit 4p + j for FBp_Pj, and for how long they have held. -/
def Mach.portsLevel (m : Mach) (lv : Nat) (held : List Nat) : Mach :=
  m.each 12 fun m p => m.portLevel p (bitsOf lv (4 * p) 4) fun j => held.getD (4 * p + j) 65536

/-- R368: FB_CTRL.ARM and DISARM; DISARM wins. -/
def Mach.writeFbCtrl (m : Mach) (p v : Nat) : Mach :=
  if bitOf v 1 then m.clrFld F.FB_STAT_ARMED p else if bitOf v 0 then m.setBit F.FB_STAT_ARMED p else m

/-! ### Speed and snapshot -/

/-- SPD_TO in timestamp units (R366). -/
def Mach.spdTo (m : Mach) (p : Nat) : Nat := 5000 * max 1 (m.rd F.FB_SPD_CFG_SPD_TO p)

/-- R364 to R366: the speed at a tick strobe, in counts/s; the strobe's time is `now` in timestamp units. -/
def Mach.portSpeed (m : Mach) (p now : Nat) : Rat :=
  let x := m.port p
  let n := max 1 (m.rd F.FB_SPD_CFG_SPD_N p)
  if x.reversed then 0
  else if x.k = 0 then
    let dt := now - x.lastAbs
    if dt = 0 ∨ x.dir = 0 then x.speed
    else
      let lim : Rat := 50000000 / (dt : Rat)
      ratMax (-lim) (ratMin lim x.speed)
  else
    let period := match x.interval with
      | some c => if c = 0 then x.speed else (x.dir : Rat) * 240000000 / (c : Rat)
      | none => x.speed
    if x.k ≤ n then period
    else match x.startCyc, x.lastCyc with
      | some a, some b =>
        if x.dirty ∨ b ≤ a then period else (x.dir : Rat) * (x.k : Rat) * 240000000 / ((b - a : Nat) : Rat)
      | _, _ => period

/-- R363: the port's part of the input snapshot at the present tick boundary. -/
def Mach.portTick (m : Mach) (p : Nat) : Mach :=
  let x := m.port p
  let md := m.portMode p
  let serial := md == 3 || md == 4
  let now := m.clk.tick * 1000
  let sp := if serial then x.speed else m.portSpeed p now
  let sc := m.portScale p
  let ext : Rat := if serial then sp * sc * ((min (now - x.wordAbs) (m.spdTo p) : Nat) : Rat) / 50000000 else 0
  let m1 := m.modPort p fun x =>
    { x with
      speed := sp, k := 0, startCyc := x.lastCyc, dirty := false
      snapBad := m.rb F.FB_STAT_FAILED p || m.rb F.FB_STAT_FAULT p }
  (((m1.wr F.FB_STATE_POS (unsignedOf 64 (toFixed 24 (x.s + ext))) p).wr F.FB_STATE_SPD (unsignedOf 48 (toFixed 16 (sc * sp))) p).wr
    F.FB_CNT_CNT (unsignedOf 64 x.cnt) p).wr F.FB_CNT_TS x.lastTs p

/-- R366: no accepted edge or valid word for SPD_TO. -/
def Mach.speedTimeout (m : Mach) (p : Nat) : Mach :=
  (m.modPort p fun x => { x with speed := 0, interval := none, reversed := false }).setBit F.FB_STAT_STILL p

/-- R362: a new SCALE rescales from the present count. -/
def Mach.portRescale (m : Mach) (p : Nat) : Mach := m.modPort p fun x => { x with s := (x.cnt : Rat) * m.portScale p }

/-! ### Serial encoders -/

/-- The strobe of the present tick is a due one: every (RDIV + 1)-th, counted from the mode's apply boundary (R370). -/
def Mach.readDue (m : Mach) (p : Nat) : Bool :=
  let k := m.clk.tick - (m.port p).modeAt
  k != 0 && k % (m.rd F.FB_SER_RDIV p + 1) == 0

/-- R370: a read falls due at a tick strobe: a frame is clocked, or the read is skipped. Log entry 120 (DEDUCED). -/
def Mach.serialRead (m : Mach) (p : Nat) : Mach :=
  let md := m.portMode p
  if !m.portLive p || !(md == 3 || md == 4) || !m.readDue p then m
  else
    let x := m.port p
    let strobe := m.clk.tick * 1000
    if x.reading || decide (strobe < x.freeAt) then m.setBit F.FB_STAT_SKIP p
    else m.modPort p fun x => { x with reading := true, latchAbs := strobe }

/-- The data bits of a word (R371, R372). -/
def Mach.serBits (m : Mach) (p : Nat) : Nat :=
  let dl := m.rd F.FB_SER_DLEN p
  if m.portMode p = 3 then clampNat 10 32 dl else clampNat 8 64 dl

/-- TOUT in units of 20 ns (R371, R372). -/
def Mach.serTout (m : Mach) (p : Nat) : Nat := 5 * max 1 (m.rd F.FB_SER_TIM_TOUT p)

/-- The read is a timeout: the line is not high within TOUT, or in BISS the start bit does not come within TOUT of the first clock
(R371, R372). Log entry 120 (DEDUCED). -/
def Mach.serTimeout (m : Mach) (p : Nat) (w : FrameWaits) : Bool :=
  decide (m.serTout p < w.line) || (m.portMode p == 4 && decide (m.serTout p < w.start))

/-- How long a frame's clocks last after its latch instant, in units of 20 ns: DLEN + SX + 1 periods in SSI; in BISS the wait for the
start bit, then that bit, CDS, the data, the status bits and the CRC (R370 to R372). Log entry 120 (DEDUCED). -/
def Mach.frameTime (m : Mach) (p : Nat) (w : FrameWaits) : Nat :=
  let per (n : Nat) : Nat := ceilDiv (n * (clampNat 11 1199 (m.rd F.FB_SER_DIV p) + 1) * 5) 12
  if m.portMode p = 3 then per (m.serBits p + m.rd F.FB_SER_SX p + 1)
  else w.start + per (m.serBits p + min 2 (m.rd F.FB_SER_EW p) + 8)

/-- A Gray-coded number of `w` bits as binary: each bit the exclusive-or of all higher bits and itself (R371). -/
def grayToBin (x : Nat) : Nat → Nat
  | 0 => 0
  | w + 1 => putBits (grayToBin x w) w 1 0 + 2 ^ w * (((List.range 64).filter fun k => w ≤ k ∧ bitOf x k).length % 2)

/-- One bit through the CRC register of polynomial 0x43 (R372). -/
def crc6Bit (c : Nat) (b : Bool) : Nat :=
  let s := (2 * c) % 64
  if bitOf c 5 != b then Nat.xor s 3 else s

/-- The CRC of R372 over `n` bits of `x`, most significant first, from `c`. -/
def crc6 (x : Nat) : Nat → Nat → Nat
  | 0, c => c
  | n + 1, c => crc6 x n (crc6Bit c (bitOf x n))

/-- What a serial frame brought (R371, R372): a timeout, or data bits (in SSI with SX trailing bits after them), the status bits as received (active low) and the
CRC bits as received. R374 changes CNT by the words' difference whatever INV says. Log entry 120 (DEDUCED). -/
def Mach.serialWord (m : Mach) (p : Nat) (waits : FrameWaits) (raw : Nat) (eBit wBit : Bool) (crc : Nat) : Mach :=
  let x := m.port p
  let md := m.portMode p
  if !m.portLive p || !(md == 3 || md == 4) || !x.reading then m
  else
    let ssi := md == 3
    let dlen := m.serBits p
    let timeout := m.serTimeout p waits
    let latch := x.latchAbs + (if timeout then 0 else waits.line)
    let ew := min 2 (m.rd F.FB_SER_EW p)
    let data := (if ssi then raw / 2 ^ m.rd F.FB_SER_SX p else raw) % 2 ^ dlen
    let w := if ssi && m.rb F.FB_SER_GRAY p then grayToBin data dlen else data
    let err := !ssi && decide (1 ≤ ew) && !eBit
    let warn := !ssi && ew == 2 && !wBit
    let c0 := crc6 data dlen 0
    let c1 := if 1 ≤ ew then crc6Bit c0 eBit else c0
    let c2 := if ew = 2 then crc6Bit c1 wBit else c1
    let crcBad := !ssi && decide (crc % 64 ≠ 63 - c2)
    let jmp := m.rd F.FB_SER_JMP_JMP p
    let delta : Int := match x.word with
      | some o => signedOf dlen (unsignedOf dlen ((w : Int) - (o : Int)))
      | none => 0
    let jump := jmp != 0 && x.word.isSome && decide (jmp < delta.natAbs)
    let cause := if timeout then 2 else if crcBad then 1 else if err then 3 else if jump then 4 else 0
    let done := latch + (if timeout then m.serTout p else m.frameTime p waits)
    let rest := 50 * max 1 (m.rd F.FB_SER_TIM_TM p)
    let ts := unsignedOf 48 ((latch : Int) - (m.portDelay p : Int))
    let m0 := m.modPort p fun x => { x with reading := false, latchAbs := latch, freeAt := done + rest }
    let m1 := if timeout then m0
      else m0.setReg .FB_SWORD p 0
        (w + b2n (cause == 0) * 2 ^ 64 + b2n err * 2 ^ 65 + b2n warn * 2 ^ 66 + (if ssi then 0 else crc % 64) * 2 ^ 67 + ts * 2 ^ 80)
    if cause ≠ 0 then
      let cnt := match cause with
        | 1 => F.FB_SERR_CRC_CNT | 2 => F.FB_SERR_TO_CNT | 3 => F.FB_SERR_EBIT_CNT | _ => F.FB_SERR_JMP_CNT
      let m2 := (m1.bump cnt p).bump F.FB_ERR_CONSEC p
      let k := m2.rd F.FB_ERR_CONSEC p
      if max 1 (m2.rd F.FB_SER_TIM_ELIM p) ≤ k then m2.portFault p 3 Ev.FB_SFAULT (cause + 256 * k) else m2
    else
      let sc := m.portScale p
      let dt := latch - x.wordAbs
      let d := delta
      let m2 := m1.modPort p fun y =>
        match y.word with
        | none => { y with word := some w, wordAbs := y.latchAbs, cnt := wrapCnt (w : Int), s := (w : Rat) * sc, lastTs := ts }
        | some _ =>
          { y with word := some w, wordAbs := y.latchAbs, cnt := wrapCnt (y.cnt + d), s := y.s + (d : Rat) * sc, lastTs := ts
                   dir := if d = 0 then y.dir else if d < 0 then -1 else 1
                   speed := if dt = 0 then y.speed else (d : Rat) * 50000000 / (dt : Rat) }
      let m3 := ((m2.clrFld F.FB_ERR_CONSEC p).clrFld F.FB_STAT_STILL p).wr F.FB_STAT_DIR (b2n (decide ((m2.port p).dir < 0))) p
      let m4 := m3.modPort p fun y => { y with warnNow := warn }
      if !warn then m4
      else
        let m5 := m4.setBit F.FB_STAT_SER_WARN p
        if x.warnNow then m5 else m5.post Ev.FB_SER_WARN p 0

/-! ### Mode and command inputs -/

/-- R356: a write to FB_CFG.MODE is dropped while the port is in use. `true`: refused. -/
def Mach.fbModeRefused (m : Mach) (p : Nat) : Bool := m.portInUse p

/-- R378: FB_FOLLOW with EN = 1 engages an axis at its next slot, or is refused. Log entry 63 (DEDUCED). -/
def Mach.fbEngageReq (m : Mach) (p : Nat) : Mach :=
  let n := m.rd F.FB_FOLLOW_AXIS p
  let ok := decide (n < 48) && ((m.ax n).eff == .hold || (m.ax n).eff == .follow)
  if ok then m.modAx n fun a => { a with fbEngage := some (p, m.rd F.FB_FOLLOW_PROFILE p) }
  else m.setBit F.FB_STAT_FOLLOW_REFUSED p

/-- R378: FB_FOLLOW with EN = 0 stops the engaged axis as STOP does, with slot PROFILE. -/
def Mach.fbDisengage (m : Mach) (p : Nat) : Mach :=
  let prof := m.rd F.FB_FOLLOW_PROFILE p
  m.each 48 fun m n =>
    match (m.ax n).follow with
    | some f =>
      if f.port = some p ∧ (m.ax n).eff = .follow then
        m.startStop n { q := n, id := none, w := BitVec.ofNat 128 (4 * 2 ^ 120 + prof * 2 ^ 116), tgts := [], axs := [] } (m.clk.tick + 1)
      else m
    | none => m

/-- A write of FB_FOLLOW. EN itself is the module's: it reads one while an engagement is in force. -/
def Mach.writeFbFollow (m : Mach) (p v : Nat) : Mach :=
  let en := m.rd F.FB_FOLLOW_EN p
  let m1 := m.setReg .FB_FOLLOW p 0 (en + bitsOf v 8 6 * 2 ^ 8 + bitsOf v 16 3 * 2 ^ 16)
  if bitOf v 0 then m1.fbEngageReq p else if en = 1 then m1.fbDisengage p else m1

/-- FB_PINS: the filtered levels after POL, the synchronised levels before the filter, the Hall state (R379). -/
def Mach.pinsWord (m : Mach) (p : Nat) : Nat :=
  let lvl := m.portLvl p
  lvl + (m.port p).pin % 16 * 16 + ((hallState (bitsOf lvl 0 3)).getD 7) * 256

end Sys2Proof.Machine
end

