-- ==== Sys2Proof/Machine/FrontEnd.lean ====
section
/-!
DEFINITION. The sensor front end (R381 to R406): crosspoint checks, excitation, converter passes, blanking, results,
cross-checks, calibration, the test DAC and the report outputs.
-/

namespace Sys2Proof.Machine

def Mach.conv (m : Mach) (k : Nat) : Conv := vget .reset m.sf.convs k
def Mach.modSf (m : Mach) (f : FrontEnd → FrontEnd) : Mach := { m with sf := f m.sf }
def Mach.modConv (m : Mach) (k : Nat) (f : Conv → Conv) : Mach := m.modSf fun x => { x with convs := vmod x.convs k f }
def Mach.chan (m : Mach) (c : Nat) : SfChan := vget .reset m.sf.chans c
def Mach.modChan (m : Mach) (c : Nat) (f : SfChan → SfChan) : Mach := m.modSf fun x => { x with chans := vmod x.chans c f }

/-- R381: a dropped write. -/
def Mach.sfCfgBad (m : Mach) (addr : Nat) : Mach := (m.setBit F.SF_STATUS_CFG_BAD).post Ev.SF_CFG_BAD 0 addr

/-- Whether a code names a node (R381). -/
def nodeOk (x : Nat) : Bool := decide (x ≤ 0x13)

/-- The pins that carry a driving role, one entry per role (R382), from the last written values. -/
def Mach.drivePins (m : Mach) : List Nat :=
  let ex := (List.range 2).filterMap fun e =>
    let w := m.reg .SF_EX_CFG e 0
    if bitOf w 0 && bitsOf w 1 2 != 3 then some (bitsOf w 3 5) else none
  let bias := (List.range 8).filterMap fun c =>
    let w := m.reg .SF_CH_BIAS c 0
    if bitOf (m.reg .SF_CH_CFG c 0) 0 && bitsOf w 5 2 != 0 then some (bitsOf w 0 5) else none
  ex ++ bias

/-- R382: no pin carries two driving roles. -/
def Mach.drivesOk (m : Mach) : Bool := decide m.drivePins.Nodup

/-- Whether a channel uses source `e` (R385). -/
def Mach.usesEx (m : Mach) (c e : Nat) : Bool :=
  let pins := [m.rd F.SF_EX_CFG_FPIN e, m.rd F.SF_EX_CFG_SPIN e]
  m.chRef c == some e || m.chRsrc c == some e || pins.contains (m.rd F.SF_CH_CFG_PSEL c) || pins.contains (m.rd F.SF_CH_CFG_NSEL c)

/-- Whether a source that REF or RSRC names is off, or REF names one that is not in voltage mode (R386, R387). -/
def Mach.refOff (m : Mach) (c : Nat) : Bool :=
  (match m.chRef c with | some e => !m.exVolt e | none => false)
    || (match m.chRsrc c with | some e => !m.exOn e | none => false)

/-! ### Staleness, report outputs -/

/-- Limits an output to its mode (R403). -/
def Mach.repLimit (m : Mach) (r : Nat) (o : Int) : Nat :=
  if m.rd F.SF_REP_CFG_MODE r = 0 then (clampInt 10 100000 o).toNat else (clampInt 0 65536 o).toNat

/-- R403: the output for a source value, and whether the limit acted. -/
def Mach.repMap (m : Mach) (r : Nat) (x : Int) : Nat × Bool :=
  let a := m.rdS F.SF_REP_VLO_VALUE r
  let b := m.rdS F.SF_REP_VHI_VALUE r
  let x' := clampInt (min a b) (max a b) x
  let olo : Int := m.rd F.SF_REP_OLO_OUT r
  let ohi : Int := m.rd F.SF_REP_OHI_OUT r
  let o := if a = b then olo else Int.tdiv (olo * (b - a) + (x' - a) * (ohi - olo)) (b - a)
  (m.repLimit r o, x' != x)

/-- Whether output `r` is active (R405). -/
def Mach.repOn (m : Mach) (r : Nat) : Bool := m.rb F.SF_REP_CFG_EN r && decide (m.rd F.SF_REP_CFG_SRC r ≤ 8)

/-- R404: a new value of source `src` of output `r` waits for the end of the running output period. -/
def Mach.repTake (m : Mach) (src : Nat) (x : Int) (r : Nat) : Mach :=
  if m.repOn r && m.rd F.SF_REP_CFG_SRC r == src then
    let (o, lim) := m.repMap r x
    ((m.modSf fun s => { s with repNext := vmod s.repNext r fun _ => some o }).wr F.SF_REP_STAT_CLAMPED (b2n lim) r).clrFld
      F.SF_REP_STAT_STALE r
  else m

/-- R404: a new value of a channel goes to each output whose source it is. -/
def Mach.repSource (m : Mach) (src : Nat) (x : Int) : Mach := m.each 4 fun m r => m.repTake src x r

/-- R404: the source of an output went stale. -/
def Mach.repStale (m : Mach) (src : Nat) : Mach :=
  m.each 4 fun m r =>
    if m.repOn r && m.rd F.SF_REP_CFG_SRC r == src then
      let flt := m.repLimit r (m.rd F.SF_REP_OFLT_OUT r)
      let m1 := m.setBit F.SF_REP_STAT_STALE r
      if m.rb F.SF_REP_CFG_FLT_ACT r then m1.modSf fun s => { s with repNext := vmod s.repNext r fun _ => some flt } else m1
    else m

/-- R404: an output period ends and the value that waits takes effect. -/
def Mach.repPeriodEnd (m : Mach) (r : Nat) : Mach :=
  match vget none m.sf.repNext r with
  | some o => (m.modSf fun s => { s with repNext := vmod s.repNext r fun _ => none }).wr F.SF_REP_STAT_OUT o r
  | none => m

/-- Whether the source of an output is stale or FAILED (R404). -/
def Mach.repSrcStale (m : Mach) (r : Nat) : Bool :=
  let c := m.rd F.SF_REP_CFG_SRC r
  m.repOn r && decide (c < 8) && (m.rb F.SF_CH_STAT_STALE c || m.rb F.SF_CH_STAT_FAILED c)

/-- R404: an enabled output starts at OFLT, a disabled one is driven low. Log entry 70 (DEDUCED). -/
def Mach.repStart (m : Mach) (r : Nat) : Mach :=
  let m1 := m.modSf fun s => { s with repNext := vmod s.repNext r fun _ => none }
  (m1.wr F.SF_REP_STAT_OUT (if m.repOn r then m.repLimit r (m.rd F.SF_REP_OFLT_OUT r) else 0) r).wr F.SF_REP_STAT_STALE
    (b2n (m.repSrcStale r)) r

/-- R404: SF_REP_CFG was written; `was`: the output was active before. An output that becomes active, or ends, starts afresh; one
that stays active goes on, at OFLT where its source is stale and FLT_ACT = 1. -/
def Mach.repWritten (m : Mach) (r : Nat) (was : Bool) : Mach :=
  if !(was && m.repOn r) then m.repStart r
  else
    let flt := m.repLimit r (m.rd F.SF_REP_OFLT_OUT r)
    let m1 := m.wr F.SF_REP_STAT_STALE (b2n (m.repSrcStale r)) r
    if m.repSrcStale r && m.rb F.SF_REP_CFG_FLT_ACT r then
      m1.modSf fun s => { s with repNext := vmod s.repNext r fun _ => some flt }
    else m1

/-- The square wave or pulse of an output (R403): its period and its high time in FBS cycles. -/
def Mach.repWave (m : Mach) (r : Nat) : Nat × Nat :=
  let o := m.rd F.SF_REP_STAT_OUT r
  let near (x : Rat) : Nat := (x + 1 / 2).floor.toNat
  if m.rd F.SF_REP_CFG_MODE r = 0 then let n := near (240000000 / (o : Rat)); (n, n / 2)
  else
    let n := near (240000000 / ((clampNat 10 10000 (m.rd F.SF_REP_CFG_PWM_F r) : Nat) : Rat))
    (n, near (((n * o : Nat) : Rat) / 65536))

/-- The data register of a channel goes stale (R386, R393, R402). -/
def Mach.setStale (m : Mach) (c : Nat) : Mach :=
  let w := m.reg .SF_DATA c 0
  let m1 := (m.setReg .SF_DATA c 0 (putBits w 39 1 1)).setBit F.SF_CH_STAT_STALE c
  let m2 := m1.each 48 fun m n => if (m.ax n).trim.on && (m.ax n).trim.ch == c then m.trimStale n else m
  m2.repStale c

/-! ### Converter passes -/

/-- SF_CH_CFG takes effect: the gain in force is the written one, from which R390 goes on. Log entry 122 (DEDUCED). -/
def Mach.gainAfresh (m : Mach) (c : Nat) : Mach := m.modChan c fun x => { x with autoGain := none, drop := false }

/-- Takes the staged writes that apply at a conversion start of channel `c` (R405). Log entry 69 (DEDUCED). -/
def Mach.sfTakeCh (m : Mach) (c : Nat) : Mach :=
  let due (s : Staged) : Bool := s.at_ == .sfApply && s.key.i == c && s.key.r != .SF_AUX_CFG
  let m1 := { m with staged := m.staged.filter fun s => !due s }
  m1.when (m.staged.any fun s => due s && s.key.r == .SF_CH_CFG) (·.gainAfresh c)
def Mach.sfTakeConv (m : Mach) (k : Nat) : Mach :=
  { m with staged := m.staged.filter fun s => !(s.at_ == .sfApply && s.key.i == k && s.key.r == .SF_AUX_CFG) }
def Mach.sfTakeSeq (m : Mach) (k : Nat) : Mach :=
  { m with staged := m.staged.filter fun s => !(s.key.r == .SF_SEQ && s.key.i == k) }

/-- Whether a channel is in a converter's list. -/
def Mach.inSeq (m : Mach) (k c : Nat) : Bool :=
  (List.range (m.rd F.SF_SEQ_LEN k + 1)).any fun i => bitsOf (m.rd F.SF_SEQ_CH k) (3 * i) 3 == c

/-- R399: a channel in both lists. -/
def Mach.sharedCh (m : Mach) (c : Nat) : Bool := m.inSeq 0 c && m.inSeq 1 c

/-- Whether a channel converts (R389): enabled, not failed, not held by a check. -/
def Mach.chConverts (m : Mach) (c : Nat) : Bool :=
  m.rb F.SF_CH_CFG_EN c && !m.rb F.SF_CH_STAT_FAILED c && !(m.sf.chk == some c && m.sf.dacOwner == some 1)

/-- The gain code of a channel's next conversion (R390). -/
def Mach.chGain (m : Mach) (c : Nat) : Nat :=
  let g := m.rd F.SF_CH_CFG_GAIN c
  if m.rb F.SF_CH_CFG_AUTO c then (m.chan c).autoGain.getD g else g

/-- R383, R389: channel `c`, entry `i`, is connected to converter `k`. -/
def Mach.connect (m : Mach) (k i c : Nat) : Mach :=
  let m1 := m.sfTakeConv k
  let g := m1.chGain c
  ((m1.modConv k fun x => { x with idx := i, conn := some c, gain := g }).wr F.SF_AUX_STAT_CH c k).wr F.SF_CH_STAT_GAIN_NOW g c

/-- The first entry from `i` whose channel converts, with the staged writes of the channels looked at taken.
Log entry 69 (DEDUCED). -/
def Mach.nextEntry (m : Mach) (k : Nat) : Nat → Nat → Mach × Option (Nat × Nat)
  | 0, _ => (m, none)
  | fuel + 1, i =>
    if m.rd F.SF_SEQ_LEN k < i then (m, none)
    else
      let c := bitsOf (m.rd F.SF_SEQ_CH k) (3 * i) 3
      let m1 := m.sfTakeCh c
      if m1.chConverts c then (m1, some (i, c)) else m1.nextEntry k fuel (i + 1)

/-- The converter stops with the crosspoint open. -/
def Mach.convIdle (m : Mach) (k : Nat) : Mach :=
  (m.modConv k fun x => { x with run := false, stop := false, conn := none }).clrFld F.SF_AUX_STAT_RUN k

/-- R389: a pass starts. With no channel to convert, a converter in continuous mode waits and another ends its pass. -/
def Mach.passBegin (m : Mach) (k : Nat) : Mach :=
  let m1 := (m.sfTakeSeq k).sfTakeConv k
  match m1.nextEntry k 9 0 with
  | (m2, some (i, c)) => ((m2.modConv k fun x => { x with run := true }).setBit F.SF_AUX_STAT_RUN k).connect k i c
  | (m2, none) =>
    if m2.rb F.SF_AUX_CFG_CONT k then (m2.modConv k fun x => { x with run := true, conn := none }).setBit F.SF_AUX_STAT_RUN k
    else m2.convIdle k

/-- R389: after the entry `i`, the next entry, or the end of the pass. -/
def Mach.advance (m : Mach) (k i : Nat) : Mach :=
  match m.nextEntry k 9 (i + 1) with
  | (m2, some (j, c)) => m2.connect k j c
  | (m2, none) =>
    let m3 := m2.wrap F.SF_AUX_STAT_PASSES k
    if m3.rb F.SF_AUX_CFG_CONT k && !(m3.conv k).stop then m3.passBegin k else m3.convIdle k

/-- R389: GO; ignored while a pass runs, and outside RUN. -/
def Mach.auxGo (m : Mach) (k : Nat) : Mach := if (m.conv k).run || !m.clk.running then m else m.passBegin k

/-- R389: STOP ends the pass at the next output. -/
def Mach.auxStop (m : Mach) (k : Nat) : Mach :=
  match (m.conv k).run, (m.conv k).conn with
  | true, some _ => m.modConv k fun x => { x with stop := true }
  | true, none => m.convIdle k
  | false, _ => m

/-- A converter that waits for a channel looks at its list again. -/
def Mach.convKick (m : Mach) (k : Nat) : Mach :=
  if (m.conv k).run && (m.conv k).conn.isNone then m.passBegin k else m

/-- R389: at entry to RUN, a continuous converter whose list holds an enabled channel starts. -/
def Mach.sfRun (m : Mach) : Mach :=
  let m1 := m.each 2 fun m k =>
    let some_ := (List.range (m.rd F.SF_SEQ_LEN k + 1)).any fun i => m.rb F.SF_CH_CFG_EN (bitsOf (m.rd F.SF_SEQ_CH k) (3 * i) 3)
    if m.rb F.SF_AUX_CFG_CONT k && some_ then m.passBegin k else m
  m1.each 4 fun m r => m.repStart r

/-- R405: an immediate write to a connected channel ends its conversion without a result and starts it afresh. -/
def Mach.sfAfresh (m : Mach) (c : Nat) : Mach :=
  let m1 := m.each 2 fun m k =>
    match (m.conv k).conn with
    | some d =>
      if d = c then
        let m1 := (m.bump F.SF_STATUS_SETTLE_DROP).sfTakeCh c
        if m1.chConverts c then m1.connect k (m.conv k).idx c else m1.advance k (m.conv k).idx
      else m
    | none => m
  m1.each 2 fun m k => m.convKick k

/-! ### Excitation -/

/-- An excitation change (R386): suppression starts, and a running calibration of a channel that uses it starts again
(R400). -/
def Mach.exChange (m : Mach) (e : Nat) : Mach :=
  let m1 := m.modSf fun s => { s with exAt := vmod s.exAt e fun _ => some m.absNow }
  match m1.sf.cal with
  | some k => if m1.usesEx k.ch e then m1.modSf fun s => { s with cal := some { k with n := 0, sum := 0 } } else m1
  | none => m1

/-- What MEAS shows once SF_EX_CFG[e] is written (R385): the current of step 11 in current mode; the voltage a source in voltage mode
regulates to is an input, open until it is next sensed. Log entry 70 (DEDUCED). -/
def Mach.exMeas (m : Mach) (e : Nat) (mode : Nat) : Mach :=
  let m1 := m.when (m.exOn e && !m.exVolt e) fun m => m.wr F.SF_EX_STAT_MEAS (vget 0 m.sf.exI e) e
  m1.when (m1.exVolt e && mode != m1.rd F.SF_EX_CFG_MODE e) fun m => m.wr F.SF_EX_STAT_MEAS (m.free (7500 + e) % 65536) e

/-- R385: the sensed voltages of the sources in voltage mode. Log entry 70 (DEDUCED). -/
def Mach.exSensed (m : Mach) (v : BitVec 32) : Mach :=
  m.each 2 fun m e => m.when (m.exVolt e) (·.wr F.SF_EX_STAT_MEAS (bitsOf v.toNat (16 * e) 16) e)

/-- R381, R382, R386: a write of SF_EX_CFG[e]. -/
def Mach.writeExCfg (m : Mach) (e v : Nat) : Mach :=
  let old := m.reg .SF_EX_CFG e 0
  let m1 := m.setReg .SF_EX_CFG e 0 v
  let on := bitOf v 0 && bitsOf v 1 2 != 3
  let ok := decide (bitsOf v 3 5 ≤ 0x0F) && nodeOk (bitsOf v 8 5) && nodeOk (bitsOf v 13 5) && (!on || m1.drivesOk)
  if !ok then m.sfCfgBad (Reg.addr .SF_EX_CFG e 0)
  else
    let m2 := if on then m1 else m1.modSf fun s => { s with exLive := vmod s.exLive e fun _ => 0 }
    if old = v then m2 else (m2.exMeas e (if bitOf old 0 then bitsOf old 1 2 else 3)).exChange e

/-- R385: the faults among `bits` (SENSE_OPEN, COMPLIANCE, OVL) that the source's mode has. -/
def Mach.exBits (m : Mach) (e bits : Nat) : Nat := if !m.exOn e then 0 else bits &&& (if m.exVolt e then 5 else 2)

/-- R385: a fault of a source is found; `bits` are SENSE_OPEN, COMPLIANCE and OVL, those of the other mode ignored. -/
def Mach.exFault (m : Mach) (e bits : Nat) : Mach :=
  let b := m.exBits e bits
  let live := vget 0 m.sf.exLive e
  let fresh := b &&& (0xFF ^^^ vget 0 m.sf.exNoted e)
  let m1 := m.setReg .SF_EX_STAT e 0 (m.reg .SF_EX_STAT e 0 ||| b)
  let m2 := m1.modSf fun s => { s with exLive := vmod s.exLive e (· ||| b), exNoted := vmod s.exNoted e (· ||| b) }
  let m3 := if live ||| b = live then m2 else m2.exChange e
  m3.when (fresh != 0) (·.post Ev.SF_EX_FAULT (0x10 + e) b)

/-- R385, R386: a check of a source finds no fault. -/
def Mach.exFaultClear (m : Mach) (e : Nat) : Mach :=
  let live := vget 0 m.sf.exLive e
  let m1 := m.modSf fun s => { s with exLive := vmod s.exLive e fun _ => 0, exNoted := vmod s.exNoted e fun _ => 0 }
  if live = 0 then m1 else m1.exChange e

/-! ### Crosspoint writes -/

/-- R398: whether curve `cv` needs no table, or has the one that a channel's TABLE field names. -/
def Mach.tableOk (m : Mach) (cv inst : Nat) : Bool := (cv != 5 && cv != 11) || (m.curveTable inst cv).isSome

/-- R381, R382, R398: whether a word may be written to one of a channel's registers. A record of the image is not dropped for its table:
step 8 disables the channel. -/
def Mach.chWriteOk (m : Mach) (r : Reg) (c v : Nat) (image : Bool) : Bool :=
  let m1 := m.setReg r c 0 v
  match r with
  | .SF_CH_CFG =>
    nodeOk (bitsOf v 1 5) && nodeOk (bitsOf v 6 5) && (!bitOf v 0 || m1.drivesOk)
      && (image || !bitOf v 0 || m.tableOk (bitsOf (m.reg .SF_CH_CURVE c 0) 0 4) (bitsOf (m.reg .SF_CH_CURVE c 0) 4 4))
  | .SF_CH_BIAS => decide (bitsOf v 0 5 ≤ 0x0F) && (bitsOf v 5 2 == 0 || m1.drivesOk)
  | .SF_CH_CURVE =>
    let cv := bitsOf v 0 4
    decide (cv ≤ 11) && !(decide (6 ≤ cv ∧ cv ≤ 9) && bitsOf v 8 3 == c)
      && (image || m.tableOk cv (bitsOf v 4 4))
  | _ => true

/-! ### Blanking -/

/-- Whether a blanking source is active (R393). -/
def Mach.blankSource (m : Mach) : Bool :=
  (m.rb F.SF_BLANK_CFG_GI_EN && m.giActive (m.rd F.SF_BLANK_CFG_GI))
    || (m.rb F.SF_BLANK_CFG_CLAMP && (List.range 4).any fun b => (m.bank b).clamp)
    || (m.rb F.SF_BLANK_CFG_UV && (List.range 4).any fun b => m.rb F.PW_VMON_STAT_UV_NOW b)
    || (m.rb F.SF_BLANK_CFG_TRIP && m.rb F.PW_TRIP_STAT_LATCH)

/-- The extension in timestamp units. -/
def Mach.blankExt (m : Mach) : Nat := 500 * m.rd F.SF_BLANK_CFG_EXT

/-- R393: after each command, the blanking sources are looked at; an interval runs while a source is active and for EXT
after it, and for EXT after an edge of a chosen output. -/
def Mach.blankStep (m : Mach) : Mach :=
  let act := m.blankSource
  let edge := decide (((m.go ^^^ m.sf.goPrev).toNat &&& m.rd F.SF_BLANK_CFG_GO) ≠ 0)
  let until_ := if act || m.sf.blankAct || edge then some (m.absNow + m.blankExt) else m.sf.blankEnd
  m.modSf fun s => { s with blankAct := act, blankEnd := until_, goPrev := m.go }

/-- Whether a blanking interval ran at or after the time `t` (R393). -/
def Mach.blankedSince (m : Mach) (t : Int) : Bool :=
  m.sf.blankAct || (match m.sf.blankEnd with | some e => decide (t < (e : Int)) | none => false)

/-- SF_STATUS.BLANK_NOW. -/
def Mach.blankNow (m : Mach) : Bool := m.blankedSince m.absNow

/-! ### Results -/

/-- K·OSR modulator cycles of converter `k`, in timestamp units of 20 ns, rounded up (R388). -/
def Mach.windowUnits (m : Mach) (k : Nat) : Nat :=
  let osr := 16 * clampNat 8 100000 (m.rd F.SF_AUX_CFG_OSR16 k)
  ceilDiv ((3 + m.rd F.SF_AUX_CFG_ORD k) * osr * 25) 2

/-- A record of R394. -/
def sfRecord (v : Int) (c k gain : Nat) (flags : Nat) (ts seq raw : Nat) : Word :=
  BitVec.ofNat 128 (unsignedOf 32 v + c % 8 * 2 ^ 32 + k % 2 * 2 ^ 35 + gain % 8 * 2 ^ 36 + flags % 2 ^ 6 * 2 ^ 40
    + ts % 2 ^ 48 * 2 ^ 48 + seq % 256 * 2 ^ 96 + raw % 2 ^ 24 * 2 ^ 104)

/-- R401: a record enters the queue and the mirror. -/
def Mach.sfPush (m : Mach) (w : Word) : Mach :=
  let m1 :=
    if 256 ≤ m.sf.queue.length then
      let d := m.bump F.SF_Q_STAT_DROP_CNT
      if d.rb F.SF_STATUS_QOVF then d
      else (d.setBit F.SF_STATUS_QOVF).post Ev.SF_Q_OVF 0 (d.rd F.SF_Q_STAT_DROP_CNT)
    else
      (m.modSf fun s => { s with queue := s.queue ++ [w] }).wr F.SF_Q_STAT_LEVEL (m.sf.queue.length + 1)
  if m1.rb F.SF_CFG_MIRROR then
    (m1.dramWrite (0x04100000 + 16 * (m1.rd F.SF_DWR_CNT % 1048576)) 16 w.toNat).wrap F.SF_DWR_CNT
  else m1

/-- The oldest unread record (R401). -/
def Mach.sfPeek (m : Mach) : Word := (m.sf.queue.head?).getD 0

/-- R401: SF_Q_POP removes it. -/
def Mach.sfPop (m : Mach) : Mach :=
  (m.modSf fun s => { s with queue := s.queue.drop 1 }).wr F.SF_Q_STAT_LEVEL (m.sf.queue.length - 1)

/-- The calibration of R400 on a curve's exact output. -/
def Mach.sfCal (m : Mach) (c : Nat) (y : Rat) : Rat × Bool :=
  let cv := m.rd F.SF_CH_CURVE_CURVE c
  let z := m.rdS F.SF_CAL_ZERO_VALUE c
  let g := clampNat 0x00800000 0x02000000 (m.rd F.SF_CAL_GAIN_VALUE c)
  if (cv = 0 ∨ cv = 10 ∨ cv = 11) ∧ !(z == 0 && g == 0x01000000) then ((y - z) * ofFixed 24 (g : Nat), true) else (y, false)

/-- The end of a calibration (R400). -/
def Mach.calEnd (m : Mach) (code : Nat) (isGain : Bool) (new : Nat) (c : Nat) : Mach :=
  let m1 := (m.modSf fun s => { s with cal := none }).clrFld F.SF_CAL_CMD_BUSY
  if code = 0 then (m1.setBit F.SF_CAL_CMD_DONE).post Ev.SF_CAL_DONE c (b2n isGain + 2 ^ 16 * new)
  else ((m1.setBit F.SF_CAL_CMD_FAIL).wr F.SF_CAL_CMD_CODE code).post Ev.SF_CAL_FAIL c code

/-- R400: a start is refused with code 2 while one runs, with code 1 for a curve from 1 to 9. -/
def Mach.calStart (m : Mach) (c cmd navg : Nat) : Mach :=
  let cv := m.rd F.SF_CH_CURVE_CURVE c
  let refuse (code : Nat) := ((m.setBit F.SF_CAL_CMD_FAIL).wr F.SF_CAL_CMD_CODE code).post Ev.SF_CAL_FAIL c code
  if m.sf.cal.isSome then refuse 2
  else if 1 ≤ cv ∧ cv ≤ 9 then refuse 1
  else (m.modSf fun s => { s with cal := some { ch := c, cmd := cmd, want := 2 ^ min navg 10, n := 0, sum := 0 } }).setBit
    F.SF_CAL_CMD_BUSY

/-- R400: command 3. -/
def Mach.calCancel (m : Mach) : Mach := (m.modSf fun s => { s with cal := none }).clrFld F.SF_CAL_CMD_BUSY

/-- R400: too few valid results in 10 s. -/
def Mach.calTimeout (m : Mach) : Mach :=
  match m.sf.cal with
  | some k => m.calEnd 3 (k.cmd == 2) 0 k.ch
  | none => m

/-- R400: a valid output counts toward the running calibration. Log entry 69 (DEDUCED). -/
def Mach.calResult (m : Mach) (c : Nat) (y : Rat) : Mach :=
  match m.sf.cal with
  | some k =>
    if k.ch ≠ c then m
    else if k.n + 1 < k.want then m.modSf fun s => { s with cal := some { k with n := k.n + 1, sum := k.sum + y } }
    else
      let mean := (k.sum + y) / (k.want : Nat)
      if k.cmd = 1 then
        let z := unsignedOf 32 mean.floor
        (m.wr F.SF_CAL_ZERO_VALUE z c).calEnd 0 false z c
      else
        let d := mean - m.rdS F.SF_CAL_ZERO_VALUE c
        let g := (m.rdS F.SF_CAL_REF_VALUE c : Rat) / d
        if d = 0 ∨ g < 1 / 2 ∨ 2 < g then m.calEnd 4 true 0 c
        else
          let w := (toFixedZero 24 g).toNat
          (m.wr F.SF_CAL_GAIN_VALUE w c).calEnd 0 true w c
  | none => m

/-- R399: an AUXA result of a shared channel is compared with the latest AUXB result. Log entry 68 (DEDUCED). -/
def Mach.crossCheck (m : Mach) (c : Nat) (v : Int) (valid : Bool) : Mach :=
  let tol := m.rd F.SF_XTOL_VALUE c
  if !m.rb F.SF_XCHK_EN c ∨ tol = 0 ∨ !m.sharedCh c then m
  else
    match (m.chan c).lastB with
    | none => m
    | some (vb, tb) =>
      let win := 50000 * max 1 (m.rd F.SF_XCHK_XWIN c)
      if !valid ∨ win < m.absNow - tb then m
      else
        let xn := max 1 (m.rd F.SF_XCHK_XN c)
        let diff := v - vb
        if (tol : Int) < max diff (-diff) then
          let run := (m.chan c).disRun + 1
          let hit := decide (xn ≤ run) && !(m.chan c).impl
          (m.modChan c fun x => { x with disRun := run, agrRun := 0, impl := x.impl || hit }).when hit
            (·.post Ev.SF_XCHK_FAIL c (unsignedOf 32 (satSigned 32 diff)))
        else
          let run := (m.chan c).agrRun + 1
          let hit := decide (xn ≤ run) && (m.chan c).impl
          (m.modChan c fun x => { x with agrRun := run, disRun := 0, impl := x.impl && !hit }).when hit (·.post Ev.SF_XCHK_OK c 0)

/-- R390: automatic gain after a result. Log entry 68 (DEDUCED). -/
def Mach.autoGain (m : Mach) (c gain : Nat) (code : Int) (clip : Bool) : Mach :=
  if !m.rb F.SF_CH_CFG_AUTO c then m
  else
    let hi := m.rd F.SF_CH_CFG_GMAX c
    let lo := min (m.rd F.SF_CH_CFG_GMIN c) hi
    let a := max code (-code)
    let g := if (clip ∨ 7864320 < a) ∧ lo < gain then gain - 1 else if a < 3145728 ∧ ¬clip ∧ gain < hi then gain + 1 else gain
    m.modChan c fun x => { x with autoGain := some g, drop := x.drop || g != gain }

/-- R394: the data register of the channel takes a result of its primary converter; of an invalid one all but VALUE. -/
def Mach.dataTake (m : Mach) (c : Nat) (w : Word) (v : Int) (valid : Bool) : Mach :=
  if valid then
    let m1 := (m.setReg .SF_DATA c 0 w.toNat).clrFld F.SF_CH_STAT_STALE c
    let m2 := m1.each 48 fun m n => if (m.ax n).trim.on && (m.ax n).trim.ch == c then m.trimUpdate n v else m
    m2.repSource c v
  else
    let d := m.reg .SF_DATA c 0
    (m.setReg .SF_DATA c 0 (putBits w.toNat 0 32 (bitsOf d 0 32))).setStale c

/-- The flags of a result in SF_CH_STAT, and their events, posted once until a valid result (R394, R406). -/
def Mach.flagNotes (m : Mach) (c gain : Nat) (v : Int) (clip rng cjc : Bool) (op : Nat) : Mach :=
  let x := m.chan c
  let m1 := ((m.when clip (·.setBit F.SF_CH_STAT_CLIP c)).when (op != 0) (·.setBit F.SF_CH_STAT_OPEN c))
  let m2 := (m1.when rng (·.setBit F.SF_CH_STAT_RANGE c)).when cjc (·.setBit F.SF_CH_STAT_CJC c)
  let m3 := m2.when (op != 0 && !x.nOpen) (·.post Ev.SF_CH_OPEN c op)
  let m4 := m3.when (clip && !x.nClip) (·.post Ev.SF_CLIP c gain)
  let m5 := m4.when (rng && !x.nRange) (·.post Ev.SF_RANGE c (unsignedOf 32 v))
  let m6 := m5.when (cjc && !x.nCjc) (·.post Ev.SF_CJC_STALE c (m.rd F.SF_CH_CURVE_CJC c))
  m6.modChan c fun x => { x with nOpen := x.nOpen || op != 0, nClip := x.nClip || clip, nRange := x.nRange || rng, nCjc := x.nCjc || cjc }

/-- R394 to R401: a result of channel `c` on converter `k` is linearised, cross-checked, calibrated and delivered.
Log entries 66 (DEDUCED), 68 (DEDUCED). -/
def Mach.sfDeliver (m : Mach) (k c gain raw : Nat) : Mach :=
  let code := signedOf 24 raw
  let clip := decide (code = -8388608 ∨ code = 8388607)
  let out := m.curve c code gain
  let burn := m.rb F.SF_CH_CFG_BURN c && clip
  let exf := (List.range 2).any fun e => vget 0 m.sf.exLive e != 0 && m.usesEx c e
  let op := b2n burn + 2 * b2n out.isOpen + 4 * b2n exf
  let (yc, cal) := match out.y with
    | some y => let r := m.sfCal c y; (some r.1, r.2)
    | none => (none, false)
  let v := roundResult yc (m.free 130 % 2 == 1) (m.free 131)
  let okButImpl := !clip && op == 0 && !out.range && !out.cjc
  let m1 := if k = 0 then m.crossCheck c v okButImpl else m
  let impl := (m1.chan c).impl
  let valid := okButImpl && !impl
  let m2 := (m1.modChan c fun x =>
    { x with seq := (x.seq + 1) % 256, lastB := if k = 1 then (if okButImpl then some (v, m.absNow) else none) else x.lastB }).wrap
      F.SF_CH_STAT_RESULTS c
  let flags := b2n clip + 2 * b2n (op != 0) + 4 * b2n out.range + 8 * b2n impl + 16 * b2n out.cjc + 32 * b2n cal
  let w := sfRecord v c k gain flags m.stamp (m2.chan c).seq raw
  let m3 := m2.sfPush w
  let m4 := if k = 0 || !m.sharedCh c then m3.dataTake c w v valid else m3
  let m5 := if valid then m4.modChan c fun x => { x with nOpen := false, nClip := false, nRange := false, nCjc := false }
    else m4.flagNotes c gain v clip out.range out.cjc op
  let m6 := match out.y with
    | some y => if valid then m5.calResult c y else m5
    | none => m5
  m6.autoGain c gain code clip

/-- R389: converter `k` outputs the code `raw`; `meas` is the sensed voltage of the source its channel's REF names.
Log entry 70 (DEDUCED). -/
def Mach.auxResult (m : Mach) (k raw meas : Nat) : Mach :=
  let x := m.conv k
  match x.run, x.conn with
  | true, some c =>
    let m0 := match m.chRef c with
      | some e => if m.exVolt e then m.wr F.SF_EX_STAT_MEAS meas e else m
      | none => m
    let win := m0.windowUnits k
    let t0 : Int := (m0.absNow : Int) - win
    let settling := (List.range 2).any fun e => m0.usesEx c e &&
      (match (vget none m0.sf.exAt e : Option Nat) with | some t => decide (t0 < (t : Int)) | none => false)
    let first := (m0.chan c).drop && x.gain == m0.chGain c
    let md := if first then m0.modChan c fun y => { y with drop := false } else m0
    let m1 :=
      if m0.refOff c then md.setStale c
      else if settling then (md.bump F.SF_STATUS_SETTLE_DROP).setStale c
      else if m0.rb F.SF_CH_CFG_BLANK_EN c && m0.blankedSince t0 then (md.bump F.SF_STATUS_BLANK_DROP).setStale c
      else if first then md.bump F.SF_STATUS_RANGE_DROP
      else m0.sfDeliver k c x.gain raw
    if x.stop then (m1.wrap F.SF_AUX_STAT_PASSES k).convIdle k else m1.advance k x.idx
  | _, _ => m

/-! ### The test DAC and path checks -/

/-- The owner as SF_TDAC shows it, and the host's code in force (R402). -/
def Mach.dacShow (m : Mach) : Mach :=
  let o := match m.sf.dacOwner with | none => 0 | some 0 => 1 | some 1 => 2 | some _ => 3
  let m1 := m.wr F.SF_TDAC_OWNER o
  if m1.sf.dacOwner = some 0 then m1.modSf fun s => { s with dacCode := m1.rd F.SF_TDAC_CODE } else m1

/-- The front-end check that has the DAC holds its channel (R402). -/
def Mach.chkHold (m : Mach) : Mach :=
  match m.sf.dacOwner, m.sf.chk with
  | some 1, some c =>
    let m1 := m.setStale c
    m1.each 2 fun m k => if (m.conv k).conn = some c then m.advance k (m.conv k).idx else m
  | _, _ => m

/-- User `u` asks for the DAC. -/
def Mach.dacRequest (m : Mach) (u : Nat) : Mach :=
  if m.sf.dacOwner = some u ∨ m.sf.dacWait.contains u then m.dacShow
  else
    match m.sf.dacOwner with
    | none => ((m.modSf fun s => { s with dacOwner := some u }).dacShow).when (u == 1) (·.chkHold)
    | some _ => (m.modSf fun s => { s with dacWait := s.dacWait ++ [u] }).dacShow

/-- User `u` releases it, or gives up its request; the next in order receives it. -/
def Mach.dacRelease (m : Mach) (u : Nat) : Mach :=
  if m.sf.dacOwner = some u then
    let m1 := (m.modSf fun s => { s with dacOwner := s.dacWait.head?, dacWait := s.dacWait.drop 1 }).dacShow
    m1.when (m1.sf.dacOwner == some 1) (·.chkHold)
  else (m.modSf fun s => { s with dacWait := s.dacWait.filter (· != u) }).dacShow

/-- R402: a write of SF_TDAC, its fields already written. -/
def Mach.tdacWritten (m : Mach) : Mach := if m.rb F.SF_TDAC_HOLD then m.dacRequest 0 else m.dacRelease 0

/-- R402: SF_CHK.GO; ignored while BUSY. -/
def Mach.chkGo (m : Mach) : Mach :=
  if m.rb F.SF_CHK_BUSY then m
  else ((m.modSf fun s => { s with chk := some (m.rd F.SF_CHK_CH) }).setBit F.SF_CHK_BUSY).dacRequest 1

/-- R402: the running check ends with the errors of its two points in 0.01 % of full scale. -/
def Mach.chkDone (m : Mach) (e1 e2 : Int) : Mach :=
  match m.sf.dacOwner, m.sf.chk with
  | some 1, some c =>
    let e := if max e1 (-e1) < max e2 (-e2) then e2 else e1
    let fail := decide (50 < max e (-e))
    let m1 := ((m.modSf fun s => { s with chk := none }).clrFld F.SF_CHK_BUSY).setBit F.SF_CHK_DONE
    let m2 := (m1.wr F.SF_CHK_FAIL (b2n fail)).wrS F.SF_CHK_ERR e
    let m3 := (m2.post (if fail then Ev.SF_CHK_FAIL else Ev.SF_CHK_OK) c (m2.rd F.SF_CHK_ERR)).dacRelease 1
    m3.each 2 fun m k => m.convKick k
  | _, _ => m

/-- R324, R402: a sense-path check asks for the DAC when it starts. -/
def Mach.pchkStart (m : Mach) (b : Nat) : Mach :=
  let before := (m.bank b).pchk.isSome
  let m1 := m.pchkGo b
  if !before && (m1.bank b).pchk.isSome then m1.dacRequest (2 + b) else m1

/-- R324, R402: the sense-path check that has the DAC ends and releases it. -/
def Mach.pchkFinish (m : Mach) (b : Nat) (s1 s2 : Int) : Mach :=
  if m.sf.dacOwner = some (2 + b) then (m.pchkDone b s1 s2).dacRelease (2 + b) else m

end Sys2Proof.Machine
end

