-- ==== Sys2Proof/Machine/FaultMask.lean ====
section
/-!
DEFINITION. Fault masking: units found faulty, takeovers, clock fail-over, memory errors and FAULT_N (R407 to R429).
-/

namespace Sys2Proof.Machine

def Mach.modFm (m : Mach) (f : FaultMask → FaultMask) : Mach := { m with fm := f m.fm }

/-! ### Units -/

/-- The kinds of units of R407 with a spare. -/
inductive UnitKind where
  | slice (b s : Nat) | engine (k : Nat) | er | regulator (b : Nat) | crs | pll (d : Nat) | spl | ref | rc | none
  deriving DecidableEq, Repr

/-- The unit that a code names (R407). -/
def unitKind (u : Nat) : UnitKind :=
  if u < 0x14 then .slice (u / 5) (u % 5)
  else if 0x20 ≤ u ∧ u < 0x28 then .engine (u - 0x20)
  else if u = 0x28 then .er
  else if 0x30 ≤ u ∧ u < 0x34 then .regulator (u - 0x30)
  else if u = 0x34 then .crs
  else if 0x40 ≤ u ∧ u < 0x47 then .pll (u - 0x40)
  else if u = 0x47 then .spl
  else if u = 0x48 then .ref
  else if u = 0x49 then .rc
  else .none

/-- Whether the spare of each kind stands by (R407): ER, CRS, the spare PLL, the RC oscillator. -/
def Mach.erFree (m : Mach) : Bool := !bitOf (m.rd F.KN_CORES_ENG) 8 && m.rd F.FM_STATUS_ER_FOR == 0xF
def Mach.crsFree (m : Mach) : Bool := !bitOf (m.rd F.KN_CORES_REG) 4 && m.rd F.FM_STATUS_CRS_FOR == 0xF
def Mach.splFree (m : Mach) : Bool := !m.fm.splRetired && m.rd F.FM_STATUS_SPL_FOR == 0xF
def Mach.rcFree (m : Mach) : Bool := !m.fm.rcRetired && !m.fm.rcRef

/-- Whether a unit is retired (R410). -/
def Mach.unitRetired (m : Mach) (u : Nat) : Bool :=
  match unitKind u with
  | .slice b s => m.rd F.CS_SLICE_ROLE b s == 4
  | .engine k => bitOf (m.rd F.KN_CORES_ENG) k
  | .er => bitOf (m.rd F.KN_CORES_ENG) 8
  | .regulator b => bitOf (m.rd F.KN_CORES_REG) b
  | .crs => bitOf (m.rd F.KN_CORES_REG) 4
  | .pll d => bitOf (m.rd F.FM_CLK_MON_FAIL) d
  | .spl => m.fm.splRetired
  | .ref => m.rb F.FM_CLK_REF_FAIL
  | .rc => m.fm.rcRetired
  | .none => true

/-- R410: a unit is retired until the next start. -/
def Mach.retireUnit (m : Mach) (u : Nat) : Mach :=
  match unitKind u with
  | .slice b s => (m.wr F.CS_SLICE_ROLE 4 b s).wr F.KN_UNITS_SLICE (m.rd F.KN_UNITS_SLICE ||| 2 ^ u)
  | .engine k => m.wr F.KN_CORES_ENG (m.rd F.KN_CORES_ENG ||| 2 ^ k)
  | .er => m.wr F.KN_CORES_ENG (m.rd F.KN_CORES_ENG ||| 2 ^ 8)
  | .regulator b => m.wr F.KN_CORES_REG (m.rd F.KN_CORES_REG ||| 2 ^ b)
  | .crs => m.wr F.KN_CORES_REG (m.rd F.KN_CORES_REG ||| 2 ^ 4)
  | .pll d => m.wr F.FM_CLK_MON_FAIL (m.rd F.FM_CLK_MON_FAIL ||| 2 ^ d)
  | .spl => m.modFm fun x => { x with splRetired := true }
  | .ref => m.setBit F.FM_CLK_REF_FAIL
  | .rc => m.modFm fun x => { x with rcRetired := true }
  | .none => m

/-- The code of the spare of a unit's kind (R407); for a slice, the slice in the spare role. -/
def Mach.spareCode (m : Mach) (u : Nat) : Nat :=
  match unitKind u with
  | .slice b _ => 5 * b + (m.spareOf b).getD 4
  | .engine _ | .er => 0x28
  | .regulator _ | .crs => 0x34
  | .pll _ | .spl => 0x47
  | _ => 0x49

/-- Whether a unit is the spare of its kind, standing by. -/
def Mach.isStandby (m : Mach) (u : Nat) : Bool :=
  match unitKind u with
  | .slice b s => m.spareOf b == some s
  | .er => m.erFree
  | .crs => m.crsFree
  | .spl => m.splFree
  | .rc => m.rcFree
  | _ => false

/-- Whether a spare of the unit's kind stands by for it. -/
def Mach.hasSpare (m : Mach) (u : Nat) : Bool :=
  match unitKind u with
  | .slice b s => (m.spareOf b).isSome && m.spareOf b != some s
  | .engine _ => m.erFree
  | .regulator _ => m.crsFree
  | .pll _ => m.splFree
  | .ref => m.rcFree
  | _ => false

/-! ### No spare left -/

/-- The axes that the loss of a unit reaches (R426). -/
def Mach.lossAxes (m : Mach) (u : Nat) : List Nat :=
  let six (k : Nat) := (List.range 6).map (6 * k + ·)
  match unitKind u with
  | .engine k => six k
  | .er => if m.rd F.FM_STATUS_ER_FOR < 8 then six (m.rd F.FM_STATUS_ER_FOR) else []
  | .regulator b => axesOfBank b
  | .crs => if m.rd F.FM_STATUS_CRS_FOR < 4 then axesOfBank (m.rd F.FM_STATUS_CRS_FOR) else []
  | .slice b _ => axesOfBank b
  | .pll d => if d = 3 ∨ d = 5 then [] else List.range 48
  | .spl => let d := m.rd F.FM_STATUS_SPL_FOR; if d = 3 ∨ d = 5 ∨ d = 0xF then [] else List.range 48
  | .ref | .rc => List.range 48
  | .none => []

/-- The domain that the loss of a unit stops, if it is a PLL. -/
def Mach.lossDomain (m : Mach) (u : Nat) : Option Nat :=
  match unitKind u with
  | .pll d => some d
  | .spl => some (m.rd F.FM_STATUS_SPL_FOR)
  | .ref | .rc => some 1
  | _ => none

/-- R426: the loss of a unit is not masked. -/
def Mach.unitLost (m : Mach) (u : Nat) : Mach :=
  let axs := (m.lossAxes u).filter fun n => !m.axisOff n
  let mask := (axs.map fun n => 2 ^ n).sum
  let m1 := (m.setBit F.FM_STATUS_UNIT_LOST).post Ev.FM_UNIT_LOST u mask
  let m2 := m1.forAll axs fun m n => m.fault n 9
  match m.lossDomain u with
  | some 1 => m2.each 4 fun m b => m.clockStop b
  | some 3 => m2.each 8 fun m c => m.setStale c
  | some 5 => { m2 with nv := { m2.nv with lost := true } }
  | _ => m2

/-! ### Takeover -/

/-- The bank whose channels an engine's or a regulator's takeover repeats (R416, R417). -/
def tkoBank (u : Nat) : Option Nat :=
  match unitKind u with
  | .engine k => some (k / 2)
  | .regulator b => some b
  | _ => none

/-- R420: whether an engine and a regulator of one bank are both being taken over. -/
def tkoMeets (u v : Nat) : Bool := u != v && (tkoBank u).isSome && tkoBank u == tkoBank v && decide (u < 0x30 ↔ 0x30 ≤ v)

/-- R420: a takeover joins those that run; an engine's and a regulator's of one bank hold the bank's channels together. -/
def tkoJoin (l : List Tko) (u mech ts : Nat) : List Tko :=
  (l.map fun t => if tkoMeets u t.unit then { t with joint := true } else t)
    ++ [{ unit := u, mech := mech, ts := ts, joint := l.any fun t => tkoMeets u t.unit, resumed := [] }]

/-- R422: the conversions in progress of every bank are lost to a swap of the CSA PLL. -/
def Mach.csaSwap (m : Mach) : Mach :=
  m.each 96 fun m K => m.modCoil K fun c => { c with held := c.held.map fun h => { h with lost := true } }

/-- R422: the conversions of the front end in progress end without a result and start again. -/
def Mach.auxSwap (m : Mach) : Mach :=
  m.each 2 fun m k => match (m.conv k).conn with
    | some c => (m.bump F.SF_STATUS_SETTLE_DROP).connect k (m.conv k).idx c
    | none => m

/-- R416, R417, R418, R421, R422: the spare takes the place of a unit. -/
def Mach.spareTakes (m1 : Mach) (u mech : Nat) : Mach :=
  match unitKind u with
  | .engine k => m1.wr F.FM_STATUS_ER_FOR k
  | .regulator b => m1.wr F.FM_STATUS_CRS_FOR b
  | .pll d => ((m1.wr F.FM_STATUS_SPL_FOR d).when (d == 3) (·.auxSwap)).when (d == 2) (·.csaSwap)
  | .ref => m1.modFm fun x => { x with rcRef := true, xtalOk := x.xtalOk && mech != 9 }
  | .slice b s =>
    match m1.spareOf b with
    | some sp => (m1.wr F.CS_SLICE_ROLE 3 b sp).wr F.CS_SLICE_FOR (m1.rd F.CS_SLICE_FOR b s) b sp
    | none => m1
  | _ => m1

/-- R206, R415: the interruption of a takeover begins. Log entry 123 (DEDUCED). -/
def Mach.tkoBegin (m : Mach) (u mech : Nat) : Mach :=
  (m.abortsDue.abortsOverlap.modFm fun x => { x with tkos := tkoJoin x.tkos u mech m.stamp }).spareTakes u mech

/-- R410: the spare that began to stand in for another unit takes the place of `u` instead; a slice's gives back its role first. -/
def Mach.spareMoves (m : Mach) (u mech : Nat) : Mach :=
  let m1 := match unitKind u with
    | .slice b _ => (match (List.range 5).find? fun s => m.rd F.CS_SLICE_ROLE b s == 3 with
      | some sp => m.wr F.CS_SLICE_ROLE 1 b sp
      | none => m)
    | _ => m
  (m1.modFm fun x => { x with tkos := tkoJoin x.tkos u mech m.stamp }).spareTakes u mech

/-- R410: the takeover of another unit of `u`'s kind, with a higher number, that began in the present REF cycle, two timestamp
units long. -/
def Mach.sameCycle (m : Mach) (u : Nat) : Option Tko :=
  m.fm.tkos.find? fun t => decide (t.ts / 2 = m.stamp / 2 ∧ u < t.unit) && m.spareCode t.unit == m.spareCode u && (match unitKind u with
    | .slice b _ => (match unitKind t.unit with | .slice b' _ => b == b' | _ => false)
    | .engine _ | .regulator _ | .pll _ => true
    | _ => false)

/-- R421: FM_CLK.XTAL_OK follows the crystal while the module has its supplies. -/
def Mach.xtalSeen (m : Mach) (ok : Bool) : Mach := if m.dead then m else m.modFm fun x => { x with xtalOk := ok }

/-- R408, R410, R426: a unit is found faulty in RUN. A second slice of a bank whose spare stands in, a unit without a spare
and a spare that stands in are lost; a spare that stands by is retired. Of two units found in one REF cycle the spare takes the lower.
Log entry 87 (DEDUCED). -/
def Mach.unitFault (m : Mach) (u mech : Nat) : Mach :=
  if !m.clk.running || m.unitRetired u then m
  else if m.isStandby u then
    let m1 := (m.retireUnit u).setBit F.FM_STATUS_SPARE_FAIL
    ((m1.post Ev.FM_SPARE_FAIL u mech).setBit F.FM_STATUS_NO_SPARE).post Ev.FM_NO_SPARE u 0
  else if m.hasSpare u then (m.tkoBegin u mech).retireUnit u
  else match m.sameCycle u with
    | some t =>
      let m1 := m.modFm fun x => { x with tkos := x.tkos.filter (·.unit != t.unit) }
      ((m1.spareMoves u mech).retireUnit u).unitLost t.unit
    | none => (m.retireUnit u).unitLost u

/-- R415: the longest interruption of a unit's takeover in timestamp units. -/
def tkoBound (u : Nat) : Nat :=
  match unitKind u with
  | .engine _ => 575
  | .regulator _ => 100
  | .slice _ _ => 25
  | .pll d => if d = 6 then 750 else 20
  | _ => 50

/-- R415, R419: the interruption of a takeover ends after `dur0` timestamp units, at most its bound, in which one channel repeated at
most `rep` periods. Log entries 55 (DEDUCED), 87 (DEDUCED). -/
def Mach.tkoDone (m : Mach) (u dur0 rep : Nat) : Mach :=
  match m.fm.tkos.find? (·.unit == u) with
  | none => m
  | some t =>
    let dur := min dur0 (tkoBound u)
    let m0 := match unitKind u with
      | .engine k => ((List.range 6).map (6 * k + ·)).foldl Mach.erPublish m
      | _ => m
    let m1 := (m0.abortsDue.abortsDelay dur).modFm fun x => { x with tkos := x.tkos.filter (·.unit != u) }
    let m2 := m1.setReg .FM_TKO 0 0 (u % 256 + t.mech % 16 * 2 ^ 8 + t.ts % 2 ^ 48 * 2 ^ 16 + dur % 2 ^ 16 * 2 ^ 64 + rep % 256 * 2 ^ 80)
    let m3 := (m2.bump F.FM_CNT_TKO).post Ev.FM_TAKEOVER u (t.mech % 16 + dur % 2 ^ 16 * 2 ^ 8 + rep % 256 * 2 ^ 24)
    let code := match unitKind u with
      | .slice b s => 5 * b + (((List.range 5).find? fun sp => m.rd F.CS_SLICE_ROLE b sp == 3 && m.rd F.CS_SLICE_FOR b sp == m.rd F.CS_SLICE_FOR b s).getD 4)
      | _ => m.spareCode u
    (m3.setBit F.FM_STATUS_NO_SPARE).post Ev.FM_NO_SPARE code 0

/-- Whether the interruption of a takeover makes channel `K` repeat its compare values (R415 to R418, R420). -/
def Mach.repeating (m : Mach) (K : Nat) : Bool :=
  m.fm.tkos.any fun t => match unitKind t.unit with
    | .engine k => if t.joint then K / 24 == k / 2 else K / 12 == k && !t.resumed.contains (K / 2)
    | .regulator b => K / 24 == b
    | .slice b _ => K / 24 == b
    | _ => false

/-- R409: an audit mismatches; the spare's test vector passes or fails. `axes` are the axes whose position or velocity the
mismatch concerned (R427). -/
def Mach.auditMismatch (m : Mach) (u : Nat) (sparePasses : Bool) (axes : List Nat) : Mach :=
  let on := match unitKind u with
    | .engine _ => m.rb F.FM_CFG_AUDIT_E && m.erFree
    | .regulator _ => m.rb F.FM_CFG_AUDIT_R && m.crsFree
    | _ => false
  if !on || m.dbgHalt then m
  else
    let m1 := m.bump F.FM_CNT_AUDIT_MIS
    if sparePasses then (m1.unitFault u 3).forAll axes fun m n => m.uncertain n
    else m1.unitFault (m1.spareCode u) 3

/-- Whether a channel of a bank has missed its deadline in two consecutive periods (R408). -/
def Mach.missedTwice (m : Mach) (b : Nat) : Bool := (List.range 24).any fun k => decide (2 ≤ (m.coil (24 * b + k)).missed)

/-- Whether a slice's coefficients lie beyond ±64 LSB or ±2 % (R314, R408). -/
def Mach.sliceBeyond (m : Mach) (b s : Nat) : Bool :=
  decide (1024 < (m.rdS F.CS_SLICE_OFS b s).natAbs) || decide (2 * 2 ^ 19 < 100 * (m.rdS F.CS_SLICE_GAIN b s).natAbs)

/-- R408: whether mechanism `mech` checks the unit and what the module holds makes it fire; R409: mechanisms 2 to 4 are suspended
during a debug halt. Mechanism 11 is FM_INJECT's. -/
def Mach.checkFires (m : Mach) (u mech : Nat) : Bool :=
  match mech, unitKind u with
  | 1, .engine _ | 1, .er | 1, .regulator _ | 1, .crs => true
  | 2, .engine _ | 2, .er => !m.dbgHalt
  | 3, .engine _ => m.rb F.FM_CFG_AUDIT_E && m.erFree && !m.dbgHalt
  | 3, .regulator _ => m.rb F.FM_CFG_AUDIT_R && m.crsFree && !m.dbgHalt
  | 4, .regulator b => m.missedTwice b && !m.dbgHalt
  | 4, .crs => decide (m.rd F.FM_STATUS_CRS_FOR < 4) && m.missedTwice (m.rd F.FM_STATUS_CRS_FOR) && !m.dbgHalt
  | 5, .slice _ _ => true
  | 6, .slice b s =>
    m.sliceActive b s && m.rd F.FM_CFG_RESID_MAX != 0 && decide (m.rd F.FM_CFG_RESID_MAX < m.rd F.CS_SLICE_RESID b s)
  | 7, .slice b s => if m.spareOf b = some s then m.sliceBeyond b s else decide (2 ≤ (m.bank b).drift.getD s 0)
  | 8, .pll _ | 8, .spl => true
  | 9, .ref | 9, .rc => true
  | 10, .engine _ | 10, .er | 10, .regulator _ | 10, .crs => true
  | _, _ => false

/-- R408: a check fires and finds a unit faulty. -/
def Mach.checkUnit (m : Mach) (u mech : Nat) : Mach := if m.checkFires u mech then m.unitFault u mech else m

/-- R408: FM_INJECT with its guard. Codes that name no unit with a spare are acknowledged and do nothing more.
Log entry 56 (DEDUCED). -/
def Mach.inject (m : Mach) (v : Nat) : Mach :=
  let u := bitsOf v 0 8
  if bitsOf v 8 8 = 0xA5 ∧ m.rb F.FM_CFG_INJ_EN then (m.post Ev.FM_INJECTED u 0).unitFault u 11
  else m.setBit F.FM_STATUS_INJ_REFUSED

/-! ### Memory errors -/

/-- FM_ECC_LAST. -/
def Mach.eccLast (m : Mach) (dram unc : Bool) (addr : Nat) : Mach :=
  m.setReg .FM_ECC_LAST 0 0 (addr % 2 ^ 40 + b2n dram * 2 ^ 40 + b2n unc * 2 ^ 41 + m.stamp * 2 ^ 48)

/-- R424: a correctable error; `row` is the SRAM row, `reserve` whether the repair reserve has room.
Log entry 58 (DESIGN CHOICE). -/
def Mach.eccCorr (m : Mach) (dram : Bool) (addr row : Nat) (reserve : Bool) : Mach :=
  let k := b2n dram
  let m1 := (if dram then m.bump F.FM_ECC_D_CORR else m.bump F.FM_ECC_S_CORR).eccLast dram false addr
  let due := match vget none m1.fm.corrAt k with | some t => decide (t + 50000000 ≤ m1.absNow) | none => true
  let m2 := if due then
      (m1.modFm fun x => { x with corrAt := vmod x.corrAt k fun _ => some m1.absNow }).post Ev.FM_ECC_CORR (0x50 + k) addr
    else m1
  if dram then m2
  else
    let fresh := m2.fm.rows.filter fun r => decide (m2.hoursSince r.2 < 86400)
    let rest := fresh.filter (·.1 != row)
    if (fresh.filter (·.1 == row)).length + 1 < max 1 (m2.rd F.FM_CFG_ROW_LIM) then
      m2.modFm fun x => { x with rows := (row, m2.clk.hours) :: fresh }
    else
      let m3 := m2.modFm fun x => { x with rows := rest }
      if reserve then
        let u := m3.rd F.FM_ECC_S_UNC
        (m3.wr F.FM_ECC_S_UNC (u % 16 + satInc 15 (u / 16) * 16)).post Ev.FM_ROW_RETIRED 0x50 row
      else (m3.setBit F.FM_STATUS_NO_SPARE).post Ev.FM_NO_SPARE 0x50 0

/-- A ring word that cannot be read retires with 0x80 (R424); `i` counts from the oldest published entry. -/
def Mach.ringWordBad (m : Mach) (q i : Nat) : Mach :=
  match (m.qu q).published[i]? with
  | none => m
  | some w => (m.modQ q fun x => { x with published := x.published.eraseIdx i }).postRetired q w 0x80 m.stamp

/-- R424: the unit that holds the state of engine or regulator `u`: it, or the spare that stands in for it. -/
def Mach.workingUnit (m : Mach) (u : Nat) : Nat :=
  match unitKind u with
  | .engine k => if m.rd F.FM_STATUS_ER_FOR = k then 0x28 else u
  | .regulator b => if m.rd F.FM_STATUS_CRS_FOR = b then 0x34 else u
  | _ => u

/-- R424: an uncorrectable error at a location. A DRAM word keeps it until it is written whole. Log entry 117 (DEDUCED). -/
def Mach.eccUncorr (m : Mach) (loc : EccLoc) (addr : Nat) : Mach :=
  let dram := match loc with | .dram => true | _ => false
  let m0 := if dram then m.bump F.FM_ECC_D_UNC
    else let u := m.rd F.FM_ECC_S_UNC; m.wr F.FM_ECC_S_UNC (u / 16 * 16 + satInc 15 (u % 16))
  let m1 := (m0.eccLast dram true addr).post Ev.FM_ECC_UNCORR (0x50 + b2n dram) addr
  match loc with
  | .axisState n => m1.unitFault (m1.workingUnit (0x20 + n.val / 6)) 10
  | .regState b => m1.unitFault (m1.workingUnit (0x30 + b.val)) 10
  | .checkpoint n => m1.fault n.val 9
  | .ringWord q i => m1.ringWordBad q.val i.val
  | .dram => m1.modFm fun x => { x with badWords := (addr / 16, m1.dramRead (16 * (addr / 16)) 16) :: x.badWords.filter (·.1 != addr / 16) }
  | .other => m1

/-- R425: a scrub pass. The SRAM's shows nowhere; the DRAM's shows its progress, zero at the end of a pass. -/
def Mach.scrub (m : Mach) (dram : Bool) (progress : Nat) : Mach :=
  if !dram || m.rd F.FM_CFG_SCRUB_H == 0 then m
  else
    let m1 := m.wr F.FM_SCRUB_PROGRESS progress
    if progress = 0 then m1.wrap F.FM_SCRUB_PASSES else m1

/-! ### FAULT_N -/

/-- Whether a condition selected in FM_FAULTN.DRIVE holds (R428). -/
def Mach.driveFaultN (m : Mach) : Bool :=
  let d := m.rd F.FM_FAULTN_DRIVE
  (bitOf d 0 && (List.range 48).any fun n => (m.ax n).mode == .fault)
    || (bitOf d 1 && m.rb F.PW_TRIP_STAT_LATCH)
    || (bitOf d 2 && m.rb F.FM_STATUS_UNIT_LOST)
    || (bitOf d 3 && m.rb F.FM_STATUS_NO_SPARE)
    || (bitOf d 4 && m.rb F.HL_STAT_FLOORED)

end Sys2Proof.Machine
end

