-- ==== Sys2Proof/Machine/Power.lean ====
section
/-!
DEFINITION. The supply monitors of the banks (R54 to R60): undervoltage, its recovery, the overvoltage clamp.
-/

namespace Sys2Proof.Machine

/-! ### Undervoltage -/

/-- The monitors act: not in power-on reset, in RESET_N low or in a last gasp. -/
def Mach.monitored (m : Mach) : Bool :=
  !m.dead && m.kn.phase != .resetLow && m.kn.phase != .gasp

/-- R54, R55: the VM of bank `b` is under voltage. -/
def Mach.vmUv (m : Mach) (b vm : Nat) : Mach :=
  if !m.monitored || m.rb F.PW_VMON_STAT_UV_NOW b then m
  else
    let m1 := (((m.testsCut (2 ^ b)).setBit F.PW_VMON_STAT_UV b).setBit F.PW_VMON_STAT_UV_NOW b).bump F.PW_VMON_STAT_UV_CNT b
    let m2 := (m1.clrFld F.PW_VMON_STAT_RESUME_PEND b).post Ev.VM_UV b vm
    let m3 := m2.forAll (axesOfBank b) fun m n =>
      m.modAx n fun a => { a with recovering := none }
    ((m3.modBank b fun x => { x with rampT0 := none }).faultBank b 1).cutBank b

/-- R56: a recovery starts; `mode` is 1 for HOLD and 2 for CONTINUE. -/
def Mach.vmResume (m : Mach) (b mode : Nat) : Mach :=
  let m1 := (m.clrFld F.PW_VMON_STAT_RESUME_PEND b).post Ev.VM_RESUMED b mode
  let m2 := m1.modBank b fun x => { x with rampT0 := some mode }
  m2.forAll (axesOfBank b) fun m n =>
    if (m.ax n).eff == .fault && m.rd F.AX_FAULT_CAUSE n == 1 then
      m.modAx n fun a => { a with recovering := some m.clk.tick }
    else m

/-- R56: VM has recovered for UV_SETTLE. -/
def Mach.vmRecovered (m : Mach) (b : Nat) : Mach :=
  if !m.rb F.PW_VMON_STAT_UV_NOW b then m
  else
    let m1 := (m.clrFld F.PW_VMON_STAT_UV_NOW b).setBit F.PW_VMON_STAT_RESUME_PEND b
    match m1.rd F.PW_VMON_CFG_UV_RESUME b with
    | 1 => m1.vmResume b 1
    | 2 => m1.vmResume b 2
    | _ => m1

/-- R56: RESUME written as one starts the HOLD recovery of a bank whose VM has recovered. -/
def Mach.vmResumeCmd (m : Mach) (b : Nat) : Mach :=
  if m.rb F.PW_VMON_STAT_RESUME_PEND b then m.vmResume b 1 else m

/-- R56: the ramp of a recovering axis has ended: HOLD, or the kept motion continues from rest. -/
def Mach.recoverEnd (m : Mach) (n : Nat) (cont : Bool) : Mach :=
  let a := m.ax n
  if a.recovering.isNone then m
  else
    let ahead := match a.kept with | some k => k.ahead | none => []
    let cmds := match a.kept with | some k => k.cmds | none => []
    let goal : Option (Seg × Retry) := match a.kept with
      | some k => if cont && !a.posUnc && decide (k.mode = .move) then k.seg.map fun g => (g, k.retry) else none
      | none => none
    let B := m.clk.tick + 1
    let s : Kin := { p := a.nxt.p, v := 0, a := 0 }
    let held (m : Mach) : Mach := (m.enterHold n m.clk.tick).modAx n fun a =>
      { a with redDone := true, recovering := none, coast := false
               blankUntil := m.clk.tick + m.rd F.LA_STALL_CFG_BLANK (n / 12) (n % 12) }
    match goal with
    | some (g, r) =>
      let m3 := (held m).modAx n fun a =>
        { a with cmds := cmds, ahead := ahead, kept := none, retry := { r with waiting := false, goal := none } }
      let lim := m3.cmdLim n g.prof
      match g.kind with
      | .velocity => (m3.setVelSeg n B s g.prof lim g.vEnd).modAx n fun a =>
          { a with seg := a.seg.map fun x => { x with status := max x.status g.status } }
      | _ => m3.replanPos n B s g.prof lim (ofFixed 24 g.target) g.status
    | none =>
      -- the commands looked ahead go on: they are taken in the next slot
      let m1 := m.modAx n fun a => { a with kept := a.kept.map fun k => { k with ahead := [] } }
      (held (m1.keptEnd n B)).modAx n fun a => { a with toTake := a.toTake ++ ahead }

/-- R56: the ramp of the recovery of bank `b` has ended. -/
def Mach.vmRampEnd (m : Mach) (b : Nat) : Mach :=
  match (m.bank b).rampT0 with
  | none => m
  | some mode =>
    (m.forAll (axesOfBank b) fun m n => m.recoverEnd n (mode == 2)).modBank b fun x => { x with rampT0 := none }

/-! ### Overvoltage clamp -/

/-- R57: the clamp of bank `b` engages. It acts whenever the internal supplies are up. -/
def Mach.clampOn (m : Mach) (b vm : Nat) : Mach :=
  if m.kn.phase == .off || (m.bank b).clamp || !m.rb F.PW_VMON_CFG_OV_EN b then m
  else
    let m0 := m.modBank b fun x => { x with clamp := true, clampLate := false }
    let m1 := (m0.forAll (axesOfBank b) fun m n => m.modAx n fun a => { a with clampMoved := decide (a.cur.v ≠ 0) }).cutBank b
    (((m1.setBit F.PW_VMON_STAT_OV b).bump F.PW_VMON_STAT_OV_CNT b)).post Ev.VM_OV_CLAMP b vm

/-- R58, R59: the clamp of bank `b` releases after `dur` timestamp units; each bridge brakes on to its next period start. After a timeout
the bank is forced to its safe pattern, unless its axes are OFF by now. -/
def Mach.clampOff (m : Mach) (b dur : Nat) : Mach :=
  if !(m.bank b).clamp then m
  else
    let late := (m.bank b).clampLate && !m.bankOff b
    let m0 := ((m.tailBank b).modBank b fun x => { x with clamp := false, clampLate := false, ovForce := x.ovForce || late })
    let m1 := ((m0.when late (·.forceBank b (m.forced b))).cutBank b).post Ev.VM_OV_RELEASE b dur
    m1.forAll (axesOfBank b) fun m n =>
      if decide (m.periodOf b < 4 * dur) && ((m.ax n).clampMoved || decide ((m.ax n).cur.v ≠ 0)) then m.uncertain n else m

/-- R59: the clamp of bank `b` holds for longer than OV_TMAX; it does so once in an engagement. -/
def Mach.clampTimeout (m : Mach) (b vm : Nat) : Mach :=
  if !(m.bank b).clamp || (m.bank b).clampLate then m
  else
    let m1 := (m.setBit F.PW_VMON_STAT_OV_TIMEOUT b).post Ev.VM_OV_TIMEOUT b vm
    (m1.faultBank b 2).modBank b fun x => { x with clampLate := true }

/-- R59, R284: the forcing of an overvoltage timeout ends once every axis of the bank is OFF. -/
def Mach.ovForceEnd (m : Mach) (b : Nat) : Mach :=
  if (m.bank b).ovForce && m.bankOff b then m.modBank b fun x => { x with ovForce := false } else m

/-- R51: a rail (0 VIO_H, 1 VIO_N, 2 VIO_F) folds back to its current limit. Log entry 15 (DEDUCED). -/
def Mach.vioOverload (m : Mach) (rail : Nat) : Mach :=
  let m1 := m.clrFld (if rail = 0 then F.KN_SUPPLY_VIO_H_GOOD else if rail = 1 then F.KN_SUPPLY_VIO_N_GOOD else F.KN_SUPPLY_VIO_F_GOOD)
  (m1.setBit F.KN_SUPPLY_VIO_OVL).post Ev.VIO_OVERLOAD rail 0

end Sys2Proof.Machine
end

