-- ==== Sys2Proof/Machine/Crypto.lean ====
section
/-!
DEFINITION. The checks of the NVM: CRC-32 of IEEE 802.3 (R107), SHA-256 and ECDSA over P-256 (R114). R107 gives the CRC in
full; the other two are named by the spec and written here from their public standards.
-/

namespace Sys2Proof.Machine

/-! ### CRC-32 -/

/-- `n` steps of the reflected CRC register. -/
def crcSteps : Nat → Nat → Nat
  | 0, c => c
  | n + 1, c => crcSteps n (if c % 2 = 1 then (c / 2) ^^^ 0xEDB88320 else c / 2)

/-- One byte, least significant bit first. -/
def crcByte (c : Nat) (b : Byte) : Nat := crcSteps 8 (c ^^^ b.toNat)

/-- The CRC-32 of a list of bytes (R107). -/
def crc32 (l : List Byte) : Nat := (l.foldl crcByte 0xFFFFFFFF) ^^^ 0xFFFFFFFF

/-! ### SHA-256 -/

/-- The largest `x` with `x ^ k ≤ v`, below `lo + 2 ^ n`, its binary digits tried from the highest. -/
def rootFloor (k v : Nat) : Nat → Nat → Nat
  | 0, lo => lo
  | n + 1, lo => rootFloor k v n (if (lo + 2 ^ n) ^ k ≤ v then lo + 2 ^ n else lo)

/-- The first 32 binary digits after the point of the `k`-th root of `p`, for `p` below 2 ^ (4·k). -/
def rootBits (k p : Nat) : Nat := rootFloor k (p * 2 ^ (32 * k)) 37 0 % 2 ^ 32

/-- The primes below 312: 64 of them. -/
def smallPrimes : List Nat :=
  (List.range 312).filter fun q => decide (2 ≤ q) && (List.range q).all fun d => decide (d < 2) || q % d != 0

/-- Rotation of a 32-bit word to the right. -/
def rotr (n x : Nat) : Nat := (x / 2 ^ n + x % 2 ^ n * 2 ^ (32 - n)) % 2 ^ 32

/-- The exclusive or of three rotations of a word; a fourth argument other than zero replaces the third by a shift. -/
def shaMix (x i j k shift : Nat) : Nat :=
  rotr i x ^^^ rotr j x ^^^ (if shift = 0 then rotr k x else x / 2 ^ shift)

/-- A big-endian number of a list of bytes. -/
def ofBytesBE (l : List Byte) : Nat := l.foldl (fun a b => 256 * a + b.toNat) 0

/-- A little-endian number of a list of bytes. -/
def ofBytesLE : List Byte → Nat
  | [] => 0
  | b :: r => b.toNat + 256 * ofBytesLE r

/-- The first `n` bytes of a number, least significant first. -/
def bytesLE : Nat → Nat → List Byte
  | 0, _ => []
  | n + 1, x => BitVec.ofNat 8 x :: bytesLE n (x / 256)

/-- The words that enter the rounds: the last sixteen, oldest first, from which each further word is made. `n` more words. -/
def shaWords : Nat → List Nat → List Nat
  | 0, _ => []
  | n + 1, last =>
    let w := last.getD 0 0
    let further := (w + shaMix (last.getD 1 0) 7 18 0 3 + last.getD 9 0 + shaMix (last.getD 14 0) 17 19 0 10) % 2 ^ 32
    w :: shaWords n (last.drop 1 ++ [further])

/-- The rounds. The eight words of the state are two shift registers of four, newest first: what a round shifts out of the
first is added to what it shifts into the second. `kw` is each round's constant plus its word. -/
def shaRounds : List Nat → List Nat × List Nat → List Nat × List Nat
  | [], st => st
  | kw :: rest, (up, lo) =>
    let e := lo.getD 0 0
    let u := up.getD 0 0
    let chosen := (e &&& lo.getD 1 0) ||| ((2 ^ 32 - 1 - e) &&& lo.getD 2 0)
    let most := (u &&& up.getD 1 0) ||| ((u ||| up.getD 1 0) &&& up.getD 2 0)
    let inject := lo.getD 3 0 + shaMix e 6 11 25 0 + chosen + kw
    shaRounds rest ((inject + shaMix u 2 13 22 0 + most) % 2 ^ 32 :: up.take 3, (up.getD 3 0 + inject) % 2 ^ 32 :: lo.take 3)

/-- One block of 64 bytes. -/
def shaBlock (h : List Nat) (blk : List Byte) : List Nat :=
  let words := shaWords 64 ((List.range 16).map fun i => ofBytesBE ((blk.drop (4 * i)).take 4))
  let st := shaRounds (List.zipWith (fun q w => rootBits 3 q + w) smallPrimes words) (h.take 4, h.drop 4)
  List.zipWith (fun a b => (a + b) % 2 ^ 32) h (st.1 ++ st.2)

/-- The blocks of a padded message, at most `n` of them. -/
def shaBlocks : Nat → List Nat → List Byte → List Nat
  | 0, h, _ => h
  | n + 1, h, l => if l.isEmpty then h else shaBlocks n (shaBlock h (l.take 64)) (l.drop 64)

/-- SHA-256 as 32 bytes. -/
def sha256 (msg : List Byte) : List Byte :=
  let z := (119 - msg.length % 64) % 64
  let len := (bytesLE 8 (8 * msg.length)).reverse
  let padded := msg ++ [0x80] ++ List.replicate z 0 ++ len
  ((shaBlocks (padded.length / 64 + 1) ((smallPrimes.take 8).map (rootBits 2)) padded).map fun x => (bytesLE 4 x).reverse).flatten

/-! ### ECDSA over P-256 -/

/-- The field prime, the group order, and the coefficient b. -/
def p256p : Nat := 0xffffffff00000001000000000000000000000000ffffffffffffffffffffffff
def p256n : Nat := 0xffffffff00000000ffffffffffffffffbce6faada7179e84f3b9cac2fc632551
def p256b : Nat := 0x5ac635d8aa3a93e7b3ebbd55769886bc651d06b0cc53b0f63bce3c3e27d2604b

/-- The base point. -/
def p256G : Nat × Nat :=
  (0x6b17d1f2e12c4247f8bce6e563a440f277037d812deb33a0f4a13945d898c296,
   0x4fe342e2fe1a7f9b8ee7eb4a7c0f9e162bce33576b315ececbb6406837bf51f5)

/-- `x ^ e` modulo `q`, with `n` binary digits of `e`. -/
def powMod (q : Nat) : Nat → Nat → Nat → Nat
  | 0, _, _ => 1 % q
  | n + 1, x, e => let r := powMod q n (x * x % q) (e / 2); if e % 2 = 1 then r * x % q else r

/-- The inverse modulo a prime. -/
def invMod (q x : Nat) : Nat := powMod q 256 (x % q) (q - 2)

/-- Addition of points of the curve; none is the point at infinity. -/
def p256Add (u v : Option (Nat × Nat)) : Option (Nat × Nat) :=
  match u, v with
  | none, v => v
  | u, none => u
  | some (x1, y1), some (x2, y2) =>
    if x1 = x2 ∧ (y1 + y2) % p256p = 0 then none
    else
      let num := if x1 = x2 then 3 * x1 * x1 + (p256p - 3) else y2 + p256p - y1
      let den := if x1 = x2 then 2 * y1 else x2 + p256p - x1
      let l := num * invMod p256p den % p256p
      let x3 := (l * l + 2 * p256p - x1 - x2) % p256p
      some (x3, (l * (x1 + p256p - x3) + (p256p - y1)) % p256p)

/-- `k` times a point, with `n` binary digits of `k`. -/
def p256Mul : Nat → Nat → Option (Nat × Nat) → Option (Nat × Nat)
  | 0, _, _ => none
  | n + 1, k, q => let r := p256Mul n (k / 2) (p256Add q q); if k % 2 = 1 then p256Add r q else r

/-- Whether a point lies on the curve. -/
def p256On (x y : Nat) : Bool :=
  decide (x < p256p) && decide (y < p256p) && decide ((x * x * x + (p256p - 3) * x + p256b) % p256p = y * y % p256p)

/-- The verification of a signature (r, s) by a public key on a message (R114). -/
def ecdsaVerify (x y r s : Nat) (msg : List Byte) : Bool :=
  if r = 0 ∨ p256n ≤ r ∨ s = 0 ∨ p256n ≤ s ∨ p256On x y = false then false
  else
    let e := ofBytesBE (sha256 msg) % p256n
    let w := invMod p256n s
    match p256Add (p256Mul 256 (e * w % p256n) (some p256G)) (p256Mul 256 (r * w % p256n) (some (x, y))) with
    | none => false
    | some (px, _) => decide (px % p256n = r)

end Sys2Proof.Machine
end

