-- ==== Sys2Proof/Machine/Ledger.lean ====
section
/-!
DEFINITION. The heat ledger (R430 to R435).
-/

namespace Sys2Proof.Machine

/-- Whether an axis counts no loss (R430). -/
def Mach.noLoss (m : Mach) (n : Nat) : Bool := m.axisOff n || (m.ax n).mode == .maquette

/-- The mean over the interval's periods of a sum kept by a coil. -/
def Coil.meanOf (c : Coil) (x : Rat) : Rat := if c.sumN = 0 then 0 else x / c.sumN

/-- R430: the loss of an axis in the interval that ends, in W; `t` is the estimated junction temperature in °C. -/
def Mach.axisLoss (m : Mach) (n : Nat) (t : Rat) : Rat :=
  if m.noLoss n then 0
  else
    let a := m.coil (2 * n)
    let b := m.coil (2 * n + 1)
    let ron := m.ron25 n * (1 + (t - 25) / 240)
    let sq := a.meanOf a.sumSq + b.meanOf b.sumSq
    let ab := a.meanOf a.sumAbs + b.meanOf b.sumAbs
    let f := pwmFreq (m.periodOf (bankOf n))
    2 * ron * sq + m.vm (bankOf n) * ab * ((m.rd F.HL_CFG2_TSW : Nat) : Rat) / 1000000000 * f

/-- R432: the effective cap in W. -/
def Mach.capEff (m : Mach) (tbp : Rat) : Rat :=
  let cap : Rat := (clampNat 1 220 (m.rd F.HL_CFG_CAP) : Nat) / 2
  let knee : Rat := (min 100 (m.rd F.HL_CFG_KNEE) : Nat)
  if tbp ≤ knee then cap else if 150 ≤ tbp then 0 else cap * (150 - tbp) / (150 - knee)

/-- R433: the group of an axis; none for the others. -/
def Mach.heatGroup (m : Mach) (n : Nat) : Option Nat :=
  match (m.ax n).eff with
  | .arming | .hold => some 0
  | .fault => if m.regOn n then some 0 else none
  | .move | .follow | .stop => some (4 - m.rd F.HL_AX_CFG_CLASS n)
  | _ => none

/-- The scale of a group (HL_STATE.S). -/
def Mach.scale (m : Mach) (g : Nat) : Nat := bitsOf (m.rd F.HL_STATE_S) (11 * g) 11

/-- IRUN of an axis. -/
def Mach.irun (m : Mach) (n : Nat) : Nat := min 0x4800 (m.rd F.AX_CUR_IRUN n)

/-- R433: floor_n. -/
def Mach.floorOf (m : Mach) (n : Nat) : Nat := ceilDiv (m.irun n * min 100 (m.rd F.HL_AX_CFG_FLOOR_PCT n)) 100

/-- R433: cap_n at a scale. Log entry 90 (DEDUCED). -/
def Mach.capAt (m : Mach) (n s : Nat) : Nat :=
  let own : Int := if 0 < (m.hax n).ownFall then ((m.irun n : Rat) - (m.hax n).ownFall).floor else m.irun n
  max (m.floorOf n) (min (m.irun n * s / 1024) own.toNat)

/-- The winding temperature of an axis in °C, where its limit is on, its channel has a temperature curve and its data is not
stale for longer than 2 s (R435). -/
def Mach.winding (m : Mach) (n : Nat) : Option Rat :=
  let c := m.rd F.HL_AX_CFG_WCH n
  let cv := m.rd F.SF_CH_CURVE_CURVE c
  if m.rb F.HL_AX_CFG_W_EN n && decide (1 ≤ cv ∧ cv ≤ 9) && decide ((m.hax n).staleRun ≤ 2000) then
    some (ofFixed 8 (signedOf 32 (bitsOf (m.reg .SF_DATA c 0) 0 32)))
  else none

/-- The counts of one axis's intervals with stale winding data (R435). -/
def Mach.staleStep (m : Mach) (n : Nat) : Mach :=
  if !m.rb F.HL_AX_CFG_W_EN n then m.modHax n fun h => { h with staleRun := 0, staleNoted := false }
  else if bitOf (m.reg .SF_DATA (m.rd F.HL_AX_CFG_WCH n) 0) 39 then
    let run := (m.hax n).staleRun + 1
    let m1 := m.modHax n fun h => { h with staleRun := run }
    if 2000 < run ∧ !(m.hax n).staleNoted then
      ((m1.modHax n fun h => { h with staleNoted := true }).setBit F.HL_STAT_W_STALE).post Ev.HL_W_STALE n (m.rd F.HL_AX_CFG_WCH n)
    else m1
  else m.modHax n fun h => { h with staleRun := 0, staleNoted := false }

/-- R435: an axis's own limit, for its estimated temperature `t` and rise `dt`. -/
def Mach.ownStep (m : Mach) (n : Nat) (t dt : Rat) : Mach :=
  let tj : Rat := (min 150 (m.rd F.HL_CFG2_TJ_LIM) : Nat)
  let wl : Rat := (m.rd F.HL_AX_CFG_W_LIM n : Nat)
  let w := m.winding n
  let jHot := decide (tj < t)
  let wHot := match w with | some x => decide (wl < x) | none => false
  let cool := decide (t ≤ tj - 5) && (match w with | some x => decide (x ≤ wl - 5) | none => true)
  let step : Rat := ((m.irun n * max 1 (m.rd F.HL_CFG_STEP) : Nat) : Rat) / 1024
  let h := m.hax n
  let fall := if jHot || wHot then ratMin (m.irun n : Nat) (h.ownFall + step)
    else if cool then ratMax 0 (h.ownFall - step) else h.ownFall
  let jRun := if tj + 8 ≤ t then h.jRun + 1 else 0
  let wRun := if (match w with | some x => decide (wl + 10 ≤ x) | none => false) then h.wRun + 1 else 0
  let m1 := m.modHax n fun h => { h with ownFall := fall, jRun := jRun, wRun := wRun }
  let m2 := (m1.when jHot (·.setBit F.HL_STAT_TJ)).when wHot (·.setBit F.HL_STAT_WIND)
  m2.when (decide (h.ownFall = 0) && decide (0 < fall)) (·.post Ev.HL_OWN_LIMIT n (b2n jHot + 2 * b2n wHot + 2 ^ 16 * (shownU 16 8 dt % 2 ^ 16)))

/-- The members of a group. -/
def Mach.groupMembers (m : Mach) (g : Nat) : List Nat := (List.range 48).filter fun n => m.heatGroup n == some g

/-- Whether every member of a group is at its floor. -/
def Mach.groupFloored (m : Mach) (g : Nat) : Bool :=
  (m.groupMembers g).all fun n => decide (m.capAt n (m.scale g) ≤ m.floorOf n)

/-- R434: every member of a group has reached its floor: one that the last interval left in the group above its floor, by the group's
scale or by its own limit. Log entry 151 (DEDUCED). -/
def Mach.reachesFloor (m : Mach) (g : Nat) : Bool :=
  m.groupFloored g && (m.groupMembers g).any fun n => m.rd F.HL_AX_P_GROUP n == g && !m.rb F.HL_AX_P_FLOOR n

/-- R434: one decision is posted. -/
def Mach.allocPost (m : Mach) (g what : Nat) : Mach :=
  m.post Ev.HL_ALLOC g (m.scale g + what * 2 ^ 11 + m.rd F.HL_STATE_P * 2 ^ 16 + m.rd F.HL_STATE_CAPEFF * 2 ^ 32)

/-- Sets the scale of a group and posts the decisions that follow. -/
def Mach.setScale (m : Mach) (g s : Nat) : Mach :=
  let old := m.scale g
  let m1 := m.wr F.HL_STATE_S (putBits (m.rd F.HL_STATE_S) (11 * g) 11 s)
  let m2 := m1.when (decide (old = 1024 ∧ s < 1024)) (·.allocPost g 0)
  m2.when (decide (old < 1024 ∧ s = 1024)) (·.allocPost g 2)

/-- R434: the allocation at the end of an interval. -/
def Mach.allocate (m : Mach) (p capEff : Rat) : Mach :=
  let hyst : Rat := (max 1 (m.rd F.HL_CFG_HYST) : Nat) / 10
  let step := max 1 (m.rd F.HL_CFG_STEP)
  let pb := m.heat.pbar
  if capEff < pb ∧ capEff < p then
    match (List.range 5).find? fun g => (m.groupMembers g).any fun n => decide (m.floorOf n < m.capAt n (m.scale g)) with
    | some g => m.setScale g (m.scale g - step)
    | none => m
  else if pb < capEff ∧ p < capEff - hyst then
    match ((List.range 5).reverse).find? fun g => decide (m.scale g < 1024) with
    | some g => m.setScale g (min 1024 (m.scale g + step))
    | none => m
  else m

/-- R433: the caps of the next tick; an axis in ESTOP keeps its cap, and other axes carry none. Log entry 90 (DEDUCED). -/
def Mach.capStep (m : Mach) (n : Nat) : Mach :=
  let own := decide (0 < (m.hax n).ownFall)
  match m.heatGroup n with
  | some g =>
    let c := m.capAt n (m.scale g)
    (((m.wr F.HL_AX_STATE_CAP c n).wr F.HL_AX_P_GROUP g n).wr F.HL_AX_P_OWN (b2n own) n).wr F.HL_AX_P_FLOOR (b2n (decide (c ≤ m.floorOf n))) n
  | none =>
    let m1 := if (m.ax n).eff = .estop then m else m.wr F.HL_AX_STATE_CAP 0x4800 n
    ((m1.wr F.HL_AX_P_GROUP 7 n).wr F.HL_AX_P_OWN (b2n own) n).wr F.HL_AX_P_FLOOR 0 n

/-- The caps published by the ledger come into force at a tick boundary (R433). -/
def Mach.heatTick (m : Mach) : Mach := m.each 48 fun m n => m.modHax n fun h => { h with cap := m.rd F.HL_AX_STATE_CAP n }

/-- R439: patina's hour takes an interval; a whole hour of the window leaves its means of T_bp and of P̄.
Log entry 124 (DEDUCED). -/
def Mach.patHour (m : Mach) (tbp pbar : Rat) : Mach :=
  let (t, p, k) := m.heat.hour
  let s : Rat × Rat × Nat := (t + tbp, p + pbar, k + 1)
  if m.hoursSince m.pt.win0 < 3600 * (m.pt.hrs.length + 1) then { m with heat := { m.heat with hour := s } }
  else
    { m with heat := { m.heat with hour := (0, 0, 0) }
             pt := { m.pt with hrs := m.pt.hrs ++ [(s.1 / (s.2.2 : Nat), s.2.1 / (s.2.2 : Nat))] } }

/-- R430 to R435: one interval of the ledger closes; `tbpRaw` is the baseplate sensor, in °C/256. -/
def Mach.ledger (m : Mach) (tbpRaw : Int) : Mach :=
  let tbp := ofFixed 8 tbpRaw
  let shown := unsignedOf 16 (shownS 16 tbpRaw)
  let rthM := ofFixed 12 (m.rd F.HL_THERM_RTH_M : Nat)
  let rthA := ofFixed 12 (m.rd F.HL_THERM_RTH_A : Nat)
  let tauM : Rat := (max 1 (m.rd F.HL_TAU_TAU_M) * 10 : Nat)
  let tauA : Rat := (max 1 (m.rd F.HL_TAU_TAU_A) : Nat)
  let t0 (n : Nat) : Rat := tbp + rthM * m.heat.pbar + rthA * (m.hax n).pn
  let ps := (List.range 48).map fun n => m.axisLoss n (t0 n)
  let p : Rat := (m.rd F.HL_CFG2_PFIX : Nat) / 10 + ps.foldl (· + ·) 0
  let pbar := m.heat.pbar + (p - m.heat.pbar) / tauM
  let m1 : Mach := { m with heat := { m.heat with pbar := pbar } }
  let m2 := m1.each 48 fun m n => m.modHax n fun h => { h with pn := h.pn + (ps.getD n 0 - h.pn) / tauA }
  let m3 := m2.each 96 fun m K => m.modCoil K fun c => { c with sumSq := 0, sumAbs := 0, sumN := 0 }
  let ce := m3.capEff tbp
  let m4 := (((m3.wr F.HL_STATE_P (shownU 16 8 p)).wr F.HL_STATE_PBAR (shownU 16 8 pbar)).wr F.HL_STATE_CAPEFF (shownU 16 8 ce)).wr
    F.HL_STATE_TBP shown
  let m5 := m4.each 48 fun m n =>
    let dt := rthM * pbar + rthA * (m.hax n).pn
    let m1 := (m.wr F.HL_AX_STATE_DTJ (shownU 16 8 dt) n).wr F.HL_AX_P_P (shownU 16 12 (ps.getD n 0)) n
    (m1.staleStep n).ownStep n (tbp + dt) dt
  let m6 := (m5.allocate p ce).each 5 fun m g => m.when (m.reachesFloor g) (·.allocPost g 1)
  let allFloored := (List.range 5).all fun g => m6.groupFloored g
  let m7 := m6.when (decide (ce < pbar) && allFloored) (·.setBit F.HL_STAT_FLOORED)
  let hot := decide (85 < tbp)
  let m8 := m7.when (hot && !m7.heat.tbpNoted) fun m => (m.setBit F.HL_STAT_TBP_HIGH).post Ev.HL_TBP_HIGH 0 shown
  let m9 : Mach := { m8 with heat := { m8.heat with tbpNoted := hot } }
  (m9.each 48 fun m n => m.capStep n).patHour tbp pbar

/-- R431, R433: the ledger at entry to RUN. -/
def Mach.heatRun (m : Mach) : Mach :=
  let m1 : Mach := { m with heat := { Heat.reset with pbar := (m.rd F.HL_CFG2_PFIX : Nat) / 10 } }
  m1.wr F.HL_STATE_S ((List.range 5).map fun g => 1024 * 2 ^ (11 * g)).sum

/-- R435: an axis whose junction has stayed 8 K above its limit for 100 ms, or its winding 10 K above its own for 1 s, takes
fault cause 0x0A. Log entry 57 (DEDUCED). -/
def Mach.thermalFault (m : Mach) (n : Nat) : Mach :=
  let j := decide (100 ≤ (m.hax n).jRun)
  let w := decide (1000 ≤ (m.hax n).wRun)
  if j || w then (m.post Ev.HL_THERMAL n (b2n j + 2 * b2n w)).fault n 0x0A else m

end Sys2Proof.Machine
end

