-- ==== Sys2Proof/Machine/Image.lean ====
section
/-!
DEFINITION. Plinths and images: their layouts, their validity and the choice of a copy (R105 to R114).
-/

namespace Sys2Proof.Machine

/-- A little-endian number of `n` bytes at `a`, from a byte source (R6). -/
def le (g : Nat → Byte) (a : Nat) : Nat → Nat
  | 0 => 0
  | n + 1 => (g a).toNat + 256 * le g (a + 1) n

/-- `n` bytes at `a`. -/
def bytesAt (g : Nat → Byte) (a n : Nat) : List Byte := (List.range n).map fun i => g (a + i)

/-- The flash and the DRAM as byte sources. -/
def Mach.flashB (m : Mach) (a : Nat) : Byte := memGet flashDefault m.flash a
def Mach.dramB (m : Mach) (a : Nat) : Byte := memGet dramDefault m.dram a

/-- The flash address of plinth A or B (R100). -/
def plinthAt (copy : Nat) : Nat := 0x1000 * copy

/-- The byte source of a plinth in the flash. -/
def Mach.plinth (m : Mach) (copy : Nat) (i : Nat) : Byte := m.flashB (plinthAt copy + i)

/-- The fields of a plinth (R105). -/
def plSeq (g : Nat → Byte) : Nat := le g 0x008 4
def plOff (g : Nat → Byte) : Nat := le g 0x00C 4
def plLen (g : Nat → Byte) : Nat := le g 0x010 4
def plCrc (g : Nat → Byte) : Nat := le g 0x014 4
def plProfile (g : Nat → Byte) : Nat := le g 0x018 1
def plSize (g : Nat → Byte) : Nat := le g 0x01A 1
def plGen (g : Nat → Byte) : Nat := le g 0x01B 1
def plSigned (g : Nat → Byte) : Bool := bitOf (le g 0x01C 1) 0
def plSlot (g : Nat → Byte) : Nat := le g 0x01D 1

/-- R106: a valid plinth. Log entry 89 (DEDUCED). -/
def plinthOk (g : Nat → Byte) : Bool :=
  decide (le g 0 4 = 0x504C4E54 ∧ le g 4 2 = 1 ∧ le g 6 2 = 256 ∧ le g 0xFC 4 = crc32 (bytesAt g 0 0xFC)
    ∧ plSeq g ≠ 0xFFFFFFFF
    ∧ plOff g % 0x1000 = 0 ∧ 0x00200000 ≤ plOff g
    ∧ plLen g % 16 = 0 ∧ 0x40 ≤ plLen g ∧ plLen g ≤ 0x04000000
    ∧ plProfile g ≤ 2 ∧ le g 0x019 1 ≤ 31 ∧ 24 ≤ plSize g ∧ plSize g ≤ 30 ∧ 1 ≤ plGen g ∧ plGen g ≤ 3
    ∧ plSlot g ≤ 3 ∧ (le g 0x021 1 = 0 ∨ le g 0x021 1 = 3 ∨ le g 0x021 1 = 4) ∧ le g 0x028 4 ≤ 10000
    ∧ plOff g + plLen g ≤ 2 ^ plSize g)

/-- Whether sequence number `a` is newer than `b` (R108). -/
def newerSeq (a b : Nat) : Bool := decide (0 < signedOf 32 (unsignedOf 32 ((a : Int) - (b : Int))))

/-- The sequence number after another (R117, R125): 0xFFFF_FFFF becomes zero. -/
def nextSeqOf (x : Nat) : Nat := let y := (x + 1) % 2 ^ 32; if y = 0xFFFFFFFF then 0 else y

/-- The bytes of a plinth that a tie compares (R108): all but the image offset and the plinth CRC. -/
def tieBytes (g : Nat → Byte) : List Byte := bytesAt g 0 0x00C ++ bytesAt g 0x010 0xEC

/-- R108: the copy verified first where plinths allow one, and whether there is a tie. -/
def chooseCopy (a b : Nat → Byte) : Option (Nat × Bool) :=
  match plinthOk a, plinthOk b with
  | true, true =>
    if plSeq a = plSeq b then some (0, decide (tieBytes a ≠ tieBytes b))
    else if newerSeq (plSeq a) (plSeq b) then some (0, false)
    else if (plSeq a + 2 ^ 31) % 2 ^ 32 = plSeq b then some (0, false)
    else some (1, false)
  | true, false => some (0, false)
  | false, true => some (1, false)
  | false, false => none

/-! ### Images -/

/-- One entry of a section table (R109), with its place in the table. -/
structure ImgEntry where
  idx : Nat
  sec : Section

/-- Entry `i` of the table. -/
def imgEntry (g : Nat → Byte) (i : Nat) : ImgEntry :=
  let a := 0x40 + 32 * i
  { idx := i
    sec := { ty := le g a 1, flags := le g (a + 1) 1, inst := le g (a + 2) 2, off := le g (a + 4) 4, len := le g (a + 8) 4
             param := le g (a + 12) 4 } }

/-- The table's capacity. Log entry 128 (DEDUCED). -/
def imgCap (g : Nat → Byte) : Nat := le g 6 2

/-- The used entries that are not ignored (R111). -/
def imgEntries (g : Nat → Byte) : List ImgEntry :=
  ((List.range (imgCap g)).map (imgEntry g)).filter fun e => e.sec.ty != 0 && !(decide (6 < e.sec.ty) && !bitOf e.sec.flags 0)

/-- Whether an instance and a type parameter lie in their ranges, and the length fits the type (R110, R111). -/
def sectionOk (s : Section) : Bool :=
  match s.ty with
  | 1 => decide (s.inst ≤ 0xFF ∧ s.param = 0)
  | 2 => decide (s.inst ≤ 255 ∧ s.len % 16 = 0) && (!bitOf s.flags 1 || decide (s.param ≤ 63))
  | 3 => decide (s.inst ≤ 63 ∧ 2 ≤ s.param ∧ s.param ≤ 16777216)
  | 4 => decide (s.inst ≤ 15 ∧ s.param = 0 ∧ s.len = 4096)
  | 5 => decide (s.inst ≤ 15 ∧ (s.param = 5 ∨ s.param = 11))
  | 6 => true
  | _ => false

/-- Whether two sections collide: they overlap, or share a type and an instance. Log entry 129 (DESIGN CHOICE). -/
def collide (a b : Section) : Bool :=
  (decide (a.off < b.off + b.len) && decide (b.off < a.off + a.len)) || (a.ty == b.ty && a.inst == b.inst)

/-- Whether no two sections of a list collide. -/
def noCollision : List Section → Bool
  | [] => true
  | s :: r => r.all (fun t => !collide s t) && noCollision r

/-- R111: the image passes. Log entry 128 (DEDUCED). -/
def imageOk (g : Nat → Byte) (len : Nat) : Bool :=
  let c := imgCap g
  let es := imgEntries g
  decide (le g 0 4 = 0x494D4748 ∧ le g 4 2 = 1 ∧ 1 ≤ c ∧ c ≤ 1024 ∧ le g 8 4 = len ∧ 0x40 + 32 * c ≤ len)
    && es.all (fun e => decide (e.sec.off % 16 = 0 ∧ 0x40 + 32 * c ≤ e.sec.off ∧ e.sec.off + e.sec.len ≤ len) && sectionOk e.sec)
    && noCollision (es.map (·.sec))

/-- R114: the signature of a copy, from its plinth and its image; an unsigned copy passes unless REQUIRE_SIG is set.
Log entry 100 (PRESUMED). -/
def Mach.signatureOk (m : Mach) (p img : Nat → Byte) : Bool :=
  if !plSigned p then !m.otp.reqSig
  else
    let slot := plSlot p
    let key := bytesAt p 0x040 64
    match vget none m.otp.hashes slot with
    | none => false
    | some h =>
      !bitOf m.otp.revoked slot && decide (ofBytesLE (sha256 key) = h)
        && ecdsaVerify (ofBytesLE (key.take 32)) (ofBytesLE (key.drop 32)) (le p 0x080 32) (le p 0x0A0 32)
            (bytesAt p 0 0x40 ++ bytesAt img 0 (plLen p))

end Sys2Proof.Machine
end

