-- ==== Sys2Proof/Machine/Nvm.lean ====
section
/-!
DEFINITION. The NVM controller in operation: flash wear, commits (R116 to R123), calibration sections (R124, R125), host
access (R126), keys (R115) and flash timeouts (R129).
-/

namespace Sys2Proof.Machine

def Mach.modNv (m : Mach) (f : Nvm → Nvm) : Mach := { m with nv := f m.nv }

def Mach.modKn (m : Mach) (f : Kiln → Kiln) : Mach := { m with kn := f m.kn }

/-! ### The flash's pins (R102 to R104) -/

/-- What the module does on the flash's pins, the first act first; the last 64 are kept. Log entry 104 (DEDUCED). -/
def Mach.nvDo (m : Mach) (l : List FlashAct) : Mach := m.modNv fun x => { x with sent := (l.reverse ++ x.sent).take 64 }

/-- The commands of R102 and R103. -/
inductive FlashCmd where
  | read | writeEnable | readStatus | program | erase4 | erase64 | resetEnable | reset
  deriving DecidableEq, Repr

/-- The code of a command with a profile (R102, R103); with profile 2 its second byte is the inverse of its first. -/
def FlashCmd.code (c : FlashCmd) (p : FlashProf) : Nat :=
  let pick (three four octal : Nat) : Nat := if p.code = 2 then octal else if p.addr4 then four else three
  match c with
  | .read => if p.code = 0 then pick 0x03 0x13 0xEE11 else pick 0x0B 0x0C 0xEE11
  | .writeEnable => pick 0x06 0x06 0x06F9
  | .readStatus => pick 0x05 0x05 0x05FA
  | .program => pick 0x02 0x12 0x12ED
  | .erase4 => pick 0x20 0x21 0x21DE
  | .erase64 => pick 0xD8 0xDC 0xDC23
  | .resetEnable => pick 0x66 0x66 0x6699
  | .reset => pick 0x99 0x99 0x9966

/-- The address bytes of a command (R102). -/
def FlashCmd.addrN (c : FlashCmd) (p : FlashProf) : Nat :=
  match c with
  | .read | .program | .erase4 | .erase64 => if p.code = 2 || p.addr4 then 4 else 3
  | _ => 0

/-- The dummy cycles of a command (R102, R103). -/
def FlashCmd.dummy (c : FlashCmd) (p : FlashProf) : Nat :=
  match c with
  | .read => if p.code = 0 then 0 else p.dummy
  | .readStatus => if p.code = 2 then 8 else 0
  | _ => 0

/-- A command as it goes over the pins with a profile. -/
def FlashProf.send (p : FlashProf) (c : FlashCmd) (addr : Nat) (out : List Byte) (nin : Nat) : FlashAct :=
  .xfer { octal := p.code == 2, khz := p.khz, op := c.code p, addrN := c.addrN p, addr := if c.addrN p = 0 then 0 else addr
          dummy := c.dummy p, out := out, nin := nin }

/-- Single-lane transfers without 4-byte addresses, at a rate of NCLK. -/
def FlashProf.single (khz : Nat) : FlashProf := { code := 0, khz := khz, addr4 := false, dummy := 0 }

/-- The profile that a plinth names (R102); `legacy` is the alternative of step 5 (R76). -/
def FlashProf.ofPlinth (g : Nat → Byte) (legacy : Bool) : FlashProf :=
  let c := if legacy then 0 else le g 0x018 1
  { code := c, khz := if c = 0 then 25000 else if c = 1 then 50000 else 100000, addr4 := bitOf (le g 0x01C 1) 1
    dummy := if c = 0 then 0 else le g 0x019 1 }

/-- A write of the flash (R103): write enable, the command, and the poll of the status register that finds it finished.
Log entry 104 (DEDUCED). -/
def Mach.nvWrite (m : Mach) (c : FlashCmd) (a : Nat) (out : List Byte) : Mach :=
  let p := m.nv.prof
  m.nvDo [p.send .writeEnable 0 [] 0, p.send c a out 0, p.send .readStatus 0 [] 1]

/-- A read of the flash in the profile in use (R102). -/
def Mach.nvRead (m : Mach) (a n : Nat) : Mach := m.nvDo [m.nv.prof.send .read a [] n]

/-- R104: reset enable and reset, in octal form and then in single-lane form, and 100 µs; the flash is in single-lane mode.
Log entry 104 (DEDUCED). -/
def Mach.nvReset (m : Mach) (khz : Nat) : Mach :=
  let s := FlashProf.single khz
  let o : FlashProf := { s with code := 2 }
  (m.nvDo [o.send .resetEnable 0 [] 0, o.send .reset 0 [] 0, s.send .resetEnable 0 [] 0, s.send .reset 0 [] 0, .pause 100]).modNv
    fun x => { x with octal := false, prof := s, profOf := none }

/-- R104: the flash enters the profile of a plinth: write enable and the plinth's entry write, in single-lane form, and the
entry wait. A flash that another plinth has put into octal mode is returned from it first. Log entry 104 (DEDUCED). -/
def Mach.nvEnter (m : Mach) (g : Nat → Byte) (legacy : Bool) : Mach :=
  let p := FlashProf.ofPlinth g legacy
  let s := FlashProf.single 25000
  let n := le g 0x021 1
  let entry : FlashAct := .xfer { octal := false, khz := 25000, op := le g 0x020 1, addrN := n, addr := if n = 0 then 0 else le g 0x022 4
                                  dummy := 0, out := bytesAt g 0x026 1, nin := 0 }
  let m1 := m.when m.nv.octal (·.nvReset 25000)
  let m2 := if p.code = 0 then m1
    else m1.nvDo ((if le g 0x020 1 = 0 then [] else [s.send .writeEnable 0 [] 0, entry]) ++ [.pause (le g 0x028 4)])
  m2.modNv fun x => { x with prof := p, octal := p.code == 2 }

/-- R129: after a timeout the flash is reset by NRESET_N and returned to the profile in use. Log entry 104 (DEDUCED). -/
def Mach.nvRecover (m : Mach) : Mach :=
  let legacy := bitOf m.kn.alt 4
  let m1 := (m.nvDo [.resetPulse 10, .pause 100]).modNv fun x => { x with octal := false }
  match m.nv.profOf with
  | some c => (m1.nvEnter (m.plinth c) legacy).modNv fun x => { x with profOf := some c }
  | none => m1

/-- A program of the flash. -/
def Mach.nvProgram (m : Mach) (a : Nat) (l : List Byte) : Mach := (m.nvWrite .program a l).flashProgram a l

/-! ### Erases and wear -/

/-- Whether [a, a + n) of the flash is erased. -/
def Mach.erased (m : Mach) (a n : Nat) : Bool := m.flash.all fun c => decide (c.1 < a ∨ a + n ≤ c.1)

/-- Whether [a, a + n) meets [lo, hi). -/
def meets (a n lo hi : Nat) : Bool := decide (a < hi) && decide (lo < a + n)

/-- R128: the regions of an erase: patina ring, kiln log, calibration sections, image area. -/
def wearRegions (a n : Nat) : List Nat :=
  [(0, meets a n 0x20000 0x100000), (1, meets a n 0x2000 0x20000), (2, meets a n 0x100000 0x120000),
   (3, meets a n 0 0x2000 || meets a n 0x200000 (2 ^ 32))].filterMap fun p => if p.2 then some p.1 else none

/-- R128: an erase that the module issues, whether or not it completes: its command and its count of wear. -/
def Mach.eraseIssue (m : Mach) (a n : Nat) : Mach :=
  (wearRegions a n).foldl (fun m r => m.modNv fun x => { x with wear := vmod x.wear r (· + 1) })
    (m.nvWrite (if n = 0x10000 then .erase64 else .erase4) a [])

/-- An erase that the module issues and that completes. -/
def Mach.erase (m : Mach) (a n : Nat) : Mach := (m.eraseIssue a n).flashErase a n

/-- A program of the kiln log or of the patina ring, within one page. -/
def Mach.ringProgram (m : Mach) (a : Nat) (l : List Byte) : Mach :=
  (m.nvProgram a l).modNv fun x => { x with ringOp := some (a / 256 * 256, 256) }

/-- An erase of a sector of the kiln log or of the patina ring. -/
def Mach.ringErase (m : Mach) (a : Nat) : Mach := (m.erase a 0x1000).modNv fun x => { x with ringOp := some (a, 0x1000) }

/-- `n` bytes that nothing is known of. -/
def Mach.freeBytes (m : Mach) (n : Nat) : List Byte := (List.range n).map fun i => BitVec.ofNat 8 (m.free (100000 + i))

/-- What an interrupted or timed-out operation leaves in [a, a + n): nothing is known of it (R66, R129).
Log entry 91 (DESIGN CHOICE). -/
def Mach.indeterminate (m : Mach) (a n : Nat) : Mach :=
  { m with flash := memPut flashDefault m.flash a (m.freeBytes n) }

/-- R121: what a cut of its erase or of its program leaves of the target plinth's sector: it is erased, or holds a plinth whose CRC
fails, or is complete, as `done` has it. Log entry 91 (DESIGN CHOICE). -/
def Mach.plinthCut (m : Mach) (copy : Nat) (done : Mach) : Mach :=
  match m.free 99999 % 3 with
  | 0 => m.flashErase (plinthAt copy) 0x1000
  | 1 =>
    let l := m.freeBytes 0x1000
    let crc := crc32 (l.take 0xFC)
    let bad := if ofBytesLE ((l.drop 0xFC).take 4) = crc then (crc + 1) % 2 ^ 32 else ofBytesLE ((l.drop 0xFC).take 4)
    { m with flash := memPut flashDefault m.flash (plinthAt copy) (l.take 0xFC ++ bytesLE 4 bad ++ l.drop 0x100) }
  | _ => done

/-- The erases of a range: 64 KB blocks where whole ones fit, 4 KB sectors elsewhere (R120). -/
def eraseOps : Nat → Nat → Nat → List (Nat × Nat)
  | 0, _, _ => []
  | fuel + 1, a, e =>
    if e ≤ a then []
    else if a % 0x10000 = 0 ∧ a + 0x10000 ≤ e then (a, 0x10000) :: eraseOps fuel (a + 0x10000) e
    else (a, 0x1000) :: eraseOps fuel (a + 0x1000) e

/-! ### Calibration sections -/

/-- The address of calibration section A or B. -/
def calAt (c : Nat) : Nat := 0x00100000 + 0x10000 * c

/-- R124: a valid calibration section. -/
def calOk (g : Nat → Byte) : Bool :=
  decide (le g 0 4 = 0x43414C42 ∧ le g 4 2 = 1 ∧ le g 0x10 4 = 0x6700
    ∧ le g 0x1C 4 = crc32 (bytesAt g 0 0x1C ++ bytesAt g 0x20 0x66E0))

/-- R125: the section in use. -/
def Mach.calChoose (m : Mach) : Option Nat :=
  let a (i : Nat) := m.flashB (calAt 0 + i)
  let b (i : Nat) := m.flashB (calAt 1 + i)
  match calOk a, calOk b with
  | true, true =>
    if le a 8 4 = le b 8 4 then (if le b 12 4 ≤ le a 12 4 then some 0 else some 1)
    else if newerSeq (le a 8 4) (le b 8 4) ∨ (le a 8 4 + 2 ^ 31) % 2 ^ 32 = le b 8 4 then some 0
    else some 1
  | true, false => some 0
  | false, true => some 1
  | false, false => none

/-- The 16 bytes of a slice (R316). -/
def Mach.sliceBytes (m : Mach) (b s : Nat) : List Byte :=
  bytesLE 2 (m.rd F.CS_SLICE_OFS b s) ++ bytesLE 2 (m.rd F.CS_SLICE_GAIN b s) ++ bytesLE 1 (m.rd F.CS_SLICE_SKEW b s)
    ++ bytesLE 1 (1 + 2 * b2n (m.rd F.CS_SLICE_ROLE b s == 4)) ++ bytesLE 2 0 ++ bytesLE 4 (((m.bank b).measAt.getD s 0) % 2 ^ 32) ++ bytesLE 4 0

/-- The present calibration data as a section with a sequence number (R124, R125). Log entry 133 (DESIGN CHOICE). -/
def Mach.calBytes (m : Mach) (seq : Nat) : List Byte :=
  let slices := ((List.range 20).map fun k => m.sliceBytes (k / 5) (k % 5)).flatten
  let harm := ((List.range 48).map fun n => bytesLE 512 (vget 0 m.harm n)).flatten
  let char_ := ((List.range 48).map fun n =>
    bytesLE 4 (m.reg .KN_MCHAR_A n 0) ++ bytesLE 4 (m.reg .KN_MCHAR_B n 0) ++ bytesLE 4 (m.reg .KN_MCHAR_S n 0) ++ bytesLE 4 0).flatten
  let body := slices ++ bytesLE 256 m.nv.eyes ++ List.replicate 416 0 ++ harm ++ char_
  let flags := 1 + 2 * b2n m.nv.eyesOk + 4 + 8
  let head := bytesLE 4 0x43414C42 ++ bytesLE 2 1 ++ bytesLE 2 flags ++ bytesLE 4 seq ++ bytesLE 4 (m.clk.hours % 2 ^ 32)
    ++ bytesLE 4 0x6700 ++ bytesLE 8 0
  head ++ bytesLE 4 (crc32 (head ++ body)) ++ body

/-- The valid flags of the calibration sections as NV_CAL_STAT shows them. -/
def Mach.calFlags (m : Mach) : Mach :=
  (m.wr F.NV_CAL_STAT_A_VALID (b2n (calOk fun i => m.flashB (calAt 0 + i)))).wr F.NV_CAL_STAT_B_VALID
    (b2n (calOk fun i => m.flashB (calAt 1 + i)))

/-! ### Commits -/

/-- The copy, or for a calibration write the section, that a commit targets. -/
def Mach.commitTarget (m : Mach) (kind : Nat) : Nat :=
  if kind = 2 then
    (if m.rb F.NV_CAL_STAT_A_VALID || m.rb F.NV_CAL_STAT_B_VALID then 1 - m.rd F.NV_CAL_STAT_COPY else 0)
  else 1 - m.rd F.NV_STATUS_COPY

/-- R120: a refusal. Log entry 132 (DESIGN CHOICE). -/
def Mach.commitRefuse (m : Mach) (kind code : Nat) : Mach :=
  let t := m.commitTarget kind
  let m1 := (m.setBit F.NV_COMMIT_STAT_FAIL).wr F.NV_COMMIT_STAT_CODE code
  let m2 := if m.nv.commit.isSome then m1 else m1.wr F.NV_COMMIT_STAT_TARGET t
  m2.post Ev.NV_COMMIT_FAIL t (code + 1 * 2 ^ 8)

/-- The newest valid sequence number of either plinth (R117), as NV_SEQ shows them. -/
def Mach.newestSeq (m : Mach) : Nat :=
  let a := m.rd F.NV_SEQ_A_SEQ
  let b := m.rd F.NV_SEQ_B_SEQ
  match m.rb F.NV_STATUS_A_VALID, m.rb F.NV_STATUS_B_VALID with
  | true, true => if newerSeq b a then b else a
  | false, true => b
  | _, _ => a

/-- Whether a placement lies in the flash and clear of the in-use image (R118). -/
def Mach.placeOk (m : Mach) (off len : Nat) : Bool :=
  decide (0x00200000 ≤ off ∧ off + len ≤ m.nv.capacity)
    && (match m.nv.inUse with | some (_, o, l) => decide (off + len ≤ o ∨ o + l ≤ off) | none => true)

/-- R118: where an OVERLAY image goes. -/
def Mach.overlayPlace (m : Mach) (target len : Nat) : Option Nat :=
  let p := m.plinth target
  let keep := if plinthOk p && m.placeOk (plOff p) len then some (plOff p) else none
  let next := match m.nv.inUse with | some (_, o, l) => 0x10000 * ceilDiv (o + l) 0x10000 | none => 0x00200000
  match keep with
  | some o => some o
  | none => if m.placeOk next len then some next else if m.placeOk 0x00200000 len then some 0x00200000 else none

/-- Byte `i` of the image that a commit writes: for IMAGE the staged image, for OVERLAY the loaded image with its table entry,
its length and its records replaced (R119). -/
def Mach.commitByte (m : Mach) (c : Commit) (i : Nat) : Byte :=
  if c.kind = 0 then m.dramB (c.src + 0x1000 + i)
  else
    let ea := 0x40 + 32 * c.entry
    let word (a v : Nat) : Byte := BitVec.ofNat 8 (v / 256 ^ (i - a))
    if 8 ≤ i ∧ i < 12 then word 8 c.len
    else if ea ≤ i ∧ i < ea + 32 then
      (if i = ea then 1 else if i = ea + 1 then BitVec.ofNat 8 c.flags else if i = ea + 2 then 0xFF
       else if ea + 4 ≤ i ∧ i < ea + 8 then word (ea + 4) c.ovOff
       else if ea + 8 ≤ i ∧ i < ea + 12 then word (ea + 8) c.ovLen else 0)
    else if i < c.base then m.dramB i
    else if c.ovOff ≤ i ∧ i < c.ovOff + c.ovLen then m.dramB (c.src + (i - c.ovOff))
    else 0

/-- A commit begins to write. Log entry 135 (DESIGN CHOICE). -/
def Mach.commitBegin (m : Mach) (c : Commit) : Mach :=
  let m1 := (m.modNv fun x => { x with commit := some c }).setBit F.NV_COMMIT_STAT_BUSY
  ((m1.wr F.NV_COMMIT_STAT_TARGET c.target).wr F.NV_COMMIT_STAT_PHASE c.phase).wr F.NV_COMMIT_STAT_PROGRESS 0

/-- Whether the state allows a commit of an image (R116): RUN, or kiln hold after step 7. -/
def Mach.commitState (m : Mach) : Bool := m.kn.phase == .run || (m.kn.phase == .hold && bitOf m.kn.done 6)

/-- Whether the low bound and the alignment of NV_COMMIT_SRC hold (R116). -/
def Mach.srcOk (m : Mach) : Bool :=
  let s := m.rd F.NV_COMMIT_SRC_SRC
  decide (s % 0x1000 = 0 ∧ 0x06000000 ≤ s)

/-- R116, R120: NV_COMMIT START with KIND 0, an image staged in the DRAM. -/
def Mach.commitImage (m : Mach) : Mach :=
  let src := m.rd F.NV_COMMIT_SRC_SRC
  let p (i : Nat) := m.dramB (src + i)
  let img (i : Nat) := m.dramB (src + 0x1000 + i)
  if m.rb F.NV_COMMIT_STAT_BUSY then m.commitRefuse 0 0x01
  else if !m.commitState then m.commitRefuse 0 0x0B
  else if !m.srcOk then m.commitRefuse 0 0x05
  else if !plinthOk p then m.commitRefuse 0 0x04
  else if m.sysSize < src + 0x1000 + plLen p then m.commitRefuse 0 0x05
  else if plSeq p ≠ nextSeqOf m.newestSeq then m.commitRefuse 0 0x03
  else if !m.placeOk (plOff p) (plLen p) then m.commitRefuse 0 0x05
  else if crc32 (bytesAt img 0 (plLen p)) ≠ plCrc p then m.commitRefuse 0 0x06
  else if !m.signatureOk p img then m.commitRefuse 0 0x07
  else
    m.commitBegin { kind := 0, auto_ := false, target := m.commitTarget 0, seq := plSeq p, off := plOff p, len := plLen p
                    crc := plCrc p, plinth := bytesAt p 0 256, base := 0, ovOff := 0, src := src, ovLen := 0, entry := 0
                    flags := 0, bytes := [], phase := 2, k := 0 }

/-- Replaces `n` bytes of a list at `a` by a number. -/
def putLE (l : List Byte) (a n v : Nat) : List Byte := l.take a ++ bytesLE n v ++ l.drop (a + n)

/-- R119: the overlay section of the loaded image, with its place in the table. -/
def Mach.overlayEntry (m : Mach) : Option ImgEntry := (imgEntries m.dramB).find? fun e => e.sec.ty == 1 && e.sec.inst == 0xFF

/-- R119, R120: NV_COMMIT START with KIND 1. UNSIGNED is judged at the signature check, LAYOUT at the placement.
Log entries 89 (DEDUCED), 131 (DESIGN CHOICE). -/
def Mach.commitOverlay (m : Mach) : Mach :=
  let src := m.rd F.NV_COMMIT_SRC_SRC
  let len := m.rd F.NV_COMMIT_LEN_LEN
  if m.rb F.NV_COMMIT_STAT_BUSY then m.commitRefuse 1 0x01
  else if !m.commitState then m.commitRefuse 1 0x0B
  else if m.rb F.NV_STATUS_CFG_TIE then m.commitRefuse 1 0x02
  else if !m.srcOk ∨ len % 4 ≠ 0 ∨ len < 4 ∨ 0x00100000 < len ∨ m.sysSize < src + len then m.commitRefuse 1 0x05
  else
    match m.nv.inUse with
    | none => m.commitRefuse 1 0x0B
    | some (cp, _, ilen) =>
      let es := imgEntries m.dramB
      let ov := m.overlayEntry
      let last := match ov with | some o => es.all fun e => decide (e.sec.off ≤ o.sec.off) | none => true
      let free := match ov with
        | some o => some o.idx
        | none => (List.range (imgCap m.dramB)).find? fun i => (imgEntry m.dramB i).sec.ty == 0
      match last, free with
      | true, some e =>
        let base := match ov with | some o => o.sec.off | none => ilen
        let ovOff := 16 * ceilDiv base 16
        let newLen := 16 * ceilDiv (ovOff + len) 16
        let target := m.commitTarget 1
        match if newLen ≤ 0x04000000 then m.overlayPlace target newLen else none with
        | none => m.commitRefuse 1 0x05
        | some off =>
          if m.rb F.NV_STATUS_SIGNED || m.otp.reqSig then m.commitRefuse 1 0x08
          else
            let seq := nextSeqOf m.newestSeq
            let c : Commit :=
              { kind := 1, auto_ := false, target := target, seq := seq, off := off, len := newLen, crc := 0, plinth := []
                base := base, ovOff := ovOff, src := src, ovLen := len, entry := e
                flags := match ov with | some o => o.sec.flags | none => 0
                bytes := [], phase := 2, k := 0 }
            let crc := crc32 (bytesAt (m.commitByte c) 0 newLen)
            let p0 := putLE (putLE (putLE (putLE (bytesAt (m.plinth cp) 0 252) 8 4 seq) 12 4 off) 16 4 newLen) 20 4 crc
            m.commitBegin { c with crc := crc, plinth := p0 ++ bytesLE 4 (crc32 p0) }
      | _, _ => m.commitRefuse 1 0x09

/-- R125: a calibration write begins. -/
def Mach.calBegin (m : Mach) (auto_ : Bool) : Mach :=
  let t := m.commitTarget 2
  let some_ := m.rb F.NV_CAL_STAT_A_VALID || m.rb F.NV_CAL_STAT_B_VALID
  let a := le (fun i => m.flashB (calAt 0 + i)) 8 4
  let b := le (fun i => m.flashB (calAt 1 + i)) 8 4
  let newest := match m.rb F.NV_CAL_STAT_A_VALID, m.rb F.NV_CAL_STAT_B_VALID with
    | true, true => if newerSeq b a then b else a
    | false, true => b
    | _, _ => a
  let seq := if some_ then nextSeqOf newest else 0
  m.commitBegin { kind := 2, auto_ := auto_, target := t, seq := seq, off := calAt t, len := 0x6700, crc := 0, plinth := []
                  base := 0, ovOff := 0, src := 0, ovLen := 0, entry := 0, flags := 0, bytes := m.calBytes seq, phase := 3
                  k := 0 }

/-- R116, R125: NV_COMMIT START with KIND 2. -/
def Mach.commitCal (m : Mach) : Mach :=
  if m.rb F.NV_COMMIT_STAT_BUSY then m.commitRefuse 2 0x01
  else if m.kn.phase != .run then m.commitRefuse 2 0x0B
  else if m.rb F.NV_STATUS_CFG_TIE then m.commitRefuse 2 0x02
  else m.calBegin false

/-- R116: KIND 3. -/
def Mach.commitKind3 (m : Mach) : Mach :=
  if m.rb F.NV_COMMIT_STAT_BUSY then m.commitRefuse 3 0x01 else m.commitRefuse 3 0x0A

/-- R122, R131: TIE_ACK. The copy in use keeps the shared sequence number. -/
def Mach.tieAck (m : Mach) : Mach :=
  if m.rb F.NV_STATUS_CFG_TIE then
    (m.clrFld F.NV_STATUS_CFG_TIE).post Ev.NV_TIE_ACK 0 (if m.rb F.NV_STATUS_COPY then m.rd F.NV_SEQ_B_SEQ else m.rd F.NV_SEQ_A_SEQ)
  else m

/-- R125: the automatic calibration write, at most once per start, while one is due and nothing else is written. -/
def Mach.autoCal (m : Mach) : Mach :=
  if m.kn.phase == .run && m.rb F.NV_CAL_STAT_PENDING && !m.nv.autoDone && m.nv.commit.isNone then
    (m.modNv fun x => { x with autoDone := true }).calBegin true
  else m

/-- The valid flag and the sequence number of a copy as NV_STATUS and NV_SEQ show them. -/
def Mach.showCopy (m : Mach) (copy : Nat) (valid : Bool) (seq : Nat) : Mach :=
  let s := if valid then seq else 0xFFFFFFFF
  if copy = 0 then (m.wr F.NV_STATUS_A_VALID (b2n valid)).wr F.NV_SEQ_A_SEQ s
  else (m.wr F.NV_STATUS_B_VALID (b2n valid)).wr F.NV_SEQ_B_SEQ s

/-- The NVM is idle again; a host operation that waited runs (R126). -/
def Mach.commitIdle (m : Mach) : Mach :=
  ((m.modNv fun x => { x with commit := none }).clrFld F.NV_COMMIT_STAT_BUSY).wr F.NV_COMMIT_STAT_PHASE 0

/-- R125: a failed calibration write leaves its section not valid: where its bytes still pass, the module programs its magic to
zero. Log entry 105 (DESIGN CHOICE). -/
def Mach.calSpoil (m : Mach) (c : Nat) : Mach :=
  if calOk fun i => m.flashB (calAt c + i) then m.nvProgram (calAt c) (bytesLE 4 0) else m

/-- R120, R125: a commit or calibration write fails in its phase. -/
def Mach.commitFail (m : Mach) (c : Commit) (code : Nat) : Mach :=
  let m1 := (m.setBit F.NV_COMMIT_STAT_FAIL).wr F.NV_COMMIT_STAT_CODE code
  let m2 := m1.post Ev.NV_COMMIT_FAIL c.target (code + c.phase * 2 ^ 8)
  let m3 := if c.kind = 2 then (m2.calSpoil c.target).calFlags else m2.showCopy c.target false 0
  m3.commitIdle

/-- R120: a failed read-back; the target plinth is left erased. -/
def Mach.commitBad (m : Mach) (c : Commit) : Mach :=
  (if c.kind = 2 || m.erased (plinthAt c.target) 0x1000 then m else m.erase (plinthAt c.target) 0x1000).commitFail c 0x0C

/-- R120, R122, R125: success. Log entry 134 (DESIGN CHOICE). -/
def Mach.commitOk (m : Mach) (c : Commit) : Mach :=
  let m1 := m.setBit F.NV_COMMIT_STAT_DONE
  let m2 :=
    if c.kind = 2 then
      let w := (m1.calFlags).post Ev.NV_CAL_WRITTEN c.target c.seq
      let w1 := w.clrFld F.NV_CAL_STAT_PENDING
      if c.auto_ then w1 else w1.post Ev.NV_COMMIT_DONE c.target (c.seq + 2 * 2 ^ 32)
    else
      let s := m1.showCopy c.target true c.seq
      let s1 := if c.kind = 0 then s.clrFld F.NV_STATUS_CFG_TIE else s
      let s2 : Mach := { s1 with kn := { s1.kn with otherDone := s1.kn.otherDone || s1.kn.otherFirst == some c.target } }
      s2.post Ev.NV_COMMIT_DONE c.target (c.seq + c.kind * 2 ^ 32)
  m2.commitIdle

/-- A new phase of a commit. -/
def Mach.commitPhase (m : Mach) (c : Commit) (p : Nat) : Mach :=
  ((m.modNv fun x => { x with commit := some { c with phase := p, k := 0 } }).wr F.NV_COMMIT_STAT_PHASE p).wr F.NV_COMMIT_STAT_PROGRESS 0

/-- One more operation of the phase is done; `total` is how many it has. -/
def Mach.commitMore (m : Mach) (c : Commit) (total : Nat) : Mach :=
  (m.modNv fun x => { x with commit := some { c with k := c.k + 1 } }).wr F.NV_COMMIT_STAT_PROGRESS (100 * (c.k + 1) / max 1 total)

/-- The erases of a commit's phase 3. -/
def Commit.erases (c : Commit) : List (Nat × Nat) :=
  let e := 0x1000 * ceilDiv (c.off + c.len) 0x1000
  if c.kind = 2 then (List.range 7).map fun i => (c.off + 0x1000 * i, 0x1000) else eraseOps (c.len / 0x1000 + 2) c.off e

/-- Page `k` of a commit: its offset in the section or image, and its bytes (R120, R125). -/
def Mach.commitPage (m : Mach) (c : Commit) (k : Nat) : Nat × List Byte :=
  if c.kind = 2 then
    (if k < 103 then
       let a := if k = 0 then 0x20 else 0x100 * k
       (a, (c.bytes.drop a).take (0x100 * (k + 1) - a))
     else (0, c.bytes.take 0x20))
  else (256 * k, bytesAt (m.commitByte c) (256 * k) (min 256 (c.len - 256 * k)))

/-- How many pages a commit programs. -/
def Commit.pages (c : Commit) : Nat := if c.kind = 2 then 104 else ceilDiv c.len 256

/-- R120: one erase, program or read-back of a running commit completes. `readOk` says whether a read-back gives the bytes that
were programmed. A calibration write ends by CAL_WRITE_DONE. Without the NVM's clock nothing completes (R426). -/
def Mach.commitOpDone (m : Mach) (readOk : Bool) : Mach :=
  match m.nv.commit with
  | none => m
  | some c =>
    if m.nv.lost then m else
    match c.phase with
    | 2 => (m.erase (plinthAt c.target) 0x1000).commitPhase c 3
    | 3 =>
      let ops := c.erases
      let m1 := match ops[c.k]? with | some (a, n) => m.erase a n | none => m
      if c.k + 1 < ops.length then m1.commitMore c ops.length else m1.commitPhase c 4
    | 4 =>
      let (a, l) := m.commitPage c c.k
      let m1 := m.nvProgram (c.off + a) l
      if c.k + 1 < c.pages then m1.commitMore c c.pages else m1.commitPhase c 5
    | 5 =>
      if c.kind = 2 then m
      else
        let m1 := m.nvRead c.off c.len
        if readOk && decide (crc32 (bytesAt m.flashB c.off c.len) = c.crc) then m1.commitPhase c 6 else m1.commitBad c
    | _ =>
      if c.k = 0 then (m.nvProgram (plinthAt c.target) c.plinth).commitMore c 2
      else
        let m1 := m.nvRead (plinthAt c.target) 256
        if readOk && plinthOk (m.plinth c.target) then m1.commitOk c else m1.commitBad c

/-- The operations of a calibration write that are still due, all at once. -/
def Mach.calRest (m : Mach) (c : Commit) : Mach :=
  let m1 := if c.phase = 3 then (c.erases.drop c.k).foldl (fun m e => m.erase e.1 e.2) m else m
  let from_ := if c.phase = 4 then c.k else 0
  if c.phase = 5 then m1
  else ((List.range c.pages).drop from_).foldl (fun m k => let p := m.commitPage c k; m.nvProgram (c.off + p.1) p.2) m1

/-- R125: a calibration write ends, read back well or not. -/
def Mach.calDone (m : Mach) (readOk : Bool) : Mach :=
  match m.nv.commit with
  | some c =>
    if c.kind ≠ 2 ∨ m.nv.lost then m
    else
      let m1 := (m.calRest c).nvRead c.off c.len
      let c5 := { c with phase := 5 }
      if readOk && calOk (fun i => m1.flashB (c.off + i)) then m1.commitOk c5 else m1.commitFail c5 0x0C
  | none => m

/-! ### Host access -/

/-- R126: whether an operation is refused. -/
def Mach.accRefused (m : Mach) (op addr : Nat) : Bool :=
  let size := match op with | 2 => 0x1000 | 3 => 0x10000 | _ => 16
  let writes := decide (op ≠ 0)
  let inImg := match m.nv.inUse with | some (_, o, l) => meets addr size o (o + l) | none => false
  m.rb F.NV_ACC_CTRL_BUSY || decide (addr % size ≠ 0) || decide (m.nv.capacity < addr + size)
    || (writes && m.kn.phase == .run && (decide (addr < 0x00200000) || inImg))
    || (writes && m.kn.phase != .run && m.kn.phase != .hold)

/-- R126: NV_ACC_CTRL GO with an operation. -/
def Mach.accGo (m : Mach) (op : Nat) : Mach :=
  let a := m.rd F.NV_ACC_ADDR_ADDR
  if m.accRefused op a then m.setBit F.NV_ACC_CTRL_REFUSED
  else
    let d := ((List.range 4).map fun i => m.rd F.NV_ACC_DATA_DATA i * 2 ^ (32 * i)).sum
    (m.modNv fun x => { x with acc := some { op := op, addr := a, data := d } }).setBit F.NV_ACC_CTRL_BUSY

/-- R126: the host operation completes; not while a commit runs. -/
def Mach.accDone (m : Mach) : Mach :=
  match m.nv.acc, m.nv.commit with
  | some x, none =>
    if m.nv.lost then m else
    let m1 := match x.op with
      | 0 => (m.nvRead x.addr 16).each 4 fun m i => m.wr F.NV_ACC_DATA_DATA (m.flashRead (x.addr + 4 * i) 4) i
      | 1 => m.nvProgram x.addr (bytesLE 16 x.data)
      | 2 => m.erase x.addr 0x1000
      | _ => m.erase x.addr 0x10000
    ((m1.modNv fun y => { y with acc := none }).clrFld F.NV_ACC_CTRL_BUSY).setBit F.NV_ACC_CTRL_DONE
  | _, _ => m

/-! ### Timeouts -/

/-- R128, R129: an erase that was issued and did not complete. -/
def Mach.eraseLost (m : Mach) (a n : Nat) : Mach := (m.eraseIssue a n).indeterminate a n

/-- R103, R129: a program that was issued and did not complete leaves its page indeterminate. -/
def Mach.programLost (m : Mach) (a : Nat) (l : List Byte) : Mach := (m.nvWrite .program a l).indeterminate (a / 256 * 256) 256

/-- R129: the operation of a commit in progress stays busy beyond 4 s; `again` says whether the second erase of the target
plinth's sector succeeds. A read-back is no program or erase. -/
def Mach.commitTimeout (m : Mach) (again : Bool) : Mach :=
  match m.nv.commit with
  | none => m
  | some c =>
    if c.phase = 5 ∨ (c.phase = 6 ∧ c.k ≠ 0) then m else
    let m1 := match c.phase with
      | 2 => m.eraseLost (plinthAt c.target) 0x1000
      | 3 => (match c.erases[c.k]? with | some (a, n) => m.eraseLost a n | none => m)
      | 4 => let p := m.commitPage c c.k; m.programLost (c.off + p.1) p.2
      | 6 => m.programLost (plinthAt c.target) c.plinth
      | _ => m
    let m2 := m1.nvRecover
    let m3 := if c.kind = 2 then m2
      else if again then m2.erase (plinthAt c.target) 0x1000 else (m2.eraseLost (plinthAt c.target) 0x1000).nvRecover
    m3.commitFail c 0x0D

/-- R129: a program or an erase of the host stays busy beyond 4 s. -/
def Mach.accTimeout (m : Mach) : Mach :=
  match m.nv.acc with
  | none => m
  | some x =>
    if x.op = 0 then m else
    let m1 := match x.op with
      | 1 => m.programLost x.addr (bytesLE 16 x.data)
      | 2 => m.eraseLost x.addr 0x1000
      | _ => m.eraseLost x.addr 0x10000
    ((m1.nvRecover.modNv fun y => { y with acc := none }).clrFld F.NV_ACC_CTRL_BUSY).setBit F.NV_ACC_CTRL_TIMEOUT

/-- R129: the last program or erase of the kiln log or of the patina ring stays busy beyond 4 s.
Log entry 105 (DESIGN CHOICE). -/
def Mach.ringTimeout (m : Mach) : Mach :=
  match m.nv.ringOp with
  | some (a, n) => ((m.indeterminate a n).modNv fun x => { x with ringOp := none }).nvRecover
  | none => m

/-! ### Keys -/

/-- R115: whether NV_KEY_CMD executes. -/
def Mach.keyAllowed (m : Mach) : Bool := m.kn.phase == .hold || (m.kn.phase == .run && m.allOff)

/-- NV_KEY_STAT as the key store shows it. -/
def Mach.keyShow (m : Mach) : Mach :=
  let prog := ((List.range 4).map fun k => b2n (vget none m.otp.hashes k).isSome * 2 ^ k).sum
  ((m.wr F.NV_KEY_STAT_PROG prog).wr F.NV_KEY_STAT_REVOKED m.otp.revoked).wr F.NV_KEY_STAT_REQUIRE_SIG (b2n m.otp.reqSig)

/-- R115: NV_KEY_DATA goes into a slot that is not programmed. -/
def Mach.keyProgram (m : Mach) (slot : Nat) : Mach :=
  if !m.keyAllowed || (vget none m.otp.hashes slot).isSome then m.setBit F.NV_KEY_STAT_FAIL
  else
    let h := ((List.range 8).map fun i => m.rd F.NV_KEY_DATA_HASH i * 2 ^ (32 * i)).sum
    (({ m with otp := { m.otp with hashes := vmod m.otp.hashes slot fun _ => some h } } : Mach).keyShow).setBit F.NV_KEY_STAT_DONE

/-- R115: a slot is revoked. -/
def Mach.keyRevoke (m : Mach) (slot : Nat) : Mach :=
  if !m.keyAllowed then m.setBit F.NV_KEY_STAT_FAIL
  else (({ m with otp := { m.otp with revoked := m.otp.revoked ||| 2 ^ slot } } : Mach).keyShow).setBit F.NV_KEY_STAT_DONE

/-- R115: REQUIRE_SIG is set. -/
def Mach.keyRequireSig (m : Mach) : Mach :=
  if !m.keyAllowed then m.setBit F.NV_KEY_STAT_FAIL
  else (({ m with otp := { m.otp with reqSig := true } } : Mach).keyShow).setBit F.NV_KEY_STAT_DONE

end Sys2Proof.Machine
end

