-- ==== Sys2Proof/Machine/Patina.lean ====
section
/-!
DEFINITION. Patina (R439 to R446): the measurement window, the passes, the record ring, the plan.
-/

namespace Sys2Proof.Machine

/-! ### The record ring -/

/-- The flash address of slot `k` of the patina ring (R443). -/
def patSlot (k : Nat) : Nat := 0x20000 + 0x800 * (k % 448)

/-- A field of `n` bytes at offset `o` of the record in slot `k`. -/
def Mach.patGet (m : Mach) (k o n : Nat) : Nat := m.flashRead (patSlot k + o) n

/-- R443: a valid record. -/
def Mach.patValid (m : Mach) (k : Nat) : Bool :=
  decide (m.patGet k 0 4 = 0x50544E41 ∧ m.patGet k 4 2 = 1 ∧ m.patGet k 6 2 = 2048)

/-- R443: a closed record: its CRC is also correct. -/
def Mach.patClosed (m : Mach) (k : Nat) : Bool :=
  m.patValid k && m.patGet k 0x7FC 4 == crc32 (memBytes flashDefault m.flash (patSlot k) 0x7FC)

/-- Serial-number order with the tie rules of R94 and R443: `(sequence, hours, place)` of `a` comes after `b`. -/
def laterRec (a b : Nat × Nat × Nat) : Bool :=
  if a.1 ≠ b.1 then newerSeq a.1 b.1 else if a.2.1 ≠ b.2.1 then decide (b.2.1 < a.2.1) else decide (b.2.2 < a.2.2)

/-- R443: the slot of the newest record among those that satisfy `f`. -/
def Mach.patNewestOf (m : Mach) (f : Nat → Bool) : Option Nat :=
  (List.range 448).foldl (fun best k =>
    if !f k then best
    else match best with
      | none => some k
      | some j => if laterRec (m.patGet k 8 4, m.patGet k 12 4, k) (m.patGet j 8 4, m.patGet j 12 4, j) then some k else best) none

/-- R443: the newest valid record. -/
def Mach.patNewest (m : Mach) : Option Nat := m.patNewestOf m.patValid

/-- The closed records, newest first. -/
def Mach.patRecent (m : Mach) : List Nat :=
  match m.patNewest with
  | none => []
  | some k => ((List.range 448).map fun i => (k + 448 - i) % 448).filter m.patClosed

/-- The sequence number of the next record: one above the newest record's, or above that of the last one staged.
Log entry 38 (DESIGN CHOICE). -/
def Mach.patNextSeq (m : Mach) : Nat :=
  match m.pt.staged.getLast? with
  | some r => (ofBytesLE ((r.drop 8).take 4) + 1) % 2 ^ 32
  | none => match m.patNewest with
    | some k => (m.patGet k 8 4 + 1) % 2 ^ 32
    | none => m.free 6900 % 2 ^ 32

/-- A field of axis `n` in the record of slot `k` (R442). -/
def Mach.patAx (m : Mach) (k n o sz : Nat) : Nat := m.patGet k (0x40 + 40 * n + o) sz

/-- The last three closed records with a valid measurand (validity bit `v`) of axis `n`, and with the reference at offset `ref` that it
is compared with (`ref` 0: with none) (R445). Log entry 53 (DEDUCED). -/
def Mach.lastThree (m : Mach) (n v : Nat) (ref : Nat := 0) : List Nat :=
  (m.patRecent.filter fun k => bitOf (m.patAx k n 28 2) v && (ref == 0 || m.patAx k n ref 2 != 0)).take 3

/-! ### Plan -/

/-- The value a field held at the end of step 8 (R444). -/
def Mach.imgVal (m : Mach) (f : Fld) (i : Nat := 0) (j : Nat := 0) : Nat := bitsOf (regGet m.pt.img ⟨f.reg, i, j⟩).toNat f.lo f.width

/-- R445: a plan entry moves to the least alarming of three values when all three lie on one side of it.
Log entry 53 (DEDUCED). -/
def planEntry (cur least : Nat) (ps : List Nat) : Nat :=
  if ps.length = 3 ∧ (ps.all (cur < ·) ∨ ps.all (· < cur)) then least else cur

/-- The least and the largest of a list (0 for none). -/
def listMin (l : List Nat) : Nat := match l with | [] => 0 | x :: r => r.foldl min x
def listMax (l : List Nat) : Nat := l.foldl max 0

/-- R445: the dead-time addition that a delay and its reference call for; both are UQ8.8 ns and a step is 5 ns. -/
def Mach.dtAdd (m : Mach) (delay ref : Nat) : Nat := min (m.rd F.PT_CFG_DT_ADD_MAX) (ceilDiv (delay - ref) 1280)

/-- R445: the current factor that Ron,25 and its reference call for. -/
def Mach.ifac (m : Mach) (ron ref : Nat) : Nat :=
  if ron = 0 then 1024
  else max (ceilDiv (1024 * clampNat 50 100 (m.rd F.PT_CFG_DER_MIN)) 100) (min 1024 (Nat.sqrt (1048576 * ref / ron)))

/-- The plan of an axis as PT_PLAN shows it: DTR_ADD in [7:0], DTF_ADD in [15:8], IFAC in [26:16], VLIM in [47:32].
Log entry 53 (DEDUCED). -/
def Mach.planOf (m : Mach) (n : Nat) : Nat := bitsOf (m.reg .PT_PLAN n 0) 0 48

/-- R445: DEG_MAX as PEAK counts it, in 360°/65,536. -/
def Mach.degMax (m : Mach) : Nat := clampNat 20 120 (m.rd F.PT_CFG2_DEG_MAX) * 65536 / 360

/-- R440 step 3, R445: the plan of axis `n` from the last three closed records. -/
def Mach.planAxis (m : Mach) (n : Nat) : Nat :=
  let cur := m.planOf n
  let rs := (m.lastThree n 1 8).map fun k => m.dtAdd (m.patAx k n 4 2) (m.patAx k n 8 2)
  let fs := (m.lastThree n 1 10).map fun k => m.dtAdd (m.patAx k n 6 2) (m.patAx k n 10 2)
  let is := (m.lastThree n 0 2).map fun k => m.ifac (m.patAx k n 0 2) (m.patAx k n 2 2)
  let ms := m.lastThree n 4
  let vcur := bitsOf cur 32 16
  let streak := decide (ms.length = 3) && ms.all fun k => decide (m.degMax < m.patAx k n 20 2) && m.patAx k n 34 2 == vcur
  let vlim := if streak then 15 * listMin (ms.map fun k => m.patAx k n 22 2) / 16 else vcur
  planEntry (bitsOf cur 0 8) (listMin rs) rs + 2 ^ 8 * planEntry (bitsOf cur 8 8) (listMin fs) fs
    + 2 ^ 16 * planEntry (bitsOf cur 16 11) (listMax is) is + 2 ^ 32 * vlim

/-! ### The pass -/

/-- The window's values of an axis (R439, R442) with their validity bits. -/
structure WinAx where
  valid : BitVec 6
  ron : BitVec 16
  dlyR : BitVec 16
  dlyF : BitVec 16
  ra : BitVec 16
  rb : BitVec 16
  la : BitVec 16
  lb : BitVec 16
  fric : BitVec 16

/-- The window's values on the module (R439, R441) with their validity: bit 0 drift, 1 eye, 3 junction-to-baseplate. -/
structure Window where
  refPpm : BitVec 16
  rcPpm : BitVec 16
  eyeR : BitVec 8
  eyeW : BitVec 8
  rthm : BitVec 16
  valid : BitVec 4
  axes : List WinAx

/-- An axis without a measurement. -/
def patNone : WinAx :=
  { valid := 0, ron := 0, dlyR := 0, dlyF := 0, ra := 0, rb := 0, la := 0, lb := 0, fric := 0 }

/-- The values of axis `n`. -/
def winAx (w : Window) (n : Nat) : WinAx := w.axes.getD n patNone

/-- The mean of what a sum holds. -/
def meanOf (s : Rat × Nat) : Rat := if s.2 = 0 then 0 else s.1 / (s.2 : Nat)

/-- R439: the junction-to-baseplate resistance over the hours with a mean P̄ of 20 W or more: of each the mean of the four die sensors
less the mean T_bp, over the mean P̄; none without such an hour. `hrs` are the means of T_bp and P̄, `dies` those of the sensors. -/
def rthFit (hrs : List (Rat × Rat)) (dies : List (Vector Rat 4)) : Option Rat :=
  let hs := (hrs.zip dies).filter fun h => decide (20 ≤ h.1.2)
  if hs.isEmpty then none
  else some ((hs.map fun h => (h.2.toList.foldl (· + ·) 0 / 4 - h.1.1) / h.1.2).foldl (· + ·) 0 / (hs.length : Nat))

/-- R439: a slow-decay period in quiet mode with |i| ≥ 0.5 A measures Ron,25 from the drop across a conducting low-side FET, by the
law of R430 with T̂_n. Log entry 124 (DEDUCED). -/
def Mach.patRon (m : Mach) (n : Nat) (drop i : Rat) : Mach :=
  let law := 1 + (m.junction n - 25) / 240
  if ratAbs i < 1 / 2 ∨ law ≤ 0 then m
  else m.modOb n fun o => { o with pat := { o.pat with ron := meanAdd o.pat.ron (ratAbs drop / ratAbs i / law) } }

/-- R439: the drift of a count of 25 MHz cycles over 65,536 AON cycles (2 s), in parts of `unit` per 10⁷. -/
def driftOf (count : Nat) (unit : Int) : Int := ((count : Int) - 50000000) / (5 * unit)

/-- R439, R442: the values of axis `n` in the window that closes. Log entry 124 (DEDUCED). -/
def Mach.axisWindow (m : Mach) (w : PatinaWin) (n : Nat) : WinAx :=
  let x := w.axes.getD n { dly := none }
  let p := (m.ob n).pat
  let d := x.dly.getD (0, 0)
  let u (f : Nat) (s : Rat × Nat) : BitVec 16 := BitVec.ofNat 16 (shownU 16 f (meanOf s))
  let micro (s : Rat × Nat) : Rat × Nat := (s.1 * 1000000, s.2)
  { valid := BitVec.ofNat 6 (b2n (p.ron.2 != 0) + 2 * b2n x.dly.isSome + 4 * b2n (p.ra.2 != 0 && p.rb.2 != 0)
      + 8 * b2n (p.la.2 != 0 && p.lb.2 != 0) + 32 * b2n (p.fric.2 != 0))
    ron := u 8 (p.ron.1 * 1000, p.ron.2), dlyR := d.1, dlyF := d.2, ra := u 12 p.ra, rb := u 12 p.rb, la := u 0 (micro p.la), lb := u 0 (micro p.lb)
    fric := u 12 p.fric }

/-- R439, R440 step 1: the window closes. With the RC oscillator as reference the RC is counted instead, and the drift of the
REF, which is then not counted, is free. Log entries 124 (DEDUCED), 155 (DESIGN CHOICE). -/
def Mach.window (m : Mach) (w : PatinaWin) : Window :=
  let rc := m.fm.rcRef
  let rth := rthFit m.pt.hrs w.dies
  { refPpm := if rc then BitVec.ofNat 16 (m.free 6901) else BitVec.ofInt 16 (shownS 16 (driftOf w.refCount 1))
    rcPpm := if rc then BitVec.ofInt 16 (shownS 16 (driftOf w.refCount 10)) else 0x8000
    eyeR := w.eyeR, eyeW := w.eyeW, rthm := BitVec.ofNat 16 (shownU 16 12 (rth.getD 0))
    valid := BitVec.ofNat 4 (3 + 8 * b2n rth.isSome)
    axes := (List.range 48).map (m.axisWindow w) }

/-- R440: the interval between passes in seconds; it is longer once the ring's most-worn sector exceeds 80 % (R445). -/
def Mach.patInterval (m : Mach) : Nat := 3600 * max 1 (m.rd F.PT_CFG3_REC_H)

/-- R439: the least-squares slope of T_bp over P̄ of the minutes logged, in UQ4.12 K/W; none unless P̄ spans 10 W. -/
def rcpFit (l : List (Nat × Nat)) : Option Nat :=
  let ps := l.map fun x => ofFixed 8 (x.2 : Nat)
  let ts := l.map fun x => ofFixed 8 (signedOf 16 x.1)
  let n : Rat := (l.length : Nat)
  match ps with
  | [] => none
  | p :: rest =>
    if rest.foldl ratMax p - rest.foldl ratMin p < 10 then none
    else
      let mp := ps.foldl (· + ·) 0 / n
      let mt := ts.foldl (· + ·) 0 / n
      let sxy := ((ps.zip ts).map fun x => (x.1 - mp) * (x.2 - mt)).foldl (· + ·) 0
      let sxx := (ps.map fun x => (x - mp) * (x - mp)).foldl (· + ·) 0
      some (shownU 16 12 (sxy / sxx))

/-- The estimate of erase operations on the most-worn sector of a region (R445): a number of operations per sector. -/
def Mach.wearOf (m : Mach) (r : Nat) : Rat :=
  ((vget 0 m.nv.wear r : Nat) : Rat) / ((if r = 0 then 224 else if r = 1 then 30 else 2 : Nat) : Rat)

/-- The flash endurance in cycles. -/
def Mach.endur (m : Mach) : Nat := 1000 * max 1 (m.rd F.PT_CFG2_ENDUR)

/-- A region's estimate exceeds 80 % of the endurance. -/
def Mach.wornOut (m : Mach) (r : Nat) : Bool := decide (80 * (m.endur : Rat) < 100 * m.wearOf r)

/-- R440: the hours counter stands at a multiple of the interval between passes. -/
def Mach.patDue (m : Mach) : Bool := m.clk.hours % (m.patInterval * (if m.wornOut 0 then 4 else 1)) == 0

/-- WEAR_PCT: the largest estimate in % of the endurance, UQ8.8. -/
def Mach.wearPct (m : Mach) : Nat :=
  shownU 16 8 (((List.range 4).map m.wearOf).foldl max 0 * 100 / (m.endur : Rat))

/-- A reference: the newest closed record's, or the value found when that record holds none (R442). -/
def carryRef (old new : Nat) : Nat := if old = 0 then new else old

/-- R442: the references of axis `n` (Ron,25; delays rising and falling; friction). -/
def Mach.patRefs (m : Mach) (w : Window) (n : Nat) : Nat × Nat × Nat × Nat :=
  let a := winAx w n
  let old (o : Nat) := match m.patRecent.head? with | some k => m.patAx k n o 2 | none => 0
  let d := vget 0 m.pt.dly10 n
  (carryRef (old 2) (if bitOf a.valid.toNat 0 then a.ron.toNat else 0), carryRef (old 8) (bitsOf d 0 16),
   carryRef (old 10) (bitsOf d 16 16), carryRef (old 26) (if bitOf a.valid.toNat 5 then a.fric.toNat else 0))

/-- The validity bits of an axis entry; the torque margin is valid when the axis moved in the window. -/
def Mach.patValidOf (m : Mach) (w : Window) (n : Nat) : Nat :=
  putBits (winAx w n).valid.toNat 4 1 (b2n (bitOf m.pt.moved n))

/-- R442: the entry of axis `n`, with plan `plan`. -/
def Mach.patEntry (m : Mach) (w : Window) (plan n : Nat) : List Byte :=
  let a := winAx w n
  let (rr, dr, df, fr) := m.patRefs w n
  let two (x : Nat) := bytesLE 2 x
  two a.ron.toNat ++ two rr ++ two a.dlyR.toNat ++ two a.dlyF.toNat ++ two dr ++ two df
    ++ two a.ra.toNat ++ two a.rb.toNat ++ two a.la.toNat ++ two a.lb.toNat
    ++ two (m.rd F.LA_AX_PEAK (n / 12) (n % 12)) ++ two (m.rd F.LA_AX_PEAK_V (n / 12) (n % 12))
    ++ two a.fric.toNat ++ two fr ++ two (m.patValidOf w n)
    ++ bytesLE 1 (bitsOf plan 0 8) ++ bytesLE 1 (bitsOf plan 8 8) ++ two (bitsOf plan 16 11) ++ two (bitsOf plan 32 16)
    ++ List.replicate 4 0xFF

/-- Whether an eye lies below EYE_MIN. -/
def Mach.eyeLow (m : Mach) (w : Window) : Bool :=
  bitOf w.valid.toNat 1
    && (decide (w.eyeR.toNat < m.rd F.PT_CFG2_EYE_MIN) || decide (w.eyeW.toNat < m.rd F.PT_CFG2_EYE_MIN))

/-- The consecutive records with an eye below EYE_MIN, this one included (R441). -/
def Mach.eyeRun (m : Mach) (w : Window) : Nat :=
  let old := match m.patRecent.head? with | some k => bitsOf (m.patGet k 0x3A 2) 0 2 | none => 0
  if !bitOf w.valid.toNat 1 then old else if m.eyeLow w then min 3 (old + 1) else 0

/-- R441: the record of a pass. Reserved bytes stay erased. Log entry 54 (DEDUCED). -/
def Mach.patRecord (m : Mach) (w : Window) (rcp : Option Nat) (plans : List Nat) : List Byte :=
  let valid := putBits w.valid.toNat 2 1 (b2n rcp.isSome)
  let body :=
    bytesLE 4 0x50544E41 ++ bytesLE 2 1 ++ bytesLE 2 2048 ++ bytesLE 4 m.patNextSeq ++ bytesLE 4 (m.clk.hours % 2 ^ 32)
      ++ bytesLE 4 m.kn.startNo ++ bytesLE 4 (m.hoursSince m.pt.win0) ++ bytesLE 2 w.refPpm.toNat ++ bytesLE 2 w.rcPpm.toNat
      ++ bytesLE 1 w.eyeR.toNat ++ bytesLE 1 w.eyeW.toNat ++ bytesLE 2 (rcp.getD 0) ++ bytesLE 2 w.rthm.toNat ++ bytesLE 2 valid
      ++ ((List.range 4).map fun r => bytesLE 4 (vget 0 m.nv.wear r)).flatten
      ++ bytesLE 1 (m.rd F.HL_CFG2_TSW) ++ [0xFF] ++ bytesLE 4 (m.reg .HL_THERM 0 0)
      ++ bytesLE 2 (m.eyeRun w + 4 * b2n ((List.range 4).any m.wornOut)) ++ List.replicate 4 0xFF
      ++ ((List.range 48).map fun n => m.patEntry w (plans.getD n 0) n).flatten ++ List.replicate 60 0xFF
  body ++ bytesLE 4 (crc32 body)

/-- R445: the loop values of one coil, within MCHAR_TOL of the step-12 values; answers the deviations (R, L). -/
def Mach.windAdjust (m : Mach) (n : Nat) (coilB : Bool) (r l : Nat) (rOk lOk : Bool) : Mach × Bool × Bool :=
  let tol := clampNat 5 50 (m.rd F.KN_CFG_MCHAR_TOL)
  let r12 := if coilB then m.rd F.KN_MCHAR_B_R n else m.rd F.KN_MCHAR_A_R n
  let l12 := if coilB then m.rd F.KN_MCHAR_B_L n else m.rd F.KN_MCHAR_A_L n
  let near (x y : Nat) := decide (100 * ((x : Int) - (y : Int)).natAbs ≤ tol * y)
  let fR := if coilB then F.AX_CR_RL_B_R else F.AX_CR_RL_A_R
  let fL := if coilB then F.AX_CR_RL_B_L else F.AX_CR_RL_A_L
  let m1 := if rOk && near r r12 then m.wr fR (shownU 16 0 (r + (toFixed 12 (2 * m.ron n)).toNat : Nat)) n else m
  let m2 := if lOk && near l l12 then m1.wr fL l n else m1
  (m2, rOk && !near r r12, lOk && !near l l12)

/-- R445: AX_CR_RL of an axis at a pass. -/
def Mach.windStep (m : Mach) (w : Window) (n : Nat) : Mach :=
  let a := winAx w n
  let rOk := bitOf a.valid.toNat 2
  let lOk := bitOf a.valid.toNat 3
  let note (m : Mach) (bad : Bool × Bool) (b : Nat) : Mach :=
    if bad.1 || bad.2 then (m.setBit F.PT_STAT_WIND).post Ev.PT_WIND n (b2n bad.1 + 2 * b2n bad.2 + 4 * b) else m
  let (m1, ba) := m.windAdjust n false a.ra.toNat a.la.toNat rOk lOk
  let (m2, bb) := (note m1 ba 0).windAdjust n true a.rb.toNat a.lb.toNat rOk lOk
  note m2 bb 1

/-- A quantity limited to its image value up to 1.25 times that value (R445). -/
def upTo125 (img x : Nat) : Nat := clampNat img (img * 5 / 4) x

/-- R440 step 4, R445: the ledger rows of a pass. -/
def Mach.ledgerRows (m : Mach) (w : Window) : Mach :=
  if !m.rb F.PT_CFG_HL_EN then m
  else
    let m1 := m.each 48 fun m n =>
      if bitOf (winAx w n).valid.toNat 0 then
        { m with ledRon := vmod m.ledRon n fun _ => clampNat (60 * 256) (90 * 256) (winAx w n).ron.toNat }
      else m
    let ds := (List.range 48).filter fun n => bitOf (winAx w n).valid.toNat 1 && (m.patRefs w n).2.1 + (m.patRefs w n).2.2.1 != 0
    let refs := ds.map fun n => let r := m.patRefs w n; r.2.1 + r.2.2.1
    let del := ds.map fun n => (winAx w n).dlyR.toNat + (winAx w n).dlyF.toNat
    let tsw := m.imgVal F.HL_CFG2_TSW
    let m2 := if refs.sum = 0 then m1 else m1.wr F.HL_CFG2_TSW (min 255 (upTo125 tsw (tsw * del.sum / refs.sum)))
    let rm := m.imgVal F.HL_THERM_RTH_M
    let ra := m.imgVal F.HL_THERM_RTH_A
    if bitOf w.valid.toNat 3 then
      let nrm := upTo125 rm w.rthm.toNat
      (m2.wr F.HL_THERM_RTH_M (shownU 16 0 (nrm : Nat))).wr F.HL_THERM_RTH_A
        (shownU 16 0 ((if rm = 0 then ra else upTo125 ra (ra * nrm / rm)) : Nat))
    else m2

/-- A warning of R446: raised once, and again only after a pass without its condition. -/
def Mach.patWarn (m : Mach) (bit : Nat) (cond : Bool) (f : Fld) (code obj data : Nat) : Mach :=
  let m1 := if cond && !bitOf m.pt.noted bit then (m.setBit f).post code obj data else m
  { m1 with pt := { m1.pt with noted := putBits m1.pt.noted bit 1 (b2n cond) } }

/-- The mean friction of the last 24 closed records with a valid value, where there are any (R446). Log entry 54 (DEDUCED). -/
def Mach.meanFric (m : Mach) (n : Nat) : Option Nat :=
  let l := ((m.patRecent.take 24).filter fun k => bitOf (m.patAx k n 28 2) 5).map fun k => m.patAx k n 24 2
  if l.isEmpty then none else some (l.sum / l.length)

/-- R446: the friction warning of axis `n`. -/
def Mach.fricWarn (m : Mach) (w : Window) (n : Nat) : Mach :=
  let ref := (m.patRefs w n).2.2.2
  match m.meanFric n with
  | none => m
  | some f =>
    let cond := decide (0 < ref) && decide (ref * (100 + m.rd F.PT_CFG3_FRIC_PCT) < 100 * f)
    let m1 := if cond && !bitOf m.pt.fricNoted n then
      (m.setBit F.PT_STAT_FRIC).post Ev.PT_FRICTION n (f + 2 ^ 16 * ref) else m
    { m1 with pt := { m1.pt with fricNoted := putBits m1.pt.fricNoted n 1 (b2n cond) } }

/-- R446: the warnings of a pass. -/
def Mach.patWarnings (m : Mach) (w : Window) (rcp : Option Nat) : Mach :=
  let osc := !m.fm.rcRef && decide (10 * m.rd F.PT_CFG2_OSC_PPM < (signedOf 16 w.refPpm.toNat).natAbs)
  let m1 := m.patWarn 0 osc F.PT_STAT_OSC Ev.PT_OSC_DRIFT 0 w.refPpm.toNat
  let m2 := m1.each 4 fun m r => m.patWarn (1 + r) (m.wornOut r) F.PT_STAT_WEAR Ev.PT_WEAR r m.wearPct
  let m3 := m2.patWarn 5 (m.eyeLow w) F.PT_STAT_EYE_LOW Ev.PT_EYE_LOW 0 (w.eyeR.toNat + 256 * w.eyeW.toNat)
  let m4 := match rcp with
    | some r => m3.patWarn 6 (decide (m.rd F.PT_CFG3_RCP_WARN < r)) F.PT_STAT_CP Ev.PT_COLDPLATE 0 r
    | none => m3.patWarn 6 false F.PT_STAT_CP Ev.PT_COLDPLATE 0 0
  m4.each 48 fun m n => m.fricWarn w n

/-- PT_MOD, PT_AX and PT_PLAN after a pass. -/
def Mach.patShow (m : Mach) (w : Window) (rcp : Option Nat) (plans : List Nat) : Mach :=
  let m1 := m.setReg .PT_MOD 0 0 (w.refPpm.toNat + 2 ^ 16 * w.rcPpm.toNat + 2 ^ 32 * w.eyeR.toNat + 2 ^ 40 * w.eyeW.toNat
    + 2 ^ 48 * rcp.getD 0 + 2 ^ 64 * w.rthm.toNat + 2 ^ 80 * m.wearPct + 2 ^ 96 * putBits w.valid.toNat 2 1 (b2n rcp.isSome))
  m1.each 48 fun m n =>
    let a := winAx w n
    let plan := plans.getD n 0
    let m2 := m.setReg .PT_AX n 0 (a.ron.toNat + 2 ^ 16 * a.dlyR.toNat + 2 ^ 32 * a.dlyF.toNat + 2 ^ 48 * a.ra.toNat
      + 2 ^ 64 * a.rb.toNat + 2 ^ 80 * a.la.toNat + 2 ^ 96 * a.lb.toNat + 2 ^ 112 * a.fric.toNat)
    m2.setReg .PT_PLAN n 0 (plan + 2 ^ 48 * b2n (plan == vget 0 m.pt.applied n) + 2 ^ 64 * m.patValidOf w n)

/-- R440: a patina pass on what the window has measured. -/
def Mach.patinaPass (m : Mach) (win : PatinaWin) : Mach :=
  if !m.rb F.PT_CFG_EN || m.kn.phase != .run then m
  else
    let w := m.window win
    let rcp := rcpFit m.pt.mins
    let plans := (List.range 48).map m.planAxis
    let rec_ := m.patRecord w rcp plans
    let m1 := m.patShow w rcp plans
    let m2 := m1.when ((List.range 48).any fun n => plans.getD n 0 != vget 0 m.pt.applied n) (·.setBit F.PT_STAT_PLAN_CHG)
    let m3 := (m2.each 48 fun m n => m.windStep w n).ledgerRows w
    let m4 := (m3.patWarnings w rcp).wrap F.PT_STAT_PASSES
    let m5 := m4.each 48 fun m n =>
      ((m.clrFld F.LA_AX_PEAK (n / 12) (n % 12)).clrFld F.LA_AX_PEAK_V (n / 12) (n % 12)).modOb n fun o =>
        { o with pat := { PatAcc.reset with rest := o.pat.rest } }
    { m5 with heat := { m5.heat with hour := (0, 0, 0) }, pt := { m5.pt with win0 := m.clk.hours, moved := 0, hrs := [], staged := m5.pt.staged ++ [rec_] } }

/-- R445: PT_CTRL.CLR_LIMITS. -/
def Mach.clrLimits (m : Mach) : Mach := m.each 48 fun m n => m.clrFld F.PT_PLAN_VLIM n

/-- R439: a minute of T_bp and P̄; the last 24 hours are kept. Log entries 54 (DEDUCED), 111 (DESIGN CHOICE). -/
def Mach.patMinute (m : Mach) : Mach :=
  { m with pt := { m.pt with mins := ((m.rd F.HL_STATE_TBP, m.rd F.HL_STATE_PBAR) :: m.pt.mins).take 1440 } }

/-- R443: the record at the head of those staged has been programmed, or could not be. Log entry 156 (DESIGN CHOICE). -/
def Mach.patWritten (m : Mach) (ok : Bool) : Mach :=
  match m.pt.staged with
  | [] => m
  | r :: rest =>
    let seq := ofBytesLE ((r.drop 8).take 4)
    let m0 : Mach := { m with pt := { m.pt with staged := rest } }
    if !ok || m.nv.lost then (m0.setBit F.PT_STAT_REC_FAIL).post Ev.PT_RECORD_FAIL 0 seq
    else
      let k := match m.patNewest with | some k => (k + 1) % 448 | none => 0
      let m1 := ((List.range 8).map fun i => (256 * i, if i < 7 then 256 else 252)).foldl
        (fun m p => m.ringProgram (patSlot k + p.1) ((r.drop p.1).take p.2)) m0
      let m2 := m1.ringProgram (patSlot k + 0x7FC) (r.drop 0x7FC)
      let m2 := if k % 2 = 1 then m2.ringErase (patSlot (k + 1)) else m2
      m2.post Ev.PT_RECORD 0 seq

/-! ### Step 14 -/

/-- R444, R445: a plan entry applied to the registers of its axis at step 14. -/
def Mach.planApply (m : Mach) (n plan : Nat) : Mach :=
  let b := n / 12
  let j := n % 12
  let m1 := if m.rb F.PT_CFG_DT_EN then
      (m.wr F.PW_DT_DT_R (min 255 (m.imgVal F.PW_DT_DT_R b j + min (m.rd F.PT_CFG_DT_ADD_MAX) (bitsOf plan 0 8))) b j).wr
        F.PW_DT_DT_F (min 255 (m.imgVal F.PW_DT_DT_F b j + min (m.rd F.PT_CFG_DT_ADD_MAX) (bitsOf plan 8 8))) b j
    else m
  let m2 := if m.rb F.PT_CFG_DER_EN then
      let f := max (ceilDiv (1024 * clampNat 50 100 (m.rd F.PT_CFG_DER_MIN)) 100) (min 1024 (bitsOf plan 16 11))
      m1.wr F.AX_CUR_IRUN (m.imgVal F.AX_CUR_IRUN n * f / 1024) n
    else m1
  if m.rb F.PT_CFG_SPD_EN && bitsOf plan 32 16 != 0 then
    m2.each 7 fun m k =>
      let v := m.imgVal F.AX_PROF_VMAX n k
      m.wr F.AX_PROF_VMAX (max (ceilDiv (v * clampNat 25 100 (m.rd F.PT_CFG_SPD_MIN)) 100) (min v (bitsOf plan 32 16 * 256 * 512))) n k
  else m2

/-- R74: a unit failure of this start is recorded: the unit, the step, the unit code. -/
def Mach.unitNote (m : Mach) (unit s code : Nat) : Mach := m.modKn fun k => { k with units := k.units ++ [(unit, s, code)] }

/-- R73 step 14: the newest patina record, where it is closed, gives the plan of this start. -/
def Mach.patStart (m : Mach) : Mach :=
  match m.patNewest with
  | none => m
  | some k =>
    if !m.patClosed k then m.unitNote 0 14 0x2A
    else m.each 48 fun m n =>
      let plan := m.patAx k n 30 1 + 2 ^ 8 * m.patAx k n 31 1 + 2 ^ 16 * bitsOf (m.patAx k n 32 2) 0 11 + 2 ^ 32 * m.patAx k n 34 2
      let m1 := m.planApply n plan
      let m2 := m1.setReg .PT_PLAN n 0 (plan + 2 ^ 48 + 2 ^ 64 * bitsOf (m.patAx k n 28 2) 0 6)
      let m3 : Mach := { m2 with pt := { m2.pt with applied := vmod m2.pt.applied n fun _ => plan } }
      if m1.regs = m.regs then m3
      else m3.post Ev.PT_REPLAN n (bitsOf plan 0 27 + 2 ^ 32 * bitsOf plan 32 16)

/-- R443: the cumulative erase counts that the newest closed record holds. -/
def Mach.patWear (m : Mach) : Mach :=
  match m.patRecent.head? with
  | none => m
  | some k => (List.range 4).foldl (fun m r => m.modNv fun x => { x with wear := vmod x.wear r fun _ => m.patGet k (0x24 + 4 * r) 4 }) m

/-- R445: an eye below EYE_MIN in three consecutive records calls for the alternative of step 6. -/
def Mach.patSlow (m : Mach) : Bool :=
  match m.patRecent.head? with
  | none => false
  | some k => bitsOf (m.patGet k 0x3A 2) 0 2 == 3

end Sys2Proof.Machine
end

