-- ==== Sys2Proof/Machine/Strata.lean ====
section
/-!
DEFINITION. The strata recorder (R447 to R455): chunks, frames, selection and rate, triggers and layers.
-/

namespace Sys2Proof.Machine

def Mach.modSt (m : Mach) (f : Strata → Strata) : Mach := { m with st := f m.st }

/-! ### Chunks -/

/-- R447: the number of chunks. -/
def Mach.chunkCount (m : Mach) : Nat := (2 ^ 32 - m.sysSize) / 2 ^ 20

/-- R447: the DRAM offset of chunk `c`. -/
def Mach.chunkBase (m : Mach) (c : Nat) : Nat := m.sysSize + 2 ^ 20 * c

/-- The chunk that holds DRAM offset `o`. -/
def Mach.chunkOf (m : Mach) (o : Nat) : Nat := (o - m.sysSize) / 2 ^ 20

/-- A chunk is frozen or pinned. -/
def Strata.isHeld (s : Strata) (c : Nat) : Bool := s.held.any (·.1 == c)

/-- R448: the first chunk at or after index `c`, modulo the count, that is neither frozen nor pinned. -/
def Mach.freeChunk (m : Mach) (c : Nat) : Nat :=
  let n := m.chunkCount
  (((List.range n).map fun i => (c + i) % n).find? fun k => !m.st.isHeld k).getD c

/-- R448: the ring is empty. -/
def Mach.stEmpty (m : Mach) : Mach :=
  let m1 := m.modSt fun s =>
    { s with chunk := m.freeChunk 0, word := 0, seq := 0, ring := [], frames := [], prev := none, marks := [], samples := [], gapNext := false
             evtFrom := m.rings.evtWr }
  m1.setReg .ST_WR 0 0 (m1.chunkBase m1.st.chunk + 16)

/-- The DRAM offset of the next frame word. -/
def Mach.stOfs (m : Mach) : Nat := m.chunkBase m.st.chunk + 16 * max 1 m.st.word

/-- A strata word (R449). -/
def stWord (kind obj payload : Nat) : Nat := kind % 16 * 2 ^ 124 + obj % 64 * 2 ^ 118 + payload % 2 ^ 118

/-- R448, R449: the ring takes its present chunk: its header is written; what it held before is gone. -/
def Mach.chunkBegin (m : Mach) (ts : Nat) : Mach :=
  let s := m.st
  let m1 := m.dramWrite (m.chunkBase s.chunk) 16 (stWord 0xE 0 (s.seq % 2 ^ 32 + 2 ^ 32 * s.prev.getD 0xFFFFFF + 2 ^ 56 * ts))
  m1.modSt fun s =>
    { s with word := 1, ring := s.ring.filter (· != s.chunk) ++ [s.chunk]
             frames := s.frames.filter fun f => m.chunkOf f.2.1 != s.chunk
             held := match s.cap with | some c => (s.chunk, c.layer) :: s.held | none => s.held }

/-- R448: the ring goes on in the next chunk; a chunk that has filled gets its link. Log entry 93 (DEDUCED). -/
def Mach.chunkNext (m : Mach) (full : Bool) : Mach :=
  let s := m.st
  let nx := m.freeChunk ((s.chunk + 1) % m.chunkCount)
  let m1 := if full then m.dramWrite (m.chunkBase s.chunk + 16 * 65535) 16 (stWord 0xD 0 nx) else m
  m1.modSt fun s => { s with chunk := nx, word := 0, seq := s.seq + 1, prev := some s.chunk }

/-- One frame word enters the ring. -/
def Mach.stPut (m : Mach) (ts w : Nat) : Mach :=
  let m1 := if m.st.word = 0 then m.chunkBegin ts else m
  let m2 := m1.dramWrite (m1.chunkBase m1.st.chunk + 16 * m1.st.word) 16 w
  let m3 := m2.modSt fun s => { s with word := s.word + 1 }
  if m3.st.word = 65535 then m3.chunkNext true else m3

/-! ### Words -/

/-- Whether kind `k` selects object `o` at boundary or period number `t` (R451). -/
def Mach.stPicks (m : Mach) (k o t : Nat) : Bool :=
  bitOf (m.rd F.ST_SEL_MASK k) o && t % 2 ^ m.rd F.ST_SEL_DEC k == 0

/-- The axis is in MAQUETTE (R166, R449). -/
def Mach.inMaq (m : Mach) (n : Nat) : Nat := b2n ((m.ax n).mode == .maquette)

/-- MOTION of axis `n`: what AX_STATE, LA_AX and AX_COIL show (R450). -/
def Mach.motionWord (m : Mach) (n : Nat) : Nat :=
  let w := (m.ax n).snapState.toNat
  let la := m.reg .LA_AX (n / 12) (n % 12)
  stWord 0 n (bitsOf w 16 40 + 2 ^ 40 * unsignedOf 24 (signedOf 48 (bitsOf w 64 48) / 65536) + 2 ^ 64 * bitsOf la 0 16
    + 2 ^ 80 * m.rd F.AX_COIL_IAMP n + 2 ^ 96 * bitsOf w 112 4 + 2 ^ 100 * m.rd F.AX_COIL_LEVEL n + 2 ^ 103 * m.rd F.AX_COIL_MODE_A n
    + 2 ^ 104 * m.rd F.AX_COIL_MODE_B n + 2 ^ 105 * bitsOf la 16 1 + 2 ^ 106 * bitsOf la 23 1 + 2 ^ 107 * bitsOf w 121 1
    + 2 ^ 108 * m.inMaq n + 2 ^ 109 * bitsOf la 17 2)

/-- Tag bits [20:12] of a coil's samples, OR over them (R310). -/
def Coil.tagBits (c : Coil) : Nat := c.samples.foldl (fun t s => t ||| bitsOf s.tag 12 9) 0

/-- A value in Q4.12. -/
def q412 (x : Rat) : Nat := unsignedOf 16 (satSigned 16 (toFixed 12 x))

/-- CURRENT of axis `n`: its targets and its used address are those that AX_COIL shows (R450). -/
def Mach.currentWord (m : Mach) (n : Nat) : Nat :=
  let a := m.coil (2 * n)
  let b := m.coil (2 * n + 1)
  stWord 1 n (q412 a.im + 2 ^ 16 * q412 b.im + 2 ^ 32 * m.rd F.AX_COIL_TGT_A n + 2 ^ 48 * m.rd F.AX_COIL_TGT_B n
    + 2 ^ 64 * m.rd F.AX_COIL_ADDR n + 2 ^ 80 * (a.tagBits ||| b.tagBits) + 2 ^ 89 * (m.ob n).ilf % 2 ^ 105 + 2 ^ 105 * m.inMaq n)

/-- SAMPLES of a coil's period that has just ended. -/
def Mach.samplesWord (m : Mach) (K : Nat) : Nat :=
  let n := K / 2
  let c := m.coil K
  let v (kind : Nat) : Nat := match c.sample kind with | some s => q412 s.val | none => 0
  let p (kind : Nat) : Nat := match c.sample kind with | some s => unsignedOf 16 (satSigned 16 (toFixed 8 s.val)) | none => 0
  stWord 2 n (v 0 + 2 ^ 16 * v 1 + 2 ^ 32 * v 2 + 2 ^ 48 * v 3 + 2 ^ 64 * p 4 + 2 ^ 80 * p 5 + 2 ^ 96 * c.tagBits
    + 2 ^ 105 * b2n (isCoilB K) + 2 ^ 106 * b2n c.tag.strong + 2 ^ 107 * b2n c.tag.low + 2 ^ 108 * c.tag.level + 2 ^ 111 * m.inMaq n)

/-- R450, R451: a coil's period has ended; a selected one leaves a SAMPLES word for the next frame. -/
def Mach.stPeriod (m : Mach) (K : Nat) : Mach :=
  if m.st.on && m.stPicks 2 (K / 2) (m.coil K).index then
    m.modSt fun s => { s with samples := s.samples ++ [BitVec.ofNat 128 (m.samplesWord K)] }
  else m

/-- FEEDBACK of port `p`. -/
def Mach.feedbackWord (m : Mach) (p : Nat) : Nat :=
  stWord 3 p (bitsOf (m.rd F.FB_STATE_POS p) 16 48 + 2 ^ 48 * m.rd F.FB_STATE_SPD p + 2 ^ 96 * bitsOf (m.reg .FB_STAT p 0) 0 8
    + 2 ^ 104 * (m.rd F.FB_ERR_QERR_CNT p % 256))

/-- PATH of armature `g`. -/
def Mach.pathWord (m : Mach) (g : Nat) : Nat := stWord 4 g (bitsOf (m.reg .GR_PATH g 0) 0 112)

/-- MARK (R449). -/
def markWord (q ident user tag freeze : Nat) : Nat :=
  stWord 5 q (ident % 256 + 2 ^ 8 * (user % 2 ^ 48) + 2 ^ 56 * (tag % 2 ^ 16) + 2 ^ 72 * freeze)

/-- EVENT of an event record (R199, R449). -/
def eventFrameWord (w : Word) : Nat :=
  stWord 6 0 (bitsOf w.toNat 112 16 + 2 ^ 16 * bitsOf w.toNat 104 8 + 2 ^ 24 * bitsOf w.toNat 0 48 + 2 ^ 72 * bitsOf w.toNat 48 32)

/-- The event records posted since number `from_`, oldest first. -/
def Mach.eventsSince (m : Mach) (from_ : Nat) : List Word :=
  (m.rings.evt.take ((m.rings.evtWr + 2 ^ 32 - from_) % 2 ^ 32)).reverse

/-! ### Frames -/

/-- SAMPLES words by axis, coil a before coil b (R450). -/
def sortSamples (l : List Word) : List Word :=
  ((List.range 96).map fun K => l.filter fun w => 2 * bitsOf w.toNat 118 6 + bitsOf w.toNat 105 1 == K).flatten

/-- R450: the words of the frame of boundary `t` but for its header, and whether marks or events were omitted. -/
def Mach.frameWords (m : Mach) (t : Nat) : List Nat × Bool :=
  let me := m.st.marks.map (·.toNat) ++ (m.eventsSince m.st.evtFrom).map eventFrameWord
  let sel (k n : Nat) := (List.range n).filter fun o => m.stPicks k o t
  (me.take 8 ++ (sel 0 48).map m.motionWord ++ (sel 1 48).map m.currentWord ++ (sortSamples m.st.samples).map (·.toNat)
    ++ (sel 3 12).map m.feedbackWord ++ (sel 4 16).map m.pathWord, decide (8 < me.length))

/-- A pending capture concerns boundary `t`. -/
def Mach.inSpan (m : Mach) (t : Nat) : Option Capture :=
  match m.st.cap with
  | some c => if t ≤ c.last then some c else none
  | none => none

/-- R450: the frame of the boundary just passed is staged, or dropped whole where there is no room for it.
Log entry 92 (DESIGN CHOICE). -/
def Mach.stFrame (m : Mach) : Mach :=
  if !m.st.on then m
  else
    let t := m.clk.tick
    let (ws, omitted) := m.frameWords t
    let done (m : Mach) : Mach := m.modSt fun s =>
      { s with marks := [], samples := [], evtFrom := m.rings.evtWr
               cap := s.cap.map fun c => if c.last ≤ t then { c with whole := true } else c }
    if Config.freeBit m.clk.draws 40 then
      let m1 := ((m.bump F.ST_STAT_DROPS).setBit F.ST_STAT_GAP).modSt fun s => { s with gapNext := true }
      let m2 := match m1.inSpan t with
        | some c => m1.setBit F.ST_LAYER_ST_GAP c.layer
        | none => m1
      done (m2.post Ev.ST_GAP 0 (m2.rd F.ST_STAT_DROPS))
    else
      let ts := tickStamp t
      let trig := match m.st.cap with | some c => c.t == t | none => false
      let head := stWord 0xF 0 (ts + 2 ^ 48 * (t % 2 ^ 32) + 2 ^ 80 * (ws.length + 1) + 2 ^ 96 * b2n trig + 2 ^ 97 * b2n m.st.gapNext
        + 2 ^ 98 * b2n omitted + 2 ^ 99 * b2n m.fm.rcRef + 2 ^ 100 * b2n (!m.fm.tkos.isEmpty) + 2 ^ 104 * m.rd F.ST_STAT_GEN)
      let m1 := if m.st.word = 0 then m.chunkBegin ts else m
      let m2 := m1.modSt fun s => { s with frames := s.frames ++ [(t, m1.stOfs, s.seq)], gapNext := false }
      let m3 := (head :: ws).foldl (fun m w => m.stPut ts w) m2
      let m4 := m3.setReg .ST_WR 0 0 (m3.stOfs + 2 ^ 32 * (m3.st.seq % 2 ^ 32) + 2 ^ 64 * (t % 2 ^ 32))
      let m5 := match m4.inSpan t with
        | some c =>
          let m5 := m4.wr F.ST_LAYER_END m4.stOfs c.layer
          if c.t = t then m5.wr F.ST_LAYER_ST_GEN (m5.rd F.ST_STAT_GEN) c.layer else m5
        | none => m4
      done m5

/-! ### Rate and selection -/

/-- The objects of a mask below `n`. -/
def maskCount (mask n : Nat) : Nat := ((List.range n).filter (bitOf mask ·)).length

/-- R451: the rate of ST_SEL values `sel k`, in words/s. -/
def Mach.stRate (m : Mach) (sel : Nat → Nat) : Rat :=
  let mask (k : Nat) := bitsOf (sel k) 0 48
  let dec (k : Nat) : Rat := ((2 ^ bitsOf (sel k) 48 4 : Nat) : Rat)
  let objs (k n : Nat) : Rat := (maskCount (mask k) n * 50000 : Nat) / dec k
  let bank (b : Nat) : Rat := (maskCount (bitsOf (mask 2) (12 * b) 12) 12 * 2 : Nat) * pwmFreq (m.periodOf b) / dec 2
  450000 + objs 0 48 + objs 1 48 + objs 3 12 + objs 4 16 + bank 0 + bank 1 + bank 2 + bank 3

/-- The selections as last written. -/
def Mach.stSelNow (m : Mach) (k : Nat) : Nat := m.reg .ST_SEL k 0

/-- ST_RATE shows the rate of the selections. -/
def Mach.stShowRate (m : Mach) : Mach := m.wr F.ST_RATE_W (shownU 22 0 (m.stRate m.stSelNow))

/-- R451: whether a value of ST_SEL[k] keeps within the limit. -/
def Mach.stSelOk (m : Mach) (k v : Nat) : Bool :=
  decide (m.stRate (fun i => if i = k then v else m.stSelNow i) ≤ 4000000)

/-- R451: an accepted selection waits for the next boundary, at which the generation increments, also where it changes nothing. -/
def Mach.stSelWait (m : Mach) (k : RegKey) : Mach :=
  if m.staged.any fun s => s.key == k then m
  else { m with staged := m.staged ++ [{ key := k, force := BitVec.ofNat 128 (m.reg k.r k.i k.j), at_ := .nextTick, choice := 0
                                         ready := false, seen := 0 }] }

/-- R451: a PWM period change of bank `b` that takes the rate over the limit clears the bank's axes from ST_SEL[2]. -/
def Mach.stPeriodChange (m : Mach) (b : Nat) : Mach :=
  if m.stRate m.stSelNow ≤ 4000000 then m.stShowRate
  else
    let clr (v : Nat) : Nat := putBits v (12 * b) 12 0
    let m1 := m.setReg .ST_SEL 2 0 (clr (m.stSelNow 2))
    let m2 : Mach := { m1 with staged := m1.staged.map fun s =>
      if s.key == ⟨.ST_SEL, 2, 0⟩ then { s with force := BitVec.ofNat 128 (clr s.force.toNat) } else s }
    (m2.setBit F.ST_STAT_RATE_REFUSED).stShowRate

/-! ### Triggers and layers -/

/-- PRE and POST in ms. -/
def Mach.stPre (m : Mach) : Nat := bitsOf (m.rd F.ST_TIME_VALUE) 0 16
def Mach.stPost (m : Mach) : Nat := bitsOf (m.rd F.ST_TIME_VALUE) 16 16

/-- A layer slot holds a capture, pending or frozen. -/
def Mach.layerUsed (m : Mach) (i : Nat) : Bool := m.rb F.ST_LAYER_ST_VALID i || m.rb F.ST_LAYER_ST_PENDING i

/-- ST_STAT.LAYERS. -/
def Mach.stCount (m : Mach) : Mach :=
  m.wr F.ST_STAT_LAYERS ((List.range 16).filter fun i => m.rb F.ST_LAYER_ST_VALID i).length

/-- R452: whether a trigger can be accepted. -/
def Mach.stAccepts (m : Mach) : Bool :=
  m.st.on && m.st.armed && m.st.cap.isNone && (List.range 16).any (fun i => !m.layerUsed i)
    && decide (ceilDiv (m.stPost * m.rd F.ST_RATE_W) (1000 * 65534) + 2 ≤ m.chunkCount - m.st.held.length)

/-- R453: a frame of a boundary from `want` up to the boundary passed last has been dropped, as far as the ring goes back. -/
def Mach.stHole (m : Mach) (want : Int) : Bool :=
  match m.st.frames with
  | [] => m.st.gapNext
  | f :: _ => decide (((m.st.frames.filter fun x => decide (want ≤ (x.1 : Int))).length : Int) < (m.clk.tick : Int) + 1 - max want f.1)

/-- R452: a trigger is accepted: the lowest free slot is taken, the chunks from PRE on are pinned. Log entry 93 (DEDUCED). -/
def Mach.stAccept (m : Mach) (cause : Nat) : Mach :=
  let t := m.clk.tick + 1
  let i := ((List.range 16).find? fun i => !m.layerUsed i).getD 0
  let want : Int := (t : Int) - (50 * m.stPre : Nat)
  let frames := m.st.frames
  let first := frames.find? fun f => decide (want ≤ (f.1 : Int))
  let short := match frames with | [] => true | f :: _ => decide (want < (f.1 : Int))
  let start := match first with | some f => f.2.1 | none => m.stOfs
  let keep := match first with
    | some f => m.st.ring.dropWhile (· != m.chunkOf f.2.1)
    | none => if m.st.word = 0 then [] else [m.st.chunk]
  let m1 := m.modSt fun s =>
    { s with armed := false, held := s.held ++ keep.map fun c => (c, i)
             cap := some { layer := i, t := t, last := t + 50 * m.stPost, whole := false, short := short } }
  let m2 := m1.setReg .ST_LAYER i 0 (start + 2 ^ 32 * m.stOfs + 2 ^ 64 * tickStamp t + 2 ^ 112 * cause)
  let m3 := m2.setReg .ST_LAYER_ST i 0 (2 + 4 * b2n short + 8 * b2n (m.stHole want))
  m3.post Ev.ST_TRIGGER i cause

/-- R452: the sources that have fired reach the recorder. -/
def Mach.stTrigger (m : Mach) : Mach :=
  let c := m.st.fired
  let m0 := m.modSt fun s => { s with fired := 0 }
  if c = 0 then m
  else match m.st.cap with
    | some p =>
      let m1 := m0.wr F.ST_LAYER_CAUSE (m0.rd F.ST_LAYER_CAUSE p.layer ||| c) p.layer
      if p.t = m.clk.tick + 1 then m1 else m1.bump F.ST_LAYER_TRIGS p.layer
    | none => if m0.stAccepts then m0.stAccept c else (m0.setBit F.ST_STAT_TRIG_LOST).post Ev.ST_TRIG_LOST 0 c

/-- A source fires, where it is enabled (R452). -/
def Mach.stFire (m : Mach) (src : Nat) : Mach :=
  if bitOf (m.rd F.ST_TRIG_CFG_VALUE) src then m.modSt fun s => { s with fired := s.fired ||| 2 ^ src } else m

/-- R453: the pending capture freezes. Log entry 93 (DEDUCED). -/
def Mach.stFreeze (m : Mach) (short : Bool) : Mach :=
  match m.st.cap with
  | none => m
  | some c =>
    let i := c.layer
    let n := (m.st.held.filter (·.2 == i)).length
    let m1 := ((m.wr F.ST_LAYER_ST_PENDING 0 i).setBit F.ST_LAYER_ST_VALID i).wr F.ST_LAYER_ST_CHUNKS n i
    let m2 := if short then m1.setBit F.ST_LAYER_ST_SHORT i else m1
    let st := m2.reg .ST_LAYER_ST i 0
    let m3 := m2.post Ev.ST_FROZEN i (n + 2 ^ 12 * bitsOf st 2 1 + 2 ^ 13 * bitsOf st 3 1)
    let m4 := m3.modSt fun s =>
      { s with cap := none, armed := s.armed || m.rb F.ST_CFG_REARM
               ring := s.ring.filter fun k => !s.isHeld k
               frames := s.frames.filter fun f => !s.isHeld (m.chunkOf f.2.1) }
    let m5 := if m4.st.isHeld m4.st.chunk then m4.chunkNext false else m4
    m5.stCount

/-- R453: the frame of T + 50·POST has drained into DRAM. -/
def Mach.stDrained (m : Mach) : Mach :=
  match m.st.cap with
  | some c => if c.whole then m.stFreeze false else m
  | none => m

/-- R453: layer `i` is released: a pending capture is cancelled, a frozen layer unfrozen, the descriptor cleared. -/
def Mach.stRelease (m : Mach) (i : Nat) : Mach :=
  let m1 := m.modSt fun s =>
    { s with held := s.held.filter (·.2 != i)
             cap := match s.cap with | some c => if c.layer = i then none else some c | none => none }
  (((m1.setReg .ST_LAYER i 0 0).setReg .ST_LAYER_ST i 0 0)).stCount

/-- R453: every layer is released. -/
def Mach.stReleaseAll (m : Mach) : Mach := m.each 16 Mach.stRelease

/-- R448, R453: ST_CFG.EN: recording starts with an empty ring, or stops. -/
def Mach.stEnable (m : Mach) (en : Bool) : Mach :=
  let m1 := m.wr F.ST_CFG_EN (b2n en)
  if en then (if m.st.on then m1 else (m1.stEmpty).modSt fun s => { s with on := m.clk.running })
  else (m1.stFreeze true).modSt fun s => { s with on := false }

/-- R447: a write of ST_REGION.M. -/
def Mach.stRegion (m : Mach) (v : Nat) : Mach :=
  if !m.rb F.ST_CFG_EN && m.allOff then (m.wr F.ST_REGION_M v).stReleaseAll.stEmpty
  else m.setBit F.ST_STAT_SPLIT_REFUSED

/-- R453: a write of ST_CTRL. -/
def Mach.writeStCtrl (m : Mach) (v : Nat) : Mach :=
  let m1 := if bitOf v 3 then m.stRelease (bitsOf v 8 4) else m
  let m2 := if bitOf v 4 then m1.stReleaseAll else m1
  let m3 := if bitOf v 1 then m2.modSt fun s => { s with armed := true } else m2
  let m4 := if bitOf v 2 then m3.modSt fun s => { s with armed := false } else m3
  if bitOf v 0 then m4.stFire 0 else m4

/-- R171, R450: STRATA_MARK; answers whether the recorder took the mark. -/
def Mach.stMark (m : Mach) (q ident user tag : Nat) (freeze : Bool) : Mach × Bool :=
  if !m.st.on then (m, false)
  else
    let m1 := m.modSt fun s => { s with marks := s.marks ++ [BitVec.ofNat 128 (markWord q ident user tag (b2n freeze))] }
    (if freeze then m1.stFire 1 else m1, true)

/-- R454: entry to RUN: every chunk is free; with EN = 1 recording starts. -/
def Mach.stRun (m : Mach) : Mach :=
  let m1 := { m with st := Strata.reset }.stEmpty
  (m1.modSt fun s => { s with on := m.rb F.ST_CFG_EN }).stShowRate

end Sys2Proof.Machine
end

