-- ==== Sys2Proof/Machine/Run.lean ====
section
/-!
DEFINITION. How a command runs: it takes a fresh command number, acts, and then what hangs on every change of the module's
state follows: the blanking of the front end (R403), the end of a forced coast (R59), the trigger sources of the strata
recorder (R452).
-/

namespace Sys2Proof.Machine

/-- The event records that entered the ring since the ring held `w` records, newest first. -/
def Mach.newEvents (m : Mach) (w : Nat) : List Word := m.rings.evt.take ((m.rings.evtWr + 2 ^ 32 - w) % 2 ^ 32)

/-- R452, bit 2: an event whose code meets (code XOR CODE) AND MASK = 0. -/
def Mach.evtMatches (m : Mach) (w : Word) : Bool :=
  let v := m.rd F.ST_TRIG_EVT_VALUE
  decide ((bitsOf w.toNat 112 16 ^^^ bitsOf v 0 16) &&& bitsOf v 16 16 = 0)

/-- R452, bit 3: a comparator enabled in ST_TRIG_CS whose NOW set. -/
def Mach.winSet (before m : Mach) : Bool :=
  (List.range 32).any fun k =>
    bitOf (m.rd F.ST_TRIG_CS_VALUE) k && bitOf (m.bank (k / 8)).winNow (k % 8) && !bitOf (before.bank (k / 8)).winNow (k % 8)

/-- R452: the trigger sources that a command has fired by what it changed; ST_CTRL.TRIG, STRATA_MARK and FAULT_N fire theirs
themselves. -/
def Mach.stSources (m : Mach) (before : Mach) : Mach :=
  let evs := m.newEvents before.rings.evtWr
  let gi := bitsOf (m.rd F.ST_TRIG_CFG_VALUE) 8 4
  let m1 := m.when (evs.any m.evtMatches) (·.stFire 2)
  let m2 := m1.when (winSet before m) (·.stFire 3)
  let m3 := m2.when (m.giActive gi && !before.giActive gi) (·.stFire 4)
  let m4 := m3.when (m.rb F.PW_TRIP_STAT_LATCH && !before.rb F.PW_TRIP_STAT_LATCH) (·.stFire 6)
  m4.when (evs.any fun w => bitsOf w.toNat 112 16 == Ev.FM_TAKEOVER) (·.stFire 7)

/-- What follows every command. -/
def Mach.settle (m : Mach) (before : Mach) : Mach :=
  ((m.each 4 Mach.ovForceEnd).blankStep).stSources before

/-- A command's meaning as an outcome: the module acts, the queue of commands stays, and the machine goes on. -/
def State.run (s : State) (f : Mach → Mach) : Host.Outcome State Fault Refusal :=
  .next { s with m := (f s.m.begin_).settle s.m.begin_ }

end Sys2Proof.Machine
end

