-- ==== Sys2Proof/Machine/AxisCmd.lean ====
section
/-!
DEFINITION. The events of axes, armatures and coils: engine slots, arming, standstill, limits, homing, registration, the
regulator's computation, retries.
-/

namespace Sys2Proof.Machine

/-- AXIS_SLOT (R21): an engine evaluates one axis in its slot; `camMissing` says that a cam word it needs has not arrived
(R233). The engines stand before RUN, in a last gasp and in a debug halt. Log entry 9 (DESIGN CHOICE). -/
def execAxisSlot (n : Fin 48) (camMissing : Bool) (s : State) : Host.Outcome State Fault Refusal := s.run fun m =>
  if m.clk.running && !m.dbgHalt && !m.gasp then m.engineSlot n.val camMissing else m

/-- ARMING_COMPLETE (R133): the ramp of ARMING has completed; `found` is what the tests of an untested axis find.
Log entry 5 (DESIGN CHOICE). -/
def execArmingComplete (n : Fin 48) (found : ArmingTest) (s : State) : Host.Outcome State Fault Refusal := s.run fun m =>
  m.armingDone n.val found.bridgeOk found.motor

/-- STANDSTILL_RAMP (R163): the standstill delay expires. Log entry 6 (DESIGN CHOICE). -/
def execStandstillRamp (n : Fin 48) (s : State) : Host.Outcome State Fault Refusal := s.run fun m => m.stillRamp n.val

/-- LIMIT_ACTIVE (R153): LIMA_n, or LIMB_n, becomes active. -/
def execLimitActive (n : Fin 48) (sideB : Bool) (s : State) : Host.Outcome State Fault Refusal := s.run fun m =>
  m.limitActive n.val sideB

/-- HOME_REFERENCE (R159): the reference edge of a homing, with its timestamp. -/
def execHomeReference (n : Fin 48) (ts : BitVec 48) (s : State) : Host.Outcome State Fault Refusal := s.run fun m =>
  m.homeRef n.val ts.toNat

/-- REG_MARK (R234): an active mark edge on a registration channel, with its timestamp. -/
def execRegMark (r : Fin 4) (ts : BitVec 48) (s : State) : Host.Outcome State Fault Refusal := s.run fun m =>
  m.regMark r.val ts.toNat

/-- ABORT_INPUT (R207): the active edge of the general input of Q_ABIN[k]. -/
def execAbortInput (k : Fin 4) (s : State) : Host.Outcome State Fault Refusal := s.run fun m => m.abortsDue.abortInput k.val

/-- COIL_COMPUTE (R24): the regulator computes a coil's next period; `at_` is the tick phase of the interpolation instant in PWM
cycles (R25), and the mean drop across a low-side FET in the period that runs (R439). While a takeover interrupts the coil nothing is computed (R415). The period mean of a quiet period is examined by the
window comparators (R323). -/
def execCoilCompute (k : Fin 96) (at_ : CoilAt) (s : State) : Host.Outcome State Fault Refusal := s.run fun m =>
  if m.repeating k.val || m.gasp || m.regDown (k.val / 24) then m
  else
    let m1 := m.coilCompute k.val at_.tph.toNat
    match (m.coil k.val).active with
    | .quiet _ =>
      (m1.patRon (k.val / 2) at_.drop (m1.coil k.val).im).winExamine (k.val / 24) 1 (k.val % 24) (toFixed 12 (m1.coil k.val).im)
    | _ => m1

/-- RETRY_RESUME (R343): the pause of a stall retry ends. -/
def execRetryResume (n : Fin 48) (s : State) : Host.Outcome State Fault Refusal := s.run fun m => m.retryResume n.val

end Sys2Proof.Machine
end

