-- ==== Sys2Proof/Machine/BankCmd.lean ====
section
/-!
DEFINITION. The events of the power banks: PWM periods, trips, safe patterns, SYNC, samples and converters.
-/

namespace Sys2Proof.Machine

/-- PWM_PERIOD_START (R272): the running period of channel `k` ends and the next starts; `vm` is VM of its bank as measured. A CONT
scan starts at the bank reference (R320); a period of coil a that no computation found takes from the guard time (R263). -/
def execPwmPeriodStart (k : Fin 96) (vm : BitVec 16) (s : State) : Host.Outcome State Fault Refusal := s.run fun m =>
  let b := k.val / 24
  let m0 := m.when (!(m.coil k.val).fresh && !isCoilB k.val) fun m => m.guardStep (k.val / 2) (m.periodOf b) 0
  let m1 := ((m0.stPeriod k.val).wr F.PW_VM_MEAS_VM vm.toNat b).periodStart k.val
  if k.val % 24 = 0 ∧ m.rb F.CS_SCAN_CFG_CONT b then m1.scanGo b 0xFF else m1

/-- PEAK_TRIP (R278): the peak-current comparator of channel `k` trips `cnt` cycles after its counter zero. -/
def execPeakTrip (k : Fin 96) (cnt : BitVec 14) (s : State) : Host.Outcome State Fault Refusal := s.run fun m =>
  m.peakTrip k.val cnt.toNat

/-- SHORT_CIRCUIT (R280). -/
def execShortCircuit (n : Fin 48) (coilB : Bool) (s : State) : Host.Outcome State Fault Refusal := s.run fun m =>
  m.shortCircuit n.val coilB

/-- GATE_UV (R281). -/
def execGateUv (b : Fin 4) (s : State) : Host.Outcome State Fault Refusal := s.run fun m =>
  m.gateLow b.val

/-- GATE_UV_RECOVER (R281). -/
def execGateUvRecover (b : Fin 4) (s : State) : Host.Outcome State Fault Refusal := s.run fun m =>
  m.gateGood b.val

/-- SAFE_COPY_CHECK (R283); `upset` names a copy and what a disturbance has left in it. -/
def execSafeCopyCheck (b : Fin 4) (upset : Option (Fin 3 × BitVec 32)) (s : State) : Host.Outcome State Fault Refusal := s.run fun m =>
  m.safeCheck b.val (upset.map fun u => (u.1.val, u.2.toNat))

/-- CLOCK_STOP (R288). -/
def execClockStop (b : Fin 4) (s : State) : Host.Outcome State Fault Refusal := s.run fun m =>
  m.clockStop b.val

/-- CLOCK_STOP_END (R288). -/
def execClockStopEnd (b : Fin 4) (s : State) : Host.Outcome State Fault Refusal := s.run fun m =>
  m.clockStopEnd b.val

/-- TRIP_INPUT (R290): the levels of the trip inputs, true for active. -/
def execTripInput (a b : Bool) (s : State) : Host.Outcome State Fault Refusal := s.run fun m =>
  m.tripLevels a b

/-- TRIP_DISC (R293). -/
def execTripDisc (s : State) : Host.Outcome State Fault Refusal := s.run fun m =>
  m.tripDisc

/-- SYNC_DRIVE (R294). -/
def execSyncDrive (s : State) : Host.Outcome State Fault Refusal := s.run fun m =>
  m.syncDrive

/-- SYNC_EDGE (R295): a falling edge of SYNC at cycle `cyc` of the PWM domain. -/
def execSyncEdge (cyc : Nat) (s : State) : Host.Outcome State Fault Refusal := s.run fun m =>
  m.syncEdge cyc

/-- SYNC_LOST (R296). -/
def execSyncLost (s : State) : Host.Outcome State Fault Refusal := s.run fun m =>
  m.syncLost

/-- SAMPLE_HOLD (R307): the arbiter holds a scheduled sample of channel `k`. -/
def execSampleHold (k : Fin 96) (kind : Fin 8) (s : State) : Host.Outcome State Fault Refusal := s.run fun m =>
  m.sampleHold k.val kind.val

/-- SAMPLE_DELIVERED (R309): a conversion completes with its raw code; `full` says that the crossing queue was full (R36).
Log entry 5 (DESIGN CHOICE). -/
def execSampleDelivered (k : Fin 96) (kind : Fin 8) (raw : Int) (full : Bool) (s : State) : Host.Outcome State Fault Refusal := s.run fun m =>
  m.sampleDelivered k.val kind.val raw full

/-- SHADOW_BLOCK_END (R314): the pairs of a block of slice `sl`: active code, spare code, sample-to-sample slope. -/
def execShadowBlockEnd (b : Fin 4) (sl : Fin 5) (pairs : List (Int × Int × Rat)) (s : State) : Host.Outcome State Fault Refusal := s.run fun m =>
  m.shadowBlock b.val sl.val pairs

/-- SPARE_RECAL (R315): the mean codes of the spare at zero, positive and negative reference. -/
def execSpareRecal (b : Fin 4) (zero pos neg : Int) (s : State) : Host.Outcome State Fault Refusal := s.run fun m =>
  m.spareRecal b.val zero pos neg

/-- INJ_RESULT (R318): the raw code and the wait of an injected conversion. -/
def execInjResult (b : Fin 4) (raw : Int) (wait : BitVec 9) (s : State) : Host.Outcome State Fault Refusal := s.run fun m =>
  m.injResult b.val raw wait.toNat

/-- SCAN_RESULT (R320): the slice, raw code and wait of a scan conversion. -/
def execScanResult (b : Fin 4) (slice : Fin 5) (raw : Int) (wait : BitVec 9) (s : State) : Host.Outcome State Fault Refusal := s.run fun m =>
  m.scanResult b.val slice.val raw wait.toNat

/-- CS_TRIG_FIRE (R321). -/
def execCsTrigFire (b : Fin 4) (k : Fin 4) (s : State) : Host.Outcome State Fault Refusal := s.run fun m =>
  m.trigFire b.val k.val

/-- PCHK_DONE (R324): the sums of the 64 conversions at each point of the running sense-path check. -/
def execPchkDone (b : Fin 4) (s1 s2 : Int) (s : State) : Host.Outcome State Fault Refusal := s.run fun m =>
  m.pchkFinish b.val s1 s2

end Sys2Proof.Machine
end

