-- ==== Sys2Proof/Machine/KilnBase.lean ====
section
/-!
DEFINITION. The kiln log as it lies in the flash (R92 to R95), the counts of steps (R75, R80), the beginning of a start
(R72) and the requests of KN_CTRL (R91, R95).
-/

namespace Sys2Proof.Machine

/-! ### The log ring -/

/-- The flash address of sector `s` of the log ring (R92). -/
def logSector (s : Nat) : Nat := 0x2000 + 0x1000 * (s % 30)

/-- The sector of the log ring that holds flash address `a`. -/
def sectorOf (a : Nat) : Nat := (a - 0x2000) / 0x1000

/-- A field of the record at `a` (R93). -/
def Mach.lgGet (m : Mach) (a o n : Nat) : Nat := m.flashRead (a + o) n

/-- The bytes a record's CRC covers (R93). -/
def Mach.lgCrcBytes (m : Mach) (a : Nat) : List Byte :=
  memBytes flashDefault m.flash a 0x51 ++ memBytes flashDefault m.flash (a + 0x52) 0x2A

/-- The record's magic, version and length are correct (R94). -/
def Mach.lgHead (m : Mach) (a : Nat) : Bool :=
  decide (m.lgGet a 0 4 = 0x4B4C4F47 ∧ m.lgGet a 4 2 = 1 ∧ m.lgGet a 6 2 = 128)

/-- The record's CRC is correct (R94). -/
def Mach.lgCrcOk (m : Mach) (a : Nat) : Bool := decide (m.lgGet a 0x7C 4 = crc32 (m.lgCrcBytes a))

/-- A valid record that is not ignored for a wrong CRC (R94). -/
def Mach.lgValid (m : Mach) (a : Nat) : Bool := m.lgHead a && (m.lgCrcOk a || decide (m.lgGet a 0x7C 4 = 0xFFFFFFFF))

/-- A valid record that is still open: its CRC is erased (R79). -/
def Mach.lgOpen (m : Mach) (a : Nat) : Bool := m.lgHead a && !m.lgCrcOk a && decide (m.lgGet a 0x7C 4 = 0xFFFFFFFF)

/-- Every address at which a record can stand. -/
def lgPlaces : List Nat := ((List.range 30).map fun s => (List.range 32).map fun k => logSector s + 128 * k).flatten

/-- The later of two places, each with a valid record (R94). -/
def Mach.lgLater (m : Mach) (a b : Nat) : Nat :=
  let d := signedOf 32 (unsignedOf 32 ((m.lgGet a 8 4 : Int) - (m.lgGet b 8 4 : Int)))
  if 0 < d then a else if d < 0 then b
  else if m.lgGet b 12 4 < m.lgGet a 12 4 then a else if m.lgGet a 12 4 < m.lgGet b 12 4 then b
  else max a b

/-- The newest of the valid records that satisfy a condition. -/
def Mach.lgNewestOf (m : Mach) (p : Nat → Bool) : Option Nat :=
  (lgPlaces.filter fun a => m.lgValid a && p a).foldl (fun o a => match o with
    | none => some a
    | some b => some (m.lgLater a b)) none

/-- R94: the newest record. -/
def Mach.lgNewest (m : Mach) : Option Nat := m.lgNewestOf fun _ => true

/-- A sector that holds a last-gasp record (R67, R92). -/
def Mach.isGaspSector (m : Mach) (s : Nat) : Bool := decide (m.flashRead (logSector s) 4 = 0x4C474153)

/-- A complete last-gasp record (R67). Log entry 46 (DEDUCED). -/
def Mach.gaspComplete (m : Mach) (s : Nat) : Bool :=
  let a := logSector s
  m.isGaspSector s && decide (m.flashRead (a + 0xFFC) 4 = 0x4C474F4B
    ∧ m.flashRead (a + 0xFF8) 4 = crc32 (memBytes flashDefault m.flash a 0xFF8))

/-- The last of the last-gasp sectors that follow sector `s` without a gap. -/
def Mach.gaspRun (m : Mach) : Nat → Nat → Nat
  | 0, s => s
  | f + 1, s => if m.isGaspSector (s + 1) then m.gaspRun f ((s + 1) % 30) else s

/-- R92: the newest written sector; the last of the ring when nothing is written. -/
def Mach.lgSector (m : Mach) : Nat :=
  match m.lgNewest with
  | some a => m.gaspRun 30 (sectorOf a)
  | none => m.gaspRun 30 29

/-- The place of the next record (R92): the first unused place of the newest record's sector where no last-gasp record
follows it, else the first place of the sector after the newest written one. -/
def Mach.lgNext (m : Mach) : Nat :=
  let s := m.lgSector
  let free := ((List.range 32).map fun k => logSector s + 128 * k).find? fun a => m.erased a (logSector s + 0x1000 - a)
  match m.lgNewest, free with
  | some a, some x => if sectorOf a = s then x else logSector (s + 1)
  | _, _ => logSector (s + 1)

/-- R92: the two sectors after the newest written one are erased; those that are not become so. Log entry 47 (DEDUCED). -/
def Mach.lgMakeRoom (m : Mach) : Mach :=
  let s := m.lgSector
  [1, 2].foldl (fun m k => if m.erased (logSector (s + k)) 0x1000 then m else m.ringErase (logSector (s + k))) m

/-! ### The present start's record -/

/-- Programs `n` bytes of `v` at offset `o` of the present start's record, where one is open. -/
def Mach.lgPut (m : Mach) (o n v : Nat) : Mach :=
  match m.kn.log with
  | some a => m.ringProgram (a + o) (bytesLE n v)
  | none => m

/-- Programs bit `k` of an active-low bitmap of the present start's record. -/
def Mach.lgMark (m : Mach) (o k : Nat) : Mach :=
  if m.kn.closed then m else m.lgPut (o + k / 8) 1 (255 - 2 ^ (k % 8))

/-- Programs the CRC of the record at `a`. -/
def Mach.lgClose (m : Mach) (a : Nat) : Mach := m.ringProgram (a + 0x7C) (bytesLE 4 (crc32 (m.lgCrcBytes a)))

/-- Programs the CRC of the present start's record and closes it. -/
def Mach.lgCloseNow (m : Mach) : Mach :=
  match m.kn.log, m.kn.closed with
  | some a, false => (m.lgClose a).modKn fun k => { k with closed := true }
  | _, _ => m

/-! ### Counts -/

/-- The count of step `s` in a word of counts, as offset 0x20 of a record holds them. -/
def cntOf (w s : Nat) : Nat := bitsOf w (4 * s - 4) 4

/-- A word of counts with that of step `s` changed. -/
def setCnt (w s v : Nat) : Nat := putBits w (4 * s - 4) 4 v

/-- A word of counts from a function of the step. -/
def cntWord (f : Nat → Nat) : Nat := ((List.range 16).map fun i => f (i + 1) * 16 ^ i).sum

/-- R95: the counts that a start derives from the newest record at `a`. -/
def Mach.lgCounts (m : Mach) (a : Nat) : Nat :=
  cntWord fun s =>
    let c := cntOf (m.lgGet a 0x20 8) s
    if !bitOf (m.lgGet a 0x2A 2) (s - 1) then 0
    else if m.lgGet a 0x2C 1 = s ∧ m.lgGet a 0x2D 1 ≠ 0x0D then min (c + 1) 3 else c

/-- The counts of steps 1 to 4 that KN_MEMO.CNT holds. -/
def Mach.memoCounts (m : Mach) : Nat :=
  cntWord fun s => if s ≤ 4 then bitsOf (m.rd F.KN_MEMO_CNT) (2 * s - 2) 2 else 0

/-- R38: KN_MEMO takes a value in the always-on block; its mirror keeps the old one. Log entry 110 (DESIGN CHOICE). -/
def Mach.memoPut (m : Mach) (v : Nat) : Mach :=
  let old := m.reg .KN_MEMO 0 0
  if v = old then m
  else
    let t := if m.clk.running then some (m.clk.tick * 1000 + m.clk.sub) else none
    (m.setReg .KN_MEMO 0 0 v).modKn fun k => { k with mirror := ((old, t) :: k.mirror).take 8 }

/-- A field of KN_MEMO takes a value. -/
def Mach.memoFld (m : Mach) (f : Fld) (v : Nat) : Mach := m.memoPut (putBits (m.reg .KN_MEMO 0 0) f.lo f.width v)

/-- KN_MEMO.CNT follows the counts of steps 1 to 4 (R80). Log entry 95 (DEDUCED). -/
def Mach.memoKeep (m : Mach) : Mach :=
  m.memoFld F.KN_MEMO_CNT ((List.range 4).map fun i => cntOf m.kn.counts (i + 1) * 4 ^ i).sum

/-- Sets the count of a step. -/
def Mach.setCount (m : Mach) (s v : Nat) : Mach :=
  let m1 := m.modKn fun k => { k with counts := setCnt k.counts s v }
  m1.when (decide (s ≤ 4)) (·.memoKeep)

/-! ### What a new start or a reset leaves -/

/-- What a commit or a host operation in progress leaves of the flash when it is cut off: the target plinth as R121 says, and
nothing is known of another range that was being erased or programmed. -/
def Mach.flashCut (m : Mach) : Mach :=
  let m1 := match m.nv.commit with
    | some c =>
      match c.phase with
      | 2 => m.plinthCut c.target m
      | 3 => (match c.erases[c.k]? with | some (a, n) => m.indeterminate a n | none => m)
      | 4 => m.indeterminate ((c.off + (m.commitPage c c.k).1) / 256 * 256) 256
      | 6 => if c.k = 0 then m.plinthCut c.target (m.flashProgram (plinthAt c.target) c.plinth) else m
      | _ => m
    | none => m
  match m1.nv.acc with
  | some x =>
    if x.op = 1 then m1.indeterminate (x.addr / 256 * 256) 256
    else if x.op = 2 then m1.indeterminate x.addr 0x1000
    else if x.op = 3 then m1.indeterminate x.addr 0x10000
    else m1
  | none => m1

/-- R64: everything but the always-on block, the NVM and its key store, KN_SUPPLY.LG_PREV and the rails, and what belongs
to the surroundings (input levels, straps, supplies, clamps that hold, the mode of the flash). Log entry 10 (DEDUCED). -/
def Mach.wipe (m : Mach) : Mach :=
  let m0 := m.flashCut
  let keepReg (r : Reg) (x : Mach) : Mach := x.setReg r 0 0 (m.reg r 0 0)
  let m1 : Mach := { Mach.reset with
    clk := { Mach.reset.clk with hours := m.clk.hours, draws := m.clk.draws }
    flash := m0.flash, otp := m.otp, inp := m.inp, tap := m.tap
    kn := { Kiln.reset with
      phase := m.kn.phase, vauxGood := m.kn.vauxGood, rstLow := m.kn.rstLow, begun := m.kn.begun, vhold := m.kn.vhold
      otherFirst := if m.kn.otherDone then none else m.kn.otherFirst, clrCnt := m.kn.clrCnt, slowKept := m.kn.slowKept, memoDetail := m.kn.memoDetail
      mirror := m.kn.mirror.map fun e => (e.1, none) }
    nv := { Nvm.reset with octal := m.nv.octal } }
  let m2 := keepReg .KN_MEMO m1
  let m3 := m2.setReg .KN_SUPPLY 0 0 (putBits (m.reg .KN_SUPPLY 0 0) 8 1 0)
  m3.each 4 fun x b => x.modBank b fun y => { y with clamp := (m.bank b).clamp }

/-- What an internal restart or KN_CTRL.RESTART keeps beside this: the locks with their records (only a reset clears
them, R489), the trip latch with its registers, GL_SCRATCH, and a boundary-scan test in force (R68).
Log entry 10 (DEDUCED). -/
def Mach.wipeSoft (m : Mach) : Mach :=
  let keep (x : Mach) (r : Reg) : Mach := x.setReg r 0 0 (m.reg r 0 0)
  let m1 := [Reg.GL_LOCK, .GL_SCRATCH, .PW_TRIP_STAT, .PW_TRIP_TS].foldl keep m.wipe
  { m1 with testInstr := m.testInstr, hp := { m1.hp with locks := m.hp.locks } }

/-! ### A step begins -/

/-- Steps with an alternative (R76). -/
def hasAlt (s : Nat) : Bool := s == 1 || s == 2 || s == 4 || s == 5 || s == 6 || s == 7

/-- A step begins (R95, R104): the reset of the flash at step 4, its entered bit, and the event of an alternative or a skip in force. -/
def Mach.stepBegin (m : Mach) (s : Nat) : Mach :=
  let m0 := m.when (decide (s = 4)) fun m => m.nvReset (if bitOf m.kn.alt 3 then 6250 else 25000)
  let m1 := m0.modKn fun k => { k with step := s, cut := 0 }
  if bitOf m.kn.alt (s - 1) then
    if 9 ≤ s then m1.post Ev.KILN_SKIP s 0 else (m1.lgMark 0x28 (s - 1)).post Ev.KILN_ALT s m.kn.alt
  else m1.lgMark 0x28 (s - 1)

/-- R72: a start begins on a trigger. -/
def Mach.startBegin (m : Mach) (trigger : Nat) : Mach :=
  let m1 := m.modKn fun k => { k with
    phase := .start, begun := true, trigger := trigger, step := 1, done := 0, log := none, closed := false, raised := [], units := []
    hours0 := m.clk.hours }
  let before := m1.memoCounts
  let alt := ((List.range 4).map fun i => if hasAlt (i + 1) && decide (0 < cntOf before (i + 1)) then 2 ^ i else 0).sum
  ((m1.modKn fun k => { k with before := before, counts := before, alt := alt }).wr F.NV_STATUS_SIZE 6).stepBegin 1

/-! ### KN_CTRL -/

/-- R95: a request for the next start: bit 0 DRAM_FAST, bit 1 HOME_RESET. -/
def Mach.knRequest (m : Mach) (k : Nat) : Mach :=
  match m.kn.log with
  | some _ => m.lgPut 0x51 1 (255 - 2 ^ k)
  | none => m.memoFld F.KN_MEMO_REQ (m.rd F.KN_MEMO_REQ ||| 2 ^ k)

/-- R91: KN_CTRL.RESTART leaves kiln hold. Log entry 52 (DEDUCED). -/
def Mach.knRestart (m : Mach) (clrCnt : Bool) : Mach :=
  if m.kn.phase == .hold then
    let m1 := m.modKn fun k => { k with clrCnt := clrCnt, counts := if clrCnt then 0 else k.counts }
    let m2 := m1.when clrCnt (·.memoKeep)
    m2.wipeSoft.startBegin 3
  else m

/-- A write of KN_CTRL. -/
def Mach.writeKnCtrl (m : Mach) (v : Nat) : Mach :=
  let m1 := (m.when (bitOf v 2) (·.knRequest 0)).when (bitOf v 3) (·.knRequest 1)
  if bitOf v 0 then m1.knRestart (bitOf v 1) else m1

end Sys2Proof.Machine
end

