-- ==== Sys2Proof/Machine/Regs.lean ====
section
/-!
DEFINITION. Register accesses (R12, R480 to R495): which register an address names, the value a read returns, how a written
value merges, the locks, and when a write takes effect.
-/

namespace Sys2Proof.Machine

/-! ### Addresses -/

/-- The indexes of a register at byte offset `x`, and the word of it, where `x` lies in one of its places. -/
def Reg.hit (r : Reg) (x : Nat) : Option (RegKey × Nat) :=
  let d := r.desc
  if x < d.base then none
  else
    let o := x - d.base
    let i := if d.st1 = 0 then 0 else o / d.st1
    let o1 := o - i * d.st1
    let j := if d.st2 = 0 then 0 else o1 / d.st2
    let o2 := o1 - j * d.st2
    if i < d.n1 ∧ j < d.n2 ∧ o2 < (if d.wide then 16 else 4) then some (⟨r, i, j⟩, o2 / 4) else none

/-- The register and word at a full-window offset (R480, R481); none where no chapter describes one. -/
def regAt (x : Nat) : Option (RegKey × Nat) := Reg.all.findSome? fun r => r.hit x

/-- The full-window offset of a register. -/
def RegKey.addr (k : RegKey) : Nat := k.r.addr k.i k.j

/-- Whether an offset lies in the GL, KN, NV or HP block. -/
def coreBlock (x : Nat) : Bool := decide (x < 0x10000 ∨ 0xC0000 ≤ x)

/-- R89, R90: whether the block at an offset answers. -/
def Mach.answers (m : Mach) (x : Nat) : Bool :=
  match m.kn.phase with
  | .run => true
  | .start | .waiting => if coreBlock x then bitOf m.kn.done 1 else bitOf m.kn.done 7
  | .hold => coreBlock x
  | _ => false

/-- Whether the DRAM window answers (R89, R90): from the end of step 7. -/
def Mach.windowAnswers (m : Mach) : Bool :=
  match m.kn.phase with
  | .run => true
  | .start | .waiting | .hold => bitOf m.kn.done 6
  | _ => false

/-! ### Fields -/

/-- The bits of a register's fields with a given access. -/
def RegDesc.bitsWith (d : RegDesc) (p : Acc → Bool) : Nat :=
  (d.fields.map fun f => if p f.acc then (2 ^ f.width - 1) * 2 ^ f.lo else 0).sum

/-- Fields that hold what is written. -/
def Acc.holds : Acc → Bool
  | .rw | .rwl | .rwb => true
  | _ => false

/-- The bits of a register that hold what is written; its W1C bits; its WO bits; its RWL bits. -/
def RegDesc.rwBits (d : RegDesc) : Nat := d.bitsWith Acc.holds
def RegDesc.w1cBits (d : RegDesc) : Nat := d.bitsWith (· == .w1c)
def RegDesc.woBits (d : RegDesc) : Nat := d.bitsWith (· == .wo)
def RegDesc.rwlBits (d : RegDesc) : Nat := d.bitsWith (· == .rwl)

/-- `a` with the bits of `b` cleared. -/
def without (a b : Nat) : Nat := a - (a &&& b)

/-- R12: what a register holds after `w` is written to it. -/
def RegDesc.merge (d : RegDesc) (old w : Nat) : Nat :=
  without (without old d.rwBits) (w &&& d.w1cBits) + (w &&& d.rwBits)

/-- The accesses of the aliases (R484). -/
inductive Alias where
  | plain | set | clr | tgl
  deriving DecidableEq, Repr

/-- The plain write that a write to an alias comes to, for a register that holds `old`; none where it has no effect. -/
def RegDesc.aliasWord (d : RegDesc) (old w : Nat) : Alias → Option Nat
  | .plain => some w
  | .set => some (((old ||| w) &&& d.rwBits) + (w &&& (d.w1cBits + d.woBits)))
  | .clr => if d.rwBits = 0 then none else some (without old w &&& d.rwBits)
  | .tgl => if d.rwBits = 0 then none else some ((old ^^^ w) &&& d.rwBits)

/-- A register all of whose described fields lie in [15:0] is masked in the compact window (R486). -/
def RegDesc.masked (d : RegDesc) : Bool := !d.wide && d.fields.all fun f => decide (f.lo + f.width ≤ 16)

/-- The plain write that a masked write comes to (R486). -/
def RegDesc.maskedWord (d : RegDesc) (old w : Nat) : Nat :=
  let mk := bitsOf w 16 16
  let v := bitsOf w 0 16
  ((without old mk + (v &&& mk)) &&& d.rwBits) + (v &&& mk &&& (d.w1cBits + d.woBits))

/-! ### What a read returns -/

/-- Puts live fields over a stored value. -/
def overlay (old : Nat) : List (Nat × Nat × Nat) → Nat
  | [] => old
  | (lo, w, v) :: rest => overlay (putBits old lo w v) rest

/-- The head command of a queue (R182): published, or the fetched word of its routine. Log entry 30 (DEDUCED). -/
def Mach.headWord (m : Mach) (q : Nat) : Option Word :=
  let x := m.qu q
  match x.frame.pc with
  | some _ => x.fetched.map fun f => BitVec.ofNat 128 (m.dramRead f.1 16)
  | none => x.published.head?

/-- The counts as KN_FAILCNT shows them. -/
def Mach.failCounts (m : Mach) : Nat := ((List.range 16).map fun i => min 3 (cntOf m.kn.counts (i + 1)) * 4 ^ i).sum

/-- The last gasp is armed (R52): VHOLD is at least VAUX − 0.5 V, and the rest. -/
def Mach.lgArmed (m : Mach) : Bool :=
  decide (m.rd F.KN_SUPPLY_VAUX_V ≤ m.kn.vhold + 1024) && m.rb F.KN_LGASP_LG_EN && !m.kn.rstLow && bitOf m.kn.done 3

/-- R61: whether a rail is within its tolerance: one whose overload has been seen may have come back while the rails are on.
Log entry 109 (DESIGN CHOICE). -/
def Mach.railGood (m : Mach) (f : Fld) (use : Nat) : Nat :=
  let on := !m.dead && m.kn.phase != .gasp
  if m.rb f then 1 else b2n (on && Config.freeBit m.clk.draws use)

/-- R38: what the mirror of KN_MEMO shows: the value from before a write of the last 122 µs, whose age is open where no time runs.
Log entry 110 (DESIGN CHOICE). -/
def Mach.memoShown (m : Mach) : Nat :=
  let now := m.clk.tick * 1000 + m.clk.sub
  let hides (e : (Nat × Option Nat) × Nat) : Bool :=
    match e.1.2 with
    | some t => m.clk.running && decide (now ≤ t + 6100)
    | none => !(m.clk.running && decide (6100 < now)) && Config.freeBit m.clk.draws (9800 + e.2)
  match (m.kn.mirror.zipIdx.reverse).find? hides with
  | some e => e.1.1
  | none => m.reg .KN_MEMO 0 0

/-- KN_STATE.PHASE and STEP (R97). -/
def Mach.knPhase (m : Mach) : Nat :=
  match m.kn.phase with
  | .run => 1 | .hold => 2 | .waiting => 3 | _ => 0
def Mach.knStep (m : Mach) : Nat :=
  match m.kn.phase with
  | .run => if m.kn.step16 then 15 else 16
  | _ => m.kn.step

/-- The timestamp and hours that GL_TS shows. -/
def Mach.glTs (m : Mach) : Nat := m.stamp + m.clk.hours % 2 ^ 32 * 2 ^ 48

/-- The state of the recorder (ST_STAT.STATE): 0 off, 1 recording, 2 capture pending. -/
def Mach.stState (m : Mach) : Nat := if !m.st.on then 0 else if m.st.cap.isSome then 2 else 1

/-- The live fields of a register, as bits and values over what it stores; `none` where it has none. -/
def Mach.live (m : Mach) (k : RegKey) : List (Nat × Nat × Nat) :=
  let i := k.i
  let f (x : Fld) (v : Nat) : Nat × Nat × Nat := (x.lo, x.width, v)
  match k.r with
  | .AX_STATE => [(0, 128, (m.ax i).snapState.toNat)]
  | .AX_SEG => [(0, 128, (m.ax i).snapSeg.toNat)]
  | .GR_FSTATE => [(0, 128, (m.ax i).snapFollow.toNat)]
  | .AX_LIM_STAT => [f F.AX_LIM_STAT_ACT_A (b2n (m.limActive i false)), f F.AX_LIM_STAT_ACT_B (b2n (m.limActive i true))]
  | .AX_HOME_STAT => [f F.AX_HOME_STAT_DIR_USED (b2n (m.ax i).dirUsed)]
  | .AX_HARM_DATA => [(0, 32, m.harmWord i)]
  | .Q_STATUS =>
    let q := m.qu i
    [f F.Q_STATUS_STATE q.st.code, f F.Q_STATUS_ROUTINE (b2n q.inRoutine), f F.Q_STATUS_LEVEL (q.stack.length - 1),
     f F.Q_STATUS_WAIT_WHY q.why]
  | .Q_LEVEL =>
    let q := m.qu i
    [f F.Q_LEVEL_PEND q.published.length, f F.Q_LEVEL_STAGED q.staged.length,
     f F.Q_LEVEL_FREE (32 - q.published.length - q.staged.length), f F.Q_LEVEL_INFLIGHT q.inflight.length]
  | .Q_PC => [f F.Q_PC_PC ((m.qu i).frame.pc.getD 0xFFFFFFFF)]
  | .Q_HEAD => [(0, 128, ((m.headWord i).getD 0).toNat)]
  | .Q_UNIT_STAT =>
    [f F.Q_UNIT_STAT_SLOTS_FREE (256 - m.slotsUsed), f F.Q_UNIT_STAT_SHARED_USED m.sharedUsed,
     f F.Q_UNIT_STAT_CPL_STALL (b2n (m.cplStall && decide (960 ≤ m.cplUnread + m.cplReserved)))]
  | .Q_CPL_WR => [(0, 32, m.rings.cplWr)]
  | .Q_CPL_RD => [(0, 32, m.rings.cplRd)]
  | .Q_CPL_LOST => [(0, 32, m.rings.cplLost)]
  | .Q_CPL_QN =>
    (match m.cplPeek with
     | some (_, q) => [f F.Q_CPL_QN_QUEUE q, f F.Q_CPL_QN_EMPTY 0]
     | none => [f F.Q_CPL_QN_QUEUE 0, f F.Q_CPL_QN_EMPTY 1])
  | .Q_CPL_PEEK | .Q_CPL_POP => [(0, 128, (match m.cplPeek with | some (x, _) => x.toNat | none => 0))]
  | .Q_EVT_WR => [(0, 32, m.rings.evtWr)]
  | .Q_EVT_RD => [(0, 32, m.rings.evtRd)]
  | .Q_EVT_LOST => [(0, 32, m.rings.evtLost)]
  | .Q_EVT_MWR => [(0, 32, m.rings.evtMwr)]
  | .Q_EVT_PEEK | .Q_EVT_POP => [(0, 128, (m.evtPeek.getD 0).toNat)]
  | .Q_GI_STAT => [f F.Q_GI_STAT_ACTIVE ((List.range 16).map fun g => b2n (m.giActive g) * 2 ^ g).sum]
  | .GR_STATUS =>
    let a := m.arm i
    [f F.GR_STATUS_RUNNING (b2n (m.groupInFlight i)), f F.GR_STATUS_ESTOP (b2n (a.run.isSome && a.emergency)),
     f F.GR_STATUS_COUNT (m.membersOf i).length]
  | .GR_REG_ERR => [f F.GR_REG_ERR_OFS (pubPos (m.regch i).ofs)]
  | .GR_FSTAT =>
    let t := (m.ax i).trim
    [f F.GR_FSTAT_TRIM_ON (b2n t.on), f F.GR_FSTAT_TRIM_CH t.ch, f F.GR_FSTAT_TRIM_STALE (b2n t.stale)]
  | .PW_SAFE_STAT => [f F.PW_SAFE_STAT_IN_SAFE (b2n (m.forced i)), f F.PW_SAFE_STAT_WHY (m.safeWhy i)]
  | .PW_TRIP_STAT => [f F.PW_TRIP_STAT_ACT_A (b2n m.inp.tripA), f F.PW_TRIP_STAT_ACT_B (b2n m.inp.tripB)]
  | .PW_VMON_STAT => [f F.PW_VMON_STAT_OV_NOW (b2n (m.bank i).clamp)]
  | .CS_STAT =>
    [f F.CS_STAT_SHADOW_ACT (b2n (m.shadowing i)), f F.CS_STAT_SPARE ((m.spareOf i).getD 7),
     f F.CS_STAT_RETIRED (bitsOf (m.rd F.KN_UNITS_SLICE) (5 * i) 5)]
  | .CS_SLICE => if m.rd F.CS_SLICE_ROLE i k.j == 1 || m.rd F.CS_SLICE_ROLE i k.j == 2 then [f F.CS_SLICE_ROLE (if m.rb F.CS_CFG_SHADOW_EN i then 1 else 2)] else []
  | .CS_WIN_STAT => [f F.CS_WIN_STAT_NOW (m.bank i).winNow]
  | .CS_SCAN_PEEK | .CS_SCAN_POP => [(0, 128, (m.scanPeek i).toNat)]
  | .LA_BSTAT =>
    let pick (g : Fld) : Nat := ((List.range 12).map fun j => m.rd g i j * 2 ^ j).sum
    [f F.LA_BSTAT_VALID (pick F.LA_AX_VALID), f F.LA_BSTAT_STALL_NOW (pick F.LA_AX_STALL_NOW)]
  | .LA_AX_STAT =>
    let a := m.ax (12 * i + k.j)
    [f F.LA_AX_STAT_RETRY_CNT (match a.kept with | some x => x.retry.count | none => a.retry.count)]
  | .FB_PINS => [(0, 32, m.pinsWord i)]
  | .FB_STAT => [f F.FB_STAT_WARN_NOW (b2n (m.port i).warnNow)]
  | .SF_STATUS => [f F.SF_STATUS_BLANK_NOW (b2n m.blankNow)]
  | .SF_CH_STAT => [f F.SF_CH_STAT_IMPL (b2n (m.chan i).impl)]
  | .SF_EX_STAT => [f F.SF_EX_STAT_ON (b2n (m.rb F.SF_EX_CFG_EN i && m.rd F.SF_EX_CFG_MODE i != 3 && m.clk.running))]
  | .SF_Q_PEEK | .SF_Q_POP => [(0, 128, m.sfPeek.toNat)]
  | .FM_STATUS =>
    [f F.FM_STATUS_IN_TKO (b2n (!m.fm.tkos.isEmpty)), f F.FM_STATUS_ER_FREE (b2n m.erFree),
     f F.FM_STATUS_CRS_FREE (b2n m.crsFree), f F.FM_STATUS_SPL_FREE (b2n m.splFree),
     f F.FM_STATUS_SLICE_SPARE ((List.range 4).map fun b => b2n ((m.spareOf b).isSome) * 2 ^ b).sum,
     f F.FM_STATUS_RC_REF (b2n m.fm.rcRef)]
  | .FM_CLK => [f F.FM_CLK_XTAL_OK (b2n m.fm.xtalOk)]
  | .FM_FAULTN => [f F.FM_FAULTN_LINE (b2n m.fm.line)]
  | .KN_SUPPLY =>
    [f F.KN_SUPPLY_VAUX_GOOD (b2n m.kn.vauxGood), f F.KN_SUPPLY_LG_ARMED (b2n m.lgArmed),
     f F.KN_SUPPLY_VIO_H_GOOD (m.railGood F.KN_SUPPLY_VIO_H_GOOD 9810), f F.KN_SUPPLY_VIO_N_GOOD (m.railGood F.KN_SUPPLY_VIO_N_GOOD 9811),
     f F.KN_SUPPLY_VIO_F_GOOD (m.railGood F.KN_SUPPLY_VIO_F_GOOD 9812)]
  | .KN_LGASP => [f F.KN_LGASP_VHOLD_V m.kn.vhold]
  | .KN_MEMO => [(0, 32, m.memoShown)]
  | .KN_STATE => [f F.KN_STATE_STEP m.knStep, f F.KN_STATE_PHASE m.knPhase, f F.KN_STATE_ATTEMPT (min 3 (cntOf m.kn.counts (max 1 m.kn.step)))]
  | .KN_FAILCNT => [(0, 32, m.failCounts)]
  | .KN_ALT =>
    [f F.KN_ALT_IN_FORCE m.kn.alt, f F.KN_ALT_DRAM_SLOW (b2n (m.kn.slow && m.kn.trained)),
     f F.KN_ALT_OTHER_COPY_FIRST (b2n m.kn.otherFirst.isSome), f F.KN_ALT_RC_CLOCK (b2n m.kn.rcStart)]
  | .NV_KEY_STAT =>
    [f F.NV_KEY_STAT_PROG ((List.range 4).map fun s => b2n (vget none m.otp.hashes s).isSome * 2 ^ s).sum,
     f F.NV_KEY_STAT_REVOKED m.otp.revoked, f F.NV_KEY_STAT_REQUIRE_SIG (b2n m.otp.reqSig)]
  | .PT_SEQ => [(0, 32, (m.patNewest.map fun s => m.patGet s 8 4).getD 0)]
  | .ST_STAT => [f F.ST_STAT_STATE m.stState, f F.ST_STAT_ARMED (b2n m.st.armed)]
  | .HP_STAT =>
    [f F.HP_STAT_GEN m.hp.gen, f F.HP_STAT_LANES_H (m.rd F.HP_CFG_LANES_H % 3), f F.HP_STAT_LANES_D (m.rd F.HP_CFG_LANES_D % 3)]
  | .GL_STATUS => [f F.GL_STATUS_HALTED (b2n m.dbgHalt)]
  | .GL_IDATA => [(0, 32, if m.rb F.GL_ISTAT_BUSY then 0 else m.hp.pre)]
  | .GL_TS => [(0, 80, m.glTs)]
  | _ => []

/-- What a read of a register returns (R12, R492): its stored fields, live fields in place, zero for WO fields. -/
def Mach.peek (m : Mach) (k : RegKey) : Nat := without (overlay (m.reg k.r k.i k.j) (m.live k)) k.r.desc.woBits

/-- What a read takes with it (R195, R198, R245, R320, R401): the side effect at the end of the frame. -/
def Mach.readEffect (m : Mach) (k : RegKey) : Mach :=
  match k.r with
  | .Q_CPL_POP => m.cplPop
  | .Q_EVT_POP => m.evtPop
  | .CS_SCAN_POP => m.scanPop k.i
  | .SF_Q_POP => m.sfPop
  | .AX_HARM_DATA => m.harmAdvance k.i
  | _ => m

/-! ### Locks -/

/-- R489: the GL_LOCK bit that guards a register's RWL fields. -/
def lockBit (k : RegKey) : Option Nat :=
  match k.r with
  | .PW_SAFE | .PW_VMON_CFG => some 0
  | .PW_TRIP_CFG => some 1
  | .HL_CFG | .HL_CFG2 => some 2
  | .AX_PROF => if k.j = 7 then some 3 else none
  | .AX_CFG | .AX_LIM_CFG | .AX_LIM_AWAY | .AX_SLIM | .LA_VER_LIM => some 4
  | .GL_DBG => some 5
  | _ => none

/-- The registers with guarded fields. -/
def guardedRegs : List Reg :=
  [.PW_SAFE, .PW_VMON_CFG, .PW_TRIP_CFG, .HL_CFG, .HL_CFG2, .AX_PROF, .AX_CFG, .AX_LIM_CFG, .AX_LIM_AWAY, .AX_SLIM, .LA_VER_LIM, .GL_DBG]

/-- The keys of a register. -/
def Reg.keys (r : Reg) : List RegKey :=
  ((List.range r.desc.n1).map fun i => (List.range r.desc.n2).map fun j => (⟨r, i, j⟩ : RegKey)).flatten

/-- R490: the last written values of the fields that the lock bits `bits` guard are recorded. -/
def Mach.recordLocks (m : Mach) (bits : Nat) : Mach :=
  let ks := ((guardedRegs.map Reg.keys).flatten).filter fun k => match lockBit k with
    | some b => bitOf bits b && !m.hp.locks.any (fun x => x.1 == k)
    | none => false
  { m with hp := { m.hp with locks := m.hp.locks ++ ks.map fun k => (k, m.reg k.r k.i k.j &&& k.r.desc.rwlBits) } }

/-- R490: whether the locks `bits` refuse that a register comes to hold `result`. -/
def Mach.lockRefuses (m : Mach) (bits : Nat) (k : RegKey) (result : Nat) : Bool :=
  match lockBit k with
  | some b =>
    bitOf bits b && (match m.hp.locks.find? (fun x => x.1 == k) with
      | some x => (result &&& k.r.desc.rwlBits) != x.2
      | none => (result &&& k.r.desc.rwlBits) != (m.reg k.r k.i k.j &&& k.r.desc.rwlBits))
  | none => false

/-- The locks as they stand. -/
def Mach.lockBits (m : Mach) : Nat := m.rd F.GL_LOCK_LOCK

/-! ### When a write takes effect -/

/-- The boundary at which a write of a register applies, with the choice in force (R491); none at once. -/
def Mach.stageAt (m : Mach) (k : RegKey) : Option (ApplyMode × Nat) :=
  let by_ (md : ApplyMode) (c : Nat) : Option (ApplyMode × Nat) := if c = 0 then none else some (md, c)
  match k.r.desc.apply with
  | .axApply => by_ .axApply (m.rd F.AX_CFG_APPLY k.i)
  | .pwApply => some (.pwApply, if m.rd F.PW_CFG_APPLY k.i = 2 then 2 else 1)
  | .csApply => some (.csApply, if m.rd F.CS_CFG_APPLY k.i = 2 then 2 else 1)
  | .laApply => by_ .laApply (min 2 (m.rd F.LA_CFG_APPLY k.i))
  | .fbApply => if m.rd F.FB_CFG_APPLY k.i = 0 then none else some (.fbApply, 2)
  | .sfApply => if m.rd F.SF_CFG_APPLY = 0 then none else some (.sfApply, 1)
  | .nextTick => some (.nextTick, 0)
  | .nextSyncFrame => some (.nextSyncFrame, 0)
  | .nextHostFrame => some (.nextHostFrame, 0)
  | .segment => some (.segment, 0)
  | .passStart => some (.passStart, 0)
  | _ => none

/-- The bits of a register that wait for its boundary: the RWB fields, or all of them at a named point. -/
def stagedBits (k : RegKey) : Nat :=
  match k.r.desc.apply with
  | .nextTick | .nextSyncFrame | .nextHostFrame | .segment | .passStart => k.r.desc.rwBits
  | _ => k.r.desc.bitsWith (· == .rwb)

/-- R491 to R493: a register takes a written value, at once or from its boundary on; `now` for an image record. -/
def Mach.store (m : Mach) (k : RegKey) (w : Nat) (now : Bool) : Mach :=
  let old := m.reg k.r k.i k.j
  let new := k.r.desc.merge old w
  let force := m.force k.r k.i k.j
  let m1 := m.setReg k.r k.i k.j new
  let rest := m1.staged.filter fun s => s.key != k
  match (if now then none else m.stageAt k) with
  | none => { m1 with staged := rest }
  | some (md, c) =>
    let sb := stagedBits k
    let f := (force &&& sb) + without new sb
    if f = new then { m1 with staged := rest }
    else { m1 with staged := rest ++ [{ key := k, force := BitVec.ofNat 128 f, at_ := md, choice := c, ready := false, seen := 0 }] }

end Sys2Proof.Machine
end

