-- ==== Sys2Proof/Machine/Access.lean ====
section
/-!
DEFINITION. Accesses of the host: statuses and their records (R471, R478), 32-bit units of wide registers with the hold and
the stage (R487), the DRAM window (R470), the indirect access (R488), and what a write of each register sets off.
-/

namespace Sys2Proof.Machine

def Mach.modHp (m : Mach) (f : HostPort → HostPort) : Mach := { m with hp := f m.hp }

/-! ### Statuses -/

/-- R471, R478: a non-zero status: its counter in HP_ERR, HP_LAST, and HP_BUS_ERR once. Log entry 59 (DEDUCED). -/
def Mach.hpError (m : Mach) (status addr seq : Nat) (bcast : Bool) : Mach :=
  let m1 := match status with
    | 1 => m.bump F.HP_ERR_BUS_CNT
    | 2 => m.bump F.HP_ERR_LOCK_CNT
    | _ => m.bump F.HP_ERR_CMD_CNT
  let m2 := m1.setReg .HP_LAST 0 0
    (addr % 2 ^ 40 + status * 2 ^ 40 + b2n bcast * 2 ^ 47 + m.stamp * 2 ^ 48 + seq % 2 ^ 16 * 2 ^ 96)
  let m3 := if m2.hp.busNoted then m2
    else m2.post Ev.HP_BUS_ERR 0 (addr % 2 ^ 40 + status * 2 ^ 40 + b2n bcast * 2 ^ 44)
  m3.modHp fun h => { h with busNoted := true }

/-! ### Targets -/

/-- What a byte address of the host space names (R480): a register's word with the alias, a DRAM offset, or nothing. -/
inductive Target where
  | reg (k : RegKey) (word : Nat) (al : Alias)
  | dram (off : Nat)
  | none
  deriving DecidableEq, Repr

/-- The alias of an address's top byte. -/
def aliasOf : Nat → Option Alias
  | 0 => some .plain
  | 1 => some .set
  | 2 => some .clr
  | 3 => some .tgl
  | _ => Option.none

/-- R480: the target of an address. Log entry 65 (DEDUCED). -/
def target (a : Nat) : Target :=
  let hi := a / 2 ^ 32
  let x := a % 2 ^ 32
  if hi = 0x10 then .dram x
  else match aliasOf hi, (if x < 0x01000000 then regAt x else Option.none) with
    | some al, some (k, w) => .reg k w al
    | _, _ => .none

/-- R481: whether a register answers. -/
def Mach.regAnswers (m : Mach) (k : RegKey) : Bool := m.answers k.addr

/-! ### The DRAM window -/

/-- R471, R422, R424: the status of a window read. Log entry 62 (DESIGN CHOICE). -/
def Mach.windowReadStatus (m : Mach) (off : Nat) : Nat :=
  let late := m.fm.tkos.any (fun t => t.unit == 0x46) && Config.freeBit m.clk.draws (8000 + off / 16)
  if !m.windowAnswers || m.badWord off || late then 1 else 0

/-- R30, R112, R447: the offsets at which the window takes host writes. -/
def Mach.windowTakes (m : Mach) (off : Nat) : Bool :=
  m.windowAnswers && decide (0x04000000 ≤ off) && !decide (0x05100000 ≤ off ∧ off < 0x06000000)
    && decide (off < 0x10000000 * max 1 (m.rd F.ST_REGION_M))

/-- R30: what a host read of `n` bytes gives: DRAM, and in the module's scratch, whose layout the spec does not give, no known value.
Log entry 111 (DESIGN CHOICE). -/
def Mach.windowRead (m : Mach) (off n : Nat) : Nat :=
  if 0x05100000 ≤ off ∧ off < 0x06000000 then m.free (20000000 + off) % 2 ^ (8 * n) else m.dramRead off n

/-- A write of `n` bytes in the window; a word written whole carries valid check bits again. -/
def Mach.windowWrite (m : Mach) (off n v : Nat) : Mach × Nat :=
  if m.windowTakes off then
    let m1 := m.dramWrite off n v
    (if n = 16 then m1.modFm fun x => { x with badWords := x.badWords.filter (·.1 != off / 16) } else m1, 0)
  else (m, 1)

/-! ### Reads -/

/-- R487: the word `w` of a wide register at address `tag`, through the hold. -/
def Mach.holdRead (m : Mach) (k : RegKey) (tag w : Nat) : Nat × Mach :=
  if w = 0 then
    let v := m.peek k
    (bitsOf v 0 32, m.modHp fun h => { h with hold := some (tag, BitVec.ofNat 128 v) })
  else match m.hp.hold with
    | some (t, v) =>
      if t = tag then (bitsOf v.toNat (32 * w) 32, m)
      else (bitsOf (m.peek k) (32 * w) 32, m.setBit F.GL_STATUS_HOLD_MISS)
    | Option.none => (bitsOf (m.peek k) (32 * w) 32, m.setBit F.GL_STATUS_HOLD_MISS)

/-- A 32-bit read of a unit through a compact slot or the indirect access: its status, its value, and the register whose
side effect the end of the frame takes. -/
def Mach.read32 (m : Mach) (a : Nat) : Nat × Nat × Option RegKey × Mach :=
  match target a with
  | .reg k w _ =>
    if !m.regAnswers k then (1, 0, Option.none, m)
    else if k.r.desc.wide then
      let (v, m1) := m.holdRead k (a - 4 * w) w
      (0, v, if w = 0 then some k else Option.none, m1)
    else (0, m.peek k, some k, m)
  | .dram off => if m.windowReadStatus off = 0 then (0, m.windowRead (off / 4 * 4) 4, Option.none, m) else (1, 0, Option.none, m)
  | .none => (1, 0, Option.none, m)

/-! ### Indirect access -/

/-- The indirect address (R488). -/
def Mach.iaddr (m : Mach) : Nat := (m.rd F.GL_IADDR_ADDR / 4 * 4 + m.rd F.GL_IADDR_HI_ADDR * 2 ^ 32) % 2 ^ 40

/-- R488: a status of an indirect access is recorded: in Gen-3 with the address of GL_IDATA, else with its slot and the axis of the
frame; with the SEQ of the frame. Log entry 59 (DEDUCED). -/
def Mach.idataFail (m : Mach) (st : Nat) : Mach :=
  let x := m.hp.now.getD (0, m.rd F.GL_AXSEL_AXIS, false)
  if st = 0 then m else m.hpError st (if m.hp.gen = 3 then 0x28 else 122 + x.2.1 * 2 ^ 8) x.1 x.2.2

/-- R488: a prefetch of the unit at the indirect address starts, and takes no side effect. Log entry 60 (DEDUCED). -/
def Mach.prefetch (m : Mach) : Mach :=
  let r := m.read32 m.iaddr
  ((r.2.2.2.modHp fun h => { h with pre := r.2.1, preStat := r.1 }).setBit F.GL_ISTAT_BUSY).idataFail r.1

/-- R488: with INC the address advances by 4 and the next prefetch starts. -/
def Mach.iadvance (m : Mach) : Mach :=
  if m.rb F.GL_IADDR_HI_INC then
    let a := (m.iaddr + 4) % 2 ^ 40
    ((m.wr F.GL_IADDR_ADDR (a % 2 ^ 32)).wr F.GL_IADDR_HI_ADDR (a / 2 ^ 32)).prefetch
  else m

/-- The side effect of a read of the unit that was prefetched. -/
def Mach.preEffect (m : Mach) (t : Target) : Mach :=
  match t with
  | .reg k w _ => if m.hp.preStat = 0 ∧ k.r ≠ Reg.GL_IDATA ∧ (!k.r.desc.wide ∨ w = 0) then m.readEffect k else m
  | _ => m

/-- R488: what a read of GL_IDATA takes with it. -/
def Mach.idataRead (m : Mach) : Mach :=
  if m.rb F.GL_ISTAT_BUSY then m.setBit F.GL_ISTAT_EARLY
  else
    (m.preEffect (target m.iaddr)).iadvance

/-- R472: the side effect of a register read, GL_IDATA among them. -/
def Mach.takeEffect (m : Mach) (k : RegKey) : Mach := if k.r = .GL_IDATA then m.idataRead else m.readEffect k

/-- R488: a prefetch or an indirect write completes. -/
def Mach.prefetchDone (m : Mach) : Mach :=
  if m.rb F.GL_ISTAT_BUSY then (m.clrFld F.GL_ISTAT_BUSY).wr F.GL_ISTAT_STATUS m.hp.preStat else m

/-! ### What a write sets off -/

/-- R497, R287: GL_DBG. Log entry 60 (DEDUCED). -/
def Mach.writeDbg (m : Mach) (v : Nat) : Mach :=
  if bitsOf v 8 8 ≠ 0xA5 then m.setBit F.GL_STATUS_DBG_REFUSED
  else if bitOf v 0 then
    let m1 := m.wr F.GL_DBG_HALT 1
    if m.dbgHalt then m1
    else
      let m2 := m1.debugHalt.post Ev.GL_DBG_HALT 0 0
      { m2 with hp := { m2.hp with dbgAt := some m.stamp } }
  else
    let m1 := m.wr F.GL_DBG_HALT 0
    if m.dbgHalt then
      let d := match m.hp.dbgAt with
        | some t => unsignedOf 48 ((m.stamp : Int) - (t : Int))
        | none => 0
      let m2 := m1.debugHaltEnd.post Ev.GL_DBG_END 0 d
      { m2 with hp := { m2.hp with dbgAt := none } }
    else m1

/-- R489: GL_LOCK; the values are recorded once the frame's writes have taken effect (`recordLocks`). -/
def Mach.writeLock (m : Mach) (v : Nat) (image : Bool) : Mach :=
  let old := m.rd F.GL_LOCK_LOCK
  let new := without (bitsOf v 0 6) old
  if new = 0 then m
  else (m.wr F.GL_LOCK_LOCK (old + new)).post Ev.GL_LOCK_SET 0 (new + 64 * b2n image)

/-- R356: FB_CFG; a refused MODE leaves the other fields to change. Log entry 63 (DEDUCED). -/
def Mach.writeFbCfg (m : Mach) (p v : Nat) (now : Bool) : Mach :=
  let old := m.rd F.FB_CFG_MODE p
  let cur := bitsOf (m.reg .FB_CFG p 0) 0 3
  let refused := m.fbModeRefused p
  let bad := bitsOf v 0 3 == 7
  let v1 := if refused then putBits v 0 3 cur else v
  let m1 := if refused then m.setBit F.FB_STAT_MODE_REFUSED p else m
  let m2 := (m1.store ⟨.FB_CFG, p, 0⟩ v1 now).when (bad && !refused) (·.setBit F.FB_STAT_MODE_BAD p)
  let m3 := if m2.rd F.FB_CFG_MODE p ≠ old then m2.portReset p else m2
  if m3.rd F.FB_CFG_POL p ≠ m.rd F.FB_CFG_POL p then m3.polChange p (m.rd F.FB_CFG_POL p) else m3

/-- R381, R382, R405: a write of a crosspoint, bias or curve register of a channel. -/
def Mach.writeSfCh (m : Mach) (k : RegKey) (v : Nat) (now : Bool) : Mach :=
  if m.chWriteOk k.r k.i v now then
    let m0 := m.store k v now
    let m1 := if (m0.stageAt k).isNone && k.r == .SF_CH_CFG then m0.gainAfresh k.i else m0
    if (m1.stageAt k).isNone && m.clk.running then m1.sfAfresh k.i else m1.each 2 fun m c => m.convKick c
  else m.sfCfgBad k.addr

/-- What the window of a pass has measured, where the command that asks for the pass does not say it: nothing is known.
Log entry 64 (DESIGN CHOICE). -/
def Mach.freeWin (m : Mach) : PatinaWin :=
  let v (w k : Nat) : BitVec w := BitVec.ofNat w (m.free (7000 + k))
  { refCount := m.free 7000, eyeR := v 8 2, eyeW := v 8 3
    dies := m.pt.hrs.map fun _ => Vector.ofFn fun i => (m.free (7004 + i.val) : Nat)
    axes := (List.range 48).map fun n =>
      { dly := if m.free (7010 + 10 * n) % 2 = 0 then some (v 16 (10 * n + 16), v 16 (10 * n + 18)) else none } }

/-- A write reaches its owner: what the register takes, and what the write sets off. `image` for an image record (R113).
Log entries 64 (DESIGN CHOICE), 130 (DESIGN CHOICE). -/
def Mach.ownerWrite (m : Mach) (k : RegKey) (w : Nat) (image : Bool) : Mach :=
  let i := k.i
  let st := m.store k w image
  match k.r with
  | .PW_PERIOD => ((m.writePeriod i w)).stPeriodChange i
  | .PW_CH_OFS => m.writeChOfs i k.j w
  | .PW_CFG => m.writePwCfg i w
  | .PW_SAFE => m.writeSafe i (w &&& k.r.desc.rwBits)
  | .PW_BFAULT => m.bfaultClear i (bitsOf w 0 12)
  | .PW_TRIP_STAT => (m.store k (putBits w 0 1 0) image).when (bitOf w 0) (·.tripClear)
  | .PW_TRIP_CFG => st.tripAct
  | .PW_SYNC_CFG => if image then st.takeRole else { st with sync := { st.sync with rewritten := true } }
  | .PW_VMON_STAT => st.when (bitOf w 6) (·.vmResumeCmd i)
  | .KN_CTRL => m.writeKnCtrl w
  | .NV_COMMIT =>
    let m1 := m.when (bitOf w 1) (·.tieAck)
    if bitOf w 0 then
      match bitsOf w 2 2 with
      | 0 => m1.commitImage
      | 1 => m1.commitOverlay
      | 2 => m1.commitCal
      | _ => m1.commitKind3
    else m1
  | .NV_ACC_CTRL => st.when (bitOf w 2) (·.accGo (bitsOf w 0 2))
  | .NV_KEY_CMD =>
    if bitsOf w 8 8 ≠ 0xA5 then m
    else match bitsOf w 2 2 with
      | 1 => m.keyProgram (bitsOf w 0 2)
      | 2 => m.keyRevoke (bitsOf w 0 2)
      | 3 => m.keyRequireSig
      | _ => m
  | .AX_CTRL => m.writeAxCtrl i w
  | .AX_RETGT => let v := w &&& k.r.desc.rwBits; st.modAx i fun a => { a with retgt := some (BitVec.ofNat 128 v) }
  | .AX_CFG => st.when (bitOf w 2 && !m.rb F.AX_CFG_SLIM_EN i) fun m => m.modAx i fun a => { a with slimCheck := true }
  | .AX_SLIM => st.modAx i fun a => { a with slimCheck := true }
  | .AX_LIM_STAT =>
    let m1 := m.store k (putBits w 2 2 0) image
    (m1.when (bitOf w 2) (·.limClear i false)).when (bitOf w 3) (·.limClear i true)
  | .AX_HARM_DATA => m.writeHarm i (bitsOf w 0 32)
  | .Q_CTRL => m.writeQCtrl i w
  | .Q_RTN => st.when (bitOf w 31) (·.rtnStart i (bitsOf w 0 8) false)
  | .Q_ABORT => m.writeQAbort i w
  | .Q_PUSH => m.push i (BitVec.ofNat 128 w)
  | .Q_PUSH_DB => (m.push i (BitVec.ofNat 128 w)).publish i
  | .Q_DB => m.writeQDb i w
  | .Q_MDB_LO => m.mdb false w
  | .Q_MDB_HI => m.mdb true w
  | .Q_ABORT_X => m.writeAbortX w
  | .Q_CPL_RD => m.writeCplRd w
  | .Q_EVT_RD => m.writeEvtRd w
  | .GR_MEMB_LO => m.writeMemb i false w
  | .GR_MEMB_HI => m.writeMemb i true w
  | .GR_CTRL => m.when (bitOf w 0) (·.groupStop i)
  | .CS_INJ_CTRL => st.when (bitOf w 8) fun m => m.injGo i 0xFF m.cyc
  | .CS_SCAN_CFG => (st.when (bitOf w 6) (·.scanStopCmd i)).when (bitOf w 5) (·.scanGo i 0xFF)
  | .CS_PCHK => st.when (bitOf w 8) (·.pchkStart i)
  | .LA_CTRL => m.writeLaCtrl i w
  | .LA_VER_CFG => st.when (bitOf w 0 && !m.rb F.LA_VER_CFG_EN i k.j) (·.verCapture (12 * i + k.j))
  | .FB_CFG => m.writeFbCfg i w image
  | .FB_CTRL => m.writeFbCtrl i w
  | .FB_STAT => (m.store k (putBits w 0 1 0) image).when (bitOf w 0) (·.portFaultClear i)
  | .FB_SCALE => if image then st.portRescale i else st
  | .FB_FOLLOW => m.writeFbFollow i w
  | .SF_AUX_CFG =>
    let m1 := st.when (bitOf w 28) (·.auxStop i)
    (m1.when (bitOf w 27) (·.auxGo i)).convKick i
  | .SF_SEQ => st.convKick i
  | .SF_EX_CFG => m.writeExCfg i (w &&& k.r.desc.rwBits)
  | .SF_CH_CFG | .SF_CH_BIAS | .SF_CH_CURVE | .SF_CH_P => m.writeSfCh k (w &&& k.r.desc.rwBits) image
  | .SF_TDAC => st.tdacWritten
  | .SF_CHK => st.when (bitOf w 3) (·.chkGo)
  | .SF_CAL_CMD =>
    (match bitsOf w 3 2 with
     | 0 => st
     | 3 => st.calCancel
     | c => st.calStart (bitsOf w 0 3) c (bitsOf w 8 4))
  | .SF_REP_CFG => if m.clk.running then st.repWritten i (m.repOn i) else st
  | .SF_REP_HOST => st.repTake 8 (signedOf 32 w) i
  | .FM_INJECT => m.inject w
  | .PT_CTRL =>
    (m.when (bitOf w 0) (·.patinaPass m.freeWin)).when (bitOf w 1) (·.clrLimits)
  | .ST_CTRL => m.writeStCtrl w
  | .ST_CFG => if bitOf w 0 == m.rb F.ST_CFG_EN then st else st.stEnable (bitOf w 0)
  | .ST_REGION => if image then st else m.stRegion (bitsOf w 0 4)
  | .ST_SEL => if m.stSelOk i w then (if image then st else st.stSelWait k).stShowRate else m.setBit F.ST_STAT_RATE_REFUSED
  | .HP_CTRL => if bitOf w 0 then { m with hp := { m.hp with clrDue := true } } else m
  | .GL_LOCK => m.writeLock w image
  | .GL_DBG => m.writeDbg w
  | .GL_IADDR | .GL_IADDR_HI => st.prefetch
  | .GL_IDATA => m
  | _ => st

/-- The W1C bits of a register whose conditions hold now (R495): those that name a state, not a happening.
Log entry 125 (DEDUCED). -/
def Mach.levelBits (m : Mach) (k : RegKey) : Nat :=
  let i := k.i
  let at_ (f : Fld) (c : Bool) : Nat := b2n c * 2 ^ f.lo
  match k.r with
  | .PW_VMON_STAT => at_ F.PW_VMON_STAT_UV (m.rb F.PW_VMON_STAT_UV_NOW i) + at_ F.PW_VMON_STAT_OV (m.bank i).clamp
  | .PW_STAT =>
    at_ F.PW_STAT_GATE_UV (m.bank i).gateUv + at_ F.PW_STAT_CLK_STOP (m.bank i).clkStop + at_ F.PW_STAT_DBG m.dbgHalt
  | .PW_SAFE_STAT => at_ F.PW_SAFE_STAT_ALL_DIFF (m.bank i).allDiff
  | .PW_SYNC_STAT => at_ F.PW_SYNC_STAT_FRAME_BAD ((List.range 4).any fun b => m.rb F.PW_CFG_SYNC_EN b && (m.bank b).frameBad)
  | .AX_LIM_STAT =>
    at_ F.AX_LIM_STAT_BOTH ((m.ax i).eff != .off && m.rb F.AX_LIM_CFG_EN_A i && m.rb F.AX_LIM_CFG_EN_B i && m.limActive i false
      && m.limActive i true)
  | .SF_EX_STAT => vget 0 m.sf.exLive i
  | .HL_STAT =>
    at_ F.HL_STAT_TBP_HIGH m.heat.tbpNoted + at_ F.HL_STAT_W_STALE ((List.range 48).any fun n => (m.hax n).staleNoted)
  | .PT_STAT =>
    at_ F.PT_STAT_OSC (bitOf m.pt.noted 0) + at_ F.PT_STAT_WEAR (bitsOf m.pt.noted 1 4 != 0) + at_ F.PT_STAT_EYE_LOW (bitOf m.pt.noted 5)
      + at_ F.PT_STAT_CP (bitOf m.pt.noted 6) + at_ F.PT_STAT_FRIC (m.pt.fricNoted != 0)
  | _ => 0

/-- R495: a bit whose condition still holds when `old` had it is set again after a clear. Log entry 125 (DEDUCED). -/
def Mach.levelsHold (m : Mach) (k : RegKey) (old : Nat) : Mach :=
  let b := m.levelBits k &&& old
  if b = 0 then m else m.setReg k.r k.i k.j (m.reg k.r k.i k.j ||| b)

/-- R490: a host write of a register under the locks `bits`; answers the status (R471). -/
def Mach.lockedWrite (m : Mach) (bits : Nat) (k : RegKey) (w : Nat) : Mach × Nat :=
  if m.lockRefuses bits k (k.r.desc.merge (m.peek k) w) then (m.setBit F.GL_STATUS_LOCK_VIOL, 2)
  else ((m.ownerWrite k w false).levelsHold k (m.reg k.r k.i k.j), 0)

/-! ### Writes of units -/

/-- A write of a register through its full window or an alias, under the locks `bits`. -/
def Mach.regWrite (m : Mach) (bits : Nat) (k : RegKey) (al : Alias) (w : Nat) : Mach × Nat :=
  if !m.regAnswers k then (m, 1)
  else match k.r.desc.aliasWord (m.peek k) w al with
    | some v => m.lockedWrite bits k v
    | Option.none => (m, 0)

/-- R487: a 32-bit write of word `w` of a wide register at address `tag`: kept in the stage, or, for word 0, the write of
the whole register. -/
def Mach.stageWrite (m : Mach) (bits : Nat) (k : RegKey) (al : Alias) (tag w v : Nat) : Mach × Nat :=
  if w = 0 then
    let old := m.peek k
    let (mask, words, miss) := match m.hp.stage with
      | some (t, msk, ws) => if t = tag then (msk, ws.toNat, false) else (0, 0, true)
      | Option.none => (0, 0, false)
    let pick (i : Nat) : Nat := if i = 0 then v % 2 ^ 32 else if bitOf mask i then bitsOf words (32 * i) 32 else bitsOf old (32 * i) 32
    let whole := ((List.range 4).map fun i => pick i * 2 ^ (32 * i)).sum
    let m1 := (m.modHp fun h => { h with stage := Option.none }).when miss (·.setBit F.GL_STATUS_STAGE_MISS)
    m1.regWrite bits k al whole
  else
    let (mask, words) := match m.hp.stage with
      | some (t, msk, ws) => if t = tag then (msk, ws.toNat) else (0, 0)
      | Option.none => (0, 0)
    (m.modHp fun h => { h with stage := some (tag, putBits mask w 1 1, BitVec.ofNat 128 (putBits words (32 * w) 32 v)) }, 0)

/-- R488: the unit `t` at the indirect address `a` is written, as a full-window write. -/
def Mach.idataUnit (m : Mach) (t : Target) (a bits v : Nat) : Mach × Nat :=
  match t with
  | .reg k w al =>
    if !m.regAnswers k then (m, 1)
    else if k.r = .GL_IDATA then (m, 0)
    else if k.r.desc.wide then m.stageWrite bits k al (a - 4 * w) w v
    else m.regWrite bits k al v
  | .dram off => m.windowWrite off 4 v
  | .none => (m, 1)

/-- R488: a write of GL_IDATA. The frame's own reply reports OK. -/
def Mach.idataWrite (m : Mach) (bits v : Nat) : Mach :=
  let r := m.idataUnit (target m.iaddr) m.iaddr bits v
  let m1 := (r.1.modHp fun h => { h with preStat := r.2 }).setBit F.GL_ISTAT_BUSY
  ((m1.idataFail r.2).wr F.GL_ISTAT_STATUS r.2).iadvance

/-- A write of a register by the host, GL_IDATA among them (R488). -/
def Mach.unitWrite (m : Mach) (bits : Nat) (k : RegKey) (al : Alias) (v : Nat) : Mach × Nat :=
  if k.r = .GL_IDATA then
    (if !m.regAnswers k then (m, 1)
     else match k.r.desc.aliasWord (m.peek k) v al with
       | some w => (m.idataWrite bits w, 0)
       | Option.none => (m, 0))
  else m.regWrite bits k al v

/-- R490: the end of a frame: a lock bit that it set records its fields; a clear of HP_ERR that it asked for is done. -/
def Mach.writesDone (m : Mach) (bits : Nat) : Mach :=
  let m1 := if m.lockBits = bits then m else m.recordLocks (without m.lockBits bits)
  if m1.hp.clrDue then (m1.modHp fun h => { h with clrDue := false }).setReg .HP_ERR 0 0 0 else m1

/-- A single write of a register by the host, as the only write of its frame (R473, R483, R490). -/
def Mach.hostAlias (m : Mach) (k : RegKey) (al : Alias) (w : Nat) : Mach :=
  let bits := m.lockBits
  let (m1, st) := m.unitWrite bits k al w
  (if st = 0 then m1 else m1.hpError st k.addr 0 false).writesDone bits

/-- A plain one. Log entry 65 (DEDUCED). -/
def Mach.hostWrite (m : Mach) (k : RegKey) (w : Nat) : Mach := m.hostAlias k .plain w

end Sys2Proof.Machine
end

