-- ==== Sys2Proof/Machine/HostPort.lean ====
section
/-!
DEFINITION. The host port (R462 to R479, R485, R486): generations, requests, the reply chain, frames and discarded frames.
-/

namespace Sys2Proof.Machine

/-! ### Lines -/

/-- R200: IRQ_N is driven low. -/
def Mach.irqLow (m : Mach) : Bool :=
  m.kn.phase == .hold || (m.kn.phase == .run && decide (m.reg .Q_IRQ 0 0 &&& m.reg .Q_IRQ_EN 0 0 ≠ 0))

/-- R428: the module drives FAULT_N low. -/
def Mach.faultLow (m : Mach) : Bool :=
  match m.kn.phase with
  | .gasp | .waiting | .hold | .spent => true
  | .run => m.driveFaultN
  | _ => false

/-! ### Generations -/

/-- R462: a change of generation that waits takes effect between frames; the reply chain starts afresh. A port that leaves its
silence changes no generation, and posts nothing. Log entries 19 (DEDUCED), 20 (DEDUCED). -/
def Mach.genTake (m : Mach) : Mach :=
  match m.hp.want with
  | none => m
  | some g =>
    let m1 := m.modHp fun h => { h with gen := g, want := none, rep := .first, frameErr := false }
    if m.hp.gen = 0 then m1 else m1.post Ev.HP_GEN 0 (g + m.rd F.HP_CFG_LANES_H % 3 * 4 + m.rd F.HP_CFG_LANES_D % 3 * 16)

/-- A frame begins: a change that waits, and HP_CFG from the frame before (R473). -/
def Mach.frameStart (m : Mach) : Mach :=
  ({ m with staged := m.staged.filter fun s => s.at_ != .nextHostFrame } : Mach).genTake

/-! ### Requests -/

/-- A request as the port reads it: command (0 NOP, 1 READ, 2 WRITE), whether the whole frame is BAD_CMD, SEQ, AXIS as sent
and as used, slot, byte address, 128-bit units, units, the LEN field, the value of a Gen-1 or Gen-2 write. -/
structure Request where
  cmd : Nat
  bad : Bool
  seq : Nat
  axis : Nat
  slot : Nat
  addr : Nat
  wide : Bool
  n : Nat
  len : Nat
  val : Nat
  deriving DecidableEq, Repr

/-- R466: a Gen-1 request; `cmd` is what its WR bit says. Log entry 60 (DEDUCED). -/
def Mach.request1 (m : Mach) (x cmd : Nat) : Request :=
  { cmd := cmd, bad := false, seq := 0, axis := m.rd F.GL_AXSEL_AXIS, slot := bitsOf x 32 7, addr := 0, wide := false, n := 1
    len := 0, val := bitsOf x 0 32 }

/-- R467: a Gen-2 request. -/
def Mach.request2 (m : Mach) (x cmd : Nat) : Request :=
  let ax := bitsOf x 48 8
  { cmd := cmd, bad := decide (3 ≤ cmd) || !(decide (ax < 48) || ax == 0xFF), seq := bitsOf x 32 8
    axis := if ax = 0xFF then m.rd F.GL_AXSEL_AXIS else ax, slot := bitsOf x 40 7, addr := 0, wide := false, n := 1, len := 0
    val := bitsOf x 0 32 }

/-- R468, R470: a Gen-3 request. -/
def request3 (x cmd : Nat) : Request :=
  let wide := bitOf x 121
  let len := bitsOf x 112 8
  let a := bitsOf x 0 40
  let u := if wide then 16 else 4
  let win := 0x10 * 2 ^ 32
  let bad := decide (cmd ≠ 0) && (decide (a % u ≠ 0) || (!wide && decide (win ≤ a ∧ a < win + 2 ^ 32))
    || decide (a < win ∧ win < a + u * (len + 1)))
  { cmd := cmd, bad := bad, seq := bitsOf x 96 16, axis := 0, slot := 0, addr := a, wide := wide, n := len + 1, len := len, val := 0 }

/-- The request of a frame in the generation in force. A Gen-1 frame has a WR bit only: no NOP. -/
def Mach.request (m : Mach) (x cmd : Nat) : Request :=
  match m.hp.gen with
  | 1 => m.request1 x (if cmd = 2 then 2 else 1)
  | 2 => m.request2 x (if cmd = 0 ∧ 3 ≤ bitsOf x 60 4 then bitsOf x 60 4 else cmd)
  | _ => request3 x cmd

/-- R485: the address of a compact slot; none for a slot of 0 to 95 with an index from 48 to 63. Log entry 60 (DEDUCED). -/
def slotAddr (s q : Nat) : Option Nat :=
  if s < 96 then
    if 48 ≤ q then none
    else if s < 64 then some (0x00010000 + 0x400 * q + 4 * s)
    else if s < 72 then some (0x00010100 + 0x400 * q + 4 * (s - 64))
    else some (0x00010200 + 0x400 * q + 4 * (s - 72))
  else if s < 112 then some (0x00020000 + 0x100 * q + 4 * (s - 96))
  else if s < 116 then some (0x00020050 + 0x100 * q + 4 * (s - 112))
  else if s < 120 then some (0x00024030 + 4 * (s - 116))
  else match s with
    | 120 => some 0x20 | 121 => some 0x24 | 122 => some 0x28 | 123 => some 0x2C
    | 124 => some 0x0C | 125 => some 0x04 | 126 => some 0x24070 | _ => some 0x00

/-- What HP_LAST and a reply name of a faulting compact access: slot and axis in force. Log entry 59 (DEDUCED). -/
def Request.fault (r : Request) : Nat := r.slot + r.axis * 2 ^ 8

/-! ### Gen-3 units -/

/-- One 32-bit unit of a Gen-3 read: status, value, register with a side effect. -/
def Mach.unitRead32 (m : Mach) (a : Nat) : Nat × Nat × Option RegKey :=
  match target a with
  | .reg k _ _ => if k.r.desc.wide || !m.regAnswers k then (1, 0, none) else (0, m.peek k, some k)
  | _ => (1, 0, none)

/-- One 128-bit unit of a Gen-3 read: its value, its faulting units, and registers with side effects (R470). -/
def Mach.unitRead128 (m : Mach) (a : Nat) : Nat × List (Nat × Nat) × List RegKey :=
  let fours : Nat × List (Nat × Nat) × List RegKey :=
    (List.range 4).foldl (fun (v, es, ks) j =>
      match m.unitRead32 (a + 4 * j) with
      | (0, x, some k) => (v + x * 2 ^ (32 * j), es, ks ++ [k])
      | (0, x, none) => (v + x * 2 ^ (32 * j), es, ks)
      | (st, _, _) => (v, es ++ [(st, a + 4 * j)], ks)) (0, [], [])
  match target a with
  | .dram off => if m.windowReadStatus off = 0 then (m.windowRead off 16, [], []) else (0, [(1, a)], [])
  | .reg k _ _ =>
    if k.r.desc.wide then (if m.regAnswers k then (m.peek k, [], [k]) else (0, [(1, a)], [])) else fours
  | .none => if a / 2 ^ 32 ≤ 3 ∧ a % 2 ^ 32 < 0x01000000 then fours else (0, [(1, a)], [])

/-- One 32-bit unit of a Gen-3 write. -/
def Mach.unitWrite32 (m : Mach) (bits a v : Nat) : Mach × Nat :=
  match target a with
  | .reg k _ al => if k.r.desc.wide then (m, 1) else m.unitWrite bits k al (v % 2 ^ 32)
  | _ => (m, 1)

/-- One 128-bit unit of a Gen-3 write, with its faulting units. -/
def Mach.unitWrite128 (m : Mach) (bits a v : Nat) : Mach × List (Nat × Nat) :=
  let note (x : Mach × Nat) (a : Nat) : Mach × List (Nat × Nat) := (x.1, if x.2 = 0 then [] else [(x.2, a)])
  let fours : Mach × List (Nat × Nat) :=
    (List.range 4).foldl (fun (m, es) j =>
      let r := note (m.unitWrite32 bits (a + 4 * j) (bitsOf v (32 * j) 32)) (a + 4 * j)
      (r.1, es ++ r.2)) (m, [])
  match target a with
  | .dram off => note (m.windowWrite off 16 v) a
  | .reg k _ al => if k.r.desc.wide then note (m.unitWrite bits k al v) a else fours
  | .none => if a / 2 ^ 32 ≤ 3 ∧ a % 2 ^ 32 < 0x01000000 then fours else (m, [(1, a)])

/-! ### Execution -/

/-- What the execution of a request leaves: faulting units in address order (status, address), and read words. -/
structure Done where
  errs : List (Nat × Nat)
  words : List Nat
  deriving DecidableEq, Repr

/-- R472, R487: a Gen-1 or Gen-2 read of a compact slot. -/
def Mach.slotRead (m : Mach) (r : Request) : Mach × Done :=
  match slotAddr r.slot r.axis with
  | none => (m, { errs := [(1, r.fault)], words := [0] })
  | some a =>
    match m.read32 a with
    | (0, v, k, m1) =>
      ((match k with | some k => m1.takeEffect k | none => m1), { errs := [], words := [v] })
    | (st, _, _, m1) => (m1, { errs := [(st, r.fault)], words := [0] })

/-- R473, R486, R487: a Gen-1 or Gen-2 write of a compact slot. -/
def Mach.slotWrite (m : Mach) (r : Request) : Mach × Done :=
  let bits := m.lockBits
  let end_ (x : Mach × Nat) : Mach × Done := (x.1.writesDone bits, { errs := if x.2 = 0 then [] else [(x.2, r.fault)], words := [] })
  match slotAddr r.slot r.axis with
  | none => end_ (m, 1)
  | some a =>
    match target a with
    | .reg k w _ =>
      if !m.regAnswers k then end_ (m, 1)
      else if k.r.desc.wide then end_ (m.stageWrite bits k .plain (a - 4 * w) w r.val)
      else if k.r.desc.masked then end_ (m.unitWrite bits k .plain (k.r.desc.maskedWord (m.peek k) r.val))
      else end_ (m.unitWrite bits k .plain r.val)
    | _ => end_ (m, 1)

/-- R470, R472: a Gen-3 read; every unit is read before any side effect is taken. Log entry 61 (DEDUCED). -/
def Mach.burstRead (m : Mach) (r : Request) : Mach × Done :=
  let step (acc : Done × List RegKey) (i : Nat) : Done × List RegKey :=
    let a := r.addr + (if r.wide then 16 else 4) * i
    if r.wide then
      let (v, es, ks) := m.unitRead128 a
      ({ errs := acc.1.errs ++ es, words := acc.1.words ++ [v] }, acc.2 ++ ks)
    else
      match m.unitRead32 a with
      | (0, v, k) => ({ errs := acc.1.errs, words := acc.1.words ++ [v] }, acc.2 ++ k.toList)
      | (st, _, _) => ({ errs := acc.1.errs ++ [(st, a)], words := acc.1.words ++ [0] }, acc.2)
  let (d, ks) := (List.range r.n).foldl step ({ errs := [], words := [] }, [])
  (ks.foldl Mach.takeEffect m, d)

/-- R470, R473: a Gen-3 write: in address order, each register whole. Log entry 61 (DEDUCED). -/
def Mach.burstWrite (m : Mach) (r : Request) (data : List Word) : Mach × Done :=
  let bits := m.lockBits
  let step (acc : Mach × List (Nat × Nat)) (i : Nat) : Mach × List (Nat × Nat) :=
    let a := r.addr + (if r.wide then 16 else 4) * i
    let v := (data.getD i 0).toNat
    if r.wide then
      let x := acc.1.unitWrite128 bits a v
      (x.1, acc.2 ++ x.2)
    else
      let x := acc.1.unitWrite32 bits a v
      (x.1, if x.2 = 0 then acc.2 else acc.2 ++ [(x.2, a)])
  let (m1, es) := (List.range r.n).foldl step (m, [])
  (m1.writesDone bits, { errs := es, words := [] })

/-- What a frame executes. -/
def Mach.execute (m : Mach) (r : Request) (data : List Word) (bcast : Bool) : Mach × Done :=
  let g3 := decide (m.hp.gen = 3)
  let here := if g3 then r.addr else r.fault
  if r.bad || (bcast && r.cmd != 2) then (m, { errs := [(3, here)], words := [] })
  else match r.cmd with
    | 1 => if g3 then m.burstRead r else m.slotRead r
    | 2 => if g3 then m.burstWrite r data else m.slotWrite r
    | _ => (m, { errs := [], words := [] })

/-! ### Replies -/

/-- The reply that a frame carries: of the accepted frame before it (R465 to R469). -/
def Mach.replyWords (m : Mach) : List Word :=
  let p := m.hp.rep
  let fl := b2n m.hp.frameErr * 8 + b2n m.irqLow * 4 + b2n (m.kn.phase == .run) * 2
  let w (x : Nat) : Word := BitVec.ofNat 128 x
  let v := (p.words.headD 0).toNat
  match m.hp.gen with
  | 1 =>
    let d := if p.status = 1 ∨ p.status = 2 then p.slot + p.axis * 2 ^ 8 else if p.status = 0 then v else 0
    [w (p.status * 2 ^ 36 + fl * 2 ^ 32 + d)]
  | 2 => [w (p.status * 2 ^ 60 + fl * 2 ^ 56 + p.axis * 2 ^ 48 + p.slot * 2 ^ 40 + p.seq % 2 ^ 8 * 2 ^ 32 + (if p.status = 0 then v else 0))]
  | 3 => w (p.status * 2 ^ 124 + fl * 2 ^ 120 + p.len * 2 ^ 112 + p.seq * 2 ^ 96 + p.cmd * 2 ^ 92 + p.addr % 2 ^ 40) :: p.words
  | _ => []

/-- The reply record of a frame (R465): a READ carries its words, zero where nothing was executed. -/
def Request.reply (r : Request) (g3 : Bool) (d : Done) : HpReply :=
  let (st, a) := d.errs.headD (0, 0)
  { status := st, cmd := r.cmd % 16, len := if r.cmd = 0 then 0 else r.len, seq := r.seq, axis := r.axis, slot := r.slot
    addr := if g3 then a else 0
    words := if r.cmd = 1 then
        (if d.words.isEmpty then List.replicate r.n 0 else d.words.map fun x => BitVec.ofNat 128 x)
      else [] }

/-! ### The wire -/

/-- The lanes that a width code of HP_CFG gives (R478). -/
def laneCount (c : Nat) : Nat := match c with | 1 => 4 | 2 => 8 | _ => 2

/-- R458: the header and data lanes in force in Gen-3. -/
def Mach.lanesH (m : Mach) : Nat := laneCount (m.rd F.HP_CFG_LANES_H)
def Mach.lanesD (m : Mach) : Nat := laneCount (m.rd F.HP_CFG_LANES_D)

/-- R460: a field of `w` bits on `n` lanes, edge by edge: lane `j` at edge `c` carries bit w − n·(c + 1) + j. -/
def serial (n w x : Nat) : List Nat := (List.range (w / n)).map fun c => bitsOf x (w - n * (c + 1)) n

/-- R463: the edges of a frame but for those of WAIT: header, host data, turnaround, marker, reply. A broadcast frame has no more
than its header and data (R477). Log entry 121 (DESIGN CHOICE). -/
def Mach.frameEdges (m : Mach) (r : Request) (bcast : Bool) : Nat :=
  let host := match m.hp.gen with
    | 1 => 8 + 32
    | 2 => 8 + 8
    | _ => 128 / m.lanesH + (if r.cmd = 2 then r.n * 128 / m.lanesD else 0)
  let answer := match m.hp.gen with
    | 1 => 0
    | 2 => 2 + 1 + 16
    | _ => 2 + 1 + (1 + m.hp.rep.words.length) * 128 / m.lanesD
  if bcast then host else host + answer

/-- R458, R464: what the module drives on its reply lanes, edge by edge: in Gen-1 the 40 bits of HIO1 beside the request; else, after
the turnaround and `wait` edges of WAIT, the marker on HIO0 and the reply. Log entry 121 (DESIGN CHOICE). -/
def Mach.replyLanes (m : Mach) (wait : Nat) : List Nat :=
  let w := m.replyWords.map (·.toNat)
  match m.hp.gen with
  | 1 => (w.map fun x => (serial 1 40 x).map (2 * ·)).flatten
  | 2 => List.replicate wait 0 ++ 1 :: (w.map (serial 4 64)).flatten
  | 3 => List.replicate wait 0 ++ 1 :: (w.map (serial m.lanesD 128)).flatten
  | _ => []

/-- R474: the bound of WAIT in units of 10 ns from the reference of the replied frame; `win`: it read the DRAM window. -/
def waitBound (p : HpReply) (win : Bool) : Nat :=
  if p.cmd ≠ 1 ∨ p.status = 3 then 0 else if win then 400 + p.len else 150 + 40 * p.len

/-! ### Frames -/

/-- R463 to R474, R477: an accepted frame under either select. -/
def Mach.frame (m : Mach) (req cmd : Nat) (data : List Word) (bcast : Bool) : Mach :=
  let m0 := m.frameStart
  if m0.hp.gen = 0 ∨ (bcast ∧ !m0.rb F.HP_CFG_BCAST_EN) then m0
  else
    let r := m0.request req cmd
    let out := m0.replyWords
    let edges := m0.frameEdges r bcast
    let (m1, d) := (m0.modHp fun h => { h with now := some (r.seq, r.axis, bcast) }).execute r data bcast
    let m2 := d.errs.foldl (fun m e => m.hpError e.1 e.2 r.seq bcast) m1
    let m3 := (m2.wrap F.HP_FRAMES_CNT).modHp fun h =>
      { h with errNoted := false, busNoted := if d.errs.isEmpty then false else h.busNoted, edges := edges, now := none }
    if bcast then m3
    else m3.modHp fun h => { h with out := out, rep := r.reply (decide (m0.hp.gen = 3)) d, frameErr := false }

/-- R475: a discarded frame: cause 1 EARLY, 2 COUNT, 3 BOTH, 4 TIMEOUT, 5 CMD. Its SEQ is as far as it came: no known value.
Log entries 63 (DEDUCED), 126 (DESIGN CHOICE). -/
def Mach.discardFrame (m : Mach) (cause : Nat) (bcast : Bool) : Mach :=
  let m0 := m.frameStart
  if m0.hp.gen = 0 ∨ (bcast ∧ cause ≠ 3 ∧ !m0.rb F.HP_CFG_BCAST_EN) then m0
  else
    let m1 := (m0.bump F.HP_ERR_FRAME_CNT).setReg .HP_LAST 0 0 (cause * 2 ^ 44 + b2n bcast * 2 ^ 47 + m0.stamp * 2 ^ 48
      + (if m0.hp.gen = 1 then 0 else m0.free 9700 % 2 ^ 16) * 2 ^ 96)
    let m2 := if m1.hp.errNoted then m1
      else m1.post Ev.HP_FRAME_ERR 0 (cause + 8 * b2n bcast + m1.rd F.HP_ERR_FRAME_CNT * 2 ^ 16)
    m2.modHp fun h => { h with errNoted := true, frameErr := true, out := [] }

/-- R476: both selects low for 32 edges. -/
def Mach.laneReset (m : Mach) : Mach :=
  let m1 := m.discardFrame 3 false
  if m1.hp.gen = 0 then m1
  else
    let img := m1.hp.imgCfg
    let m2 := (m1.wr F.HP_CFG_LANES_H (bitsOf img 0 2)).wr F.HP_CFG_LANES_D (bitsOf img 2 2)
    (m2.setBit F.HP_STAT_RESYNC).post Ev.HP_LANE_RESET 0 (bitsOf img 0 4)

end Sys2Proof.Machine
end

