-- ==== Sys2Proof/Machine/FaultCmd.lean ====
section
/-!
DEFINITION. The events of fault masking and of the heat ledger.
-/

namespace Sys2Proof.Machine

/-- R424: a DRAM image word with an uncorrectable error is restored from the NVM copy in use. -/
def Mach.eccRestore (m : Mach) (off : Nat) : Mach :=
  match m.nv.inUse with
  | some (_, base, len) =>
    if m.badWord off ∧ off / 16 * 16 < len then
      (m.dramWrite (off / 16 * 16) 16 (m.flashRead (base + off / 16 * 16) 16)).modFm fun x =>
        { x with badWords := x.badWords.filter (·.1 != off / 16) }
    else m
  | none => m

/-- R429: FAULT_N as other modules hold it; while the module drives the line it cannot see them, and without
VAUX it does not read it (R63). Log entry 58 (DESIGN CHOICE). -/
def Mach.faultLine (m : Mach) (asserted : Bool) : Mach :=
  if m.faultLow || m.dead then m
  else if !asserted || m.fm.line then m.modFm fun x => { x with line := asserted }
  else
    let react := m.rb F.FM_FAULTN_REACT
    let banks := m.rd F.FM_FAULTN_BANKS
    let m1 := ((m.modFm fun x => { x with line := true }).setBit F.FM_STATUS_FAULT_LINE).post Ev.FM_FAULT_LINE 0 (if react then banks else 0)
    let m2 := if react then
        m1.estopAll ((List.range 48).filter fun n => bitOf banks (bankOf n) && m1.stoppable n) 9
      else m1
    m2.stFire 5

/-- UNIT_FAULT (R408): the check `mech` fires on unit `u`. -/
def execUnitFault (u : BitVec 8) (mech : BitVec 4) (s : State) : Host.Outcome State Fault Refusal := s.run fun m =>
  m.checkUnit u.toNat mech.toNat

/-- AUDIT_MISMATCH (R409): whether the spare passes its test vector; the axes whose position or velocity differed. -/
def execAuditMismatch (u : BitVec 8) (sparePasses : Bool) (axes : BitVec 48) (s : State) : Host.Outcome State Fault Refusal := s.run fun m =>
  m.auditMismatch u.toNat sparePasses ((List.range 48).filter (bitOf axes.toNat ·))

/-- TAKEOVER_COMPLETE (R415): duration in timestamp units and most repeated periods of one channel. -/
def execTakeoverComplete (u : BitVec 8) (dur : BitVec 16) (rep : BitVec 8) (s : State) : Host.Outcome State Fault Refusal := s.run fun m =>
  m.tkoDone u.toNat dur.toNat rep.toNat

/-- REF_FAIL (R421). Log entry 36 (DEDUCED). -/
def execRefFail (s : State) : Host.Outcome State Fault Refusal := s.run fun m =>
  m.unitFault 0x48 9

/-- PLL_FAIL (R422). Log entry 36 (DEDUCED). -/
def execPllFail (u : BitVec 8) (s : State) : Host.Outcome State Fault Refusal := s.run fun m =>
  m.checkUnit u.toNat 8

/-- ECC_CORRECTABLE (R424): the SRAM row, and whether the repair reserve has room. -/
def execEccCorrectable (dram : Bool) (addr : BitVec 40) (row : BitVec 24) (reserve : Bool) (s : State) : Host.Outcome State Fault Refusal := s.run fun m =>
  m.eccCorr dram addr.toNat row.toNat reserve

/-- ECC_UNCORRECTABLE (R424). -/
def execEccUncorrectable (loc : EccLoc) (addr : BitVec 40) (s : State) : Host.Outcome State Fault Refusal := s.run fun m =>
  m.eccUncorr loc addr.toNat

/-- ECC_RESTORE (R424): the word at `off` is restored. -/
def execEccRestore (off : BitVec 32) (s : State) : Host.Outcome State Fault Refusal := s.run fun m =>
  m.eccRestore off.toNat

/-- SCRUB (R425). -/
def execScrub (dram : Bool) (progress : BitVec 16) (s : State) : Host.Outcome State Fault Refusal := s.run fun m =>
  m.scrub dram progress.toNat

/-- FAULT_LINE (R429): FAULT_N as other modules hold it. -/
def execFaultLine (asserted : Bool) (s : State) : Host.Outcome State Fault Refusal := s.run fun m =>
  m.faultLine asserted

/-- LEDGER_INTERVAL (R430): `tbp` is the baseplate sensor. Log entry 99 (DEDUCED). -/
def execLedgerInterval (tbp : BitVec 24) (s : State) : Host.Outcome State Fault Refusal := s.run fun m =>
  m.ledger tbp.toInt

/-- THERMAL_FAULT (R435). -/
def execThermalFault (n : Fin 48) (s : State) : Host.Outcome State Fault Refusal := s.run fun m =>
  m.thermalFault n.val

end Sys2Proof.Machine
end

