-- ==== Sys2Proof/Machine/FrontCmd.lean ====
section
/-!
DEFINITION. The events of the sensor front end.
-/

namespace Sys2Proof.Machine

/-- AUX_RESULT (R389): the output code of converter `k`; `meas` is the sensed voltage of the source its channel names. -/
def execAuxResult (k : Fin 2) (raw : BitVec 24) (meas : BitVec 16) (s : State) : Host.Outcome State Fault Refusal := s.run fun m =>
  m.auxResult k.val raw.toNat meas.toNat

/-- EX_FAULT (R385): bits SENSE_OPEN, COMPLIANCE, OVL. -/
def execExFault (e : Fin 2) (bits : BitVec 3) (s : State) : Host.Outcome State Fault Refusal := s.run fun m =>
  m.exFault e.val bits.toNat

/-- EX_FAULT_CLEAR (R386). -/
def execExFaultClear (e : Fin 2) (s : State) : Host.Outcome State Fault Refusal := s.run fun m =>
  m.exFaultClear e.val

/-- SF_CHK_DONE (R402): the errors of the two points of the running check. -/
def execSfChkDone (e1 e2 : Int) (s : State) : Host.Outcome State Fault Refusal := s.run fun m =>
  m.chkDone e1 e2

/-- CAL_TIMEOUT (R400). -/
def execCalTimeout (s : State) : Host.Outcome State Fault Refusal := s.run fun m =>
  m.calTimeout

/-- REP_PERIOD_END (R404). -/
def execRepPeriodEnd (r : Fin 4) (s : State) : Host.Outcome State Fault Refusal := s.run fun m =>
  m.repPeriodEnd r.val

end Sys2Proof.Machine
end

