-- ==== Sys2Proof/Machine/HostCmd.lean ====
section
/-!
DEFINITION. The commands that are one access of the host: a write or a read of a register, a frame of the host port.
-/

namespace Sys2Proof.Machine

/-- A write that changes one field and leaves the register's other fields at their last written values. -/
def Mach.hostField (m : Mach) (f : Fld) (i j v : Nat) : Mach :=
  let k : RegKey := ⟨f.reg, i, j⟩
  m.hostWrite k (putBits (m.peek k &&& k.r.desc.rwBits) f.lo f.width v)

/-- A write of command bits that leaves the register's held fields at their last written values. -/
def Mach.hostBits (m : Mach) (k : RegKey) (bits : Nat) : Mach := m.hostWrite k ((m.peek k &&& k.r.desc.rwBits) + bits)

/-- A read of a register with its side effect; `readData` holds what it returned, zero where the register does not answer. -/
def Mach.hostRead (m : Mach) (k : RegKey) : Mach :=
  if m.regAnswers k then
    ({ m with readData := BitVec.ofNat 128 (m.peek k) } : Mach).takeEffect k
  else ({ m with readData := 0 } : Mach).hpError 1 k.addr 0 false

/-- A 32-bit read at an address (R487). -/
def Mach.hostRead32 (m : Mach) (a : Nat) : Mach :=
  match m.read32 (a / 4 * 4) with
  | (0, v, k, m1) =>
    let m2 := match k with | some k => m1.takeEffect k | none => m1
    { m2 with readData := BitVec.ofNat 128 v }
  | (st, _, _, m1) => ({ m1 with readData := 0 } : Mach).hpError st (a / 4 * 4) 0 false

/-- A 32-bit write at an address (R487). -/
def Mach.hostWrite32 (m : Mach) (a v : Nat) : Mach :=
  let bits := m.lockBits
  let at_ := a / 4 * 4
  let r : Mach × Nat := match target at_ with
    | .reg k w al =>
      if !m.regAnswers k then (m, 1)
      else if k.r.desc.wide then m.stageWrite bits k al (at_ - 4 * w) w v
      else m.unitWrite bits k al v
    | .dram off => m.windowWrite (off / 4 * 4) 4 v
    | .none => (m, 1)
  (if r.2 = 0 then r.1 else r.1.hpError r.2 at_ 0 false).writesDone bits

/-- A write of a whole register at its full-window offset through an alias (R484); an offset inside a 128-bit register is a
32-bit write there, and one at which no register stands is a bus error. -/
def Mach.aliasAt (m : Mach) (a : Nat) (al : Alias) (v : Nat) : Mach :=
  match regAt (a / 4 * 4) with
  | some (k, 0) => m.hostAlias k al v
  | some (k, w) =>
    let bits := m.lockBits
    let r : Mach × Nat := if m.regAnswers k then m.stageWrite bits k al (a / 4 * 4 - 4 * w) w (v % 2 ^ 32) else (m, 1)
    (if r.2 = 0 then r.1 else r.1.hpError r.2 a 0 false).writesDone bits
  | none => m.hpError 1 a 0 false

/-- A compact-window write (R485, R486); AXIS 0xFF stands for GL_AXSEL. -/
def Mach.compactWrite (m : Mach) (slot axis v : Nat) : Mach :=
  let ax := if axis = 0xFF then m.rd F.GL_AXSEL_AXIS else axis
  let r : Request := { cmd := 2, bad := false, seq := 0, axis := ax, slot := slot, addr := 0, wide := false, n := 1, len := 0, val := v }
  let (m1, d) := (m.modHp fun h => { h with now := some (0, ax, false) }).slotWrite r
  (d.errs.foldl (fun m e => m.hpError e.1 e.2 0 false) m1).modHp fun h => { h with now := none }

/-- The command a broadcast frame carries in its own bits: WR of Gen-1 (R466), CMD of Gen-2 and Gen-3 (R467, R468). -/
def Mach.frameCmd (m : Mach) (req : Nat) : Nat :=
  match m.hp.gen with
  | 1 => if bitOf req 39 then 2 else 1
  | 2 => bitsOf req 60 4
  | _ => bitsOf req 124 4

/-- R91: KN_CTRL.RESTART, with CLR_CNT. -/
def execRestartCmd (clrCnt : Bool) (s : State) : Host.Outcome State Fault Refusal := s.run fun m =>
  m.hostWrite ⟨.KN_CTRL, 0, 0⟩ (1 + 2 * b2n clrCnt)

/-- R95: KN_CTRL.DRAM_FAST. -/
def execDramFast (s : State) : Host.Outcome State Fault Refusal := s.run fun m =>
  m.hostWrite ⟨.KN_CTRL, 0, 0⟩ 4

/-- R95: KN_CTRL.HOME_RESET. -/
def execHomeReset (s : State) : Host.Outcome State Fault Refusal := s.run fun m =>
  m.hostWrite ⟨.KN_CTRL, 0, 0⟩ 8

/-- R116: NV_COMMIT.START with KIND = 0. -/
def execCommitImage (s : State) : Host.Outcome State Fault Refusal := s.run fun m =>
  m.hostWrite ⟨.NV_COMMIT, 0, 0⟩ 1

/-- R116: NV_COMMIT.START with KIND = 1. -/
def execCommitOverlay (s : State) : Host.Outcome State Fault Refusal := s.run fun m =>
  m.hostWrite ⟨.NV_COMMIT, 0, 0⟩ 5

/-- R116: NV_COMMIT.START with KIND = 2. -/
def execCommitCal (s : State) : Host.Outcome State Fault Refusal := s.run fun m =>
  m.hostWrite ⟨.NV_COMMIT, 0, 0⟩ 9

/-- R116: NV_COMMIT.START with KIND = 3. -/
def execCommitKind3 (s : State) : Host.Outcome State Fault Refusal := s.run fun m =>
  m.hostWrite ⟨.NV_COMMIT, 0, 0⟩ 13

/-- R122: NV_COMMIT.TIE_ACK. -/
def execTieAck (s : State) : Host.Outcome State Fault Refusal := s.run fun m =>
  m.hostWrite ⟨.NV_COMMIT, 0, 0⟩ 2

/-- R126: NV_ACC_CTRL.GO with OP = 0. -/
def execNvAccRead (s : State) : Host.Outcome State Fault Refusal := s.run fun m =>
  m.hostWrite ⟨.NV_ACC_CTRL, 0, 0⟩ 4

/-- R126: NV_ACC_CTRL.GO with OP = 1. -/
def execNvAccProgram (s : State) : Host.Outcome State Fault Refusal := s.run fun m =>
  m.hostWrite ⟨.NV_ACC_CTRL, 0, 0⟩ 5

/-- R126: NV_ACC_CTRL.GO with OP = 2. -/
def execNvAccErase4k (s : State) : Host.Outcome State Fault Refusal := s.run fun m =>
  m.hostWrite ⟨.NV_ACC_CTRL, 0, 0⟩ 6

/-- R126: NV_ACC_CTRL.GO with OP = 3. -/
def execNvAccErase64k (s : State) : Host.Outcome State Fault Refusal := s.run fun m =>
  m.hostWrite ⟨.NV_ACC_CTRL, 0, 0⟩ 7

/-- R115: NV_KEY_CMD with OP = 1. -/
def execKeyProgram (slot : Fin 4) (guard : BitVec 8) (s : State) : Host.Outcome State Fault Refusal := s.run fun m =>
  m.hostWrite ⟨.NV_KEY_CMD, 0, 0⟩ (slot.val + 4 + guard.toNat * 2 ^ 8)

/-- R115: NV_KEY_CMD with OP = 2. -/
def execKeyRevoke (slot : Fin 4) (guard : BitVec 8) (s : State) : Host.Outcome State Fault Refusal := s.run fun m =>
  m.hostWrite ⟨.NV_KEY_CMD, 0, 0⟩ (slot.val + 8 + guard.toNat * 2 ^ 8)

/-- R115: NV_KEY_CMD with OP = 3. -/
def execKeyRequireSig (guard : BitVec 8) (s : State) : Host.Outcome State Fault Refusal := s.run fun m =>
  m.hostWrite ⟨.NV_KEY_CMD, 0, 0⟩ (12 + guard.toNat * 2 ^ 8)

/-- R56: PW_VMON_STAT.RESUME. -/
def execResumeBank (b : Fin 4) (s : State) : Host.Outcome State Fault Refusal := s.run fun m =>
  m.hostWrite ⟨.PW_VMON_STAT, b.val, 0⟩ 64

/-- R135: AX_CTRL, bit 0. -/
def execAxCtrlEnable (n : Fin 48) (s : State) : Host.Outcome State Fault Refusal := s.run fun m =>
  m.hostWrite ⟨.AX_CTRL, n.val, 0⟩ 1

/-- R135: AX_CTRL, bit 1. -/
def execAxCtrlDisable (n : Fin 48) (s : State) : Host.Outcome State Fault Refusal := s.run fun m =>
  m.hostWrite ⟨.AX_CTRL, n.val, 0⟩ 2

/-- R136: AX_CTRL, bit 2. -/
def execAxCtrlEstop (n : Fin 48) (s : State) : Host.Outcome State Fault Refusal := s.run fun m =>
  m.hostWrite ⟨.AX_CTRL, n.val, 0⟩ 4

/-- R164: AX_CTRL, bit 3. -/
def execAxCtrlMaqEnter (n : Fin 48) (s : State) : Host.Outcome State Fault Refusal := s.run fun m =>
  m.hostWrite ⟨.AX_CTRL, n.val, 0⟩ 8

/-- R164: AX_CTRL, bit 4. -/
def execAxCtrlMaqExit (n : Fin 48) (s : State) : Host.Outcome State Fault Refusal := s.run fun m =>
  m.hostWrite ⟨.AX_CTRL, n.val, 0⟩ 16

/-- R147: AX_RETGT. -/
def execAxRetgt (n : Fin 48) (w : Word) (s : State) : Host.Outcome State Fault Refusal := s.run fun m =>
  m.hostWrite ⟨.AX_RETGT, n.val, 0⟩ w.toNat

/-- R156: AX_SLIM and AX_CFG.SLIM_EN. -/
def execAxSlim (n : Fin 48) (enable : Bool) (w : Word) (s : State) : Host.Outcome State Fault Refusal := s.run fun m =>
  (m.hostWrite ⟨.AX_SLIM, n.val, 0⟩ w.toNat).hostField F.AX_CFG_SLIM_EN n.val 0 (b2n enable)

/-- R154: AX_LIM_STAT.LATCH_A and LATCH_B. -/
def execLimLatchClear (n : Fin 48) (a b : Bool) (s : State) : Host.Outcome State Fault Refusal := s.run fun m =>
  m.hostWrite ⟨.AX_LIM_STAT, n.val, 0⟩ (4 * b2n a + 8 * b2n b)

/-- R245: an access to AX_HARM_DATA. -/
def execAxHarmData (n : Fin 48) (isWrite : Bool) (v : BitVec 32) (s : State) : Host.Outcome State Fault Refusal := s.run fun m =>
  if isWrite then m.hostWrite ⟨.AX_HARM_DATA, n.val, 0⟩ v.toNat else m.hostRead ⟨.AX_HARM_DATA, n.val, 0⟩

/-- R193: Q_PUSH. -/
def execQPush (q : Fin 64) (w : Word) (s : State) : Host.Outcome State Fault Refusal := s.run fun m =>
  m.abortsDue.hostWrite ⟨.Q_PUSH, q.val, 0⟩ w.toNat

/-- R193: Q_PUSH_DB. -/
def execQPushDb (q : Fin 64) (w : Word) (s : State) : Host.Outcome State Fault Refusal := s.run fun m =>
  m.abortsDue.hostWrite ⟨.Q_PUSH_DB, q.val, 0⟩ w.toNat

/-- R193: Q_DB.PUBLISH. -/
def execPublish (q : Fin 64) (s : State) : Host.Outcome State Fault Refusal := s.run fun m =>
  m.abortsDue.hostWrite ⟨.Q_DB, q.val, 0⟩ 1

/-- R193: Q_DB.DISCARD. -/
def execDiscard (q : Fin 64) (s : State) : Host.Outcome State Fault Refusal := s.run fun m =>
  m.abortsDue.hostWrite ⟨.Q_DB, q.val, 0⟩ 2

/-- R194: Q_MDB_LO or Q_MDB_HI. -/
def execQMdb (hi : Bool) (mask : BitVec 32) (s : State) : Host.Outcome State Fault Refusal := s.run fun m =>
  m.abortsDue.hostWrite (if hi then ⟨.Q_MDB_HI, 0, 0⟩ else ⟨.Q_MDB_LO, 0, 0⟩) mask.toNat

/-- R180: Q_CTRL.PAUSE. -/
def execPause (q : Fin 64) (s : State) : Host.Outcome State Fault Refusal := s.run fun m =>
  m.abortsDue.hostWrite ⟨.Q_CTRL, q.val, 0⟩ 1

/-- R180: Q_CTRL.RESUME. -/
def execQResume (q : Fin 64) (s : State) : Host.Outcome State Fault Refusal := s.run fun m =>
  m.abortsDue.hostWrite ⟨.Q_CTRL, q.val, 0⟩ 2

/-- R180: Q_CTRL.FLUSH. -/
def execFlush (q : Fin 64) (s : State) : Host.Outcome State Fault Refusal := s.run fun m =>
  m.abortsDue.hostWrite ⟨.Q_CTRL, q.val, 0⟩ 4

/-- R188: Q_RTN with START = 1. -/
def execQRtnStart (q : Fin 64) (rtn : BitVec 8) (s : State) : Host.Outcome State Fault Refusal := s.run fun m =>
  m.abortsDue.hostWrite ⟨.Q_RTN, q.val, 0⟩ (2 ^ 31 + rtn.toNat)

/-- R202: Q_ABORT.GO. -/
def execQAbort (q : Fin 64) (halt : Bool) (tag : BitVec 16) (s : State) : Host.Outcome State Fault Refusal := s.run fun m =>
  m.abortsDue.hostWrite ⟨.Q_ABORT, q.val, 0⟩ (1 + 2 * b2n halt + tag.toNat * 2 ^ 16)

/-- R202: Q_ABORT_X. -/
def execQAbortX (w : BitVec 32) (s : State) : Host.Outcome State Fault Refusal := s.run fun m =>
  m.abortsDue.hostWrite ⟨.Q_ABORT_X, 0, 0⟩ w.toNat

/-- R195: a read of Q_CPL_POP. -/
def execQCplPop (s : State) : Host.Outcome State Fault Refusal := s.run fun m =>
  m.abortsDue.hostRead ⟨.Q_CPL_POP, 0, 0⟩

/-- R195: Q_CPL_RD. -/
def execQCplRdWrite (v : BitVec 32) (s : State) : Host.Outcome State Fault Refusal := s.run fun m =>
  m.abortsDue.hostWrite ⟨.Q_CPL_RD, 0, 0⟩ v.toNat

/-- R198: a read of Q_EVT_POP. -/
def execQEvtPop (s : State) : Host.Outcome State Fault Refusal := s.run fun m =>
  m.abortsDue.hostRead ⟨.Q_EVT_POP, 0, 0⟩

/-- R198: Q_EVT_RD. -/
def execQEvtRdWrite (v : BitVec 32) (s : State) : Host.Outcome State Fault Refusal := s.run fun m =>
  m.abortsDue.hostWrite ⟨.Q_EVT_RD, 0, 0⟩ v.toNat

/-- R211: GR_MEMB_LO or GR_MEMB_HI. -/
def execGrMemb (g : Fin 16) (hi : Bool) (mask : BitVec 32) (s : State) : Host.Outcome State Fault Refusal := s.run fun m =>
  m.hostWrite (if hi then ⟨.GR_MEMB_HI, g.val, 0⟩ else ⟨.GR_MEMB_LO, g.val, 0⟩) mask.toNat

/-- R217: GR_CTRL.STOP. -/
def execGrStop (g : Fin 16) (s : State) : Host.Outcome State Fault Refusal := s.run fun m =>
  m.hostWrite ⟨.GR_CTRL, g.val, 0⟩ 1

/-- R280: PW_BFAULT. -/
def execBfaultClear (b : Fin 4) (mask : BitVec 12) (s : State) : Host.Outcome State Fault Refusal := s.run fun m =>
  m.hostWrite ⟨.PW_BFAULT, b.val, 0⟩ mask.toNat

/-- R267: PW_PERIOD. -/
def execPwPeriod (b : Fin 4) (v : BitVec 14) (s : State) : Host.Outcome State Fault Refusal := s.run fun m =>
  m.hostWrite ⟨.PW_PERIOD, b.val, 0⟩ v.toNat

/-- R268: PW_CFG.STAG_USER. -/
def execStagUserChange (b : Fin 4) (on : Bool) (s : State) : Host.Outcome State Fault Refusal := s.run fun m =>
  m.hostField F.PW_CFG_STAG_USER b.val 0 (b2n on)

/-- R268: a channel offset. -/
def execPwChOfs (b : Fin 4) (k : Fin 24) (v : BitVec 14) (s : State) : Host.Outcome State Fault Refusal := s.run fun m =>
  m.hostWrite ⟨.PW_CH_OFS, b.val, k.val⟩ v.toNat

/-- R283: PW_SAFE. -/
def execPwSafe (b : Fin 4) (v : BitVec 32) (s : State) : Host.Outcome State Fault Refusal := s.run fun m =>
  m.hostWrite ⟨.PW_SAFE, b.val, 0⟩ v.toNat

/-- R292: PW_TRIP_STAT.LATCH. -/
def execTripClear (s : State) : Host.Outcome State Fault Refusal := s.run fun m =>
  m.hostWrite ⟨.PW_TRIP_STAT, 0, 0⟩ 1

/-- R287, R495: GL_DBG with HALT = 1. -/
def execDbgHalt (guard : BitVec 8) (s : State) : Host.Outcome State Fault Refusal := s.run fun m =>
  m.hostWrite ⟨.GL_DBG, 0, 0⟩ (1 + guard.toNat * 2 ^ 8)

/-- R287, R495: GL_DBG with HALT = 0. -/
def execDbgHaltEnd (guard : BitVec 8) (s : State) : Host.Outcome State Fault Refusal := s.run fun m =>
  m.hostWrite ⟨.GL_DBG, 0, 0⟩ (guard.toNat * 2 ^ 8)

/-- R318: CS_INJ_CTRL.GO. -/
def execCsInjGo (b : Fin 4) (sel : BitVec 8) (s : State) : Host.Outcome State Fault Refusal := s.run fun m =>
  m.hostWrite ⟨.CS_INJ_CTRL, b.val, 0⟩ (sel.toNat + 2 ^ 8)

/-- R320: CS_SCAN_CFG.GO. -/
def execScanGo (b : Fin 4) (s : State) : Host.Outcome State Fault Refusal := s.run fun m =>
  m.hostBits ⟨.CS_SCAN_CFG, b.val, 0⟩ 32

/-- R320: CS_SCAN_CFG.STOP. -/
def execScanStop (b : Fin 4) (s : State) : Host.Outcome State Fault Refusal := s.run fun m =>
  m.hostBits ⟨.CS_SCAN_CFG, b.val, 0⟩ 64

/-- R320: a read of CS_SCAN_POP. -/
def execCsScanPop (b : Fin 4) (s : State) : Host.Outcome State Fault Refusal := s.run fun m =>
  m.hostRead ⟨.CS_SCAN_POP, b.val, 0⟩

/-- R324: CS_PCHK.GO. -/
def execCsPchkGo (b : Fin 4) (ch : BitVec 5) (range : Bool) (s : State) : Host.Outcome State Fault Refusal := s.run fun m =>
  m.hostWrite ⟨.CS_PCHK, b.val, 0⟩ (ch.toNat + 32 * b2n range + 2 ^ 8)

/-- R346: LA_CTRL.RESYNC. -/
def execResync (b : Fin 4) (axis : BitVec 4) (s : State) : Host.Outcome State Fault Refusal := s.run fun m =>
  m.hostWrite ⟨.LA_CTRL, b.val, 0⟩ (axis.toNat + 16)

/-- R352: LA_CTRL.PEAK_CLR. -/
def execPeakClr (b : Fin 4) (axis : BitVec 4) (s : State) : Host.Outcome State Fault Refusal := s.run fun m =>
  m.hostWrite ⟨.LA_CTRL, b.val, 0⟩ (axis.toNat + 32)

/-- R368: FB_CTRL.ARM. -/
def execArmPort (p : Fin 12) (s : State) : Host.Outcome State Fault Refusal := s.run fun m =>
  m.hostWrite ⟨.FB_CTRL, p.val, 0⟩ 1

/-- R368: FB_CTRL.DISARM. -/
def execDisarmPort (p : Fin 12) (s : State) : Host.Outcome State Fault Refusal := s.run fun m =>
  m.hostWrite ⟨.FB_CTRL, p.val, 0⟩ 2

/-- R376: FB_STAT.FAULT. -/
def execPortFaultClear (p : Fin 12) (s : State) : Host.Outcome State Fault Refusal := s.run fun m =>
  m.hostWrite ⟨.FB_STAT, p.val, 0⟩ 1

/-- R356: FB_CFG.MODE. -/
def execFbMode (p : Fin 12) (mode : BitVec 3) (s : State) : Host.Outcome State Fault Refusal := s.run fun m =>
  m.hostField F.FB_CFG_MODE p.val 0 mode.toNat

/-- R378: FB_FOLLOW with EN = 1. -/
def execFbFollowEngage (p : Fin 12) (axis : BitVec 6) (prof : BitVec 3) (s : State) : Host.Outcome State Fault Refusal := s.run fun m =>
  m.hostWrite ⟨.FB_FOLLOW, p.val, 0⟩ (1 + axis.toNat * 2 ^ 8 + prof.toNat * 2 ^ 16)

/-- R378: FB_FOLLOW with EN = 0. -/
def execFbFollowDisengage (p : Fin 12) (s : State) : Host.Outcome State Fault Refusal := s.run fun m =>
  m.hostField F.FB_FOLLOW_EN p.val 0 0

/-- R389: SF_AUX_CFG.GO. -/
def execAuxGo (k : Fin 2) (s : State) : Host.Outcome State Fault Refusal := s.run fun m =>
  m.hostBits ⟨.SF_AUX_CFG, k.val, 0⟩ (2 ^ 27)

/-- R389: SF_AUX_CFG.STOP. -/
def execAuxStop (k : Fin 2) (s : State) : Host.Outcome State Fault Refusal := s.run fun m =>
  m.hostBits ⟨.SF_AUX_CFG, k.val, 0⟩ (2 ^ 28)

/-- R386: SF_EX_CFG. -/
def execSfExCfg (e : Fin 2) (v : BitVec 32) (s : State) : Host.Outcome State Fault Refusal := s.run fun m =>
  m.hostWrite ⟨.SF_EX_CFG, e.val, 0⟩ v.toNat

/-- R381: SF_CH_CFG (reg 0), SF_CH_BIAS (1) or SF_CH_CURVE (2). -/
def execSfCrosspointWrite (reg : Fin 3) (c : Fin 8) (v : BitVec 32) (s : State) : Host.Outcome State Fault Refusal := s.run fun m =>
  m.hostWrite ⟨(match reg with | 0 => .SF_CH_CFG | 1 => .SF_CH_BIAS | _ => .SF_CH_CURVE), c.val, 0⟩ v.toNat

/-- R402: SF_TDAC. -/
def execTdacHold (hold : Bool) (code : BitVec 12) (s : State) : Host.Outcome State Fault Refusal := s.run fun m =>
  m.hostWrite ⟨.SF_TDAC, 0, 0⟩ (code.toNat + b2n hold * 2 ^ 12)

/-- R402: SF_CHK.GO. -/
def execSfChkGo (c : Fin 8) (s : State) : Host.Outcome State Fault Refusal := s.run fun m =>
  m.hostWrite ⟨.SF_CHK, 0, 0⟩ (c.val + 8)

/-- R400: SF_CAL_CMD with CMD = 1. -/
def execCalZero (c : Fin 8) (navg : BitVec 4) (s : State) : Host.Outcome State Fault Refusal := s.run fun m =>
  m.hostWrite ⟨.SF_CAL_CMD, 0, 0⟩ (c.val + 8 + navg.toNat * 2 ^ 8)

/-- R400: SF_CAL_CMD with CMD = 2. -/
def execCalFullScale (c : Fin 8) (navg : BitVec 4) (s : State) : Host.Outcome State Fault Refusal := s.run fun m =>
  m.hostWrite ⟨.SF_CAL_CMD, 0, 0⟩ (c.val + 16 + navg.toNat * 2 ^ 8)

/-- R400: SF_CAL_CMD with CMD = 3. -/
def execCalCancel (s : State) : Host.Outcome State Fault Refusal := s.run fun m =>
  m.hostBits ⟨.SF_CAL_CMD, 0, 0⟩ 24

/-- R401: a read of SF_Q_POP. -/
def execSfQPop (s : State) : Host.Outcome State Fault Refusal := s.run fun m =>
  m.hostRead ⟨.SF_Q_POP, 0, 0⟩

/-- R404: SF_REP_HOST. -/
def execSfRepHost (r : Fin 4) (v : BitVec 32) (s : State) : Host.Outcome State Fault Refusal := s.run fun m =>
  m.hostWrite ⟨.SF_REP_HOST, r.val, 0⟩ v.toNat

/-- R408: FM_INJECT. -/
def execFmInject (w : BitVec 32) (s : State) : Host.Outcome State Fault Refusal := s.run fun m =>
  m.hostWrite ⟨.FM_INJECT, 0, 0⟩ w.toNat

/-- R440: PT_CTRL.PASS_NOW; `w` is what the window has measured. -/
def execPassNow (w : PatinaWin) (s : State) : Host.Outcome State Fault Refusal := s.run fun m =>
  if m.regAnswers ⟨.PT_CTRL, 0, 0⟩ then m.patinaPass w else m.hpError 1 (RegKey.addr ⟨.PT_CTRL, 0, 0⟩) 0 false

/-- R445: PT_CTRL.CLR_LIMITS. -/
def execClrLimits (s : State) : Host.Outcome State Fault Refusal := s.run fun m =>
  m.hostWrite ⟨.PT_CTRL, 0, 0⟩ 2

/-- R452, R453: ST_CTRL, value 1. -/
def execStTrig (s : State) : Host.Outcome State Fault Refusal := s.run fun m =>
  m.hostWrite ⟨.ST_CTRL, 0, 0⟩ 1

/-- R452, R453: ST_CTRL, value 2. -/
def execStArm (s : State) : Host.Outcome State Fault Refusal := s.run fun m =>
  m.hostWrite ⟨.ST_CTRL, 0, 0⟩ 2

/-- R452, R453: ST_CTRL, value 4. -/
def execStDisarm (s : State) : Host.Outcome State Fault Refusal := s.run fun m =>
  m.hostWrite ⟨.ST_CTRL, 0, 0⟩ 4

/-- R452, R453: ST_CTRL, value 16. -/
def execStReleaseAll (s : State) : Host.Outcome State Fault Refusal := s.run fun m =>
  m.hostWrite ⟨.ST_CTRL, 0, 0⟩ 16

/-- R453: ST_CTRL.RELEASE. -/
def execStRelease (layer : Fin 16) (s : State) : Host.Outcome State Fault Refusal := s.run fun m =>
  m.hostWrite ⟨.ST_CTRL, 0, 0⟩ (8 + layer.val * 2 ^ 8)

/-- R453: ST_CFG.EN. -/
def execStEn (en : Bool) (s : State) : Host.Outcome State Fault Refusal := s.run fun m =>
  m.hostField F.ST_CFG_EN 0 0 (b2n en)

/-- R447: ST_REGION.M. -/
def execStRegion (v : BitVec 4) (s : State) : Host.Outcome State Fault Refusal := s.run fun m =>
  m.hostWrite ⟨.ST_REGION, 0, 0⟩ v.toNat

/-- R451: ST_SEL. -/
def execStSel (k : Fin 5) (w : Word) (s : State) : Host.Outcome State Fault Refusal := s.run fun m =>
  m.hostWrite ⟨.ST_SEL, k.val, 0⟩ w.toNat

/-- R472: a READ frame. -/
def execHpRead (req : Word) (s : State) : Host.Outcome State Fault Refusal := s.run fun m =>
  m.abortsDue.frame req.toNat 1 [] false

/-- R473: a WRITE frame. -/
def execHpWrite (req : Word) (data : List Word) (s : State) : Host.Outcome State Fault Refusal := s.run fun m =>
  m.abortsDue.frame req.toNat 2 data false

/-- R463: a NOP frame. -/
def execHpNop (req : Word) (s : State) : Host.Outcome State Fault Refusal := s.run fun m =>
  m.abortsDue.frame req.toNat 0 [] false

/-- R477: a frame under HSEL1_N. Log entry 103 (DESIGN CHOICE). -/
def execBroadcastFrame (req : Word) (data : List Word) (s : State) : Host.Outcome State Fault Refusal := s.run fun m =>
  let cmd := m.frameCmd req.toNat
  if m.hp.gen = 3 ∧ 3 ≤ cmd then m.discardFrame 5 true else m.abortsDue.frame req.toNat cmd data true

/-- R475: a discarded frame; cause 1 EARLY, 2 COUNT, 3 BOTH, 4 TIMEOUT, 5 CMD. -/
def execFrameDiscard (cause : Fin 6) (bcast : Bool) (s : State) : Host.Outcome State Fault Refusal := s.run fun m =>
  m.discardFrame cause.val bcast

/-- R475: cause TIMEOUT. -/
def execFrameTimeout (bcast : Bool) (s : State) : Host.Outcome State Fault Refusal := s.run fun m =>
  m.discardFrame 4 bcast

/-- R476: both selects low for 32 edges. -/
def execLaneReset (s : State) : Host.Outcome State Fault Refusal := s.run fun m =>
  m.laneReset

/-- R462: a waiting change of generation. -/
def execGenChange (s : State) : Host.Outcome State Fault Refusal := s.run fun m =>
  m.genTake

/-- R478: HP_CTRL.CLR. -/
def execHpClr (s : State) : Host.Outcome State Fault Refusal := s.run fun m =>
  m.hostWrite ⟨.HP_CTRL, 0, 0⟩ 1

/-- R484: a write through the SET alias. -/
def execAliasSet (a : BitVec 24) (w : Word) (s : State) : Host.Outcome State Fault Refusal := s.run fun m =>
  m.abortsDue.aliasAt a.toNat .set w.toNat

/-- R484: a write through the CLR alias. -/
def execAliasClr (a : BitVec 24) (w : Word) (s : State) : Host.Outcome State Fault Refusal := s.run fun m =>
  m.abortsDue.aliasAt a.toNat .clr w.toNat

/-- R484: a write through the TGL alias. -/
def execAliasTgl (a : BitVec 24) (w : Word) (s : State) : Host.Outcome State Fault Refusal := s.run fun m =>
  m.abortsDue.aliasAt a.toNat .tgl w.toNat

/-- R486: a compact-window write. -/
def execMaskedWrite (slot : BitVec 7) (axis : BitVec 8) (w : BitVec 32) (s : State) : Host.Outcome State Fault Refusal := s.run fun m =>
  m.abortsDue.compactWrite slot.toNat axis.toNat w.toNat

/-- R487: a 32-bit read of word 0 of a 128-bit register. -/
def execWideWord0Read (a : BitVec 40) (s : State) : Host.Outcome State Fault Refusal := s.run fun m =>
  m.abortsDue.hostRead32 a.toNat

/-- R487: a 32-bit read of a word above 0. -/
def execWideWordRead (a : BitVec 40) (s : State) : Host.Outcome State Fault Refusal := s.run fun m =>
  m.abortsDue.hostRead32 a.toNat

/-- R487: a 32-bit write of a word above 0. -/
def execWideWordStage (a : BitVec 40) (w : BitVec 32) (s : State) : Host.Outcome State Fault Refusal := s.run fun m =>
  m.abortsDue.hostWrite32 a.toNat w.toNat

/-- R487: a 32-bit write of word 0. -/
def execWideWord0Write (a : BitVec 40) (w : BitVec 32) (s : State) : Host.Outcome State Fault Refusal := s.run fun m =>
  m.abortsDue.hostWrite32 a.toNat w.toNat

/-- R488: GL_IADDR or GL_IADDR_HI. -/
def execIaddrWrite (hi : Bool) (w : BitVec 32) (s : State) : Host.Outcome State Fault Refusal := s.run fun m =>
  m.hostWrite (if hi then ⟨.GL_IADDR_HI, 0, 0⟩ else ⟨.GL_IADDR, 0, 0⟩) w.toNat

/-- R488: a read of GL_IDATA. -/
def execIdataRead (s : State) : Host.Outcome State Fault Refusal := s.run fun m =>
  m.abortsDue.hostRead ⟨.GL_IDATA, 0, 0⟩

/-- R488: a write of GL_IDATA. -/
def execIdataWrite (w : BitVec 32) (s : State) : Host.Outcome State Fault Refusal := s.run fun m =>
  m.abortsDue.hostWrite ⟨.GL_IDATA, 0, 0⟩ w.toNat

/-- R488: an indirect prefetch or write completes. -/
def execPrefetchDone (s : State) : Host.Outcome State Fault Refusal := s.run fun m =>
  m.prefetchDone

/-- R489: GL_LOCK. -/
def execLockSet (bits : BitVec 6) (s : State) : Host.Outcome State Fault Refusal := s.run fun m =>
  m.hostWrite ⟨.GL_LOCK, 0, 0⟩ bits.toNat

/-- R491: a write of a register at its full-window address. -/
def execRegisterWrite (a : BitVec 24) (w : Word) (s : State) : Host.Outcome State Fault Refusal := s.run fun m =>
  m.abortsDue.aliasAt a.toNat .plain w.toNat

end Sys2Proof.Machine
end

