-- ==== Sys2Proof/Machine/Gasp.lean ====
section
/-!
DEFINITION. The last gasp (R65 to R67): its record, what it cuts short, and its programs.
-/

namespace Sys2Proof.Machine

/-! ### The record of R67 -/

/-- The TAG of the in-flight command of an axis: its motion command, a STOP, one kept under R55, a GEAR or CAM that synchronises, or
its armature's GROUP_MOVE; zero where none is in flight. -/
def Mach.flightTag (m : Mach) (n : Nat) : Nat :=
  let a := m.ax n
  let kept := match a.kept with | some k => k.cmds ++ k.stops | none => []
  let follow := match a.follow with | some f => f.cmd.toList | none => []
  let group := match a.group with | some g => (m.arm g).cmd.toList | none => []
  match a.cmds ++ a.stopCmds ++ kept ++ follow ++ group with
  | c :: _ => tagOf c.w
  | [] => 0

/-- The 32 bytes of an axis. -/
def Mach.gaspAxis (m : Mach) (n : Nat) : List Byte :=
  let a := m.ax n
  let moving := a.seg.isSome || a.group.isSome || a.eff == .follow
  let flags := b2n a.homed + 2 * b2n a.posUnc + 4 * b2n moving + 8 * b2n (m.rb F.PW_VMON_STAT_UV_NOW (bankOf n))
  bytesLE 8 (pubPos a.cur.p) ++ bytesLE 6 (pubVel a.cur.v) ++ bytesLE 1 a.mode.code ++ bytesLE 1 flags
    ++ bytesLE 2 (m.flightTag n) ++ bytesLE 1 (m.qu n).st.code ++ bytesLE 1 0 ++ bytesLE 2 a.curReq.ibase
    ++ bytesLE 2 ((m.coil (2 * n)).u % 1024) ++ bytesLE 8 0

/-- The 16 bytes of a bank. -/
def Mach.gaspBank (m : Mach) (b : Nat) : List Byte :=
  bytesLE 2 (m.rd F.PW_VM_MEAS_VM b) ++ bytesLE 4 (m.peek ⟨.PW_VMON_STAT, b, 0⟩) ++ bytesLE 10 0

/-- The last 64 events, oldest first; unused places zero. -/
def Mach.gaspEvents (m : Mach) : List Byte :=
  let l := ((m.rings.evt.take 64).reverse.map fun w => bytesLE 16 w.toNat).flatten
  l ++ List.replicate (1024 - l.length) 0

/-- The sequence number of the sector's last-gasp record. -/
def Mach.gaspSeq (m : Mach) (s : Nat) : Nat := m.flashRead (logSector s + 8) 4

/-- The complete last-gasp record with the highest sequence number, by serial-number arithmetic. -/
def Mach.gaspNewest (m : Mach) : Option Nat :=
  ((List.range 30).filter m.gaspComplete).foldl (fun o s => match o with
    | none => some s
    | some t => if newerSeq (m.gaspSeq s) (m.gaspSeq t) then some s else o) none

/-- R67: the record's 4,096 bytes; `vaux` and `vhold` are the voltages at the start. The first record's sequence number is
open. Log entries 38 (DESIGN CHOICE), 40 (DESIGN CHOICE). -/
def Mach.gaspRecord (m : Mach) (vaux vhold : Nat) : List Byte :=
  let seq := match m.gaspNewest with | some s => m.gaspSeq s + 1 | none => m.free 9100
  let cause := 1 + ((List.range 4).map fun b => b2n (m.rb F.PW_VMON_STAT_UV_NOW b) * 2 ^ (b + 1)).sum
    + 32 * b2n (m.rb F.PW_TRIP_STAT_LATCH)
  let (copy, cseq) := match m.nv.inUse with
    | some (c, _, _) => (c, if c = 0 then m.rd F.NV_SEQ_A_SEQ else m.rd F.NV_SEQ_B_SEQ)
    | none => (m.free 9101, m.free 9102)
  let head := bytesLE 4 0x4C474153 ++ bytesLE 2 1 ++ bytesLE 2 4096 ++ bytesLE 4 seq ++ bytesLE 4 m.clk.hours
    ++ bytesLE 8 m.stamp ++ bytesLE 2 cause ++ bytesLE 2 vaux ++ bytesLE 2 vhold ++ bytesLE 2 0
    ++ bytesLE 4 cseq ++ bytesLE 1 copy ++ bytesLE 27 0
  let axes := ((List.range 48).map m.gaspAxis).flatten
  let banks := ((List.range 4).map m.gaspBank).flatten
  let counts := ((List.range 12).map fun p => bytesLE 8 (unsignedOf 64 (m.port p).cnt)).flatten
  let heat := ((List.range 48).map fun n => bytesLE 4 (m.reg .HL_AX_STATE n 0)).flatten
  let body := head ++ axes ++ banks ++ m.gaspEvents ++ counts ++ heat ++ List.replicate (0xFF8 - 0xBA0) 0
  body ++ bytesLE 4 (crc32 body) ++ bytesLE 4 0x4C474F4B

/-- R66: the sector of the record: the first erased one after the newest written sector. -/
def Mach.gaspSector (m : Mach) : Nat :=
  let s := m.lgSector
  (((List.range 29).map fun k => (s + k + 1) % 30).find? fun k => m.erased (logSector k) 0x1000).getD ((s + 1) % 30)

/-! ### The start of a last gasp -/

/-- R65, R66: whether an erase is in progress. -/
def Mach.erasing (m : Mach) : Bool :=
  (match m.nv.commit with | some c => c.phase == 2 || (c.phase == 3 && (c.erases[c.k]?).isSome) | none => false)
    || (match m.nv.acc with | some x => x.op == 2 || x.op == 3 | none => false)

/-- R65, R66: how the programs of the record go over the flash's pins: with profile 2 in its octal form, else in single-lane form at
50 MHz; an erase in progress is aborted by NRESET_N, which returns the flash to single-lane operation. -/
def Mach.gaspFlash (m : Mach) : Mach :=
  let cut := m.erasing
  let m1 := if cut then (m.nvDo [.resetPulse 10, .pause 100]).modNv fun x => { x with octal := false } else m
  m1.modNv fun x => { x with prof := if x.prof.code == 2 && !cut then x.prof else { x.prof with code := 0, khz := 50000, dummy := 0 } }

/-- R65, R66: flash work in progress: an erase is aborted and leaves its range indeterminate, a page program finishes. -/
def Mach.gaspCut (m : Mach) : Mach :=
  let m1 := match m.nv.commit with
    | some c =>
      match c.phase with
      | 2 => m.plinthCut c.target m
      | 3 => (match c.erases[c.k]? with | some (a, n) => m.indeterminate a n | none => m)
      | 4 => let p := m.commitPage c c.k; m.flashProgram (c.off + p.1) p.2
      | 6 => if c.k = 0 then m.flashProgram (plinthAt c.target) c.plinth else m
      | _ => m
    | none => m
  let m2 := match m1.nv.acc with
    | some x =>
      if x.op = 1 then m1.flashProgram x.addr (bytesLE 16 x.data)
      else if x.op = 2 then m1.indeterminate x.addr 0x1000
      else if x.op = 3 then m1.indeterminate x.addr 0x10000
      else m1
    | none => m1
  m2.modNv fun x => { x with commit := none, acc := none }

/-- R62, R67: a bank whose VM is lost together with VAUX: the bank is under voltage, and the record, none of which has been programmed
yet, marks it so. Log entry 108 (DEDUCED). -/
def Mach.gaspUv (m : Mach) (b : Nat) : Mach :=
  match m.kn.gasp with
  | none => m
  | some g =>
    if m.rb F.PW_VMON_STAT_UV_NOW b || g.done ≠ 0 then m
    else
      let m1 := ((m.setBit F.PW_VMON_STAT_UV b).setBit F.PW_VMON_STAT_UV_NOW b).bump F.PW_VMON_STAT_UV_CNT b
      let orAt (l : List Byte) (a v : Nat) : List Byte := putLE l a 1 (ofBytesLE ((l.drop a).take 1) ||| v)
      let l1 := orAt g.bytes 0x18 (2 ^ (b + 1))
      let l2 := (axesOfBank b).foldl (fun l n => orAt l (0x40 + 32 * n + 15) 8) l1
      let l3 := putLE l2 (0x640 + 16 * b + 2) 4 (m1.peek ⟨.PW_VMON_STAT, b, 0⟩)
      let l4 := putLE l3 0xFF8 4 (crc32 (l3.take 0xFF8))
      m1.modKn fun k => { k with gasp := some { g with bytes := l4 } }

/-- R65: the last gasp starts: the bridges take the safe state, the engines and the recorder stop, the host port falls
silent, VIO_H and VIO_F turn off, and the record is assembled. -/
def Mach.gaspBegin (m : Mach) (vaux vhold : Nat) : Mach :=
  let bytes := m.gaspRecord vaux vhold
  let m1 := (m.gaspFlash.gaspCut.clrFld F.KN_SUPPLY_VIO_H_GOOD).clrFld F.KN_SUPPLY_VIO_F_GOOD
  let sector := m1.gaspSector
  let m2 : Mach := { m1 with
    gasp := true
    clk := { m1.clk with running := false }
    st := { m1.st with on := false }
    hp := { m1.hp with gen := 0, want := none }
    kn := { m1.kn with phase := .gasp, vauxGood := false, gasp := some { sector := sector, bytes := bytes, done := 0 } } }
  m2.each 4 fun x b => x.forceBank b (m.forced b)

/-- The part of the record that program `k` writes (R66): its offset and its length. -/
def gaspPart (k : Nat) : Nat × Nat := if k < 15 then (256 * k, 256) else if k = 15 then (0xF00, 0xFC) else (0xFFC, 4)

/-- R66: one program completes. -/
def Mach.gaspProgram (m : Mach) : Mach :=
  match m.kn.gasp with
  | some g =>
    if 17 ≤ g.done then m
    else
      let (o, n) := gaspPart g.done
      (m.nvProgram (logSector g.sector + o) ((g.bytes.drop o).take n)).modKn fun k =>
        { k with gasp := some { g with done := g.done + 1 } }
  | none => m

/-- A program of the record that is cut off leaves its range indeterminate. -/
def Mach.gaspLost (m : Mach) : Mach :=
  match m.kn.gasp with
  | some g =>
    if 17 ≤ g.done then m else let (o, n) := gaspPart g.done; m.indeterminate (logSector g.sector + o) n
  | none => m

end Sys2Proof.Machine
end

