-- ==== Sys2Proof/Machine/Kiln.lean ====
section
/-!
DEFINITION. The kiln sequence up to step 8 (R72 to R82): failures, the supply check, the plinths and the log, the image, the
DRAM, parameter records and the units of step 8.
-/

namespace Sys2Proof.Machine

/-! ### Marks of units and axes -/

/-- Sets a bit of a register. -/
def Mach.orReg (m : Mach) (r : Reg) (bits : Nat) : Mach := m.setReg r 0 0 (m.reg r 0 0 ||| bits)

/-- Sets the bit of axis `n` in a pair of registers. -/
def Mach.markAxis (m : Mach) (lo hi : Reg) (n : Nat) : Mach :=
  if n < 32 then m.orReg lo (2 ^ n) else m.orReg hi (2 ^ (n - 32))

/-- Whether axis `n` is left OFF at this start. -/
def Mach.leftOff (m : Mach) (n : Nat) : Bool :=
  if n < 32 then bitOf (m.reg .KN_AXOFF_LO 0 0) n else bitOf (m.reg .KN_AXOFF_HI 0 0) (n - 32)

/-- An axis is left OFF by step `s` with a unit code. -/
def Mach.kilnAxisOff (m : Mach) (n s code : Nat) : Mach :=
  if m.leftOff n then m
  else (((m.markAxis .KN_AXOFF_LO .KN_AXOFF_HI n).lgMark 0x30 n).unitNote n s code).post Ev.KILN_AXIS_OFF n (s + 256 * code)

/-- A unit is retired by step `s` (R99). -/
def Mach.kilnUnit (m : Mach) (unit s code : Nat) : Mach :=
  (m.unitNote unit s code).post Ev.KILN_UNIT_RETIRED unit (s + 256 * code)

/-- R83: axes are marked untested, one event per bank. -/
def Mach.kilnUntested (m : Mach) (axes : List Nat) : Mach :=
  let new := axes.filter fun n => !m.untested n && !m.leftOff n
  let m1 := m.forAll new fun m n => (m.markAxis .KN_UNTESTED_LO .KN_UNTESTED_HI n).lgMark 0x36 n
  m1.each 4 fun m b =>
    if new.any (fun n => bankOf n == b) then
      m.post Ev.KILN_UNTESTED b ((axesOfBank b).map fun n => b2n (m.untested n) * 2 ^ (n - 12 * b)).sum
    else m

/-- R83: banks whose axes steps 10 and 12 skip, or whose tests an undervoltage or a trip has stopped. -/
def Mach.kilnSkipsBank (m : Mach) (b : Nat) : Bool :=
  m.rb F.PW_VMON_STAT_UV_NOW b || m.rb F.PW_TRIP_STAT_LATCH || bitOf m.kn.cut b

/-! ### A step failure -/

/-- R74, R75, R80, R90: a step failure is counted and recorded; the module waits for its restart, or enters kiln hold.
Log entry 20 (DEDUCED). -/
def Mach.kilnFail (m : Mach) (s code detail : Nat) : Mach :=
  let c := min 3 (cntOf m.kn.counts s + 1)
  let m1 := m.setCount s c
  let m2 :=
    if s ≤ 4 then
      (((m1.memoFld F.KN_MEMO_VALID 1).memoFld F.KN_MEMO_STEP s).memoFld F.KN_MEMO_CODE code).modKn fun k => { k with memoDetail := detail }
    else
      ((((m1.lgPut 0x2C 1 s).lgPut 0x2D 1 code).lgPut 0x2E 2 detail).lgCloseNow).setReg .KN_LAST 0 0
        (s + code % 256 * 2 ^ 8 + detail % 2 ^ 16 * 2 ^ 16)
  if c < 3 then m2.modKn fun k => { k with phase := .waiting }
  else
    let g := m2.hp.plinthGen
    let m3 := ((m2.modKn fun k => { k with phase := .hold }).wr F.KN_STATE_HOLD_STEP s).wr F.KN_STATE_HOLD_CODE code
    m3.modHp fun h => { h with want := if h.gen = g then none else some g }

/-- The codes of the failures that the hardware shows at a step (R73). Step 6 can fail in a full training only. -/
def hwCode (s code : Nat) (full : Bool) : Option Nat :=
  match s with
  | 2 => some 0x03
  | 3 => some 0x04
  | 4 => some 0x05
  | 6 => if full then some 0x09 else none
  | 7 => some (if code = 0x0B then 0x0B else 0x0A)
  | _ => none

/-! ### Steps 1 to 3 -/

/-- Step 1: the rails are shown and the supplies are measured, and a bank below its threshold is under voltage with every action of
R54. -/
def Mach.kilnSupply (m : Mach) (w : StartMeas) : Mach :=
  let m1 := (m.wr F.KN_SUPPLY_VAUX_V w.vaux.toNat).modKn fun k => { k with vhold := w.vhold.toNat }
  let good (k : Nat) : Nat := b2n (bitOf w.rails.toNat k)
  let m2 := ((m1.wr F.KN_SUPPLY_VIO_H_GOOD (good 0)).wr F.KN_SUPPLY_VIO_N_GOOD (good 1)).wr F.KN_SUPPLY_VIO_F_GOOD (good 2)
  m2.each 4 fun m b =>
    let vm := (w.vms.getD b 0).toNat
    let m1 := m.wr F.PW_VM_MEAS_VM vm b
    if vm < 64 * clampNat 0x10 0xE8 (m.rd F.PW_VMON_CFG_UV_THR b) then m1.vmUv b vm else m1

/-- Step 3: the failing rows are mapped into the repair reserve (R73). -/
def Mach.kilnSram (m : Mach) (w : StartMeas) : Mach := m.modFm fun x => { x with mapped := w.rows }

/-- Step 2: the reference and the PLLs; the host port works in Gen-1 from its end (R462). -/
def Mach.kilnClocks (m : Mach) (w : StartMeas) : Mach :=
  let m1 := m.modFm fun x => { x with xtalOk := w.xtalOk, rcRef := !w.xtalOk }
  let m2 := if w.xtalOk then m1 else m1.setBit F.FM_CLK_REF_FAIL
  let m3 := m2.modKn fun k => { k with rcStart := !w.xtalOk }
  (m3.modHp fun h => { h with want := some 1 }).genTake

/-! ### Step 4 -/

/-- The records with a wrong CRC are ignored and reported (R94). Log entry 41 (DEDUCED). -/
def Mach.logErrors (m : Mach) : Mach :=
  lgPlaces.foldl (fun m a =>
    if m.lgHead a && !m.lgValid a then m.post Ev.KILN_LOG_ERR (sectorOf a) (m.lgGet a 8 4) else m) m

/-- R79: a start that was interrupted, in the newest record, which is still open. Log entry 41 (DEDUCED). -/
def Mach.logInterrupted (m : Mach) : Mach :=
  match m.lgNewest with
  | none => m
  | some a =>
    let entered := m.lgGet a 0x28 2
    let completed := m.lgGet a 0x2A 2
    match (List.range 16).find? fun k => !bitOf entered k && bitOf completed k with
    | some k =>
      if m.lgOpen a && decide (m.lgGet a 0x2C 1 = 0xFF) then
        (m.ringProgram (a + 0x2C) (bytesLE 1 (k + 1))).ringProgram (a + 0x2D) (bytesLE 1 0x0D)
      else m
    | none => m

/-- The start number after the newest record's; the first one is open (R93). Log entry 38 (DESIGN CHOICE). -/
def Mach.nextStartNo (m : Mach) : Nat :=
  match m.lgNewest with
  | some a => (m.lgGet a 8 4 + 1) % 2 ^ 32
  | none => m.free 9200 % 2 ^ 32

/-- The head of a new record at `a`. -/
def Mach.logHead (m : Mach) (a no counts : Nat) : Mach :=
  ((m.ringProgram a (bytesLE 4 0x4B4C4F47 ++ bytesLE 2 1 ++ bytesLE 2 128 ++ bytesLE 4 no)).ringProgram (a + 0x20) (bytesLE 8 counts))

/-- R80: the closed record of a failure at steps 1 to 4 that KN_MEMO holds; `log` are the counts the log gives.
Log entry 95 (DEDUCED). -/
def Mach.logMemo (m : Mach) (log : Nat) : Mach :=
  if !m.rb F.KN_MEMO_VALID then m
  else
    let s := m.rd F.KN_MEMO_STEP
    let memo := m.kn.before
    let counts := cntWord fun k =>
      if 5 ≤ k then cntOf log k else if k = s then cntOf memo k - 1 else cntOf memo k
    let a := m.lgNext
    let m1 := m.logHead a m.nextStartNo counts
    let m2 := ((m1.ringProgram (a + 0x2C) (bytesLE 1 s)).ringProgram (a + 0x2D) (bytesLE 1 (m.rd F.KN_MEMO_CODE))).ringProgram
      (a + 0x2E) (bytesLE 2 m.kn.memoDetail)
    (m2.lgClose a).memoFld F.KN_MEMO_VALID 0

/-- A bitmap of `n` bytes of a record, active low (R93). -/
def Mach.lgLow (m : Mach) (a o n : Nat) : Nat := 2 ^ (8 * n) - 1 - m.lgGet a o n

/-- The newest record of a start whose step 4 completed: it holds the persistent alternatives and the homing results. -/
def Mach.lgFull (m : Mach) : Option Nat := m.lgNewestOf fun a => !bitOf (m.lgGet a 0x2A 2) 3

/-- R88: the homing directions of this start; `reset` is a request of HOME_RESET. Log entry 42 (DEDUCED). -/
def Mach.homeDirs (m : Mach) (reset : Bool) : Mach :=
  let (old, failed) := match m.lgFull with
    | some a => (m.lgLow a 0x3C 6, m.lgLow a 0x42 6)
    | none => (0, 0)
  let new := if reset then 0 else old ^^^ failed
  let m1 := m.modKn fun k => { k with homeRev := new }
  let m2 := (m1.setReg .KN_HOMEREV_LO 0 0 (new % 2 ^ 32)).setReg .KN_HOMEREV_HI 0 0 (new / 2 ^ 32)
  m2.each 48 fun m n => if bitOf new n == bitOf old n then m else m.post Ev.KILN_HOME_REVERSED n (b2n (bitOf new n))

/-- R76, R77, R82, R91: the alternatives and skips from step 5 on; `newest` is the newest record, `fast` a request of DRAM_FAST.
After CLR_CNT (`clr`) the start runs without alternatives; the persistent one of step 6 stays in the record.
Log entries 43 (DEDUCED), 45 (DEDUCED), 107 (DEDUCED). -/
def Mach.kilnAlts (m : Mach) (newest : Option Nat) (fast clr : Bool) : Mach :=
  let c (s : Nat) := cntOf m.kn.counts s
  let kept := (match m.lgFull with | some a => bitOf (m.lgGet a 0x1A 2) 0 | none => false) && !fast
  let slow := (!clr && (kept || m.patSlow)) || decide (0 < c 6) || decide (0 < c 7)
  let skip := match newest with
    | some a =>
      let s := m.lgGet a 0x2C 1
      if 9 ≤ s ∧ s ≤ 14 ∧ m.lgGet a 0x2D 1 = 0x01 then 2 ^ (s - 1) else 0
    | none => 0
  let alt := m.kn.alt % 16 + b2n (decide (0 < c 5)) * 2 ^ 4 + b2n slow * 2 ^ 5 + b2n (decide (0 < c 7)) * 2 ^ 6 + skip
  m.modKn fun k => { k with slow := slow, alt := alt, slowKept := kept }

/-- R95: this start's record is opened. Log entry 43 (DEDUCED). -/
def Mach.logOpen (m : Mach) (before : Nat) : Mach :=
  let a := m.lgNext
  let no := m.nextStartNo
  let m1 := m.logHead a no before
  let m2 := m1.ringProgram (a + 0x0C) (bytesLE 4 m.kn.hours0 ++ bytesLE 1 m.kn.trigger)
  let m3 := m2.ringProgram (a + 0x18) (bytesLE 2 m.kn.alt ++ bytesLE 2 (b2n (m.kn.slow || m.kn.slowKept) + 2 * b2n m.kn.otherFirst.isSome))
  let m4 := m3.modKn fun k => { k with log := some a, startNo := no }
  let m5 := ((m4.lgPut 0x28 2 (0xFFFF - 15)).lgPut 0x2A 2 (0xFFFF - 7))
  m5.lgPut 0x3C 6 (2 ^ 48 - 1 - m.kn.homeRev)

/-- KN_LAST and KILN_STEP_FAIL of the newest logged failure; `newest` is the newest record (R97, R99). -/
def Mach.logFailure (m : Mach) (newest : Option Nat) : Mach :=
  let failed (a : Nat) : Bool := decide (m.lgGet a 0x2C 1 ≠ 0xFF)
  let m1 := match m.lgNewestOf failed with
    | some a => m.setReg .KN_LAST 0 0 (m.lgGet a 0x2C 1 % 32 + m.lgGet a 0x2D 1 * 2 ^ 8 + m.lgGet a 0x2E 2 * 2 ^ 16)
    | none => m
  match newest with
  | some a =>
    let s := m.lgGet a 0x2C 1
    if failed a then
      m1.post Ev.KILN_STEP_FAIL s (m.lgGet a 0x2D 1 + m.lgGet a 0x2E 2 * 2 ^ 8 + min 3 (cntOf (m.lgCounts a) s) * 2 ^ 24)
    else m1
  | none => m1

/-- What a plinth states of the flash and of the host port (R126, R127). -/
def Mach.plinthShow (m : Mach) (copy : Nat) : Mach :=
  let p := m.plinth copy
  ((m.wr F.NV_STATUS_SIZE (plSize p - 24)).wr F.NV_STATUS_GEN (plGen p)).modNv fun x => { x with capacity := 2 ^ plSize p }

/-- R81, R104: the flash is read in the profile of a copy's plinth, which NV_STATUS shows; under the alternative of step 5 in
single-lane form (R76). -/
def Mach.copyProfile (m : Mach) (copy : Nat) : Mach :=
  let m1 := m.nvEnter (m.plinth copy) (bitOf m.kn.alt 4)
  ((m1.modNv fun x => { x with profOf := some copy }).wr F.NV_STATUS_PROFILE m1.nv.prof.code).wr F.NV_STATUS_ADDR4 (b2n m1.nv.prof.addr4)

/-- Step 4: a tie of the plinths is noted (R81, R108). -/
def Mach.plinthChosen (m : Mach) (tie : Bool) : Mach :=
  let a := m.plinth 0
  let b := m.plinth 1
  let m1 := (if tie then (m.setBit F.NV_STATUS_CFG_TIE).post Ev.NV_CFG_TIE 0 (plSeq a) else m)
  let last := if plinthOk b then plGen b else plGen a
  m1.modHp fun h => { h with plinthGen := last }

/-- Step 4: an interrupted record, a complete last gasp, room for the records, and KN_MEMO's part of the log (R79, R80, R92).
Log entries 46 (DEDUCED), 47 (DEDUCED). -/
def Mach.logScan (m : Mach) : Mach :=
  let before := m.lgNewest
  let m1 := m.when before.isSome Mach.logInterrupted
  let m2 := m1.when (m1.gaspComplete m1.lgSector) (·.setBit F.KN_SUPPLY_LG_PREV)
  let log0 := if m2.kn.clrCnt then 0 else (match before with | some x => m2.lgCounts x | none => 0)
  m2.lgMakeRoom.logMemo log0

/-- Step 4: the failure counts (R94, R95); the alternatives and homing directions they ask for (R76, R80), with the requests
`req`; and this start's record. Log entry 52 (DEDUCED). -/
def Mach.logCount (m : Mach) (req : Nat) : Mach :=
  let newest := m.lgNewest
  let log := if m.kn.clrCnt then 0 else (match newest with | some x => m.lgCounts x | none => 0)
  let counts0 := cntWord fun s => if s ≤ 4 then max (cntOf m.kn.before s) (cntOf log s) else cntOf log s
  let counts := cntWord fun s => if s ≤ 3 then cntOf m.kn.counts s else cntOf counts0 s
  let m1 := (m.modKn fun k => { k with before := counts0, counts := counts, clrCnt := false }).memoKeep
  (((m1.logFailure newest).kilnAlts newest (bitOf req 0) m.kn.clrCnt).homeDirs (bitOf req 1)).logOpen counts0

/-- Step 4: the calibration sections (R125). -/
def Mach.calScan (m : Mach) : Mach :=
  let m1 := m.calFlags
  match m1.calChoose with
  | some c => m1.wr F.NV_CAL_STAT_COPY c
  | none => (m1.setBit F.NV_CAL_STAT_PENDING).post Ev.NV_CAL_INVALID 0 0

/-- R76, R78, R108: the copies in the order of verification. Log entry 44 (DEDUCED). -/
def Mach.copyOrder (m : Mach) : List Nat :=
  let a := m.plinth 0
  let b := m.plinth 1
  let first := (chooseCopy a b).map (·.1)
  let afterLoad := if bitOf m.kn.alt 6 then
      (m.lgNewestOf fun x => decide (m.lgGet x 0x2C 1 = 7)).bind fun x =>
        if m.lgGet x 0x2D 1 = 0x0B ∧ m.lgGet x 0x11 1 ≤ 1 then some (1 - m.lgGet x 0x11 1) else none
    else none
  let start := match afterLoad, m.kn.otherFirst, first with
    | some c, _, _ => c
    | none, some f, _ => 1 - f
    | none, none, some c => c
    | none, none, none => 0
  [start, 1 - start].filter fun c => plinthOk (m.plinth c)

/-- Step 4 after the choice `c` of a copy; its failure code. The capacity is that of the copy that will be verified first (R126). -/
def Mach.plinthsScan (m : Mach) (c : Option (Nat × Bool)) : Mach × Option Nat :=
  match c with
  | none => (m, some 0x06)
  | some (_, tie) =>
    let m1 := ((m.plinthChosen tie).patWear).logErrors
    let req := m1.rd F.KN_MEMO_REQ ||| (match m1.lgNewest with | some x => m1.lgLow x 0x51 1 | none => 0)
    let m2 := ((m1.logScan).logCount req).calScan
    (match m2.copyOrder with | c :: _ => m2.plinthShow c | [] => m2, none)

/-- Step 4: one plinth is read, and read again if it is invalid (R81). -/
def Mach.plinthRead (m : Mach) (copy : Nat) : Mach :=
  let m1 := m.nvRead (plinthAt copy) 256
  if plinthOk (m.plinth copy) then m1 else m1.nvRead (plinthAt copy) 256

/-- Step 4: the plinths, the log, the patina ring and the calibration sections are read, in
single-lane form (R73, R81). -/
def Mach.flashScan (m : Mach) : Mach :=
  let m1 := ((m.plinthRead 0).plinthRead 1).nvRead 0x2000 0x1E000
  (m1.nvRead 0x20000 0xE0000).nvRead (calAt 0) 0x20000

/-- Step 4: the plinths (R81, R108), the log (R79, R80, R92 to R95), the calibration sections (R125); its failure code. -/
def Mach.kilnPlinths (m : Mach) : Mach × Option Nat :=
  let a := m.plinth 0
  let b := m.plinth 1
  ((m.flashScan.showCopy 0 (plinthOk a) (plSeq a)).showCopy 1 (plinthOk b) (plSeq b)).plinthsScan (chooseCopy a b)

/-! ### Step 5 -/

/-- One parameter record (R113): its address, its word count, its value. -/
structure ParamRec where
  addr : Nat
  n : Nat
  value : Nat

/-- The records of a PARAM section from `o` to `e`, at most `fuel` of them. -/
def paramRecs (g : Nat → Byte) : Nat → Nat → Nat → List ParamRec
  | 0, _, _ => []
  | fuel + 1, o, e =>
    let n := le g (o + 4) 2
    if e < o + 8 ∨ (n ≠ 1 ∧ n ≠ 4) ∨ e < o + 8 + 4 * n then []
    else { addr := le g o 4, n := n, value := le g (o + 8) (4 * n) } :: paramRecs g fuel (o + 8 + 4 * n) e

/-- The register that a record writes; none where R113 skips it for its address, its width or its register. -/
def ParamRec.target (p : ParamRec) : Option RegKey :=
  match regAt p.addr with
  | some (k, 0) =>
    if p.addr % 4 = 0 ∧ !decide (0x8800 ≤ p.addr ∧ p.addr < 0x8900) ∧ k.r.desc.rwBits ≠ 0 ∧ (p.n = 4) = (k.r.desc.wide = true)
    then some k else none
  | _ => none

/-- A skipped record is counted under its section (R113). -/
def noteSkip (inst addr : Nat) : List (Nat × Nat × Nat) → List (Nat × Nat × Nat)
  | [] => [(inst, addr, 1)]
  | (i, a, c) :: r => if i = inst then (i, a, c + 1) :: r else (i, a, c) :: noteSkip inst addr r

/-- One record is applied or skipped (R113). Log entry 52 (DEDUCED). -/
def Mach.paramApply (m : Mach) (inst : Nat) (p : ParamRec) : Mach :=
  let skip := m.modKn fun k => { k with skips := noteSkip inst p.addr k.skips }
  match p.target with
  | none => skip
  | some k =>
    let w := p.value &&& k.r.desc.rwBits
    if m.lockRefuses m.lockBits k (k.r.desc.merge (m.peek k) w) then skip else m.ownerWrite k w true

/-- Whether an offset lies in the GL, KN or HP block (R482). -/
def earlyBlock (x : Nat) : Bool := decide (x < 0x8800 ∨ (0x8F00 ≤ x ∧ x < 0x9000) ∨ (0xC0000 ≤ x ∧ x < 0xC0100))

/-- When a record is applied: 0 at the end of step 5, 1 during step 8, 2 after every other record of step 8 (R113). -/
def ParamRec.phase (p : ParamRec) : Nat :=
  if p.addr = RegKey.addr ⟨.GL_LOCK, 0, 0⟩ then 2 else if earlyBlock p.addr then 0 else 1

/-- The PARAM sections of an image in ascending order of their numbers, the overlay last (R113). -/
def paramSections (g : Nat → Byte) : List Section :=
  ((List.range 256).map fun i => (imgEntries g).filterMap fun e => if e.sec.ty = 1 ∧ e.sec.inst = i then some e.sec else none).flatten

/-- The records of one phase, in order. -/
def Mach.params (m : Mach) (g : Nat → Byte) (phase : Nat) : Mach :=
  (paramSections g).foldl (fun m s =>
    ((paramRecs g (s.len / 12 + 1) s.off (s.off + s.len)).filter fun p => p.phase == phase).foldl (fun m p => m.paramApply s.inst p) m) m

/-- Why a copy fails verification (R107, R111, R114); none where it verifies. Log entry 44 (DEDUCED). -/
def Mach.copyFails (m : Mach) (copy : Nat) : Option Nat :=
  let p := m.plinth copy
  let img (i : Nat) : Byte := m.flashB (plOff p + i)
  if crc32 (bytesAt img 0 (plLen p)) ≠ plCrc p then some 0x07
  else if !imageOk img (plLen p) then some 0x07
  else if !m.signatureOk p img then some 0x08
  else none

/-- The img fields of the GL, KN and HP blocks take their image values (R89, R97). -/
def Mach.coreImg (m : Mach) : Mach :=
  let m1 := [Reg.KN_CFG, .KN_MCEN_LO, .KN_MCEN_HI, .HP_CFG].foldl
    (fun m r => m.setReg r 0 0 (RegKey.resetVal ⟨r, 0, 0⟩).toNat) m
  let k : RegKey := ⟨.KN_LGASP, 0, 0⟩
  m1.setReg .KN_LGASP 0 0 (without (m1.reg .KN_LGASP 0 0) k.r.desc.rwBits + (k.resetVal.toNat &&& k.r.desc.rwBits))

/-- Step 5 with copy `c`: it becomes the copy in use. Log entry 44 (DEDUCED). -/
def Mach.copyUse (m : Mach) (c : Nat) : Mach :=
  let p := m.plinth c
  let m1 := (m.plinthShow c).modNv fun x => { x with inUse := some (c, plOff p, plLen p) }
  let m2 := (m1.wr F.NV_STATUS_COPY c).wr F.NV_STATUS_SIGNED (b2n (plSigned p))
  let m4 := (m2.lgPut 0x11 1 c).lgPut 0x14 4 (plSeq p)
  let m5 := m4.coreImg.params (fun i => m.flashB (plOff p + i)) 0
  m5.modHp fun h => { h with want := if h.gen = plGen p then none else some (plGen p), plinthGen := plGen p, imgCfg := m5.reg .HP_CFG 0 0 }

/-- Step 5: a copy is read in its plinth's profile. -/
def Mach.copyRead (m : Mach) (c : Nat) : Mach := (m.copyProfile c).nvRead (plOff (m.plinth c)) (plLen (m.plinth c))

/-- R78: a copy has failed verification: the other one comes first from now on; of two failures the last counts.
Log entry 146 (DEDUCED). -/
def Mach.copyFailed (m : Mach) (c : Nat) : Mach := m.modKn fun k => { k with otherFirst := some c, otherDone := false }

/-- Step 5: the copies are verified in order (R78, R108); its failure code is that of the copy verified last. Where no copy comes
into use, the capacity stays that of the copy verified first (R126). -/
def Mach.kilnImage (m : Mach) : Mach × Option Nat :=
  match m.copyOrder with
  | [] => (m, some 0x07)
  | c :: rest =>
    let m := (m.plinthShow c).copyRead c
    match m.copyFails c, rest with
    | none, _ => (m.copyUse c, none)
    | some code, [] => ((m.copyFailed c).modHp fun h => { h with plinthGen := plGen (m.plinth c) }, some code)
    | some code, d :: _ =>
      let m1 := (m.copyFailed c).copyRead d
      (match m.copyFails d with
       | none => ((m1.copyUse d).post Ev.NV_COPY_FALLBACK c code, none)
       | some code2 => ((m1.copyFailed d).modHp fun h => { h with plinthGen := plGen (m.plinth d) }, some code2))

/-! ### Steps 6 and 7 -/

/-- R82: whether step 6 runs a full training. -/
def Mach.fullTraining (m : Mach) (w : StartMeas) : Bool :=
  let stored := match m.calChoose with | some c => bitOf (m.flashRead (calAt c + 6) 2) 1 | none => false
  m.kn.slow || !stored || !w.retrainOk || m.rb F.KN_CFG_FORCE_FULL_TRAIN

/-- Step 6 succeeds: the eye centres in use, the rate in the record (R82, R95, R125). -/
def Mach.kilnTrain (m : Mach) (w : StartMeas) : Mach :=
  let m1 := if m.fullTraining w then
      (m.modNv fun x => { x with eyes := w.eyes.toNat, eyesOk := true }).setBit F.NV_CAL_STAT_PENDING
    else match m.calChoose with
      | some c => m.modNv fun x => { x with eyes := m.flashRead (calAt c + 0x160) 256, eyesOk := true }
      | none => m
  (m1.modKn fun k => { k with trained := true }).lgPut 0x12 1 (b2n m.kn.slow)

/-- Step 7 succeeds: the DRAM holds the image and reads zero elsewhere (R112, R499). -/
def Mach.kilnLoad (m : Mach) : Mach :=
  match m.nv.inUse with
  | some (_, off, len) =>
    let g (i : Nat) : Byte := m.flashB (off + i)
    { (m.nvRead off len) with dram := memPut dramDefault [] 0 (bytesAt g 0 len), sections := (imgEntries g).map (·.sec) }
  | none => m

/-! ### Step 8 -/

/-- The commutation tables and the harmonic bins (R243, R247). -/
def Mach.kilnTables (m : Mach) : Mach :=
  let comm := (List.range 16).foldl (fun v t =>
    vmod v t fun _ => (m.sections.find? fun s => s.ty == 4 && s.inst == t).map fun s => m.dramRead s.off 4096) m.comm
  let bins (n : Nat) : Nat := match m.calChoose with
    | some c => if bitOf (m.flashRead (calAt c + 6) 2) 2 then m.flashRead (calAt c + 0x400 + 512 * n) 512 else 0
    | none => 0
  { m with comm := comm, harm := (List.range 48).foldl (fun v n => vmod v n fun _ => bins n) m.harm }

/-- R231: GR_CAMTAB. -/
def Mach.kilnCams (m : Mach) : Mach :=
  m.each 64 fun m t =>
    m.wr F.GR_CAMTAB_OFFSET (match m.sections.find? fun s => s.ty == 3 && s.inst == t with | some s => s.off | none => 0xFFFFFFFF) t

/-- R398: a channel whose curve table is missing, malformed or of the other curve is disabled. -/
def Mach.kilnCurves (m : Mach) : Mach :=
  m.each 8 fun m c =>
    let cv := m.rd F.SF_CH_CURVE_CURVE c
    if m.rb F.SF_CH_CFG_EN c && (cv == 5 || cv == 11) && (m.curveTable (m.rd F.SF_CH_CURVE_TABLE c) cv).isNone then
      (m.clrFld F.SF_CH_CFG_EN c).sfCfgBad (RegKey.addr ⟨.SF_CH_CURVE, c, 0⟩)
    else m

/-- An engine or a regulator fails at step 8: its reserve stands in from RUN; a failed reserve leaves no spare.
Log entries 40 (DESIGN CHOICE), 45 (DEDUCED), 48 (DEDUCED). -/
def Mach.kilnCores (m : Mach) (w : StartMeas) : Mach :=
  let one (m : Mach) (unit off bit : Nat) : Mach :=
    ((m.retireUnit unit).lgMark off bit).kilnUnit unit 8 (0x20 + m.free (9300 + unit) % 11)
  let m1 := m.each 9 fun m k =>
    if !bitOf w.eng.toNat k then m
    else
      let m1 := (one m (0x20 + k) 0x4B k).setBit F.FM_STATUS_NO_SPARE
      if k < 8 then m1.wr F.FM_STATUS_ER_FOR k else m1
  m1.each 5 fun m k =>
    if !bitOf w.reg.toNat k then m
    else
      let m1 := (one m (0x30 + k) 0x4D k).setBit F.FM_STATUS_NO_SPARE
      if k < 4 then m1.wr F.FM_STATUS_CRS_FOR k else m1

/-- Step 8: the loads and self-tests; its failure code. Log entry 48 (DEDUCED). -/
def Mach.kilnEngines (m : Mach) (w : StartMeas) : Mach × Option Nat :=
  if 2 ≤ maskCount w.eng.toNat 9 ∨ 2 ≤ maskCount w.reg.toNat 5 then (m, some 0x0C)
  else
    let m1 := m.kilnTables.kilnCams
    let m2 := (m1.params m1.dramB 1).params m1.dramB 2
    let m3 := (m2.recordLocks m2.lockBits).kilnCurves
    let m4 := m3.kilnCores w
    ({ m4 with pt := { m4.pt with img := m4.regs } }, none)

end Sys2Proof.Machine
end

