-- ==== Sys2Proof/Machine/Tick.lean ====
section
/-!
DEFINITION. A tick boundary (R19, R20): time, the input snapshot, the staged writes that take effect there (R491, R492), the
latched feedback and bank summaries, the engines' boundary, the frame of the strata recorder.
-/

namespace Sys2Proof.Machine

/-- Whether a segment boundary of axis `n` is at the present tick (R140): a segment starts or ends there, or none is in
flight. -/
def Mach.segBoundary (m : Mach) (n : Nat) : Bool :=
  let t := m.clk.tick
  match m.runSeg n (m.ax n) with
  | none => true
  | some g => decide (g.t0 = t) || (decide (g.endTick ≤ t) && g.kind != .velocity) || ((m.ax n).group.isSome && decide (t < g.t0))

/-- Whether a staged write takes effect at the present tick boundary. -/
def Mach.stagedDue (m : Mach) (s : Staged) : Bool :=
  match s.at_ with
  | .nextTick => true
  | .axApply => s.choice == 2 || (s.choice == 3 && m.segBoundary s.key.i)
  | .laApply | .fbApply => s.choice == 2
  | .segment => m.segBoundary s.key.i
  | _ => false

/-- What the change of a register's value in force does (R356, R359, R451). -/
def Mach.stagedDid (m : Mach) (s : Staged) : Mach :=
  match s.key.r with
  | .FB_CFG =>
    let p := s.key.i
    let m1 := if bitsOf s.force.toNat 0 3 ≠ m.rd F.FB_CFG_MODE p then m.portReset p else m
    let pol := bitsOf s.force.toNat 12 4
    if pol ≠ m.rd F.FB_CFG_POL p then m1.polChange p pol else m1
  | .FB_SCALE => m.portRescale s.key.i
  | _ => m

/-- The staged writes that take effect at a tick boundary, all together (R492). -/
def Mach.tickApply (m : Mach) : Mach :=
  let due := m.staged.filter m.stagedDue
  let left := (m.staged.filter fun s => !m.stagedDue s).map fun s =>
    if (s.at_ == .pwApply || s.at_ == .csApply) && s.choice == 2 then { s with ready := true } else s
  let m1 := due.foldl Mach.stagedDid { m with staged := left }
  if due.any (fun s => s.key.r == .ST_SEL) then (m1.wrap F.ST_STAT_GEN).stShowRate else m1

/-- The axes that move in the present tick are noted for patina's window (R439). -/
def Mach.movedNote (m : Mach) : Mach :=
  let mask := ((List.range 48).map fun n => b2n ((m.ax n).eff == .move || (m.ax n).eff == .follow) * 2 ^ n).sum
  { m with pt := { m.pt with moved := m.pt.moved ||| mask } }

/-- R20, R492: what a boundary takes in: the input snapshot, the staged writes that take effect, the latched feedback. -/
def Mach.boundaryIn (m : Mach) (i : InputLevels) : Mach := ({ m with snapIn := i } : Mach).tickApply.each 12 Mach.portTick

/-- R20, R430, R449: what a boundary ends with: the bank summaries, the ledger's interval, patina's note of the axes that move, the
frame of the strata recorder. -/
def Mach.boundaryOut (m : Mach) : Mach := ((m.each 48 Mach.laTick).heatTick).movedNote.stFrame

/-- R152, R201: a level as its filter has it, from the terminals' level, how long it has held, and the filter's time. -/
def filtered (old new held deb : Nat) : Nat := if deb ≤ held then new else old

/-- R152, R201: the filtered levels of the inputs; those of the trip inputs need no filter here. -/
def Mach.filterLevels (m : Mach) (i : InputLevels) (h : HeldTimes) : InputLevels :=
  let bits (w : Nat) (old new : Nat) (held deb : Nat → Nat) : Nat :=
    ((List.range w).map fun k => filtered (bitsOf old k 1) (bitsOf new k 1) (held k) (deb k) * 2 ^ k).sum
  let at_ (l : List Nat) (k : Nat) : Nat := l.getD k 65536
  { i with
    gi := BitVec.ofNat 16 (bits 16 m.inp.gi.toNat i.gi.toNat (at_ h.gi) (m.rd F.Q_GI_CFG_DEB ·))
    limA := BitVec.ofNat 48 (bits 48 m.inp.limA.toNat i.limA.toNat (at_ h.limA) (m.rd F.AX_LIM_CFG_DEB ·))
    limB := BitVec.ofNat 48 (bits 48 m.inp.limB.toNat i.limB.toNat (at_ h.limB) (m.rd F.AX_LIM_CFG_DEB ·)) }

/-- The levels of a TICK: the trip inputs act at their own levels (R289); a limit input that becomes active acts (R153); the others
change as they are. -/
def Mach.takeLevels (m : Mach) (i : InputLevels) : Mach :=
  if !m.sampled then m
  else (({ m with inp := { i with tripA := m.inp.tripA, tripB := m.inp.tripB } } : Mach).limitEdges m).tripLevels i.tripA i.tripB

/-- The terminals of the feedback ports take their levels while they are sampled (R63, R354). -/
def Mach.takePorts (m : Mach) (lv : TickInputs) : Mach := m.when m.sampled (·.portsLevel lv.ports.toNat lv.held.ports)

/-- The next boundary comes: the time, and the seconds of the hours counter (R11, R19). -/
def Mach.tickClock (m : Mach) : Mach :=
  let t := m.clk.tick + 1
  { m with clk := { m.clk with tick := t, sub := 0, hours := (m.clk.hours + (if t % 50000 = 0 then 1 else 0)) % 2 ^ 32 } }

/-- What falls due at a boundary before its inputs are taken: aborts (R205) and the triggers of the converters (R321). -/
def Mach.tickDue (m : Mach) : Mach := m.abortsDue.each 4 fun m b => m.trigEvent b 3 0 (4000 * m.clk.tick)

/-- The engines' part of a boundary with the paths' snapshots; in a debug halt the engines stand (R287). -/
def Mach.tickEngines (m : Mach) : Mach := if m.dbgHalt then m else m.enginesTick.each 16 Mach.pathSnap

/-- R19, R20: a tick boundary with the input levels `i`. Before RUN there is none, and only the levels change.
Log entry 27 (DEDUCED). -/
def Mach.tickNow (m : Mach) (i : InputLevels) : Mach :=
  if !m.clk.running then m.takeLevels i
  else
    let m1 := (m.each 48 Mach.owedSlot).tickClock.tickDue.takeLevels i
    (m1.boundaryIn i).tickEngines.boundaryOut

end Sys2Proof.Machine
end

