-- ==== Sys2Proof/Machine/KilnRun.lean ====
section
/-!
DEFINITION. The kiln sequence from step 9 to the end of step 16 (R73, R77, R83 to R88), and a start as a whole (R72).
-/

namespace Sys2Proof.Machine

/-! ### Step 9 -/

/-- The stored coefficients of slice `s` of bank `b`, where the calibration section in use holds them (R124, R316): OFS,
GAIN, SKEW as raw fields. -/
def Mach.storedSlice (m : Mach) (b s : Nat) : Option (Nat × Nat × Nat) :=
  match m.calChoose with
  | some c =>
    let a := calAt c + 0x20 + 16 * (5 * b + s)
    if bitOf (m.flashRead (calAt c + 6) 2) 0 && bitOf (m.flashRead (a + 5) 1) 0 then
      some (m.flashRead a 2, m.flashRead (a + 2) 2, m.flashRead (a + 4) 1)
    else none
  | none => none

/-- The operating hours at the measurement of a stored slice (R316). -/
def Mach.storedTime (m : Mach) (b s : Nat) : Nat :=
  match m.calChoose with
  | some c => m.flashRead (calAt c + 0x20 + 16 * (5 * b + s) + 8) 4
  | none => 0

/-- The roles at the end of step 9 (R18, R312): S0 to S3 convert, S4 shadows or stands in for the lowest retired slice. -/
def Mach.sliceRoles (m : Mach) (b : Nat) (bad : Nat → Bool) : Mach :=
  let m1 := m.each 4 fun m s => (m.wr F.CS_SLICE_ROLE (if bad s then 4 else 0) b s).wr F.CS_SLICE_FOR s b s
  let low := (List.range 4).find? bad
  if bad 4 then (m1.wr F.CS_SLICE_ROLE 4 b 4).wr F.CS_SLICE_FOR 7 b 4
  else match low with
    | some s => (m1.wr F.CS_SLICE_ROLE 3 b 4).wr F.CS_SLICE_FOR s b 4
    | none => (m1.wr F.CS_SLICE_ROLE (if m.rb F.CS_CFG_SHADOW_EN b then 1 else 2) b 4).wr F.CS_SLICE_FOR 7 b 4

/-- R73: a slice beyond ±64 LSB of offset or ±2 % of gain, as measured. -/
def sliceBad (z p n : Int) : Bool :=
  decide (1024 < (calOfs z).natAbs) || (match calGain p n with | some g => decide (2 * 2 ^ 19 < 100 * g.natAbs) | none => true)

/-- R125: a slice that differs from its stored value by more than 4 LSB or 0.1 %. -/
def Mach.sliceMoved (m : Mach) (b s : Nat) : Bool :=
  match m.storedSlice b s with
  | some (o, g, _) =>
    decide (64 < (m.rdS F.CS_SLICE_OFS b s - signedOf 16 o).natAbs) || decide (524 < (m.rdS F.CS_SLICE_GAIN b s - signedOf 16 g).natAbs)
  | none => false

/-- SKEW starts from the calibration section (R315). -/
def Mach.sliceSkew (m : Mach) (b s : Nat) : Mach :=
  m.wr F.CS_SLICE_SKEW (match m.storedSlice b s with | some (_, _, k) => k | none => 0) b s

/-- Step 9. -/
def Mach.kilnSlices (m : Mach) (w : StartMeas) : Mach :=
  m.each 4 fun m b =>
    let m1 := m.each 5 fun m s =>
      let (z, p, n) := w.slices.getD (5 * b + s) (0, 0, 0)
      (m.calSlice b s z p n).sliceSkew b s
    let bad (s : Nat) : Bool := let (z, p, n) := w.slices.getD (5 * b + s) (0, 0, 0); sliceBad z p n
    let m2 := m1.sliceRoles b bad
    let m3 := m2.each 5 fun m s =>
      if bad s then
        ((m.orReg .KN_UNITS (2 ^ (5 * b + s))).lgMark 0x48 (5 * b + s)).kilnUnit (5 * b + s) 9 0x25
      else m
    let m4 := if 2 ≤ ((List.range 5).filter bad).length then m3.forAll (axesOfBank b) fun m n => m.kilnAxisOff n 9 0x25 else m3
    m4.when ((List.range 5).any fun s => m4.sliceMoved b s) (·.setBit F.NV_CAL_STAT_PENDING)

/-- Step 9 skipped: the stored coefficients (R77). -/
def Mach.kilnSlicesSkip (m : Mach) : Mach :=
  m.each 4 fun m b =>
    let m1 := m.each 5 fun m s => match m.storedSlice b s with
      | some (o, g, k) => (((m.wr F.CS_SLICE_OFS o b s).wr F.CS_SLICE_GAIN g b s).wr F.CS_SLICE_SKEW k b s).sliceTime b s (m.storedTime b s)
      | none => m
    m1.sliceRoles b fun _ => false

/-! ### Steps 10 and 11 -/

/-- The axes whose tests steps 10 and 12 leave out: banks under voltage or tripped, and axes whose test the clamp met twice.
Log entry 49 (DEDUCED). -/
def Mach.kilnLeaves (m : Mach) (w : StartMeas) (n : Nat) : Bool := m.kilnSkipsBank (bankOf n) || bitOf w.clampTwice.toNat n

/-- Step 10 (R83). -/
def Mach.kilnBridges (m : Mach) (w : StartMeas) : Mach :=
  if !m.rb F.KN_CFG_BRIDGE_TEST_EN then m
  else
    let todo := (List.range 48).filter fun n => m.characterised n && !m.leftOff n
    let m1 := m.kilnUntested (todo.filter (m.kilnLeaves w))
    let tested := todo.filter fun n => !m.kilnLeaves w n
    let m2 := m1.forAll tested fun m n =>
      { m with pt := { m.pt with dly10 := vmod m.pt.dly10 n fun _ => (w.delays.getD n 0).toNat } }
    m2.forAll tested fun m n => if bitOf w.bridgeFail.toNat n then m.kilnAxisOff n 10 0x24 else m

/-- IEXC of a current source in A (R384, R405). -/
def Mach.exCurrent (m : Mach) (e : Nat) : Rat := (clampNat 1 100 (m.rd F.SF_EX_CFG_IEXC e) : Rat) / 100000

/-- R385, R402: whether step 11 finds an enabled source at fault: a current source beyond ±2 % of IEXC, a voltage source as R385
says. -/
def Mach.sourceFails (m : Mach) (w : StartMeas) (e : Nat) : Bool :=
  let (i, bits) := w.sources.getD e (0, 0)
  m.exOn e && (m.exBits e bits.toNat != 0 || (!m.exVolt e && decide (2 * m.exCurrent e < 100 * ratAbs (i - m.exCurrent e))))

/-- R402: whether step 11 fails a channel: an enabled one with a point off by more than 0.5 % of full scale, or any that uses a
failed source. -/
def Mach.channelFails (m : Mach) (w : StartMeas) (c : Nat) : Bool :=
  let x := w.front.getD c { e1 := 0, e2 := 0 }
  (m.rb F.SF_CH_CFG_EN c && (decide (50 < x.e1.natAbs) || decide (50 < x.e2.natAbs)))
    || [0, 1].any fun e => m.usesEx c e && m.sourceFails w e

/-- Step 11 (R385, R402): the measured pull-up, the measured currents of current sources, the faults of sources, the channels that fail.
Log entry 70 (DEDUCED). -/
def Mach.kilnFront (m : Mach) (w : StartMeas) : Mach :=
  if !m.rb F.KN_CFG_FE_TEST_EN then m
  else
    let m1 := m.modSf fun x => { x with rpu := (w.rpu : Rat) }
    let m2 := m1.each 2 fun m e =>
      let (i, bits) := w.sources.getD e (0, 0)
      let shown := shownU 16 0 (i * 10000000)
      let m3 := m.when (m.exOn e && !m.exVolt e) fun m =>
        (m.wr F.SF_EX_STAT_MEAS shown e).modSf fun s => { s with exI := vmod s.exI e fun _ => shown }
      if m.exBits e bits.toNat = 0 then m3.exFaultClear e else m3.exFault e bits.toNat
    m2.each 8 fun m c =>
      if m.channelFails w c then
        (((((m.setBit F.SF_CH_STAT_FAILED c).wr F.KN_CORES_SC (m.rd F.KN_CORES_SC ||| 2 ^ c)).lgMark 0x50 c)).unitNote (0x10 + c) 11 0x28).post
          Ev.KILN_PORT_FAIL (0x10 + c) 0x28
      else m

/-! ### Step 12 -/

/-- Step 12 on one axis (R84, R85). -/
def Mach.kilnMotor (m : Mach) (n : Nat) (w : MotorMeas) : Mach :=
  match m.motorChar n w with
  | (m1, some code) => m1.kilnAxisOff n 12 code
  | (m1, none) => m1

/-- Step 12; an axis that is not characterised has the image's R and L in force. Log entry 49 (DEDUCED). -/
def Mach.kilnMotors (m : Mach) (w : StartMeas) : Mach :=
  let coil : CoilMeas := { iEnd := 0, trip2 := false, v := 0, i2 := 0, di := 0 }
  let none_ : MotorMeas := { a := coil, b := coil, ls := [] }
  let m0 := m.each 48 Mach.loopImage
  if !m0.rb F.KN_CFG_MCHAR_EN then m0
  else
    let todo := (List.range 48).filter fun n => m0.characterised n && !m0.leftOff n
    let m1 := m0.kilnUntested (todo.filter (m0.kilnLeaves w))
    m1.forAll (todo.filter fun n => !m0.kilnLeaves w n && !m0.untested n) fun m n => m.kilnMotor n (w.motors.getD n none_)

/-- Step 12 skipped: the image's R and L (R77). -/
def Mach.kilnMotorsSkip (m : Mach) : Mach :=
  m.each 48 fun m n =>
    let m1 := (m.loopImage n).setBit F.KN_MCHAR_S_IMG_VALUES n
    (m1.setReg .KN_MCHAR_A n 0 ((imgRL n 0).1 + (imgRL n 0).2 * 2 ^ 16)).setReg .KN_MCHAR_B n 0 ((imgRL n 1).1 + (imgRL n 1).2 * 2 ^ 16)

/-! ### Step 13 -/

/-- R86: the unit code with which step 13 fails a port in mode `md`; none where it passes or is not checked. FB_CRC is that of a failed
CRC alone; SSI words are compared as plain numbers. Log entry 145 (DESIGN CHOICE). -/
def portCheck (md : Nat) (x : PortMeas) : Option Nat :=
  let words := (List.range 3).map fun i => (x.words[i]?).join
  let counts := words.filterMap fun w => w.map (·.1)
  match md with
  | 1 => if x.qfault then some 0x26 else none
  | 2 => if bitOf x.codes.toNat 0 || bitOf x.codes.toNat 7 then some 0x26 else none
  | 3 => if words.any Option.isNone || decide (listMin counts + 2 < listMax counts) then some 0x26 else none
  | 4 =>
    if words.any Option.isNone then some 0x26
    else if words.any fun w => w.any fun c => !c.2 then some 0x27
    else none
  | _ => none

/-- Step 13 (R86, R377). -/
def Mach.kilnPorts (m : Mach) (w : StartMeas) : Mach :=
  if !m.rb F.KN_CFG_FB_CHECK_EN then m
  else m.each 12 fun m p =>
    match portCheck (m.portMode p) (w.ports.getD p { words := [], codes := 0, qfault := false }) with
    | some code =>
      ((((m.setBit F.FB_STAT_FAILED p).wr F.KN_UNITS_FB (m.rd F.KN_UNITS_FB ||| 2 ^ p)).lgMark 0x4E p).unitNote p 13 code).post
        Ev.KILN_PORT_FAIL p code
    | none => m

/-! ### Step 15: entering RUN -/

/-- R192: an autostart routine starts in frame 0 of its queue. -/
def Mach.autoRoutine (m : Mach) (q : Nat) (s : Section) : Mach :=
  (m.modQ q fun x =>
    { x with st := if x.st = .idle then .run else x.st, stack := [.at s.off s.off (s.off + s.len)], fetched := none, auto_ := true }).post
    Ev.Q_RTN_START q (s.inst + 256)

/-- The routine of the lowest number among a list of sections. -/
def lowestRoutine (l : List Section) : Option Section :=
  l.foldl (fun o s => match o with | none => some s | some t => if s.inst < t.inst then some s else o) none

/-- R192: the autostart routines of the image, one per queue. Log entry 50 (DEDUCED). -/
def Mach.autostart (m : Mach) : Mach :=
  let autos := m.sections.filter fun s => s.ty == 2 && bitOf s.flags 1
  m.each 64 fun m q =>
    let mine := autos.filter fun s => s.param == q
    match lowestRoutine mine with
    | none => m
    | some s =>
      let m1 := m.autoRoutine q s
      ((List.range 256).filter fun r => mine.any fun t => t.inst == r && t.inst != s.inst).foldl
        (fun m r => m.post Ev.Q_RTN_CONFLICT q r) m1

/-- R73, R88, R97: step 16 completes: the homing results with their unit failures, its duration and the record's CRC. -/
def Mach.step16End (m : Mach) : Mach :=
  if m.kn.phase == .run && !m.kn.step16 then
    let m1 := (m.lgPut 0x42 6 (2 ^ 48 - 1 - m.kn.homeFail)).lgMark 0x2A 15
    let m2 := m1.each 48 fun m n => if bitOf m.kn.homeFail n then m.unitNote n 16 0x29 else m
    let m3 := m2.wr F.KN_STEPTIME_DUR (shownU 20 0 ((m.clk.tick * 1000 + m.clk.sub) / 500 : Nat)) 15
    ((m3.setCount 16 0).modKn fun k => { k with step16 := true, done := k.done ||| 2 ^ 15 }).lgCloseNow
  else m

/-- R88: step 16 completes when no autostart routine runs any more, or 60 s after RUN was entered. -/
def Mach.step16Check (m : Mach) : Mach :=
  if !m.queues.toList.any (fun x => x.auto_ && x.st != .halted) || decide (3000000 ≤ m.clk.tick) then m.step16End else m

/-- R19, R20: the boundary at counter zero: the snapshot, the writes that take effect there, the latched feedback and summaries.
Log entry 27 (DEDUCED). -/
def Mach.firstBoundary (m : Mach) : Mach :=
  (((m.boundaryIn m.inp).each 16 Mach.pathSnap).each 48 Mach.axisSnap).boundaryOut

/-- R13, R87, R161: what entering RUN sets up in the blocks. Log entries 38 (DESIGN CHOICE), 42 (DEDUCED), 50 (DEDUCED). -/
def Mach.runSetup (m : Mach) : Mach :=
  let m1 : Mach := { m with
    clk := { m.clk with running := true, tick := 0, sub := 0 }
    kn := { m.kn with phase := .run }
    go := BitVec.ofNat 8 (m.free 9500)
    pt := { m.pt with win0 := m.clk.hours, moved := 0, hrs := [] } }
  let m2 := (m1.each 4 fun m b => m.restartBank b 0).takeRole
  let m3 := m2.each 48 fun m n =>
    (m.modAx n fun a => { a with dirUsed := m.rb F.AX_HOME_CFG_DIR n != bitOf m.kn.homeRev n }).verCapture n
  let m4 := m3.each 48 fun m n =>
    if m.rb F.AX_CFG_EN_AT_RUN n && !m.leftOff n && !m.untested n && !m.enableRefused n then m.enterArming n else m
  (m4.heatRun.sfRun.stRun).firstBoundary

/-- Step 15 (R87): RUN is entered `toRun` µs after the trigger. Log entries 50 (DEDUCED), 127 (DESIGN CHOICE). -/
def Mach.enterRun (m : Mach) (toRun : Nat) : Mach :=
  let m1 := m.runSetup
  let raised := m.kn.raised ++ m.kn.skips.map fun s => (Ev.NV_PARAM_SKIP, s.1, s.2.1 + shownU 16 0 (s.2.2 : Nat) * 2 ^ 32)
  let m2 := raised.foldl (fun m e => m.enterEvt e.1 e.2.1 e.2.2 0) (m1.modKn fun k => { k with raised := [] })
  let m3 := m2.post Ev.KILN_RUN 0 (toRun + m.kn.trigger * 2 ^ 24 + b2n (m.rd F.NV_STATUS_COPY == 1) * 2 ^ 26)
  let m4 := if m3.rb F.KN_SUPPLY_LG_PREV then m3.post Ev.LG_RECORD 0 (match m3.gaspNewest with | some s => m3.gaspSeq s | none => 0) else m3
  let m5 := ((m4.wr F.KN_TIME_TO_RUN toRun).memoFld F.KN_MEMO_REQ 0).lgPut 0x54 4 toRun
  let m6 := (m5.stepBegin 16).when (m5.rb F.KN_CFG_AUTOSTART_EN) (·.autostart)
  m6.step16Check

/-! ### A start -/

/-- What a step does, with its failure code; `skip` where R77 skips it. -/
def Mach.stepDo (m : Mach) (w : StartMeas) (s : Nat) (skip : Bool) : Mach × Option Nat :=
  match s, skip with
  | 1, _ => (m.kilnSupply w, if w.rails = 7 then none else some 0x02)
  | 2, _ => (m.kilnClocks w, none)
  | 3, _ => (m.kilnSram w, none)
  | 4, _ => m.kilnPlinths
  | 5, _ => m.kilnImage
  | 6, _ => (m.kilnTrain w, none)
  | 7, _ => (m.kilnLoad, none)
  | 8, _ => m.kilnEngines w
  | 9, false => (m.kilnSlices w, none)
  | 9, true => (m.kilnSlicesSkip, none)
  | 10, false => (m.kilnBridges w, none)
  | 11, false => (m.kilnFront w, none)
  | 12, false => (m.kilnMotors w, none)
  | 12, true => (m.kilnMotorsSkip, none)
  | 13, false => (m.kilnPorts w, none)
  | 14, false => (m.patStart, none)
  | _, _ => (m, none)

/-- R73, R97: whether a step runs: it is not skipped, and KN_CFG does not disable it. -/
def Mach.stepRuns (m : Mach) (s : Nat) (skip : Bool) : Bool :=
  !skip && (match s with
    | 10 => m.rb F.KN_CFG_BRIDGE_TEST_EN
    | 11 => m.rb F.KN_CFG_FE_TEST_EN
    | 12 => m.rb F.KN_CFG_MCHAR_EN
    | 13 => m.rb F.KN_CFG_FB_CHECK_EN
    | _ => true)

/-- A step has completed: its bit, its count, and the next step or RUN (R72, R75, R77). -/
def Mach.stepDone (m : Mach) (w : StartMeas) (s : Nat) (skip : Bool) : Mach :=
  let m1 := if skip then m else (m.lgMark 0x2A (s - 1)).setCount s 0
  let m2 := m1.modKn fun k => { k with done := k.done ||| 2 ^ (s - 1) }
  if s < 15 then m2.stepBegin (s + 1) else m2.enterRun w.toRun.toNat

/-- One step of a start (R72 to R77). Log entries 14 (DESIGN CHOICE), 19 (DEDUCED), 20 (DEDUCED). -/
def Mach.kilnStep (m : Mach) (w : StartMeas) : Mach :=
  let s := m.kn.step
  let skip := decide (9 ≤ s) && bitOf m.kn.alt (s - 1)
  let m := m.when (decide (s = 6)) (·.genTake)
  let m0 := m.wr F.KN_STEPTIME_DUR (if m.stepRuns s skip then (w.durs.getD (s - 1) 0).toNat else 0) (s - 1)
  let hw := match w.fail with
    | some (fs, code, d) => if fs.val = s then (hwCode s code.toNat (m0.fullTraining w)).map fun c => (c, d.toNat) else none
    | none => none
  match hw with
  | some (c, d) => m0.kilnFail s c d
  | none =>
    match m0.stepDo w s skip with
    | (m1, some c) => m1.kilnFail s c (m.free (9600 + s) % 2 ^ 16)
    | (m1, none) => m1.stepDone w s skip

/-- R72: a start runs its steps in order, up to step `w.upTo` in this command. -/
def Mach.kilnGo (w : StartMeas) : Nat → Mach → Mach
  | 0, m => m
  | f + 1, m => if m.kn.phase == .start && !m.testInstr && decide (m.kn.step ≤ w.upTo.val) then kilnGo w f (m.kilnStep w) else m

end Sys2Proof.Machine
end

