-- ==== Sys2Proof/Machine/PowerCmd.lean ====
section
/-!
DEFINITION. The events of the supplies and of RESET_N (R50 to R60, R64 to R66, R72, R500).
-/

namespace Sys2Proof.Machine

/-! ### Power-up and power-down -/

/-- The always-on block counts hours also while no ticks run; how much has passed since the last command is open.
Log entry 13 (DESIGN CHOICE). -/
def Mach.hoursPass (m : Mach) : Mach :=
  if m.clk.running then m else m.hoursAdd (m.free 9700)

/-- The state in which the module holds itself: power-on reset without power, or with what it keeps. -/
def Mach.powerOff (m : Mach) : Mach :=
  let m1 := m.wipe.modKn fun k => { k with phase := .off, vhold := m.kn.vhold, begun := false }
  let m2 := (m1.modNv fun x => { x with octal := false }).each 4 fun m b => m.modBank b fun x => { x with clamp := false }
  { m2.setReg .KN_SUPPLY 0 0 0 with tap := .reset }

/-- The clamps of `m` hold on: the internal supplies have not fallen (R57, R58). -/
def Mach.keepClamps (x m : Mach) : Mach := x.each 4 fun x b => x.modBank b fun y => { y with clamp := (m.bank b).clamp }

/-- R51: the straps as sampled, true for 3.3 V, and VAUX as measured. -/
def Mach.strapsIn (m : Mach) (v33H v33N : Bool) (vaux : Nat) : Mach :=
  ((m.wr F.KN_SUPPLY_VSEL_H (b2n v33H)).wr F.KN_SUPPLY_VSEL_N (b2n v33N)).wr F.KN_SUPPLY_VAUX_V vaux

/-- R50, R51, R289: power-on reset ends: the straps are sampled, the rails are up, and a start begins unless RESET_N is low; an enabled
trip input that is active sets the latch. Log entry 11 (DEDUCED). -/
def Mach.powerUp (m : Mach) (v33H v33N : Bool) (vaux : Nat) : Mach :=
  let m0 := if m.kn.phase == .off then m.powerOff else m.powerOff.keepClamps m
  let m1 := m0.modKn fun k => { k with vauxGood := true }
  let m2 := m1.strapsIn v33H v33N vaux
  let m3 := ((m2.setBit F.KN_SUPPLY_VIO_H_GOOD).setBit F.KN_SUPPLY_VIO_N_GOOD).setBit F.KN_SUPPLY_VIO_F_GOOD
  if m3.kn.rstLow then m3.modKn fun k => { k with phase := .resetLow } else (m3.startBegin 0).tripAct

/-- VAUX_GOOD (R50, R51). During a last gasp the return of VAUX has no effect but what the restart after it reads (R65).
Log entries 11 (DEDUCED), 12 (DEDUCED). -/
def Mach.vauxRise (m : Mach) (v33H v33N : Bool) (vaux vhold : Nat) : Mach :=
  if m.kn.vauxGood then m
  else
    let m1 := m.modKn fun k => { k with vhold := vhold }
    if m.kn.phase == .gasp then (m1.modKn fun k => { k with vauxGood := true }).strapsIn v33H v33N vaux
    else m1.powerUp v33H v33N vaux

/-- VAUX_LOST (R50, R65): a last gasp starts if armed; otherwise the module goes on from VHOLD until its supplies fall. -/
def Mach.vauxFall (m : Mach) (vaux vhold : Nat) : Mach :=
  let m1 := (m.modKn fun k => { k with vhold := vhold }).wr F.KN_SUPPLY_VAUX_V vaux
  if !m.kn.vauxGood then m
  else if m.kn.phase != .gasp && m.lgArmed then m1.gaspBegin vaux vhold
  else m1.modKn fun k => { k with vauxGood := false }

/-- R65: after the marker the module restarts from power-on reset if VAUX is good, and stays off otherwise, with FAULT_N low until
the internal supplies have fallen. Log entry 12 (DEDUCED). -/
def Mach.gaspEnd (m : Mach) : Mach :=
  match m.kn.gasp with
  | some g =>
    if m.kn.phase == .gasp && decide (17 ≤ g.done) then
      if m.kn.vauxGood then m.powerUp (m.rb F.KN_SUPPLY_VSEL_H) (m.rb F.KN_SUPPLY_VSEL_N) (m.rd F.KN_SUPPLY_VAUX_V)
      else (m.powerOff.modKn fun k => { k with phase := .spent }).keepClamps m
    else m
  | none => m

/-- R500: the internal supplies turn off; a program of a last gasp that runs is cut off. -/
def Mach.suppliesOff (m : Mach) : Mach :=
  if m.kn.vauxGood then m
  else (m.when (m.kn.phase == .gasp) Mach.gaspLost).powerOff

/-- R500: the always-on block loses its contents. -/
def Mach.alwaysOnLost (m : Mach) : Mach :=
  if m.kn.vauxGood then m
  else
    let m1 : Mach := { m with clk := { m.clk with hours := 0 } }
    (m1.setReg .KN_MEMO 0 0 0).modKn fun k => { k with memoDetail := 0, mirror := [] }

/-! ### RESET_N -/

/-- R64: a reset is taken. It has no effect once a last gasp has started, and a module that is off stays off.
Log entries 12 (DEDUCED), 15 (DEDUCED). -/
def Mach.resetLow (m : Mach) : Mach :=
  let m1 := m.modKn fun k => { k with rstLow := true }
  if m1.kn.phase == .gasp || m1.dead then m1
  else (m1.wipe.modKn fun k => { k with phase := .resetLow }).modNv fun x => { x with octal := false }

/-- R64, R72: RESET_N rises: a start begins, and the trip latch sets again if an enabled trip input is active.
Log entry 16 (DEDUCED). -/
def Mach.resetRise (m : Mach) (a b : Bool) : Mach :=
  let m1 := m.modKn fun k => { k with rstLow := false }
  if m1.kn.phase == .resetLow then (m1.startBegin (if m1.kn.begun then 1 else 0)).tripLevels a b else m1

/-! ### The commands -/

/-- VAUX_GOOD (R50, R51): the levels of the straps, of which low (tied to DGND) selects 3.3 V, and VAUX and VHOLD as measured. Log
entry 5 (DESIGN CHOICE). Log entry 5 (DESIGN CHOICE). -/
def execVauxGood (vselH vselN : Bool) (v : AuxVolts) (s : State) : Host.Outcome State Fault Refusal := s.run fun m =>
  m.hoursPass.vauxRise (!vselH) (!vselN) v.vaux.toNat v.vhold.toNat

/-- VAUX_LOST (R50, R65): VAUX and VHOLD as measured. -/
def execVauxLost (vaux vhold : BitVec 16) (s : State) : Host.Outcome State Fault Refusal := s.run fun m =>
  m.hoursPass.vauxFall vaux.toNat vhold.toNat

/-- LG_PROGRAM_DONE (R66). -/
def execLgProgramDone (s : State) : Host.Outcome State Fault Refusal := s.run fun m =>
  if m.kn.phase == .gasp then m.hoursPass.gaspProgram else m

/-- LAST_GASP_END (R65). -/
def execLastGaspEnd (s : State) : Host.Outcome State Fault Refusal := s.run fun m =>
  m.hoursPass.gaspEnd

/-- VHOLD_LOW (R500). -/
def execVholdLow (s : State) : Host.Outcome State Fault Refusal := s.run fun m =>
  m.alwaysOnLost

/-- VHOLD_CHARGED (R52): VHOLD has charged from VAUX to at least VAUX − 0.5 V; where between that and VAUX it stands is open.
Log entry 136 (DESIGN CHOICE). -/
def execVholdCharged (s : State) : Host.Outcome State Fault Refusal := s.run fun m =>
  m.modKn fun k => { k with vhold := m.rd F.KN_SUPPLY_VAUX_V - 1024 + m.free 9820 % 1025 }

/-- INTERNAL_SUPPLIES_OFF (R500). -/
def execInternalSuppliesOff (s : State) : Host.Outcome State Fault Refusal := s.run fun m =>
  m.hoursPass.suppliesOff

/-- VIO_OVERLOAD (R51). -/
def execVioOverload (rail : Fin 3) (s : State) : Host.Outcome State Fault Refusal := s.run fun m =>
  if m.dead then m else m.vioOverload rail.val

/-- VM_UV (R54, R62): in a last gasp the record takes the bank in. -/
def execVmUv (b : Fin 4) (vm : BitVec 16) (s : State) : Host.Outcome State Fault Refusal := s.run fun m =>
  if m.kn.phase == .gasp then m.gaspUv b.val else m.vmUv b.val vm.toNat

/-- VM_UV_RECOVER (R56). -/
def execVmUvRecover (b : Fin 4) (s : State) : Host.Outcome State Fault Refusal := s.run fun m =>
  m.vmRecovered b.val

/-- VM_RESUME_RAMP_END (R56). Log entry 6 (DESIGN CHOICE). -/
def execVmResumeRampEnd (b : Fin 4) (s : State) : Host.Outcome State Fault Refusal := s.run fun m =>
  m.vmRampEnd b.val

/-- VM_OV_CLAMP (R57). -/
def execVmOvClamp (b : Fin 4) (vm : BitVec 16) (s : State) : Host.Outcome State Fault Refusal := s.run fun m =>
  m.clampOn b.val vm.toNat

/-- VM_OV_RELEASE (R58): the duration in timestamp units. -/
def execVmOvRelease (b : Fin 4) (dur : BitVec 48) (s : State) : Host.Outcome State Fault Refusal := s.run fun m =>
  m.clampOff b.val dur.toNat

/-- VM_OV_TIMEOUT (R59). -/
def execVmOvTimeout (b : Fin 4) (vm : BitVec 16) (s : State) : Host.Outcome State Fault Refusal := s.run fun m =>
  m.clampTimeout b.val vm.toNat

/-- RESET (R64). -/
def execResetIn (s : State) : Host.Outcome State Fault Refusal := s.run fun m =>
  m.hoursPass.resetLow

/-- RESET_N_RISE (R64, R72): the levels of the trip inputs. -/
def execResetNRise (tripA tripB : Bool) (s : State) : Host.Outcome State Fault Refusal := s.run fun m =>
  m.hoursPass.resetRise tripA tripB

end Sys2Proof.Machine
end

