-- ==== Sys2Proof/Machine/KilnCmd.lean ====
section
/-!
DEFINITION. The events of the kiln sequence (R72 to R77, R88), and the tick boundary, at which its last step can complete (R19, R88).
-/

namespace Sys2Proof.Machine

/-- KILN_START (R72 to R77): the steps of the start in progress, up to step `w.upTo`, with what the hardware shows.
Log entry 5 (DESIGN CHOICE). -/
def execKilnStart (w : StartMeas) (s : State) : Host.Outcome State Fault Refusal := s.run fun m =>
  Mach.kilnGo w 16 (m.when (m.kn.phase == .start) Mach.hoursPass)

/-- KILN_STEP_TIMEOUT (R74): the step in progress fails with code TIMEOUT; the detail of the failure is open.
Log entries 6 (DESIGN CHOICE), 14 (DESIGN CHOICE). -/
def execKilnStepTimeout (s : State) : Host.Outcome State Fault Refusal := s.run fun m =>
  if m.kn.phase == .start && !m.testInstr && decide (m.kn.step ≤ 14) then
    m.hoursPass.kilnFail m.kn.step 1 (m.free 9710 % 2 ^ 16)
  else m

/-- KILN_RESTART (R74): RESTART_DLY has passed. Log entry 6 (DESIGN CHOICE). -/
def execKilnRestart (s : State) : Host.Outcome State Fault Refusal := s.run fun m =>
  if m.kn.phase == .waiting && !m.testInstr then m.hoursPass.wipeSoft.startBegin 2 else m

/-- TICK (R19): the levels of the terminals and how long they have held.
Log entries 5 (DESIGN CHOICE), 9 (DESIGN CHOICE), 27 (DEDUCED). -/
def execTick (lv : TickInputs) (s : State) : Host.Outcome State Fault Refusal := s.run fun m =>
  ((((m.takePorts lv).exSensed lv.sensed).xtalSeen lv.xtal).tickNow (m.filterLevels lv.now lv.held)).step16Check

/-- STEP16_COMPLETE (R88): it acts once step 16 is due to complete. -/
def execStep16Complete (s : State) : Host.Outcome State Fault Refusal := s.run fun m =>
  m.step16Check

end Sys2Proof.Machine
end

