-- ==== Sys2Proof/Machine/MemCmd.lean ====
section
/-!
DEFINITION. The events of the NVM, of patina and of the strata recorder.
-/

namespace Sys2Proof.Machine

/-- COMMIT_FLASH_OP_DONE (R120). -/
def execCommitFlashOpDone (readOk : Bool) (s : State) : Host.Outcome State Fault Refusal := s.run fun m =>
  m.commitOpDone readOk

/-- FLASH_TIMEOUT (R129): of the kiln log or the patina ring where `late` says so, else of the commit in progress, else of the host
operation; it says too whether the second erase of the target sector succeeds. Log entry 105 (DESIGN CHOICE). -/
def execFlashTimeout (late : FlashLate) (s : State) : Host.Outcome State Fault Refusal := s.run fun m =>
  if late.ring then m.ringTimeout else if m.nv.commit.isSome then m.commitTimeout late.again else m.accTimeout

/-- AUTO_CAL_WRITE (R125). -/
def execAutoCalWrite (s : State) : Host.Outcome State Fault Refusal := s.run fun m =>
  m.autoCal

/-- CAL_WRITE_DONE (R125). -/
def execCalWriteDone (readOk : Bool) (s : State) : Host.Outcome State Fault Refusal := s.run fun m =>
  m.calDone readOk

/-- NV_ACC_DONE (R126). -/
def execNvAccDone (s : State) : Host.Outcome State Fault Refusal := s.run fun m =>
  m.accDone

/-- LOG_SECTOR_ERASE (R92): after RUN, in the background. Log entry 36 (DEDUCED). -/
def execLogSectorErase (s : State) : Host.Outcome State Fault Refusal := s.run fun m =>
  if m.clk.running && !m.nv.lost then m.lgMakeRoom else m

/-- PATINA_PASS (R440): the hours counter reaches a multiple of the interval; `w` is what the window has measured. -/
def execPatinaPass (w : PatinaWin) (s : State) : Host.Outcome State Fault Refusal := s.run fun m =>
  if m.clk.running && m.patDue then m.patinaPass w else m

/-- PATINA_LOG_MINUTE (R439). -/
def execPatinaLogMinute (s : State) : Host.Outcome State Fault Refusal := s.run fun m =>
  if m.clk.running then m.patMinute else m

/-- PATINA_RECORD_WRITTEN (R443). -/
def execPatinaRecordWritten (ok : Bool) (s : State) : Host.Outcome State Fault Refusal := s.run fun m =>
  m.patWritten ok

/-- STRATA_TRIGGER (R452): the sources that have fired reach the recorder. -/
def execStrataTrigger (s : State) : Host.Outcome State Fault Refusal := s.run fun m =>
  m.stTrigger

/-- STRATA_FREEZE (R453): the last frame of the span has drained. Log entry 36 (DEDUCED). -/
def execStrataFreeze (s : State) : Host.Outcome State Fault Refusal := s.run fun m =>
  m.stDrained

end Sys2Proof.Machine
end

