-- ==== Sys2Proof/Machine/PortCmd.lean ====
section
/-!
DEFINITION. The events of the feedback and command input ports.
-/

namespace Sys2Proof.Machine

/-- QUAD_EDGE (R357): the filtered lines take the levels `a` and `b` at an FBS cycle in which Z has the level given. -/
def execQuadEdge (p : Fin 12) (a b : Bool) (e : QuadAt) (s : State) : Host.Outcome State Fault Refusal := s.run fun m =>
  m.quadEdge p.val a b e.z e.cyc

/-- HALL_CHANGE (R359). -/
def execHallChange (p : Fin 12) (code : BitVec 3) (cyc : Nat) (s : State) : Host.Outcome State Fault Refusal := s.run fun m =>
  m.hallChange p.val code.toNat cyc

/-- STEP_EDGE (R360). -/
def execStepEdge (p : Fin 12) (dir ena : Bool) (cyc : Nat) (s : State) : Host.Outcome State Fault Refusal := s.run fun m =>
  m.stepEdge p.val dir ena cyc

/-- INDEX_EDGE (R367). -/
def execIndexEdge (p : Fin 12) (s : State) : Host.Outcome State Fault Refusal := s.run fun m =>
  m.indexEdge p.val

/-- SPEED_TIMEOUT (R366). -/
def execSpeedTimeout (p : Fin 12) (s : State) : Host.Outcome State Fault Refusal := s.run fun m =>
  m.speedTimeout p.val

/-- SERIAL_READ (R370). -/
def execSerialRead (p : Fin 12) (s : State) : Host.Outcome State Fault Refusal := s.run fun m =>
  m.serialRead p.val

/-- SERIAL_WORD (R373): what the frame waited for, the data bits (in SSI with the trailing bits after them), status bits and CRC as received. -/
def execSerialWord (p : Fin 12) (waits : FrameWaits) (raw : BitVec 64) (eBit wBit : Bool) (crc : BitVec 6) (s : State) : Host.Outcome State Fault Refusal := s.run fun m =>
  m.serialWord p.val waits raw.toNat eBit wBit crc.toNat

end Sys2Proof.Machine
end

