-- ==== Sys2Proof/Machine/Operands.lean ====
section
/-!
DEFINITION. The operand forms of the queue commands: the command word from its fields (R169), the bits each opcode allows
(R171), the target of JUMP, CALL and LOOP (R172), the input selectors (R173).
-/

namespace Sys2Proof.Machine

/-- The command word of R169. -/
def cmdWord (opc : Nat) (c : CmdArgs) : Word :=
  BitVec.ofNat 128 (opc % 2 ^ 8 * 2 ^ 120 + c.flg.toNat * 2 ^ 112 + c.tag.toNat * 2 ^ 96 + c.p1.toNat * 2 ^ 64 + c.p0.toNat)

/-- What R171 allows an opcode: queue kinds, the flags REL, BLEND and PROFILE, the bits of P1 and P0 it names. -/
structure OpForm where
  axisQ : Bool
  groupQ : Bool
  rel : Bool
  blend : Bool
  prof : Bool
  p1 : Nat
  p0 : Nat
  deriving DecidableEq, Repr

/-- All 64 bits of P0, and its low 48, 32 and 16. -/
def p64 : Nat := 2 ^ 64 - 1
def p48 : Nat := 2 ^ 48 - 1
def p32 : Nat := 2 ^ 32 - 1
def p16 : Nat := 2 ^ 16 - 1

/-- The table of R171. -/
def opForm : Nat → Option OpForm
  | 0x01 => some ⟨true, false, true, true, true, 0, p64⟩
  | 0x02 => some ⟨true, false, false, true, true, 0, p64⟩
  | 0x03 => some ⟨true, false, false, false, true, 0, p64⟩
  | 0x04 => some ⟨true, true, false, false, true, 0, 0⟩
  | 0x05 => some ⟨true, false, false, false, false, 0x1FFFF, 0⟩
  | 0x06 => some ⟨true, false, false, false, true, 0, 0⟩
  | 0x07 => some ⟨true, false, true, false, false, 0, p64⟩
  | 0x08 => some ⟨true, true, false, false, false, 0, 0⟩
  | 0x09 => some ⟨true, true, false, false, false, 0, 0⟩
  | 0x10 => some ⟨false, true, true, true, true, 1, p32⟩
  | 0x11 => some ⟨true, true, false, false, true, 0xFFFF, p64⟩
  | 0x12 => some ⟨true, true, false, false, true, 0xFFFF3F, p64⟩
  | 0x13 => some ⟨true, true, false, false, false, 0xF, p32⟩
  | 0x20 => some ⟨true, true, false, false, false, 0x3FF, p32⟩
  | 0x21 => some ⟨true, true, true, false, false, 0, p48⟩
  | 0x22 => some ⟨true, true, false, false, false, 0x33F, 0xFFFFFFFF0000FFFF⟩
  | 0x23 => some ⟨true, true, true, false, false, 0xFFFFFFF7, p64⟩
  | 0x30 => some ⟨true, true, false, false, false, 0x3FFFFFF, p64⟩
  | 0x31 => some ⟨true, true, false, false, false, p32, p16⟩
  | 0x40 => some ⟨true, true, false, false, false, 0xFF07, 2 ^ 42 - 1⟩
  | 0x41 => some ⟨true, true, false, false, false, 0, 2 ^ 42 - 1⟩
  | 0x42 => some ⟨true, true, false, false, false, 0, 0⟩
  | 0x43 => some ⟨true, true, false, false, false, 0x3FFFFFF, 2 ^ 42 - 1⟩
  | 0x44 => some ⟨true, true, false, false, false, 0, p16⟩
  | 0x45 => some ⟨true, true, false, false, false, 0, 0⟩
  | 0x50 => some ⟨true, true, false, false, false, 0x1FF, p48⟩
  | 0x7F => some ⟨true, true, false, false, false, 0, 0⟩
  | _ => none

/-- Bits of `x` outside `mask`. -/
def strayBits (x mask : Nat) : Bool := decide (x ≠ x &&& mask)

/-- A field that R171 fixes further: a sign extension, a condition code, a field that must be zero in this form. -/
def formBad (q : Nat) (w : Word) : Bool :=
  let p1 := p1Of w
  let p0 := p0Of w
  match opcOf w with
  | 0x03 => decide (bitsOf p0 48 16 ≠ if bitOf p0 47 then 0xFFFF else 0)
  | 0x10 => bitOf p1 0 && decide (p0 ≠ 0)
  | 0x22 => decide (bitsOf p1 8 2 = 3)
  | 0x23 => decide (bitsOf p1 0 2 = 3) || (decide (q < 48) && decide (bitsOf p1 4 4 ≠ 0))
  | 0x40 => decide (5 ≤ bitsOf p1 0 3) || (bitOf p0 40 && bitOf p0 41)
  | 0x41 | 0x43 => bitOf p0 40 && bitOf p0 41
  | _ => false

/-- Check 1 of R175: the word is malformed on queue `q`. -/
def malformed (q : Nat) (w : Word) : Bool :=
  match opForm (opcOf w) with
  | none => true
  | some f =>
    !(if q < 48 then f.axisQ else f.groupQ) || (isRel w && !f.rel) || (isBlend w && !f.blend)
      || (decide (profOf w ≠ 0) && !f.prof) || strayBits (p1Of w) f.p1 || strayBits (p0Of w) f.p0 || formBad q w

/-- Whether an input selector names an input (R173). -/
def inputSel (x : Nat) : Bool := decide (x ≤ 0x6F ∨ x = 0x80 ∨ x = 0x81)

/-- The target of R172: the index, and how it is addressed. -/
structure Target172 where
  index : Nat
  rtn : Nat
  loc : Bool
  abs : Bool
  deriving DecidableEq, Repr

/-- The target in P0 (R172). -/
def targetOf172 (p0 : Nat) : Target172 :=
  { index := bitsOf p0 0 32, rtn := bitsOf p0 32 8, loc := bitOf p0 40, abs := bitOf p0 41 }

end Sys2Proof.Machine
end

