-- ==== Sys2Proof/Machine/QueueCmd.lean ====
section
/-!
DEFINITION. Dispatch (R175 to R192) and the queue commands. A row of a queue command stands for that command at the head of
its queue: unless it is the head already it is pushed and published there, and it is dispatched if it is the head and R182
lets it; an engine then takes an axis-class command.
-/

namespace Sys2Proof.Machine

/-! ### Targets of JUMP, CALL and LOOP -/

/-- The stretch of DRAM in which an ABS target may lie, by an offset in it (R172). -/
def Mach.absRegion (m : Mach) (off : Nat) : Option (Nat × Nat) :=
  if off < 0x04000000 then some (0, 0x04000000)
  else if 0x06000000 ≤ off ∧ off < m.sysSize then some (0x06000000, m.sysSize)
  else none

/-- Where a target lies (R172, R189): its offset, the base and the bound of the frame that runs there; none where it does
not exist. Log entry 32 (DEDUCED). -/
def Mach.resolve (m : Mach) (q : Nat) (t : Target172) : Option (Nat × Nat × Nat) :=
  let f := (m.qu q).frame
  if t.abs then
    match m.absRegion t.index with
    | some (_, hi) => if t.index % 16 = 0 ∧ t.index + 16 ≤ hi then some (t.index, t.index, hi) else none
    | none => none
  else if t.loc then
    if f.pc.isSome ∧ f.base + 16 * t.index + 16 ≤ f.bound then some (f.base + 16 * t.index, f.base, f.bound) else none
  else
    match m.routine t.rtn with
    | some s => if 16 * t.index + 16 ≤ s.len then some (s.off + 16 * t.index, s.off, s.off + s.len) else none
    | none => none

/-- The queue goes on at a target in its present frame. -/
def Mach.goTo (m : Mach) (q : Nat) (t : Nat × Nat × Nat) : Mach :=
  m.modQ q fun x =>
    match x.stack with
    | f :: rest => { x with stack := { f with pc := some t.1, base := t.2.1, bound := t.2.2 } :: rest, fetched := none }
    | [] => x

/-! ### Inputs and positions of waits -/

/-- The level of an input selector (R173), from the snapshot of the present tick. -/
def Mach.selLevel (m : Mach) (x : Nat) : Bool :=
  if x < 0x10 then m.giActiveIn m.snapIn x
  else if x = 0x80 then m.fm.line || m.faultLow
  else if x = 0x81 then m.rb F.PW_TRIP_STAT_LATCH
  else m.limActiveIn m.snapIn ((x - 0x10) / 2) (x % 2 == 1)

/-- The axis a WAIT_POS names (R171). -/
def Mach.waitAxis (m : Mach) (q : Nat) (w : Word) : Option Nat :=
  if q < 48 then some q else (m.membersOf (q - 48))[bitsOf (p1Of w) 4 4]?

/-- The position a WAIT_POS compares, as a plain signed Q40.24 number (R174). -/
def Mach.waitPosNow (m : Mach) (q : Nat) (w : Word) : Rat :=
  match m.waitAxis q w with
  | none => 0
  | some n =>
    if bitOf (p1Of w) 2 then (match m.verPort n with | some p => m.pFb n p | none => 0)
    else wrapPos (cmdPos (m.ax n).cur.p)

/-! ### Checks 2 and 3 of R175 -/

/-- A SET_PARAM's register: none for an address that names no register SET_PARAM may write, or a quarter it does not have.
Log entry 32 (DEDUCED). -/
def Mach.paramReg (_m : Mach) (w : Word) : Option RegKey :=
  let a := bitsOf (p1Of w) 0 24
  let qr := bitsOf (p1Of w) 24 2
  if a % 4 ≠ 0 ∨ (0x8000 ≤ a ∧ a < 0x9000) ∨ (0xC0000 ≤ a) then none
  else match regAt a with
    | some (k, 0) =>
      if k.r.desc.fields.all (fun f => f.acc == .ro) ∨ (!k.r.desc.wide ∧ qr ≠ 0) then none else some k
    | _ => none

/-- The word a SET_PARAM writes to a register (R171): the masked bits of the chosen quarter from its value, the others at their
present values; W1C bits only where the value has a one; unmasked WO bits zero. -/
def Mach.paramWord (m : Mach) (k : RegKey) (w : Word) : Nat :=
  let sh := 2 ^ (32 * bitsOf (p1Of w) 24 2)
  let mask := bitsOf (p0Of w) 32 32 * sh
  let val := bitsOf (p0Of w) 0 32 * sh
  let keep := without (m.peek k &&& k.r.desc.rwBits) mask
  keep + (val &&& mask)

/-- The DRAM vector of a GROUP_MOVE lies in a region allowed for ABS targets (R212). -/
def Mach.vectorOk (m : Mach) (off n : Nat) : Bool :=
  match m.absRegion off with
  | some (_, hi) => decide (off % 16 = 0 ∧ off + 8 * n ≤ hi)
  | none => false

/-- R231: whether a CAM's table is refused: its offset, its header, or a table that does not lie within the regions of R172. -/
def Mach.tableBad (m : Mach) (off : Nat) : Bool :=
  match m.absRegion off, m.camHeader off with
  | some (_, hi), some (k, _) => !decide (off % 16 = 0 ∧ off + 0x20 + 8 * k ≤ hi)
  | _, _ => true

/-- R212, R231: whether a head names a vector or a table header that the queue unit reads before it dispatches. -/
def Mach.readsDram (m : Mach) (q : Nat) (w : Word) : Bool :=
  match opcOf w with
  | 0x10 => !bitOf (p1Of w) 0 && m.vectorOk (bitsOf (p0Of w) 0 32) (if q < 48 then 1 else (m.membersOf (q - 48)).length)
  | 0x12 =>
    let off := m.rd F.GR_CAMTAB_OFFSET (bitsOf (p1Of w) 0 6)
    (match m.absRegion off with | some (_, hi) => decide (off % 16 = 0 ∧ off + 0x20 ≤ hi) | none => false)
  | _ => false

/-- Check 2 of R175. Log entry 25 (DEDUCED). -/
def Mach.rangeBad (m : Mach) (q : Nat) (w : Word) : Bool :=
  let p1 := p1Of w
  let p0 := p0Of w
  let axs := if q < 48 then [q] else m.membersOf (q - 48)
  let profBad := decide (7 < profOf w) || axs.any fun n => !m.profUsable n (profOf w)
  match opcOf w with
  | 0x01 | 0x02 | 0x03 | 0x04 => profBad
  | 0x05 => decide (0x4800 < bitsOf p1 0 16)
  | 0x06 =>
    let md := m.rd F.AX_HOME_CFG_METHOD q
    let p := m.rd F.AX_HOME_CFG_SRC_FB q
    profBad || md == 7 || (decide (3 ≤ md ∧ md ≤ 5) && (decide (12 ≤ p) || m.portMode p != 1))
      || (decide (1 ≤ md) && m.rd F.AX_HOME_VS_V q == 0) || (decide (1 ≤ md ∧ md ≤ 4) && m.rd F.AX_HOME_VF_V q == 0)
  | 0x10 => profBad || (!bitOf p1 0 && !m.vectorOk (bitsOf p0 0 32) (axs.length))
  | 0x11 => profBad || !selInRange (bitsOf p1 0 16) || axs.any fun n => m.chainBack n 49 (bitsOf p1 0 16)
  | 0x12 => profBad || !selInRange (bitsOf p1 8 16) || (axs.any fun n => m.chainBack n 49 (bitsOf p1 8 16)) || m.tableBad (m.rd F.GR_CAMTAB_OFFSET (bitsOf p1 0 6))
  | 0x20 => !inputSel (bitsOf p1 0 8)
  | 0x22 => bitsOf p1 0 6 == q
  | 0x23 =>
    (match m.waitAxis q w with
     | none => true
     | some n => bitOf p1 2 && (m.verPort n).isNone)
  | 0x30 => (m.paramReg w).isNone
  | 0x40 =>
    ((bitsOf p1 0 3 == 3 || bitsOf p1 0 3 == 4) && !inputSel (bitsOf p1 8 8)) || (m.resolve q (targetOf172 p0)).isNone
  | 0x41 => (m.resolve q (targetOf172 p0)).isNone || decide (8 ≤ (m.qu q).stack.length)
  | 0x43 => (m.resolve q (targetOf172 p0)).isNone
  | _ => false

/-- Check 3 of R175. -/
def Mach.lockBad (m : Mach) (w : Word) : Bool :=
  opcOf w == 0x30 &&
    (match m.paramReg w with
     | some k => m.lockRefuses m.lockBits k (k.r.desc.merge (m.peek k) (m.paramWord k w))
     | none => false)

/-- Checks 1 to 3 of R175: the status with which a head is rejected at dispatch. -/
def Mach.headCheck (m : Mach) (q : Nat) (w : Word) : Option Nat :=
  if malformed q w then some 0x80
  else if m.rangeBad q w then some 0x81
  else if m.lockBad w then some 0x83
  else none

/-! ### The conditions of R182 -/

/-- A command that a lookahead may wait behind, and that may be one (R182). -/
def lookOpc (opc : Nat) : Bool := opc == 0x01 || opc == 0x02 || opc == 0x10

/-- Whether an opcode is a wait. -/
def isWait (opc : Nat) : Bool := decide (0x20 ≤ opc ∧ opc ≤ 0x23)

/-- Whether an opcode is a motion command that REPLACE covers (R183). -/
def replaceOpc (opc : Nat) : Bool := decide (1 ≤ opc ∧ opc ≤ 3)

/-- How an axis-class head may go to its engine: as the command that runs next, or as a lookahead. -/
inductive Pass where
  | run | ahead | hold
  deriving DecidableEq, Repr

/-- Condition AXIS_ORDER (R182, R183). Log entry 31 (DEDUCED). -/
def Mach.axisPass (m : Mach) (q : Nat) (w : Word) : Pass :=
  let opc := opcOf w
  let before := (m.qu q).inflight.filter fun e => axisClass (opcOf e.w)
  let untaken := if q < 48 then !(m.ax q).toTake.isEmpty else
    (m.axes.toList.any fun a => a.toTake.any (·.q == q))
  let kept := if q < 48 then (m.ax q).kept.isSome else (m.membersOf (q - 48)).any fun n => (m.ax n).kept.isSome
  let depth := min 8 (m.rd F.Q_CFG_LOOKAHEAD q)
  if !axisClass opc then .run
  else if kept ∧ opc ≠ 0x09 then .hold
  else if opc = 0x04 ∨ opc = 0x09 ∨ before = [] then .run
  else if untaken then .hold
  else
    let ahead := (before.filter (m.isAhead q)).length
    let blends := match before.getLast? with | some e => isBlend e.w | none => false
    if m.rb F.Q_CFG_REPLACE q then
      if replaceOpc opc ∧ before.all (fun e => replaceOpc (opcOf e.w)) then
        if !blends then (if ahead = 0 then .run else .hold)
        else if lookOpc opc ∧ ahead = 0 then .ahead else .hold
      else .hold
    else if lookOpc opc ∧ before.all (fun e => lookOpc (opcOf e.w)) ∧ ahead < depth then .ahead
    else .hold

/-- The first condition of R182 that holds a head, as its WAIT_WHY code. Log entry 34 (DEDUCED). -/
def Mach.headHeld (m : Mach) (q : Nat) (w : Word) : Option Nat :=
  let x := m.qu q
  let opc := opcOf w
  let cond := bitsOf (p1Of w) 0 3
  if isBarrier w ∧ x.inflight ≠ [] then some 1
  else if m.axisPass q w = .hold then some 2
  else if x.inflight.any (fun e => isWait (opcOf e.w)) then some 3
  else if opc = 0x40 ∧ (cond = 1 ∨ cond = 2) ∧ x.inflight ≠ [] then some 7
  else if m.axisPass q w = .ahead ∧ 208 ≤ m.sharedUsed ∧ !m.rb F.Q_CFG_SLOT_REJECT q then some 4
  else if m.cplStall ∧ 960 ≤ m.cplUnread + m.cplReserved then some 5
  else if m.readsDram q w ∧ !x.vec then some 6
  else none

/-! ### Dispatch -/

/-- The head leaves the ring, or the routine goes on to its next word. -/
def Queue.pop (x : Queue) : Queue :=
  let y : Queue := { x with slotNoted := false, st := .run, why := 0, vec := false }
  match x.stack with
  | f :: rest =>
    match f.pc with
    | some a => { y with stack := { f with pc := some (a + 16) } :: rest, fetched := none }
    | none => { y with published := x.published.drop 1 }
  | [] => { y with published := x.published.drop 1 }

/-- The targets captured at dispatch (R212). Log entry 30 (DEDUCED). -/
def Mach.captured (m : Mach) (q : Nat) (w : Word) : List Int :=
  if opcOf w ≠ 0x10 then []
  else
    let g := q - 48
    let n := (m.membersOf g).length
    (List.range n).map fun i =>
      if bitOf (p1Of w) 0 then
        (if i % 2 = 0 then m.rdS F.GR_TGT_T0 g (i / 2) else m.rdS F.GR_TGT_T1 g (i / 2))
      else signedOf 64 (m.dramRead (bitsOf (p0Of w) 0 32 + 8 * i) 8)

/-- An axis-class head goes to its engine (R170, R181, R186, R197). Log entry 33 (DEDUCED). -/
def Mach.sendAxis (m : Mach) (q : Nat) (w : Word) (ps : Pass) : Mach :=
  let x := m.qu q
  let members := if q < 48 then [] else m.membersOf (q - 48)
  let look := decide (ps = .ahead)
  let holds := replaceOpc (opcOf w) || opcOf w == 0x06 || opcOf w == 0x10 || opcOf w == 0x11 || opcOf w == 0x12
  let slots := if !holds then 0 else if q < 48 then 1 else members.length
  let e : InFlight := { id := x.nextId, w := w, lookahead := look, slots := slots, parts := 1, worst := 0, reserved := m.cplStall, auto_ := x.auto_
                        wait := none, done := none }
  let c : MotionCmd := { q := q, id := some x.nextId, w := w, tgts := m.captured q w, axs := members }
  let m1 := m.modQ q fun x => { x with inflight := x.inflight ++ [e], nextId := x.nextId + 1 }
  if q < 48 then
    m1.modAx q fun a => if look then { a with ahead := a.ahead ++ [c] } else { a with toTake := a.toTake ++ [c] }
  else if look then m1.modArm (q - 48) fun a => { a with ahead := a.ahead ++ [c] }
  else match members with
    | n :: _ => m1.modAx n fun a => { a with toTake := a.toTake ++ [c] }
    | [] => m1.retire c 0x82 (m.clk.tick + 1)

/-- A queue-class command retires at its dispatch boundary. -/
def Mach.qDone (m : Mach) (q : Nat) (w : Word) (st : Nat) : Mach :=
  (m.homeNote q w st (m.qu q).auto_).postRetired q w st (tickStamp m.clk.tick)

/-- A wait begins (R171, R174, R184). -/
def Mach.waitBegin (m : Mach) (q : Nat) (w : Word) : Mach :=
  let x := m.qu q
  let t := m.clk.tick
  let p1 := p1Of w
  let p0 := p0Of w
  let after (n : Nat) : Option Nat := if n = 0 then none else some (t + n)
  let base : Wait := { from_ := t, dueTick := none, level0 := false, pos0 := 0, ref := 0, met := false }
  let wt : Wait :=
    match opcOf w with
    | 0x20 => { base with dueTick := after (bitsOf p0 0 32), level0 := m.selLevel (bitsOf p1 0 8) }
    | 0x21 =>
      let d : Int := if isRel w then (bitsOf p0 0 48 : Nat) else tsDiff (bitsOf p0 0 48) (tickStamp t)
      { base with dueTick := some (t + ceilDiv d.toNat 1000) }
    | 0x22 => { base with dueTick := after (bitsOf p0 32 32) }
    | _ =>
      let now := m.waitPosNow q w
      let own := match m.waitAxis q w with | some n => cmdPos (m.ax n).cur.p | none => 0
      let ref := if isRel w then wrapPos (own + posOf p0) else posOf p0
      { base with dueTick := after (bitsOf p1 8 24), pos0 := now, ref := ref }
  let e : InFlight := { id := x.nextId, w := w, lookahead := false, slots := 0, parts := 1, worst := 0, reserved := m.cplStall, auto_ := x.auto_
                        wait := some wt, done := none }
  m.modQ q fun x => { x with inflight := x.inflight ++ [e], nextId := x.nextId + 1 }

/-- R171: SET_OUTPUT. Log entry 28 (DESIGN CHOICE). -/
def Mach.setOutput (m : Mach) (w : Word) : Mach :=
  let len := p1Of w
  let lv := bitsOf (p0Of w) 0 8
  (List.range 8).foldl (fun m i =>
    if bitOf (p0Of w) (8 + i) then
      let old := bitOf m.go.toNat i
      { m with
        go := BitVec.ofNat 8 (putBits m.go.toNat i 1 (b2n (bitOf lv i)))
        goPulse := vmod m.goPulse i fun _ => if len = 0 then none else some (m.clk.tick + len, old) }
    else m) m

/-- R171: a pulse of SET_OUTPUT that has run its length returns its output to the previous level.
Log entry 28 (DESIGN CHOICE). -/
def Mach.pulseEnd (m : Mach) (outs : Nat) : Mach :=
  (List.range 8).foldl (fun m i =>
    match vget none m.goPulse i with
    | some (t, old) =>
      if bitOf outs i && decide (t ≤ m.clk.tick) then
        { m with go := BitVec.ofNat 8 (putBits m.go.toNat i 1 (b2n old)), goPulse := vmod m.goPulse i fun _ => none }
      else m
    | none => m) m

/-- R171, R174: SIGNAL shows its value, and the waits for it are met. Log entry 29 (DEDUCED). -/
def Mach.signal (m : Mach) (q v : Nat) : Mach :=
  let m1 := (((m.wr F.Q_SIGNAL_VALUE v q).wrap F.Q_SIGNAL_CNT q).setBit F.Q_IRQ_SIGNAL).post Ev.Q_SIGNAL q v
  m1.each 64 fun m k => m.modQ k fun x =>
    { x with inflight := x.inflight.map fun e =>
        match e.wait with
        | some wt =>
          if opcOf e.w = 0x22 ∧ bitsOf (p1Of e.w) 8 2 = 1 ∧ bitsOf (p1Of e.w) 0 6 = q ∧ bitsOf (p0Of e.w) 0 16 = v then
            { e with wait := some { wt with met := true } }
          else e
        | none => e }

/-- R174: whether a JUMP's condition holds. -/
def Mach.jumps (m : Mach) (q : Nat) (w : Word) : Bool :=
  match bitsOf (p1Of w) 0 3 with
  | 0 => true
  | 1 => (m.qu q).lastStatus == 0
  | 2 => (m.qu q).lastStatus != 0
  | 3 => m.selLevel (bitsOf (p1Of w) 8 8)
  | _ => !m.selLevel (bitsOf (p1Of w) 8 8)

/-- R190: LOOP in the present frame. -/
def Mach.loop (m : Mach) (q : Nat) (w : Word) (t : Nat × Nat × Nat) : Mach :=
  let f := (m.qu q).frame
  let c := bitsOf (p1Of w) 24 2
  let count := bitsOf (p1Of w) 0 24
  let ctr := match c with | 0 => f.c0 | 1 => f.c1 | 2 => f.c2 | _ => f.c3
  if count = 0 then m.goTo q t
  else
    let now := (if ctr = 0 then count else ctr) - 1
    let set (f : Frame) : Frame := match c with
      | 0 => { f with c0 := now } | 1 => { f with c1 := now } | 2 => { f with c2 := now } | _ => { f with c3 := now }
    let m1 := m.modQ q fun x => { x with stack := match x.stack with | f :: r => set f :: r | [] => [] }
    if 0 < now then m1.goTo q t else m1

/-- R189: CALL pushes a frame. -/
def Mach.call (m : Mach) (q : Nat) (t : Nat × Nat × Nat) : Mach :=
  m.modQ q fun x => { x with stack := Frame.at t.1 t.2.1 t.2.2 :: x.stack, fetched := none }

/-- R189: RETURN pops to the caller. -/
def Mach.ret (m : Mach) (q : Nat) : Mach :=
  if (m.qu q).stack.length ≤ 1 then m.rtnEnd q 1
  else m.modQ q fun x => { x with stack := x.stack.drop 1, fetched := none }

/-- A queue-class command executes at its dispatch boundary (R171, R174, R189). -/
def Mach.runQueue (m : Mach) (q : Nat) (w : Word) : Mach :=
  let ring := !(m.qu q).inRoutine
  let done (m : Mach) : Mach := m.qDone q w 0x00
  match opcOf w with
  | 0x20 | 0x21 | 0x22 | 0x23 => m.waitBegin q w
  | 0x30 =>
    (match m.paramReg w with
     | some k =>
       let v := m.paramWord k w
       let bits := m.lockBits
       let m1 := done m
       (if k.r = .GL_IDATA then m1.idataWrite bits v else (m1.ownerWrite k v false).levelsHold k (m.reg k.r k.i k.j)).writesDone bits
     | none => m.qDone q w 0x81)
  | 0x31 => done (m.setOutput w)
  | 0x40 =>
    if ring then m.qDone q w 0x82
    else
      let go := m.jumps q w
      match m.resolve q (targetOf172 (p0Of w)) with
      | some t => done (if go then m.goTo q t else m)
      | none => m.qDone q w 0x81
  | 0x41 =>
    (match m.resolve q (targetOf172 (p0Of w)) with
     | some t => done (m.call q t)
     | none => m.qDone q w 0x81)
  | 0x42 => if ring && decide ((m.qu q).stack.length ≤ 1) then m.qDone q w 0x82 else done (m.ret q)
  | 0x43 =>
    if ring then m.qDone q w 0x82
    else (match m.resolve q (targetOf172 (p0Of w)) with
      | some t => done (m.loop q w t)
      | none => m.qDone q w 0x81)
  | 0x44 => done (m.signal q (bitsOf (p0Of w) 0 16))
  | 0x45 => if ring && decide ((m.qu q).stack.length ≤ 1) then done m else done (m.rtnEnd q 0)
  | 0x50 =>
    let r := m.stMark q (bitsOf (p1Of w) 0 8) (bitsOf (p0Of w) 0 48) (tagOf w) (bitOf (p1Of w) 8)
    r.1.qDone q w (if r.2 then 0x00 else 0x02)
  | _ => done m

/-- The queue unit works: in RUN, outside a last gasp. A debug halt stops the engines only (R497). Log entry 96 (DEDUCED). -/
def Mach.unitRuns (m : Mach) : Bool := m.clk.running && !m.gasp

/-- The head `w` of queue `q` dispatches (R175, R181, R186). -/
def Mach.dispatchWord (m : Mach) (q : Nat) (w : Word) : Mach :=
  let ps := m.axisPass q w
  let check := m.headCheck q w
  let noSlot := decide (ps = .ahead) && decide (208 ≤ m.sharedUsed)
  let m0 := match check with
    | some 0x83 => m.setBit F.GL_STATUS_LOCK_VIOL
    | _ => m
  let m1 := m0.modQ q Queue.pop
  match check with
  | some st => (m1.qDone q w st).modQ q Queue.settle
  | none =>
    if noSlot then (m1.qDone q w 0x84).modQ q Queue.settle
    else if axisClass (opcOf w) then m1.sendAxis q w ps
    else (m1.runQueue q w).modQ q Queue.settle

/-- A word with an uncorrectable error retires as malformed, and the queue enters HALTED (R191). -/
def Mach.fetchBad (m : Mach) (q : Nat) (w : Word) : Mach :=
  let m1 := (m.modQ q fun x => { x.pop with st := .halted }).setBit F.Q_STATUS_FETCH_ERR q
  (m1.qDone q w 0x80).halt q 3

/-- The head of queue `q` dispatches if R182 lets it, else the queue waits and says why; `bad` says that its word carries an
uncorrectable error. Log entry 8 (DESIGN CHOICE). -/
def Mach.tryHead (m : Mach) (q : Nat) (w : Word) (bad : Bool) : Mach :=
  match m.headHeld q w with
  | none => if bad then m.fetchBad q w else m.dispatchWord q w
  | some why =>
    let m1 := m.modQ q fun x => { x with st := .wait, why := why }
    if why = 4 then
      let m2 := m1.setBit F.Q_STATUS_SLOT_STARVED q
      if (m2.qu q).slotNoted then m2
      else (m2.modQ q fun x => { x with slotNoted := true }).post Ev.Q_SLOT_WAIT q (tagOf w)
    else m1

/-- A routine that runs past the last word of its section acts as END (R189). Log entry 8 (DESIGN CHOICE). -/
def Mach.pastEnd (m : Mach) (q : Nat) : Mach :=
  let f := (m.qu q).frame
  match f.pc with
  | some a => if f.bound < a + 16 then (m.rtnEnd q 2).modQ q Queue.settle else m
  | none => m

/-- In RUN or WAIT a queue dispatches at most its head (R181, R182). -/
def Mach.strobeHead (m : Mach) (q : Nat) : Mach :=
  match (m.qu q).st with
  | .run | .wait =>
    (match (m.qu q).frame.pc, (m.qu q).fetched, m.headWord q with
     | some _, none, _ => m.modQ q fun x => { x with st := .wait, why := 6 }
     | some _, some (_, bad), some w => m.tryHead q w bad
     | _, _, some w => m.tryHead q w false
     | _, _, none => m.modQ q fun x => ({ x with st := .run, why := 0 } : Queue).settle)
  | _ => m

/-- One queue at the strobe. -/
def Mach.queueStrobe (m : Mach) (q : Nat) : Mach := (m.pastEnd q).strobeHead q

/-- R191, R212, R231: what the head waits for arrives in the fetch cache: its routine word, or else the vector or the table header that
it names. Log entry 30 (DEDUCED). -/
def Mach.routineFetch (m0 : Mach) (q : Nat) (bad : Bool) : Mach :=
  let m := m0.pastEnd q
  let vec := m.modQ q fun x => { x with vec := match m.headWord q with | some w => m.readsDram q w | none => false }
  match (m.qu q).frame.pc with
  | some a => if (m.qu q).fetched.isNone then m.modQ q fun x => { x with fetched := some (a, bad || m.badWord a) } else vec
  | none => vec

/-! ### Waits at the strobe -/

/-- Whether a wait's condition holds (R174). Log entry 29 (DEDUCED). -/
def Mach.waitHolds (m : Mach) (q : Nat) (w : Word) (wt : Wait) : Bool :=
  let p1 := p1Of w
  match opcOf w with
  | 0x20 =>
    let lv := m.selLevel (bitsOf p1 0 8)
    (match bitsOf p1 8 2 with
     | 0 => !lv
     | 1 => lv
     | 2 => lv && !wt.level0
     | _ => !lv && wt.level0)
  | 0x21 => (match wt.dueTick with | some t => decide (t ≤ m.clk.tick) | none => false)
  | 0x22 =>
    let k := bitsOf p1 0 6
    (match bitsOf p1 8 2 with
     | 0 => (m.qu k).st == .idle || (m.qu k).st == .halted
     | 1 => wt.met
     | _ => m.rd F.Q_SIGNAL_VALUE k == bitsOf (p0Of w) 0 16)
  | _ =>
    let x := m.waitPosNow q w
    (match bitsOf p1 0 2 with
     | 0 => decide (wt.ref ≤ x)
     | 1 => decide (x ≤ wt.ref)
     | _ => decide (x = wt.ref) || decide ((x - wt.ref) * (wt.pos0 - wt.ref) ≤ 0))

/-- Whether a wait's timeout has run out; a WAIT_TIME has none. -/
def Mach.waitExpired (m : Mach) (w : Word) (wt : Wait) : Bool :=
  opcOf w != 0x21 && (match wt.dueTick with | some t => decide (t ≤ m.clk.tick) | none => false)

/-- The waits of a queue at a strobe: the condition, then the timeout (R181, R184). Log entry 29 (DEDUCED). -/
def Mach.waitStep (m : Mach) (q : Nat) (timeoutOnly : Bool) : Mach :=
  m.modQ q fun x =>
    { x with inflight := x.inflight.map fun e =>
        match e.wait, e.done with
        | some wt, none =>
          if !timeoutOnly && m.waitHolds q e.w wt then { e with done := some (0x00, m.clk.tick) }
          else if m.waitExpired e.w wt then { e with done := some (0x02, m.clk.tick) }
          else if !timeoutOnly && opcOf e.w == 0x20 then
            { e with wait := some { wt with level0 := m.selLevel (bitsOf (p1Of e.w) 0 8) } }
          else e
        | _, _ => e }

/-- R181: the queue unit at the ENG tick strobe; step 16 completes when the last autostart routine has ended or halted (R88). -/
def Mach.queueDispatch (m : Mach) : Mach :=
  if !m.unitRuns then m
  else
    let m1 := m.abortsDue.each 4 Mach.vmasterStep
    let m2 := (m1.each 64 fun m q => m.waitStep q false).each 64 fun m q => m.retireDue q
    (m2.each 64 Mach.queueStrobe).step16Check

/-! ### The rows of the queue commands -/

/-- The axes whose engines take what queue `q` dispatched. -/
def Mach.takers (m : Mach) (q : Nat) : List Nat :=
  if q < 48 then [q] else (m.membersOf (q - 48)).take 1

/-- A command at the head of its queue. Log entry 8 (DESIGN CHOICE). -/
def Mach.command (m0 : Mach) (q opc : Nat) (c : CmdArgs) : Mach :=
  let m := m0.abortsDue
  let w := cmdWord opc c
  let m1 := if m.headWord q = some w then m else (m.push q w).publish q
  let m2 := m1.pastEnd q
  if m1.unitRuns && (m2.headWord q == some w) && ((m2.qu q).st == .run || (m2.qu q).st == .wait) then
    let m3 := m2.strobeHead q
    (if m3.dbgHalt then m3 else m3.forAll (m3.takers q) Mach.takeAll).step16Check
  else m1

/-- MOVE_ABS (R171). -/
def execMoveAbs (q : Fin 64) (c : CmdArgs) (s : State) : Host.Outcome State Fault Refusal := s.run fun m => m.command q.val 0x01 c

/-- MOVE_REL (R146). -/
def execMoveRel (q : Fin 64) (c : CmdArgs) (s : State) : Host.Outcome State Fault Refusal := s.run fun m => m.command q.val 0x02 c

/-- VEL (R145). -/
def execVelCmd (q : Fin 64) (c : CmdArgs) (s : State) : Host.Outcome State Fault Refusal := s.run fun m => m.command q.val 0x03 c

/-- STOP (R150). -/
def execStopCmd (q : Fin 64) (c : CmdArgs) (s : State) : Host.Outcome State Fault Refusal := s.run fun m => m.command q.val 0x04 c

/-- HOLD (R171). -/
def execHoldCmd (q : Fin 64) (c : CmdArgs) (s : State) : Host.Outcome State Fault Refusal := s.run fun m => m.command q.val 0x05 c

/-- HOME (R157). -/
def execHomeCmd (q : Fin 64) (c : CmdArgs) (s : State) : Host.Outcome State Fault Refusal := s.run fun m => m.command q.val 0x06 c

/-- SET_POS (R160). -/
def execSetPos (q : Fin 64) (c : CmdArgs) (s : State) : Host.Outcome State Fault Refusal := s.run fun m => m.command q.val 0x07 c

/-- ENABLE (R135). -/
def execEnableCmd (q : Fin 64) (c : CmdArgs) (s : State) : Host.Outcome State Fault Refusal := s.run fun m => m.command q.val 0x08 c

/-- DISABLE (R135). -/
def execDisableCmd (q : Fin 64) (c : CmdArgs) (s : State) : Host.Outcome State Fault Refusal := s.run fun m => m.command q.val 0x09 c

/-- GROUP_MOVE (R212). -/
def execGroupMove (q : Fin 64) (c : CmdArgs) (s : State) : Host.Outcome State Fault Refusal := s.run fun m => m.command q.val 0x10 c

/-- GEAR (R227). -/
def execGearCmd (q : Fin 64) (c : CmdArgs) (s : State) : Host.Outcome State Fault Refusal := s.run fun m => m.command q.val 0x11 c

/-- CAM (R232). -/
def execCamCmd (q : Fin 64) (c : CmdArgs) (s : State) : Host.Outcome State Fault Refusal := s.run fun m => m.command q.val 0x12 c

/-- TENSION_TRIM (R236). -/
def execTensionTrim (q : Fin 64) (c : CmdArgs) (s : State) : Host.Outcome State Fault Refusal := s.run fun m => m.command q.val 0x13 c

/-- WAIT_INPUT (R174). -/
def execWaitInput (q : Fin 64) (c : CmdArgs) (s : State) : Host.Outcome State Fault Refusal := s.run fun m => m.command q.val 0x20 c

/-- WAIT_TIME (R171). -/
def execWaitTime (q : Fin 64) (c : CmdArgs) (s : State) : Host.Outcome State Fault Refusal := s.run fun m => m.command q.val 0x21 c

/-- WAIT_QUEUE (R174). -/
def execWaitQueue (q : Fin 64) (c : CmdArgs) (s : State) : Host.Outcome State Fault Refusal := s.run fun m => m.command q.val 0x22 c

/-- WAIT_POS (R174). -/
def execWaitPos (q : Fin 64) (c : CmdArgs) (s : State) : Host.Outcome State Fault Refusal := s.run fun m => m.command q.val 0x23 c

/-- SET_PARAM (R171). -/
def execSetParam (q : Fin 64) (c : CmdArgs) (s : State) : Host.Outcome State Fault Refusal := s.run fun m => m.command q.val 0x30 c

/-- SET_OUTPUT (R171). -/
def execSetOutput (q : Fin 64) (c : CmdArgs) (s : State) : Host.Outcome State Fault Refusal := s.run fun m => m.command q.val 0x31 c

/-- JUMP (R174). -/
def execJumpCmd (q : Fin 64) (c : CmdArgs) (s : State) : Host.Outcome State Fault Refusal := s.run fun m => m.command q.val 0x40 c

/-- CALL (R189). -/
def execCallCmd (q : Fin 64) (c : CmdArgs) (s : State) : Host.Outcome State Fault Refusal := s.run fun m => m.command q.val 0x41 c

/-- RETURN (R189). -/
def execReturnCmd (q : Fin 64) (c : CmdArgs) (s : State) : Host.Outcome State Fault Refusal := s.run fun m => m.command q.val 0x42 c

/-- LOOP (R190). -/
def execLoopCmd (q : Fin 64) (c : CmdArgs) (s : State) : Host.Outcome State Fault Refusal := s.run fun m => m.command q.val 0x43 c

/-- SIGNAL (R171). -/
def execSignalCmd (q : Fin 64) (c : CmdArgs) (s : State) : Host.Outcome State Fault Refusal := s.run fun m => m.command q.val 0x44 c

/-- END (R189). -/
def execEndCmd (q : Fin 64) (c : CmdArgs) (s : State) : Host.Outcome State Fault Refusal := s.run fun m => m.command q.val 0x45 c

/-- STRATA_MARK (R450). -/
def execStrataMark (q : Fin 64) (c : CmdArgs) (s : State) : Host.Outcome State Fault Refusal := s.run fun m => m.command q.val 0x50 c

/-- NOP (R171). -/
def execNopCmd (q : Fin 64) (c : CmdArgs) (s : State) : Host.Outcome State Fault Refusal := s.run fun m => m.command q.val 0x7F c

/-- R181: QUEUE_DISPATCH. Log entry 9 (DESIGN CHOICE). -/
def execQueueDispatch (s : State) : Host.Outcome State Fault Refusal := s.run Mach.queueDispatch

/-- R184: WAIT_TIMEOUT: a wait whose timeout has run out retires with 0x02. -/
def execWaitTimeout (q : Fin 64) (s : State) : Host.Outcome State Fault Refusal := s.run fun m => (m.abortsDue.waitStep q.val true).retireDue q.val

/-- R171: OUTPUT_PULSE_END. -/
def execOutputPulseEnd (outs : BitVec 8) (s : State) : Host.Outcome State Fault Refusal := s.run fun m => m.pulseEnd outs.toNat

/-- R191: ROUTINE_FETCH. -/
def execRoutineFetch (q : Fin 64) (eccError : Bool) (s : State) : Host.Outcome State Fault Refusal := s.run fun m => m.abortsDue.routineFetch q.val eccError

end Sys2Proof.Machine
end

