-- ==== Sys2Proof/Machine/Pins.lean ====
section
/-!
DEFINITION. The functional signal terminals (R44, R45): their kinds, what the module drives on them in each rest condition (R63, R65)
and the cells of the boundary-scan chain (R68).
-/

namespace Sys2Proof.Machine

/-- The functional signal terminals, in the reading order of the grid (R44). -/
inductive Terminal where
  | resetN | sync | hclk
  | hselN (i : Nat)
  | hio (i : Nat)
  | nclk | ncsN | ndqs | nresetN
  | nio (i : Nat)
  | gi (i : Nat)
  | go (i : Nat)
  | rep (i : Nat)
  | tripN (i : Nat)
  | faultN | irqN
  | fb (p j : Nat)
  | lim (k : Nat)
  deriving DecidableEq, Repr

/-- The 201 terminals of the chain, the lowest grid position first (R44, R68). -/
def terminals : List Terminal :=
  [.resetN, .sync, .hclk, .hselN 0, .hselN 1] ++ (List.range 8).map .hio ++ [.nclk, .ncsN, .ndqs, .nresetN]
    ++ (List.range 8).map .nio ++ (List.range 16).map .gi ++ (List.range 8).map .go ++ (List.range 4).map .rep
    ++ [.tripN 0, .tripN 1, .faultN, .irqN] ++ ((List.range 48).map fun k => .fb (k / 4) (k % 4)) ++ (List.range 96).map .lim

/-- Whether a terminal has an input cell, and whether it has an output and an enable cell (R68). -/
def Terminal.cells : Terminal → Bool × Bool
  | .sync | .hio _ | .nio _ | .fb .. | .faultN => (true, true)
  | .nclk | .ncsN | .nresetN | .go _ | .rep _ | .irqN => (false, true)
  | _ => (true, false)

/-- The open-drain terminals (R45). -/
def Terminal.openDrain : Terminal → Bool
  | .sync | .faultN | .irqN => true
  | _ => false

/-- R63, R65, R68: the level that the module's functions drive on a terminal; none where they drive it not. After a test instruction
the functions stay as in RESET_N low, with NRESET_N high, until RESET_N or power-up. The host port and the flash are
between frames and transfers; an enabled report output is at a level that depends on the instant in its period.
Log entries 118 (DEDUCED), 137 (DEDUCED). -/
def Mach.functional (m : Mach) (t : Terminal) : Option Bool :=
  let low (b : Bool) : Option Bool := if b then some false else none
  let dark : Bool := m.kn.phase == .off || m.kn.phase == .spent
  let run : Bool := m.kn.phase == .run && !m.testInstr
  match t with
  | .nclk => if dark then none else some false
  | .ncsN => if dark then none else some true
  | .nresetN => if dark then none else some (m.kn.phase != .resetLow)
  | .go i => if run then some (bitOf m.go.toNat i) else none
  | .rep i => if run then some (m.repOn i && Config.freeBit m.clk.draws (9730 + i)) else none
  | .faultN => low (m.faultLow && !m.testInstr)
  | .irqN => low (m.irqLow && !m.testInstr)
  | .sync => low (run && m.sync.driving)
  | .fb p j =>
    let ports : Bool := run || (m.kn.phase == .start && !m.testInstr && decide (13 ≤ m.kn.step))
    if ports && j == 0 && (m.portMode p == 3 || m.portMode p == 4) && !m.rb F.FB_STAT_FAILED p then some true else none
  | _ => none

/-- The number of cells of a terminal. -/
def Terminal.width (t : Terminal) : Nat := b2n t.cells.1 + 2 * b2n t.cells.2

/-- The number of cells between TDI and the first cell of terminal `i`. -/
def firstCell (i : Nat) : Nat := ((terminals.take i).map Terminal.width).sum

/-- A cell of the chain, by its number from TDI on: the data register's last bit is next to TDI. -/
def cellOfChain (x : BitVec 349) (j : Nat) : Bool := bitOf x.toNat (348 - j)

/-- R68: what the cells drive on a terminal under EXTEST or CLAMP; an open-drain terminal only low. -/
def Tap.driven (x : Tap) (i : Nat) (t : Terminal) : Option Bool :=
  if !t.cells.2 then none
  else
    let j := firstCell i + b2n t.cells.1
    let out := cellOfChain x.cells j
    if !cellOfChain x.cells (j + 1) then none
    else if t.openDrain then (if out then none else some false)
    else some out

/-- The level that the module drives on terminal `i` of the chain: that of the cells under EXTEST and CLAMP, none under HIGHZ (R68).
Log entry 118 (DEDUCED). -/
def Mach.driven (m : Mach) (i : Nat) (t : Terminal) : Option Bool :=
  if m.tap.ir = 0 ∨ m.tap.ir = 3 then m.tap.driven i t
  else if m.tap.ir = 4 then none
  else m.functional t

/-- What the cells of terminal `i` capture, from TDI on: the level at the terminal, which is `outside` unless the module drives it, the
level its function drives, and whether it drives. -/
def Mach.captures (m : Mach) (outside : Nat) (i : Nat) (t : Terminal) : List Bool :=
  let inp := if t.cells.1 then [(m.driven i t).getD (bitOf outside i)] else []
  let out := if t.cells.2 then [(m.functional t).getD false, (m.functional t).isSome] else []
  inp ++ out

/-- What the whole chain captures, where the levels of the terminals are `outside` (bit i: terminal i of the chain). -/
def Mach.chainCapture (m : Mach) (outside : Nat) : Nat :=
  let bits := ((List.range 201).map fun i => match terminals[i]? with | some t => m.captures outside i t | none => []).flatten
  bits.foldl (fun x b => 2 * x + b2n b) 0

end Sys2Proof.Machine
end

