-- ==== Sys2Proof/Machine/Scan.lean ====
section
/-!
DEFINITION. Boundary scan (R68): the IEEE 1149.1 TAP, its instructions and its registers.
-/

namespace Sys2Proof.Machine

/-- The next controller state for a level of TMS (IEEE 1149.1). Log entry 17 (PRESUMED). -/
def TapState.next : TapState → Bool → TapState
  | .testLogicReset, tms => if tms then .testLogicReset else .runTestIdle
  | .runTestIdle, tms => if tms then .selectDr else .runTestIdle
  | .selectDr, tms => if tms then .selectIr else .captureDr
  | .captureDr, tms => if tms then .exit1Dr else .shiftDr
  | .shiftDr, tms => if tms then .exit1Dr else .shiftDr
  | .exit1Dr, tms => if tms then .updateDr else .pauseDr
  | .pauseDr, tms => if tms then .exit2Dr else .pauseDr
  | .exit2Dr, tms => if tms then .updateDr else .shiftDr
  | .updateDr, tms => if tms then .selectDr else .runTestIdle
  | .selectIr, tms => if tms then .testLogicReset else .captureIr
  | .captureIr, tms => if tms then .exit1Ir else .shiftIr
  | .shiftIr, tms => if tms then .exit1Ir else .shiftIr
  | .exit1Ir, tms => if tms then .updateIr else .pauseIr
  | .pauseIr, tms => if tms then .exit2Ir else .pauseIr
  | .exit2Ir, tms => if tms then .updateIr else .shiftIr
  | .updateIr, tms => if tms then .selectDr else .runTestIdle

/-- The IDCODE of the module (R68). -/
def tapIdcode : Nat := 0x24860001

/-- The data register an instruction selects, as its length: boundary chain, IDCODE, bypass. -/
def tapLength (ir : Nat) : Nat := if ir ≤ 1 then 349 else if ir = 2 then 32 else 1

/-- A shift register of `n` bits takes TDI at its far end; bit 0 leaves at TDO. -/
def shiftIn (n x : Nat) (tdi : Bool) : Nat := x % 2 ^ n / 2 + (if tdi then 2 ^ (n - 1) else 0)

/-- What the present state does at the rising edge of TCK: capture and shift. `cells` is what the boundary cells capture;
`up` the two upper bits that Capture-IR loads, which the standard leaves to the design. Log entry 17 (PRESUMED). -/
def Tap.act (t : Tap) (tdi : Bool) (cells up : Nat) : Tap :=
  match t.st with
  | .captureDr => { t with dr := if t.ir ≤ 1 then cells else if t.ir = 2 then tapIdcode else 0 }
  | .shiftDr => { t with dr := shiftIn (tapLength t.ir) t.dr tdi }
  | .captureIr => { t with irShift := up % 4 * 4 + 1 }
  | .shiftIr => { t with irShift := shiftIn 4 t.irShift tdi }
  | _ => t

/-- What the state that has been entered does at the falling edge: update, the reset's IDCODE, and TDO. -/
def Tap.settle (t : Tap) : Tap :=
  match t.st with
  | .testLogicReset => { t with ir := 2 }
  | .updateDr => if t.ir ≤ 1 then { t with cells := BitVec.ofNat 349 t.dr } else t
  | .updateIr => { t with ir := t.irShift % 16 }
  | .shiftDr => { t with tdo := bitOf t.dr 0 }
  | .shiftIr => { t with tdo := bitOf t.irShift 0 }
  | _ => t

/-- One clock of the TAP; TRST_N low resets it. Log entry 17 (PRESUMED). -/
def Tap.clock (t : Tap) (trst tms tdi : Bool) (cells up : Nat) : Tap :=
  if trst then { t with st := .testLogicReset, ir := 2 }
  else
    let u := t.act tdi cells up
    Tap.settle { u with st := u.st.next tms }

/-- R63, R68: the TAP operates while VAUX is good, a last gasp excepted. Log entry 18 (DEDUCED). -/
def Mach.tapLive (m : Mach) : Bool := m.kn.vauxGood && m.kn.phase != .gasp && m.kn.phase != .off

/-- The functions of the module stop: no ticks, no host port, no recorder. Log entry 137 (DEDUCED). -/
def Mach.functionsStop (m : Mach) : Mach :=
  { m with clk := { m.clk with running := false }, st := { m.st with on := false }, hp := { m.hp with gen := 0, want := none } }

/-- R68, R134: a test instruction takes effect: every bridge coasts at once, every axis takes fault cause 0x08, and the functions of the
module stop until RESET_N or power-up: no ticks, no host port, no recorder, no start.
Log entries 18 (DEDUCED), 137 (DEDUCED). -/
def Mach.tapTest (m : Mach) : Mach :=
  ((({ m with testInstr := true } : Mach).each 48 fun m n => m.fault n 8).each 4 Mach.cutBank).functionsStop

/-- EXTEST, CLAMP and HIGHZ. -/
def tapTestCodes : List Nat := [0, 3, 4]

/-- TAP_TEST_INSTRUCTION (R68): EXTEST, CLAMP or HIGHZ comes into force. -/
def execTapTestInstruction (code : Fin 3) (s : State) : Host.Outcome State Fault Refusal := s.run fun m =>
  if m.tapLive then
    ({ m with tap := { m.tap with ir := tapTestCodes.getD code.val 0 } } : Mach).tapTest
  else m

/-- TCK_EDGE (R68): one clock of the TAP, with the levels from outside on the 201 terminals, in the order of the chain. -/
def execTckEdge (trst tms tdi : Bool) (pins : BitVec 201) (s : State) : Host.Outcome State Fault Refusal := s.run fun m =>
  if m.tapLive then
    let t := m.tap.clock trst tms tdi (m.chainCapture pins.toNat) (m.free 9720)
    let m1 : Mach := { m with tap := t }
    m1.when (!trst && t.st == .updateIr && tapTestCodes.contains t.ir) Mach.tapTest
  else m

end Sys2Proof.Machine
end

