-- ==== Sys2Proof/Machine/Dispatch.lean ====
section
/-!
DEFINITION. The one dispatch of a command to its meaning: one arm per constructor of Instr.
-/

namespace Sys2Proof.Machine

def exec (i : Instr) (s : State) : Host.Outcome State Fault Refusal :=
  match i with
  | .vauxGood vselH vselN v => Sys2Proof.Machine.execVauxGood vselH vselN v s
  | .vauxLost vaux vhold => Sys2Proof.Machine.execVauxLost vaux vhold s
  | .lgProgramDone => Sys2Proof.Machine.execLgProgramDone s
  | .lastGaspEnd => Sys2Proof.Machine.execLastGaspEnd s
  | .vholdLow => Sys2Proof.Machine.execVholdLow s
  | .vioOverload rail => Sys2Proof.Machine.execVioOverload rail s
  | .vmUv b vm => Sys2Proof.Machine.execVmUv b vm s
  | .vmUvRecover b => Sys2Proof.Machine.execVmUvRecover b s
  | .resumeBank b => Sys2Proof.Machine.execResumeBank b s
  | .vmResumeRampEnd b => Sys2Proof.Machine.execVmResumeRampEnd b s
  | .vmOvClamp b vm => Sys2Proof.Machine.execVmOvClamp b vm s
  | .vmOvRelease b dur => Sys2Proof.Machine.execVmOvRelease b dur s
  | .vmOvTimeout b vm => Sys2Proof.Machine.execVmOvTimeout b vm s
  | .resetIn => Sys2Proof.Machine.execResetIn s
  | .resetNRise tripA tripB => Sys2Proof.Machine.execResetNRise tripA tripB s
  | .tapTestInstruction code => Sys2Proof.Machine.execTapTestInstruction code s
  | .kilnStart w => Sys2Proof.Machine.execKilnStart w s
  | .kilnStepTimeout => Sys2Proof.Machine.execKilnStepTimeout s
  | .kilnRestart => Sys2Proof.Machine.execKilnRestart s
  | .step16Complete => Sys2Proof.Machine.execStep16Complete s
  | .restartCmd clrCnt => Sys2Proof.Machine.execRestartCmd clrCnt s
  | .dramFast => Sys2Proof.Machine.execDramFast s
  | .homeReset => Sys2Proof.Machine.execHomeReset s
  | .logSectorErase => Sys2Proof.Machine.execLogSectorErase s
  | .commitImage => Sys2Proof.Machine.execCommitImage s
  | .commitOverlay => Sys2Proof.Machine.execCommitOverlay s
  | .commitCal => Sys2Proof.Machine.execCommitCal s
  | .commitKind3 => Sys2Proof.Machine.execCommitKind3 s
  | .tieAck => Sys2Proof.Machine.execTieAck s
  | .commitFlashOpDone readOk => Sys2Proof.Machine.execCommitFlashOpDone readOk s
  | .flashTimeout late => Sys2Proof.Machine.execFlashTimeout late s
  | .autoCalWrite => Sys2Proof.Machine.execAutoCalWrite s
  | .calWriteDone readOk => Sys2Proof.Machine.execCalWriteDone readOk s
  | .nvAccRead => Sys2Proof.Machine.execNvAccRead s
  | .nvAccProgram => Sys2Proof.Machine.execNvAccProgram s
  | .nvAccErase4k => Sys2Proof.Machine.execNvAccErase4k s
  | .nvAccErase64k => Sys2Proof.Machine.execNvAccErase64k s
  | .nvAccDone => Sys2Proof.Machine.execNvAccDone s
  | .keyProgram slot guard => Sys2Proof.Machine.execKeyProgram slot guard s
  | .keyRevoke slot guard => Sys2Proof.Machine.execKeyRevoke slot guard s
  | .keyRequireSig guard => Sys2Proof.Machine.execKeyRequireSig guard s
  | .tick lv => Sys2Proof.Machine.execTick lv s
  | .axisSlot n camMissing => Sys2Proof.Machine.execAxisSlot n camMissing s
  | .armingComplete n found => Sys2Proof.Machine.execArmingComplete n found s
  | .standstillRamp n => Sys2Proof.Machine.execStandstillRamp n s
  | .axCtrlEnable n => Sys2Proof.Machine.execAxCtrlEnable n s
  | .axCtrlDisable n => Sys2Proof.Machine.execAxCtrlDisable n s
  | .axCtrlEstop n => Sys2Proof.Machine.execAxCtrlEstop n s
  | .axCtrlMaqEnter n => Sys2Proof.Machine.execAxCtrlMaqEnter n s
  | .axCtrlMaqExit n => Sys2Proof.Machine.execAxCtrlMaqExit n s
  | .axRetgt n w => Sys2Proof.Machine.execAxRetgt n w s
  | .axSlim n enable w => Sys2Proof.Machine.execAxSlim n enable w s
  | .limitActive n sideB => Sys2Proof.Machine.execLimitActive n sideB s
  | .limLatchClear n a b => Sys2Proof.Machine.execLimLatchClear n a b s
  | .homeReference n ts => Sys2Proof.Machine.execHomeReference n ts s
  | .queueDispatch => Sys2Proof.Machine.execQueueDispatch s
  | .moveAbs q c => Sys2Proof.Machine.execMoveAbs q c s
  | .moveRel q c => Sys2Proof.Machine.execMoveRel q c s
  | .velCmd q c => Sys2Proof.Machine.execVelCmd q c s
  | .stopCmd q c => Sys2Proof.Machine.execStopCmd q c s
  | .holdCmd q c => Sys2Proof.Machine.execHoldCmd q c s
  | .homeCmd q c => Sys2Proof.Machine.execHomeCmd q c s
  | .setPos q c => Sys2Proof.Machine.execSetPos q c s
  | .enableCmd q c => Sys2Proof.Machine.execEnableCmd q c s
  | .disableCmd q c => Sys2Proof.Machine.execDisableCmd q c s
  | .groupMove q c => Sys2Proof.Machine.execGroupMove q c s
  | .gearCmd q c => Sys2Proof.Machine.execGearCmd q c s
  | .camCmd q c => Sys2Proof.Machine.execCamCmd q c s
  | .tensionTrim q c => Sys2Proof.Machine.execTensionTrim q c s
  | .waitInput q c => Sys2Proof.Machine.execWaitInput q c s
  | .waitTime q c => Sys2Proof.Machine.execWaitTime q c s
  | .waitQueue q c => Sys2Proof.Machine.execWaitQueue q c s
  | .waitPos q c => Sys2Proof.Machine.execWaitPos q c s
  | .waitTimeout q => Sys2Proof.Machine.execWaitTimeout q s
  | .setParam q c => Sys2Proof.Machine.execSetParam q c s
  | .setOutput q c => Sys2Proof.Machine.execSetOutput q c s
  | .outputPulseEnd outs => Sys2Proof.Machine.execOutputPulseEnd outs s
  | .jumpCmd q c => Sys2Proof.Machine.execJumpCmd q c s
  | .callCmd q c => Sys2Proof.Machine.execCallCmd q c s
  | .returnCmd q c => Sys2Proof.Machine.execReturnCmd q c s
  | .loopCmd q c => Sys2Proof.Machine.execLoopCmd q c s
  | .signalCmd q c => Sys2Proof.Machine.execSignalCmd q c s
  | .endCmd q c => Sys2Proof.Machine.execEndCmd q c s
  | .strataMark q c => Sys2Proof.Machine.execStrataMark q c s
  | .nopCmd q c => Sys2Proof.Machine.execNopCmd q c s
  | .routineFetch q eccError => Sys2Proof.Machine.execRoutineFetch q eccError s
  | .qPush q w => Sys2Proof.Machine.execQPush q w s
  | .qPushDb q w => Sys2Proof.Machine.execQPushDb q w s
  | .publish q => Sys2Proof.Machine.execPublish q s
  | .discard q => Sys2Proof.Machine.execDiscard q s
  | .qMdb hi mask => Sys2Proof.Machine.execQMdb hi mask s
  | .pause q => Sys2Proof.Machine.execPause q s
  | .qResume q => Sys2Proof.Machine.execQResume q s
  | .flush q => Sys2Proof.Machine.execFlush q s
  | .qRtnStart q rtn => Sys2Proof.Machine.execQRtnStart q rtn s
  | .qAbort q halt tag => Sys2Proof.Machine.execQAbort q halt tag s
  | .qAbortX w => Sys2Proof.Machine.execQAbortX w s
  | .abortInput k => Sys2Proof.Machine.execAbortInput k s
  | .qCplPop => Sys2Proof.Machine.execQCplPop s
  | .qCplRdWrite v => Sys2Proof.Machine.execQCplRdWrite v s
  | .qEvtPop => Sys2Proof.Machine.execQEvtPop s
  | .qEvtRdWrite v => Sys2Proof.Machine.execQEvtRdWrite v s
  | .grMemb g hi mask => Sys2Proof.Machine.execGrMemb g hi mask s
  | .grStop g => Sys2Proof.Machine.execGrStop g s
  | .regMark r ts => Sys2Proof.Machine.execRegMark r ts s
  | .coilCompute k at_ => Sys2Proof.Machine.execCoilCompute k at_ s
  | .axHarmData n isWrite v => Sys2Proof.Machine.execAxHarmData n isWrite v s
  | .pwmPeriodStart k vm => Sys2Proof.Machine.execPwmPeriodStart k vm s
  | .peakTrip k cnt => Sys2Proof.Machine.execPeakTrip k cnt s
  | .shortCircuit n coilB => Sys2Proof.Machine.execShortCircuit n coilB s
  | .bfaultClear b mask => Sys2Proof.Machine.execBfaultClear b mask s
  | .gateUv b => Sys2Proof.Machine.execGateUv b s
  | .pwPeriod b v => Sys2Proof.Machine.execPwPeriod b v s
  | .stagUserChange b on => Sys2Proof.Machine.execStagUserChange b on s
  | .pwChOfs b k v => Sys2Proof.Machine.execPwChOfs b k v s
  | .pwSafe b v => Sys2Proof.Machine.execPwSafe b v s
  | .safeCopyCheck b upset => Sys2Proof.Machine.execSafeCopyCheck b upset s
  | .dbgHalt guard => Sys2Proof.Machine.execDbgHalt guard s
  | .dbgHaltEnd guard => Sys2Proof.Machine.execDbgHaltEnd guard s
  | .clockStop b => Sys2Proof.Machine.execClockStop b s
  | .clockStopEnd b => Sys2Proof.Machine.execClockStopEnd b s
  | .tripInput a b => Sys2Proof.Machine.execTripInput a b s
  | .tripClear => Sys2Proof.Machine.execTripClear s
  | .tripDisc => Sys2Proof.Machine.execTripDisc s
  | .syncDrive => Sys2Proof.Machine.execSyncDrive s
  | .syncEdge cyc => Sys2Proof.Machine.execSyncEdge cyc s
  | .syncLost => Sys2Proof.Machine.execSyncLost s
  | .sampleHold k kind => Sys2Proof.Machine.execSampleHold k kind s
  | .sampleDelivered k kind raw full => Sys2Proof.Machine.execSampleDelivered k kind raw full s
  | .shadowBlockEnd b sl pairs => Sys2Proof.Machine.execShadowBlockEnd b sl pairs s
  | .spareRecal b zero pos neg => Sys2Proof.Machine.execSpareRecal b zero pos neg s
  | .csInjGo b sel => Sys2Proof.Machine.execCsInjGo b sel s
  | .injResult b raw wait => Sys2Proof.Machine.execInjResult b raw wait s
  | .scanGo b => Sys2Proof.Machine.execScanGo b s
  | .scanStop b => Sys2Proof.Machine.execScanStop b s
  | .scanResult b slice raw wait => Sys2Proof.Machine.execScanResult b slice raw wait s
  | .csScanPop b => Sys2Proof.Machine.execCsScanPop b s
  | .csTrigFire b k => Sys2Proof.Machine.execCsTrigFire b k s
  | .csPchkGo b ch range => Sys2Proof.Machine.execCsPchkGo b ch range s
  | .pchkDone b s1 s2 => Sys2Proof.Machine.execPchkDone b s1 s2 s
  | .retryResume n => Sys2Proof.Machine.execRetryResume n s
  | .resync b axis => Sys2Proof.Machine.execResync b axis s
  | .peakClr b axis => Sys2Proof.Machine.execPeakClr b axis s
  | .quadEdge p a b e => Sys2Proof.Machine.execQuadEdge p a b e s
  | .hallChange p code cyc => Sys2Proof.Machine.execHallChange p code cyc s
  | .stepEdge p dir ena cyc => Sys2Proof.Machine.execStepEdge p dir ena cyc s
  | .indexEdge p => Sys2Proof.Machine.execIndexEdge p s
  | .speedTimeout p => Sys2Proof.Machine.execSpeedTimeout p s
  | .serialRead p => Sys2Proof.Machine.execSerialRead p s
  | .serialWord p waits raw eBit wBit crc => Sys2Proof.Machine.execSerialWord p waits raw eBit wBit crc s
  | .armPort p => Sys2Proof.Machine.execArmPort p s
  | .disarmPort p => Sys2Proof.Machine.execDisarmPort p s
  | .portFaultClear p => Sys2Proof.Machine.execPortFaultClear p s
  | .fbMode p mode => Sys2Proof.Machine.execFbMode p mode s
  | .fbFollowEngage p axis prof => Sys2Proof.Machine.execFbFollowEngage p axis prof s
  | .fbFollowDisengage p => Sys2Proof.Machine.execFbFollowDisengage p s
  | .auxResult k raw meas => Sys2Proof.Machine.execAuxResult k raw meas s
  | .auxGo k => Sys2Proof.Machine.execAuxGo k s
  | .auxStop k => Sys2Proof.Machine.execAuxStop k s
  | .exFault e bits => Sys2Proof.Machine.execExFault e bits s
  | .sfExCfg e v => Sys2Proof.Machine.execSfExCfg e v s
  | .sfCrosspointWrite reg c v => Sys2Proof.Machine.execSfCrosspointWrite reg c v s
  | .tdacHold hold code => Sys2Proof.Machine.execTdacHold hold code s
  | .sfChkGo c => Sys2Proof.Machine.execSfChkGo c s
  | .sfChkDone e1 e2 => Sys2Proof.Machine.execSfChkDone e1 e2 s
  | .calZero c navg => Sys2Proof.Machine.execCalZero c navg s
  | .calFullScale c navg => Sys2Proof.Machine.execCalFullScale c navg s
  | .calCancel => Sys2Proof.Machine.execCalCancel s
  | .calTimeout => Sys2Proof.Machine.execCalTimeout s
  | .sfQPop => Sys2Proof.Machine.execSfQPop s
  | .repPeriodEnd r => Sys2Proof.Machine.execRepPeriodEnd r s
  | .sfRepHost r v => Sys2Proof.Machine.execSfRepHost r v s
  | .unitFault u mech => Sys2Proof.Machine.execUnitFault u mech s
  | .auditMismatch u sparePasses axes => Sys2Proof.Machine.execAuditMismatch u sparePasses axes s
  | .takeoverComplete u dur rep => Sys2Proof.Machine.execTakeoverComplete u dur rep s
  | .refFail => Sys2Proof.Machine.execRefFail s
  | .pllFail u => Sys2Proof.Machine.execPllFail u s
  | .eccCorrectable dram addr row reserve => Sys2Proof.Machine.execEccCorrectable dram addr row reserve s
  | .eccUncorrectable loc addr => Sys2Proof.Machine.execEccUncorrectable loc addr s
  | .eccRestore off => Sys2Proof.Machine.execEccRestore off s
  | .scrub dram progress => Sys2Proof.Machine.execScrub dram progress s
  | .faultLine asserted => Sys2Proof.Machine.execFaultLine asserted s
  | .fmInject w => Sys2Proof.Machine.execFmInject w s
  | .ledgerInterval tbp => Sys2Proof.Machine.execLedgerInterval tbp s
  | .thermalFault n => Sys2Proof.Machine.execThermalFault n s
  | .patinaPass w => Sys2Proof.Machine.execPatinaPass w s
  | .passNow w => Sys2Proof.Machine.execPassNow w s
  | .clrLimits => Sys2Proof.Machine.execClrLimits s
  | .patinaLogMinute => Sys2Proof.Machine.execPatinaLogMinute s
  | .patinaRecordWritten ok => Sys2Proof.Machine.execPatinaRecordWritten ok s
  | .strataTrigger => Sys2Proof.Machine.execStrataTrigger s
  | .strataFreeze => Sys2Proof.Machine.execStrataFreeze s
  | .stTrig => Sys2Proof.Machine.execStTrig s
  | .stArm => Sys2Proof.Machine.execStArm s
  | .stDisarm => Sys2Proof.Machine.execStDisarm s
  | .stRelease layer => Sys2Proof.Machine.execStRelease layer s
  | .stReleaseAll => Sys2Proof.Machine.execStReleaseAll s
  | .stEn en => Sys2Proof.Machine.execStEn en s
  | .stRegion v => Sys2Proof.Machine.execStRegion v s
  | .stSel k w => Sys2Proof.Machine.execStSel k w s
  | .hpRead req => Sys2Proof.Machine.execHpRead req s
  | .hpWrite req data => Sys2Proof.Machine.execHpWrite req data s
  | .hpNop req => Sys2Proof.Machine.execHpNop req s
  | .broadcastFrame req data => Sys2Proof.Machine.execBroadcastFrame req data s
  | .frameDiscard cause bcast => Sys2Proof.Machine.execFrameDiscard cause bcast s
  | .frameTimeout bcast => Sys2Proof.Machine.execFrameTimeout bcast s
  | .laneReset => Sys2Proof.Machine.execLaneReset s
  | .genChange => Sys2Proof.Machine.execGenChange s
  | .hpClr => Sys2Proof.Machine.execHpClr s
  | .aliasSet a w => Sys2Proof.Machine.execAliasSet a w s
  | .aliasClr a w => Sys2Proof.Machine.execAliasClr a w s
  | .aliasTgl a w => Sys2Proof.Machine.execAliasTgl a w s
  | .maskedWrite slot axis w => Sys2Proof.Machine.execMaskedWrite slot axis w s
  | .wideWord0Read a => Sys2Proof.Machine.execWideWord0Read a s
  | .wideWordRead a => Sys2Proof.Machine.execWideWordRead a s
  | .wideWordStage a w => Sys2Proof.Machine.execWideWordStage a w s
  | .wideWord0Write a w => Sys2Proof.Machine.execWideWord0Write a w s
  | .iaddrWrite hi w => Sys2Proof.Machine.execIaddrWrite hi w s
  | .idataRead => Sys2Proof.Machine.execIdataRead s
  | .idataWrite w => Sys2Proof.Machine.execIdataWrite w s
  | .prefetchDone => Sys2Proof.Machine.execPrefetchDone s
  | .lockSet bits => Sys2Proof.Machine.execLockSet bits s
  | .registerWrite a w => Sys2Proof.Machine.execRegisterWrite a w s
  | .vholdCharged => Sys2Proof.Machine.execVholdCharged s
  | .internalSuppliesOff => Sys2Proof.Machine.execInternalSuppliesOff s
  | .gateUvRecover b => Sys2Proof.Machine.execGateUvRecover b s
  | .exFaultClear e => Sys2Proof.Machine.execExFaultClear e s
  | .tckEdge trst tms tdi pins => Sys2Proof.Machine.execTckEdge trst tms tdi pins s

end Sys2Proof.Machine
end

