-- ==== Sys2Proof/Machine/Step.lean ====
section
/-!
DEFINITION. One step of the block: the command at the front of the queue is taken and runs with the queue's rest.
-/

namespace Sys2Proof.Machine

/-- One step: the command at the front of the queue; an empty queue leaves the block idle (DESIGN CHOICE, log entry 1).
Log entries 1 (DESIGN CHOICE), 101 (DESIGN CHOICE), 102 (DESIGN CHOICE). -/
def step (s : State) : Host.Outcome State Fault Refusal :=
  match s.pending with
  | [] => .next s
  | c :: rest => exec c { s with pending := rest }

/-- The state with the command that a word spells at the front of its queue. -/
def State.withFetchWord (s : State) (nbits w : Nat) : State :=
  match decodeTableWord nbits w with
  | some c => { s with pending := c :: s.pending }
  | none => s

end Sys2Proof.Machine
end

