-- ==== Sys2Proof/Safety.lean ====
section
/-!
DEFINITION. What every command keeps: the canonical form of the stored data, the rings within their size, and what has once
been written into the one-time-programmable store.
-/

namespace Sys2Proof.Machine

/-- R115: a store `o'` keeps what has been programmed into `o`: the key hashes, the revocations and REQUIRE_SIG. -/
structure Otp.Keeps (o o' : Otp) : Prop where
  hashes : ∀ k h, vget none o.hashes k = some h → vget none o'.hashes k = some h
  revoked : ∀ k, bitOf o.revoked k = true → bitOf o'.revoked k = true
  reqSig : o.reqSig = true → o'.reqSig = true

/-- A ring of `cap` records that holds the records of `l`, newest first, below the write count, has no more unread records
than it holds. -/
def ringFits {α : Type} (cap : Nat) (l : List α) (wr rd : Nat) : Prop :=
  l.length ≤ cap ∧ wr < 2 ^ 32 ∧ rd < 2 ^ 32 ∧ (wr + 2 ^ 32 - rd) % 2 ^ 32 ≤ l.length

/-- R195, R198: the completion ring holds at most 1,024 records, the event ring at most 4,096. -/
def Rings.Fit (r : Rings) : Prop := ringFits 1024 r.cpl r.cplWr r.cplRd ∧ ringFits 4096 r.evt r.evtWr r.evtRd

/-- The stored data: the DRAM, the flash and the registers in canonical form, the key store keeping what `o` holds, and the
rings within their size. -/
structure Stored (o : Otp) (dram flash : List Host.Cell) (regs : List (RegKey × Word)) (otp : Otp) (rings : Rings) : Prop where
  dram : Memory.wf dram = true
  flash : Flash.wf flash = true
  regs : regsWf regs = true
  otp : o.Keeps otp
  rings : rings.Fit

/-- The stored data of the module are sound. -/
structure Mach.Sound (o : Otp) (m : Mach) : Prop where
  stored : Stored o m.dram m.flash m.regs m.otp m.rings

/-- The invariant of the block: its stored data are sound. -/
def State.Sound (s : State) : Prop := s.m.Sound s.m.otp

/-! ### What a command may change -/

/-- The parts of the module that frames speak of, its registers apart: the fields of `Mach`. -/
inductive Part where
  | clk | staged | dram | flash | inp | snapIn | go | goPulse | readData | axes | queues | rings | arms | vmasters | regchans | sections | coils | obs | harm | comm | banks | sync | gasp | dbgHalt | testInstr | ledRon | ports | sf | fm | heat | kn | otp | nv | pt | st | hp | tap
  deriving DecidableEq, Repr

/-- A part is the same in `a` and `b`, apart from what may change at every command: the command number and the time within the tick
(`clk`), the end of a forced coast (`banks`, R59), the blanking interval (`sf`, R393) and the trigger sources that have fired (`st`,
R452). The events that wait for RUN (`raised` of `kn`, R87) are counted with the rings, see `Changes`. For `dram` every byte outside the mirror of the event ring (R200) reads the same; `staged` bears on the values in force,
see `Changes`. -/
def Part.Same : Part → Mach → Mach → Prop
  | .dram, a, b => ∀ x, x < 0x04000000 ∨ 0x04100000 ≤ x → memGet dramDefault b.dram x = memGet dramDefault a.dram x
  | .staged, _, _ => True
  | .clk, a, b => b.clk = { a.clk with draws := b.clk.draws, sub := b.clk.sub }
  | .flash, a, b => b.flash = a.flash
  | .inp, a, b => b.inp = a.inp
  | .snapIn, a, b => b.snapIn = a.snapIn
  | .go, a, b => b.go = a.go
  | .goPulse, a, b => b.goPulse = a.goPulse
  | .readData, a, b => b.readData = a.readData
  | .axes, a, b => b.axes = a.axes
  | .queues, a, b => b.queues = a.queues
  | .rings, a, b => b.rings = a.rings
  | .arms, a, b => b.arms = a.arms
  | .vmasters, a, b => b.vmasters = a.vmasters
  | .regchans, a, b => b.regchans = a.regchans
  | .sections, a, b => b.sections = a.sections
  | .coils, a, b => b.coils = a.coils
  | .obs, a, b => b.obs = a.obs
  | .harm, a, b => b.harm = a.harm
  | .comm, a, b => b.comm = a.comm
  | .banks, a, b => ∀ k, b.bank k = { a.bank k with ovForce := (b.bank k).ovForce }
  | .sync, a, b => b.sync = a.sync
  | .gasp, a, b => b.gasp = a.gasp
  | .dbgHalt, a, b => b.dbgHalt = a.dbgHalt
  | .testInstr, a, b => b.testInstr = a.testInstr
  | .ledRon, a, b => b.ledRon = a.ledRon
  | .ports, a, b => b.ports = a.ports
  | .sf, a, b => b.sf = { a.sf with blankAct := b.sf.blankAct, blankEnd := b.sf.blankEnd, goPrev := b.sf.goPrev }
  | .fm, a, b => b.fm = a.fm
  | .heat, a, b => b.heat = a.heat
  | .kn, a, b => b.kn = { a.kn with raised := b.kn.raised }
  | .otp, a, b => b.otp = a.otp
  | .nv, a, b => b.nv = a.nv
  | .pt, a, b => b.pt = a.pt
  | .st, a, b => b.st = { a.st with fired := b.st.fired }
  | .hp, a, b => b.hp = a.hp
  | .tap, a, b => b.tap = a.tap

/-- From `a` to `b` no part changes but those of `parts`, and no register but those of `regs`; unless `staged` is one of the parts,
the values in force of all other registers stay as well; unless `rings` or `kn` is one of them, no event has come to wait for RUN. -/
structure Changes (a b : Mach) (parts : List Part) (regs : List Reg) : Prop where
  part : ∀ p, p ∉ parts → p.Same a b
  reg : ∀ r i j, r ∉ regs → b.reg r i j = a.reg r i j
  force : Part.staged ∉ parts → ∀ r i j, r ∉ regs → b.force r i j = a.force r i j
  raised : Part.rings ∉ parts → Part.kn ∉ parts → b.kn.raised = a.kn.raised

/-! ### What a command completes -/

/-- Command `c` completes in state `s`: it answers a next state in which the queue's rest still waits and of which `P` holds. -/
def Completes (c : Instr) (s : State) (P : Mach → Prop) : Prop :=
  ∃ t, exec c s = .next t ∧ t.pending = s.pending ∧ P t.m

/-- R196, R87: from `a` to `b` the event `code` for object `obj` with `data` has been posted, with the present time; during a
start it waits for RUN. -/
def Mach.Posted (a b : Mach) (code obj data : Nat) : Prop :=
  if a.kn.phase = .start then (code, obj, data) ∈ b.kn.raised else eventWord code obj b.stamp data ∈ b.rings.evt

/-- R481, R490: a write of `w` is taken: the register answers and no lock refuses it. -/
def Mach.Takes (m : Mach) (k : RegKey) (w : Nat) : Prop :=
  m.regAnswers k = true ∧ m.lockRefuses m.lockBits k (k.r.desc.merge (m.peek k) w) = false

/-- R184: the last command of queue `q` to retire was `w`, with status `st`. -/
def Mach.DoneAs (t : Mach) (q : Nat) (w : Word) (st : Nat) : Prop :=
  t.rd F.Q_LAST_TAG q = tagOf w ∧ t.rd F.Q_LAST_STATUS q = st ∧ t.rd F.Q_LAST_OPC q = opcOf w

/-- R182: from `m` to `t` the head of queue `q` has left the ring, or its routine has gone on to the next word. -/
def Mach.Popped (t : Mach) (q : Nat) (m : Mach) : Prop :=
  (t.qu q).frame.pc = (m.qu q).frame.pc.map (· + 16) ∧
    (t.qu q).published = if (m.qu q).inRoutine then (m.qu q).published else (m.qu q).published.drop 1

/-- The queue has nothing staged ahead of `w`: it is published at the head, or the queue is empty. -/
def Queue.Offers (x : Queue) (w : Word) : Prop :=
  x.stack = [.ring] ∧
    ((x.published.head? = some w ∧ (x.st = .run ∨ x.st = .wait)) ∨
      (x.published = [] ∧ x.staged = [] ∧ (x.st = .idle ∨ x.st = .run ∨ x.st = .wait)))

/-- The queue's routine stands at `w`, which has been fetched. -/
def Mach.Fetched (m : Mach) (q : Nat) (w : Word) : Prop :=
  (m.qu q).inRoutine = true ∧ (∀ a, (m.qu q).frame.pc = some a → a + 16 ≤ (m.qu q).frame.bound) ∧
    (m.qu q).fetched.map (·.2) = some false ∧ m.headWord q = some w ∧ ((m.qu q).st = .run ∨ (m.qu q).st = .wait)

/-- R203: no abort runs on any queue. -/
def Mach.NoAbort (m : Mach) : Prop := ∀ q : Fin 64, (m.qu q).abort = none

/-- R175, R182: queue `q` can dispatch `w` at once: the unit works, no abort runs, nothing is in flight, the word passes the checks,
what it names in the DRAM has been read and the completion ring has room. -/
def Mach.Ready (m : Mach) (q : Nat) (w : Word) : Prop :=
  m.unitRuns = true ∧ m.NoAbort ∧ (m.qu q).inflight = [] ∧ m.headCheck q w = none ∧ (m.readsDram q w = true → (m.qu q).vec = true) ∧
    (m.cplStall = false ∨ m.cplUnread + m.cplReserved < 960) ∧ ((m.qu q).Offers w ∨ m.Fetched q w)

/-- R182: no order of axis `q` waits to be taken, and none is kept. -/
def Mach.AxisFree (m : Mach) (q : Nat) : Prop := (m.ax q).toTake = [] ∧ (m.ax q).kept = none

/-- R182: the axes that queue `q` commands keep no order back. -/
def Mach.OrdersFree (m : Mach) (q : Nat) : Prop :=
  if q < 48 then (m.ax q).kept = none else ∀ n ∈ m.membersOf (q - 48), (m.ax n).kept = none

/-- R116, R120: the checks of a commit of the image staged at NV_COMMIT_SRC. -/
def Mach.ImageCommit (m : Mach) : Prop :=
  let src := m.rd F.NV_COMMIT_SRC_SRC
  let p (i : Nat) := m.dramB (src + i)
  let img (i : Nat) := m.dramB (src + 0x1000 + i)
  m.rb F.NV_COMMIT_STAT_BUSY = false ∧ m.commitState = true ∧ m.srcOk = true ∧ plinthOk p = true ∧
    src + 0x1000 + plLen p ≤ m.sysSize ∧ plSeq p = nextSeqOf m.newestSeq ∧ m.placeOk (plOff p) (plLen p) = true ∧
    crc32 (bytesAt img 0 (plLen p)) = plCrc p ∧ m.signatureOk p img = true

/-- R119, R120: the checks of a commit of an overlay for an image that holds none: the table has a free entry, and the new
image, `len` bytes after the image in use, has a place. -/
def Mach.OverlayCommit (m : Mach) : Prop :=
  let src := m.rd F.NV_COMMIT_SRC_SRC
  let len := m.rd F.NV_COMMIT_LEN_LEN
  m.rb F.NV_COMMIT_STAT_BUSY = false ∧ m.commitState = true ∧ m.rb F.NV_STATUS_CFG_TIE = false ∧ m.srcOk = true ∧
    len % 4 = 0 ∧ 4 ≤ len ∧ len ≤ 0x00100000 ∧ src + len ≤ m.sysSize ∧ m.overlayEntry = none ∧
    ((List.range (imgCap m.dramB)).any fun i => (imgEntry m.dramB i).sec.ty == 0) = true ∧
    m.rb F.NV_STATUS_SIGNED = false ∧ m.otp.reqSig = false ∧ m.nv.inUse.isSome = true ∧
    ∀ x, m.nv.inUse = some x →
      16 * ceilDiv (16 * ceilDiv x.2.2 16 + len) 16 ≤ 0x04000000 ∧
        (m.overlayPlace (m.commitTarget 1) (16 * ceilDiv (16 * ceilDiv x.2.2 16 + len) 16)).isSome = true

end Sys2Proof.Machine
end

