-- ==== Sys2Proof/Certificates/Slice0/Obligations.lean ====
section
/-!
DEFINITION. The statements for the provers.
-/

open Sys2Proof Sys2Proof.Machine

/-- R195, R198: every step keeps the stored data sound: the memories and the registers in canonical form, the rings within their
size. -/
def Obligations.StepKeepsStores : Prop :=
  ∀ s t : State, s.Sound → step s = .next t → t.Sound

/-- R115: the key hashes, the revoke bits and REQUIRE_SIG change only from unprogrammed to programmed; a key command executes only in kiln hold or in RUN while every axis is OFF, and otherwise sets NV_KEY_STAT.FAIL. -/
def Obligations.ProgrammedKeysStay : Prop :=
  (∀ s t : State, s.Sound → step s = .next t → s.m.otp.Keeps t.m.otp) ∧
  (∀ (s : State) (slot : Fin 4), s.m.Takes ⟨.NV_KEY_CMD, 0, 0⟩ (slot.val + 4 + 0xA5 * 2 ^ 8) →
    ¬(s.m.kn.phase = .hold ∨ (s.m.kn.phase = .run ∧ s.m.allOff = true)) →
    Completes (.keyProgram slot 0xA5) s fun t => t.rb F.NV_KEY_STAT_FAIL = true ∧ t.otp = s.m.otp) ∧
  (∀ (s : State) (slot : Fin 4), s.m.Takes ⟨.NV_KEY_CMD, 0, 0⟩ (slot.val + 8 + 0xA5 * 2 ^ 8) →
    ¬(s.m.kn.phase = .hold ∨ (s.m.kn.phase = .run ∧ s.m.allOff = true)) →
    Completes (.keyRevoke slot 0xA5) s fun t => t.rb F.NV_KEY_STAT_FAIL = true ∧ t.otp = s.m.otp) ∧
  (∀ s : State, s.m.Takes ⟨.NV_KEY_CMD, 0, 0⟩ (12 + 0xA5 * 2 ^ 8) →
    ¬(s.m.kn.phase = .hold ∨ (s.m.kn.phase = .run ∧ s.m.allOff = true)) →
    Completes (.keyRequireSig 0xA5) s fun t => t.rb F.NV_KEY_STAT_FAIL = true ∧ t.otp = s.m.otp) ∧
  (∀ (s : State) (slot : Fin 4), s.m.Takes ⟨.NV_KEY_CMD, 0, 0⟩ (slot.val + 4 + 0xA5 * 2 ^ 8) →
    (s.m.kn.phase = .hold ∨ (s.m.kn.phase = .run ∧ s.m.allOff = true)) → vget none s.m.otp.hashes slot.val = none →
    Completes (.keyProgram slot 0xA5) s fun t => ∃ h, h < 2 ^ 256 ∧ vget none t.otp.hashes slot.val = some h) ∧
  (∀ (s : State) (slot : Fin 4), s.m.Takes ⟨.NV_KEY_CMD, 0, 0⟩ (slot.val + 8 + 0xA5 * 2 ^ 8) →
    (s.m.kn.phase = .hold ∨ (s.m.kn.phase = .run ∧ s.m.allOff = true)) →
    Completes (.keyRevoke slot 0xA5) s fun t => bitOf t.otp.revoked slot.val = true) ∧
  (∀ s : State, s.m.Takes ⟨.NV_KEY_CMD, 0, 0⟩ (12 + 0xA5 * 2 ^ 8) →
    (s.m.kn.phase = .hold ∨ (s.m.kn.phase = .run ∧ s.m.allOff = true)) →
    Completes (.keyRequireSig 0xA5) s fun t => t.otp.reqSig = true)

/-- R480, R485: the address of a register, computed from its description, names the register, and no two registers share one. -/
def Obligations.RegisterAddressesDecode : Prop :=
  ∀ (r : Reg) (i j : Nat), i < r.desc.n1 → j < r.desc.n2 →
    ∀ w, w < (if r.desc.wide then 4 else 1) → regAt (r.addr i j + 4 * w) = some (⟨r, i, j⟩, w)

/-- R59, R284: the forcing of an overvoltage timeout does not last beyond the state in which every axis of the bank is OFF, or in
MAQUETTE with sub-state OFF. -/
def Obligations.ForcedCoastEndsWithItsAxes : Prop :=
  ∀ (c : Instr) (s t : State), exec c s = .next t → ∀ b, b < 4 → t.m.bankOff b = true → (t.m.bank b).ovForce = false

/-- A step takes the command at the front of the queue and runs it with the rest of the queue. -/
def Obligations.StepRunsFrontCommand : Prop :=
  ∀ (c : Instr) (rest : List Instr) (s : State), step { s with pending := c :: rest } = exec c { s with pending := rest }

/-- With no command waiting, the block idles: the model's choice (log entry 1). -/
def Obligations.EmptyQueueIdles : Prop :=
  ∀ s : State, s.pending = [] → step s = .next s

/-- The state before the first VAUX_GOOD: registers at the reset columns of the field tables, no power, axes OFF, rings empty. Where
the model starts and what unlisted memory reads as is the model's choice (log entries 2 to 4). -/
def Obligations.ResetStateIsUnpowered : Prop :=
  State.reset.pending = [] ∧ (∀ k : RegKey, regGet State.reset.m.regs k = k.resetVal) ∧
  State.reset.m.kn.phase = .off ∧ State.reset.m.kn.vauxGood = false ∧ (∀ n, n < 48 → (State.reset.m.ax n).mode = .off) ∧
  State.reset.m.rings.cpl = [] ∧ State.reset.m.rings.evt = [] ∧ (∀ k, k < 4 → vget none State.reset.m.otp.hashes k = none) ∧
  (∀ a, memGet dramDefault State.reset.m.dram a = 0) ∧ (∀ a, memGet flashDefault State.reset.m.flash a = 0xFF)

/-- R195, R198: the stored data are sound at reset. -/
def Obligations.ResetIsSound : Prop :=
  State.reset.Sound

/-- R107: the CRC-32 of the configuration image. -/
def Obligations.ImageChecksumIsIeeeCrc : Prop :=
  crc32 [0x31, 0x32, 0x33, 0x34, 0x35, 0x36, 0x37, 0x38, 0x39] = 0xCBF43926 ∧
  (∀ l : List Byte, crc32 l = (l.foldl crcByte 0xFFFFFFFF) ^^^ 0xFFFFFFFF) ∧
  (∀ (c : Nat) (b : Byte), crcByte c b =
    (List.range 8).foldl (fun x _ => if x % 2 = 1 then x / 2 ^^^ (BitVec.reverse (0x04C11DB7 : BitVec 32)).toNat else x / 2) (c ^^^ b.toNat))

/-- R432: the effective heat cap; CAP counts half watts, T_bp and KNEE are in °C. -/
def Obligations.EffectiveHeatCap : Prop :=
  ∀ (m : Mach) (t : Rat), 1 ≤ m.rd F.HL_CFG_CAP → m.rd F.HL_CFG_CAP ≤ 220 → m.rd F.HL_CFG_KNEE ≤ 100 →
    (t ≤ (m.rd F.HL_CFG_KNEE : Rat) → m.capEff t = (m.rd F.HL_CFG_CAP : Rat) / 2) ∧
    ((m.rd F.HL_CFG_KNEE : Rat) < t → t < 150 →
      m.capEff t = (m.rd F.HL_CFG_CAP : Rat) / 2 * (150 - t) / (150 - (m.rd F.HL_CFG_KNEE : Rat))) ∧
    (150 ≤ t → m.capEff t = 0)

/-- The supply events complete: VAUX, VHOLD, internal supplies and VIO overload. It rests on the model's choices of log entries 6,
10, 11, 12, 13, 15, 109 and 136. -/
def Obligations.SupplyEventsComplete : Prop :=
  (∀ (s : State) (vselH : Bool) (vselN : Bool) (v : AuxVolts), s.m.kn.vauxGood = false ∧ s.m.kn.phase ≠ .gasp →
    Completes (.vauxGood vselH vselN v) s fun t => t.kn.vauxGood = true ∧
      t.kn.phase = (if s.m.kn.rstLow then .resetLow else .start) ∧ t.rd F.KN_SUPPLY_VAUX_V = v.vaux.toNat ∧
      t.rb F.KN_SUPPLY_VSEL_H = (!vselH) ∧ t.rb F.KN_SUPPLY_VSEL_N = (!vselN) ∧ t.rb F.KN_SUPPLY_VIO_H_GOOD = true ∧
      t.rb F.KN_SUPPLY_VIO_N_GOOD = true ∧ t.rb F.KN_SUPPLY_VIO_F_GOOD = true) ∧
  (∀ (s : State) (vselH : Bool) (vselN : Bool) (v : AuxVolts), s.m.kn.vauxGood = false ∧ s.m.kn.phase = .gasp →
    Completes (.vauxGood vselH vselN v) s fun t => t.kn.vauxGood = true ∧ t.kn.phase = .gasp ∧
      t.rb F.KN_SUPPLY_VSEL_H = (!vselH) ∧ t.rb F.KN_SUPPLY_VSEL_N = (!vselN)) ∧
  (∀ (s : State) (vaux : BitVec 16) (vhold : BitVec 16), s.m.kn.vauxGood = true ∧ s.m.kn.phase ≠ .gasp ∧ s.m.lgArmed = true →
    Completes (.vauxLost vaux vhold) s fun t => t.kn.vauxGood = false ∧ t.kn.phase = .gasp ∧ t.gasp = true ∧
      t.clk.running = false ∧ t.hp.gen = 0 ∧ t.rb F.KN_SUPPLY_VIO_H_GOOD = false ∧ t.rb F.KN_SUPPLY_VIO_F_GOOD = false) ∧
  (∀ (s : State) (vaux : BitVec 16) (vhold : BitVec 16), s.m.kn.vauxGood = true ∧ s.m.kn.phase ≠ .gasp ∧ s.m.lgArmed = false →
    Completes (.vauxLost vaux vhold) s fun t => t.kn.vauxGood = false ∧ t.kn.vhold = vhold.toNat ∧ t.kn.phase = s.m.kn.phase ∧
      t.rd F.KN_SUPPLY_VAUX_V = vaux.toNat) ∧
  (∀ (s : State), ∀ g, s.m.kn.gasp = some g → s.m.kn.phase = .gasp ∧ g.done < 17 →
    Completes .lgProgramDone s fun t => t.kn.gasp = some { g with done := g.done + 1 } ∧
      t.flash = (s.m.flashProgram (logSector g.sector + (gaspPart g.done).1) ((g.bytes.drop (gaspPart g.done).1).take (gaspPart g.done).2)).flash) ∧
  (∀ (s : State), ∀ g, s.m.kn.gasp = some g → s.m.kn.phase = .gasp ∧ 17 ≤ g.done →
    Completes .lastGaspEnd s fun t =>
      t.kn.phase = (if s.m.kn.vauxGood then (if s.m.kn.rstLow then .resetLow else .start) else .spent) ∧
      t.kn.vauxGood = s.m.kn.vauxGood ∧ t.clk.running = false) ∧
  (∀ (s : State), s.m.kn.vauxGood = false →
    Completes .vholdLow s fun t => t.clk.hours = 0 ∧ t.reg .KN_MEMO 0 0 = 0) ∧
  (∀ (s : State), s.m.kn.vauxGood = true →
    Completes .vholdLow s fun t => t.clk.hours = s.m.clk.hours ∧ t.reg .KN_MEMO 0 0 = s.m.reg .KN_MEMO 0 0) ∧
  (∀ (s : State), Completes .vholdCharged s fun t => s.m.rd F.KN_SUPPLY_VAUX_V ≤ t.kn.vhold + 1024 ∧
      t.kn.vhold ≤ max 1024 (s.m.rd F.KN_SUPPLY_VAUX_V) ∧ t.reg .KN_SUPPLY 0 0 = s.m.reg .KN_SUPPLY 0 0) ∧
  (∀ (s : State), s.m.kn.vauxGood = false →
    Completes .internalSuppliesOff s fun t => t.kn.phase = .off ∧ t.kn.vauxGood = false ∧ t.clk.running = false ∧
      t.otp = s.m.otp) ∧
  (∀ (s : State) (rail : Fin 3), s.m.kn.phase ≠ .off ∧ s.m.kn.phase ≠ .spent →
    Completes (.vioOverload rail) s fun t => t.rb F.KN_SUPPLY_VIO_OVL = true ∧
      t.rb (if rail.val = 0 then F.KN_SUPPLY_VIO_H_GOOD else if rail.val = 1 then F.KN_SUPPLY_VIO_N_GOOD else F.KN_SUPPLY_VIO_F_GOOD) = false ∧
      s.m.Posted t Ev.VIO_OVERLOAD rail.val 0)

/-- The bank monitor events complete: undervoltage, recovery, resume, clamp and its timeout. It rests on the model's choices of log
entry 6. -/
def Obligations.BankMonitorEventsComplete : Prop :=
  (∀ (s : State) (b : Fin 4) (vm : BitVec 16), s.m.monitored = true ∧ s.m.rb F.PW_VMON_STAT_UV_NOW b.val = false →
    Completes (.vmUv b vm) s fun t => t.rb F.PW_VMON_STAT_UV b.val = true ∧ t.rb F.PW_VMON_STAT_UV_NOW b.val = true ∧
      t.rb F.PW_VMON_STAT_RESUME_PEND b.val = false ∧
      t.rd F.PW_VMON_STAT_UV_CNT b.val = satInc 255 (s.m.rd F.PW_VMON_STAT_UV_CNT b.val) ∧ (t.bank b.val).rampT0 = none ∧
      s.m.Posted t Ev.VM_UV b.val vm.toNat) ∧
  (∀ (s : State) (b : Fin 4), s.m.rb F.PW_VMON_STAT_UV_NOW b.val = true →
    Completes (.vmUvRecover b) s fun t => t.rb F.PW_VMON_STAT_UV_NOW b.val = false ∧
      (if s.m.rd F.PW_VMON_CFG_UV_RESUME b.val = 1 ∨ s.m.rd F.PW_VMON_CFG_UV_RESUME b.val = 2 then t.rb F.PW_VMON_STAT_RESUME_PEND b.val = false ∧
      (t.bank b.val).rampT0 = some (s.m.rd F.PW_VMON_CFG_UV_RESUME b.val) else t.rb F.PW_VMON_STAT_RESUME_PEND b.val = true)) ∧
  (∀ (s : State) (b : Fin 4), s.m.Takes ⟨.PW_VMON_STAT, b.val, 0⟩ 64 ∧ s.m.rb F.PW_VMON_STAT_RESUME_PEND b.val = true →
    Completes (.resumeBank b) s fun t => t.rb F.PW_VMON_STAT_RESUME_PEND b.val = false ∧ (t.bank b.val).rampT0 = some 1) ∧
  (∀ (s : State) (b : Fin 4), (s.m.bank b.val).rampT0.isSome = true →
    Completes (.vmResumeRampEnd b) s fun t => (t.bank b.val).rampT0 = none) ∧
  (∀ (s : State) (b : Fin 4) (vm : BitVec 16), s.m.kn.phase ≠ .off ∧ (s.m.bank b.val).clamp = false ∧
    s.m.rb F.PW_VMON_CFG_OV_EN b.val = true →
    Completes (.vmOvClamp b vm) s fun t => (t.bank b.val).clamp = true ∧ t.rb F.PW_VMON_STAT_OV b.val = true ∧
      t.rd F.PW_VMON_STAT_OV_CNT b.val = satInc 255 (s.m.rd F.PW_VMON_STAT_OV_CNT b.val) ∧
      s.m.Posted t Ev.VM_OV_CLAMP b.val vm.toNat) ∧
  (∀ (s : State) (b : Fin 4) (dur : BitVec 48), (s.m.bank b.val).clamp = true →
    Completes (.vmOvRelease b dur) s fun t => (t.bank b.val).clamp = false ∧ ((s.m.bank b.val).clampLate = true →
      s.m.bankOff b.val = false → (t.bank b.val).ovForce = true) ∧ s.m.Posted t Ev.VM_OV_RELEASE b.val dur.toNat) ∧
  (∀ (s : State) (b : Fin 4) (vm : BitVec 16), (s.m.bank b.val).clamp = true ∧ (s.m.bank b.val).clampLate = false →
    Completes (.vmOvTimeout b vm) s fun t => t.rb F.PW_VMON_STAT_OV_TIMEOUT b.val = true ∧
      s.m.Posted t Ev.VM_OV_TIMEOUT b.val vm.toNat ∧ (t.bank b.val).clampLate = true)

/-- RESET_N, the kiln start, its step timeout, its restart and RESTART complete. It rests on the model's choices of log entries 5,
10, 11, 12, 16, 38 and 107. -/
def Obligations.ResetAndKilnStartComplete : Prop :=
  (∀ (s : State), s.m.kn.phase ≠ .gasp ∧ s.m.kn.phase ≠ .off ∧ s.m.kn.phase ≠ .spent →
    Completes .resetIn s fun t => t.kn.phase = .resetLow ∧ t.kn.rstLow = true ∧ t.clk.running = false ∧ t.otp = s.m.otp ∧
      t.inp = s.m.inp ∧ t.rings = .reset ∧ t.hp.gen = 0) ∧
  (∀ (s : State), (s.m.kn.phase = .gasp ∨ s.m.kn.phase = .off ∨ s.m.kn.phase = .spent) →
    Completes .resetIn s fun t => t.kn.rstLow = true ∧ t.kn.phase = s.m.kn.phase) ∧
  (∀ (s : State) (tripA : Bool) (tripB : Bool), s.m.kn.phase = .resetLow →
    Completes (.resetNRise tripA tripB) s fun t => t.kn.rstLow = false ∧ t.kn.phase = .start ∧ t.kn.step = 1 ∧ t.kn.done = 0 ∧
      t.kn.trigger = (if s.m.kn.begun then 1 else 0)) ∧
  (∀ (s : State) (tripA : Bool) (tripB : Bool), s.m.kn.phase ≠ .resetLow →
    Completes (.resetNRise tripA tripB) s fun t => t.kn.rstLow = false ∧ t.kn.phase = s.m.kn.phase) ∧
  (∀ (s : State) (w : StartMeas), s.m.testInstr = false ∧ s.m.kn.phase = .start ∧ s.m.kn.step = 3 ∧ w.upTo.val = 3 ∧
    w.fail = none →
    Completes (.kilnStart w) s fun t => t.kn.phase = .start ∧ t.kn.step = 4 ∧ bitOf t.kn.done 2 = true ∧ t.fm.mapped = w.rows ∧
      t.rd F.KN_STEPTIME_DUR 2 = (w.durs.getD 2 0).toNat) ∧
  (∀ (s : State) (w : StartMeas), s.m.testInstr = false ∧ s.m.kn.phase = .start ∧ s.m.kn.step = 1 ∧ w.upTo.val = 1 ∧
    w.rails = 7 →
    Completes (.kilnStart w) s fun t => t.kn.phase = .start ∧ t.kn.step = 2 ∧ bitOf t.kn.done 0 = true ∧
      t.rd F.KN_SUPPLY_VAUX_V = w.vaux.toNat ∧ t.rb F.KN_SUPPLY_VIO_H_GOOD = true ∧ t.rb F.KN_SUPPLY_VIO_N_GOOD = true ∧
      t.rb F.KN_SUPPLY_VIO_F_GOOD = true) ∧
  (∀ (s : State) (w : StartMeas), s.m.testInstr = false ∧ s.m.kn.phase = .start ∧ s.m.kn.step = 2 ∧ w.upTo.val = 2 ∧
    w.fail = none →
    Completes (.kilnStart w) s fun t => t.kn.phase = .start ∧ t.kn.step = 3 ∧ bitOf t.kn.done 1 = true ∧ t.hp.gen = 1 ∧
      t.fm.xtalOk = w.xtalOk) ∧
  (∀ (s : State) (w : StartMeas), s.m.testInstr = false ∧ s.m.kn.phase = .start ∧ s.m.kn.step = 1 ∧ w.upTo.val = 1 ∧
    w.rails ≠ 7 →
    Completes (.kilnStart w) s fun t => t.kn.phase = (if cntOf s.m.kn.counts 1 < 2 then .waiting else .hold) ∧
      cntOf t.kn.counts 1 = min 3 (cntOf s.m.kn.counts 1 + 1) ∧ t.rb F.KN_SUPPLY_VIO_H_GOOD = bitOf w.rails.toNat 0 ∧
      t.rb F.KN_SUPPLY_VIO_N_GOOD = bitOf w.rails.toNat 1 ∧ t.rb F.KN_SUPPLY_VIO_F_GOOD = bitOf w.rails.toNat 2) ∧
  (∀ (s : State) (w : StartMeas), (s.m.testInstr = true ∨ (s.m.kn.phase = .start ∧ w.upTo.val < s.m.kn.step)) →
    Completes (.kilnStart w) s fun t => t.kn = s.m.kn ∧ t.regs = s.m.regs) ∧
  (∀ (s : State), s.m.testInstr = false ∧ s.m.kn.phase = .start ∧ 1 ≤ s.m.kn.step ∧ s.m.kn.step ≤ 14 →
    Completes .kilnStepTimeout s fun t => cntOf t.kn.counts s.m.kn.step = min 3 (cntOf s.m.kn.counts s.m.kn.step + 1) ∧
      t.kn.phase = (if cntOf s.m.kn.counts s.m.kn.step < 2 then .waiting else .hold)) ∧
  (∀ (s : State), s.m.testInstr = false ∧ s.m.kn.phase = .waiting →
    Completes .kilnRestart s fun t => t.kn.phase = .start ∧ t.kn.step = 1 ∧ t.kn.trigger = 2 ∧ t.kn.done = 0 ∧ t.otp = s.m.otp) ∧
  (∀ (s : State) (clrCnt : Bool), s.m.Takes ⟨.KN_CTRL, 0, 0⟩ (1 + 2 * b2n clrCnt) ∧ s.m.kn.phase = .hold →
    Completes (.restartCmd clrCnt) s fun t => t.kn.phase = .start ∧ t.kn.step = 1 ∧ t.kn.trigger = 3 ∧ t.otp = s.m.otp) ∧
  (∀ (s : State) (clrCnt : Bool), s.m.Takes ⟨.KN_CTRL, 0, 0⟩ (1 + 2 * b2n clrCnt) ∧ s.m.kn.phase ≠ .hold →
    Completes (.restartCmd clrCnt) s fun t => t.kn = s.m.kn ∧ t.flash = s.m.flash)

/-- The end of step 16, the fast DRAM interface and a homing at the start complete. It rests on the model's choices of log entries
42, 50, 51 and 52. -/
def Obligations.StartPhaseEventsComplete : Prop :=
  (∀ (s : State), (s.m.kn.phase = .run ∧ s.m.kn.step16 = false ∧
    (s.m.queues.toList.any (fun x => x.auto_ && x.st != .halted) = false ∨ 3000000 ≤ s.m.clk.tick)) →
    Completes .step16Complete s fun t => t.kn.step16 = true ∧ bitOf t.kn.done 15 = true ∧ cntOf t.kn.counts 16 = 0 ∧
      t.kn.phase = .run) ∧
  (∀ (s : State), (s.m.kn.phase = .run ∧ s.m.queues.toList.any (fun x => x.auto_ && x.st != .halted) = true ∧
    s.m.clk.tick < 3000000) →
    Completes .step16Complete s fun t => t.kn = s.m.kn ∧ t.regs = s.m.regs ∧ t.flash = s.m.flash) ∧
  (∀ (s : State), s.m.Takes ⟨.KN_CTRL, 0, 0⟩ 4 ∧ s.m.kn.log = none →
    Completes .dramFast s fun t => bitOf (t.rd F.KN_MEMO_REQ) 0 = true) ∧
  (∀ (s : State), ∀ a, s.m.kn.log = some a → s.m.Takes ⟨.KN_CTRL, 0, 0⟩ 4 →
    Completes .dramFast s fun t => t.flash = (s.m.flashProgram (a + 0x51) [0xFE]).flash) ∧
  (∀ (s : State), s.m.Takes ⟨.KN_CTRL, 0, 0⟩ 8 ∧ s.m.kn.log = none →
    Completes .homeReset s fun t => bitOf (t.rd F.KN_MEMO_REQ) 1 = true) ∧
  (∀ (s : State), ∀ a, s.m.kn.log = some a → s.m.Takes ⟨.KN_CTRL, 0, 0⟩ 8 →
    Completes .homeReset s fun t => t.flash = (s.m.flashProgram (a + 0x51) [0xFD]).flash)

/-- Commit requests complete: IMAGE, OVERLAY, CAL, kind 3 and the tie acknowledge. It rests on the model's choices of log entries 5,
89, 128, 131 and 132. -/
def Obligations.CommitRequestsComplete : Prop :=
  (∀ (s : State), s.m.Takes ⟨.NV_COMMIT, 0, 0⟩ 1 ∧ s.m.rb F.NV_COMMIT_STAT_BUSY = true →
    Completes .commitImage s fun t => t.rb F.NV_COMMIT_STAT_FAIL = true ∧ t.rd F.NV_COMMIT_STAT_CODE = 0x01 ∧ t.nv = s.m.nv) ∧
  (∀ (s : State), s.m.Takes ⟨.NV_COMMIT, 0, 0⟩ 1 ∧ s.m.ImageCommit →
    Completes .commitImage s fun t => t.rb F.NV_COMMIT_STAT_BUSY = true ∧ t.rd F.NV_COMMIT_STAT_PHASE = 2 ∧
      t.rd F.NV_COMMIT_STAT_PROGRESS = 0 ∧ t.rd F.NV_COMMIT_STAT_TARGET = s.m.commitTarget 0 % 2 ∧
      t.nv.commit.map (fun c => (c.kind, c.phase, c.target, c.seq)) = some (0, 2, s.m.commitTarget 0, nextSeqOf s.m.newestSeq)) ∧
  (∀ (s : State), s.m.Takes ⟨.NV_COMMIT, 0, 0⟩ 5 ∧ s.m.rb F.NV_COMMIT_STAT_BUSY = true →
    Completes .commitOverlay s fun t => t.rb F.NV_COMMIT_STAT_FAIL = true ∧ t.rd F.NV_COMMIT_STAT_CODE = 0x01 ∧ t.nv = s.m.nv) ∧
  (∀ (s : State), s.m.Takes ⟨.NV_COMMIT, 0, 0⟩ 5 ∧ s.m.OverlayCommit →
    Completes .commitOverlay s fun t => t.rb F.NV_COMMIT_STAT_BUSY = true ∧ t.rd F.NV_COMMIT_STAT_PHASE = 2 ∧
      t.nv.commit.map (fun c => (c.kind, c.phase, c.target, c.seq, c.ovLen)) = some (1, 2, s.m.commitTarget 1, nextSeqOf s.m.newestSeq, s.m.rd F.NV_COMMIT_LEN_LEN)) ∧
  (∀ (s : State), s.m.Takes ⟨.NV_COMMIT, 0, 0⟩ 9 ∧ s.m.rb F.NV_COMMIT_STAT_BUSY = false ∧ s.m.kn.phase = .run ∧
    s.m.rb F.NV_STATUS_CFG_TIE = false →
    Completes .commitCal s fun t => t.rb F.NV_COMMIT_STAT_BUSY = true ∧ t.rd F.NV_COMMIT_STAT_PHASE = 3 ∧
      t.nv.commit.map (fun c => (c.kind, c.auto_, c.phase, c.target, c.len)) = some (2, false, 3, s.m.commitTarget 2, 0x6700)) ∧
  (∀ (s : State), (s.m.Takes ⟨.NV_COMMIT, 0, 0⟩ 9 ∧
    (s.m.rb F.NV_COMMIT_STAT_BUSY = true ∨ s.m.kn.phase ≠ .run ∨ s.m.rb F.NV_STATUS_CFG_TIE = true)) →
    Completes .commitCal s fun t => t.rb F.NV_COMMIT_STAT_FAIL = true ∧ t.nv = s.m.nv ∧
      t.rd F.NV_COMMIT_STAT_CODE = (if s.m.rb F.NV_COMMIT_STAT_BUSY then 0x01 else if s.m.kn.phase = .run then 0x02 else 0x0B)) ∧
  (∀ (s : State), s.m.Takes ⟨.NV_COMMIT, 0, 0⟩ 13 →
    Completes .commitKind3 s fun t => t.rb F.NV_COMMIT_STAT_FAIL = true ∧
      t.rd F.NV_COMMIT_STAT_CODE = (if s.m.rb F.NV_COMMIT_STAT_BUSY then 0x01 else 0x0A) ∧ t.nv = s.m.nv) ∧
  (∀ (s : State), s.m.Takes ⟨.NV_COMMIT, 0, 0⟩ 2 ∧ s.m.rb F.NV_STATUS_CFG_TIE = true →
    Completes .tieAck s fun t => t.rb F.NV_STATUS_CFG_TIE = false ∧
      s.m.Posted t Ev.NV_TIE_ACK 0 (if s.m.rb F.NV_STATUS_COPY then s.m.rd F.NV_SEQ_B_SEQ else s.m.rd F.NV_SEQ_A_SEQ)) ∧
  (∀ (s : State), s.m.Takes ⟨.NV_COMMIT, 0, 0⟩ 2 ∧ s.m.rb F.NV_STATUS_CFG_TIE = false →
    Completes .tieAck s fun t => t.rings = s.m.rings)

/-- Commit progress completes: flash operations done, timeouts and calibration writes. It rests on the model's choices of log
entries 6, 89, 105, 134 and 135. -/
def Obligations.CommitProgressCompletes : Prop :=
  (∀ (s : State) (readOk : Bool), ∀ c, s.m.nv.commit = some c → s.m.nv.lost = false ∧ c.phase = 2 →
    Completes (.commitFlashOpDone readOk) s fun t => t.flash = (s.m.erase (plinthAt c.target) 0x1000).flash ∧
      t.nv.commit = some { c with phase := 3, k := 0 } ∧ t.rd F.NV_COMMIT_STAT_PHASE = 3) ∧
  (∀ (s : State) (readOk : Bool), ∀ c, s.m.nv.commit = some c → s.m.nv.lost = false ∧ c.phase = 4 ∧ c.k + 1 < c.pages →
    Completes (.commitFlashOpDone readOk) s fun t =>
      t.flash = (s.m.flashProgram (c.off + (s.m.commitPage c c.k).1) (s.m.commitPage c c.k).2).flash ∧
      t.nv.commit = some { c with k := c.k + 1 }) ∧
  (∀ (s : State) (late : FlashLate), ∀ c, s.m.nv.commit = some c → (late.ring = false ∧ c.kind ≠ 2 ∧
    ¬(c.phase = 5 ∨ (c.phase = 6 ∧ c.k ≠ 0))) →
    Completes (.flashTimeout late) s fun t => t.nv.commit = none ∧ t.rb F.NV_COMMIT_STAT_BUSY = false ∧
      t.rb F.NV_COMMIT_STAT_FAIL = true ∧ t.rd F.NV_COMMIT_STAT_CODE = 0x0D ∧ (late.again = true →
      t.erased (plinthAt c.target) 0x1000 = true)) ∧
  (∀ (s : State) (late : FlashLate), ∀ c, s.m.nv.commit = some c → (late.ring = false ∧ ¬(c.phase = 5 ∨ (c.phase = 6 ∧
    c.k ≠ 0))) →
    Completes (.flashTimeout late) s fun t => t.nv.commit = none ∧ t.rb F.NV_COMMIT_STAT_BUSY = false ∧
      t.rb F.NV_COMMIT_STAT_FAIL = true ∧ t.rd F.NV_COMMIT_STAT_CODE = 0x0D ∧
      s.m.Posted t Ev.NV_COMMIT_FAIL c.target (0x0D + c.phase * 2 ^ 8)) ∧
  (∀ (s : State) (late : FlashLate), ∀ x, s.m.nv.acc = some x → late.ring = false ∧ s.m.nv.commit = none ∧ x.op ≠ 0 →
    Completes (.flashTimeout late) s fun t => t.nv.acc = none ∧ t.rb F.NV_ACC_CTRL_BUSY = false ∧
      t.rb F.NV_ACC_CTRL_TIMEOUT = true) ∧
  (∀ (s : State) (late : FlashLate), ∀ c, s.m.nv.commit = some c → (late.ring = false ∧ (c.phase = 5 ∨ (c.phase = 6 ∧
    c.k ≠ 0))) →
    Completes (.flashTimeout late) s fun t => t.nv = s.m.nv ∧ t.flash = s.m.flash ∧ t.regs = s.m.regs) ∧
  (∀ (s : State) (late : FlashLate), ∀ r, s.m.nv.ringOp = some r → late.ring = true →
    Completes (.flashTimeout late) s fun t => t.nv.ringOp = none ∧
      t.flash.filter (fun x => x.1 < r.1 || r.1 + r.2 ≤ x.1) = s.m.flash.filter (fun x => x.1 < r.1 || r.1 + r.2 ≤ x.1)) ∧
  (∀ (s : State), s.m.kn.phase = .run ∧ s.m.rb F.NV_CAL_STAT_PENDING = true ∧ s.m.nv.autoDone = false ∧ s.m.nv.commit = none →
    Completes .autoCalWrite s fun t => t.nv.autoDone = true ∧ t.rb F.NV_COMMIT_STAT_BUSY = true ∧
      t.nv.commit.map (fun c => (c.kind, c.auto_, c.phase)) = some (2, true, 3)) ∧
  (∀ (s : State) (readOk : Bool), ∀ c, s.m.nv.commit = some c → s.m.nv.lost = false ∧ c.kind = 2 →
    Completes (.calWriteDone readOk) s fun t => t.nv.commit = none ∧ t.rb F.NV_COMMIT_STAT_BUSY = false ∧ (if readOk = true ∧
      calOk (fun i => t.flashB (c.off + i)) = true then t.rb F.NV_COMMIT_STAT_DONE = true ∧
      t.rb F.NV_CAL_STAT_PENDING = false else t.rb F.NV_COMMIT_STAT_FAIL = true ∧ t.rd F.NV_COMMIT_STAT_CODE = 0x0C))

/-- Direct flash accesses complete: read, program, erase, their end and the log sector erase. It rests on the model's choices of log
entries 5, 36, 91 and 104. -/
def Obligations.FlashAccessCompletes : Prop :=
  (∀ (s : State), s.m.Takes ⟨.NV_ACC_CTRL, 0, 0⟩ 4 ∧ s.m.accRefused 0 (s.m.rd F.NV_ACC_ADDR_ADDR) = false →
    Completes .nvAccRead s fun t => t.rb F.NV_ACC_CTRL_BUSY = true ∧
      t.nv.acc.map (fun x => (x.op, x.addr)) = some (0, s.m.rd F.NV_ACC_ADDR_ADDR)) ∧
  (∀ (s : State), s.m.Takes ⟨.NV_ACC_CTRL, 0, 0⟩ 4 ∧ s.m.accRefused 0 (s.m.rd F.NV_ACC_ADDR_ADDR) = true →
    Completes .nvAccRead s fun t => t.rb F.NV_ACC_CTRL_REFUSED = true ∧ t.nv = s.m.nv) ∧
  (∀ (s : State), s.m.Takes ⟨.NV_ACC_CTRL, 0, 0⟩ 5 ∧ s.m.accRefused 1 (s.m.rd F.NV_ACC_ADDR_ADDR) = false →
    Completes .nvAccProgram s fun t => t.rb F.NV_ACC_CTRL_BUSY = true ∧
      t.nv.acc.map (fun x => (x.op, x.addr)) = some (1, s.m.rd F.NV_ACC_ADDR_ADDR)) ∧
  (∀ (s : State), s.m.Takes ⟨.NV_ACC_CTRL, 0, 0⟩ 5 ∧ s.m.accRefused 1 (s.m.rd F.NV_ACC_ADDR_ADDR) = true →
    Completes .nvAccProgram s fun t => t.rb F.NV_ACC_CTRL_REFUSED = true ∧ t.nv = s.m.nv) ∧
  (∀ (s : State), s.m.Takes ⟨.NV_ACC_CTRL, 0, 0⟩ 6 ∧ s.m.accRefused 2 (s.m.rd F.NV_ACC_ADDR_ADDR) = false →
    Completes .nvAccErase4k s fun t => t.rb F.NV_ACC_CTRL_BUSY = true ∧
      t.nv.acc.map (fun x => (x.op, x.addr)) = some (2, s.m.rd F.NV_ACC_ADDR_ADDR)) ∧
  (∀ (s : State), s.m.Takes ⟨.NV_ACC_CTRL, 0, 0⟩ 6 ∧ s.m.accRefused 2 (s.m.rd F.NV_ACC_ADDR_ADDR) = true →
    Completes .nvAccErase4k s fun t => t.rb F.NV_ACC_CTRL_REFUSED = true ∧ t.nv = s.m.nv) ∧
  (∀ (s : State), s.m.Takes ⟨.NV_ACC_CTRL, 0, 0⟩ 7 ∧ s.m.accRefused 3 (s.m.rd F.NV_ACC_ADDR_ADDR) = false →
    Completes .nvAccErase64k s fun t => t.rb F.NV_ACC_CTRL_BUSY = true ∧
      t.nv.acc.map (fun x => (x.op, x.addr)) = some (3, s.m.rd F.NV_ACC_ADDR_ADDR)) ∧
  (∀ (s : State), s.m.Takes ⟨.NV_ACC_CTRL, 0, 0⟩ 7 ∧ s.m.accRefused 3 (s.m.rd F.NV_ACC_ADDR_ADDR) = true →
    Completes .nvAccErase64k s fun t => t.rb F.NV_ACC_CTRL_REFUSED = true ∧ t.nv = s.m.nv) ∧
  (∀ (s : State), ∀ x, s.m.nv.acc = some x → s.m.nv.commit = none ∧ s.m.nv.lost = false →
    Completes .nvAccDone s fun t => t.nv.acc = none ∧ t.rb F.NV_ACC_CTRL_BUSY = false ∧ t.rb F.NV_ACC_CTRL_DONE = true ∧
      (x.op = 0 → t.flash = s.m.flash ∧ t.rd F.NV_ACC_DATA_DATA 0 = s.m.flashRead x.addr 4) ∧ (x.op = 1 →
      t.flash = (s.m.flashProgram x.addr (bytesLE 16 x.data)).flash) ∧ (x.op = 2 → t.flash = (s.m.erase x.addr 0x1000).flash) ∧
      (x.op = 3 → t.flash = (s.m.erase x.addr 0x10000).flash)) ∧
  (∀ (s : State), s.m.clk.running = true ∧ s.m.nv.lost = false →
    Completes .logSectorErase s fun t => t.flash = s.m.lgMakeRoom.flash ∧
      t.erased (logSector (s.m.lgSector + 1)) 0x1000 = true ∧ t.erased (logSector (s.m.lgSector + 2)) 0x1000 = true)

/-- Key commands complete: programming, revoking and REQUIRE_SIG. -/
def Obligations.KeyCommandsComplete : Prop :=
  (∀ (s : State) (slot : Fin 4) (guard : BitVec 8), s.m.Takes ⟨.NV_KEY_CMD, 0, 0⟩ (slot.val + 4 + guard.toNat * 2 ^ 8) ∧
    guard = 0xA5 ∧ s.m.keyAllowed = true ∧ vget none s.m.otp.hashes slot.val = none →
    Completes (.keyProgram slot guard) s fun t => t.rb F.NV_KEY_STAT_DONE = true ∧
      vget none t.otp.hashes slot.val = some (((List.range 8).map fun i => s.m.rd F.NV_KEY_DATA_HASH i * 2 ^ (32 * i)).sum) ∧
      t.otp.revoked = s.m.otp.revoked ∧ t.otp.reqSig = s.m.otp.reqSig) ∧
  (∀ (s : State) (slot : Fin 4) (guard : BitVec 8), (s.m.Takes ⟨.NV_KEY_CMD, 0, 0⟩ (slot.val + 4 + guard.toNat * 2 ^ 8) ∧
    guard = 0xA5 ∧ (s.m.keyAllowed = false ∨ (vget none s.m.otp.hashes slot.val).isSome = true)) →
    Completes (.keyProgram slot guard) s fun t => t.rb F.NV_KEY_STAT_FAIL = true ∧ t.otp = s.m.otp) ∧
  (∀ (s : State) (slot : Fin 4) (guard : BitVec 8), s.m.Takes ⟨.NV_KEY_CMD, 0, 0⟩ (slot.val + 8 + guard.toNat * 2 ^ 8) ∧
    guard = 0xA5 ∧ s.m.keyAllowed = true →
    Completes (.keyRevoke slot guard) s fun t => t.rb F.NV_KEY_STAT_DONE = true ∧
      t.otp = { s.m.otp with revoked := s.m.otp.revoked ||| 2 ^ slot.val }) ∧
  (∀ (s : State) (guard : BitVec 8), s.m.Takes ⟨.NV_KEY_CMD, 0, 0⟩ (12 + guard.toNat * 2 ^ 8) ∧ guard = 0xA5 ∧
    s.m.keyAllowed = true →
    Completes (.keyRequireSig guard) s fun t => t.rb F.NV_KEY_STAT_DONE = true ∧ t.otp = { s.m.otp with reqSig := true }) ∧
  (∀ (s : State) (slot : Fin 4) (guard : BitVec 8), s.m.Takes ⟨.NV_KEY_CMD, 0, 0⟩ (slot.val + 4 + guard.toNat * 2 ^ 8) ∧
    guard ≠ 0xA5 →
    Completes (.keyProgram slot guard) s fun t => t.otp = s.m.otp) ∧
  (∀ (s : State) (slot : Fin 4) (guard : BitVec 8), (s.m.Takes ⟨.NV_KEY_CMD, 0, 0⟩ (slot.val + 8 + guard.toNat * 2 ^ 8) ∧
    (guard ≠ 0xA5 ∨ s.m.keyAllowed = false)) →
    Completes (.keyRevoke slot guard) s fun t => t.otp = s.m.otp) ∧
  (∀ (s : State) (guard : BitVec 8), (s.m.Takes ⟨.NV_KEY_CMD, 0, 0⟩ (12 + guard.toNat * 2 ^ 8) ∧
    (guard ≠ 0xA5 ∨ s.m.keyAllowed = false)) →
    Completes (.keyRequireSig guard) s fun t => t.otp = s.m.otp)

/-- Axis control strobes complete: enable, disable, ESTOP, MAQUETTE, retarget, soft limits and latch clears. It rests on the model's
choices of log entries 77, 78 and 113. -/
def Obligations.AxisControlCompletes : Prop :=
  (∀ (s : State) (n : Fin 48), s.m.Takes ⟨.AX_CTRL, n.val, 0⟩ 1 ∧ (s.m.ax n.val).mode = .off ∧ s.m.enableRefused n.val = false →
    Completes (.axCtrlEnable n) s fun t => (t.ax n.val).mode = .arming ∧ (t.ax n.val).arming0 = s.m.clk.tick ∧
      t.rings.evtWr = s.m.rings.evtWr) ∧
  (∀ (s : State) (n : Fin 48), (s.m.Takes ⟨.AX_CTRL, n.val, 0⟩ 1 ∧
    ((s.m.ax n.val).eff ≠ .off ∨ s.m.enableRefused n.val = true)) →
    Completes (.axCtrlEnable n) s fun t => t.rb F.AX_FAULT_CTRL_IGNORED n.val = true ∧ t.ax n.val = s.m.ax n.val) ∧
  (∀ (s : State) (n : Fin 48), s.m.Takes ⟨.AX_CTRL, n.val, 0⟩ 2 ∧ (s.m.ax n.val).mode ≠ .off ∧ (s.m.ax n.val).mode ≠ .maquette →
    Completes (.axCtrlDisable n) s fun t => (t.ax n.val).mode = .off ∧ (t.ax n.val).seg = none ∧ (t.ax n.val).cmds = [] ∧
      (t.ax n.val).follow = none ∧ (t.ax n.val).cur = (s.m.ax n.val).cur ∧ (s.m.energised n.val = true →
      (t.ax n.val).posUnc = true)) ∧
  (∀ (s : State) (n : Fin 48), s.m.Takes ⟨.AX_CTRL, n.val, 0⟩ 2 ∧ (s.m.ax n.val).mode = .off →
    Completes (.axCtrlDisable n) s fun t => t.rb F.AX_FAULT_CTRL_IGNORED n.val = true ∧ t.ax n.val = s.m.ax n.val) ∧
  (∀ (s : State) (n : Fin 48), s.m.Takes ⟨.AX_CTRL, n.val, 0⟩ 4 ∧ s.m.stoppable n.val = true ∧ (s.m.ax n.val).mode ≠ .maquette ∧
    (s.m.ax n.val).group = none →
    Completes (.axCtrlEstop n) s fun t => (t.ax n.val).mode = .estop ∧ t.rd F.AX_FAULT_ESTOP_CAUSE n.val = 1 ∧
      t.rb F.AX_FAULT_ESTOPPED n.val = true ∧ (t.ax n.val).eb = some t.safeBoundary ∧ s.m.Posted t Ev.AX_ESTOP n.val 1) ∧
  (∀ (s : State) (n : Fin 48), s.m.Takes ⟨.AX_CTRL, n.val, 0⟩ 4 ∧ (s.m.ax n.val).mode = .off →
    Completes (.axCtrlEstop n) s fun t => t.rb F.AX_FAULT_CTRL_IGNORED n.val = true ∧ t.ax n.val = s.m.ax n.val) ∧
  (∀ (s : State) (n : Fin 48), s.m.Takes ⟨.AX_CTRL, n.val, 0⟩ 8 ∧ (s.m.ax n.val).mode = .off →
    Completes (.axCtrlMaqEnter n) s fun t => (t.ax n.val).mode = .maquette ∧ (t.ax n.val).sub = .off ∧
      s.m.Posted t Ev.AX_MAQ_ENTER n.val 0) ∧
  (∀ (s : State) (n : Fin 48), s.m.Takes ⟨.AX_CTRL, n.val, 0⟩ 8 ∧ (s.m.ax n.val).mode ≠ .off →
    Completes (.axCtrlMaqEnter n) s fun t => t.rb F.AX_FAULT_CTRL_IGNORED n.val = true ∧ t.ax n.val = s.m.ax n.val) ∧
  (∀ (s : State) (n : Fin 48), s.m.Takes ⟨.AX_CTRL, n.val, 0⟩ 16 ∧ (s.m.ax n.val).mode = .maquette →
    Completes (.axCtrlMaqExit n) s fun t => (t.ax n.val).mode = .off ∧ (t.ax n.val).posUnc = true ∧ (t.ax n.val).cmds = [] ∧
      s.m.Posted t Ev.AX_MAQ_EXIT n.val (s.m.ax n.val).sub.code) ∧
  (∀ (s : State) (n : Fin 48), s.m.Takes ⟨.AX_CTRL, n.val, 0⟩ 16 ∧ (s.m.ax n.val).mode ≠ .maquette →
    Completes (.axCtrlMaqExit n) s fun t => t.rb F.AX_FAULT_CTRL_IGNORED n.val = true ∧ t.ax n.val = s.m.ax n.val) ∧
  (∀ (s : State) (n : Fin 48) (w : Word), s.m.Takes ⟨.AX_RETGT, n.val, 0⟩ w.toNat →
    Completes (.axRetgt n w) s fun t => (t.ax n.val).retgt = some (BitVec.ofNat 128 (w.toNat &&& Reg.AX_RETGT.desc.rwBits))) ∧
  (∀ (s : State) (n : Fin 48) (enable : Bool) (w : Word), s.m.Takes ⟨.AX_SLIM, n.val, 0⟩ w.toNat ∧ s.m.lockBits = 0 →
    Completes (.axSlim n enable w) s fun t => t.reg .AX_SLIM n.val 0 = w.toNat ∧
      bitsOf (t.reg .AX_CFG n.val 0) F.AX_CFG_SLIM_EN.lo 1 = b2n enable ∧ (t.ax n.val).slimCheck = true) ∧
  (∀ (s : State) (n : Fin 48) (a : Bool) (b : Bool), s.m.Takes ⟨.AX_LIM_STAT, n.val, 0⟩ (4 * b2n a + 8 * b2n b) →
    Completes (.limLatchClear n a b) s fun t => (a = true ∧ s.m.limActive n.val false = false →
      t.rb F.AX_LIM_STAT_LATCH_A n.val = false) ∧ (b = true ∧ s.m.limActive n.val true = false →
      t.rb F.AX_LIM_STAT_LATCH_B n.val = false) ∧ ((a = true ∧ s.m.limActive n.val false = true) ∨ (b = true ∧
      s.m.limActive n.val true = true) → t.rb F.AX_LIM_STAT_CLR_REFUSED n.val = true))

/-- Tick and slot events complete: the tick, the slot, arming, standstill, limits, homing references and retry. It rests on the
model's choices of log entries 5, 6, 9, 21, 27 and 112. -/
def Obligations.AxisSlotEventsComplete : Prop :=
  (∀ (s : State) (lv : TickInputs), s.m.clk.running = true →
    Completes (.tick lv) s fun t => t.clk.tick = s.m.clk.tick + 1 ∧ t.clk.sub = 0 ∧ t.clk.running = true ∧
      t.snapIn = s.m.filterLevels lv.now lv.held ∧
      t.clk.hours = (s.m.clk.hours + (if (s.m.clk.tick + 1) % 50000 = 0 then 1 else 0)) % 2 ^ 32) ∧
  (∀ (s : State) (lv : TickInputs), s.m.clk.running = false →
    Completes (.tick lv) s fun t => t.clk.tick = s.m.clk.tick ∧ t.clk.running = false ∧ (s.m.sampled = false → t.inp = s.m.inp)) ∧
  (∀ (s : State) (n : Fin 48) (camMissing : Bool), s.m.engineDown (n.val / 6) = false ∧ s.m.fm.owed.contains n.val = false ∧
    s.m.clk.running = true ∧ s.m.dbgHalt = false ∧ s.m.gasp = false →
    Completes (.axisSlot n camMissing) s fun t => (t.ax n.val).pubd = true ∧ (t.ax n.val).toTake = [] ∧
      (t.ax n.val).retgt = none ∧ (t.ax n.val).fbEngage = none ∧ (t.ax n.val).slimCheck = false) ∧
  (∀ (s : State) (n : Fin 48) (camMissing : Bool), s.m.engineDown (n.val / 6) = false ∧ s.m.fm.owed.contains n.val = true ∧
    s.m.clk.running = true ∧ s.m.dbgHalt = false ∧ s.m.gasp = false →
    Completes (.axisSlot n camMissing) s fun t => t.fm.owed.contains n.val = false ∧ (t.ax n.val).cur = (s.m.ax n.val).cur ∧
      (t.ax n.val).nxt = (s.m.ax n.val).nxt) ∧
  (∀ (s : State) (n : Fin 48) (camMissing : Bool), (s.m.engineDown (n.val / 6) = true ∨ s.m.clk.running = false ∨ s.m.dbgHalt = true ∨ s.m.gasp = true) →
    Completes (.axisSlot n camMissing) s fun t => t.axes = s.m.axes ∧ t.regs = s.m.regs) ∧
  (∀ (s : State) (n : Fin 48) (found : ArmingTest), ((s.m.ax n.val).mode = .arming ∧
    (s.m.untested n.val = false ∨ (found.bridgeOk = true ∧ (s.m.motorChar n.val found.motor).2 = none))) →
    Completes (.armingComplete n found) s fun t => (t.ax n.val).mode = .hold ∧ (t.ax n.val).redDone = true ∧
      t.untested n.val = false ∧ s.m.Posted t Ev.AX_ARMED n.val (s.m.iHold n.val)) ∧
  (∀ (s : State) (n : Fin 48) (found : ArmingTest), ((s.m.ax n.val).mode = .arming ∧ s.m.untested n.val = true ∧
    (found.bridgeOk = false ∨ (s.m.motorChar n.val found.motor).2 ≠ none)) →
    Completes (.armingComplete n found) s fun t => (t.ax n.val).mode = .off ∧ (t.ax n.val).posUnc = true ∧
      s.m.Posted t Ev.AX_DISABLED n.val 1) ∧
  (∀ (s : State) (n : Fin 48), (s.m.ax n.val).mode = .hold ∧ (s.m.ax n.val).still.isSome = true ∧
    (s.m.ax n.val).redDone = false ∧ (s.m.ax n.val).ramp0 = none ∧ (s.m.ax n.val).keepRun = false →
    Completes (.standstillRamp n) s fun t => (t.ax n.val).ramp0 = some s.m.clk.tick) ∧
  (∀ (s : State) (n : Fin 48) (sideB : Bool), (s.m.rb (if sideB then F.AX_LIM_CFG_EN_B else F.AX_LIM_CFG_EN_A) n.val = true ∧
    s.m.limIsRef n.val sideB = false ∧ (s.m.ax n.val).eff = .hold) →
    Completes (.limitActive n sideB) s fun t => t.limActive n.val sideB = true ∧
      t.rb (if sideB then F.AX_LIM_STAT_LATCH_B else F.AX_LIM_STAT_LATCH_A) n.val = true ∧
      t.rd F.AX_LIM_STAT_CNT n.val = satInc (2 ^ F.AX_LIM_STAT_CNT.width - 1) (s.m.rd F.AX_LIM_STAT_CNT n.val)) ∧
  (∀ (s : State) (n : Fin 48) (sideB : Bool), (s.m.rb (if sideB then F.AX_LIM_CFG_EN_B else F.AX_LIM_CFG_EN_A) n.val = false) →
    Completes (.limitActive n sideB) s fun t => t.limActive n.val sideB = true ∧ t.regs = s.m.regs) ∧
  (∀ (s : State) (n : Fin 48) (ts : BitVec 48), ∀ h, (s.m.ax n.val).home = some h → (h.failCode = 0 ∧ h.stopDue = false ∧
    h.step = 4 ∧ (h.method = 1 ∨ h.method = 2)) →
    Completes (.homeReference n ts) s fun t => (t.ax n.val).home = some { h with captured := true, stopDue := true }) ∧
  (∀ (s : State) (n : Fin 48) (ts : BitVec 48), ∀ h, (s.m.ax n.val).home = some h → h.failCode = 0 ∧ h.stopDue = false ∧
    h.step = 5 →
    Completes (.homeReference n ts) s fun t => (t.ax n.val).home = some { h with captured := true, stopDue := true } ∧
      t.rd F.AX_HOME_CAP_TS n.val = ts.toNat) ∧
  (∀ (s : State) (n : Fin 48) (ts : BitVec 48), ∀ h, (s.m.ax n.val).home = some h → h.failCode = 0 ∧ h.stopDue = false ∧
    h.step = 1 →
    Completes (.homeReference n ts) s fun t => (t.ax n.val).home = some { h with captured := false, stopDue := true }) ∧
  (∀ (s : State) (n : Fin 48) (ts : BitVec 48), (s.m.ax n.val).home = none →
    Completes (.homeReference n ts) s fun t => t.axes = s.m.axes ∧ t.regs = s.m.regs) ∧
  (∀ (s : State) (n : Fin 48), ∀ g, (s.m.ax n.val).retry.goal = some g → (s.m.ax n.val).retry.waiting = true ∧
    (s.m.ax n.val).seg = none →
    Completes (.retryResume n) s fun t => (t.ax n.val).retry.waiting = false ∧ (t.ax n.val).seg.isSome = true ∧
      (t.ax n.val).eff = .move ∧ t.rb F.LA_AX_STAT_RETRYING (n.val / 12) (n.val % 12) = false)

/-- Registration marks, coil computations, harmonic accesses and abort inputs complete. It rests on the model's choices of log
entries 5, 9 and 75. -/
def Obligations.CoilAndMarkEventsComplete : Prop :=
  (∀ (s : State) (r : Fin 4) (ts : BitVec 48), s.m.regActive r.val = false →
    Completes (.regMark r ts) s fun t => t.regchans = s.m.regchans ∧ t.regs = s.m.regs) ∧
  (∀ (s : State) (r : Fin 4) (ts : BitVec 48), s.m.regActive r.val = true ∧
    (s.m.regSource r.val ts.toNat (s.m.giDelay (s.m.rd F.GR_REG_CFG_GI r.val))).2 ≤ 0 →
    Completes (.regMark r ts) s fun t => t.rb F.GR_REG_STAT_OUTSIDE r.val = true ∧ t.regchans = s.m.regchans) ∧
  (∀ (s : State) (r : Fin 4) (ts : BitVec 48), s.m.regActive r.val = true ∧
    0 < (s.m.regSource r.val ts.toNat (s.m.giDelay (s.m.rd F.GR_REG_CFG_GI r.val))).2 ∧
    ofFixed 8 (s.m.rd F.GR_REG_GEOM_WIN r.val : Nat) < ratAbs (wrapPos ((s.m.regSource r.val ts.toNat (s.m.giDelay (s.m.rd F.GR_REG_CFG_GI r.val))).1 - posOf (s.m.rd F.GR_REG_EXP_EXP r.val))) →
    Completes (.regMark r ts) s fun t => t.rb F.GR_REG_STAT_OUTSIDE r.val = true ∧ t.regchans = s.m.regchans) ∧
  (∀ (s : State) (r : Fin 4) (ts : BitVec 48), s.m.regActive r.val = true ∧
    0 < (s.m.regSource r.val ts.toNat (s.m.giDelay (s.m.rd F.GR_REG_CFG_GI r.val))).2 ∧
    ratAbs (wrapPos ((s.m.regSource r.val ts.toNat (s.m.giDelay (s.m.rd F.GR_REG_CFG_GI r.val))).1 - posOf (s.m.rd F.GR_REG_EXP_EXP r.val))) ≤ ofFixed 8 (s.m.rd F.GR_REG_GEOM_WIN r.val : Nat) ∧
    (s.m.ax (s.m.rd F.GR_REG_CFG_AXIS r.val)).eff ≠ .follow →
    Completes (.regMark r ts) s fun t =>
      t.rd F.GR_REG_EXP_EXP r.val = (s.m.rd F.GR_REG_EXP_EXP r.val + s.m.rd F.GR_REG_GEOM_PITCH r.val) % 2 ^ F.GR_REG_EXP_EXP.width ∧
      t.rd F.GR_REG_STAT_MISSES r.val = 0 ∧
      t.rd F.GR_REG_STAT_MARKS r.val = (s.m.rd F.GR_REG_STAT_MARKS r.val + 1) % 2 ^ F.GR_REG_STAT_MARKS.width ∧
      t.rdS F.GR_REG_ERR_ERR r.val = satSigned 32 (toFixed 8 (wrapPos ((s.m.regSource r.val ts.toNat (s.m.giDelay (s.m.rd F.GR_REG_CFG_GI r.val))).1 - posOf (s.m.rd F.GR_REG_EXP_EXP r.val)))) ∧
      t.rb F.GR_REG_STAT_IDLE r.val = true ∧ t.regchans = s.m.regchans) ∧
  (∀ (s : State) (r : Fin 4) (ts : BitVec 48), s.m.regActive r.val = true ∧
    0 < (s.m.regSource r.val ts.toNat (s.m.giDelay (s.m.rd F.GR_REG_CFG_GI r.val))).2 ∧
    ratAbs (wrapPos ((s.m.regSource r.val ts.toNat (s.m.giDelay (s.m.rd F.GR_REG_CFG_GI r.val))).1 - posOf (s.m.rd F.GR_REG_EXP_EXP r.val))) ≤ ofFixed 8 (s.m.rd F.GR_REG_GEOM_WIN r.val : Nat) ∧
    (s.m.ax (s.m.rd F.GR_REG_CFG_AXIS r.val)).eff = .follow →
    Completes (.regMark r ts) s fun t =>
      t.rd F.GR_REG_EXP_EXP r.val = (s.m.rd F.GR_REG_EXP_EXP r.val + s.m.rd F.GR_REG_GEOM_PITCH r.val) % 2 ^ F.GR_REG_EXP_EXP.width ∧
      t.rd F.GR_REG_STAT_MISSES r.val = 0 ∧
      t.rd F.GR_REG_STAT_MARKS r.val = (s.m.rd F.GR_REG_STAT_MARKS r.val + 1) % 2 ^ F.GR_REG_STAT_MARKS.width ∧
      t.rdS F.GR_REG_ERR_ERR r.val = satSigned 32 (toFixed 8 (wrapPos ((s.m.regSource r.val ts.toNat (s.m.giDelay (s.m.rd F.GR_REG_CFG_GI r.val))).1 - posOf (s.m.rd F.GR_REG_EXP_EXP r.val)))) ∧
      (t.regch r.val).pending = (s.m.regch r.val).pending + ratMax (- ofFixed 8 (s.m.rd F.GR_REG_GEOM_CMAX r.val : Nat)) (ratMin (ofFixed 8 (s.m.rd F.GR_REG_GEOM_CMAX r.val : Nat)) (ofFixed 12 (s.m.rdS F.GR_REG_GAIN_GAIN r.val) * (wrapPos ((s.m.regSource r.val ts.toNat (s.m.giDelay (s.m.rd F.GR_REG_CFG_GI r.val))).1 - posOf (s.m.rd F.GR_REG_EXP_EXP r.val)))))) ∧
  (∀ (s : State) (k : Fin 96) (at_ : CoilAt), s.m.repeating k.val = false ∧ s.m.regDown (k.val / 24) = false ∧
    s.m.gasp = false ∧ s.m.regOn (k.val / 2) = false →
    Completes (.coilCompute k at_) s fun t => (t.coil k.val).on = false ∧ (t.coil k.val).shadow = .coast ∧
      (t.coil k.val).fresh = true) ∧
  (∀ (s : State) (k : Fin 96) (at_ : CoilAt), s.m.repeating k.val = false ∧ s.m.regDown (k.val / 24) = false ∧ s.m.gasp = false ∧ s.m.regOn (k.val / 2) = true → Completes (.coilCompute k at_) s fun t => (t.coil k.val).on = true ∧ (t.coil k.val).fresh = true ∧ (t.coil k.val).shTag.u = (t.coil k.val).u ∧ (t.coil k.val).shTag.level = (t.coil k.val).level ∧ (t.coil k.val).shTag.strong = (t.coil k.val).strong ∧ (match (t.coil k.val).shadow with | .strong neg thr _ => (t.coil k.val).strong && (neg == decide ((t.coil k.val).shTag.tgt < 0)) && (thr == min (t.coil k.val).shTag.tgt.natAbs (s.m.ilim k.val)) | .quiet _ => !(t.coil k.val).strong | .coast => false) = true) ∧
  (∀ (s : State) (k : Fin 96) (at_ : CoilAt), s.m.repeating k.val = false ∧ s.m.regDown (k.val / 24) = false ∧
    s.m.gasp = false ∧ s.m.regOn (k.val / 2) = true ∧ (s.m.coil k.val).on = false ∧ at_.tph.toNat < 4000 →
    Completes (.coilCompute k at_) s fun t =>
      (t.coil k.val).aPrev = (toFixed 24 (s.m.ax (k.val / 2)).cur.p + toFixed 24 (cmdVel (s.m.ax (k.val / 2)).cur.v * (((at_.tph.toNat : Nat) : Rat) / 200000000)) + (s.m.rd F.AX_COMM_OFS_OFS (k.val / 2) : Nat)) ∧
      (t.coil k.val).level = (s.m.ax (k.val / 2)).curReq.level ∧
      (t.coil k.val).u = usedAddr (s.m.ax (k.val / 2)).curReq.level (toFixed 24 (s.m.ax (k.val / 2)).cur.p + toFixed 24 (cmdVel (s.m.ax (k.val / 2)).cur.v * (((at_.tph.toNat : Nat) : Rat) / 200000000)) + (s.m.rd F.AX_COMM_OFS_OFS (k.val / 2) : Nat)) ∧
      (t.coil k.val).strong = (s.m.ax (k.val / 2)).curReq.strong ∧ (t.coil k.val).slew = none) ∧
  (∀ (s : State) (k : Fin 96) (at_ : CoilAt), (s.m.repeating k.val = true ∨ s.m.regDown (k.val / 24) = true ∨ s.m.gasp = true) →
    Completes (.coilCompute k at_) s fun t => t.coils = s.m.coils ∧ t.regs = s.m.regs ∧ t.obs = s.m.obs) ∧
  (∀ (s : State) (n : Fin 48) (isWrite : Bool) (v : BitVec 32), isWrite = true ∧ s.m.Takes ⟨.AX_HARM_DATA, n.val, 0⟩ v.toNat →
    Completes (.axHarmData n isWrite v) s fun t =>
      t.rd F.AX_HARM_SEL_BIN n.val = (s.m.rd F.AX_HARM_SEL_BIN n.val + 1) % 2 ^ F.AX_HARM_SEL_BIN.width ∧
      vget 0 t.harm n.val = (if s.m.rb F.AX_COMM_CFG_LEARN n.val then vget 0 s.m.harm n.val else putBits (vget 0 s.m.harm n.val) (32 * s.m.rd F.AX_HARM_SEL_BIN n.val) 32 v.toNat)) ∧
  (∀ (s : State) (n : Fin 48) (isWrite : Bool) (v : BitVec 32), isWrite = false ∧
    s.m.regAnswers ⟨.AX_HARM_DATA, n.val, 0⟩ = true →
    Completes (.axHarmData n isWrite v) s fun t =>
      bitsOf t.readData.toNat 0 32 = bitsOf (vget 0 s.m.harm n.val) (32 * s.m.rd F.AX_HARM_SEL_BIN n.val) 32 ∧
      t.rd F.AX_HARM_SEL_BIN n.val = (s.m.rd F.AX_HARM_SEL_BIN n.val + 1) % 2 ^ F.AX_HARM_SEL_BIN.width ∧ t.harm = s.m.harm) ∧
  (∀ (s : State) (k : Fin 4), ∀ qs, s.m.abortSet (s.m.rd F.Q_ABIN_SCOPE k.val) (s.m.rd F.Q_ABIN_INDEX k.val) = some qs →
    (s.m.gasp = false ∧ s.m.rb F.Q_ABIN_EN k.val = true ∧ s.m.clk.running = false ∧ s.m.NoAbort ∧
    (∀ q ∈ qs, (s.m.qu q).st ≠ .aborting)) →
    Completes (.abortInput k) s fun t => (∀ q ∈ qs, (t.qu q).published = [] ∧ (t.qu q).staged = [] ∧ (t.qu q).inflight = [] ∧
      (t.qu q).stack = [.ring] ∧ (t.qu q).abort = none ∧ t.rb F.Q_STATUS_ABORT_DONE q = true ∧
      (t.qu q).st = (if s.m.rb F.Q_ABIN_HALT k.val = true ∨ s.m.rb F.Q_CFG_ABORT_HALT q = true then .halted else .idle))) ∧
  (∀ (s : State) (k : Fin 4), ∀ qs, s.m.abortSet (s.m.rd F.Q_ABIN_SCOPE k.val) (s.m.rd F.Q_ABIN_INDEX k.val) = some qs →
    (s.m.gasp = false ∧ s.m.rb F.Q_ABIN_EN k.val = true ∧ s.m.clk.running = true ∧ s.m.NoAbort ∧
    (∀ q ∈ qs, (s.m.qu q).st ≠ .aborting)) →
    Completes (.abortInput k) s fun t => (∀ q ∈ qs, (t.qu q).published = [] ∧ (t.qu q).staged = [] ∧ (t.qu q).inflight = [] ∧
      (t.qu q).stack = [.ring] ∧ (((t.qu q).st = .aborting ∧
      (t.qu q).abort.map (fun r => (r.tag, r.scope, r.halt)) = some (0xFF00 + k.val, s.m.rd F.Q_ABIN_SCOPE k.val, s.m.rb F.Q_ABIN_HALT k.val)) ∨ ((t.qu q).abort = none ∧
      t.rb F.Q_STATUS_ABORT_DONE q = true ∧
      (t.qu q).st = (if s.m.rb F.Q_ABIN_HALT k.val = true ∨ s.m.rb F.Q_CFG_ABORT_HALT q = true then .halted else .idle))))) ∧
  (∀ (s : State) (k : Fin 4), s.m.gasp = false ∧ s.m.rb F.Q_ABIN_EN k.val = true ∧ s.m.NoAbort ∧
    s.m.abortSet (s.m.rd F.Q_ABIN_SCOPE k.val) (s.m.rd F.Q_ABIN_INDEX k.val) = none →
    Completes (.abortInput k) s fun t => t.rb F.Q_UNIT_STAT_ABORT_BAD = true ∧ t.queues = s.m.queues ∧ t.axes = s.m.axes) ∧
  (∀ (s : State) (k : Fin 4), (s.m.rb F.Q_ABIN_EN k.val = false) ∧ s.m.NoAbort →
    Completes (.abortInput k) s fun t => t.queues = s.m.queues ∧ t.axes = s.m.axes)

/-- Queue waits complete: they dispatch, end or time out. It rests on the model's choices of log entries 6, 8 and 29. -/
def Obligations.QueueWaitsComplete : Prop :=
  (∀ (s : State) (q : Fin 64) (c : CmdArgs), s.m.Ready q.val (cmdWord 0x20 c) →
    Completes (.waitInput q c) s fun t =>
      (t.qu q.val).inflight.map (fun e => (e.w, e.wait.isSome, e.done)) = [((cmdWord 0x20 c), true, none)] ∧ t.Popped q.val s.m) ∧
  (∀ (s : State) (q : Fin 64) (c : CmdArgs), s.m.Ready q.val (cmdWord 0x21 c) →
    Completes (.waitTime q c) s fun t =>
      (t.qu q.val).inflight.map (fun e => (e.w, e.wait.isSome, e.done)) = [((cmdWord 0x21 c), true, none)] ∧ t.Popped q.val s.m) ∧
  (∀ (s : State) (q : Fin 64) (c : CmdArgs), s.m.Ready q.val (cmdWord 0x22 c) →
    Completes (.waitQueue q c) s fun t =>
      (t.qu q.val).inflight.map (fun e => (e.w, e.wait.isSome, e.done)) = [((cmdWord 0x22 c), true, none)] ∧ t.Popped q.val s.m) ∧
  (∀ (s : State) (q : Fin 64) (c : CmdArgs), s.m.Ready q.val (cmdWord 0x23 c) →
    Completes (.waitPos q c) s fun t =>
      (t.qu q.val).inflight.map (fun e => (e.w, e.wait.isSome, e.done)) = [((cmdWord 0x23 c), true, none)] ∧ t.Popped q.val s.m) ∧
  (∀ (s : State) (q : Fin 64), ∀ r, (s.m.qu q.val).abort = some r → ((∀ k : Fin 64, k.val ≠ q.val → (s.m.qu k).abort = none) ∧
    (s.m.clk.running = false ∨ s.m.abortAt r ≤ s.m.absNow) ∧ (s.m.qu q.val).inflight = [] ∧ (s.m.qu q.val).published = [] ∧
    (s.m.qu q.val).staged = [] ∧ (s.m.qu q.val).stack = [.ring]) →
    Completes (.waitTimeout q) s fun t => (t.qu q.val).abort = none ∧ t.rb F.Q_STATUS_ABORT_DONE q.val = true ∧
      (t.qu q.val).st = (if r.halt = true ∨ s.m.rb F.Q_CFG_ABORT_HALT q.val = true then .halted else .idle)) ∧
  (∀ (s : State) (q : Fin 64), ∀ e, (s.m.qu q.val).inflight.head? = some e → ∀ wt, e.wait = some wt → (s.m.NoAbort ∧
    (s.m.qu q.val).inflight = [e] ∧ e.done = none ∧ opcOf e.w ≠ 0x21 ∧
    (wt.dueTick.map fun d => decide (d ≤ s.m.clk.tick)) = some true) →
    Completes (.waitTimeout q) s fun t => t.DoneAs q.val e.w 0x02 ∧ (t.qu q.val).inflight = []) ∧
  (∀ (s : State), (s.m.NoAbort ∧ s.m.unitRuns = true ∧ (∀ q : Fin 64, (s.m.qu q).inflight = [] ∧ (s.m.qu q).st = .idle ∧
    (s.m.qu q).published = [] ∧ (s.m.qu q).stack = [.ring])) →
    Completes .queueDispatch s fun t => t.queues = s.m.queues ∧ t.rings = s.m.rings ∧ t.axes = s.m.axes) ∧
  (∀ (s : State) (q : Fin 64) (w : Word), (s.m.Ready q.val w ∧ opcOf w = 0x7F ∧ (s.m.qu q.val).published.head? = some w ∧
    (s.m.qu q.val).stack = [.ring] ∧ (∀ k : Fin 64, k.val ≠ q.val → (s.m.qu k).inflight = [] ∧ (s.m.qu k).st = .idle)) →
    Completes .queueDispatch s fun t => t.DoneAs q.val w 0x00 ∧ t.Popped q.val s.m) ∧
  (∀ (s : State) (q : Fin 64) (e : InFlight) (wt : Wait) (d : Nat), (s.m.NoAbort ∧ s.m.unitRuns = true ∧ e.done = none ∧
    e.wait = some wt ∧ opcOf e.w = 0x21 ∧ wt.dueTick = some d ∧ d ≤ s.m.clk.tick ∧ (s.m.qu q.val).inflight = [e] ∧
    (s.m.qu q.val).published = [] ∧ (s.m.qu q.val).stack = [.ring] ∧ (∀ k : Fin 64, k.val ≠ q.val → (s.m.qu k).inflight = [] ∧
    (s.m.qu k).st = .idle)) →
    Completes .queueDispatch s fun t => t.DoneAs q.val e.w 0x00 ∧ (t.qu q.val).inflight = []) ∧
  (∀ (s : State), s.m.unitRuns = false →
    Completes .queueDispatch s fun t => t.queues = s.m.queues ∧ t.vmasters = s.m.vmasters ∧ t.regs = s.m.regs)

/-- Routine commands complete: jump, call, return, loop, end, signal, NOP and the routine fetch. It rests on the model's choices of
log entries 8, 30 and 117. -/
def Obligations.QueueFlowCommandsComplete : Prop :=
  (∀ (s : State) (q : Fin 64) (c : CmdArgs), s.m.Ready q.val (cmdWord 0x40 c) ∧ (s.m.qu q.val).inRoutine = true →
    Completes (.jumpCmd q c) s fun t => t.DoneAs q.val (cmdWord 0x40 c) 0x00 ∧ (t.qu q.val).inflight = [] ∧
      (t.qu q.val).frame.pc = (if s.m.jumps q.val (cmdWord 0x40 c) then (s.m.resolve q.val (targetOf172 c.p0.toNat)).map (·.1) else (s.m.qu q.val).frame.pc.map (· + 16))) ∧
  (∀ (s : State) (q : Fin 64) (c : CmdArgs), s.m.Ready q.val (cmdWord 0x41 c) →
    Completes (.callCmd q c) s fun t => t.DoneAs q.val (cmdWord 0x41 c) 0x00 ∧ (t.qu q.val).inflight = [] ∧
      (t.qu q.val).stack.length = (s.m.qu q.val).stack.length + 1 ∧
      (t.qu q.val).frame.pc = (s.m.resolve q.val (targetOf172 c.p0.toNat)).map (·.1)) ∧
  (∀ (s : State) (q : Fin 64) (c : CmdArgs), s.m.Ready q.val (cmdWord 0x42 c) ∧ (s.m.qu q.val).inRoutine = true →
    Completes (.returnCmd q c) s fun t => t.DoneAs q.val (cmdWord 0x42 c) 0x00 ∧
      (t.qu q.val).stack = (if (s.m.qu q.val).stack.length ≤ 1 then [.ring] else (s.m.qu q.val).stack.drop 1)) ∧
  (∀ (s : State) (q : Fin 64) (c : CmdArgs), s.m.Ready q.val (cmdWord 0x42 c) ∧ (s.m.qu q.val).stack = [.ring] →
    Completes (.returnCmd q c) s fun t => t.DoneAs q.val (cmdWord 0x42 c) 0x82 ∧ t.Popped q.val s.m) ∧
  (∀ (s : State) (q : Fin 64) (c : CmdArgs), s.m.Ready q.val (cmdWord 0x43 c) ∧ (s.m.qu q.val).inRoutine = true ∧
    bitsOf c.p1.toNat 0 24 = 0 →
    Completes (.loopCmd q c) s fun t => t.DoneAs q.val (cmdWord 0x43 c) 0x00 ∧ (t.qu q.val).inflight = [] ∧
      (t.qu q.val).frame.pc = (s.m.resolve q.val (targetOf172 c.p0.toNat)).map (·.1)) ∧
  (∀ (s : State) (q : Fin 64) (c : CmdArgs), s.m.Ready q.val (cmdWord 0x43 c) ∧ (s.m.qu q.val).inRoutine = true ∧
    bitsOf c.p1.toNat 24 2 = 0 ∧ 1 < bitsOf c.p1.toNat 0 24 ∧ (s.m.qu q.val).frame.c0 = 0 →
    Completes (.loopCmd q c) s fun t => t.DoneAs q.val (cmdWord 0x43 c) 0x00 ∧ (t.qu q.val).inflight = [] ∧
      (t.qu q.val).frame.pc = (s.m.resolve q.val (targetOf172 c.p0.toNat)).map (·.1)) ∧
  (∀ (s : State) (q : Fin 64) (c : CmdArgs), s.m.Ready q.val (cmdWord 0x43 c) ∧ (s.m.qu q.val).inRoutine = true ∧
    bitsOf c.p1.toNat 24 2 = 0 ∧ bitsOf c.p1.toNat 0 24 ≠ 0 ∧ (s.m.qu q.val).frame.c0 = 1 →
    Completes (.loopCmd q c) s fun t => t.DoneAs q.val (cmdWord 0x43 c) 0x00 ∧ (t.qu q.val).inflight = [] ∧
      (t.qu q.val).frame.pc = (s.m.qu q.val).frame.pc.map (· + 16) ∧ (t.qu q.val).frame.c0 = 0) ∧
  (∀ (s : State) (q : Fin 64) (c : CmdArgs), s.m.Ready q.val (cmdWord 0x44 c) →
    Completes (.signalCmd q c) s fun t => t.DoneAs q.val (cmdWord 0x44 c) 0x00 ∧ (t.qu q.val).inflight = [] ∧
      t.rd F.Q_SIGNAL_VALUE q.val = bitsOf c.p0.toNat 0 16 ∧
      t.rd F.Q_SIGNAL_CNT q.val = (s.m.rd F.Q_SIGNAL_CNT q.val + 1) % 2 ^ 16 ∧ t.rb F.Q_IRQ_SIGNAL = true) ∧
  (∀ (s : State) (q : Fin 64) (c : CmdArgs), s.m.Ready q.val (cmdWord 0x45 c) →
    Completes (.endCmd q c) s fun t => t.DoneAs q.val (cmdWord 0x45 c) 0x00 ∧ (t.qu q.val).inflight = [] ∧
      (t.qu q.val).stack = [.ring]) ∧
  (∀ (s : State) (q : Fin 64) (c : CmdArgs), s.m.Ready q.val (cmdWord 0x7F c) →
    Completes (.nopCmd q c) s fun t => t.DoneAs q.val (cmdWord 0x7F c) 0x00 ∧ (t.qu q.val).inflight = []) ∧
  (∀ (s : State) (q : Fin 64) (eccError : Bool), ∀ a, (s.m.qu q.val).frame.pc = some a → s.m.NoAbort ∧
    (s.m.qu q.val).fetched = none ∧ (s.m.qu q.val).frame.pc = some a ∧ a + 16 ≤ (s.m.qu q.val).frame.bound →
    Completes (.routineFetch q eccError) s fun t => (t.qu q.val).fetched = some (a, eccError || s.m.badWord a)) ∧
  (∀ (s : State) (q : Fin 64) (eccError : Bool), s.m.NoAbort ∧ (s.m.qu q.val).frame.pc = none →
    Completes (.routineFetch q eccError) s fun t =>
      (t.qu q.val).vec = ((s.m.headWord q.val).map (s.m.readsDram q.val)).getD false ∧ (t.qu q.val).st = (s.m.qu q.val).st ∧
      (t.qu q.val).published = (s.m.qu q.val).published)

/-- SET_PARAM, SET_OUTPUT, the end of an output pulse and STRATA_MARK complete. It rests on the model's choices of log entries 8, 28
and 32. -/
def Obligations.QueueWriteCommandsComplete : Prop :=
  (∀ (s : State) (q : Fin 64) (c : CmdArgs), s.m.Ready q.val (cmdWord 0x30 c) ∧
    s.m.paramReg (cmdWord 0x30 c) = some ⟨.Q_IRQ_EN, 0, 0⟩ →
    Completes (.setParam q c) s fun t => t.DoneAs q.val (cmdWord 0x30 c) 0x00 ∧ (t.qu q.val).inflight = [] ∧
      (∀ i : Fin 32, bitOf (t.reg .Q_IRQ_EN 0 0 &&& Reg.Q_IRQ_EN.desc.rwBits) i = (bitOf Reg.Q_IRQ_EN.desc.rwBits i && (if bitOf c.p0.toNat (32 + i.val) then bitOf c.p0.toNat i else bitOf (s.m.reg .Q_IRQ_EN 0 0) i)))) ∧
  (∀ (s : State) (q : Fin 64) (c : CmdArgs), s.m.Ready q.val (cmdWord 0x30 c) →
    Completes (.setParam q c) s fun t => t.DoneAs q.val (cmdWord 0x30 c) 0x00 ∧ (t.qu q.val).inflight = []) ∧
  (∀ (s : State) (q : Fin 64) (c : CmdArgs), s.m.Ready q.val (cmdWord 0x31 c) →
    Completes (.setOutput q c) s fun t => t.DoneAs q.val (cmdWord 0x31 c) 0x00 ∧ (t.qu q.val).inflight = [] ∧
      (∀ i : Fin 8, bitOf t.go.toNat i = (if bitOf c.p0.toNat (8 + i.val) then bitOf c.p0.toNat i else bitOf s.m.go.toNat i))) ∧
  (∀ (s : State) (outs : BitVec 8), Completes (.outputPulseEnd outs) s fun t => (∀ i : Fin 8, (bitOf outs.toNat i = false →
      bitOf t.go.toNat i = bitOf s.m.go.toNat i) ∧ (bitOf outs.toNat i = true →
      ((vget none s.m.goPulse i).map fun x => decide (x.1 ≤ s.m.clk.tick)) = some true → vget none t.goPulse i = none ∧
      some (bitOf t.go.toNat i) = (vget none s.m.goPulse i).map (·.2)))) ∧
  (∀ (s : State) (q : Fin 64) (c : CmdArgs), s.m.Ready q.val (cmdWord 0x50 c) ∧ s.m.st.on = true →
    Completes (.strataMark q c) s fun t => t.DoneAs q.val (cmdWord 0x50 c) 0x00 ∧ (t.qu q.val).inflight = [] ∧
      t.st.marks = s.m.st.marks ++ [BitVec.ofNat 128 (markWord q.val (bitsOf c.p1.toNat 0 8) (bitsOf c.p0.toNat 0 48) c.tag.toNat (b2n (bitOf c.p1.toNat 8)))]) ∧
  (∀ (s : State) (q : Fin 64) (c : CmdArgs), s.m.Ready q.val (cmdWord 0x50 c) ∧ s.m.st.on = false →
    Completes (.strataMark q c) s fun t => t.DoneAs q.val (cmdWord 0x50 c) 0x02 ∧ (t.qu q.val).inflight = [] ∧
      t.st.marks = s.m.st.marks)

/-- Motion commands complete: a head that passes its checks is taken by its axis. It rests on the model's choices of log entries 8,
30, 31, 34 and 115. -/
def Obligations.MotionCommandsComplete : Prop :=
  (∀ (s : State) (q : Fin 64) (c : CmdArgs), s.m.Ready q.val (cmdWord 0x01 c) ∧ q.val < 48 ∧ s.m.dbgHalt = false ∧
    s.m.AxisFree q.val ∧ (s.m.ax q.val).mode = .hold ∧ s.m.latched q.val true = false ∧ s.m.latched q.val false = false ∧
    s.m.slimOn q.val = false ∧ isRel (cmdWord 0x01 c) = false →
    Completes (.moveAbs q c) s fun t => (t.ax q.val).mode = .move ∧
      (t.ax q.val).seg.map (fun g => (g.kind, g.t0, g.prof, g.target)) = some (.position, s.m.clk.tick + 1, profOf (cmdWord 0x01 c), toFixed 24 (absTarget ((s.m.ax q.val).planAt (s.m.clk.tick + 1)).p c.p0.toNat)) ∧
      t.Popped q.val s.m) ∧
  (∀ (s : State) (q : Fin 64) (c : CmdArgs), ∀ x, s.m.targetOf q.val ((s.m.ax q.val).planAt (s.m.clk.tick + 1)) (cmdWord 0x02 c) = some x →
    s.m.Ready q.val (cmdWord 0x02 c) ∧ q.val < 48 ∧ s.m.dbgHalt = false ∧ s.m.AxisFree q.val ∧ (s.m.ax q.val).mode = .hold ∧
    s.m.latched q.val true = false ∧ s.m.latched q.val false = false ∧ s.m.slimOn q.val = false →
    Completes (.moveRel q c) s fun t => (t.ax q.val).mode = .move ∧
      (t.ax q.val).seg.map (fun g => (g.kind, g.t0, g.prof, g.target)) = some (.position, s.m.clk.tick + 1, profOf (cmdWord 0x02 c), toFixed 24 x) ∧
      t.Popped q.val s.m) ∧
  (∀ (s : State) (q : Fin 64) (c : CmdArgs), s.m.Ready q.val (cmdWord 0x03 c) ∧ q.val < 48 ∧ s.m.dbgHalt = false ∧
    s.m.AxisFree q.val ∧ (s.m.ax q.val).mode = .hold ∧ s.m.latched q.val true = false ∧ s.m.latched q.val false = false ∧
    s.m.slimOn q.val = false →
    Completes (.velCmd q c) s fun t => (t.ax q.val).mode = .move ∧
      (t.ax q.val).seg.map (fun g => (g.kind, g.t0, g.prof, g.target)) = some (.velocity, s.m.clk.tick + 1, profOf (cmdWord 0x03 c), 0) ∧
      (t.ax q.val).cmds = (s.m.ax q.val).cmds ++ [⟨q.val, some (s.m.qu q.val).nextId, (cmdWord 0x03 c), [], []⟩] ∧
      t.Popped q.val s.m) ∧
  (∀ (s : State) (q : Fin 64) (c : CmdArgs), (s.m.Ready q.val (cmdWord 0x04 c) ∧ q.val < 48 ∧ s.m.dbgHalt = false ∧
    s.m.AxisFree q.val ∧ ((s.m.ax q.val).mode = .move ∨ (s.m.ax q.val).mode = .follow) ∧ (s.m.ax q.val).group = none) →
    Completes (.stopCmd q c) s fun t => (t.ax q.val).mode = .stop ∧
      (t.ax q.val).seg.map (fun g => (g.kind, g.t0)) = some (.stopping, s.m.clk.tick + 1) ∧ t.Popped q.val s.m) ∧
  (∀ (s : State) (q : Fin 64) (c : CmdArgs), s.m.Ready q.val (cmdWord 0x04 c) ∧ q.val < 48 ∧ s.m.dbgHalt = false ∧
    s.m.AxisFree q.val ∧ (s.m.ax q.val).mode = .hold →
    Completes (.stopCmd q c) s fun t => (t.ax q.val).mode = .hold ∧ (t.ax q.val).seg = (s.m.ax q.val).seg ∧ t.Popped q.val s.m) ∧
  (∀ (s : State) (q : Fin 64) (c : CmdArgs), s.m.Ready q.val (cmdWord 0x05 c) ∧ q.val < 48 ∧ s.m.dbgHalt = false ∧
    s.m.AxisFree q.val ∧ (s.m.ax q.val).mode = .hold →
    Completes (.holdCmd q c) s fun t => (t.ax q.val).mode = .hold ∧
      (t.ax q.val).holdOvr = (if bitsOf c.p1.toNat 0 16 = 0 then none else some (min (bitsOf c.p1.toNat 0 16) (s.m.iRun q.val))) ∧
      (t.ax q.val).keepRun = bitOf c.p1.toNat 16 ∧ t.Popped q.val s.m) ∧
  (∀ (s : State) (q : Fin 64) (c : CmdArgs), s.m.Ready q.val (cmdWord 0x06 c) ∧ q.val < 48 ∧ s.m.dbgHalt = false ∧
    s.m.AxisFree q.val ∧ (s.m.ax q.val).mode = .hold ∧ s.m.rd F.AX_HOME_CFG_METHOD q.val = 0 →
    Completes (.homeCmd q c) s fun t => (t.ax q.val).mode = .hold ∧ (t.ax q.val).homed = true ∧
      t.rd F.AX_HOME_CAP_CAP_POS q.val = pubPos ((s.m.ax q.val).planAt (s.m.clk.tick + 1)).p ∧ t.Popped q.val s.m) ∧
  (∀ (s : State) (q : Fin 64) (c : CmdArgs), s.m.Ready q.val (cmdWord 0x06 c) ∧ q.val < 48 ∧ s.m.dbgHalt = false ∧
    s.m.AxisFree q.val ∧ (s.m.ax q.val).mode = .hold ∧ s.m.rd F.AX_HOME_CFG_METHOD q.val = 1 ∧ s.m.rd F.AX_HOME_VS_V q.val ≠ 0 ∧
    s.m.rd F.AX_HOME_VF_V q.val ≠ 0 →
    Completes (.homeCmd q c) s fun t => (t.ax q.val).mode = .move ∧ (t.ax q.val).home.isSome = true ∧ t.Popped q.val s.m) ∧
  (∀ (s : State) (q : Fin 64) (c : CmdArgs), ∀ n, (s.m.membersOf (q.val - 48)).head? = some n →
    ∀ ms, (some (memberList (isRel (cmdWord 0x10 c)) ((s.m.membersOf (q.val - 48)).map fun k => (k, (s.m.ax k).nxt.p)) (s.m.captured q.val (cmdWord 0x10 c)))) = some ms →
    (s.m.Ready q.val (cmdWord 0x10 c) ∧ 48 ≤ q.val ∧ s.m.dbgHalt = false ∧ s.m.groupRunning (q.val - 48) = false ∧
    (s.m.membersOf (q.val - 48)).all (fun k => (s.m.ax k).mode == .hold && (s.m.ax k).toTake.isEmpty && (s.m.ax k).kept.isNone && !s.m.latched k true && !s.m.latched k false && !s.m.slimOn k) = true ∧
    pathLen ms ≠ 0 ∧ (s.m.groupLim ms (pathLen ms) (profOf (cmdWord 0x10 c))).isSome = true) →
    Completes (.groupMove q c) s fun t =>
      (t.arm (q.val - 48)).run.map (fun r => (r.kind, r.t0, r.prof)) = some (.position, s.m.clk.tick + 2, profOf (cmdWord 0x10 c)) ∧
      (t.ax n).mode = .move ∧ (t.ax n).group = some (q.val - 48) ∧ t.Popped q.val s.m)

/-- SET_POS, ENABLE, DISABLE, GEAR, CAM and TENSION_TRIM complete. It rests on the model's choices of log entries 8, 25 and 30. -/
def Obligations.AxisModeCommandsComplete : Prop :=
  (∀ (s : State) (q : Fin 64) (c : CmdArgs), s.m.Ready q.val (cmdWord 0x07 c) ∧ q.val < 48 ∧ s.m.dbgHalt = false ∧
    s.m.AxisFree q.val ∧ (s.m.ax q.val).mode = .hold ∧ isRel (cmdWord 0x07 c) = false →
    Completes (.setPos q c) s fun t => (t.ax q.val).mode = .hold ∧ (t.ax q.val).posUnc = false ∧
      (t.ax q.val).cur.p = (s.m.ax q.val).cur.p + (posOf c.p0.toNat - cmdPos ((s.m.ax q.val).planAt (s.m.clk.tick + 1)).p) ∧
      t.Popped q.val s.m) ∧
  (∀ (s : State) (q : Fin 64) (c : CmdArgs), s.m.Ready q.val (cmdWord 0x08 c) ∧ q.val < 48 ∧ s.m.dbgHalt = false ∧
    s.m.AxisFree q.val ∧ (s.m.ax q.val).mode = .off ∧ s.m.enableRefused q.val = false →
    Completes (.enableCmd q c) s fun t => (t.ax q.val).mode = .arming ∧ (t.ax q.val).arming0 = s.m.clk.tick ∧
      t.Popped q.val s.m) ∧
  (∀ (s : State) (q : Fin 64) (c : CmdArgs), s.m.Ready q.val (cmdWord 0x09 c) ∧ q.val < 48 ∧ s.m.dbgHalt = false ∧
    s.m.AxisFree q.val ∧ (s.m.ax q.val).mode ≠ .off ∧ (s.m.ax q.val).mode ≠ .maquette →
    Completes (.disableCmd q c) s fun t => (t.ax q.val).mode = .off ∧ (t.ax q.val).cmds = [] ∧
      (t.ax q.val).cur = (s.m.ax q.val).cur ∧ t.Popped q.val s.m) ∧
  (∀ (s : State) (q : Fin 64) (c : CmdArgs), s.m.Ready q.val (cmdWord 0x11 c) ∧ q.val < 48 ∧ s.m.dbgHalt = false ∧
    s.m.AxisFree q.val ∧ (s.m.ax q.val).mode = .hold ∧ (s.m.ax q.val).group = none ∧ selKind (bitsOf c.p1.toNat 0 16) ≠ 1 →
    Completes (.gearCmd q c) s fun t => (t.ax q.val).mode = .follow ∧
      (t.ax q.val).follow.map (fun f => (f.sel, f.law, f.prof)) = some (bitsOf c.p1.toNat 0 16, .gear (signedOf 64 c.p0.toNat), profOf (cmdWord 0x11 c)) ∧
      t.Popped q.val s.m) ∧
  (∀ (s : State) (q : Fin 64) (c : CmdArgs), s.m.Ready q.val (cmdWord 0x12 c) ∧ q.val < 48 ∧ s.m.dbgHalt = false ∧
    s.m.AxisFree q.val ∧ (s.m.ax q.val).mode = .hold ∧ (s.m.ax q.val).group = none ∧ selKind (bitsOf c.p1.toNat 8 16) ≠ 1 →
    Completes (.camCmd q c) s fun t => (t.ax q.val).mode = .follow ∧
      (t.ax q.val).follow.map (fun f => (f.sel, f.prof)) = some (bitsOf c.p1.toNat 8 16, profOf (cmdWord 0x12 c)) ∧
      t.Popped q.val s.m) ∧
  (∀ (s : State) (q : Fin 64) (c : CmdArgs), s.m.Ready q.val (cmdWord 0x13 c) ∧ q.val < 48 ∧ s.m.dbgHalt = false ∧
    s.m.AxisFree q.val ∧ (s.m.ax q.val).mode ≠ .fault ∧ (s.m.ax q.val).mode ≠ .maquette ∧ bitOf c.p1.toNat 3 = true →
    Completes (.tensionTrim q c) s fun t => (t.ax q.val).trim.on = true ∧ (t.ax q.val).trim.ch = bitsOf c.p1.toNat 0 3 ∧
      (t.ax q.val).trim.sp = signedOf 32 (bitsOf c.p0.toNat 0 32) ∧ t.rb F.GR_FSTAT_TRIM_ON q.val = true ∧ t.Popped q.val s.m) ∧
  (∀ (s : State) (q : Fin 64) (c : CmdArgs), s.m.Ready q.val (cmdWord 0x13 c) ∧ q.val < 48 ∧ s.m.dbgHalt = false ∧
    s.m.AxisFree q.val ∧ (s.m.ax q.val).mode ≠ .fault ∧ (s.m.ax q.val).mode ≠ .maquette ∧ bitOf c.p1.toNat 3 = false →
    Completes (.tensionTrim q c) s fun t => (t.ax q.val).trim.on = false ∧ t.rb F.GR_FSTAT_TRIM_ON q.val = false ∧
      t.Popped q.val s.m)

/-- Every axis-class command leaves the ring when its queue can dispatch it. It rests on the model's choices of log entries 8, 31
and 34. -/
def Obligations.AxisClassCommandsDispatch : Prop :=
  (∀ (s : State) (q : Fin 64) (c : CmdArgs), s.m.Ready q.val (cmdWord 0x01 c)  ∧ s.m.OrdersFree q.val →
    Completes (.moveAbs q c) s fun t => (t.qu q.val).nextId = (s.m.qu q.val).nextId + 1 ∧ t.Popped q.val s.m) ∧
  (∀ (s : State) (q : Fin 64) (c : CmdArgs), s.m.Ready q.val (cmdWord 0x02 c)  ∧ s.m.OrdersFree q.val →
    Completes (.moveRel q c) s fun t => (t.qu q.val).nextId = (s.m.qu q.val).nextId + 1 ∧ t.Popped q.val s.m) ∧
  (∀ (s : State) (q : Fin 64) (c : CmdArgs), s.m.Ready q.val (cmdWord 0x03 c)  ∧ s.m.OrdersFree q.val →
    Completes (.velCmd q c) s fun t => (t.qu q.val).nextId = (s.m.qu q.val).nextId + 1 ∧ t.Popped q.val s.m) ∧
  (∀ (s : State) (q : Fin 64) (c : CmdArgs), s.m.Ready q.val (cmdWord 0x04 c)  ∧ s.m.OrdersFree q.val →
    Completes (.stopCmd q c) s fun t => (t.qu q.val).nextId = (s.m.qu q.val).nextId + 1 ∧ t.Popped q.val s.m) ∧
  (∀ (s : State) (q : Fin 64) (c : CmdArgs), s.m.Ready q.val (cmdWord 0x05 c)  ∧ s.m.OrdersFree q.val →
    Completes (.holdCmd q c) s fun t => (t.qu q.val).nextId = (s.m.qu q.val).nextId + 1 ∧ t.Popped q.val s.m) ∧
  (∀ (s : State) (q : Fin 64) (c : CmdArgs), s.m.Ready q.val (cmdWord 0x06 c)  ∧ s.m.OrdersFree q.val →
    Completes (.homeCmd q c) s fun t => (t.qu q.val).nextId = (s.m.qu q.val).nextId + 1 ∧ t.Popped q.val s.m) ∧
  (∀ (s : State) (q : Fin 64) (c : CmdArgs), s.m.Ready q.val (cmdWord 0x07 c)  ∧ s.m.OrdersFree q.val →
    Completes (.setPos q c) s fun t => (t.qu q.val).nextId = (s.m.qu q.val).nextId + 1 ∧ t.Popped q.val s.m) ∧
  (∀ (s : State) (q : Fin 64) (c : CmdArgs), s.m.Ready q.val (cmdWord 0x08 c)  ∧ s.m.OrdersFree q.val →
    Completes (.enableCmd q c) s fun t => (t.qu q.val).nextId = (s.m.qu q.val).nextId + 1 ∧ t.Popped q.val s.m) ∧
  (∀ (s : State) (q : Fin 64) (c : CmdArgs), s.m.Ready q.val (cmdWord 0x09 c)  ∧ s.m.OrdersFree q.val →
    Completes (.disableCmd q c) s fun t => (t.qu q.val).nextId = (s.m.qu q.val).nextId + 1 ∧ t.Popped q.val s.m) ∧
  (∀ (s : State) (q : Fin 64) (c : CmdArgs), s.m.Ready q.val (cmdWord 0x10 c)  ∧ s.m.OrdersFree q.val →
    Completes (.groupMove q c) s fun t => (t.qu q.val).nextId = (s.m.qu q.val).nextId + 1 ∧ t.Popped q.val s.m) ∧
  (∀ (s : State) (q : Fin 64) (c : CmdArgs), s.m.Ready q.val (cmdWord 0x11 c)  ∧ s.m.OrdersFree q.val →
    Completes (.gearCmd q c) s fun t => (t.qu q.val).nextId = (s.m.qu q.val).nextId + 1 ∧ t.Popped q.val s.m) ∧
  (∀ (s : State) (q : Fin 64) (c : CmdArgs), s.m.Ready q.val (cmdWord 0x12 c)  ∧ s.m.OrdersFree q.val →
    Completes (.camCmd q c) s fun t => (t.qu q.val).nextId = (s.m.qu q.val).nextId + 1 ∧ t.Popped q.val s.m) ∧
  (∀ (s : State) (q : Fin 64) (c : CmdArgs), s.m.Ready q.val (cmdWord 0x13 c)  ∧ s.m.OrdersFree q.val →
    Completes (.tensionTrim q c) s fun t => (t.qu q.val).nextId = (s.m.qu q.val).nextId + 1 ∧ t.Popped q.val s.m)

/-- Queue registers complete: push, publish, discard, pause, resume, flush and routine start. It rests on the model's choices of log
entry 76. -/
def Obligations.QueuePushAndControlComplete : Prop :=
  (∀ (s : State) (q : Fin 64) (w : Word), s.m.NoAbort ∧ s.m.Takes ⟨.Q_PUSH, q.val, 0⟩ w.toNat ∧ (s.m.qu q.val).st ≠ .aborting ∧
    (s.m.qu q.val).published.length + (s.m.qu q.val).staged.length < 32 →
    Completes (.qPush q w) s fun t => (t.qu q.val).staged = (s.m.qu q.val).staged ++ [w] ∧
      (t.qu q.val).published = (s.m.qu q.val).published ∧ (t.qu q.val).st = (s.m.qu q.val).st) ∧
  (∀ (s : State) (q : Fin 64) (w : Word), s.m.NoAbort ∧ s.m.Takes ⟨.Q_PUSH, q.val, 0⟩ w.toNat ∧ (s.m.qu q.val).st ≠ .aborting ∧
    32 ≤ (s.m.qu q.val).published.length + (s.m.qu q.val).staged.length →
    Completes (.qPush q w) s fun t => t.qu q.val = s.m.qu q.val ∧ t.rb F.Q_STATUS_PUSH_OVF q.val = true ∧
      t.rb F.Q_IRQ_PUSH_OVF = true ∧ s.m.Posted t Ev.Q_PUSH_OVF q.val (tagOf w)) ∧
  (∀ (s : State) (q : Fin 64) (w : Word), s.m.NoAbort ∧ s.m.Takes ⟨.Q_PUSH_DB, q.val, 0⟩ w.toNat ∧
    (s.m.qu q.val).st ≠ .aborting ∧ (s.m.qu q.val).published.length + (s.m.qu q.val).staged.length < 32 →
    Completes (.qPushDb q w) s fun t => (t.qu q.val).staged = [] ∧
      (t.qu q.val).published = (s.m.qu q.val).published ++ (s.m.qu q.val).staged ++ [w] ∧ ((s.m.qu q.val).st = .idle →
      (t.qu q.val).st = .run)) ∧
  (∀ (s : State) (q : Fin 64), s.m.NoAbort ∧ s.m.Takes ⟨.Q_DB, q.val, 0⟩ 1 →
    Completes (.publish q) s fun t => (t.qu q.val).staged = [] ∧
      (t.qu q.val).published = (s.m.qu q.val).published ++ (s.m.qu q.val).staged) ∧
  (∀ (s : State) (q : Fin 64), s.m.NoAbort ∧ s.m.Takes ⟨.Q_DB, q.val, 0⟩ 2 →
    Completes (.discard q) s fun t => (t.qu q.val).staged = [] ∧ (t.qu q.val).published = (s.m.qu q.val).published ∧
      (t.qu q.val).st = (s.m.qu q.val).st) ∧
  (∀ (s : State) (hi : Bool) (mask : BitVec 32), (s.m.NoAbort ∧
    s.m.Takes (if hi then ⟨.Q_MDB_HI, 0, 0⟩ else ⟨.Q_MDB_LO, 0, 0⟩) mask.toNat) →
    Completes (.qMdb hi mask) s fun t => (∀ i : Fin 32, (bitOf mask.toNat i = true →
      (t.qu (if hi then 32 + i.val else i)).staged = [] ∧
      (t.qu (if hi then 32 + i.val else i)).published = (s.m.qu (if hi then 32 + i.val else i)).published ++ (s.m.qu (if hi then 32 + i.val else i)).staged) ∧
      (bitOf mask.toNat i = false → t.qu (if hi then 32 + i.val else i) = s.m.qu (if hi then 32 + i.val else i)))) ∧
  (∀ (s : State) (q : Fin 64), s.m.NoAbort ∧ s.m.Takes ⟨.Q_CTRL, q.val, 0⟩ 1 →
    Completes (.pause q) s fun t =>
      (t.qu q.val).st = (if (s.m.qu q.val).st = .run ∨ (s.m.qu q.val).st = .wait then .paused else (s.m.qu q.val).st) ∧
      (t.qu q.val).published = (s.m.qu q.val).published) ∧
  (∀ (s : State) (q : Fin 64), (s.m.NoAbort ∧ s.m.Takes ⟨.Q_CTRL, q.val, 0⟩ 2 ∧
    ((s.m.qu q.val).st = .paused ∨ (s.m.qu q.val).st = .halted)) →
    Completes (.qResume q) s fun t => (t.qu q.val).st = (if (s.m.qu q.val).drained then .idle else .run) ∧
      (t.qu q.val).published = (s.m.qu q.val).published) ∧
  (∀ (s : State) (q : Fin 64), s.m.NoAbort ∧ s.m.Takes ⟨.Q_CTRL, q.val, 0⟩ 2 ∧ (s.m.qu q.val).st ≠ .paused ∧
    (s.m.qu q.val).st ≠ .halted →
    Completes (.qResume q) s fun t => t.qu q.val = s.m.qu q.val) ∧
  (∀ (s : State) (q : Fin 64), (s.m.NoAbort ∧ s.m.Takes ⟨.Q_CTRL, q.val, 0⟩ 4 ∧
    ((s.m.qu q.val).st = .idle ∨ (s.m.qu q.val).st = .paused ∨ (s.m.qu q.val).st = .halted)) →
    Completes (.flush q) s fun t => (t.qu q.val).published = [] ∧ (t.qu q.val).staged = [] ∧ (t.qu q.val).stack = [.ring] ∧
      (t.qu q.val).st = (s.m.qu q.val).st ∧ (t.qu q.val).inflight = (s.m.qu q.val).inflight) ∧
  (∀ (s : State) (q : Fin 64), (s.m.NoAbort ∧ s.m.Takes ⟨.Q_CTRL, q.val, 0⟩ 4 ∧
    ((s.m.qu q.val).st = .run ∨ (s.m.qu q.val).st = .wait ∨ (s.m.qu q.val).st = .aborting)) →
    Completes (.flush q) s fun t => t.qu q.val = s.m.qu q.val) ∧
  (∀ (s : State) (q : Fin 64) (rtn : BitVec 8), ∀ x, s.m.routine rtn.toNat = some x → s.m.NoAbort ∧
    s.m.Takes ⟨.Q_RTN, q.val, 0⟩ (2 ^ 31 + rtn.toNat) ∧ (s.m.qu q.val).st = .idle →
    Completes (.qRtnStart q rtn) s fun t => (t.qu q.val).st = .run ∧
      (t.qu q.val).stack = [Frame.at x.off x.off (x.off + x.len)] ∧ s.m.Posted t Ev.Q_RTN_START q.val rtn.toNat) ∧
  (∀ (s : State) (q : Fin 64) (rtn : BitVec 8), s.m.NoAbort ∧ s.m.Takes ⟨.Q_RTN, q.val, 0⟩ (2 ^ 31 + rtn.toNat) ∧
    (s.m.qu q.val).st ≠ .idle →
    Completes (.qRtnStart q rtn) s fun t => t.rb F.Q_STATUS_RTN_REFUSED q.val = true ∧ t.qu q.val = s.m.qu q.val)

/-- Aborts, ring reads, read counts, group members and group stops complete. It rests on the model's choices of log entries 33, 75
and 97. -/
def Obligations.AbortAndRingReadsComplete : Prop :=
  (∀ (s : State) (q : Fin 64) (halt : Bool) (tag : BitVec 16), s.m.NoAbort ∧ s.m.gasp = false ∧ s.m.clk.running = false ∧
    (s.m.qu q.val).st ≠ .aborting ∧ s.m.Takes ⟨.Q_ABORT, q.val, 0⟩ (1 + 2 * b2n halt + tag.toNat * 2 ^ 16) →
    Completes (.qAbort q halt tag) s fun t => (t.qu q.val).published = [] ∧ (t.qu q.val).staged = [] ∧
      (t.qu q.val).inflight = [] ∧ (t.qu q.val).stack = [.ring] ∧
      (t.qu q.val).st = (if halt = true ∨ s.m.rb F.Q_CFG_ABORT_HALT q.val = true then .halted else .idle) ∧
      t.rb F.Q_STATUS_ABORT_DONE q.val = true ∧
      t.rd F.Q_ABORT_STAT_DISCARDED q.val = min ((s.m.qu q.val).published.length + (s.m.qu q.val).staged.length) 0xFFFF) ∧
  (∀ (s : State) (q : Fin 64) (halt : Bool) (tag : BitVec 16), s.m.NoAbort ∧ s.m.gasp = false ∧ s.m.clk.running = true ∧
    (s.m.qu q.val).st ≠ .aborting ∧ s.m.Takes ⟨.Q_ABORT, q.val, 0⟩ (1 + 2 * b2n halt + tag.toNat * 2 ^ 16) →
    Completes (.qAbort q halt tag) s fun t => (t.qu q.val).published = [] ∧ (t.qu q.val).staged = [] ∧
      (t.qu q.val).inflight = [] ∧ (t.qu q.val).stack = [.ring] ∧
      t.rd F.Q_ABORT_STAT_DISCARDED q.val = min ((s.m.qu q.val).published.length + (s.m.qu q.val).staged.length) 0xFFFF ∧
      (((t.qu q.val).st = .aborting ∧
      (t.qu q.val).abort.map (fun r => (r.tag, r.scope, r.halt)) = some (tag.toNat, 0, halt)) ∨ ((t.qu q.val).abort = none ∧
      t.rb F.Q_STATUS_ABORT_DONE q.val = true ∧
      (t.qu q.val).st = (if halt = true ∨ s.m.rb F.Q_CFG_ABORT_HALT q.val = true then .halted else .idle)))) ∧
  (∀ (s : State) (q : Fin 64) (halt : Bool) (tag : BitVec 16), s.m.gasp = false ∧ (s.m.qu q.val).st = .aborting ∧
    s.m.abortsComplete = [] ∧ s.m.Takes ⟨.Q_ABORT, q.val, 0⟩ (1 + 2 * b2n halt + tag.toNat * 2 ^ 16) →
    Completes (.qAbort q halt tag) s fun t => t.queues = s.m.queues ∧
      t.rd F.Q_ABORT_STAT_MERGED q.val = satInc (2 ^ F.Q_ABORT_STAT_MERGED.width - 1) (s.m.rd F.Q_ABORT_STAT_MERGED q.val)) ∧
  (∀ (s : State) (w : BitVec 32), ∀ qs, s.m.abortSet (bitsOf w.toNat 0 3) (bitsOf w.toNat 8 6) = some qs → (s.m.NoAbort ∧
    s.m.gasp = false ∧ s.m.clk.running = false ∧ (∀ q ∈ qs, (s.m.qu q).st ≠ .aborting) ∧ s.m.Takes ⟨.Q_ABORT_X, 0, 0⟩ w.toNat) →
    Completes (.qAbortX w) s fun t => (∀ q ∈ qs, (t.qu q).published = [] ∧ (t.qu q).staged = [] ∧ (t.qu q).inflight = [] ∧
      (t.qu q).stack = [.ring] ∧ t.rb F.Q_STATUS_ABORT_DONE q = true ∧
      (t.qu q).st = (if bitOf w.toNat 3 = true ∨ s.m.rb F.Q_CFG_ABORT_HALT q = true then .halted else .idle))) ∧
  (∀ (s : State) (w : BitVec 32), ∀ qs, s.m.abortSet (bitsOf w.toNat 0 3) (bitsOf w.toNat 8 6) = some qs → (s.m.NoAbort ∧
    s.m.gasp = false ∧ s.m.clk.running = true ∧ (∀ q ∈ qs, (s.m.qu q).st ≠ .aborting) ∧ s.m.Takes ⟨.Q_ABORT_X, 0, 0⟩ w.toNat) →
    Completes (.qAbortX w) s fun t => (∀ q ∈ qs, (t.qu q).published = [] ∧ (t.qu q).staged = [] ∧ (t.qu q).inflight = [] ∧
      (t.qu q).stack = [.ring] ∧ (((t.qu q).st = .aborting ∧
      (t.qu q).abort.map (fun r => (r.tag, r.scope, r.halt)) = some (bitsOf w.toNat 16 16, bitsOf w.toNat 0 3, bitOf w.toNat 3)) ∨ ((t.qu q).abort = none ∧
      t.rb F.Q_STATUS_ABORT_DONE q = true ∧
      (t.qu q).st = (if bitOf w.toNat 3 = true ∨ s.m.rb F.Q_CFG_ABORT_HALT q = true then .halted else .idle))))) ∧
  (∀ (s : State) (w : BitVec 32), s.m.NoAbort ∧ s.m.Takes ⟨.Q_ABORT_X, 0, 0⟩ w.toNat ∧
    s.m.abortSet (bitsOf w.toNat 0 3) (bitsOf w.toNat 8 6) = none →
    Completes (.qAbortX w) s fun t => t.rb F.Q_UNIT_STAT_ABORT_BAD = true ∧ t.queues = s.m.queues) ∧
  (∀ (s : State), s.m.NoAbort ∧ s.m.regAnswers ⟨.Q_CPL_POP, 0, 0⟩ = true ∧ s.m.rings.cplWr ≠ s.m.rings.cplRd →
    Completes .qCplPop s fun t => t.rings.cplRd = (s.m.rings.cplRd + 1) % 2 ^ 32 ∧
      t.readData = BitVec.ofNat 128 (s.m.peek ⟨.Q_CPL_POP, 0, 0⟩) ∧ t.rings.cpl = s.m.rings.cpl) ∧
  (∀ (s : State), s.m.NoAbort ∧ s.m.regAnswers ⟨.Q_CPL_POP, 0, 0⟩ = true ∧ s.m.rings.cplWr = s.m.rings.cplRd →
    Completes .qCplPop s fun t => t.rings = s.m.rings ∧ t.readData = 0) ∧
  (∀ (s : State) (v : BitVec 32), s.m.NoAbort ∧ s.m.Takes ⟨.Q_CPL_RD, 0, 0⟩ v.toNat ∧ s.m.cplStall = false →
    Completes (.qCplRdWrite v) s fun t =>
      t.rings = { s.m.rings with cplRd := takenCount s.m.rings.cplWr s.m.rings.cpl.length v.toNat }) ∧
  (∀ (s : State), s.m.NoAbort ∧ s.m.regAnswers ⟨.Q_EVT_POP, 0, 0⟩ = true ∧ s.m.rings.evtWr ≠ s.m.rings.evtRd →
    Completes .qEvtPop s fun t => t.rings.evtRd = (s.m.rings.evtRd + 1) % 2 ^ 32 ∧
      t.readData = BitVec.ofNat 128 (s.m.peek ⟨.Q_EVT_POP, 0, 0⟩) ∧ t.rings.evt = s.m.rings.evt) ∧
  (∀ (s : State), s.m.NoAbort ∧ s.m.regAnswers ⟨.Q_EVT_POP, 0, 0⟩ = true ∧ s.m.rings.evtWr = s.m.rings.evtRd →
    Completes .qEvtPop s fun t => t.rings = s.m.rings ∧ t.readData = 0) ∧
  (∀ (s : State) (v : BitVec 32), s.m.NoAbort ∧ s.m.Takes ⟨.Q_EVT_RD, 0, 0⟩ v.toNat ∧ s.m.rings.evtLossDue = false →
    Completes (.qEvtRdWrite v) s fun t =>
      t.rings = { s.m.rings with evtRd := takenCount s.m.rings.evtWr s.m.rings.evt.length v.toNat }) ∧
  (∀ (s : State) (g : Fin 16) (hi : Bool) (mask : BitVec 32), (s.m.Takes (if hi then ⟨.GR_MEMB_HI, g.val, 0⟩ else ⟨.GR_MEMB_LO, g.val, 0⟩) mask.toNat ∧
    s.m.groupRunning g.val = false ∧
    ((s.m.setReg (if hi then Reg.GR_MEMB_HI else Reg.GR_MEMB_LO) g.val 0 (if hi then mask.toNat % 2 ^ 16 else mask.toNat)).membersOf g.val).length ≤ 16) →
    Completes (.grMemb g hi mask) s fun t =>
      t.reg (if hi then Reg.GR_MEMB_HI else Reg.GR_MEMB_LO) g.val 0 = (if hi then mask.toNat % 2 ^ 16 else mask.toNat) ∧
      t.membersOf g.val = (s.m.setReg (if hi then Reg.GR_MEMB_HI else Reg.GR_MEMB_LO) g.val 0 (if hi then mask.toNat % 2 ^ 16 else mask.toNat)).membersOf g.val) ∧
  (∀ (s : State) (g : Fin 16) (hi : Bool) (mask : BitVec 32), (s.m.Takes (if hi then ⟨.GR_MEMB_HI, g.val, 0⟩ else ⟨.GR_MEMB_LO, g.val, 0⟩) mask.toNat ∧
    (s.m.groupRunning g.val = true ∨ 16 < ((s.m.setReg (if hi then Reg.GR_MEMB_HI else Reg.GR_MEMB_LO) g.val 0 (if hi then mask.toNat % 2 ^ 16 else mask.toNat)).membersOf g.val).length)) →
    Completes (.grMemb g hi mask) s fun t => t.rb F.GR_STATUS_MEMB_REFUSED g.val = true ∧
      t.membersOf g.val = s.m.membersOf g.val) ∧
  (∀ (s : State) (g : Fin 16), s.m.Takes ⟨.GR_CTRL, g.val, 0⟩ 1 ∧ (s.m.arm g.val).run.isSome = true ∧
    (s.m.arm g.val).emergency = false ∧ (s.m.arm g.val).stopping = false →
    Completes (.grStop g) s fun t => (t.arm g.val).stopping = true ∧ (t.arm g.val).cmd = none ∧ (t.arm g.val).ahead = [] ∧
      (t.arm g.val).ebAt = some (t.pathBoundary (s.m.arm g.val).owner)) ∧
  (∀ (s : State) (g : Fin 16), s.m.Takes ⟨.GR_CTRL, g.val, 0⟩ 1 ∧ (s.m.arm g.val).run = none →
    Completes (.grStop g) s fun t => t.arms = s.m.arms ∧ t.axes = s.m.axes)

/-- Bridge events complete: period start, peak trip, short circuit, gate supply and clock stop. It rests on the model's choices of
log entries 5 and 9. -/
def Obligations.BridgeEventsComplete : Prop :=
  (∀ (s : State) (k : Fin 96) (vm : BitVec 16), Completes (.pwmPeriodStart k vm) s fun t =>
      (t.coil k.val).index = (s.m.coil k.val).index + 1 ∧ (t.coil k.val).fresh = false ∧ (t.coil k.val).tripAt = none ∧
      (t.coil k.val).active = (if (s.m.coil k.val).fresh then (s.m.coil k.val).shadow else (s.m.coil k.val).active) ∧
      (t.coil k.val).missed = (if (s.m.coil k.val).fresh then 0 else (s.m.coil k.val).missed + 1) ∧
      t.rd F.PW_VM_MEAS_VM (k.val / 24) = vm.toNat) ∧
  (∀ (s : State) (k : Fin 96) (cnt : BitVec 14), ∀ d, (match (s.m.coil k.val).active with | .quiet d => some d | _ => none) = some d → s.m.bridgeCh k.val = .drive ∧ (s.m.coil k.val).dac.isSome = true ∧ (s.m.coil k.val).tripAt = none ∧ cnt.toNat < (s.m.coil k.val).endCount ∧ (s.m.coil k.val).active = .quiet d → Completes (.peakTrip k cnt) s fun t => (t.coil k.val).tripAt = some cnt.toNat ∧ (t.coil k.val).endCount = cnt.toNat ∧ (t.coil k.val).ilimRun = (s.m.coil k.val).ilimRun + 1) ∧
  (∀ (s : State) (k : Fin 96) (cnt : BitVec 14), ((s.m.coil k.val).tripAt.isSome = true ∨ (s.m.coil k.val).endCount ≤ cnt.toNat) →
    Completes (.peakTrip k cnt) s fun t => t.coil k.val = s.m.coil k.val) ∧
  (∀ (s : State) (n : Fin 48) (coilB : Bool), Completes (.shortCircuit n coilB) s fun t =>
      bitOf (t.rd F.PW_BFAULT_AX (n.val / 12)) (n.val % 12) = true ∧ t.rd F.PW_BFAULT_KIND (n.val / 12) = 1 ∧
      t.rb F.PW_BFAULT_COIL_A (n.val / 12) = !coilB ∧ t.rb F.PW_BFAULT_COIL_B (n.val / 12) = coilB ∧
      s.m.Posted t Ev.PW_BRIDGE_FAULT n.val (1 + 16 * b2n (!coilB) + 32 * b2n coilB)) ∧
  (∀ (s : State) (n : Fin 48) (coilB : Bool), (s.m.ax n.val).mode = .hold →
    Completes (.shortCircuit n coilB) s fun t => (t.ax n.val).mode = .fault ∧ t.rd F.AX_FAULT_CAUSE n.val = 4) ∧
  (∀ (s : State) (b : Fin 4), Completes (.gateUv b) s fun t => (t.bank b.val).gateUv = true ∧
      t.rb F.PW_STAT_GATE_UV b.val = true ∧ s.m.Posted t Ev.PW_BANK_SAFE b.val 2) ∧
  (∀ (s : State) (b : Fin 4), Completes (.gateUvRecover b) s fun t => (t.bank b.val).gateUv = false ∧ t.axes = s.m.axes ∧
      t.regs = s.m.regs) ∧
  (∀ (s : State) (b : Fin 4), Completes (.clockStop b) s fun t => (t.bank b.val).clkStop = true) ∧
  (∀ (s : State) (b : Fin 4), (s.m.bank b.val).clkStop = true →
    Completes (.clockStopEnd b) s fun t => (t.bank b.val).clkStop = false ∧ t.rb F.PW_STAT_CLK_STOP b.val = true ∧
      s.m.Posted t Ev.PW_BANK_SAFE b.val 3) ∧
  (∀ (s : State) (b : Fin 4), (s.m.bank b.val).clkStop = false →
    Completes (.clockStopEnd b) s fun t => t.axes = s.m.axes ∧ t.regs = s.m.regs) ∧
  (∀ (s : State) (b : Fin 4) (mask : BitVec 12), s.m.Takes ⟨.PW_BFAULT, b.val, 0⟩ mask.toNat →
    Completes (.bfaultClear b mask) s fun t =>
      (∀ j : Fin 12, bitOf (t.rd F.PW_BFAULT_AX b.val) j = (bitOf (s.m.rd F.PW_BFAULT_AX b.val) j && !(bitOf mask.toNat j && (s.m.ax (12 * b.val + j.val)).mode == .off))))

/-- Bridge registers complete: period, stagger users, offsets, safe states and debug halt. It rests on the model's choices of log
entry 96. -/
def Obligations.BridgeRegistersComplete : Prop :=
  (∀ (s : State) (b : Fin 4) (v : BitVec 14), s.m.Takes ⟨.PW_PERIOD, b.val, 0⟩ v.toNat ∧ s.m.bankOff b.val = true →
    Completes (.pwPeriod b v) s fun t => t.reg .PW_PERIOD b.val 0 = v.toNat ∧ t.periodOf b.val = clampNat 2000 12500 v.toNat ∧
      (t.bank b.val).locked = false) ∧
  (∀ (s : State) (b : Fin 4) (v : BitVec 14), s.m.Takes ⟨.PW_PERIOD, b.val, 0⟩ v.toNat ∧ s.m.bankOff b.val = false →
    Completes (.pwPeriod b v) s fun t => t.reg .PW_PERIOD b.val 0 = s.m.reg .PW_PERIOD b.val 0 ∧
      t.rb F.PW_STAT_PERIOD_REFUSED b.val = true) ∧
  (∀ (s : State) (b : Fin 4) (on : Bool), s.m.Takes ⟨.PW_CFG, b.val, 0⟩ (putBits (s.m.peek ⟨.PW_CFG, b.val, 0⟩ &&& Reg.PW_CFG.desc.rwBits) 3 1 (b2n on)) ∧
    s.m.bankOff b.val = true →
    Completes (.stagUserChange b on) s fun t => t.rb F.PW_CFG_STAG_USER b.val = on) ∧
  (∀ (s : State) (b : Fin 4) (on : Bool), s.m.Takes ⟨.PW_CFG, b.val, 0⟩ (putBits (s.m.peek ⟨.PW_CFG, b.val, 0⟩ &&& Reg.PW_CFG.desc.rwBits) 3 1 (b2n on)) ∧
    s.m.bankOff b.val = false ∧ s.m.rb F.PW_CFG_STAG_USER b.val = !on →
    Completes (.stagUserChange b on) s fun t => t.rb F.PW_CFG_STAG_USER b.val = !on ∧
      t.rb F.PW_STAT_PERIOD_REFUSED b.val = true) ∧
  (∀ (s : State) (b : Fin 4) (k : Fin 24) (v : BitVec 14), s.m.Takes ⟨.PW_CH_OFS, b.val, k.val⟩ v.toNat ∧
    s.m.bankOff b.val = true →
    Completes (.pwChOfs b k v) s fun t => t.reg .PW_CH_OFS b.val k.val = v.toNat) ∧
  (∀ (s : State) (b : Fin 4) (k : Fin 24) (v : BitVec 14), s.m.Takes ⟨.PW_CH_OFS, b.val, k.val⟩ v.toNat ∧
    s.m.bankOff b.val = false →
    Completes (.pwChOfs b k v) s fun t => t.reg .PW_CH_OFS b.val k.val = s.m.reg .PW_CH_OFS b.val k.val ∧
      t.rb F.PW_STAT_PERIOD_REFUSED b.val = true) ∧
  (∀ (s : State) (b : Fin 4) (v : BitVec 32), s.m.Takes ⟨.PW_SAFE, b.val, 0⟩ v.toNat →
    Completes (.pwSafe b v) s fun t => (t.bank b.val).safe0 = (v.toNat &&& Reg.PW_SAFE.desc.rwBits) ∧
      (t.bank b.val).safe1 = (t.bank b.val).safe0 ∧ (t.bank b.val).safe2 = (t.bank b.val).safe0 ∧
      t.reg .PW_SAFE b.val 0 = (t.bank b.val).safe0 ∧ (bitsOf v.toNat 0 4 ≠ 5 → bitsOf v.toNat 0 4 ≠ 10 →
      t.rb F.PW_SAFE_STAT_CODE_BAD b.val = true)) ∧
  (∀ (s : State) (b : Fin 4) (upset : Option (Fin 3 × BitVec 32)), upset = none ∧ (s.m.bank b.val).allDiff = false ∧
    (s.m.bank b.val).safe0 = (s.m.bank b.val).safe1 ∧ (s.m.bank b.val).safe2 ≠ (s.m.bank b.val).safe0 →
    Completes (.safeCopyCheck b upset) s fun t => (t.bank b.val).safe2 = (s.m.bank b.val).safe0 ∧
      (t.bank b.val).safe0 = (s.m.bank b.val).safe0 ∧ t.rb F.PW_SAFE_STAT_FIX b.val = true ∧
      s.m.Posted t Ev.PW_SAFE_FIX b.val 2) ∧
  (∀ (s : State) (b : Fin 4) (upset : Option (Fin 3 × BitVec 32)), upset = none ∧ (s.m.bank b.val).safeOf = none ∧
    (s.m.bank b.val).allDiff = false →
    Completes (.safeCopyCheck b upset) s fun t => (t.bank b.val).allDiff = true ∧ t.rb F.PW_SAFE_STAT_ALL_DIFF b.val = true ∧
      s.m.Posted t Ev.PW_SAFE_ALLDIFF b.val 0) ∧
  (∀ (s : State) (guard : BitVec 8), s.m.Takes ⟨.GL_DBG, 0, 0⟩ (1 + guard.toNat * 2 ^ 8) ∧ guard = 0xA5 ∧ s.m.dbgHalt = false →
    Completes (.dbgHalt guard) s fun t => t.dbgHalt = true ∧ t.rd F.GL_DBG_HALT = 1 ∧
      (∀ b : Fin 4, t.rb F.PW_STAT_DBG b = true) ∧ t.hp.dbgAt = some t.stamp) ∧
  (∀ (s : State) (guard : BitVec 8), s.m.Takes ⟨.GL_DBG, 0, 0⟩ (1 + guard.toNat * 2 ^ 8) ∧ guard ≠ 0xA5 →
    Completes (.dbgHalt guard) s fun t => t.dbgHalt = s.m.dbgHalt ∧ t.rb F.GL_STATUS_DBG_REFUSED = true ∧ t.axes = s.m.axes) ∧
  (∀ (s : State) (guard : BitVec 8), s.m.Takes ⟨.GL_DBG, 0, 0⟩ (guard.toNat * 2 ^ 8) ∧ guard = 0xA5 ∧ s.m.dbgHalt = true →
    Completes (.dbgHaltEnd guard) s fun t => t.dbgHalt = false ∧ t.rd F.GL_DBG_HALT = 0 ∧ t.hp.dbgAt = none ∧ t.axes = s.m.axes) ∧
  (∀ (s : State) (guard : BitVec 8), s.m.Takes ⟨.GL_DBG, 0, 0⟩ (guard.toNat * 2 ^ 8) ∧ guard ≠ 0xA5 →
    Completes (.dbgHaltEnd guard) s fun t => t.dbgHalt = s.m.dbgHalt ∧ t.rb F.GL_STATUS_DBG_REFUSED = true)

/-- Trip and sync events complete. It rests on the model's choices of log entry 88. -/
def Obligations.TripAndSyncEventsComplete : Prop :=
  (∀ (s : State) (a : Bool) (b : Bool), (s.m.sampled = true ∧ s.m.rb F.PW_TRIP_STAT_LATCH = false ∧ ((a = true ∧
    s.m.rb F.PW_TRIP_CFG_EN_A = true) ∨ (b = true ∧ s.m.rb F.PW_TRIP_CFG_EN_B = true))) →
    Completes (.tripInput a b) s fun t => t.rb F.PW_TRIP_STAT_LATCH = true ∧
      t.rd F.PW_TRIP_STAT_FIRST = b2n (!(a && s.m.rb F.PW_TRIP_CFG_EN_A)) ∧ t.rd F.PW_TRIP_TS_SET_TS = t.stamp ∧
      t.inp = { s.m.inp with tripA := a, tripB := b }) ∧
  (∀ (s : State) (a : Bool) (b : Bool), s.m.sampled = false →
    Completes (.tripInput a b) s fun t => t.regs = s.m.regs ∧ t.axes = s.m.axes) ∧
  (∀ (s : State) (a : Bool) (b : Bool), (s.m.rb F.PW_TRIP_STAT_LATCH = true ∨ ((a && s.m.rb F.PW_TRIP_CFG_EN_A) = false ∧
    (b && s.m.rb F.PW_TRIP_CFG_EN_B) = false)) →
    Completes (.tripInput a b) s fun t => t.inp = { s.m.inp with tripA := a, tripB := b } ∧ t.regs = s.m.regs) ∧
  (∀ (s : State), s.m.Takes ⟨.PW_TRIP_STAT, 0, 0⟩ 1 ∧ s.m.rb F.PW_TRIP_STAT_LATCH = true ∧ s.m.tripActive = false →
    Completes .tripClear s fun t => t.rb F.PW_TRIP_STAT_LATCH = false ∧ t.rd F.PW_TRIP_TS_CLR_TS = t.stamp) ∧
  (∀ (s : State), s.m.Takes ⟨.PW_TRIP_STAT, 0, 0⟩ 1 ∧ s.m.rb F.PW_TRIP_STAT_LATCH = true ∧ s.m.tripActive = true →
    Completes .tripClear s fun t => t.rb F.PW_TRIP_STAT_LATCH = true ∧ t.rb F.PW_TRIP_STAT_CLR_REFUSED = true ∧
      s.m.Posted t Ev.PW_TRIP_CLR_REFUSED 0 (b2n s.m.inp.tripA + 2 * b2n s.m.inp.tripB)) ∧
  (∀ (s : State), s.m.rd F.PW_TRIP_CFG_DISC_T ≠ 0 ∧
    (s.m.inp.tripA && s.m.rb F.PW_TRIP_CFG_EN_A) ≠ (s.m.inp.tripB && s.m.rb F.PW_TRIP_CFG_EN_B) →
    Completes .tripDisc s fun t => t.rb F.PW_TRIP_STAT_DISC = true ∧
      s.m.Posted t Ev.PW_TRIP_DISC 0 (b2n (s.m.inp.tripB && s.m.rb F.PW_TRIP_CFG_EN_B))) ∧
  (∀ (s : State), s.m.sync.rewritten = false ∧ s.m.clk.running = true ∧ s.m.sync.role = 2 →
    Completes .syncDrive s fun t => t.sync = { s.m.sync with driving := true }) ∧
  (∀ (s : State), (s.m.sync.rewritten = false ∧ (s.m.clk.running = false ∨ s.m.sync.role ≠ 2)) →
    Completes .syncDrive s fun t => t.sync = s.m.sync) ∧
  (∀ (s : State), s.m.sync.rewritten = true →
    Completes .syncDrive s fun t => t.sync.role = t.rd F.PW_SYNC_CFG_ROLE % 3 ∧ t.sync.rewritten = false) ∧
  (∀ (s : State) (cyc : Nat), s.m.sync.rewritten = false ∧ s.m.sync.role = 0 →
    Completes (.syncEdge cyc) s fun t => t.sync = { s.m.sync with driving := false, ref := none } ∧ t.regs = s.m.regs) ∧
  (∀ (s : State) (cyc : Nat), s.m.sync.rewritten = false ∧ s.m.sync.role = 1 →
    Completes (.syncEdge cyc) s fun t => t.sync.ref = some cyc ∧ t.sync.missed = 0 ∧ t.sync.driving = false ∧ t.sync.role = 1) ∧
  (∀ (s : State) (cyc : Nat), s.m.sync.rewritten = false ∧ s.m.sync.role = 2 ∧ s.m.sync.driving = false →
    Completes (.syncEdge cyc) s fun t => t.sync.role = 1 ∧ t.rb F.PW_SYNC_STAT_CONFLICT = true ∧ t.sync.ref = some cyc) ∧
  (∀ (s : State) (cyc : Nat), s.m.sync.rewritten = false ∧ s.m.sync.role = 2 ∧ s.m.sync.driving = true →
    Completes (.syncEdge cyc) s fun t => t.sync.role = 2 ∧ t.sync.driving = false ∧ t.sync.ref = some cyc) ∧
  (∀ (s : State), s.m.sync.role = 1 →
    Completes .syncLost s fun t => t.sync.ref = none ∧ t.rb F.PW_SYNC_STAT_LOCKED = false ∧ t.rb F.PW_SYNC_STAT_LOST = true ∧
      s.m.Posted t Ev.PW_SYNC_LOST 0 (s.m.rd F.PW_SYNC_CFG_LOSS_N)) ∧
  (∀ (s : State), s.m.sync.role ≠ 1 →
    Completes .syncLost s fun t => t.sync = s.m.sync ∧ t.regs = s.m.regs)

/-- Sample events complete: holds, deliveries, shadow blocks, recalibration, triggers and polarity checks. It rests on the model's
choices of log entries 82, 83 and 85. -/
def Obligations.SampleEventsComplete : Prop :=
  (∀ (s : State) (k : Fin 96) (kind : Fin 8), ∀ r, ((s.m.coil k.val).reqs.find? (fun x => x.kind = kind.val)) = some r →
    ((s.m.coil k.val).reqs.find? (fun x => x.kind = kind.val) = some r ∧ r.nowin = false) →
    Completes (.sampleHold k kind) s fun t =>
      (t.coil k.val).held.any (fun h => h.kind == kind.val && h.slice == r.slice && h.at_ == (s.m.coil k.val).t0 + r.at_) = true ∧
      (t.coil k.val).reqs = (s.m.coil k.val).reqs.filter (fun x => x.kind ≠ kind.val)) ∧
  (∀ (s : State) (k : Fin 96) (kind : Fin 8), ∀ r, ((s.m.coil k.val).reqs.find? (fun x => x.kind = kind.val)) = some r →
    ((s.m.coil k.val).reqs.find? (fun x => x.kind = kind.val) = some r ∧ r.nowin = true) →
    Completes (.sampleHold k kind) s fun t =>
      (t.coil k.val).samples.any (fun x => x.kind == kind.val && x.at_ == (s.m.coil k.val).t0 + r.at_) = true ∧
      t.rb F.CS_STAT_NOWIN (k.val / 24) = true ∧
      (t.coil k.val).reqs = (s.m.coil k.val).reqs.filter (fun x => x.kind ≠ kind.val)) ∧
  (∀ (s : State) (k : Fin 96) (kind : Fin 8), ((s.m.coil k.val).reqs.find? (fun x => x.kind = kind.val) = none) →
    Completes (.sampleHold k kind) s fun t => t.coils = s.m.coils ∧
      (∀ x : Fin 4, t.bank x = { s.m.bank x with ovForce := (t.bank x).ovForce })) ∧
  (∀ (s : State) (k : Fin 96) (kind : Fin 8) (raw : Int) (full : Bool), ∀ h, (((s.m.coil k.val).held.find? fun x => x.kind = kind.val)) = some h →
    Completes (.sampleDelivered k kind raw full) s fun t =>
      (t.coil k.val).held = (s.m.coil k.val).held.filter (fun x => x.kind ≠ kind.val) ∧
      (t.coil k.val).samples.length = (s.m.coil k.val).samples.length + 1 ∧
      ((t.coil k.val).samples.getLast?.map fun x => (x.kind, x.at_)) = some (kind.val, h.at_)) ∧
  (∀ (s : State) (b : Fin 4) (sl : Fin 5) (pairs : List (Int × Int × Rat)), (s.m.shadowing b.val = false ∨ s.m.sliceActive b.val sl.val = false) →
    Completes (.shadowBlockEnd b sl pairs) s fun t => t.regs = s.m.regs ∧
      (∀ x : Fin 4, t.bank x = { s.m.bank x with ovForce := (t.bank x).ovForce })) ∧
  (∀ (s : State) (b : Fin 4) (sl : Fin 5) (pairs : List (Int × Int × Rat)), (s.m.shadowing b.val = true ∧
    s.m.sliceActive b.val sl.val = true ∧
    1024 < (shownS 16 (s.m.rdS F.CS_SLICE_OFS b.val sl.val + toFixedZero 0 (((fitPairs (pairs.map fun x => ((x.1 : Rat), s.m.corrected b.val ((s.m.spareOf b.val).getD 4) s.m.cyc x.2.1, x.2.2))).o * 16 - (s.m.rdS F.CS_SLICE_OFS b.val sl.val : Rat)) / 4))).natAbs) →
    Completes (.shadowBlockEnd b sl pairs) s fun t =>
      t.rdS F.CS_SLICE_OFS b.val sl.val = shownS 16 (s.m.rdS F.CS_SLICE_OFS b.val sl.val + toFixedZero 0 (((fitPairs (pairs.map fun x => ((x.1 : Rat), s.m.corrected b.val ((s.m.spareOf b.val).getD 4) s.m.cyc x.2.1, x.2.2))).o * 16 - (s.m.rdS F.CS_SLICE_OFS b.val sl.val : Rat)) / 4)) ∧
      t.rb F.CS_STAT_DRIFT b.val = true) ∧
  (∀ (s : State) (b : Fin 4) (zero : Int) (pos : Int) (neg : Int), ∀ x, s.m.spareOf b.val = some x →
    s.m.rd F.CS_CFG_CAL_INT b.val ≠ 0 →
    Completes (.spareRecal b zero pos neg) s fun t => t.rdS F.CS_SLICE_OFS b.val x = shownS 16 (16 * zero)) ∧
  (∀ (s : State) (b : Fin 4) (zero : Int) (pos : Int) (neg : Int), (s.m.rd F.CS_CFG_CAL_INT b.val = 0 ∨ s.m.spareOf b.val = none) →
    Completes (.spareRecal b zero pos neg) s fun t => t.regs = s.m.regs) ∧
  (∀ (s : State) (b : Fin 4) (k : Fin 4), ∀ e, (s.m.bank b.val).trigs.head? = some e → (s.m.bank b.val).trigs = [e] ∧
    e.1 = k.val ∧ s.m.rb F.CS_TRIG_EN b.val k.val = true ∧ s.m.rb F.CS_TRIG_ACT b.val k.val = false ∧
    (s.m.bank b.val).inj = none ∧ selValid (s.m.rd F.CS_INJ_CTRL_SEL b.val) = true →
    Completes (.csTrigFire b k) s fun t =>
      (t.bank b.val).inj = some { sel := s.m.rd F.CS_INJ_CTRL_SEL b.val, trig := k.val, at_ := e.2 } ∧
      t.rb F.CS_INJ_STAT_BUSY b.val = true ∧ (t.bank b.val).trigs = []) ∧
  (∀ (s : State) (b : Fin 4) (k : Fin 4), ∀ e, (s.m.bank b.val).trigs.head? = some e → (s.m.bank b.val).trigs = [e] ∧
    e.1 = k.val ∧ s.m.rb F.CS_TRIG_EN b.val k.val = true ∧ s.m.rb F.CS_TRIG_ACT b.val k.val = true ∧
    (s.m.bank b.val).scan = none ∧ selValid (s.m.rd F.CS_SCAN_LIST_SEL b.val 0) = true →
    Completes (.csTrigFire b k) s fun t => (t.bank b.val).scan = some 0 ∧ (t.bank b.val).scanTrig = k.val ∧
      t.rb F.CS_SCAN_STAT_RUN b.val = true ∧ (t.bank b.val).trigs = []) ∧
  (∀ (s : State) (b : Fin 4) (k : Fin 4), ∀ e, (s.m.bank b.val).trigs.head? = some e → (s.m.bank b.val).trigs = [e] ∧
    e.1 = k.val ∧ s.m.rb F.CS_TRIG_EN b.val k.val = false →
    Completes (.csTrigFire b k) s fun t => t.regs = s.m.regs ∧ (t.bank b.val).inj = (s.m.bank b.val).inj ∧
      (t.bank b.val).scan = (s.m.bank b.val).scan ∧ (t.bank b.val).trigs = []) ∧
  (∀ (s : State) (b : Fin 4) (k : Fin 4), ((s.m.bank b.val).trigs.find? (fun x => x.1 = k.val) = none) →
    Completes (.csTrigFire b k) s fun t => t.regs = s.m.regs ∧
      (∀ x : Fin 4, t.bank x = { s.m.bank x with ovForce := (t.bank x).ovForce })) ∧
  (∀ (s : State) (b : Fin 4) (ch : BitVec 5) (range : Bool), s.m.Takes ⟨.CS_PCHK, b.val, 0⟩ (ch.toNat + 32 * b2n range + 2 ^ 8) ∧
    ch.toNat < 24 ∧ (s.m.bank b.val).pchk = none ∧ (s.m.ax (12 * b.val + ch.toNat / 2)).mode = .off →
    Completes (.csPchkGo b ch range) s fun t => (t.bank b.val).pchk = some (ch.toNat, range, false) ∧
      t.rb F.CS_PCHK_STAT_BUSY b.val = true ∧ (s.m.sf.dacOwner = none → s.m.sf.dacWait = [] → t.sf.dacOwner = some (2 + b.val))) ∧
  (∀ (s : State) (b : Fin 4) (ch : BitVec 5) (range : Bool), (s.m.Takes ⟨.CS_PCHK, b.val, 0⟩ (ch.toNat + 32 * b2n range + 2 ^ 8) ∧
    (24 ≤ ch.toNat ∨ (s.m.bank b.val).pchk.isSome = true)) →
    Completes (.csPchkGo b ch range) s fun t => t.rb F.CS_PCHK_STAT_REFUSED b.val = true ∧
      (t.bank b.val).pchk = (s.m.bank b.val).pchk) ∧
  (∀ (s : State) (b : Fin 4) (s1 : Int) (s2 : Int), ∀ x, (s.m.bank b.val).pchk = some x → s.m.sf.dacOwner = some (2 + b.val) ∧
    s.m.sf.dacWait.contains (2 + b.val) = false →
    Completes (.pchkDone b s1 s2) s fun t => (t.bank b.val).pchk = none ∧ t.rb F.CS_PCHK_STAT_BUSY b.val = false ∧
      t.rb F.CS_PCHK_STAT_DONE b.val = true ∧
      t.rb F.CS_PCHK_STAT_FAIL b.val = (decide ((if x.2.1 then 15 / 1000 else 60 / 1000 : Rat) < ratAbs (ofFixed 12 s1 / 64 - pchkAmps x.2.1 (1 / 4))) || decide ((if x.2.1 then 15 / 1000 else 60 / 1000 : Rat) < ratAbs (ofFixed 12 s2 / 64 - pchkAmps x.2.1 (9 / 4)))) ∧
      t.sf.dacOwner ≠ some (2 + b.val)) ∧
  (∀ (s : State) (b : Fin 4) (s1 : Int) (s2 : Int), s.m.sf.dacOwner ≠ some (2 + b.val) →
    Completes (.pchkDone b s1 s2) s fun t => (∀ x : Fin 4, t.bank x = { s.m.bank x with ovForce := (t.bank x).ovForce }) ∧
      t.regs = s.m.regs)

/-- Injections and host scans complete. It rests on the model's choices of log entry 37. -/
def Obligations.ScanAndInjectionComplete : Prop :=
  (∀ (s : State) (b : Fin 4) (sel : BitVec 8), s.m.Takes ⟨.CS_INJ_CTRL, b.val, 0⟩ (sel.toNat + 2 ^ 8) ∧
    (s.m.bank b.val).inj = none ∧ selValid sel.toNat = true →
    Completes (.csInjGo b sel) s fun t => (t.bank b.val).inj = some { sel := sel.toNat, trig := 0xFF, at_ := t.cyc } ∧
      t.rb F.CS_INJ_STAT_BUSY b.val = true) ∧
  (∀ (s : State) (b : Fin 4) (sel : BitVec 8), s.m.Takes ⟨.CS_INJ_CTRL, b.val, 0⟩ (sel.toNat + 2 ^ 8) ∧
    (s.m.bank b.val).inj = none ∧ selValid sel.toNat = false →
    Completes (.csInjGo b sel) s fun t => (t.bank b.val).inj = none ∧ t.rb F.CS_STAT_SEL_BAD b.val = true ∧
      s.m.Posted t Ev.CS_SEL_BAD b.val sel.toNat) ∧
  (∀ (s : State) (b : Fin 4) (sel : BitVec 8), s.m.Takes ⟨.CS_INJ_CTRL, b.val, 0⟩ (sel.toNat + 2 ^ 8) ∧
    (s.m.bank b.val).inj.isSome = true →
    Completes (.csInjGo b sel) s fun t => (t.bank b.val).inj = (s.m.bank b.val).inj ∧ t.rb F.CS_INJ_STAT_REQ_DROP b.val = true) ∧
  (∀ (s : State) (b : Fin 4) (raw : Int) (wait : BitVec 9), ∀ r, (s.m.bank b.val).inj = some r →
    Completes (.injResult b raw wait) s fun t => (t.bank b.val).inj = none ∧ t.rb F.CS_INJ_STAT_BUSY b.val = false ∧
      t.rb F.CS_INJ_STAT_VALID b.val = true ∧ t.rd F.CS_INJ_STAT_WAIT b.val = wait.toNat ∧
      (s.m.rb F.CS_INJ_STAT_VALID b.val = true → t.rb F.CS_INJ_STAT_OVR b.val = true) ∧
      bitsOf (t.reg .CS_INJ_RES b.val 0) 16 8 = r.sel % 2 ^ 8) ∧
  (∀ (s : State) (b : Fin 4) (raw : Int) (wait : BitVec 9), (s.m.bank b.val).inj = none →
    Completes (.injResult b raw wait) s fun t => t.regs = s.m.regs ∧
      (∀ x : Fin 4, t.bank x = { s.m.bank x with ovForce := (t.bank x).ovForce })) ∧
  (∀ (s : State) (b : Fin 4), s.m.Takes ⟨.CS_SCAN_CFG, b.val, 0⟩ ((s.m.peek ⟨.CS_SCAN_CFG, b.val, 0⟩ &&& Reg.CS_SCAN_CFG.desc.rwBits) + 32) ∧
    (s.m.bank b.val).scan = none ∧ selValid (s.m.rd F.CS_SCAN_LIST_SEL b.val 0) = true →
    Completes (.scanGo b) s fun t => (t.bank b.val).scan = some 0 ∧ (t.bank b.val).scanTrig = 0xFF ∧
      t.rb F.CS_SCAN_STAT_RUN b.val = true) ∧
  (∀ (s : State) (b : Fin 4), s.m.Takes ⟨.CS_SCAN_CFG, b.val, 0⟩ ((s.m.peek ⟨.CS_SCAN_CFG, b.val, 0⟩ &&& Reg.CS_SCAN_CFG.desc.rwBits) + 32) ∧
    (s.m.bank b.val).scan.isSome = true →
    Completes (.scanGo b) s fun t => t.bank b.val = { s.m.bank b.val with ovForce := (t.bank b.val).ovForce }) ∧
  (∀ (s : State) (b : Fin 4), s.m.Takes ⟨.CS_SCAN_CFG, b.val, 0⟩ ((s.m.peek ⟨.CS_SCAN_CFG, b.val, 0⟩ &&& Reg.CS_SCAN_CFG.desc.rwBits) + 64) →
    Completes (.scanStop b) s fun t => (t.bank b.val).scanStop = ((s.m.bank b.val).scanStop || (s.m.bank b.val).scan.isSome) ∧
      (t.bank b.val).scan = (s.m.bank b.val).scan) ∧
  (∀ (s : State) (b : Fin 4) (slice : Fin 5) (raw : Int) (wait : BitVec 9), ∀ i, (s.m.bank b.val).scan = some i →
    (s.m.bank b.val).scanStop = true ∧ s.m.scanGrant b.val slice.val s.m.holdCyc = true →
    Completes (.scanResult b slice raw wait) s fun t => (t.bank b.val).scan = none ∧ t.rb F.CS_SCAN_STAT_RUN b.val = false ∧
      ((s.m.bank b.val).scanQ.length < 256 → (t.bank b.val).scanQ.length = (s.m.bank b.val).scanQ.length + 1 ∧
      t.rd F.CS_SCAN_STAT_LEVEL b.val = ((s.m.bank b.val).scanQ.length + 1) % 2 ^ F.CS_SCAN_STAT_LEVEL.width)) ∧
  (∀ (s : State) (b : Fin 4) (slice : Fin 5) (raw : Int) (wait : BitVec 9), ((s.m.bank b.val).scan = none ∨ s.m.scanGrant b.val slice.val s.m.holdCyc = false) →
    Completes (.scanResult b slice raw wait) s fun t => t.regs = s.m.regs ∧
      (∀ x : Fin 4, t.bank x = { s.m.bank x with ovForce := (t.bank x).ovForce })) ∧
  (∀ (s : State) (b : Fin 4), s.m.regAnswers ⟨.CS_SCAN_POP, b.val, 0⟩ = true →
    Completes (.csScanPop b) s fun t => (t.bank b.val).scanQ = (s.m.bank b.val).scanQ.drop 1 ∧
      t.readData = BitVec.ofNat 128 (s.m.peek ⟨.CS_SCAN_POP, b.val, 0⟩))

/-- The load-angle commands complete: resync and peak clear. -/
def Obligations.LoadAngleCommandsComplete : Prop :=
  (∀ (s : State) (b : Fin 4) (axis : BitVec 4), ∀ p, s.m.verPort (12 * b.val + axis.toNat) = some p →
    s.m.Takes ⟨.LA_CTRL, b.val, 0⟩ (axis.toNat + 16) ∧ axis.toNat < 12 ∧ (s.m.ax (12 * b.val + axis.toNat)).eff = .hold ∧
    s.m.rd F.LA_VER_CFG_OFS_MODE b.val axis.toNat = 1 ∧ s.m.portBad p = false →
    Completes (.resync b axis) s fun t => (t.ax (12 * b.val + axis.toNat)).resync = true ∧
      (t.ax (12 * b.val + axis.toNat)).cur = (s.m.ax (12 * b.val + axis.toNat)).cur) ∧
  (∀ (s : State) (b : Fin 4) (axis : BitVec 4), (s.m.Takes ⟨.LA_CTRL, b.val, 0⟩ (axis.toNat + 16) ∧ axis.toNat < 12 ∧
    ((s.m.ax (12 * b.val + axis.toNat)).eff ≠ .hold ∨ s.m.verPort (12 * b.val + axis.toNat) = none)) →
    Completes (.resync b axis) s fun t => t.rb F.LA_AX_STAT_RESYNC_REFUSED b.val axis.toNat = true ∧ t.axes = s.m.axes) ∧
  (∀ (s : State) (b : Fin 4) (axis : BitVec 4), s.m.Takes ⟨.LA_CTRL, b.val, 0⟩ (axis.toNat + 32) ∧ axis.toNat < 12 →
    Completes (.peakClr b axis) s fun t => t.rd F.LA_AX_PEAK b.val axis.toNat = 0 ∧ t.rd F.LA_AX_PEAK_V b.val axis.toNat = 0 ∧
      t.axes = s.m.axes)

/-- Edges of the feedback ports complete: quadrature, Hall, step, index and the speed timeout. It rests on the model's choices of
log entry 86. -/
def Obligations.PortEdgesComplete : Prop :=
  (∀ (s : State) (p : Fin 12) (a : Bool) (b : Bool) (e : QuadAt), (s.m.portLive p.val = true ∧
    (s.m.portMode p.val = 6 ∨ (s.m.portMode p.val = 1 ∧ (s.m.rb F.FB_CFG_IDX_GATE p.val = true ∨ e.z = false))) ∧
    s.m.portLvl p.val % 4 = 0 ∧ a = true ∧ b = false) →
    Completes (.quadEdge p a b e) s fun t =>
      (t.port p.val).cnt = wrapCnt ((s.m.port p.val).cnt + (if s.m.rb F.FB_CFG_INV p.val then -1 else 1)) ∧
      bitsOf (t.portLvl p.val) 0 3 = 1 + 4 * b2n e.z) ∧
  (∀ (s : State) (p : Fin 12) (a : Bool) (b : Bool) (e : QuadAt), (s.m.portLive p.val = true ∧
    (s.m.portMode p.val = 6 ∨ (s.m.portMode p.val = 1 ∧ (s.m.rb F.FB_CFG_IDX_GATE p.val = true ∨ e.z = false))) ∧
    s.m.portLvl p.val % 4 = 0 ∧ a = false ∧ b = true) →
    Completes (.quadEdge p a b e) s fun t =>
      (t.port p.val).cnt = wrapCnt ((s.m.port p.val).cnt - (if s.m.rb F.FB_CFG_INV p.val then -1 else 1)) ∧
      bitsOf (t.portLvl p.val) 0 3 = 2 + 4 * b2n e.z) ∧
  (∀ (s : State) (p : Fin 12) (a : Bool) (b : Bool) (e : QuadAt), s.m.portLive p.val = true ∧ s.m.portMode p.val = 1 ∧
    s.m.rb F.FB_CFG_IDX_GATE p.val = false ∧ s.m.portLvl p.val % 8 = 0 ∧ a = true ∧ b = false ∧ e.z = true →
    Completes (.quadEdge p a b e) s fun t => t.rb F.FB_STAT_INDEX_SEEN p.val = true ∧
      t.rd F.FB_IDX_CAP_CNT p.val = unsignedOf 64 (wrapCnt ((s.m.port p.val).cnt + (if s.m.rb F.FB_CFG_INV p.val then -1 else 1))) % 2 ^ F.FB_IDX_CAP_CNT.width) ∧
  (∀ (s : State) (p : Fin 12) (a : Bool) (b : Bool) (e : QuadAt), s.m.portLive p.val = true ∧ s.m.portMode p.val = 6 ∧
    s.m.portLvl p.val % 4 = 0 ∧ a = true ∧ b = true →
    Completes (.quadEdge p a b e) s fun t =>
      t.rd F.FB_ERR_QERR_CNT p.val = satInc (2 ^ F.FB_ERR_QERR_CNT.width - 1) (s.m.rd F.FB_ERR_QERR_CNT p.val) ∧
      (t.port p.val).cnt = (s.m.port p.val).cnt) ∧
  (∀ (s : State) (p : Fin 12) (a : Bool) (b : Bool) (e : QuadAt), (s.m.portMode p.val = 0 ∨ s.m.portMode p.val = 3 ∨ s.m.portMode p.val = 4 ∨ s.m.portLive p.val = false) →
    Completes (.quadEdge p a b e) s fun t => (t.port p.val).cnt = (s.m.port p.val).cnt ∧
      bitsOf (t.portLvl p.val) 0 3 = b2n a + 2 * b2n b + 4 * b2n e.z ∧ t.regs = s.m.regs) ∧
  (∀ (s : State) (p : Fin 12) (code : BitVec 3) (cyc : Nat), s.m.portLive p.val = true ∧ s.m.portMode p.val = 2 ∧
    bitsOf (s.m.portLvl p.val) 0 3 = 1 ∧ code = 3 →
    Completes (.hallChange p code cyc) s fun t =>
      (t.port p.val).cnt = wrapCnt ((s.m.port p.val).cnt + (if s.m.rb F.FB_CFG_INV p.val then -1 else 1)) ∧
      (t.port p.val).hall = some 1) ∧
  (∀ (s : State) (p : Fin 12) (code : BitVec 3) (cyc : Nat), Completes (.hallChange p code cyc) s fun t =>
      (t.port p.val).hall = hallState code.toNat ∧ bitsOf (t.portLvl p.val) 0 3 = code.toNat) ∧
  (∀ (s : State) (p : Fin 12) (dir : Bool) (ena : Bool) (cyc : Nat), (s.m.portLive p.val = true ∧ s.m.portMode p.val = 5 ∧
    (s.m.rb F.FB_CFG_ENA_EN p.val = false ∨ ena = true)) →
    Completes (.stepEdge p dir ena cyc) s fun t =>
      (t.port p.val).cnt = wrapCnt ((s.m.port p.val).cnt + (if dir = s.m.rb F.FB_CFG_INV p.val then 1 else -1))) ∧
  (∀ (s : State) (p : Fin 12) (dir : Bool) (ena : Bool) (cyc : Nat), s.m.portLive p.val = true ∧ s.m.portMode p.val = 5 ∧
    s.m.rb F.FB_CFG_ENA_EN p.val = true ∧ ena = false →
    Completes (.stepEdge p dir ena cyc) s fun t => (t.port p.val).cnt = (s.m.port p.val).cnt) ∧
  (∀ (s : State) (p : Fin 12), (s.m.portLive p.val = true ∧ s.m.portMode p.val = 1 ∧
    (s.m.rb F.FB_CFG_IDX_GATE p.val = false ∨ s.m.portLvl p.val % 4 = 3)) →
    Completes (.indexEdge p) s fun t => t.rb F.FB_STAT_INDEX_SEEN p.val = true ∧
      t.rd F.FB_IDX_CAP_CNT p.val = unsignedOf 64 (s.m.port p.val).cnt % 2 ^ F.FB_IDX_CAP_CNT.width ∧
      t.rd F.FB_IDX_CAP_TS p.val = t.portStamp p.val) ∧
  (∀ (s : State) (p : Fin 12), s.m.portLive p.val = true ∧ s.m.portMode p.val = 1 ∧ s.m.rb F.FB_CFG_IDX_GATE p.val = true ∧
    s.m.portLvl p.val % 4 ≠ 3 →
    Completes (.indexEdge p) s fun t => (t.port p.val).cnt = (s.m.port p.val).cnt ∧ bitOf (t.portLvl p.val) 2 = true ∧
      t.regs = s.m.regs) ∧
  (∀ (s : State) (p : Fin 12), (s.m.portLive p.val = false ∨ s.m.portMode p.val = 0 ∨ 3 ≤ s.m.portMode p.val) →
    Completes (.indexEdge p) s fun t => (t.port p.val).cnt = (s.m.port p.val).cnt ∧ bitOf (t.portLvl p.val) 2 = true ∧
      t.regs = s.m.regs) ∧
  (∀ (s : State) (p : Fin 12), Completes (.speedTimeout p) s fun t => (t.port p.val).speed = 0 ∧
      t.rb F.FB_STAT_STILL p.val = true ∧ (t.port p.val).cnt = (s.m.port p.val).cnt)

/-- Port commands complete: serial reads and words, arming, fault clear, mode and follower. It rests on the model's choices of log
entries 6, 63 and 120. -/
def Obligations.PortCommandsComplete : Prop :=
  (∀ (s : State) (p : Fin 12), (s.m.portLive p.val = true ∧ (s.m.portMode p.val = 3 ∨ s.m.portMode p.val = 4) ∧
    s.m.readDue p.val = true ∧ (s.m.port p.val).reading = false ∧ (s.m.port p.val).freeAt ≤ s.m.clk.tick * 1000) →
    Completes (.serialRead p) s fun t => (t.port p.val).reading = true ∧ (t.port p.val).latchAbs = s.m.clk.tick * 1000) ∧
  (∀ (s : State) (p : Fin 12), (s.m.portLive p.val = true ∧ (s.m.portMode p.val = 3 ∨ s.m.portMode p.val = 4) ∧
    s.m.readDue p.val = false) →
    Completes (.serialRead p) s fun t => t.port p.val = s.m.port p.val ∧ t.regs = s.m.regs) ∧
  (∀ (s : State) (p : Fin 12), (s.m.portLive p.val = true ∧ (s.m.portMode p.val = 3 ∨ s.m.portMode p.val = 4) ∧
    s.m.readDue p.val = true ∧ (s.m.port p.val).reading = true) →
    Completes (.serialRead p) s fun t => t.rb F.FB_STAT_SKIP p.val = true ∧ t.port p.val = s.m.port p.val) ∧
  (∀ (s : State) (p : Fin 12) (waits : FrameWaits) (raw : BitVec 64) (eBit : Bool) (wBit : Bool) (crc : BitVec 6), (s.m.portLive p.val = true ∧
    (s.m.portMode p.val = 3 ∨ s.m.portMode p.val = 4) ∧ (s.m.port p.val).reading = true ∧ s.m.serTimeout p.val waits = true) →
    Completes (.serialWord p waits raw eBit wBit crc) s fun t => (t.port p.val).reading = false ∧
      t.rd F.FB_SERR_TO_CNT p.val = satInc (2 ^ F.FB_SERR_TO_CNT.width - 1) (s.m.rd F.FB_SERR_TO_CNT p.val) ∧
      (t.port p.val).cnt = (s.m.port p.val).cnt) ∧
  (∀ (s : State) (p : Fin 12) (waits : FrameWaits) (raw : BitVec 64) (eBit : Bool) (wBit : Bool) (crc : BitVec 6), s.m.portLive p.val = true ∧
    s.m.portMode p.val = 3 ∧ (s.m.port p.val).reading = true ∧ s.m.serTimeout p.val waits = false ∧
    (s.m.port p.val).word = none ∧ s.m.rb F.FB_SER_GRAY p.val = false →
    Completes (.serialWord p waits raw eBit wBit crc) s fun t => (t.port p.val).reading = false ∧
      (t.port p.val).word = some (raw.toNat / 2 ^ s.m.rd F.FB_SER_SX p.val % 2 ^ clampNat 10 32 (s.m.rd F.FB_SER_DLEN p.val)) ∧
      (t.port p.val).cnt = wrapCnt ((raw.toNat / 2 ^ s.m.rd F.FB_SER_SX p.val % 2 ^ clampNat 10 32 (s.m.rd F.FB_SER_DLEN p.val) : Nat) : Int) ∧
      t.rb F.FB_STAT_STILL p.val = false) ∧
  (∀ (s : State) (p : Fin 12), s.m.Takes ⟨.FB_CTRL, p.val, 0⟩ 1 →
    Completes (.armPort p) s fun t => t.rb F.FB_STAT_ARMED p.val = true ∧ t.port p.val = s.m.port p.val) ∧
  (∀ (s : State) (p : Fin 12), s.m.Takes ⟨.FB_CTRL, p.val, 0⟩ 2 →
    Completes (.disarmPort p) s fun t => t.rb F.FB_STAT_ARMED p.val = false ∧ t.port p.val = s.m.port p.val) ∧
  (∀ (s : State) (p : Fin 12), s.m.Takes ⟨.FB_STAT, p.val, 0⟩ 1 →
    Completes (.portFaultClear p) s fun t => t.rb F.FB_STAT_FAULT p.val = false ∧ t.rd F.FB_STAT_FCAUSE p.val = 0 ∧
      t.rd F.FB_ERR_CONSEC p.val = 0 ∧ s.m.Posted t Ev.FB_FAULT_CLEAR p.val (s.m.rd F.FB_STAT_FCAUSE p.val)) ∧
  (∀ (s : State) (p : Fin 12) (mode : BitVec 3), s.m.Takes ⟨.FB_CFG, p.val, 0⟩ (putBits (s.m.peek ⟨.FB_CFG, p.val, 0⟩ &&& Reg.FB_CFG.desc.rwBits) 0 3 mode.toNat) ∧
    s.m.portInUse p.val = false →
    Completes (.fbMode p mode) s fun t => bitsOf (t.reg .FB_CFG p.val 0) 0 3 = mode.toNat) ∧
  (∀ (s : State) (p : Fin 12) (mode : BitVec 3), s.m.Takes ⟨.FB_CFG, p.val, 0⟩ (putBits (s.m.peek ⟨.FB_CFG, p.val, 0⟩ &&& Reg.FB_CFG.desc.rwBits) 0 3 mode.toNat) ∧
    s.m.portInUse p.val = true →
    Completes (.fbMode p mode) s fun t => bitsOf (t.reg .FB_CFG p.val 0) 0 3 = bitsOf (s.m.reg .FB_CFG p.val 0) 0 3 ∧
      t.rb F.FB_STAT_MODE_REFUSED p.val = true) ∧
  (∀ (s : State) (p : Fin 12) (axis : BitVec 6) (prof : BitVec 3), s.m.Takes ⟨.FB_FOLLOW, p.val, 0⟩ (1 + axis.toNat * 2 ^ 8 + prof.toNat * 2 ^ 16) ∧
    axis.toNat < 48 ∧ (s.m.ax axis.toNat).mode = .hold →
    Completes (.fbFollowEngage p axis prof) s fun t => (t.ax axis.toNat).fbEngage = some (p.val, prof.toNat)) ∧
  (∀ (s : State) (p : Fin 12) (axis : BitVec 6) (prof : BitVec 3), s.m.Takes ⟨.FB_FOLLOW, p.val, 0⟩ (1 + axis.toNat * 2 ^ 8 + prof.toNat * 2 ^ 16) ∧
    48 ≤ axis.toNat →
    Completes (.fbFollowEngage p axis prof) s fun t => t.rb F.FB_STAT_FOLLOW_REFUSED p.val = true ∧
      t.rd F.FB_FOLLOW_EN p.val = s.m.rd F.FB_FOLLOW_EN p.val ∧ t.axes = s.m.axes) ∧
  (∀ (s : State) (p : Fin 12), s.m.Takes ⟨.FB_FOLLOW, p.val, 0⟩ (putBits (s.m.peek ⟨.FB_FOLLOW, p.val, 0⟩ &&& Reg.FB_FOLLOW.desc.rwBits) 0 1 0) ∧
    s.m.rd F.FB_FOLLOW_EN p.val = 0 →
    Completes (.fbFollowDisengage p) s fun t => t.axes = s.m.axes) ∧
  (∀ (s : State) (p : Fin 12), s.m.Takes ⟨.FB_FOLLOW, p.val, 0⟩ (putBits (s.m.peek ⟨.FB_FOLLOW, p.val, 0⟩ &&& Reg.FB_FOLLOW.desc.rwBits) 0 1 0) ∧
    s.m.rd F.FB_FOLLOW_EN p.val = 1 ∧ (s.m.ax 0).mode = .follow ∧ (s.m.ax 0).follow.map (·.port) = some (some p.val) →
    Completes (.fbFollowDisengage p) s fun t => (t.ax 0).mode = .stop ∧ (t.ax 0).follow = none)

/-- Front-end conversions complete: results, runs, excitation and crosspoint. It rests on the model's choices of log entry 68. -/
def Obligations.FrontEndConversionsComplete : Prop :=
  (∀ (s : State) (k : Fin 2) (raw : BitVec 24) (meas : BitVec 16), ((s.m.conv k.val).run = false ∨ (s.m.conv k.val).conn = none) →
    Completes (.auxResult k raw meas) s fun t => t.regs = s.m.regs ∧ t.sf.queue = s.m.sf.queue) ∧
  (∀ (s : State) (k : Fin 2) (raw : BitVec 24) (meas : BitVec 16), ∀ c, (s.m.conv k.val).conn = some c →
    (s.m.conv k.val).run = true ∧ s.m.chRef c = none ∧ s.m.refOff c = true ∧ (s.m.conv k.val).stop = true →
    Completes (.auxResult k raw meas) s fun t => (t.conv k.val).run = false ∧ t.rb F.SF_CH_STAT_STALE c = true ∧
      t.sf.queue = s.m.sf.queue) ∧
  (∀ (s : State) (k : Fin 2) (raw : BitVec 24) (meas : BitVec 16), ∀ c, (s.m.conv k.val).conn = some c →
    (s.m.conv k.val).run = true ∧ s.m.chRef c = none ∧ s.m.refOff c = false ∧ s.m.usesEx c 0 = false ∧ s.m.usesEx c 1 = false ∧
    s.m.rb F.SF_CH_CFG_BLANK_EN c = false ∧ (s.m.chan c).drop = false ∧ c < 8 →
    Completes (.auxResult k raw meas) s fun t => (t.chan c).seq = ((s.m.chan c).seq + 1) % 256 ∧
      t.rd F.SF_CH_STAT_RESULTS c = (s.m.rd F.SF_CH_STAT_RESULTS c + 1) % 2 ^ F.SF_CH_STAT_RESULTS.width) ∧
  (∀ (s : State) (k : Fin 2), s.m.Takes ⟨.SF_AUX_CFG, k.val, 0⟩ ((s.m.peek ⟨.SF_AUX_CFG, k.val, 0⟩ &&& Reg.SF_AUX_CFG.desc.rwBits) + 2 ^ 27) ∧
    (s.m.conv k.val).run = true ∧ (s.m.conv k.val).conn.isSome = true →
    Completes (.auxGo k) s fun t => t.conv k.val = s.m.conv k.val) ∧
  (∀ (s : State) (k : Fin 2), s.m.Takes ⟨.SF_AUX_CFG, k.val, 0⟩ ((s.m.peek ⟨.SF_AUX_CFG, k.val, 0⟩ &&& Reg.SF_AUX_CFG.desc.rwBits) + 2 ^ 27) ∧
    (s.m.conv k.val).run = false ∧ s.m.clk.running = true ∧ s.m.staged = [] ∧
    s.m.chConverts (bitsOf (s.m.rd F.SF_SEQ_CH k.val) 0 3) = true →
    Completes (.auxGo k) s fun t => (t.conv k.val).run = true ∧
      (t.conv k.val).conn = some (bitsOf (s.m.rd F.SF_SEQ_CH k.val) 0 3) ∧ (t.conv k.val).idx = 0 ∧
      t.rb F.SF_AUX_STAT_RUN k.val = true) ∧
  (∀ (s : State) (k : Fin 2), s.m.Takes ⟨.SF_AUX_CFG, k.val, 0⟩ ((s.m.peek ⟨.SF_AUX_CFG, k.val, 0⟩ &&& Reg.SF_AUX_CFG.desc.rwBits) + 2 ^ 28) ∧
    (s.m.conv k.val).run = true →
    Completes (.auxStop k) s fun t => (t.conv k.val).stop = true ∨ (t.conv k.val).run = false) ∧
  (∀ (s : State) (e : Fin 2) (bits : BitVec 3), s.m.exOn e.val = true →
    Completes (.exFault e bits) s fun t =>
      t.reg .SF_EX_STAT e.val 0 ||| (bits.toNat &&& (if s.m.exVolt e.val then 5 else 2)) = t.reg .SF_EX_STAT e.val 0) ∧
  (∀ (s : State) (e : Fin 2) (bits : BitVec 3), s.m.exOn e.val = false →
    Completes (.exFault e bits) s fun t => t.reg .SF_EX_STAT e.val 0 = s.m.reg .SF_EX_STAT e.val 0 ∧ t.rings = s.m.rings) ∧
  (∀ (s : State) (e : Fin 2), Completes (.exFaultClear e) s fun t => vget 0 t.sf.exLive e.val = 0) ∧
  (∀ (s : State) (e : Fin 2) (v : BitVec 32), s.m.Takes ⟨.SF_EX_CFG, e.val, 0⟩ v.toNat ∧ 0x0F < bitsOf v.toNat 3 5 →
    Completes (.sfExCfg e v) s fun t => t.rb F.SF_STATUS_CFG_BAD = true ∧ t.reg .SF_EX_CFG e.val 0 = s.m.reg .SF_EX_CFG e.val 0) ∧
  (∀ (s : State) (e : Fin 2) (v : BitVec 32), s.m.Takes ⟨.SF_EX_CFG, e.val, 0⟩ v.toNat ∧ bitOf v.toNat 0 = false ∧
    bitsOf v.toNat 3 5 ≤ 0x0F ∧ nodeOk (bitsOf v.toNat 8 5) = true ∧ nodeOk (bitsOf v.toNat 13 5) = true →
    Completes (.sfExCfg e v) s fun t => t.reg .SF_EX_CFG e.val 0 = (v.toNat &&& Reg.SF_EX_CFG.desc.rwBits) ∧
      vget 0 t.sf.exLive e.val = 0 ∧ t.exOn e.val = false) ∧
  (∀ (s : State) (reg : Fin 3) (c : Fin 8) (v : BitVec 32), (s.m.Takes ⟨(match reg.val with | 0 => .SF_CH_CFG | 1 => .SF_CH_BIAS | _ => .SF_CH_CURVE), c.val, 0⟩ v.toNat ∧ s.m.chWriteOk (match reg.val with | 0 => .SF_CH_CFG | 1 => .SF_CH_BIAS | _ => .SF_CH_CURVE) c.val (v.toNat &&& (match reg.val with | 0 => Reg.SF_CH_CFG | 1 => .SF_CH_BIAS | _ => .SF_CH_CURVE).desc.rwBits) false = true) → Completes (.sfCrosspointWrite reg c v) s fun t => t.reg (match reg.val with | 0 => .SF_CH_CFG | 1 => .SF_CH_BIAS | _ => .SF_CH_CURVE) c.val 0 &&& (match reg.val with | 0 => Reg.SF_CH_CFG | 1 => .SF_CH_BIAS | _ => .SF_CH_CURVE).desc.rwBits = v.toNat &&& (match reg.val with | 0 => Reg.SF_CH_CFG | 1 => .SF_CH_BIAS | _ => .SF_CH_CURVE).desc.rwBits) ∧
  (∀ (s : State) (reg : Fin 3) (c : Fin 8) (v : BitVec 32), (s.m.Takes ⟨(match reg.val with | 0 => .SF_CH_CFG | 1 => .SF_CH_BIAS | _ => .SF_CH_CURVE), c.val, 0⟩ v.toNat ∧ s.m.chWriteOk (match reg.val with | 0 => .SF_CH_CFG | 1 => .SF_CH_BIAS | _ => .SF_CH_CURVE) c.val (v.toNat &&& (match reg.val with | 0 => Reg.SF_CH_CFG | 1 => .SF_CH_BIAS | _ => .SF_CH_CURVE).desc.rwBits) false = false) → Completes (.sfCrosspointWrite reg c v) s fun t => t.rb F.SF_STATUS_CFG_BAD = true ∧ t.reg (match reg.val with | 0 => .SF_CH_CFG | 1 => .SF_CH_BIAS | _ => .SF_CH_CURVE) c.val 0 = s.m.reg (match reg.val with | 0 => .SF_CH_CFG | 1 => .SF_CH_BIAS | _ => .SF_CH_CURVE) c.val 0)

/-- Front-end checks, calibrations, result reads and report outputs complete. It rests on the model's choices of log entries 69 and
70. -/
def Obligations.FrontEndChecksComplete : Prop :=
  (∀ (s : State) (hold : Bool) (code : BitVec 12), (s.m.Takes ⟨.SF_TDAC, 0, 0⟩ (code.toNat + b2n hold * 2 ^ 12) ∧ hold = true ∧
    ((s.m.sf.dacOwner = none ∧ s.m.sf.dacWait = []) ∨ s.m.sf.dacOwner = some 0)) →
    Completes (.tdacHold hold code) s fun t => t.sf.dacOwner = some 0 ∧ t.rd F.SF_TDAC_OWNER = 1 ∧ t.sf.dacCode = code.toNat) ∧
  (∀ (s : State) (hold : Bool) (code : BitVec 12), s.m.Takes ⟨.SF_TDAC, 0, 0⟩ (code.toNat + b2n hold * 2 ^ 12) ∧ hold = false →
    Completes (.tdacHold hold code) s fun t => t.sf.dacOwner ≠ some 0 ∨ s.m.sf.dacWait.head? = some 0) ∧
  (∀ (s : State) (c : Fin 8), s.m.Takes ⟨.SF_CHK, 0, 0⟩ (c.val + 8) ∧ s.m.rb F.SF_CHK_BUSY = false →
    Completes (.sfChkGo c) s fun t => t.sf.chk = some c.val ∧ t.rb F.SF_CHK_BUSY = true) ∧
  (∀ (s : State) (c : Fin 8), s.m.Takes ⟨.SF_CHK, 0, 0⟩ (c.val + 8) ∧ s.m.rb F.SF_CHK_BUSY = true →
    Completes (.sfChkGo c) s fun t => t.sf.chk = s.m.sf.chk) ∧
  (∀ (s : State) (e1 : Int) (e2 : Int), ∀ c, s.m.sf.chk = some c → s.m.sf.dacOwner = some 1 →
    Completes (.sfChkDone e1 e2) s fun t => t.sf.chk = none ∧ t.rb F.SF_CHK_BUSY = false ∧ t.rb F.SF_CHK_DONE = true ∧
      t.rb F.SF_CHK_FAIL = decide (50 < max (if max e1 (-e1) < max e2 (-e2) then e2 else e1) (-(if max e1 (-e1) < max e2 (-e2) then e2 else e1)))) ∧
  (∀ (s : State) (c : Fin 8) (navg : BitVec 4), s.m.Takes ⟨.SF_CAL_CMD, 0, 0⟩ (c.val + 8 + navg.toNat * 2 ^ 8) ∧
    s.m.sf.cal = none ∧ ¬(1 ≤ s.m.rd F.SF_CH_CURVE_CURVE c.val ∧ s.m.rd F.SF_CH_CURVE_CURVE c.val ≤ 9) →
    Completes (.calZero c navg) s fun t =>
      t.sf.cal = some { ch := c.val, cmd := 1, want := 2 ^ min navg.toNat 10, n := 0, sum := 0 } ∧
      t.rb F.SF_CAL_CMD_BUSY = true) ∧
  (∀ (s : State) (c : Fin 8) (navg : BitVec 4), s.m.Takes ⟨.SF_CAL_CMD, 0, 0⟩ (c.val + 16 + navg.toNat * 2 ^ 8) ∧
    s.m.sf.cal = none ∧ ¬(1 ≤ s.m.rd F.SF_CH_CURVE_CURVE c.val ∧ s.m.rd F.SF_CH_CURVE_CURVE c.val ≤ 9) →
    Completes (.calFullScale c navg) s fun t =>
      t.sf.cal = some { ch := c.val, cmd := 2, want := 2 ^ min navg.toNat 10, n := 0, sum := 0 } ∧
      t.rb F.SF_CAL_CMD_BUSY = true) ∧
  (∀ (s : State) (c : Fin 8) (navg : BitVec 4), s.m.Takes ⟨.SF_CAL_CMD, 0, 0⟩ (c.val + 8 + navg.toNat * 2 ^ 8) ∧
    s.m.sf.cal.isSome = true →
    Completes (.calZero c navg) s fun t => t.sf.cal = s.m.sf.cal ∧ t.rb F.SF_CAL_CMD_FAIL = true ∧ t.rd F.SF_CAL_CMD_CODE = 2) ∧
  (∀ (s : State) (c : Fin 8) (navg : BitVec 4), s.m.Takes ⟨.SF_CAL_CMD, 0, 0⟩ (c.val + 16 + navg.toNat * 2 ^ 8) ∧
    s.m.sf.cal = none ∧ 1 ≤ s.m.rd F.SF_CH_CURVE_CURVE c.val ∧ s.m.rd F.SF_CH_CURVE_CURVE c.val ≤ 9 →
    Completes (.calFullScale c navg) s fun t => t.sf.cal = none ∧ t.rb F.SF_CAL_CMD_FAIL = true ∧ t.rd F.SF_CAL_CMD_CODE = 1) ∧
  (∀ (s : State), s.m.Takes ⟨.SF_CAL_CMD, 0, 0⟩ ((s.m.peek ⟨.SF_CAL_CMD, 0, 0⟩ &&& Reg.SF_CAL_CMD.desc.rwBits) + 24) →
    Completes .calCancel s fun t => t.sf.cal = none ∧ t.rb F.SF_CAL_CMD_BUSY = false) ∧
  (∀ (s : State), ∀ x, s.m.sf.cal = some x →
    Completes .calTimeout s fun t => t.sf.cal = none ∧ t.rb F.SF_CAL_CMD_FAIL = true ∧ t.rd F.SF_CAL_CMD_CODE = 3 ∧
      s.m.Posted t Ev.SF_CAL_FAIL x.ch 3) ∧
  (∀ (s : State), s.m.regAnswers ⟨.SF_Q_POP, 0, 0⟩ = true →
    Completes .sfQPop s fun t => t.sf.queue = s.m.sf.queue.drop 1 ∧ t.readData = BitVec.ofNat 128 (s.m.peek ⟨.SF_Q_POP, 0, 0⟩)) ∧
  (∀ (s : State) (r : Fin 4), ∀ o, vget none s.m.sf.repNext r.val = some o →
    Completes (.repPeriodEnd r) s fun t => vget none t.sf.repNext r.val = none ∧
      t.rd F.SF_REP_STAT_OUT r.val = o % 2 ^ F.SF_REP_STAT_OUT.width) ∧
  (∀ (s : State) (r : Fin 4) (v : BitVec 32), s.m.Takes ⟨.SF_REP_HOST, r.val, 0⟩ v.toNat →
    Completes (.sfRepHost r v) s fun t =>
      t.reg .SF_REP_HOST r.val 0 &&& Reg.SF_REP_HOST.desc.rwBits = v.toNat &&& Reg.SF_REP_HOST.desc.rwBits ∧
      (s.m.repOn r.val = true → s.m.rd F.SF_REP_CFG_SRC r.val = 8 → (vget none t.sf.repNext r.val).isSome = true))

/-- Unit faults, audits, takeovers, clock failures, the fault line and injections complete. It rests on the model's choices of log
entries 36, 55 and 56. -/
def Obligations.UnitFaultEventsComplete : Prop :=
  (∀ (s : State) (u : BitVec 8) (mech : BitVec 4), s.m.checkFires u.toNat mech.toNat = true ∧ s.m.clk.running = true ∧
    s.m.unitRetired u.toNat = false ∧ s.m.isStandby u.toNat = false ∧ s.m.hasSpare u.toNat = true →
    Completes (.unitFault u mech) s fun t => t.fm.tkos.any (fun x => x.unit == u.toNat && x.mech == mech.toNat) = true ∧
      t.unitRetired u.toNat = true) ∧
  (∀ (s : State) (u : BitVec 8) (mech : BitVec 4), s.m.checkFires u.toNat mech.toNat = true ∧ s.m.clk.running = true ∧
    s.m.unitRetired u.toNat = false ∧ s.m.isStandby u.toNat = true →
    Completes (.unitFault u mech) s fun t => t.rb F.FM_STATUS_SPARE_FAIL = true ∧ t.rb F.FM_STATUS_NO_SPARE = true ∧
      s.m.Posted t Ev.FM_SPARE_FAIL u.toNat mech.toNat) ∧
  (∀ (s : State) (u : BitVec 8) (mech : BitVec 4), s.m.checkFires u.toNat mech.toNat = true ∧ s.m.clk.running = true ∧
    s.m.unitRetired u.toNat = false ∧ s.m.isStandby u.toNat = false ∧ s.m.hasSpare u.toNat = false →
    Completes (.unitFault u mech) s fun t => t.rb F.FM_STATUS_UNIT_LOST = true) ∧
  (∀ (s : State) (u : BitVec 8) (mech : BitVec 4), (s.m.clk.running = false ∨ s.m.unitRetired u.toNat = true ∨ s.m.checkFires u.toNat mech.toNat = false) →
    Completes (.unitFault u mech) s fun t => t.fm = s.m.fm ∧ t.axes = s.m.axes ∧ t.regs = s.m.regs) ∧
  (∀ (s : State) (u : BitVec 8) (sparePasses : Bool) (axes : BitVec 48), ∀ e, (match unitKind u.toNat with | .engine e => some e | _ => none) = some e → unitKind u.toNat = .engine e ∧ s.m.rb F.FM_CFG_AUDIT_E = true ∧ s.m.erFree = true ∧ s.m.dbgHalt = false → Completes (.auditMismatch u sparePasses axes) s fun t => t.rd F.FM_CNT_AUDIT_MIS = satInc (2 ^ F.FM_CNT_AUDIT_MIS.width - 1) (s.m.rd F.FM_CNT_AUDIT_MIS)) ∧
  (∀ (s : State) (u : BitVec 8) (sparePasses : Bool) (axes : BitVec 48), ∀ e, (match unitKind u.toNat with | .engine e => some e | _ => none) = some e → unitKind u.toNat = .engine e ∧ s.m.rb F.FM_CFG_AUDIT_E = false → Completes (.auditMismatch u sparePasses axes) s fun t => t.regs = s.m.regs ∧ t.fm = s.m.fm) ∧
  (∀ (s : State) (u : BitVec 8) (dur : BitVec 16) (rep : BitVec 8), ∀ x, ((s.m.fm.tkos.find? fun y => y.unit == u.toNat)) = some x →
    Completes (.takeoverComplete u dur rep) s fun t => t.fm.tkos = s.m.fm.tkos.filter (fun y => y.unit != u.toNat) ∧
      t.rd F.FM_CNT_TKO = satInc (2 ^ F.FM_CNT_TKO.width - 1) (s.m.rd F.FM_CNT_TKO) ∧ t.rb F.FM_STATUS_NO_SPARE = true ∧
      s.m.Posted t Ev.FM_TAKEOVER u.toNat (x.mech % 16 + min dur.toNat (tkoBound u.toNat) * 2 ^ 8 + rep.toNat * 2 ^ 24)) ∧
  (∀ (s : State), s.m.clk.running = true ∧ s.m.unitRetired 0x48 = false ∧ s.m.rcFree = true →
    Completes .refFail s fun t => t.fm.rcRef = true ∧ t.fm.tkos.any (fun x => x.unit == 0x48 && x.mech == 9) = true) ∧
  (∀ (s : State) (u : BitVec 8), ∀ d, (match unitKind u.toNat with | .pll e => some e | _ => none) = some d → s.m.clk.running = true ∧ unitKind u.toNat = .pll d ∧ s.m.unitRetired u.toNat = false ∧ s.m.splFree = true → Completes (.pllFail u) s fun t => t.rd F.FM_STATUS_SPL_FOR = d ∧ t.fm.tkos.any (fun x => x.unit == u.toNat && x.mech == 8) = true) ∧
  (∀ (s : State) (asserted : Bool), s.m.dead = false ∧ s.m.faultLow = false ∧ s.m.fm.line = false ∧ asserted = true →
    Completes (.faultLine asserted) s fun t => t.fm.line = true ∧ t.rb F.FM_STATUS_FAULT_LINE = true) ∧
  (∀ (s : State) (asserted : Bool), s.m.dead = false ∧ s.m.faultLow = false ∧ asserted = false →
    Completes (.faultLine asserted) s fun t => t.fm = { s.m.fm with line := false } ∧ t.axes = s.m.axes) ∧
  (∀ (s : State) (w : BitVec 32), s.m.Takes ⟨.FM_INJECT, 0, 0⟩ w.toNat ∧ bitsOf w.toNat 8 8 = 0xA5 ∧
    s.m.rb F.FM_CFG_INJ_EN = true ∧ s.m.clk.running = true ∧ s.m.unitRetired (bitsOf w.toNat 0 8) = false ∧
    s.m.isStandby (bitsOf w.toNat 0 8) = false ∧ s.m.hasSpare (bitsOf w.toNat 0 8) = true →
    Completes (.fmInject w) s fun t => t.fm.tkos.any (fun x => x.unit == bitsOf w.toNat 0 8 && x.mech == 11) = true) ∧
  (∀ (s : State) (w : BitVec 32), s.m.Takes ⟨.FM_INJECT, 0, 0⟩ w.toNat ∧ ¬(bitsOf w.toNat 8 8 = 0xA5 ∧
    s.m.rb F.FM_CFG_INJ_EN = true) →
    Completes (.fmInject w) s fun t => t.rb F.FM_STATUS_INJ_REFUSED = true ∧ t.fm = s.m.fm)

/-- Memory errors, scrubs, the heat ledger and the thermal fault complete. It rests on the model's choices of log entries 57, 58, 99
and 117. -/
def Obligations.MemoryCheckAndHeatEventsComplete : Prop :=
  (∀ (s : State) (dram : Bool) (addr : BitVec 40) (row : BitVec 24) (reserve : Bool), dram = true →
    Completes (.eccCorrectable dram addr row reserve) s fun t =>
      t.rd F.FM_ECC_D_CORR = satInc (2 ^ F.FM_ECC_D_CORR.width - 1) (s.m.rd F.FM_ECC_D_CORR) ∧
      bitsOf (t.reg .FM_ECC_LAST 0 0) 0 40 = addr.toNat ∧ bitsOf (t.reg .FM_ECC_LAST 0 0) 40 2 = 1) ∧
  (∀ (s : State) (dram : Bool) (addr : BitVec 40) (row : BitVec 24) (reserve : Bool), dram = false →
    Completes (.eccCorrectable dram addr row reserve) s fun t =>
      t.rd F.FM_ECC_S_CORR = satInc (2 ^ F.FM_ECC_S_CORR.width - 1) (s.m.rd F.FM_ECC_S_CORR) ∧
      bitsOf (t.reg .FM_ECC_LAST 0 0) 0 40 = addr.toNat ∧ bitsOf (t.reg .FM_ECC_LAST 0 0) 40 2 = 0) ∧
  (∀ (s : State) (loc : EccLoc) (addr : BitVec 40), loc = .dram ∧ addr.toNat < 0x04000000 →
    Completes (.eccUncorrectable loc addr) s fun t => t.badWord addr.toNat = true ∧
      t.rd F.FM_ECC_D_UNC = satInc (2 ^ F.FM_ECC_D_UNC.width - 1) (s.m.rd F.FM_ECC_D_UNC) ∧
      bitsOf (t.reg .FM_ECC_LAST 0 0) 40 2 = 3) ∧
  (∀ (s : State) (loc : EccLoc) (addr : BitVec 40), loc = .other →
    Completes (.eccUncorrectable loc addr) s fun t => s.m.Posted t Ev.FM_ECC_UNCORR 0x50 addr.toNat ∧
      bitsOf (t.reg .FM_ECC_LAST 0 0) 0 40 = addr.toNat ∧ t.axes = s.m.axes) ∧
  (∀ (s : State) (off : BitVec 32), ∀ x, s.m.nv.inUse = some x → s.m.badWord off.toNat = true ∧ off.toNat / 16 * 16 < x.2.2 →
    Completes (.eccRestore off) s fun t => t.badWord off.toNat = false ∧
      t.dramRead (off.toNat / 16 * 16) 16 = s.m.flashRead (x.2.1 + off.toNat / 16 * 16) 16) ∧
  (∀ (s : State) (dram : Bool) (progress : BitVec 16), dram = true ∧ s.m.rd F.FM_CFG_SCRUB_H ≠ 0 →
    Completes (.scrub dram progress) s fun t => t.rd F.FM_SCRUB_PROGRESS = progress.toNat % 2 ^ F.FM_SCRUB_PROGRESS.width ∧
      t.rd F.FM_SCRUB_PASSES = (if progress = 0 then (s.m.rd F.FM_SCRUB_PASSES + 1) % 2 ^ F.FM_SCRUB_PASSES.width else s.m.rd F.FM_SCRUB_PASSES)) ∧
  (∀ (s : State) (dram : Bool) (progress : BitVec 16), (dram = false ∨ s.m.rd F.FM_CFG_SCRUB_H = 0) →
    Completes (.scrub dram progress) s fun t => t.regs = s.m.regs) ∧
  (∀ (s : State) (tbp : BitVec 24), Completes (.ledgerInterval tbp) s fun t => (∀ k : Fin 96, (t.coil k).sumSq = 0 ∧
      (t.coil k).sumAbs = 0 ∧ (t.coil k).sumN = 0) ∧ t.heat.tbpNoted = decide (85 < ofFixed 8 tbp.toInt)) ∧
  (∀ (s : State) (n : Fin 48), 100 ≤ (s.m.hax n.val).jRun ∧ (s.m.ax n.val).mode = .hold →
    Completes (.thermalFault n) s fun t => (t.ax n.val).mode = .fault ∧ t.rd F.AX_FAULT_CAUSE n.val = 0x0A) ∧
  (∀ (s : State) (n : Fin 48), (s.m.hax n.val).jRun < 100 ∧ (s.m.hax n.val).wRun < 1000 →
    Completes (.thermalFault n) s fun t => t.axes = s.m.axes ∧ t.regs = s.m.regs)

/-- Patina passes, records and minutes complete. It rests on the model's choices of log entries 6, 53, 54 and 124. -/
def Obligations.PatinaCompletes : Prop :=
  (∀ (s : State) (w : PatinaWin), s.m.clk.running = true ∧ s.m.patDue = true ∧ s.m.rb F.PT_CFG_EN = true ∧ s.m.kn.phase = .run →
    Completes (.patinaPass w) s fun t => t.pt.moved = 0 ∧ t.pt.win0 = s.m.clk.hours ∧
      t.pt.staged.length = s.m.pt.staged.length + 1 ∧
      t.rd F.PT_STAT_PASSES = (s.m.rd F.PT_STAT_PASSES + 1) % 2 ^ F.PT_STAT_PASSES.width) ∧
  (∀ (s : State) (w : PatinaWin), (s.m.clk.running = false ∨ s.m.patDue = false) →
    Completes (.patinaPass w) s fun t => t.pt = s.m.pt ∧ t.regs = s.m.regs) ∧
  (∀ (s : State) (w : PatinaWin), s.m.regAnswers ⟨.PT_CTRL, 0, 0⟩ = true ∧ s.m.rb F.PT_CFG_EN = true ∧ s.m.kn.phase = .run →
    Completes (.passNow w) s fun t => t.pt.moved = 0 ∧ t.pt.win0 = s.m.clk.hours ∧
      t.pt.staged.length = s.m.pt.staged.length + 1) ∧
  (∀ (s : State), s.m.Takes ⟨.PT_CTRL, 0, 0⟩ 2 →
    Completes .clrLimits s fun t => (∀ n : Fin 48, t.rd F.PT_PLAN_VLIM n = 0)) ∧
  (∀ (s : State), s.m.clk.running = true →
    Completes .patinaLogMinute s fun t =>
      t.pt.mins = ((s.m.rd F.HL_STATE_TBP, s.m.rd F.HL_STATE_PBAR) :: s.m.pt.mins).take 1440) ∧
  (∀ (s : State), s.m.clk.running = false →
    Completes .patinaLogMinute s fun t => t.pt = s.m.pt) ∧
  (∀ (s : State) (ok : Bool), ∀ r, s.m.pt.staged.head? = some r → ∀ rest, some (s.m.pt.staged.drop 1) = some rest →
    (s.m.pt.staged = r :: rest ∧ (ok = false ∨ s.m.nv.lost = true)) →
    Completes (.patinaRecordWritten ok) s fun t => t.pt.staged = rest ∧ t.flash = s.m.flash ∧ t.rb F.PT_STAT_REC_FAIL = true ∧
      s.m.Posted t Ev.PT_RECORD_FAIL 0 (ofBytesLE ((r.drop 8).take 4))) ∧
  (∀ (s : State) (ok : Bool), ∀ r, s.m.pt.staged.head? = some r → ∀ rest, some (s.m.pt.staged.drop 1) = some rest →
    s.m.pt.staged = r :: rest ∧ ok = true ∧ s.m.nv.lost = false ∧ s.m.patNewest = none →
    Completes (.patinaRecordWritten ok) s fun t => t.pt.staged = rest ∧ t.flash = (s.m.flashProgram (patSlot 0) r).flash ∧
      s.m.Posted t Ev.PT_RECORD 0 (ofBytesLE ((r.drop 8).take 4))) ∧
  (∀ (s : State) (ok : Bool), s.m.pt.staged = [] →
    Completes (.patinaRecordWritten ok) s fun t => t.pt = s.m.pt ∧ t.flash = s.m.flash)

/-- Strata triggers, freezes, arming and disarming complete. It rests on the model's choices of log entries 36 and 93. -/
def Obligations.StrataEventsComplete : Prop :=
  (∀ (s : State), s.m.st.fired = 0 →
    Completes .strataTrigger s fun t => t.st.cap = s.m.st.cap ∧ t.st.held = s.m.st.held ∧ t.regs = s.m.regs) ∧
  (∀ (s : State), ∀ i, ((List.range 16).find? fun i => !s.m.layerUsed i) = some i → s.m.st.fired ≠ 0 ∧ s.m.st.cap = none ∧
    s.m.stAccepts = true →
    Completes .strataTrigger s fun t => t.st.armed = false ∧
      t.st.cap.map (fun c => (c.layer, c.t, c.last)) = some (i, s.m.clk.tick + 1, s.m.clk.tick + 1 + 50 * s.m.stPost) ∧
      t.rb F.ST_LAYER_ST_PENDING i = true ∧ s.m.Posted t Ev.ST_TRIGGER i s.m.st.fired) ∧
  (∀ (s : State), s.m.st.fired ≠ 0 ∧ s.m.st.cap = none ∧ s.m.stAccepts = false →
    Completes .strataTrigger s fun t => t.st.cap = none ∧ t.rb F.ST_STAT_TRIG_LOST = true ∧
      s.m.Posted t Ev.ST_TRIG_LOST 0 s.m.st.fired) ∧
  (∀ (s : State), ∀ p, s.m.st.cap = some p → s.m.st.fired ≠ 0 →
    Completes .strataTrigger s fun t => t.st.cap = some p ∧
      t.rd F.ST_LAYER_CAUSE p.layer = (s.m.rd F.ST_LAYER_CAUSE p.layer ||| s.m.st.fired) % 2 ^ F.ST_LAYER_CAUSE.width) ∧
  (∀ (s : State), ∀ p, s.m.st.cap = some p → p.whole = true →
    Completes .strataFreeze s fun t => t.st.cap = none ∧ t.rb F.ST_LAYER_ST_VALID p.layer = true ∧
      t.rb F.ST_LAYER_ST_PENDING p.layer = false ∧ t.st.armed = (s.m.st.armed || s.m.rb F.ST_CFG_REARM)) ∧
  (∀ (s : State), (s.m.st.cap.map (·.whole)) ≠ some true →
    Completes .strataFreeze s fun t => t.st.cap = s.m.st.cap ∧ t.st.held = s.m.st.held ∧ t.regs = s.m.regs) ∧
  (∀ (s : State), s.m.Takes ⟨.ST_CTRL, 0, 0⟩ 1 ∧ bitOf (s.m.rd F.ST_TRIG_CFG_VALUE) 0 = true →
    Completes .stTrig s fun t => bitOf t.st.fired 0 = true ∧ t.st.cap = s.m.st.cap) ∧
  (∀ (s : State), s.m.Takes ⟨.ST_CTRL, 0, 0⟩ 1 ∧ bitOf (s.m.rd F.ST_TRIG_CFG_VALUE) 0 = false →
    Completes .stTrig s fun t => t.st.fired = s.m.st.fired ∧ t.st.cap = s.m.st.cap) ∧
  (∀ (s : State), s.m.Takes ⟨.ST_CTRL, 0, 0⟩ 2 →
    Completes .stArm s fun t => t.st.armed = true ∧ t.st.cap = s.m.st.cap ∧ t.st.held = s.m.st.held) ∧
  (∀ (s : State), s.m.Takes ⟨.ST_CTRL, 0, 0⟩ 4 →
    Completes .stDisarm s fun t => t.st.armed = false ∧ t.st.cap = s.m.st.cap ∧ t.st.held = s.m.st.held)

/-- Strata releases, enable, region and selection complete. It rests on the model's choices of log entry 93. -/
def Obligations.StrataRegistersComplete : Prop :=
  (∀ (s : State) (layer : Fin 16), s.m.Takes ⟨.ST_CTRL, 0, 0⟩ (8 + layer.val * 2 ^ 8) →
    Completes (.stRelease layer) s fun t => t.reg .ST_LAYER layer.val 0 = 0 ∧ t.reg .ST_LAYER_ST layer.val 0 = 0 ∧
      t.st.held = s.m.st.held.filter (fun x => x.2 != layer.val) ∧ t.st.armed = s.m.st.armed ∧
      (s.m.st.cap.map (·.layer) = some layer.val → t.st.cap = none) ∧ (s.m.st.cap.map (·.layer) ≠ some layer.val →
      t.st.cap = s.m.st.cap)) ∧
  (∀ (s : State), s.m.Takes ⟨.ST_CTRL, 0, 0⟩ 16 →
    Completes .stReleaseAll s fun t => (∀ i : Fin 16, t.reg .ST_LAYER i 0 = 0 ∧ t.reg .ST_LAYER_ST i 0 = 0) ∧
      t.rd F.ST_STAT_LAYERS = 0) ∧
  (∀ (s : State) (en : Bool), s.m.Takes ⟨.ST_CFG, 0, 0⟩ (putBits (s.m.peek ⟨.ST_CFG, 0, 0⟩ &&& Reg.ST_CFG.desc.rwBits) 0 1 (b2n en)) ∧
    en = true ∧ s.m.rb F.ST_CFG_EN = false ∧ s.m.st.on = false →
    Completes (.stEn en) s fun t => t.rb F.ST_CFG_EN = true ∧ t.st.on = s.m.clk.running ∧ t.st.ring = [] ∧ t.st.frames = []) ∧
  (∀ (s : State) (en : Bool), s.m.Takes ⟨.ST_CFG, 0, 0⟩ (putBits (s.m.peek ⟨.ST_CFG, 0, 0⟩ &&& Reg.ST_CFG.desc.rwBits) 0 1 (b2n en)) ∧
    en = false ∧ s.m.rb F.ST_CFG_EN = true →
    Completes (.stEn en) s fun t => t.rb F.ST_CFG_EN = false ∧ t.st.on = false ∧ t.st.cap = none) ∧
  (∀ (s : State) (v : BitVec 4), s.m.Takes ⟨.ST_REGION, 0, 0⟩ v.toNat ∧ s.m.rb F.ST_CFG_EN = false ∧ s.m.allOff = true →
    Completes (.stRegion v) s fun t => t.rd F.ST_REGION_M = v.toNat ∧ (∀ i : Fin 16, t.reg .ST_LAYER i 0 = 0 ∧
      t.reg .ST_LAYER_ST i 0 = 0) ∧ t.st.ring = []) ∧
  (∀ (s : State) (v : BitVec 4), (s.m.Takes ⟨.ST_REGION, 0, 0⟩ v.toNat ∧ (s.m.rb F.ST_CFG_EN = true ∨ s.m.allOff = false)) →
    Completes (.stRegion v) s fun t => t.rb F.ST_STAT_SPLIT_REFUSED = true ∧ t.rd F.ST_REGION_M = s.m.rd F.ST_REGION_M ∧
      t.st.ring = s.m.st.ring) ∧
  (∀ (s : State) (k : Fin 5) (w : Word), s.m.Takes ⟨.ST_SEL, k.val, 0⟩ w.toNat ∧ s.m.stSelOk k.val w.toNat = true →
    Completes (.stSel k w) s fun t => t.reg .ST_SEL k.val 0 &&& Reg.ST_SEL.desc.rwBits = w.toNat &&& Reg.ST_SEL.desc.rwBits) ∧
  (∀ (s : State) (k : Fin 5) (w : Word), s.m.Takes ⟨.ST_SEL, k.val, 0⟩ w.toNat ∧ s.m.stSelOk k.val w.toNat = false →
    Completes (.stSel k w) s fun t => t.rb F.ST_STAT_RATE_REFUSED = true ∧ t.reg .ST_SEL k.val 0 = s.m.reg .ST_SEL k.val 0)

/-- Host frames complete: NOP, reads, writes and broadcasts. It rests on the model's choices of log entries 19, 59, 103 and 121. -/
def Obligations.HostFramesComplete : Prop :=
  (∀ (s : State) (req : Word), (s.m.NoAbort ∧ s.m.hp.want = none ∧ (s.m.hp.gen = 1 ∨ s.m.hp.gen = 2 ∨ s.m.hp.gen = 3)) →
    Completes (.hpNop req) s fun t => t.rd F.HP_FRAMES_CNT = (s.m.rd F.HP_FRAMES_CNT + 1) % 2 ^ F.HP_FRAMES_CNT.width ∧
      t.hp.out.isEmpty = false ∧ t.otp = s.m.otp) ∧
  (∀ (s : State) (req : Word), s.m.NoAbort ∧ s.m.hp.want = none ∧ s.m.hp.gen = 3 →
    Completes (.hpNop req) s fun t => t.hp.rep.status = 0 ∧ t.hp.rep.cmd = 0 ∧ t.hp.rep.words = [] ∧
      t.hp.rep.seq = bitsOf req.toNat 96 16 ∧ t.hp.frameErr = false ∧
      t.rd F.HP_FRAMES_CNT = (s.m.rd F.HP_FRAMES_CNT + 1) % 2 ^ F.HP_FRAMES_CNT.width) ∧
  (∀ (s : State) (req : Word), s.m.NoAbort ∧ s.m.hp.want = none ∧ s.m.hp.gen = 0 →
    Completes (.hpNop req) s fun t => t.hp = s.m.hp ∧ t.regs = s.m.regs) ∧
  (∀ (s : State) (req : Word), ∀ k, ((slotAddr (bitsOf req.toNat 32 7) (s.m.rd F.GL_AXSEL_AXIS)).bind fun a => (regAt a).map (·.1)) = some k →
    s.m.NoAbort ∧ s.m.hp.want = none ∧ s.m.hp.gen = 1 ∧ s.m.regAnswers k = true ∧ k.r.desc.wide = false ∧ s.m.live k = [] ∧
    k.r ≠ .HP_CFG ∧ k.r ≠ .GL_IDATA →
    Completes (.hpRead req) s fun t => t.hp.rep.status = 0 ∧ t.hp.rep.cmd = 1 ∧
      t.hp.rep.words = [BitVec.ofNat 128 (s.m.peek k)] ∧
      t.rd F.HP_FRAMES_CNT = (s.m.rd F.HP_FRAMES_CNT + 1) % 2 ^ F.HP_FRAMES_CNT.width) ∧
  (∀ (s : State) (req : Word), ∀ k, (regAt (bitsOf req.toNat 0 40)).map (·.1) = some k → s.m.NoAbort ∧ s.m.hp.want = none ∧
    s.m.hp.gen = 3 ∧ bitOf req.toNat 121 = false ∧ bitsOf req.toNat 112 8 = 0 ∧ bitsOf req.toNat 0 40 < 2 ^ 32 ∧
    bitsOf req.toNat 0 40 % 4 = 0 ∧ bitsOf req.toNat 0 40 < 0x01000000 ∧ s.m.regAnswers k = true ∧ k.r.desc.wide = false ∧
    s.m.live k = [] ∧ k.r ≠ .HP_CFG →
    Completes (.hpRead req) s fun t => t.hp.rep.status = 0 ∧ t.hp.rep.cmd = 1 ∧
      t.hp.rep.words = [BitVec.ofNat 128 (s.m.peek k)] ∧ t.hp.rep.seq = bitsOf req.toNat 96 16 ∧
      t.rd F.HP_FRAMES_CNT = (s.m.rd F.HP_FRAMES_CNT + 1) % 2 ^ F.HP_FRAMES_CNT.width) ∧
  (∀ (s : State) (req : Word), s.m.NoAbort ∧ s.m.hp.want = none ∧ s.m.hp.gen = 3 ∧ bitOf req.toNat 121 = false ∧
    bitsOf req.toNat 112 8 = 0 ∧ bitsOf req.toNat 0 40 < 0x01000000 ∧ bitsOf req.toNat 0 40 % 4 = 0 ∧
    regAt (bitsOf req.toNat 0 40) = none →
    Completes (.hpRead req) s fun t => t.hp.rep.status = 1 ∧ t.hp.rep.words = [0] ∧
      t.rd F.HP_ERR_BUS_CNT = satInc (2 ^ F.HP_ERR_BUS_CNT.width - 1) (s.m.rd F.HP_ERR_BUS_CNT)) ∧
  (∀ (s : State) (req : Word) (data : List Word), ∀ d, data.head? = some d → s.m.NoAbort ∧ s.m.hp.want = none ∧ s.m.hp.gen = 3 ∧
    bitOf req.toNat 121 = false ∧ bitsOf req.toNat 112 8 = 0 ∧ bitsOf req.toNat 0 40 = 0x0C ∧
    s.m.Takes ⟨.GL_AXSEL, 0, 0⟩ (d.toNat % 2 ^ 32) →
    Completes (.hpWrite req data) s fun t => t.hp.rep.status = 0 ∧ t.hp.rep.cmd = 2 ∧
      t.rd F.GL_AXSEL_AXIS = bitsOf d.toNat 0 F.GL_AXSEL_AXIS.width ∧
      t.rd F.HP_FRAMES_CNT = (s.m.rd F.HP_FRAMES_CNT + 1) % 2 ^ F.HP_FRAMES_CNT.width) ∧
  (∀ (s : State) (req : Word) (data : List Word), s.m.NoAbort ∧ s.m.hp.want = none ∧ s.m.hp.gen = 3 ∧
    bitOf req.toNat 121 = false ∧ bitsOf req.toNat 112 8 = 0 ∧ bitsOf req.toNat 0 40 < 0x01000000 ∧
    bitsOf req.toNat 0 40 % 4 = 0 ∧ regAt (bitsOf req.toNat 0 40) = none →
    Completes (.hpWrite req data) s fun t => t.hp.rep.status = 1 ∧ t.axes = s.m.axes ∧ t.queues = s.m.queues) ∧
  (∀ (s : State) (req : Word) (data : List Word), (s.m.NoAbort ∧ s.m.hp.want = none ∧ s.m.hp.gen = 3 ∧
    s.m.rb F.HP_CFG_BCAST_EN = true ∧ (bitsOf req.toNat 124 4 = 0 ∨ bitsOf req.toNat 124 4 = 1)) →
    Completes (.broadcastFrame req data) s fun t => t.hp.rep = s.m.hp.rep ∧ t.hp.out = s.m.hp.out ∧
      t.rd F.HP_ERR_CMD_CNT = satInc (2 ^ F.HP_ERR_CMD_CNT.width - 1) (s.m.rd F.HP_ERR_CMD_CNT) ∧
      t.rd F.HP_FRAMES_CNT = (s.m.rd F.HP_FRAMES_CNT + 1) % 2 ^ F.HP_FRAMES_CNT.width) ∧
  (∀ (s : State) (req : Word) (data : List Word), ∀ d, data.head? = some d → s.m.NoAbort ∧ s.m.hp.want = none ∧ s.m.hp.gen = 3 ∧
    s.m.rb F.HP_CFG_BCAST_EN = true ∧ bitsOf req.toNat 124 4 = 2 ∧ bitOf req.toNat 121 = false ∧ bitsOf req.toNat 112 8 = 0 ∧
    bitsOf req.toNat 0 40 = 0x0C ∧ s.m.Takes ⟨.GL_AXSEL, 0, 0⟩ (d.toNat % 2 ^ 32) →
    Completes (.broadcastFrame req data) s fun t => t.rd F.GL_AXSEL_AXIS = bitsOf d.toNat 0 F.GL_AXSEL_AXIS.width ∧
      t.hp.rep = s.m.hp.rep ∧ t.hp.out = s.m.hp.out ∧
      t.rd F.HP_FRAMES_CNT = (s.m.rd F.HP_FRAMES_CNT + 1) % 2 ^ F.HP_FRAMES_CNT.width) ∧
  (∀ (s : State) (req : Word) (data : List Word), (s.m.NoAbort ∧ s.m.hp.want = none ∧ (s.m.hp.gen = 1 ∨ s.m.hp.gen = 2) ∧
    s.m.rb F.HP_CFG_BCAST_EN = false) →
    Completes (.broadcastFrame req data) s fun t => t.hp = s.m.hp ∧ t.regs = s.m.regs ∧ t.axes = s.m.axes)

/-- Discarded frames, frame timeouts, lane resets, generation changes and the counter clear complete. It rests on the model's
choices of log entries 19, 20, 63 and 126. -/
def Obligations.HostLinkEventsComplete : Prop :=
  (∀ (s : State) (cause : Fin 6) (bcast : Bool), (s.m.hp.want = none ∧ s.m.hp.gen ≠ 0 ∧
    (bcast = false ∨ cause.val = 3 ∨ s.m.rb F.HP_CFG_BCAST_EN = true)) →
    Completes (.frameDiscard cause bcast) s fun t => t.hp.out = [] ∧ t.hp.frameErr = true ∧ t.hp.rep = s.m.hp.rep ∧
      t.rd F.HP_ERR_FRAME_CNT = satInc (2 ^ F.HP_ERR_FRAME_CNT.width - 1) (s.m.rd F.HP_ERR_FRAME_CNT) ∧
      (s.m.hp.errNoted = false → s.m.Posted t Ev.HP_FRAME_ERR 0 (cause.val + 8 * b2n bcast + t.rd F.HP_ERR_FRAME_CNT * 2 ^ 16))) ∧
  (∀ (s : State) (cause : Fin 6) (bcast : Bool), (s.m.hp.want = none ∧ (s.m.hp.gen = 0 ∨ (bcast = true ∧ cause.val ≠ 3 ∧
    s.m.rb F.HP_CFG_BCAST_EN = false))) →
    Completes (.frameDiscard cause bcast) s fun t => t.hp = s.m.hp ∧ t.regs = s.m.regs) ∧
  (∀ (s : State) (bcast : Bool), (s.m.hp.want = none ∧ s.m.hp.gen ≠ 0 ∧ (bcast = false ∨ s.m.rb F.HP_CFG_BCAST_EN = true)) →
    Completes (.frameTimeout bcast) s fun t => t.hp.out = [] ∧ t.hp.frameErr = true ∧
      t.rd F.HP_ERR_FRAME_CNT = satInc (2 ^ F.HP_ERR_FRAME_CNT.width - 1) (s.m.rd F.HP_ERR_FRAME_CNT) ∧
      bitsOf (t.reg .HP_LAST 0 0) 0 96 = 4 * 2 ^ 44 + b2n bcast * 2 ^ 47 + t.stamp * 2 ^ 48 ∧ (s.m.hp.gen = 1 →
      t.reg .HP_LAST 0 0 = 4 * 2 ^ 44 + b2n bcast * 2 ^ 47 + t.stamp * 2 ^ 48)) ∧
  (∀ (s : State), s.m.hp.want = none ∧ s.m.hp.gen ≠ 0 →
    Completes .laneReset s fun t => t.rd F.HP_CFG_LANES_H = bitsOf s.m.hp.imgCfg 0 2 ∧
      t.rd F.HP_CFG_LANES_D = bitsOf s.m.hp.imgCfg 2 2 ∧ t.rb F.HP_STAT_RESYNC = true ∧ t.hp.gen = s.m.hp.gen ∧
      s.m.Posted t Ev.HP_LANE_RESET 0 (bitsOf s.m.hp.imgCfg 0 4)) ∧
  (∀ (s : State), ∀ g, s.m.hp.want = some g → s.m.hp.gen ≠ 0 →
    Completes .genChange s fun t => t.hp.gen = g ∧ t.hp.want = none ∧ t.hp.rep = .first ∧
      s.m.Posted t Ev.HP_GEN 0 (g + s.m.rd F.HP_CFG_LANES_H % 3 * 4 + s.m.rd F.HP_CFG_LANES_D % 3 * 16)) ∧
  (∀ (s : State), s.m.hp.want = none →
    Completes .genChange s fun t => t.hp = s.m.hp ∧ t.rings = s.m.rings) ∧
  (∀ (s : State), s.m.Takes ⟨.HP_CTRL, 0, 0⟩ 1 →
    Completes .hpClr s fun t => t.reg .HP_ERR 0 0 = 0 ∧ t.axes = s.m.axes)

/-- Alias, masked, plain and indirect accesses and lock writes complete. It rests on the model's choices of log entries 60 and 65. -/
def Obligations.AddressedWritesComplete : Prop :=
  (∀ (s : State) (a : BitVec 24) (w : Word), ∀ k, ((regAt (a.toNat / 4 * 4)).bind fun x => if x.2 = 0 then some x.1 else none) = some k →
    s.m.NoAbort ∧ s.m.regAnswers k = true ∧ k.r = .Q_IRQ_EN ∧ s.m.lockBits = 0 →
    Completes (.aliasSet a w) s fun t =>
      t.reg .Q_IRQ_EN 0 0 &&& Reg.Q_IRQ_EN.desc.rwBits = (s.m.reg .Q_IRQ_EN 0 0 ||| w.toNat) &&& Reg.Q_IRQ_EN.desc.rwBits) ∧
  (∀ (s : State) (a : BitVec 24) (w : Word), ∀ k, ((regAt (a.toNat / 4 * 4)).bind fun x => if x.2 = 0 then some x.1 else none) = some k →
    s.m.NoAbort ∧ s.m.regAnswers k = true ∧ k.r = .Q_IRQ_EN ∧ s.m.lockBits = 0 →
    Completes (.aliasClr a w) s fun t => t.reg .Q_IRQ_EN 0 0 &&& Reg.Q_IRQ_EN.desc.rwBits &&& w.toNat = 0) ∧
  (∀ (s : State) (a : BitVec 24) (w : Word), ∀ k, ((regAt (a.toNat / 4 * 4)).bind fun x => if x.2 = 0 then some x.1 else none) = some k →
    s.m.NoAbort ∧ s.m.regAnswers k = true ∧ k.r = .Q_IRQ_EN ∧ s.m.lockBits = 0 →
    Completes (.aliasTgl a w) s fun t =>
      t.reg .Q_IRQ_EN 0 0 &&& Reg.Q_IRQ_EN.desc.rwBits = (s.m.reg .Q_IRQ_EN 0 0 ^^^ w.toNat) &&& Reg.Q_IRQ_EN.desc.rwBits) ∧
  (∀ (s : State) (a : BitVec 24) (w : Word), ∀ k, ((regAt (a.toNat / 4 * 4)).bind fun x => if x.2 = 0 then some x.1 else none) = some k →
    s.m.NoAbort ∧ s.m.Takes k w.toNat ∧ k.r = .Q_IRQ_EN →
    Completes (.registerWrite a w) s fun t =>
      t.reg .Q_IRQ_EN 0 0 &&& Reg.Q_IRQ_EN.desc.rwBits = w.toNat &&& Reg.Q_IRQ_EN.desc.rwBits) ∧
  (∀ (s : State) (a : BitVec 24) (w : Word), s.m.NoAbort ∧ regAt (a.toNat / 4 * 4) = none →
    Completes (.registerWrite a w) s fun t =>
      t.rd F.HP_ERR_BUS_CNT = satInc (2 ^ F.HP_ERR_BUS_CNT.width - 1) (s.m.rd F.HP_ERR_BUS_CNT) ∧ t.axes = s.m.axes ∧
      t.queues = s.m.queues ∧ t.otp = s.m.otp) ∧
  (∀ (s : State) (slot : BitVec 7) (axis : BitVec 8) (w : BitVec 32), s.m.NoAbort ∧ slot = 124 ∧
    s.m.regAnswers ⟨.GL_AXSEL, 0, 0⟩ = true →
    Completes (.maskedWrite slot axis w) s fun t =>
      (∀ i : Fin 6, bitOf (t.rd F.GL_AXSEL_AXIS) i = if bitOf w.toNat (16 + i.val) then bitOf w.toNat i else bitOf (s.m.rd F.GL_AXSEL_AXIS) i)) ∧
  (∀ (s : State) (slot : BitVec 7) (axis : BitVec 8) (w : BitVec 32), s.m.NoAbort ∧ s.m.hp.clrDue = false ∧ slot.toNat < 96 ∧
    48 ≤ axis.toNat ∧ axis.toNat < 64 →
    Completes (.maskedWrite slot axis w) s fun t =>
      t.rd F.HP_ERR_BUS_CNT = satInc (2 ^ F.HP_ERR_BUS_CNT.width - 1) (s.m.rd F.HP_ERR_BUS_CNT) ∧ t.axes = s.m.axes) ∧
  (∀ (s : State) (hi : Bool) (w : BitVec 32), (s.m.Takes (if hi then ⟨.GL_IADDR_HI, 0, 0⟩ else ⟨.GL_IADDR, 0, 0⟩) w.toNat) →
    Completes (.iaddrWrite hi w) s fun t => t.rb F.GL_ISTAT_BUSY = true ∧ (hi = false → t.rd F.GL_IADDR_ADDR = w.toNat) ∧
      (hi = true → t.rd F.GL_IADDR_HI_ADDR = w.toNat % 2 ^ 8 ∧ t.rb F.GL_IADDR_HI_INC = bitOf w.toNat 8)) ∧
  (∀ (s : State), s.m.NoAbort ∧ s.m.regAnswers ⟨.GL_IDATA, 0, 0⟩ = true ∧ s.m.rb F.GL_ISTAT_BUSY = true →
    Completes .idataRead s fun t => t.rb F.GL_ISTAT_EARLY = true ∧ t.hp.pre = s.m.hp.pre) ∧
  (∀ (s : State), s.m.NoAbort ∧ s.m.regAnswers ⟨.GL_IDATA, 0, 0⟩ = true ∧ s.m.rb F.GL_ISTAT_BUSY = false ∧ s.m.hp.preStat = 0 →
    Completes .idataRead s fun t => bitsOf t.readData.toNat 0 32 = s.m.hp.pre % 2 ^ 32 ∧ (s.m.rb F.GL_IADDR_HI_INC = true →
      t.rb F.GL_ISTAT_BUSY = true ∧ t.iaddr = (s.m.iaddr + 4) % 2 ^ 40) ∧ (s.m.rb F.GL_IADDR_HI_INC = false →
      t.iaddr = s.m.iaddr)) ∧
  (∀ (s : State) (w : BitVec 32), s.m.NoAbort ∧ s.m.regAnswers ⟨.GL_IDATA, 0, 0⟩ = true ∧ s.m.rb F.GL_ISTAT_BUSY = false ∧
    s.m.iaddr = 0x0C ∧ s.m.Takes ⟨.GL_AXSEL, 0, 0⟩ w.toNat →
    Completes (.idataWrite w) s fun t => t.rd F.GL_AXSEL_AXIS = bitsOf w.toNat 0 F.GL_AXSEL_AXIS.width ∧
      (s.m.rb F.GL_IADDR_HI_INC = true → t.iaddr = 0x10)) ∧
  (∀ (s : State), s.m.rb F.GL_ISTAT_BUSY = true →
    Completes .prefetchDone s fun t => t.rb F.GL_ISTAT_BUSY = false ∧
      t.rd F.GL_ISTAT_STATUS = s.m.hp.preStat % 2 ^ F.GL_ISTAT_STATUS.width) ∧
  (∀ (s : State), s.m.rb F.GL_ISTAT_BUSY = false →
    Completes .prefetchDone s fun t => t.regs = s.m.regs ∧ t.hp = s.m.hp) ∧
  (∀ (s : State) (bits : BitVec 6), s.m.regAnswers ⟨.GL_LOCK, 0, 0⟩ = true →
    Completes (.lockSet bits) s fun t => t.rd F.GL_LOCK_LOCK = (s.m.rd F.GL_LOCK_LOCK ||| bits.toNat) ∧
      (bits.toNat ||| s.m.rd F.GL_LOCK_LOCK ≠ s.m.rd F.GL_LOCK_LOCK →
      s.m.Posted t Ev.GL_LOCK_SET 0 ((bits.toNat ||| s.m.rd F.GL_LOCK_LOCK) - s.m.rd F.GL_LOCK_LOCK)))

/-- Word accesses of 128-bit registers complete. -/
def Obligations.WideWordAccessesComplete : Prop :=
  (∀ (s : State) (a : BitVec 40), ∀ k, ((regAt (a.toNat / 4 * 4)).bind fun x => if x.2 = 0 then some x.1 else none) = some k →
    s.m.NoAbort ∧ a.toNat % 4 = 0 ∧ a.toNat < 0x01000000 ∧ s.m.regAnswers k = true ∧ k.r.desc.wide = true ∧ s.m.live k = [] →
    Completes (.wideWord0Read a) s fun t => t.readData = BitVec.ofNat 128 (bitsOf (s.m.peek k) 0 32) ∧
      t.hp.hold = some (a.toNat, BitVec.ofNat 128 (s.m.peek k))) ∧
  (∀ (s : State) (a : BitVec 40), ∀ x, regAt a.toNat = some x → ∀ h, s.m.hp.hold = some h → s.m.NoAbort ∧ a.toNat % 4 = 0 ∧
    a.toNat < 0x01000000 ∧ s.m.regAnswers x.1 = true ∧ x.1.r.desc.wide = true ∧ x.2 ≠ 0 ∧ h.1 = a.toNat - 4 * x.2 →
    Completes (.wideWordRead a) s fun t => t.readData = BitVec.ofNat 128 (bitsOf h.2.toNat (32 * x.2) 32) ∧ t.hp.hold = some h) ∧
  (∀ (s : State) (a : BitVec 40), ∀ x, regAt a.toNat = some x → s.m.NoAbort ∧ a.toNat % 4 = 0 ∧ a.toNat < 0x01000000 ∧
    s.m.regAnswers x.1 = true ∧ x.1.r.desc.wide = true ∧ x.2 ≠ 0 ∧ s.m.hp.hold = none →
    Completes (.wideWordRead a) s fun t => t.rb F.GL_STATUS_HOLD_MISS = true ∧ t.hp.hold = none) ∧
  (∀ (s : State) (a : BitVec 40) (w : BitVec 32), ∀ x, regAt a.toNat = some x → s.m.NoAbort ∧ a.toNat % 4 = 0 ∧
    a.toNat < 0x01000000 ∧ s.m.regAnswers x.1 = true ∧ x.1.r.desc.wide = true ∧ x.2 ≠ 0 ∧ s.m.hp.stage = none →
    Completes (.wideWordStage a w) s fun t =>
      t.hp.stage = some (a.toNat - 4 * x.2, 2 ^ x.2, BitVec.ofNat 128 (w.toNat * 2 ^ (32 * x.2))) ∧ t.axes = s.m.axes) ∧
  (∀ (s : State) (a : BitVec 40) (w : BitVec 32), ∀ x, regAt a.toNat = some x → s.m.NoAbort ∧ a.toNat % 4 = 0 ∧
    a.toNat < 0x01000000 ∧ s.m.regAnswers x.1 = true ∧ x.1.r = .AX_RETGT ∧ x.2 = 0 ∧ s.m.hp.stage = none →
    Completes (.wideWord0Write a w) s fun t => t.hp.stage = none ∧
      t.reg .AX_RETGT x.1.i 0 &&& Reg.AX_RETGT.desc.rwBits &&& (2 ^ 32 - 1) = w.toNat &&& Reg.AX_RETGT.desc.rwBits) ∧
  (∀ (s : State) (a : BitVec 40) (w : BitVec 32), ∀ x, regAt a.toNat = some x → ∀ g, s.m.hp.stage = some g → s.m.NoAbort ∧
    a.toNat % 4 = 0 ∧ a.toNat < 0x01000000 ∧ s.m.regAnswers x.1 = true ∧ x.1.r = .AX_RETGT ∧ x.2 = 0 ∧ g.1 = a.toNat ∧
    g.2.1 = 14 →
    Completes (.wideWord0Write a w) s fun t => t.hp.stage = none ∧
      t.reg .AX_RETGT x.1.i 0 &&& Reg.AX_RETGT.desc.rwBits = (w.toNat + g.2.2.toNat / 2 ^ 32 * 2 ^ 32) &&& Reg.AX_RETGT.desc.rwBits)

/-- Boundary scan completes: the test instructions and the TAP controller. It rests on the model's choices of log entries 17, 18 and
118. -/
def Obligations.BoundaryScanCompletes : Prop :=
  (∀ (s : State) (code : Fin 3), (s.m.tapLive = true ∧ (∀ g : Fin 16, (s.m.arm g).members = [])) →
    Completes (.tapTestInstruction code) s fun t => t.testInstr = true ∧ t.tap.ir = tapTestCodes.getD code.val 0 ∧
      (∀ n : Fin 48, (s.m.ax n).mode = .hold → (t.ax n).mode = .fault ∧ t.rd F.AX_FAULT_CAUSE n = 8)) ∧
  (∀ (s : State) (code : Fin 3), s.m.tapLive = false →
    Completes (.tapTestInstruction code) s fun t => t.tap = s.m.tap ∧ t.testInstr = s.m.testInstr ∧ t.axes = s.m.axes) ∧
  (∀ (s : State) (trst : Bool) (tms : Bool) (tdi : Bool) (pins : BitVec 201), s.m.tapLive = true ∧ trst = true →
    Completes (.tckEdge trst tms tdi pins) s fun t => t.tap = { s.m.tap with st := .testLogicReset, ir := 2 } ∧
      t.axes = s.m.axes) ∧
  (∀ (s : State) (trst : Bool) (tms : Bool) (tdi : Bool) (pins : BitVec 201), s.m.tapLive = true ∧ trst = false ∧
    s.m.tap.st = .shiftDr →
    Completes (.tckEdge trst tms tdi pins) s fun t => t.tap.dr = shiftIn (tapLength s.m.tap.ir) s.m.tap.dr tdi ∧
      t.tap.st = (if tms then .exit1Dr else .shiftDr) ∧ t.axes = s.m.axes) ∧
  (∀ (s : State) (trst : Bool) (tms : Bool) (tdi : Bool) (pins : BitVec 201), s.m.tapLive = true ∧ trst = false ∧
    s.m.tap.st = .captureDr ∧ s.m.tap.ir = 2 →
    Completes (.tckEdge trst tms tdi pins) s fun t => t.tap.dr = 0x24860001 ∧ t.tap.st = (if tms then .exit1Dr else .shiftDr)) ∧
  (∀ (s : State) (trst : Bool) (tms : Bool) (tdi : Bool) (pins : BitVec 201), s.m.tapLive = true ∧ trst = false ∧
    s.m.tap.st = .shiftIr →
    Completes (.tckEdge trst tms tdi pins) s fun t => t.tap.irShift = shiftIn 4 s.m.tap.irShift tdi ∧
      t.tap.st = (if tms then .exit1Ir else .shiftIr)) ∧
  (∀ (s : State) (trst : Bool) (tms : Bool) (tdi : Bool) (pins : BitVec 201), s.m.tapLive = true ∧ trst = false ∧
    s.m.tap.st = .exit1Ir ∧ tms = true ∧ s.m.tap.irShift % 16 = 0 →
    Completes (.tckEdge trst tms tdi pins) s fun t => t.tap.ir = 0 ∧ t.tap.st = .updateIr ∧ t.testInstr = true) ∧
  (∀ (s : State) (trst : Bool) (tms : Bool) (tdi : Bool) (pins : BitVec 201), s.m.tapLive = false →
    Completes (.tckEdge trst tms tdi pins) s fun t => t.tap = s.m.tap ∧ t.axes = s.m.axes)

/-- A command of one queue, axis, port, coil or bank completes and leaves the others as they are. It rests on the model's choices of
log entry 5. -/
def Obligations.OtherChannelsKeepTheirState : Prop :=
  (∀ (s : State) (q : Fin 64) (w : Word), s.m.NoAbort →
    Completes (.qPush q w) s fun t => ∀ j : Fin 64, j.val ≠ q.val → t.qu j.val = s.m.qu j.val) ∧
  (∀ (s : State) (q : Fin 64) (w : Word), s.m.NoAbort →
    Completes (.qPushDb q w) s fun t => ∀ j : Fin 64, j.val ≠ q.val → t.qu j.val = s.m.qu j.val) ∧
  (∀ (s : State) (q : Fin 64), s.m.NoAbort →
    Completes (.publish q) s fun t => ∀ j : Fin 64, j.val ≠ q.val → t.qu j.val = s.m.qu j.val) ∧
  (∀ (s : State) (q : Fin 64), s.m.NoAbort →
    Completes (.discard q) s fun t => ∀ j : Fin 64, j.val ≠ q.val → t.qu j.val = s.m.qu j.val) ∧
  (∀ (s : State) (q : Fin 64), s.m.NoAbort →
    Completes (.pause q) s fun t => ∀ j : Fin 64, j.val ≠ q.val → t.qu j.val = s.m.qu j.val) ∧
  (∀ (s : State) (q : Fin 64), s.m.NoAbort →
    Completes (.qResume q) s fun t => ∀ j : Fin 64, j.val ≠ q.val → t.qu j.val = s.m.qu j.val) ∧
  (∀ (s : State) (q : Fin 64), s.m.NoAbort →
    Completes (.flush q) s fun t => ∀ j : Fin 64, j.val ≠ q.val → t.qu j.val = s.m.qu j.val) ∧
  (∀ (s : State) (q : Fin 64) (rtn : BitVec 8), s.m.NoAbort →
    Completes (.qRtnStart q rtn) s fun t => ∀ j : Fin 64, j.val ≠ q.val → t.qu j.val = s.m.qu j.val) ∧
  (∀ (s : State) (q : Fin 64) (eccError : Bool), s.m.NoAbort →
    Completes (.routineFetch q eccError) s fun t => ∀ j : Fin 64, j.val ≠ q.val → t.qu j.val = s.m.qu j.val) ∧
  (∀ (s : State) (n : Fin 48) (w : Word), Completes (.axRetgt n w) s fun t => ∀ j : Fin 48, j.val ≠ n.val →
      t.ax j.val = s.m.ax j.val) ∧
  (∀ (s : State) (n : Fin 48) (enable : Bool) (w : Word), Completes (.axSlim n enable w) s fun t =>
      ∀ j : Fin 48, j.val ≠ n.val → t.ax j.val = s.m.ax j.val) ∧
  (∀ (s : State) (n : Fin 48) (a : Bool) (b : Bool), Completes (.limLatchClear n a b) s fun t => ∀ j : Fin 48, j.val ≠ n.val →
      t.ax j.val = s.m.ax j.val) ∧
  (∀ (s : State) (n : Fin 48), Completes (.standstillRamp n) s fun t => ∀ j : Fin 48, j.val ≠ n.val → t.ax j.val = s.m.ax j.val) ∧
  (∀ (s : State) (n : Fin 48), Completes (.axCtrlMaqEnter n) s fun t => ∀ j : Fin 48, j.val ≠ n.val → t.ax j.val = s.m.ax j.val) ∧
  (∀ (s : State) (n : Fin 48), (s.m.groupOf n.val = none ∧
    (∀ k : Fin 48, ((s.m.ax k).follow.all fun f => f.sel != n.val) = true)) →
    Completes (.axCtrlMaqExit n) s fun t => ∀ j : Fin 48, j.val ≠ n.val → t.ax j.val = s.m.ax j.val) ∧
  (∀ (s : State) (p : Fin 12), Completes (.armPort p) s fun t => ∀ j : Fin 12, j.val ≠ p.val → t.port j.val = s.m.port j.val) ∧
  (∀ (s : State) (p : Fin 12), Completes (.disarmPort p) s fun t => ∀ j : Fin 12, j.val ≠ p.val → t.port j.val = s.m.port j.val) ∧
  (∀ (s : State) (p : Fin 12), Completes (.portFaultClear p) s fun t => ∀ j : Fin 12, j.val ≠ p.val →
      t.port j.val = s.m.port j.val) ∧
  (∀ (s : State) (p : Fin 12), Completes (.indexEdge p) s fun t => ∀ j : Fin 12, j.val ≠ p.val → t.port j.val = s.m.port j.val) ∧
  (∀ (s : State) (p : Fin 12) (a : Bool) (b : Bool) (e : QuadAt), Completes (.quadEdge p a b e) s fun t =>
      ∀ j : Fin 12, j.val ≠ p.val → t.port j.val = s.m.port j.val) ∧
  (∀ (s : State) (p : Fin 12) (code : BitVec 3) (cyc : Nat), Completes (.hallChange p code cyc) s fun t =>
      ∀ j : Fin 12, j.val ≠ p.val → t.port j.val = s.m.port j.val) ∧
  (∀ (s : State) (p : Fin 12) (dir : Bool) (ena : Bool) (cyc : Nat), Completes (.stepEdge p dir ena cyc) s fun t =>
      ∀ j : Fin 12, j.val ≠ p.val → t.port j.val = s.m.port j.val) ∧
  (∀ (s : State) (p : Fin 12), Completes (.speedTimeout p) s fun t => ∀ j : Fin 12, j.val ≠ p.val →
      t.port j.val = s.m.port j.val) ∧
  (∀ (s : State) (p : Fin 12), Completes (.serialRead p) s fun t => ∀ j : Fin 12, j.val ≠ p.val → t.port j.val = s.m.port j.val) ∧
  (∀ (s : State) (p : Fin 12) (waits : FrameWaits) (raw : BitVec 64) (eBit : Bool) (wBit : Bool) (crc : BitVec 6), Completes (.serialWord p waits raw eBit wBit crc) s fun t =>
      ∀ j : Fin 12, j.val ≠ p.val → t.port j.val = s.m.port j.val) ∧
  (∀ (s : State) (k : Fin 96) (cnt : BitVec 14), Completes (.peakTrip k cnt) s fun t => ∀ j : Fin 96, j.val ≠ k.val →
      t.coil j.val = s.m.coil j.val) ∧
  (∀ (s : State) (k : Fin 96) (kind : Fin 8), Completes (.sampleHold k kind) s fun t => ∀ j : Fin 96, j.val ≠ k.val →
      t.coil j.val = s.m.coil j.val) ∧
  (∀ (s : State) (k : Fin 96) (kind : Fin 8) (raw : Int) (full : Bool), Completes (.sampleDelivered k kind raw full) s fun t =>
      ∀ j : Fin 96, j.val ≠ k.val → t.coil j.val = s.m.coil j.val) ∧
  (∀ (s : State) (k : Fin 96) (vm : BitVec 16), Completes (.pwmPeriodStart k vm) s fun t => ∀ j : Fin 96, j.val ≠ k.val →
      t.coil j.val = s.m.coil j.val) ∧
  (∀ (s : State) (k : Fin 96) (at_ : CoilAt), Completes (.coilCompute k at_) s fun t => ∀ j : Fin 96, j.val ≠ k.val →
      t.coil j.val = { s.m.coil j.val with acc := (t.coil j.val).acc }) ∧
  (∀ (s : State) (b : Fin 4), Completes (.gateUvRecover b) s fun t => ∀ j : Fin 4, j.val ≠ b.val →
      t.bank j.val = { s.m.bank j.val with ovForce := (t.bank j.val).ovForce }) ∧
  (∀ (s : State) (b : Fin 4), Completes (.vmUvRecover b) s fun t => ∀ j : Fin 4, j.val ≠ b.val →
      t.bank j.val = { s.m.bank j.val with ovForce := (t.bank j.val).ovForce }) ∧
  (∀ (s : State) (b : Fin 4) (sel : BitVec 8), Completes (.csInjGo b sel) s fun t => ∀ j : Fin 4, j.val ≠ b.val →
      t.bank j.val = { s.m.bank j.val with ovForce := (t.bank j.val).ovForce }) ∧
  (∀ (s : State) (b : Fin 4), Completes (.scanGo b) s fun t => ∀ j : Fin 4, j.val ≠ b.val →
      t.bank j.val = { s.m.bank j.val with ovForce := (t.bank j.val).ovForce }) ∧
  (∀ (s : State) (b : Fin 4), Completes (.scanStop b) s fun t => ∀ j : Fin 4, j.val ≠ b.val →
      t.bank j.val = { s.m.bank j.val with ovForce := (t.bank j.val).ovForce })

/-- What the supply, reset and start commands leave unchanged. -/
def Obligations.SupplyAndStartFrame : Prop :=
  (∀ (s t : State) (vselH : Bool) (vselN : Bool) (v : AuxVolts), s.Sound → exec (.vauxGood vselH vselN v) s = .next t →
    t.m.inp = s.m.inp ∧ t.m.otp = s.m.otp) ∧
  (∀ (s t : State) (vaux : BitVec 16) (vhold : BitVec 16), s.Sound → exec (.vauxLost vaux vhold) s = .next t → Changes s.m t.m
    [.clk, .flash, .coils, .banks, .gasp, .kn, .nv, .st, .hp] [.KN_SUPPLY]) ∧
  (∀ (s t : State), s.Sound → exec .lgProgramDone s = .next t → Changes s.m t.m [.clk, .flash, .kn, .nv] []) ∧
  (∀ (s t : State), s.Sound → exec .lastGaspEnd s = .next t → t.m.inp = s.m.inp ∧ t.m.otp = s.m.otp) ∧
  (∀ (s t : State), s.Sound → exec .vholdLow s = .next t → Changes s.m t.m [.clk, .kn] [.KN_MEMO]) ∧
  (∀ (s t : State), s.Sound → exec .vholdCharged s = .next t → Changes s.m t.m [.kn] []) ∧
  (∀ (s t : State), s.Sound → exec .internalSuppliesOff s = .next t → t.m.inp = s.m.inp ∧ t.m.otp = s.m.otp) ∧
  (∀ (s t : State) (rail : Fin 3), s.Sound → exec (.vioOverload rail) s = .next t → Changes s.m t.m [.rings] [.KN_SUPPLY,
    .Q_IRQ]) ∧
  (∀ (s t : State), s.Sound → exec .resetIn s = .next t → t.m.inp = s.m.inp ∧ t.m.otp = s.m.otp ∧ t.m.tap = s.m.tap) ∧
  (∀ (s t : State) (tripA : Bool) (tripB : Bool), s.Sound → exec (.resetNRise tripA tripB) s = .next t → Changes s.m t.m [.clk,
    .flash, .inp, .axes, .queues, .rings, .arms, .regchans, .coils, .banks, .kn, .nv] [.NV_STATUS, .AX_FAULT, .AX_HOME_STAT,
    .Q_IRQ, .GR_STATUS, .GR_FSTAT, .GR_TRIM_OUT, .PW_TRIP_STAT, .PW_TRIP_TS, .LA_AX_STAT, .FB_FOLLOW]) ∧
  (∀ (s t : State) (w : StartMeas), s.Sound → exec (.kilnStart w) s = .next t → t.m.inp = s.m.inp ∧ t.m.tap = s.m.tap) ∧
  (∀ (s t : State), s.Sound → exec .kilnStepTimeout s = .next t → Changes s.m t.m [.clk, .flash, .kn, .nv, .hp] [.KN_STATE,
    .KN_LAST, .KN_MEMO]) ∧
  (∀ (s t : State), s.Sound → exec .kilnRestart s = .next t → t.m.inp = s.m.inp ∧ t.m.otp = s.m.otp ∧ t.m.tap = s.m.tap) ∧
  (∀ (s t : State), s.Sound → exec .step16Complete s = .next t → Changes s.m t.m [.flash, .kn, .nv] [.KN_STEPTIME, .KN_MEMO]) ∧
  (∀ (s t : State) (clrCnt : Bool), s.Sound → exec (.restartCmd clrCnt) s = .next t → t.m.inp = s.m.inp ∧ t.m.otp = s.m.otp ∧
    t.m.tap = s.m.tap) ∧
  (∀ (s t : State), s.Sound → exec .dramFast s = .next t → Changes s.m t.m [.flash, .rings, .kn, .nv, .hp] [.KN_MEMO, .Q_IRQ,
    .HP_ERR, .HP_LAST, .GL_STATUS]) ∧
  (∀ (s t : State), s.Sound → exec .homeReset s = .next t → Changes s.m t.m [.flash, .rings, .kn, .nv, .hp] [.KN_MEMO, .Q_IRQ,
    .HP_ERR, .HP_LAST, .GL_STATUS]) ∧
  (∀ (s t : State) (code : Fin 3), s.Sound → exec (.tapTestInstruction code) s = .next t → Changes s.m t.m [.clk, .axes,
    .queues, .rings, .arms, .regchans, .coils, .testInstr, .kn, .st, .hp, .tap] [.AX_FAULT, .AX_HOME_STAT, .Q_IRQ, .GR_STATUS,
    .GR_FSTAT, .GR_TRIM_OUT, .LA_AX_STAT, .FB_FOLLOW]) ∧
  (∀ (s t : State) (trst : Bool) (tms : Bool) (tdi : Bool) (pins : BitVec 201), s.Sound → exec (.tckEdge trst tms tdi pins) s =
    .next t → Changes s.m t.m [.clk, .axes, .queues, .rings, .arms, .regchans, .coils, .testInstr, .kn, .st, .hp, .tap]
    [.AX_FAULT, .AX_HOME_STAT, .Q_IRQ, .GR_STATUS, .GR_FSTAT, .GR_TRIM_OUT, .LA_AX_STAT, .FB_FOLLOW])

/-- What the bank monitor and bridge commands leave unchanged. -/
def Obligations.BankMonitorFrame : Prop :=
  (∀ (s t : State) (b : Fin 4) (vm : BitVec 16), s.Sound → exec (.vmUv b vm) s = .next t → Changes s.m t.m [.axes, .queues,
    .rings, .arms, .regchans, .coils, .banks, .kn] [.PW_VMON_STAT, .AX_FAULT, .AX_HOME_STAT, .Q_IRQ, .GR_STATUS, .GR_FSTAT,
    .GR_TRIM_OUT, .LA_AX_STAT, .FB_FOLLOW]) ∧
  (∀ (s t : State) (b : Fin 4), s.Sound → exec (.vmUvRecover b) s = .next t → Changes s.m t.m [.axes, .rings, .banks]
    [.PW_VMON_STAT, .Q_IRQ]) ∧
  (∀ (s t : State) (b : Fin 4), s.Sound → exec (.resumeBank b) s = .next t → Changes s.m t.m [.axes, .rings, .banks, .hp]
    [.PW_VMON_STAT, .Q_IRQ, .HP_ERR, .HP_LAST, .GL_STATUS]) ∧
  (∀ (s t : State) (b : Fin 4), s.Sound → exec (.vmResumeRampEnd b) s = .next t → Changes s.m t.m [.axes, .queues, .rings,
    .banks] [.AX_HOME_STAT, .Q_IRQ]) ∧
  (∀ (s t : State) (b : Fin 4) (vm : BitVec 16), s.Sound → exec (.vmOvClamp b vm) s = .next t → Changes s.m t.m [.axes, .rings,
    .coils, .banks] [.PW_VMON_STAT, .Q_IRQ]) ∧
  (∀ (s t : State) (b : Fin 4) (dur : BitVec 48), s.Sound → exec (.vmOvRelease b dur) s = .next t → Changes s.m t.m [.axes,
    .rings, .coils, .banks] [.Q_IRQ]) ∧
  (∀ (s t : State) (b : Fin 4) (vm : BitVec 16), s.Sound → exec (.vmOvTimeout b vm) s = .next t → Changes s.m t.m [.axes,
    .queues, .rings, .arms, .regchans, .coils, .banks, .kn] [.PW_VMON_STAT, .AX_FAULT, .AX_HOME_STAT, .Q_IRQ, .GR_STATUS,
    .GR_FSTAT, .GR_TRIM_OUT, .LA_AX_STAT, .FB_FOLLOW]) ∧
  (∀ (s t : State) (k : Fin 96) (vm : BitVec 16), s.Sound → exec (.pwmPeriodStart k vm) s = .next t → Changes s.m t.m [.staged,
    .rings, .coils, .obs, .banks, .sync, .st] [.PW_VM_MEAS, .Q_IRQ, .AX_CR_STAT, .PW_STAT, .PW_CH_STAT, .PW_SYNC_STAT, .CS_STAT,
    .CS_SCAN_STAT, .FM_CNT]) ∧
  (∀ (s t : State) (k : Fin 96) (cnt : BitVec 14), s.Sound → exec (.peakTrip k cnt) s = .next t → Changes s.m t.m [.rings,
    .coils, .banks] [.Q_IRQ, .PW_STAT]) ∧
  (∀ (s t : State) (n : Fin 48) (coilB : Bool), s.Sound → exec (.shortCircuit n coilB) s = .next t → Changes s.m t.m [.axes,
    .queues, .rings, .arms, .regchans, .coils, .kn] [.AX_FAULT, .AX_HOME_STAT, .Q_IRQ, .GR_STATUS, .GR_FSTAT, .GR_TRIM_OUT,
    .PW_BFAULT, .LA_AX_STAT, .FB_FOLLOW]) ∧
  (∀ (s t : State) (b : Fin 4) (mask : BitVec 12), s.Sound → exec (.bfaultClear b mask) s = .next t → Changes s.m t.m [.rings,
    .hp] [.Q_IRQ, .PW_BFAULT, .HP_ERR, .HP_LAST, .GL_STATUS]) ∧
  (∀ (s t : State) (b : Fin 4), s.Sound → exec (.gateUv b) s = .next t → Changes s.m t.m [.axes, .queues, .rings, .arms,
    .regchans, .coils, .banks, .kn] [.AX_FAULT, .AX_HOME_STAT, .Q_IRQ, .GR_STATUS, .GR_FSTAT, .GR_TRIM_OUT, .PW_STAT,
    .LA_AX_STAT, .FB_FOLLOW]) ∧
  (∀ (s t : State) (b : Fin 4), s.Sound → exec (.gateUvRecover b) s = .next t → Changes s.m t.m [.banks] []) ∧
  (∀ (s t : State) (b : Fin 4) (v : BitVec 14), s.Sound → exec (.pwPeriod b v) s = .next t → Changes s.m t.m [.staged, .rings,
    .coils, .banks, .hp] [.Q_IRQ, .PW_PERIOD, .PW_STAT, .ST_STAT, .ST_RATE, .ST_SEL, .HP_ERR, .HP_LAST, .GL_STATUS]) ∧
  (∀ (s t : State) (b : Fin 4) (on : Bool), s.Sound → exec (.stagUserChange b on) s = .next t → Changes s.m t.m [.rings, .coils,
    .banks, .hp] [.Q_IRQ, .PW_CFG, .PW_STAT, .PW_SYNC_STAT, .HP_ERR, .HP_LAST, .GL_STATUS]) ∧
  (∀ (s t : State) (b : Fin 4) (k : Fin 24) (v : BitVec 14), s.Sound → exec (.pwChOfs b k v) s = .next t → Changes s.m t.m
    [.rings, .coils, .banks, .hp] [.Q_IRQ, .PW_STAT, .PW_CH_OFS, .HP_ERR, .HP_LAST, .GL_STATUS]) ∧
  (∀ (s t : State) (b : Fin 4) (v : BitVec 32), s.Sound → exec (.pwSafe b v) s = .next t → Changes s.m t.m [.rings, .banks, .hp]
    [.Q_IRQ, .PW_SAFE, .PW_SAFE_STAT, .HP_ERR, .HP_LAST, .GL_STATUS]) ∧
  (∀ (s t : State) (b : Fin 4) (upset : Option (Fin 3 × BitVec 32)), s.Sound → exec (.safeCopyCheck b upset) s = .next t →
    Changes s.m t.m [.rings, .banks] [.Q_IRQ, .PW_SAFE, .PW_SAFE_STAT]) ∧
  (∀ (s t : State) (guard : BitVec 8), s.Sound → exec (.dbgHalt guard) s = .next t → Changes s.m t.m [.axes, .queues, .rings,
    .arms, .regchans, .coils, .banks, .dbgHalt, .kn, .hp] [.AX_FAULT, .AX_HOME_STAT, .Q_IRQ, .GR_STATUS, .GR_FSTAT,
    .GR_TRIM_OUT, .PW_STAT, .LA_AX_STAT, .FB_FOLLOW, .HP_ERR, .HP_LAST, .GL_STATUS, .GL_DBG]) ∧
  (∀ (s t : State) (guard : BitVec 8), s.Sound → exec (.dbgHaltEnd guard) s = .next t → Changes s.m t.m [.rings, .dbgHalt, .hp]
    [.Q_IRQ, .HP_ERR, .HP_LAST, .GL_STATUS, .GL_DBG]) ∧
  (∀ (s t : State) (b : Fin 4), s.Sound → exec (.clockStop b) s = .next t → Changes s.m t.m [.coils, .banks] []) ∧
  (∀ (s t : State) (b : Fin 4), s.Sound → exec (.clockStopEnd b) s = .next t → Changes s.m t.m [.axes, .queues, .rings, .arms,
    .regchans, .coils, .banks, .kn] [.AX_FAULT, .AX_HOME_STAT, .Q_IRQ, .GR_STATUS, .GR_FSTAT, .GR_TRIM_OUT, .PW_STAT,
    .LA_AX_STAT, .FB_FOLLOW]) ∧
  (∀ (s t : State) (a : Bool) (b : Bool), s.Sound → exec (.tripInput a b) s = .next t → Changes s.m t.m [.inp, .axes, .queues,
    .rings, .arms, .regchans, .coils, .banks, .kn] [.AX_FAULT, .AX_HOME_STAT, .Q_IRQ, .GR_STATUS, .GR_FSTAT, .GR_TRIM_OUT,
    .PW_TRIP_STAT, .PW_TRIP_TS, .LA_AX_STAT, .FB_FOLLOW]) ∧
  (∀ (s t : State), s.Sound → exec .tripClear s = .next t → Changes s.m t.m [.rings, .coils, .hp] [.Q_IRQ, .PW_TRIP_STAT,
    .PW_TRIP_TS, .HP_ERR, .HP_LAST, .GL_STATUS]) ∧
  (∀ (s t : State), s.Sound → exec .tripDisc s = .next t → Changes s.m t.m [.rings] [.Q_IRQ, .PW_TRIP_STAT]) ∧
  (∀ (s t : State), s.Sound → exec .syncDrive s = .next t → Changes s.m t.m [.staged, .sync] []) ∧
  (∀ (s t : State) (cyc : Nat), s.Sound → exec (.syncEdge cyc) s = .next t → Changes s.m t.m [.staged, .rings, .banks, .sync]
    [.Q_IRQ, .PW_SYNC_STAT]) ∧
  (∀ (s t : State), s.Sound → exec .syncLost s = .next t → Changes s.m t.m [.rings, .banks, .sync] [.Q_IRQ, .PW_SYNC_STAT])

/-- What the commit, flash and key commands leave unchanged. -/
def Obligations.FlashFrame : Prop :=
  (∀ (s t : State), s.Sound → exec .logSectorErase s = .next t → Changes s.m t.m [.flash, .nv] []) ∧
  (∀ (s t : State), s.Sound → exec .commitImage s = .next t → Changes s.m t.m [.rings, .nv, .hp] [.NV_COMMIT_STAT, .Q_IRQ,
    .HP_ERR, .HP_LAST, .GL_STATUS]) ∧
  (∀ (s t : State), s.Sound → exec .commitOverlay s = .next t → Changes s.m t.m [.rings, .nv, .hp] [.NV_COMMIT_STAT, .Q_IRQ,
    .HP_ERR, .HP_LAST, .GL_STATUS]) ∧
  (∀ (s t : State), s.Sound → exec .commitCal s = .next t → Changes s.m t.m [.rings, .nv, .hp] [.NV_COMMIT_STAT, .Q_IRQ,
    .HP_ERR, .HP_LAST, .GL_STATUS]) ∧
  (∀ (s t : State), s.Sound → exec .commitKind3 s = .next t → Changes s.m t.m [.rings, .hp] [.NV_COMMIT_STAT, .Q_IRQ, .HP_ERR,
    .HP_LAST, .GL_STATUS]) ∧
  (∀ (s t : State), s.Sound → exec .tieAck s = .next t → Changes s.m t.m [.rings, .hp] [.NV_STATUS, .Q_IRQ, .HP_ERR, .HP_LAST,
    .GL_STATUS]) ∧
  (∀ (s t : State) (readOk : Bool), s.Sound → exec (.commitFlashOpDone readOk) s = .next t → Changes s.m t.m [.flash, .rings,
    .kn, .nv] [.NV_STATUS, .NV_SEQ_A, .NV_SEQ_B, .NV_CAL_STAT, .NV_COMMIT_STAT, .Q_IRQ]) ∧
  (∀ (s t : State) (late : FlashLate), s.Sound → exec (.flashTimeout late) s = .next t → Changes s.m t.m [.flash, .rings, .nv]
    [.NV_STATUS, .NV_SEQ_A, .NV_SEQ_B, .NV_CAL_STAT, .NV_COMMIT_STAT, .NV_ACC_CTRL, .Q_IRQ]) ∧
  (∀ (s t : State), s.Sound → exec .autoCalWrite s = .next t → Changes s.m t.m [.nv] [.NV_COMMIT_STAT]) ∧
  (∀ (s t : State) (readOk : Bool), s.Sound → exec (.calWriteDone readOk) s = .next t → Changes s.m t.m [.flash, .rings, .kn,
    .nv] [.NV_STATUS, .NV_SEQ_A, .NV_SEQ_B, .NV_CAL_STAT, .NV_COMMIT_STAT, .Q_IRQ]) ∧
  (∀ (s t : State), s.Sound → exec .nvAccRead s = .next t → Changes s.m t.m [.rings, .nv, .hp] [.NV_ACC_CTRL, .Q_IRQ, .HP_ERR,
    .HP_LAST, .GL_STATUS]) ∧
  (∀ (s t : State), s.Sound → exec .nvAccProgram s = .next t → Changes s.m t.m [.rings, .nv, .hp] [.NV_ACC_CTRL, .Q_IRQ,
    .HP_ERR, .HP_LAST, .GL_STATUS]) ∧
  (∀ (s t : State), s.Sound → exec .nvAccErase4k s = .next t → Changes s.m t.m [.rings, .nv, .hp] [.NV_ACC_CTRL, .Q_IRQ,
    .HP_ERR, .HP_LAST, .GL_STATUS]) ∧
  (∀ (s t : State), s.Sound → exec .nvAccErase64k s = .next t → Changes s.m t.m [.rings, .nv, .hp] [.NV_ACC_CTRL, .Q_IRQ,
    .HP_ERR, .HP_LAST, .GL_STATUS]) ∧
  (∀ (s t : State), s.Sound → exec .nvAccDone s = .next t → Changes s.m t.m [.flash, .nv] [.NV_ACC_CTRL, .NV_ACC_DATA]) ∧
  (∀ (s t : State) (slot : Fin 4) (guard : BitVec 8), s.Sound → exec (.keyProgram slot guard) s = .next t → Changes s.m t.m
    [.rings, .otp, .hp] [.NV_KEY_STAT, .Q_IRQ, .HP_ERR, .HP_LAST, .GL_STATUS]) ∧
  (∀ (s t : State) (slot : Fin 4) (guard : BitVec 8), s.Sound → exec (.keyRevoke slot guard) s = .next t → Changes s.m t.m
    [.rings, .otp, .hp] [.NV_KEY_STAT, .Q_IRQ, .HP_ERR, .HP_LAST, .GL_STATUS]) ∧
  (∀ (s t : State) (guard : BitVec 8), s.Sound → exec (.keyRequireSig guard) s = .next t → Changes s.m t.m [.rings, .otp, .hp]
    [.NV_KEY_STAT, .Q_IRQ, .HP_ERR, .HP_LAST, .GL_STATUS])

/-- What the axis events and strobes leave unchanged. -/
def Obligations.AxisFrame : Prop :=
  (∀ (s t : State) (lv : TickInputs), s.Sound → exec (.tick lv) s = .next t → Changes s.m t.m [.clk, .staged, .dram, .flash,
    .inp, .snapIn, .axes, .queues, .rings, .arms, .regchans, .coils, .obs, .banks, .ports, .fm, .heat, .kn, .nv, .pt, .st]
    [.KN_STEPTIME, .KN_MEMO, .AX_FAULT, .AX_LIM_STAT, .AX_HOME_CAP, .AX_HOME_STAT, .Q_STATUS, .Q_LAST, .Q_ABORT_STAT, .Q_IRQ,
    .GR_STATUS, .GR_PATH, .GR_LEN, .GR_REG_STAT, .GR_REG_EXP, .GR_FSTAT, .GR_TRIM_SP, .GR_TRIM_OUT, .AX_COMM_OFS, .PW_TRIP_STAT,
    .PW_TRIP_TS, .LA_AX_STAT, .LA_AX, .LA_VER, .FB_STAT, .FB_ERR, .FB_IDX, .FB_SERR, .FB_FOLLOW, .FB_STATE, .FB_CNT,
    .FB_IDX_CAP, .SF_EX_STAT, .ST_STAT, .ST_RATE, .ST_WR, .ST_LAYER, .ST_LAYER_ST]) ∧
  (∀ (s t : State) (n : Fin 48) (camMissing : Bool), s.Sound → exec (.axisSlot n camMissing) s = .next t → Changes s.m t.m
    [.axes, .queues, .rings, .arms, .regchans, .coils, .fm, .kn] [.AX_FAULT, .AX_LIM_STAT, .AX_HOME_CAP, .AX_HOME_STAT, .Q_IRQ,
    .GR_STATUS, .GR_PATH, .GR_LEN, .GR_REG_STAT, .GR_REG_EXP, .GR_FSTAT, .GR_TRIM_SP, .GR_TRIM_OUT, .AX_COMM_OFS, .LA_AX_STAT,
    .LA_AX, .LA_VER, .FB_STAT, .FB_FOLLOW]) ∧
  (∀ (s t : State) (n : Fin 48) (found : ArmingTest), s.Sound → exec (.armingComplete n found) s = .next t → Changes s.m t.m
    [.axes, .queues, .rings, .arms, .regchans] [.KN_UNTESTED_LO, .KN_UNTESTED_HI, .KN_MCHAR_A, .KN_MCHAR_B, .KN_MCHAR_S,
    .AX_FAULT, .AX_HOME_STAT, .Q_IRQ, .GR_FSTAT, .GR_TRIM_OUT, .AX_COMM_OFS, .AX_CR_RL_A, .AX_CR_RL_B, .LA_AX_STAT, .LA_VER,
    .FB_FOLLOW]) ∧
  (∀ (s t : State) (n : Fin 48), s.Sound → exec (.standstillRamp n) s = .next t → Changes s.m t.m [.axes] []) ∧
  (∀ (s t : State) (n : Fin 48), s.Sound → exec (.axCtrlEnable n) s = .next t → Changes s.m t.m [.axes, .rings, .hp] [.AX_FAULT,
    .Q_IRQ, .HP_ERR, .HP_LAST, .GL_STATUS]) ∧
  (∀ (s t : State) (n : Fin 48), s.Sound → exec (.axCtrlDisable n) s = .next t → Changes s.m t.m [.axes, .queues, .rings, .arms,
    .regchans, .coils, .hp] [.AX_FAULT, .AX_HOME_STAT, .Q_IRQ, .GR_STATUS, .GR_FSTAT, .GR_TRIM_OUT, .LA_AX_STAT, .FB_FOLLOW,
    .HP_ERR, .HP_LAST, .GL_STATUS]) ∧
  (∀ (s t : State) (n : Fin 48), s.Sound → exec (.axCtrlEstop n) s = .next t → Changes s.m t.m [.axes, .queues, .rings, .arms,
    .regchans, .hp] [.AX_FAULT, .AX_HOME_STAT, .Q_IRQ, .LA_AX_STAT, .FB_FOLLOW, .HP_ERR, .HP_LAST, .GL_STATUS]) ∧
  (∀ (s t : State) (n : Fin 48), s.Sound → exec (.axCtrlMaqEnter n) s = .next t → Changes s.m t.m [.axes, .rings, .hp]
    [.AX_FAULT, .Q_IRQ, .HP_ERR, .HP_LAST, .GL_STATUS]) ∧
  (∀ (s t : State) (n : Fin 48), s.Sound → exec (.axCtrlMaqExit n) s = .next t → Changes s.m t.m [.axes, .queues, .rings, .arms,
    .regchans, .hp] [.AX_FAULT, .AX_HOME_STAT, .Q_IRQ, .GR_STATUS, .GR_FSTAT, .GR_TRIM_OUT, .LA_AX_STAT, .FB_FOLLOW, .HP_ERR,
    .HP_LAST, .GL_STATUS]) ∧
  (∀ (s t : State) (n : Fin 48) (w : Word), s.Sound → exec (.axRetgt n w) s = .next t → Changes s.m t.m [.axes, .rings, .hp]
    [.AX_RETGT, .Q_IRQ, .HP_ERR, .HP_LAST, .GL_STATUS]) ∧
  (∀ (s t : State) (n : Fin 48) (enable : Bool) (w : Word), s.Sound → exec (.axSlim n enable w) s = .next t → Changes s.m t.m
    [.axes, .rings, .hp] [.AX_CFG, .AX_SLIM, .Q_IRQ, .HP_ERR, .HP_LAST, .GL_STATUS]) ∧
  (∀ (s t : State) (n : Fin 48) (sideB : Bool), s.Sound → exec (.limitActive n sideB) s = .next t → Changes s.m t.m [.inp,
    .axes, .queues, .rings, .arms, .regchans] [.AX_FAULT, .AX_LIM_STAT, .AX_HOME_STAT, .Q_IRQ, .LA_AX_STAT, .FB_FOLLOW]) ∧
  (∀ (s t : State) (n : Fin 48) (a : Bool) (b : Bool), s.Sound → exec (.limLatchClear n a b) s = .next t → Changes s.m t.m
    [.rings, .hp] [.AX_LIM_STAT, .Q_IRQ, .HP_ERR, .HP_LAST, .GL_STATUS]) ∧
  (∀ (s t : State) (n : Fin 48) (ts : BitVec 48), s.Sound → exec (.homeReference n ts) s = .next t → Changes s.m t.m [.axes]
    [.AX_HOME_CAP, .AX_HOME_STAT]) ∧
  (∀ (s t : State) (k : Fin 96) (at_ : CoilAt), s.Sound → exec (.coilCompute k at_) s = .next t → Changes s.m t.m [.rings,
    .coils, .obs, .harm, .banks] [.Q_IRQ, .AX_COIL, .AX_CR_STAT, .CS_WIN_STAT, .LA_AX_STAT]) ∧
  (∀ (s t : State) (n : Fin 48) (isWrite : Bool) (v : BitVec 32), s.Sound → exec (.axHarmData n isWrite v) s = .next t → Changes
    s.m t.m [.readData, .rings, .harm, .hp] [.Q_IRQ, .AX_HARM_SEL, .HP_ERR, .HP_LAST, .GL_STATUS]) ∧
  (∀ (s t : State) (r : Fin 4) (ts : BitVec 48), s.Sound → exec (.regMark r ts) s = .next t → Changes s.m t.m [.rings,
    .regchans] [.Q_IRQ, .GR_REG_STAT, .GR_REG_EXP, .GR_REG_ERR]) ∧
  (∀ (s t : State) (n : Fin 48), s.Sound → exec (.retryResume n) s = .next t → Changes s.m t.m [.axes] [.LA_AX_STAT]) ∧
  (∀ (s t : State) (b : Fin 4) (axis : BitVec 4), s.Sound → exec (.resync b axis) s = .next t → Changes s.m t.m [.axes, .rings,
    .hp] [.Q_IRQ, .LA_AX_STAT, .HP_ERR, .HP_LAST, .GL_STATUS]) ∧
  (∀ (s t : State) (b : Fin 4) (axis : BitVec 4), s.Sound → exec (.peakClr b axis) s = .next t → Changes s.m t.m [.rings, .hp]
    [.Q_IRQ, .LA_AX, .HP_ERR, .HP_LAST, .GL_STATUS]) ∧
  (∀ (s t : State) (n : Fin 48), s.Sound → exec (.thermalFault n) s = .next t → Changes s.m t.m [.axes, .queues, .rings, .arms,
    .regchans, .coils, .kn] [.AX_FAULT, .AX_HOME_STAT, .Q_IRQ, .GR_STATUS, .GR_FSTAT, .GR_TRIM_OUT, .LA_AX_STAT, .FB_FOLLOW])

/-- What a dispatched axis-class command leaves unchanged. -/
def Obligations.AxisCommandFrame : Prop :=
  (∀ (s t : State) (q : Fin 64) (c : CmdArgs), s.Sound → exec (.moveAbs q c) s = .next t → Changes s.m t.m [.flash, .axes,
    .queues, .rings, .arms, .regchans, .coils, .kn, .nv] [.KN_STEPTIME, .KN_MEMO, .AX_FAULT, .AX_HOME_CAP, .AX_HOME_STAT,
    .Q_STATUS, .Q_LAST, .Q_ABORT_STAT, .Q_IRQ, .GR_STATUS, .GR_LEN, .GR_FSTAT, .GR_TRIM_SP, .GR_TRIM_OUT, .AX_COMM_OFS,
    .LA_AX_STAT, .LA_VER, .FB_FOLLOW, .GL_STATUS]) ∧
  (∀ (s t : State) (q : Fin 64) (c : CmdArgs), s.Sound → exec (.moveRel q c) s = .next t → Changes s.m t.m [.flash, .axes,
    .queues, .rings, .arms, .regchans, .coils, .kn, .nv] [.KN_STEPTIME, .KN_MEMO, .AX_FAULT, .AX_HOME_CAP, .AX_HOME_STAT,
    .Q_STATUS, .Q_LAST, .Q_ABORT_STAT, .Q_IRQ, .GR_STATUS, .GR_LEN, .GR_FSTAT, .GR_TRIM_SP, .GR_TRIM_OUT, .AX_COMM_OFS,
    .LA_AX_STAT, .LA_VER, .FB_FOLLOW, .GL_STATUS]) ∧
  (∀ (s t : State) (q : Fin 64) (c : CmdArgs), s.Sound → exec (.velCmd q c) s = .next t → Changes s.m t.m [.flash, .axes,
    .queues, .rings, .arms, .regchans, .coils, .kn, .nv] [.KN_STEPTIME, .KN_MEMO, .AX_FAULT, .AX_HOME_CAP, .AX_HOME_STAT,
    .Q_STATUS, .Q_LAST, .Q_ABORT_STAT, .Q_IRQ, .GR_STATUS, .GR_LEN, .GR_FSTAT, .GR_TRIM_SP, .GR_TRIM_OUT, .AX_COMM_OFS,
    .LA_AX_STAT, .LA_VER, .FB_FOLLOW, .GL_STATUS]) ∧
  (∀ (s t : State) (q : Fin 64) (c : CmdArgs), s.Sound → exec (.stopCmd q c) s = .next t → Changes s.m t.m [.flash, .axes,
    .queues, .rings, .arms, .regchans, .coils, .kn, .nv] [.KN_STEPTIME, .KN_MEMO, .AX_FAULT, .AX_HOME_CAP, .AX_HOME_STAT,
    .Q_STATUS, .Q_LAST, .Q_ABORT_STAT, .Q_IRQ, .GR_STATUS, .GR_LEN, .GR_FSTAT, .GR_TRIM_SP, .GR_TRIM_OUT, .AX_COMM_OFS,
    .LA_AX_STAT, .LA_VER, .FB_FOLLOW, .GL_STATUS]) ∧
  (∀ (s t : State) (q : Fin 64) (c : CmdArgs), s.Sound → exec (.holdCmd q c) s = .next t → Changes s.m t.m [.flash, .axes,
    .queues, .rings, .arms, .regchans, .coils, .kn, .nv] [.KN_STEPTIME, .KN_MEMO, .AX_FAULT, .AX_HOME_CAP, .AX_HOME_STAT,
    .Q_STATUS, .Q_LAST, .Q_ABORT_STAT, .Q_IRQ, .GR_STATUS, .GR_LEN, .GR_FSTAT, .GR_TRIM_SP, .GR_TRIM_OUT, .AX_COMM_OFS,
    .LA_AX_STAT, .LA_VER, .FB_FOLLOW, .GL_STATUS]) ∧
  (∀ (s t : State) (q : Fin 64) (c : CmdArgs), s.Sound → exec (.homeCmd q c) s = .next t → Changes s.m t.m [.flash, .axes,
    .queues, .rings, .arms, .regchans, .coils, .kn, .nv] [.KN_STEPTIME, .KN_MEMO, .AX_FAULT, .AX_HOME_CAP, .AX_HOME_STAT,
    .Q_STATUS, .Q_LAST, .Q_ABORT_STAT, .Q_IRQ, .GR_STATUS, .GR_LEN, .GR_FSTAT, .GR_TRIM_SP, .GR_TRIM_OUT, .AX_COMM_OFS,
    .LA_AX_STAT, .LA_VER, .FB_FOLLOW, .GL_STATUS]) ∧
  (∀ (s t : State) (q : Fin 64) (c : CmdArgs), s.Sound → exec (.setPos q c) s = .next t → Changes s.m t.m [.flash, .axes,
    .queues, .rings, .arms, .regchans, .coils, .kn, .nv] [.KN_STEPTIME, .KN_MEMO, .AX_FAULT, .AX_HOME_CAP, .AX_HOME_STAT,
    .Q_STATUS, .Q_LAST, .Q_ABORT_STAT, .Q_IRQ, .GR_STATUS, .GR_LEN, .GR_FSTAT, .GR_TRIM_SP, .GR_TRIM_OUT, .AX_COMM_OFS,
    .LA_AX_STAT, .LA_VER, .FB_FOLLOW, .GL_STATUS]) ∧
  (∀ (s t : State) (q : Fin 64) (c : CmdArgs), s.Sound → exec (.enableCmd q c) s = .next t → Changes s.m t.m [.flash, .axes,
    .queues, .rings, .arms, .regchans, .coils, .kn, .nv] [.KN_STEPTIME, .KN_MEMO, .AX_FAULT, .AX_HOME_CAP, .AX_HOME_STAT,
    .Q_STATUS, .Q_LAST, .Q_ABORT_STAT, .Q_IRQ, .GR_STATUS, .GR_LEN, .GR_FSTAT, .GR_TRIM_SP, .GR_TRIM_OUT, .AX_COMM_OFS,
    .LA_AX_STAT, .LA_VER, .FB_FOLLOW, .GL_STATUS]) ∧
  (∀ (s t : State) (q : Fin 64) (c : CmdArgs), s.Sound → exec (.disableCmd q c) s = .next t → Changes s.m t.m [.flash, .axes,
    .queues, .rings, .arms, .regchans, .coils, .kn, .nv] [.KN_STEPTIME, .KN_MEMO, .AX_FAULT, .AX_HOME_CAP, .AX_HOME_STAT,
    .Q_STATUS, .Q_LAST, .Q_ABORT_STAT, .Q_IRQ, .GR_STATUS, .GR_LEN, .GR_FSTAT, .GR_TRIM_SP, .GR_TRIM_OUT, .AX_COMM_OFS,
    .LA_AX_STAT, .LA_VER, .FB_FOLLOW, .GL_STATUS]) ∧
  (∀ (s t : State) (q : Fin 64) (c : CmdArgs), s.Sound → exec (.groupMove q c) s = .next t → Changes s.m t.m [.flash, .axes,
    .queues, .rings, .arms, .regchans, .coils, .kn, .nv] [.KN_STEPTIME, .KN_MEMO, .AX_FAULT, .AX_HOME_CAP, .AX_HOME_STAT,
    .Q_STATUS, .Q_LAST, .Q_ABORT_STAT, .Q_IRQ, .GR_STATUS, .GR_LEN, .GR_FSTAT, .GR_TRIM_SP, .GR_TRIM_OUT, .AX_COMM_OFS,
    .LA_AX_STAT, .LA_VER, .FB_FOLLOW, .GL_STATUS]) ∧
  (∀ (s t : State) (q : Fin 64) (c : CmdArgs), s.Sound → exec (.gearCmd q c) s = .next t → Changes s.m t.m [.flash, .axes,
    .queues, .rings, .arms, .regchans, .coils, .kn, .nv] [.KN_STEPTIME, .KN_MEMO, .AX_FAULT, .AX_HOME_CAP, .AX_HOME_STAT,
    .Q_STATUS, .Q_LAST, .Q_ABORT_STAT, .Q_IRQ, .GR_STATUS, .GR_LEN, .GR_FSTAT, .GR_TRIM_SP, .GR_TRIM_OUT, .AX_COMM_OFS,
    .LA_AX_STAT, .LA_VER, .FB_FOLLOW, .GL_STATUS]) ∧
  (∀ (s t : State) (q : Fin 64) (c : CmdArgs), s.Sound → exec (.camCmd q c) s = .next t → Changes s.m t.m [.flash, .axes,
    .queues, .rings, .arms, .regchans, .coils, .kn, .nv] [.KN_STEPTIME, .KN_MEMO, .AX_FAULT, .AX_HOME_CAP, .AX_HOME_STAT,
    .Q_STATUS, .Q_LAST, .Q_ABORT_STAT, .Q_IRQ, .GR_STATUS, .GR_LEN, .GR_FSTAT, .GR_TRIM_SP, .GR_TRIM_OUT, .AX_COMM_OFS,
    .LA_AX_STAT, .LA_VER, .FB_FOLLOW, .GL_STATUS]) ∧
  (∀ (s t : State) (q : Fin 64) (c : CmdArgs), s.Sound → exec (.tensionTrim q c) s = .next t → Changes s.m t.m [.flash, .axes,
    .queues, .rings, .arms, .regchans, .coils, .kn, .nv] [.KN_STEPTIME, .KN_MEMO, .AX_FAULT, .AX_HOME_CAP, .AX_HOME_STAT,
    .Q_STATUS, .Q_LAST, .Q_ABORT_STAT, .Q_IRQ, .GR_STATUS, .GR_LEN, .GR_FSTAT, .GR_TRIM_SP, .GR_TRIM_OUT, .AX_COMM_OFS,
    .LA_AX_STAT, .LA_VER, .FB_FOLLOW, .GL_STATUS])

/-- What the queue-class commands and the queue registers leave unchanged. -/
def Obligations.QueueCommandFrame : Prop :=
  (∀ (s t : State), s.Sound → exec .queueDispatch s = .next t → t.m.inp = s.m.inp ∧ t.m.tap = s.m.tap) ∧
  (∀ (s t : State) (q : Fin 64) (c : CmdArgs), s.Sound → exec (.waitInput q c) s = .next t → Changes s.m t.m [.flash, .axes,
    .queues, .rings, .arms, .regchans, .coils, .kn, .nv] [.KN_STEPTIME, .KN_MEMO, .AX_FAULT, .AX_HOME_CAP, .AX_HOME_STAT,
    .Q_STATUS, .Q_LAST, .Q_ABORT_STAT, .Q_IRQ, .GR_STATUS, .GR_LEN, .GR_FSTAT, .GR_TRIM_SP, .GR_TRIM_OUT, .AX_COMM_OFS,
    .LA_AX_STAT, .LA_VER, .FB_FOLLOW, .GL_STATUS]) ∧
  (∀ (s t : State) (q : Fin 64) (c : CmdArgs), s.Sound → exec (.waitTime q c) s = .next t → Changes s.m t.m [.flash, .axes,
    .queues, .rings, .arms, .regchans, .coils, .kn, .nv] [.KN_STEPTIME, .KN_MEMO, .AX_FAULT, .AX_HOME_CAP, .AX_HOME_STAT,
    .Q_STATUS, .Q_LAST, .Q_ABORT_STAT, .Q_IRQ, .GR_STATUS, .GR_LEN, .GR_FSTAT, .GR_TRIM_SP, .GR_TRIM_OUT, .AX_COMM_OFS,
    .LA_AX_STAT, .LA_VER, .FB_FOLLOW, .GL_STATUS]) ∧
  (∀ (s t : State) (q : Fin 64) (c : CmdArgs), s.Sound → exec (.waitQueue q c) s = .next t → Changes s.m t.m [.flash, .axes,
    .queues, .rings, .arms, .regchans, .coils, .kn, .nv] [.KN_STEPTIME, .KN_MEMO, .AX_FAULT, .AX_HOME_CAP, .AX_HOME_STAT,
    .Q_STATUS, .Q_LAST, .Q_ABORT_STAT, .Q_IRQ, .GR_STATUS, .GR_LEN, .GR_FSTAT, .GR_TRIM_SP, .GR_TRIM_OUT, .AX_COMM_OFS,
    .LA_AX_STAT, .LA_VER, .FB_FOLLOW, .GL_STATUS]) ∧
  (∀ (s t : State) (q : Fin 64) (c : CmdArgs), s.Sound → exec (.waitPos q c) s = .next t → Changes s.m t.m [.flash, .axes,
    .queues, .rings, .arms, .regchans, .coils, .kn, .nv] [.KN_STEPTIME, .KN_MEMO, .AX_FAULT, .AX_HOME_CAP, .AX_HOME_STAT,
    .Q_STATUS, .Q_LAST, .Q_ABORT_STAT, .Q_IRQ, .GR_STATUS, .GR_LEN, .GR_FSTAT, .GR_TRIM_SP, .GR_TRIM_OUT, .AX_COMM_OFS,
    .LA_AX_STAT, .LA_VER, .FB_FOLLOW, .GL_STATUS]) ∧
  (∀ (s t : State) (q : Fin 64), s.Sound → exec (.waitTimeout q) s = .next t → Changes s.m t.m [.queues, .rings, .kn]
    [.Q_STATUS, .Q_LAST, .Q_ABORT_STAT, .Q_IRQ]) ∧
  (∀ (s t : State) (q : Fin 64) (c : CmdArgs), s.Sound → exec (.setParam q c) s = .next t → t.m.inp = s.m.inp ∧
    t.m.tap = s.m.tap) ∧
  (∀ (s t : State) (q : Fin 64) (c : CmdArgs), s.Sound → exec (.setOutput q c) s = .next t → Changes s.m t.m [.flash, .go,
    .goPulse, .axes, .queues, .rings, .arms, .regchans, .coils, .kn, .nv] [.KN_STEPTIME, .KN_MEMO, .AX_FAULT, .AX_HOME_CAP,
    .AX_HOME_STAT, .Q_STATUS, .Q_LAST, .Q_ABORT_STAT, .Q_IRQ, .GR_STATUS, .GR_LEN, .GR_FSTAT, .GR_TRIM_SP, .GR_TRIM_OUT,
    .AX_COMM_OFS, .LA_AX_STAT, .LA_VER, .FB_FOLLOW, .GL_STATUS]) ∧
  (∀ (s t : State) (outs : BitVec 8), s.Sound → exec (.outputPulseEnd outs) s = .next t → Changes s.m t.m [.go, .goPulse] []) ∧
  (∀ (s t : State) (q : Fin 64) (c : CmdArgs), s.Sound → exec (.jumpCmd q c) s = .next t → Changes s.m t.m [.flash, .axes,
    .queues, .rings, .arms, .regchans, .coils, .kn, .nv] [.KN_STEPTIME, .KN_MEMO, .AX_FAULT, .AX_HOME_CAP, .AX_HOME_STAT,
    .Q_STATUS, .Q_LAST, .Q_ABORT_STAT, .Q_IRQ, .GR_STATUS, .GR_LEN, .GR_FSTAT, .GR_TRIM_SP, .GR_TRIM_OUT, .AX_COMM_OFS,
    .LA_AX_STAT, .LA_VER, .FB_FOLLOW, .GL_STATUS]) ∧
  (∀ (s t : State) (q : Fin 64) (c : CmdArgs), s.Sound → exec (.callCmd q c) s = .next t → Changes s.m t.m [.flash, .axes,
    .queues, .rings, .arms, .regchans, .coils, .kn, .nv] [.KN_STEPTIME, .KN_MEMO, .AX_FAULT, .AX_HOME_CAP, .AX_HOME_STAT,
    .Q_STATUS, .Q_LAST, .Q_ABORT_STAT, .Q_IRQ, .GR_STATUS, .GR_LEN, .GR_FSTAT, .GR_TRIM_SP, .GR_TRIM_OUT, .AX_COMM_OFS,
    .LA_AX_STAT, .LA_VER, .FB_FOLLOW, .GL_STATUS]) ∧
  (∀ (s t : State) (q : Fin 64) (c : CmdArgs), s.Sound → exec (.returnCmd q c) s = .next t → Changes s.m t.m [.flash, .axes,
    .queues, .rings, .arms, .regchans, .coils, .kn, .nv] [.KN_STEPTIME, .KN_MEMO, .AX_FAULT, .AX_HOME_CAP, .AX_HOME_STAT,
    .Q_STATUS, .Q_LAST, .Q_ABORT_STAT, .Q_IRQ, .GR_STATUS, .GR_LEN, .GR_FSTAT, .GR_TRIM_SP, .GR_TRIM_OUT, .AX_COMM_OFS,
    .LA_AX_STAT, .LA_VER, .FB_FOLLOW, .GL_STATUS]) ∧
  (∀ (s t : State) (q : Fin 64) (c : CmdArgs), s.Sound → exec (.loopCmd q c) s = .next t → Changes s.m t.m [.flash, .axes,
    .queues, .rings, .arms, .regchans, .coils, .kn, .nv] [.KN_STEPTIME, .KN_MEMO, .AX_FAULT, .AX_HOME_CAP, .AX_HOME_STAT,
    .Q_STATUS, .Q_LAST, .Q_ABORT_STAT, .Q_IRQ, .GR_STATUS, .GR_LEN, .GR_FSTAT, .GR_TRIM_SP, .GR_TRIM_OUT, .AX_COMM_OFS,
    .LA_AX_STAT, .LA_VER, .FB_FOLLOW, .GL_STATUS]) ∧
  (∀ (s t : State) (q : Fin 64) (c : CmdArgs), s.Sound → exec (.signalCmd q c) s = .next t → Changes s.m t.m [.flash, .axes,
    .queues, .rings, .arms, .regchans, .coils, .kn, .nv] [.KN_STEPTIME, .KN_MEMO, .AX_FAULT, .AX_HOME_CAP, .AX_HOME_STAT,
    .Q_STATUS, .Q_LAST, .Q_SIGNAL, .Q_ABORT_STAT, .Q_IRQ, .GR_STATUS, .GR_LEN, .GR_FSTAT, .GR_TRIM_SP, .GR_TRIM_OUT,
    .AX_COMM_OFS, .LA_AX_STAT, .LA_VER, .FB_FOLLOW, .GL_STATUS]) ∧
  (∀ (s t : State) (q : Fin 64) (c : CmdArgs), s.Sound → exec (.endCmd q c) s = .next t → Changes s.m t.m [.flash, .axes,
    .queues, .rings, .arms, .regchans, .coils, .kn, .nv] [.KN_STEPTIME, .KN_MEMO, .AX_FAULT, .AX_HOME_CAP, .AX_HOME_STAT,
    .Q_STATUS, .Q_LAST, .Q_ABORT_STAT, .Q_IRQ, .GR_STATUS, .GR_LEN, .GR_FSTAT, .GR_TRIM_SP, .GR_TRIM_OUT, .AX_COMM_OFS,
    .LA_AX_STAT, .LA_VER, .FB_FOLLOW, .GL_STATUS]) ∧
  (∀ (s t : State) (q : Fin 64) (c : CmdArgs), s.Sound → exec (.strataMark q c) s = .next t → Changes s.m t.m [.flash, .axes,
    .queues, .rings, .arms, .regchans, .coils, .kn, .nv, .st] [.KN_STEPTIME, .KN_MEMO, .AX_FAULT, .AX_HOME_CAP, .AX_HOME_STAT,
    .Q_STATUS, .Q_LAST, .Q_ABORT_STAT, .Q_IRQ, .GR_STATUS, .GR_LEN, .GR_FSTAT, .GR_TRIM_SP, .GR_TRIM_OUT, .AX_COMM_OFS,
    .LA_AX_STAT, .LA_VER, .FB_FOLLOW, .GL_STATUS]) ∧
  (∀ (s t : State) (q : Fin 64) (c : CmdArgs), s.Sound → exec (.nopCmd q c) s = .next t → Changes s.m t.m [.flash, .axes,
    .queues, .rings, .arms, .regchans, .coils, .kn, .nv] [.KN_STEPTIME, .KN_MEMO, .AX_FAULT, .AX_HOME_CAP, .AX_HOME_STAT,
    .Q_STATUS, .Q_LAST, .Q_ABORT_STAT, .Q_IRQ, .GR_STATUS, .GR_LEN, .GR_FSTAT, .GR_TRIM_SP, .GR_TRIM_OUT, .AX_COMM_OFS,
    .LA_AX_STAT, .LA_VER, .FB_FOLLOW, .GL_STATUS]) ∧
  (∀ (s t : State) (q : Fin 64) (eccError : Bool), s.Sound → exec (.routineFetch q eccError) s = .next t → Changes s.m t.m
    [.queues, .rings, .kn] [.Q_STATUS, .Q_LAST, .Q_ABORT_STAT, .Q_IRQ]) ∧
  (∀ (s t : State) (q : Fin 64) (w : Word), s.Sound → exec (.qPush q w) s = .next t → Changes s.m t.m [.queues, .rings, .kn,
    .hp] [.Q_STATUS, .Q_LAST, .Q_ABORT_STAT, .Q_IRQ, .HP_ERR, .HP_LAST, .GL_STATUS]) ∧
  (∀ (s t : State) (q : Fin 64) (w : Word), s.Sound → exec (.qPushDb q w) s = .next t → Changes s.m t.m [.queues, .rings, .kn,
    .hp] [.Q_STATUS, .Q_LAST, .Q_ABORT_STAT, .Q_IRQ, .HP_ERR, .HP_LAST, .GL_STATUS]) ∧
  (∀ (s t : State) (q : Fin 64), s.Sound → exec (.publish q) s = .next t → Changes s.m t.m [.queues, .rings, .kn, .hp]
    [.Q_STATUS, .Q_LAST, .Q_ABORT_STAT, .Q_IRQ, .HP_ERR, .HP_LAST, .GL_STATUS]) ∧
  (∀ (s t : State) (q : Fin 64), s.Sound → exec (.discard q) s = .next t → Changes s.m t.m [.queues, .rings, .kn, .hp]
    [.Q_STATUS, .Q_LAST, .Q_ABORT_STAT, .Q_IRQ, .HP_ERR, .HP_LAST, .GL_STATUS]) ∧
  (∀ (s t : State) (hi : Bool) (mask : BitVec 32), s.Sound → exec (.qMdb hi mask) s = .next t → Changes s.m t.m [.queues,
    .rings, .kn, .hp] [.Q_STATUS, .Q_LAST, .Q_ABORT_STAT, .Q_IRQ, .HP_ERR, .HP_LAST, .GL_STATUS]) ∧
  (∀ (s t : State) (q : Fin 64), s.Sound → exec (.pause q) s = .next t → Changes s.m t.m [.queues, .rings, .kn, .hp] [.Q_STATUS,
    .Q_LAST, .Q_ABORT_STAT, .Q_IRQ, .HP_ERR, .HP_LAST, .GL_STATUS]) ∧
  (∀ (s t : State) (q : Fin 64), s.Sound → exec (.qResume q) s = .next t → Changes s.m t.m [.queues, .rings, .kn, .hp]
    [.Q_STATUS, .Q_LAST, .Q_ABORT_STAT, .Q_IRQ, .HP_ERR, .HP_LAST, .GL_STATUS]) ∧
  (∀ (s t : State) (q : Fin 64), s.Sound → exec (.flush q) s = .next t → Changes s.m t.m [.queues, .rings, .kn, .hp] [.Q_STATUS,
    .Q_LAST, .Q_ABORT_STAT, .Q_IRQ, .HP_ERR, .HP_LAST, .GL_STATUS]) ∧
  (∀ (s t : State) (q : Fin 64) (rtn : BitVec 8), s.Sound → exec (.qRtnStart q rtn) s = .next t → Changes s.m t.m [.queues,
    .rings, .kn, .hp] [.Q_STATUS, .Q_LAST, .Q_RTN, .Q_ABORT_STAT, .Q_IRQ, .HP_ERR, .HP_LAST, .GL_STATUS]) ∧
  (∀ (s t : State) (q : Fin 64) (halt : Bool) (tag : BitVec 16), s.Sound → exec (.qAbort q halt tag) s = .next t → Changes s.m
    t.m [.axes, .queues, .rings, .arms, .regchans, .kn, .hp] [.AX_FAULT, .AX_HOME_STAT, .Q_STATUS, .Q_LAST, .Q_ABORT_STAT,
    .Q_IRQ, .LA_AX_STAT, .FB_FOLLOW, .HP_ERR, .HP_LAST, .GL_STATUS]) ∧
  (∀ (s t : State) (w : BitVec 32), s.Sound → exec (.qAbortX w) s = .next t → Changes s.m t.m [.axes, .queues, .rings, .arms,
    .regchans, .kn, .hp] [.AX_FAULT, .AX_HOME_STAT, .Q_STATUS, .Q_LAST, .Q_ABORT_STAT, .Q_UNIT_STAT, .Q_IRQ, .LA_AX_STAT,
    .FB_FOLLOW, .HP_ERR, .HP_LAST, .GL_STATUS]) ∧
  (∀ (s t : State) (k : Fin 4), s.Sound → exec (.abortInput k) s = .next t → Changes s.m t.m [.axes, .queues, .rings, .arms,
    .regchans, .kn] [.AX_FAULT, .AX_HOME_STAT, .Q_STATUS, .Q_LAST, .Q_ABORT_STAT, .Q_UNIT_STAT, .Q_IRQ, .LA_AX_STAT,
    .FB_FOLLOW]) ∧
  (∀ (s t : State), s.Sound → exec .qCplPop s = .next t → Changes s.m t.m [.readData, .queues, .rings, .kn, .hp] [.Q_STATUS,
    .Q_LAST, .Q_ABORT_STAT, .Q_IRQ, .HP_ERR, .HP_LAST, .GL_STATUS]) ∧
  (∀ (s t : State) (v : BitVec 32), s.Sound → exec (.qCplRdWrite v) s = .next t → Changes s.m t.m [.queues, .rings, .kn, .hp]
    [.Q_STATUS, .Q_LAST, .Q_ABORT_STAT, .Q_IRQ, .HP_ERR, .HP_LAST, .GL_STATUS]) ∧
  (∀ (s t : State), s.Sound → exec .qEvtPop s = .next t → Changes s.m t.m [.readData, .queues, .rings, .kn, .hp] [.Q_STATUS,
    .Q_LAST, .Q_ABORT_STAT, .Q_IRQ, .HP_ERR, .HP_LAST, .GL_STATUS]) ∧
  (∀ (s t : State) (v : BitVec 32), s.Sound → exec (.qEvtRdWrite v) s = .next t → Changes s.m t.m [.queues, .rings, .kn, .hp]
    [.Q_STATUS, .Q_LAST, .Q_ABORT_STAT, .Q_IRQ, .HP_ERR, .HP_LAST, .GL_STATUS]) ∧
  (∀ (s t : State) (g : Fin 16) (hi : Bool) (mask : BitVec 32), s.Sound → exec (.grMemb g hi mask) s = .next t → Changes s.m t.m
    [.rings, .hp] [.Q_IRQ, .GR_MEMB_LO, .GR_MEMB_HI, .GR_STATUS, .HP_ERR, .HP_LAST, .GL_STATUS]) ∧
  (∀ (s t : State) (g : Fin 16), s.Sound → exec (.grStop g) s = .next t → Changes s.m t.m [.axes, .queues, .rings, .arms, .hp]
    [.Q_IRQ, .HP_ERR, .HP_LAST, .GL_STATUS])

/-- What the current-sensing commands leave unchanged. -/
def Obligations.CurrentSenseFrame : Prop :=
  (∀ (s t : State) (k : Fin 96) (kind : Fin 8), s.Sound → exec (.sampleHold k kind) s = .next t → Changes s.m t.m [.rings,
    .coils, .banks] [.Q_IRQ, .CS_STAT, .CS_CNT, .CS_SLICE, .CS_WIN_STAT]) ∧
  (∀ (s t : State) (k : Fin 96) (kind : Fin 8) (raw : Int) (full : Bool), s.Sound → exec (.sampleDelivered k kind raw full) s =
    .next t → Changes s.m t.m [.rings, .coils, .banks] [.Q_IRQ, .CS_STAT, .CS_CNT, .CS_WIN_STAT]) ∧
  (∀ (s t : State) (b : Fin 4) (sl : Fin 5) (pairs : List (Int × Int × Rat)), s.Sound → exec (.shadowBlockEnd b sl pairs) s =
    .next t → Changes s.m t.m [.rings, .banks] [.Q_IRQ, .CS_STAT, .CS_SLICE]) ∧
  (∀ (s t : State) (b : Fin 4) (zero : Int) (pos : Int) (neg : Int), s.Sound → exec (.spareRecal b zero pos neg) s = .next t →
    Changes s.m t.m [.banks] [.CS_SLICE]) ∧
  (∀ (s t : State) (b : Fin 4) (sel : BitVec 8), s.Sound → exec (.csInjGo b sel) s = .next t → Changes s.m t.m [.rings, .banks,
    .hp] [.Q_IRQ, .CS_STAT, .CS_INJ_CTRL, .CS_INJ_STAT, .HP_ERR, .HP_LAST, .GL_STATUS]) ∧
  (∀ (s t : State) (b : Fin 4) (raw : Int) (wait : BitVec 9), s.Sound → exec (.injResult b raw wait) s = .next t → Changes s.m
    t.m [.rings, .banks] [.Q_IRQ, .CS_INJ_STAT, .CS_INJ_RES, .CS_WIN_STAT]) ∧
  (∀ (s t : State) (b : Fin 4), s.Sound → exec (.scanGo b) s = .next t → Changes s.m t.m [.rings, .banks, .hp] [.Q_IRQ,
    .CS_STAT, .CS_SCAN_CFG, .CS_SCAN_STAT, .HP_ERR, .HP_LAST, .GL_STATUS]) ∧
  (∀ (s t : State) (b : Fin 4), s.Sound → exec (.scanStop b) s = .next t → Changes s.m t.m [.rings, .banks, .hp] [.Q_IRQ,
    .CS_SCAN_CFG, .HP_ERR, .HP_LAST, .GL_STATUS]) ∧
  (∀ (s t : State) (b : Fin 4) (slice : Fin 5) (raw : Int) (wait : BitVec 9), s.Sound → exec (.scanResult b slice raw wait) s =
    .next t → Changes s.m t.m [.rings, .banks] [.Q_IRQ, .CS_STAT, .CS_SCAN_STAT, .CS_WIN_STAT]) ∧
  (∀ (s t : State) (b : Fin 4), s.Sound → exec (.csScanPop b) s = .next t → Changes s.m t.m [.readData, .rings, .banks, .hp]
    [.Q_IRQ, .CS_SCAN_STAT, .HP_ERR, .HP_LAST, .GL_STATUS]) ∧
  (∀ (s t : State) (b : Fin 4) (k : Fin 4), s.Sound → exec (.csTrigFire b k) s = .next t → Changes s.m t.m [.rings, .banks]
    [.Q_IRQ, .CS_STAT, .CS_INJ_STAT, .CS_SCAN_STAT]) ∧
  (∀ (s t : State) (b : Fin 4) (ch : BitVec 5) (range : Bool), s.Sound → exec (.csPchkGo b ch range) s = .next t → Changes s.m
    t.m [.staged, .axes, .rings, .banks, .sf, .hp] [.Q_IRQ, .GR_FSTAT, .CS_PCHK, .CS_PCHK_STAT, .SF_AUX_STAT, .SF_TDAC,
    .SF_CH_STAT, .SF_DATA, .SF_REP_STAT, .HP_ERR, .HP_LAST, .GL_STATUS]) ∧
  (∀ (s t : State) (b : Fin 4) (s1 : Int) (s2 : Int), s.Sound → exec (.pchkDone b s1 s2) s = .next t → Changes s.m t.m [.staged,
    .axes, .rings, .banks, .sf] [.Q_IRQ, .GR_FSTAT, .CS_PCHK_STAT, .SF_AUX_STAT, .SF_TDAC, .SF_CH_STAT, .SF_DATA, .SF_REP_STAT])

/-- What the feedback-port and front-end commands leave unchanged. -/
def Obligations.PortAndFrontEndFrame : Prop :=
  (∀ (s t : State) (p : Fin 12) (a : Bool) (b : Bool) (e : QuadAt), s.Sound → exec (.quadEdge p a b e) s = .next t → Changes s.m
    t.m [.axes, .queues, .rings, .arms, .regchans, .ports] [.AX_FAULT, .AX_HOME_CAP, .AX_HOME_STAT, .Q_IRQ, .LA_AX_STAT,
    .FB_STAT, .FB_ERR, .FB_IDX, .FB_FOLLOW, .FB_IDX_CAP]) ∧
  (∀ (s t : State) (p : Fin 12) (code : BitVec 3) (cyc : Nat), s.Sound → exec (.hallChange p code cyc) s = .next t → Changes s.m
    t.m [.axes, .queues, .rings, .arms, .regchans, .ports] [.AX_FAULT, .AX_HOME_CAP, .AX_HOME_STAT, .Q_IRQ, .LA_AX_STAT,
    .FB_STAT, .FB_ERR, .FB_IDX, .FB_FOLLOW, .FB_IDX_CAP]) ∧
  (∀ (s t : State) (p : Fin 12) (dir : Bool) (ena : Bool) (cyc : Nat), s.Sound → exec (.stepEdge p dir ena cyc) s = .next t →
    Changes s.m t.m [.axes, .queues, .rings, .arms, .regchans, .ports] [.AX_FAULT, .AX_HOME_CAP, .AX_HOME_STAT, .Q_IRQ,
    .LA_AX_STAT, .FB_STAT, .FB_ERR, .FB_IDX, .FB_FOLLOW, .FB_IDX_CAP]) ∧
  (∀ (s t : State) (p : Fin 12), s.Sound → exec (.indexEdge p) s = .next t → Changes s.m t.m [.axes, .queues, .rings, .arms,
    .regchans, .ports] [.AX_FAULT, .AX_HOME_CAP, .AX_HOME_STAT, .Q_IRQ, .LA_AX_STAT, .FB_STAT, .FB_ERR, .FB_IDX, .FB_FOLLOW,
    .FB_IDX_CAP]) ∧
  (∀ (s t : State) (p : Fin 12), s.Sound → exec (.speedTimeout p) s = .next t → Changes s.m t.m [.ports] [.FB_STAT]) ∧
  (∀ (s t : State) (p : Fin 12), s.Sound → exec (.serialRead p) s = .next t → Changes s.m t.m [.ports] [.FB_STAT]) ∧
  (∀ (s t : State) (p : Fin 12) (waits : FrameWaits) (raw : BitVec 64) (eBit : Bool) (wBit : Bool) (crc : BitVec 6), s.Sound →
    exec (.serialWord p waits raw eBit wBit crc) s = .next t → Changes s.m t.m [.axes, .queues, .rings, .arms, .regchans,
    .ports] [.AX_FAULT, .AX_HOME_STAT, .Q_IRQ, .LA_AX_STAT, .FB_STAT, .FB_ERR, .FB_SERR, .FB_FOLLOW, .FB_SWORD]) ∧
  (∀ (s t : State) (p : Fin 12), s.Sound → exec (.armPort p) s = .next t → Changes s.m t.m [.rings, .hp] [.Q_IRQ, .FB_STAT,
    .HP_ERR, .HP_LAST, .GL_STATUS]) ∧
  (∀ (s t : State) (p : Fin 12), s.Sound → exec (.disarmPort p) s = .next t → Changes s.m t.m [.rings, .hp] [.Q_IRQ, .FB_STAT,
    .HP_ERR, .HP_LAST, .GL_STATUS]) ∧
  (∀ (s t : State) (p : Fin 12), s.Sound → exec (.portFaultClear p) s = .next t → Changes s.m t.m [.rings, .hp] [.Q_IRQ,
    .FB_STAT, .FB_ERR, .HP_ERR, .HP_LAST, .GL_STATUS]) ∧
  (∀ (s t : State) (p : Fin 12) (mode : BitVec 3), s.Sound → exec (.fbMode p mode) s = .next t → Changes s.m t.m [.axes,
    .queues, .rings, .arms, .regchans, .ports, .hp] [.AX_FAULT, .AX_HOME_CAP, .AX_HOME_STAT, .Q_IRQ, .LA_AX_STAT, .FB_CFG,
    .FB_STAT, .FB_ERR, .FB_IDX, .FB_SERR, .FB_FOLLOW, .FB_IDX_CAP, .HP_ERR, .HP_LAST, .GL_STATUS]) ∧
  (∀ (s t : State) (p : Fin 12) (axis : BitVec 6) (prof : BitVec 3), s.Sound → exec (.fbFollowEngage p axis prof) s = .next t →
    Changes s.m t.m [.axes, .rings, .hp] [.Q_IRQ, .FB_STAT, .FB_FOLLOW, .HP_ERR, .HP_LAST, .GL_STATUS]) ∧
  (∀ (s t : State) (p : Fin 12), s.Sound → exec (.fbFollowDisengage p) s = .next t → Changes s.m t.m [.axes, .queues, .rings,
    .regchans, .hp] [.AX_HOME_STAT, .Q_IRQ, .LA_AX_STAT, .FB_FOLLOW, .HP_ERR, .HP_LAST, .GL_STATUS]) ∧
  (∀ (s t : State) (k : Fin 2) (raw : BitVec 24) (meas : BitVec 16), s.Sound → exec (.auxResult k raw meas) s = .next t →
    Changes s.m t.m [.staged, .dram, .axes, .rings, .sf] [.Q_IRQ, .GR_FSTAT, .GR_TRIM_OUT, .SF_STATUS, .SF_AUX_STAT,
    .SF_EX_STAT, .SF_CAL_CMD, .SF_Q_STAT, .SF_DWR, .SF_CH_STAT, .SF_CAL_ZERO, .SF_CAL_GAIN, .SF_DATA, .SF_REP_STAT]) ∧
  (∀ (s t : State) (k : Fin 2), s.Sound → exec (.auxGo k) s = .next t → Changes s.m t.m [.staged, .rings, .sf, .hp] [.Q_IRQ,
    .SF_AUX_CFG, .SF_AUX_STAT, .SF_CH_STAT, .HP_ERR, .HP_LAST, .GL_STATUS]) ∧
  (∀ (s t : State) (k : Fin 2), s.Sound → exec (.auxStop k) s = .next t → Changes s.m t.m [.staged, .rings, .sf, .hp] [.Q_IRQ,
    .SF_AUX_CFG, .SF_AUX_STAT, .SF_CH_STAT, .HP_ERR, .HP_LAST, .GL_STATUS]) ∧
  (∀ (s t : State) (e : Fin 2) (bits : BitVec 3), s.Sound → exec (.exFault e bits) s = .next t → Changes s.m t.m [.rings, .sf]
    [.Q_IRQ, .SF_EX_STAT]) ∧
  (∀ (s t : State) (e : Fin 2), s.Sound → exec (.exFaultClear e) s = .next t → Changes s.m t.m [.sf] []) ∧
  (∀ (s t : State) (e : Fin 2) (v : BitVec 32), s.Sound → exec (.sfExCfg e v) s = .next t → Changes s.m t.m [.rings, .sf, .hp]
    [.Q_IRQ, .SF_STATUS, .SF_EX_CFG, .SF_EX_STAT, .HP_ERR, .HP_LAST, .GL_STATUS]) ∧
  (∀ (s t : State) (reg : Fin 3) (c : Fin 8) (v : BitVec 32), s.Sound → exec (.sfCrosspointWrite reg c v) s = .next t → Changes
    s.m t.m [.staged, .rings, .sf, .hp] [.Q_IRQ, .SF_STATUS, .SF_AUX_STAT, .SF_CH_CFG, .SF_CH_BIAS, .SF_CH_CURVE, .SF_CH_STAT,
    .HP_ERR, .HP_LAST, .GL_STATUS]) ∧
  (∀ (s t : State) (hold : Bool) (code : BitVec 12), s.Sound → exec (.tdacHold hold code) s = .next t → Changes s.m t.m
    [.staged, .axes, .rings, .sf, .hp] [.Q_IRQ, .GR_FSTAT, .SF_AUX_STAT, .SF_TDAC, .SF_CH_STAT, .SF_DATA, .SF_REP_STAT, .HP_ERR,
    .HP_LAST, .GL_STATUS]) ∧
  (∀ (s t : State) (c : Fin 8), s.Sound → exec (.sfChkGo c) s = .next t → Changes s.m t.m [.staged, .axes, .rings, .sf, .hp]
    [.Q_IRQ, .GR_FSTAT, .SF_AUX_STAT, .SF_TDAC, .SF_CHK, .SF_CH_STAT, .SF_DATA, .SF_REP_STAT, .HP_ERR, .HP_LAST, .GL_STATUS]) ∧
  (∀ (s t : State) (e1 : Int) (e2 : Int), s.Sound → exec (.sfChkDone e1 e2) s = .next t → Changes s.m t.m [.staged, .axes,
    .rings, .sf] [.Q_IRQ, .GR_FSTAT, .SF_AUX_STAT, .SF_TDAC, .SF_CHK, .SF_CH_STAT, .SF_DATA, .SF_REP_STAT]) ∧
  (∀ (s t : State) (c : Fin 8) (navg : BitVec 4), s.Sound → exec (.calZero c navg) s = .next t → Changes s.m t.m [.rings, .sf,
    .hp] [.Q_IRQ, .SF_CAL_CMD, .HP_ERR, .HP_LAST, .GL_STATUS]) ∧
  (∀ (s t : State) (c : Fin 8) (navg : BitVec 4), s.Sound → exec (.calFullScale c navg) s = .next t → Changes s.m t.m [.rings,
    .sf, .hp] [.Q_IRQ, .SF_CAL_CMD, .HP_ERR, .HP_LAST, .GL_STATUS]) ∧
  (∀ (s t : State), s.Sound → exec .calCancel s = .next t → Changes s.m t.m [.rings, .sf, .hp] [.Q_IRQ, .SF_CAL_CMD, .HP_ERR,
    .HP_LAST, .GL_STATUS]) ∧
  (∀ (s t : State), s.Sound → exec .calTimeout s = .next t → Changes s.m t.m [.rings, .sf] [.Q_IRQ, .SF_CAL_CMD]) ∧
  (∀ (s t : State), s.Sound → exec .sfQPop s = .next t → Changes s.m t.m [.readData, .rings, .sf, .hp] [.Q_IRQ, .SF_Q_STAT,
    .HP_ERR, .HP_LAST, .GL_STATUS]) ∧
  (∀ (s t : State) (r : Fin 4), s.Sound → exec (.repPeriodEnd r) s = .next t → Changes s.m t.m [.sf] [.SF_REP_STAT]) ∧
  (∀ (s t : State) (r : Fin 4) (v : BitVec 32), s.Sound → exec (.sfRepHost r v) s = .next t → Changes s.m t.m [.rings, .sf, .hp]
    [.Q_IRQ, .SF_REP_HOST, .SF_REP_STAT, .HP_ERR, .HP_LAST, .GL_STATUS])

/-- What the fault-masking, ledger, patina and strata commands leave unchanged. -/
def Obligations.MaskingAndRecordFrame : Prop :=
  (∀ (s t : State) (u : BitVec 8) (mech : BitVec 4), s.Sound → exec (.unitFault u mech) s = .next t → Changes s.m t.m [.staged,
    .axes, .queues, .rings, .arms, .regchans, .coils, .banks, .sf, .fm, .kn, .nv] [.KN_UNITS, .KN_CORES, .AX_FAULT,
    .AX_HOME_STAT, .Q_STATUS, .Q_LAST, .Q_ABORT_STAT, .Q_IRQ, .GR_STATUS, .GR_FSTAT, .GR_TRIM_OUT, .CS_SLICE, .LA_AX_STAT,
    .FB_FOLLOW, .SF_STATUS, .SF_AUX_STAT, .SF_CH_STAT, .SF_DATA, .SF_REP_STAT, .FM_STATUS, .FM_CLK]) ∧
  (∀ (s t : State) (u : BitVec 8) (sparePasses : Bool) (axes : BitVec 48), s.Sound → exec (.auditMismatch u sparePasses axes) s
    = .next t → Changes s.m t.m [.staged, .axes, .queues, .rings, .arms, .regchans, .coils, .banks, .sf, .fm, .kn, .nv]
    [.KN_UNITS, .KN_CORES, .AX_FAULT, .AX_HOME_STAT, .Q_STATUS, .Q_LAST, .Q_ABORT_STAT, .Q_IRQ, .GR_STATUS, .GR_FSTAT,
    .GR_TRIM_OUT, .CS_SLICE, .LA_AX_STAT, .FB_FOLLOW, .SF_STATUS, .SF_AUX_STAT, .SF_CH_STAT, .SF_DATA, .SF_REP_STAT, .FM_STATUS,
    .FM_CNT, .FM_CLK]) ∧
  (∀ (s t : State) (u : BitVec 8) (dur : BitVec 16) (rep : BitVec 8), s.Sound → exec (.takeoverComplete u dur rep) s = .next t →
    Changes s.m t.m [.axes, .queues, .rings, .fm, .kn] [.Q_STATUS, .Q_LAST, .Q_ABORT_STAT, .Q_IRQ, .GR_PATH, .FM_STATUS,
    .FM_TKO, .FM_CNT]) ∧
  (∀ (s t : State), s.Sound → exec .refFail s = .next t → Changes s.m t.m [.staged, .axes, .queues, .rings, .arms, .regchans,
    .coils, .banks, .sf, .fm, .kn, .nv] [.KN_UNITS, .KN_CORES, .AX_FAULT, .AX_HOME_STAT, .Q_STATUS, .Q_LAST, .Q_ABORT_STAT,
    .Q_IRQ, .GR_STATUS, .GR_FSTAT, .GR_TRIM_OUT, .CS_SLICE, .LA_AX_STAT, .FB_FOLLOW, .SF_STATUS, .SF_AUX_STAT, .SF_CH_STAT,
    .SF_DATA, .SF_REP_STAT, .FM_STATUS, .FM_CLK]) ∧
  (∀ (s t : State) (u : BitVec 8), s.Sound → exec (.pllFail u) s = .next t → Changes s.m t.m [.staged, .axes, .queues, .rings,
    .arms, .regchans, .coils, .banks, .sf, .fm, .kn, .nv] [.KN_UNITS, .KN_CORES, .AX_FAULT, .AX_HOME_STAT, .Q_STATUS, .Q_LAST,
    .Q_ABORT_STAT, .Q_IRQ, .GR_STATUS, .GR_FSTAT, .GR_TRIM_OUT, .CS_SLICE, .LA_AX_STAT, .FB_FOLLOW, .SF_STATUS, .SF_AUX_STAT,
    .SF_CH_STAT, .SF_DATA, .SF_REP_STAT, .FM_STATUS, .FM_CLK]) ∧
  (∀ (s t : State) (dram : Bool) (addr : BitVec 40) (row : BitVec 24) (reserve : Bool), s.Sound → exec (.eccCorrectable dram
    addr row reserve) s = .next t → Changes s.m t.m [.rings, .fm] [.Q_IRQ, .FM_STATUS, .FM_ECC_S, .FM_ECC_D, .FM_ECC_LAST]) ∧
  (∀ (s t : State) (loc : EccLoc) (addr : BitVec 40), s.Sound → exec (.eccUncorrectable loc addr) s = .next t → Changes s.m t.m
    [.staged, .axes, .queues, .rings, .arms, .regchans, .coils, .banks, .sf, .fm, .kn, .nv] [.KN_UNITS, .KN_CORES, .AX_FAULT,
    .AX_HOME_STAT, .Q_STATUS, .Q_LAST, .Q_ABORT_STAT, .Q_IRQ, .GR_STATUS, .GR_FSTAT, .GR_TRIM_OUT, .CS_SLICE, .LA_AX_STAT,
    .FB_FOLLOW, .SF_STATUS, .SF_AUX_STAT, .SF_CH_STAT, .SF_DATA, .SF_REP_STAT, .FM_STATUS, .FM_ECC_S, .FM_ECC_D, .FM_ECC_LAST,
    .FM_CLK]) ∧
  (∀ (s t : State) (off : BitVec 32), s.Sound → exec (.eccRestore off) s = .next t → Changes s.m t.m [.dram, .fm] []) ∧
  (∀ (s t : State) (dram : Bool) (progress : BitVec 16), s.Sound → exec (.scrub dram progress) s = .next t → Changes s.m t.m []
    [.FM_SCRUB]) ∧
  (∀ (s t : State) (asserted : Bool), s.Sound → exec (.faultLine asserted) s = .next t → Changes s.m t.m [.axes, .queues,
    .rings, .arms, .regchans, .fm, .st] [.AX_FAULT, .AX_HOME_STAT, .Q_IRQ, .LA_AX_STAT, .FB_FOLLOW, .FM_STATUS]) ∧
  (∀ (s t : State) (w : BitVec 32), s.Sound → exec (.fmInject w) s = .next t → Changes s.m t.m [.staged, .axes, .queues, .rings,
    .arms, .regchans, .coils, .banks, .sf, .fm, .kn, .nv, .hp] [.KN_UNITS, .KN_CORES, .AX_FAULT, .AX_HOME_STAT, .Q_STATUS,
    .Q_LAST, .Q_ABORT_STAT, .Q_IRQ, .GR_STATUS, .GR_FSTAT, .GR_TRIM_OUT, .CS_SLICE, .LA_AX_STAT, .FB_FOLLOW, .SF_STATUS,
    .SF_AUX_STAT, .SF_CH_STAT, .SF_DATA, .SF_REP_STAT, .FM_STATUS, .FM_CLK, .HP_ERR, .HP_LAST, .GL_STATUS]) ∧
  (∀ (s t : State) (tbp : BitVec 24), s.Sound → exec (.ledgerInterval tbp) s = .next t → Changes s.m t.m [.rings, .coils, .heat,
    .pt] [.Q_IRQ, .HL_STATE, .HL_STAT, .HL_AX_STATE, .HL_AX_P]) ∧
  (∀ (s t : State) (w : PatinaWin), s.Sound → exec (.patinaPass w) s = .next t → Changes s.m t.m [.rings, .obs, .ledRon, .heat,
    .pt] [.Q_IRQ, .AX_CR_RL_A, .AX_CR_RL_B, .LA_AX, .HL_CFG2, .HL_THERM, .PT_STAT, .PT_MOD, .PT_AX, .PT_PLAN]) ∧
  (∀ (s t : State) (w : PatinaWin), s.Sound → exec (.passNow w) s = .next t → Changes s.m t.m [.rings, .obs, .ledRon, .heat,
    .pt, .hp] [.Q_IRQ, .AX_CR_RL_A, .AX_CR_RL_B, .LA_AX, .HL_CFG2, .HL_THERM, .PT_STAT, .PT_MOD, .PT_AX, .PT_PLAN, .HP_ERR,
    .HP_LAST, .GL_STATUS]) ∧
  (∀ (s t : State), s.Sound → exec .clrLimits s = .next t → Changes s.m t.m [.rings, .hp] [.Q_IRQ, .PT_PLAN, .HP_ERR, .HP_LAST,
    .GL_STATUS]) ∧
  (∀ (s t : State), s.Sound → exec .patinaLogMinute s = .next t → Changes s.m t.m [.pt] []) ∧
  (∀ (s t : State) (ok : Bool), s.Sound → exec (.patinaRecordWritten ok) s = .next t → Changes s.m t.m [.flash, .rings, .nv,
    .pt] [.Q_IRQ, .PT_STAT]) ∧
  (∀ (s t : State), s.Sound → exec .strataTrigger s = .next t → Changes s.m t.m [.rings, .st] [.Q_IRQ, .ST_STAT, .ST_LAYER,
    .ST_LAYER_ST]) ∧
  (∀ (s t : State), s.Sound → exec .strataFreeze s = .next t → Changes s.m t.m [.dram, .rings, .st] [.Q_IRQ, .ST_STAT,
    .ST_LAYER_ST]) ∧
  (∀ (s t : State), s.Sound → exec .stTrig s = .next t → Changes s.m t.m [.rings, .st, .hp] [.Q_IRQ, .HP_ERR, .HP_LAST,
    .GL_STATUS]) ∧
  (∀ (s t : State), s.Sound → exec .stArm s = .next t → Changes s.m t.m [.rings, .st, .hp] [.Q_IRQ, .HP_ERR, .HP_LAST,
    .GL_STATUS]) ∧
  (∀ (s t : State), s.Sound → exec .stDisarm s = .next t → Changes s.m t.m [.rings, .st, .hp] [.Q_IRQ, .HP_ERR, .HP_LAST,
    .GL_STATUS]) ∧
  (∀ (s t : State) (layer : Fin 16), s.Sound → exec (.stRelease layer) s = .next t → Changes s.m t.m [.rings, .st, .hp] [.Q_IRQ,
    .ST_STAT, .ST_LAYER, .ST_LAYER_ST, .HP_ERR, .HP_LAST, .GL_STATUS]) ∧
  (∀ (s t : State), s.Sound → exec .stReleaseAll s = .next t → Changes s.m t.m [.rings, .st, .hp] [.Q_IRQ, .ST_STAT, .ST_LAYER,
    .ST_LAYER_ST, .HP_ERR, .HP_LAST, .GL_STATUS]) ∧
  (∀ (s t : State) (en : Bool), s.Sound → exec (.stEn en) s = .next t → Changes s.m t.m [.dram, .rings, .st, .hp] [.Q_IRQ,
    .ST_CFG, .ST_STAT, .ST_WR, .ST_LAYER_ST, .HP_ERR, .HP_LAST, .GL_STATUS]) ∧
  (∀ (s t : State) (v : BitVec 4), s.Sound → exec (.stRegion v) s = .next t → Changes s.m t.m [.rings, .st, .hp] [.Q_IRQ,
    .ST_REGION, .ST_STAT, .ST_WR, .ST_LAYER, .ST_LAYER_ST, .HP_ERR, .HP_LAST, .GL_STATUS]) ∧
  (∀ (s t : State) (k : Fin 5) (w : Word), s.Sound → exec (.stSel k w) s = .next t → Changes s.m t.m [.staged, .rings, .hp]
    [.Q_IRQ, .ST_STAT, .ST_RATE, .ST_SEL, .HP_ERR, .HP_LAST, .GL_STATUS])

/-- What the host port and the addressed accesses leave unchanged. -/
def Obligations.HostPortFrame : Prop :=
  (∀ (s t : State) (req : Word), s.Sound → exec (.hpRead req) s = .next t → t.m.inp = s.m.inp ∧ t.m.tap = s.m.tap) ∧
  (∀ (s t : State) (req : Word) (data : List Word), s.Sound → exec (.hpWrite req data) s = .next t → t.m.inp = s.m.inp ∧
    t.m.tap = s.m.tap) ∧
  (∀ (s t : State) (req : Word), s.Sound → exec (.hpNop req) s = .next t → t.m.inp = s.m.inp ∧ t.m.tap = s.m.tap) ∧
  (∀ (s t : State) (req : Word) (data : List Word), s.Sound → exec (.broadcastFrame req data) s = .next t → t.m.inp = s.m.inp ∧
    t.m.tap = s.m.tap) ∧
  (∀ (s t : State) (cause : Fin 6) (bcast : Bool), s.Sound → exec (.frameDiscard cause bcast) s = .next t → Changes s.m t.m
    [.staged, .rings, .hp] [.Q_IRQ, .HP_ERR, .HP_LAST]) ∧
  (∀ (s t : State) (bcast : Bool), s.Sound → exec (.frameTimeout bcast) s = .next t → Changes s.m t.m [.staged, .rings, .hp]
    [.Q_IRQ, .HP_ERR, .HP_LAST]) ∧
  (∀ (s t : State), s.Sound → exec .laneReset s = .next t → Changes s.m t.m [.staged, .rings, .hp] [.Q_IRQ, .HP_CFG, .HP_STAT,
    .HP_ERR, .HP_LAST]) ∧
  (∀ (s t : State), s.Sound → exec .genChange s = .next t → Changes s.m t.m [.rings, .hp] [.Q_IRQ]) ∧
  (∀ (s t : State), s.Sound → exec .hpClr s = .next t → Changes s.m t.m [.rings, .hp] [.Q_IRQ, .HP_ERR, .HP_LAST, .GL_STATUS]) ∧
  (∀ (s t : State) (a : BitVec 24) (w : Word), s.Sound → exec (.aliasSet a w) s = .next t → t.m.inp = s.m.inp ∧
    t.m.tap = s.m.tap) ∧
  (∀ (s t : State) (a : BitVec 24) (w : Word), s.Sound → exec (.aliasClr a w) s = .next t → t.m.inp = s.m.inp ∧
    t.m.tap = s.m.tap) ∧
  (∀ (s t : State) (a : BitVec 24) (w : Word), s.Sound → exec (.aliasTgl a w) s = .next t → t.m.inp = s.m.inp ∧
    t.m.tap = s.m.tap) ∧
  (∀ (s t : State) (slot : BitVec 7) (axis : BitVec 8) (w : BitVec 32), s.Sound → exec (.maskedWrite slot axis w) s = .next t →
    t.m.inp = s.m.inp ∧ t.m.tap = s.m.tap) ∧
  (∀ (s t : State) (a : BitVec 40), s.Sound → exec (.wideWord0Read a) s = .next t → t.m.inp = s.m.inp ∧ t.m.tap = s.m.tap) ∧
  (∀ (s t : State) (a : BitVec 40), s.Sound → exec (.wideWordRead a) s = .next t → t.m.inp = s.m.inp ∧ t.m.tap = s.m.tap) ∧
  (∀ (s t : State) (a : BitVec 40) (w : BitVec 32), s.Sound → exec (.wideWordStage a w) s = .next t → t.m.inp = s.m.inp ∧
    t.m.tap = s.m.tap) ∧
  (∀ (s t : State) (a : BitVec 40) (w : BitVec 32), s.Sound → exec (.wideWord0Write a w) s = .next t → t.m.inp = s.m.inp ∧
    t.m.tap = s.m.tap) ∧
  (∀ (s t : State) (hi : Bool) (w : BitVec 32), s.Sound → exec (.iaddrWrite hi w) s = .next t → Changes s.m t.m [.rings, .hp]
    [.Q_IRQ, .HP_ERR, .HP_LAST, .GL_STATUS, .GL_IADDR, .GL_IADDR_HI, .GL_ISTAT]) ∧
  (∀ (s t : State), s.Sound → exec .idataRead s = .next t → t.m.inp = s.m.inp ∧ t.m.tap = s.m.tap) ∧
  (∀ (s t : State) (w : BitVec 32), s.Sound → exec (.idataWrite w) s = .next t → t.m.inp = s.m.inp ∧ t.m.tap = s.m.tap) ∧
  (∀ (s t : State), s.Sound → exec .prefetchDone s = .next t → Changes s.m t.m [] [.GL_ISTAT]) ∧
  (∀ (s t : State) (bits : BitVec 6), s.Sound → exec (.lockSet bits) s = .next t → Changes s.m t.m [.rings, .hp] [.Q_IRQ,
    .HP_ERR, .HP_LAST, .GL_STATUS, .GL_LOCK]) ∧
  (∀ (s t : State) (a : BitVec 24) (w : Word), s.Sound → exec (.registerWrite a w) s = .next t → t.m.inp = s.m.inp ∧
    t.m.tap = s.m.tap)
end

