-- ==== Sys2Proof/Laws/Memory.lean ====
section
/-!
SUPPORT. The canonical form of the memories and of the register file: every memory operation keeps it, a read after a write
gives what was written, and a write leaves every other place alone.
-/

namespace Sys2Proof.Machine

/-! ### One byte -/

theorem memWfFrom_mono {d : Byte} {c : List Host.Cell} {lo lo' : Nat} (hl : lo' ≤ lo) (h : memWfFrom d lo c = true) :
    memWfFrom d lo' c = true := by
  cases c with
  | nil => rfl
  | cons x rest =>
    obtain ⟨k, b⟩ := x
    simp only [memWfFrom, Bool.and_eq_true, decide_eq_true_eq] at h ⊢
    exact ⟨⟨by omega, h.1.2⟩, h.2⟩

theorem memSet_wf {d : Byte} (a : Nat) (b : Byte) :
    ∀ (c : List Host.Cell) (lo : Nat), lo ≤ a → memWfFrom d lo c = true → memWfFrom d lo (memSet d c a b) = true := by
  intro c
  induction c with
  | nil =>
    intro lo hlo _
    simp only [memSet]
    split <;> simp_all [memWfFrom]
  | cons x rest ih =>
    intro lo hlo h
    obtain ⟨k, v⟩ := x
    simp only [memWfFrom, Bool.and_eq_true, decide_eq_true_eq] at h
    obtain ⟨⟨h1, h2⟩, h3⟩ := h
    simp only [memSet]
    split
    · rename_i hk
      simp only [memWfFrom, Bool.and_eq_true, decide_eq_true_eq]
      exact ⟨⟨h1, h2⟩, ih (k + 1) (by omega) h3⟩
    · split
      · rename_i hk
        split
        · exact memWfFrom_mono (by omega) h3
        · simp only [memWfFrom, Bool.and_eq_true, decide_eq_true_eq]
          exact ⟨⟨h1, by assumption⟩, h3⟩
      · rename_i hk hk'
        split
        · simp only [memWfFrom, Bool.and_eq_true, decide_eq_true_eq]
          exact ⟨⟨h1, h2⟩, h3⟩
        · simp only [memWfFrom, Bool.and_eq_true, decide_eq_true_eq]
          exact ⟨⟨hlo, by assumption⟩, ⟨by omega, h2⟩, h3⟩

/-- Below the first address a canonical memory lists nothing. -/
theorem memGet_below {d : Byte} {c : List Host.Cell} {lo a : Nat} (h : memWfFrom d lo c = true) (ha : a < lo) :
    memGet d c a = d := by
  cases c with
  | nil => rfl
  | cons x rest =>
    obtain ⟨k, v⟩ := x
    simp only [memWfFrom, Bool.and_eq_true, decide_eq_true_eq] at h
    have h1 : k ≠ a := by omega
    have h2 : a < k := by omega
    simp [memGet, h1, h2]

/-- A byte reads as last written; every other byte reads as before. -/
theorem memGet_memSet {d : Byte} (a x : Nat) (b : Byte) :
    ∀ (c : List Host.Cell) (lo : Nat), memWfFrom d lo c = true →
      memGet d (memSet d c a b) x = if x = a then b else memGet d c x := by
  intro c
  induction c with
  | nil =>
    intro lo _
    by_cases hb : b = d
    · simp [memSet, memGet, hb]
    · by_cases hx : x = a
      · simp [memSet, memGet, hb, hx]
      · have : a ≠ x := fun h => hx h.symm
        simp [memSet, memGet, hb, hx, this]
  | cons y rest ih =>
    intro lo h
    obtain ⟨k, v⟩ := y
    simp only [memWfFrom, Bool.and_eq_true, decide_eq_true_eq] at h
    obtain ⟨⟨_, _⟩, h3⟩ := h
    simp only [memSet]
    by_cases h1 : k < a
    · simp only [h1, if_true, memGet, ih (k + 1) h3]
      by_cases hx : x = a
      · have e1 : k ≠ a := by omega
        have e2 : ¬ a < k := by omega
        simp [hx, e1, e2]
      · simp [hx]
    · by_cases h2 : k = a
      · subst h2
        by_cases hb : b = d
        · simp only [Nat.lt_irrefl, if_false, if_true, hb]
          by_cases hx : x = k
          · simp [hx, memGet_below h3 (Nat.lt_succ_self k)]
          · have e : k ≠ x := fun h => hx h.symm
            simp only [hx, if_false, memGet, e]
            by_cases hlt : x < k
            · simp [hlt, memGet_below h3 (by omega : x < k + 1)]
            · simp [hlt]
        · by_cases hx : x = k
          · simp [memGet, hb, hx]
          · have e : k ≠ x := fun h => hx h.symm
            simp [memGet, hb, hx, e]
      · by_cases hb : b = d
        · simp only [h1, h2, hb, if_true, if_false, memGet]
          by_cases hx : x = a
          · have e1 : k ≠ a := h2
            have e2 : a < k := by omega
            simp [hx, e1, e2]
          · simp [hx]
        · simp only [h1, h2, hb, if_false, memGet]
          by_cases hx : x = a
          · simp [hx]
          · have e : a ≠ x := fun h => hx h.symm
            simp only [hx, e, if_false]
            by_cases hlt : x < a
            · have e1 : k ≠ x := by omega
              have e2 : x < k := by omega
              simp [hlt, e1, e2]
            · simp [hlt]

/-! ### Stretches of bytes -/

theorem memWrite_wf {d : Byte} (n : Nat) : ∀ (c : List Host.Cell) (a v : Nat),
    memWfFrom d 0 c = true → memWfFrom d 0 (memWrite d c a n v) = true := by
  induction n with
  | zero => intro c a v h; exact h
  | succ n ih => intro c a v h; exact ih _ _ _ (memSet_wf a _ c 0 (Nat.zero_le a) h)

theorem memPut_wf {d : Byte} (l : List Byte) : ∀ (c : List Host.Cell) (a : Nat),
    memWfFrom d 0 c = true → memWfFrom d 0 (memPut d c a l) = true := by
  induction l with
  | nil => intro c a h; exact h
  | cons b rest ih => intro c a h; exact ih _ _ (memSet_wf a b c 0 (Nat.zero_le a) h)

/-- A write of `n` bytes at `a` leaves every byte outside `a … a + n − 1` alone. -/
theorem memGet_memWrite_other {d : Byte} (n x : Nat) : ∀ (c : List Host.Cell) (a v : Nat),
    memWfFrom d 0 c = true → x < a ∨ a + n ≤ x → memGet d (memWrite d c a n v) x = memGet d c x := by
  induction n with
  | zero => intro c a v _ _; rfl
  | succ n ih =>
    intro c a v h hx
    have hw := memSet_wf a (BitVec.ofNat 8 v) c 0 (Nat.zero_le a) h
    rw [memWrite, ih _ _ _ hw (by omega), memGet_memSet a x _ c 0 h, if_neg (by omega)]

/-- A read of `n` bytes depends on these bytes only. -/
theorem memRead_congr {d : Byte} (n : Nat) : ∀ (c c' : List Host.Cell) (a : Nat),
    (∀ x, a ≤ x → x < a + n → memGet d c x = memGet d c' x) → memRead d c a n = memRead d c' a n := by
  induction n with
  | zero => intro c c' a _; rfl
  | succ n ih =>
    intro c c' a h
    rw [memRead, memRead, h a (Nat.le_refl a) (by omega), ih c c' (a + 1) (fun x h1 h2 => h x (by omega) (by omega))]

/-- What was written is read back. -/
theorem memRead_memWrite {d : Byte} (n : Nat) : ∀ (c : List Host.Cell) (a v : Nat),
    memWfFrom d 0 c = true → memRead d (memWrite d c a n v) a n = v % 256 ^ n := by
  induction n with
  | zero => intro c a v _; simp [memRead, Nat.mod_one]
  | succ n ih =>
    intro c a v h
    have hw := memSet_wf a (BitVec.ofNat 8 v) c 0 (Nat.zero_le a) h
    rw [memWrite, memRead, ih _ _ _ hw, memGet_memWrite_other n a _ _ _ hw (Or.inl (Nat.lt_succ_self a)),
      memGet_memSet a a _ c 0 h, if_pos rfl, BitVec.toNat_ofNat]
    rw [show (256 : Nat) ^ (n + 1) = 256 * 256 ^ n from by rw [Nat.pow_succ, Nat.mul_comm], Nat.mod_mul]

theorem filter_wf {d : Byte} (p : Host.Cell → Bool) : ∀ (c : List Host.Cell) (lo : Nat),
    memWfFrom d lo c = true → memWfFrom d lo (c.filter p) = true := by
  intro c
  induction c with
  | nil => intro lo _; rfl
  | cons x rest ih =>
    intro lo h
    obtain ⟨k, v⟩ := x
    simp only [memWfFrom, Bool.and_eq_true, decide_eq_true_eq] at h
    rw [List.filter_cons]
    split
    · simp only [memWfFrom, Bool.and_eq_true, decide_eq_true_eq]
      exact ⟨h.1, ih _ h.2⟩
    · exact memWfFrom_mono (by omega) (ih _ h.2)

/-! ### The DRAM and the flash -/

theorem Mach.dramWrite_wf {m : Mach} (a n v : Nat) (h : Memory.wf m.dram = true) : Memory.wf (m.dramWrite a n v).dram = true :=
  memWrite_wf n _ a v h

theorem Mach.flashWrite_wf {m : Mach} (a n v : Nat) (h : Flash.wf m.flash = true) : Flash.wf (m.flashWrite a n v).flash = true :=
  memWrite_wf n _ a v h

theorem Mach.flashErase_wf {m : Mach} (a n : Nat) (h : Flash.wf m.flash = true) : Flash.wf (m.flashErase a n).flash = true :=
  filter_wf _ _ 0 h

theorem Mach.flashProgram_wf (l : List Byte) : ∀ (m : Mach) (a : Nat),
    Flash.wf m.flash = true → Flash.wf (m.flashProgram a l).flash = true := by
  induction l with
  | nil => intro m a h; exact h
  | cons b rest ih => intro m a h; exact ih _ _ (memSet_wf a _ _ 0 (Nat.zero_le a) h)

/-! ### The register file -/

theorem RegKey.before_irrefl (k : RegKey) : k.before k = false := by simp [RegKey.before]

theorem RegKey.before_trans {x y z : RegKey} (h1 : x.before y = true) (h2 : y.before z = true) : x.before z = true := by
  unfold RegKey.before at *
  split at h1 <;> split at h2 <;> (try split at h1) <;> (try split at h2) <;> simp only [decide_eq_true_eq] at h1 h2 <;>
    (split <;> (try split) <;> simp only [decide_eq_true_eq]) <;> omega

theorem Reg.ctorIdx_inj {x y : Reg} (h : x.ctorIdx = y.ctorIdx) : x = y := by
  rw [← Reg.ofNat_ctorIdx x, ← Reg.ofNat_ctorIdx y, h]

theorem RegKey.before_total {x y : RegKey} (h : x ≠ y) (h' : x.before y = false) : y.before x = true := by
  obtain ⟨r, i, j⟩ := x
  obtain ⟨r', i', j'⟩ := y
  unfold RegKey.before at *
  by_cases e : r = r'
  · subst e
    by_cases e2 : i = i'
    · subst e2
      have : j ≠ j' := fun e3 => h (by rw [e3])
      simp only [ne_eq, not_true_eq_false, if_false, decide_eq_false_iff_not, decide_eq_true_eq] at h' ⊢
      omega
    · have e3 : ¬ i' = i := fun e3 => e2 e3.symm
      simp only [ne_eq, not_true_eq_false, if_false, e2, e3, not_false_eq_true, if_true, decide_eq_false_iff_not,
        decide_eq_true_eq] at h' ⊢
      omega
  · have e1 : ¬ r.ctorIdx = r'.ctorIdx := fun e1 => e (Reg.ctorIdx_inj e1)
    have e3 : ¬ r'.ctorIdx = r.ctorIdx := fun e3 => e1 e3.symm
    simp only [ne_eq, e1, e3, not_false_eq_true, if_true, decide_eq_false_iff_not, decide_eq_true_eq] at h' ⊢
    omega

/-- Whether every register of a rising list comes after `k`. -/
def regsAfter (k : RegKey) (l : List (RegKey × Word)) : Bool := match l with | [] => true | (y, _) :: _ => k.before y

theorem regsWf_cons (x : RegKey) (w : Word) (l : List (RegKey × Word)) :
    regsWf ((x, w) :: l) = (decide (w ≠ x.resetVal) && regsAfter x l && regsWf l) := by
  cases l <;> rfl

theorem regsAfter_trans {x y : RegKey} {l : List (RegKey × Word)} (h : x.before y = true) (h' : regsAfter y l = true) :
    regsAfter x l = true := by
  cases l with
  | nil => rfl
  | cons z _ => exact RegKey.before_trans h h'

/-- A register that comes before every one listed has its reset value. -/
theorem regGet_after {k : RegKey} {l : List (RegKey × Word)} (h : regsAfter k l = true) : regGet l k = k.resetVal := by
  cases l with
  | nil => rfl
  | cons y _ =>
    obtain ⟨y, v⟩ := y
    have h1 : k.before y = true := h
    have h2 : y ≠ k := by
      intro e
      subst e
      simp [RegKey.before_irrefl] at h1
    simp [regGet, h1, h2]

/-- What `regSet` keeps, and the order before it. -/
theorem regSet_wf (k : RegKey) (w : Word) : ∀ (l : List (RegKey × Word)), regsWf l = true →
    regsWf (regSet l k w) = true ∧ ∀ z, z.before k = true → regsAfter z l = true → regsAfter z (regSet l k w) = true := by
  intro l
  induction l with
  | nil =>
    intro _
    constructor
    · simp only [regSet]
      split
      · rfl
      · simp_all [regsWf]
    · intro z hz _
      simp only [regSet]
      split
      · rfl
      · exact hz
  | cons x rest ih =>
    intro h
    obtain ⟨x, v⟩ := x
    rw [regsWf_cons] at h
    simp only [Bool.and_eq_true, decide_eq_true_eq] at h
    obtain ⟨⟨h1, h2⟩, h3⟩ := h
    simp only [regSet]
    by_cases e : x = k
    · subst e
      simp only [if_true]
      split
      · exact ⟨h3, fun z hz _ => regsAfter_trans hz h2⟩
      · rename_i hw
        refine ⟨?_, fun z hz _ => hz⟩
        rw [regsWf_cons]
        simp [hw, h2, h3]
    · simp only [e, if_false]
      by_cases e2 : k.before x = true
      · simp only [e2, if_true]
        split
        · refine ⟨?_, fun z _ hz => hz⟩
          rw [regsWf_cons]
          simp [h1, h2, h3]
        · rename_i hw
          refine ⟨?_, fun z hz _ => hz⟩
          rw [regsWf_cons, regsWf_cons, show regsAfter k ((x, v) :: rest) = true from e2]
          simp [hw, h1, h2, h3]
      · have e3 : k.before x = false := by simpa using e2
        have e4 : x.before k = true := RegKey.before_total (fun h => e h.symm) e3
        simp only [e3, Bool.false_eq_true, if_false]
        refine ⟨?_, fun z _ hz => hz⟩
        rw [regsWf_cons]
        simp [h1, (ih h3).1, (ih h3).2 x e4 h2]

/-- A register reads as last set; every other register reads as before. -/
theorem regGet_regSet (k z : RegKey) (w : Word) : ∀ (l : List (RegKey × Word)), regsWf l = true →
    regGet (regSet l k w) z = if z = k then w else regGet l z := by
  intro l
  induction l with
  | nil =>
    intro _
    by_cases hw : w = k.resetVal <;> by_cases hz : z = k
    · simp [regSet, regGet, hw, hz]
    · simp [regSet, regGet, hw, hz]
    · simp [regSet, regGet, hw, hz]
    · have : k ≠ z := fun h => hz h.symm
      simp [regSet, regGet, hw, hz, this]
  | cons x rest ih =>
    intro h
    obtain ⟨x, v⟩ := x
    rw [regsWf_cons] at h
    simp only [Bool.and_eq_true, decide_eq_true_eq] at h
    obtain ⟨⟨h1, h2⟩, h3⟩ := h
    simp only [regSet]
    by_cases e : x = k
    · subst e
      simp only [if_true]
      by_cases hw : w = x.resetVal
      · simp only [hw, if_true]
        by_cases hz : z = x
        · subst hz
          simp [regGet_after h2]
        · have e5 : x ≠ z := fun h => hz h.symm
          simp only [hz, if_false, regGet, e5]
          by_cases hb : z.before x = true
          · simp [hb, regGet_after (regsAfter_trans hb h2)]
          · simp [hb]
      · by_cases hz : z = x
        · simp [hw, hz, regGet]
        · have e5 : x ≠ z := fun h => hz h.symm
          simp [hw, hz, regGet, e5]
    · simp only [e, if_false]
      by_cases e2 : k.before x = true
      · simp only [e2, if_true]
        by_cases hw : w = k.resetVal
        · simp only [hw, if_true]
          by_cases hz : z = k
          · subst hz
            simp [regGet, e, e2]
          · simp [hz]
        · simp only [hw, if_false]
          by_cases hz : z = k
          · simp [hz, regGet]
          · have e5 : k ≠ z := fun h => hz h.symm
            rw [if_neg hz, regGet, if_neg e5]
            by_cases hb : z.before k = true
            · have hzx : z.before x = true := RegKey.before_trans hb e2
              have hzx' : x ≠ z := by
                intro h
                subst h
                simp [RegKey.before_irrefl] at hzx
              simp [hb, regGet, hzx, hzx']
            · simp [hb]
      · have e3 : k.before x = false := by simpa using e2
        have e4 : x.before k = true := RegKey.before_total (fun h => e h.symm) e3
        simp only [e3, Bool.false_eq_true, if_false, regGet, ih h3]
        by_cases hz : z = k
        · subst hz
          simp [e, e3]
        · simp [hz]

theorem Mach.setReg_wf {m : Mach} (r : Reg) (i j v : Nat) (h : regsWf m.regs = true) : regsWf (m.setReg r i j v).regs = true :=
  (regSet_wf _ _ _ h).1

/-- A register reads back what was set. -/
theorem Mach.reg_setReg_same {m : Mach} (r : Reg) (i j v : Nat) (h : regsWf m.regs = true) :
    (m.setReg r i j v).reg r i j = v % 2 ^ 128 := by
  rw [Mach.reg, Mach.setReg, regGet_regSet _ _ _ _ h, if_pos rfl, BitVec.toNat_ofNat]

/-- Every other register reads as before. -/
theorem Mach.reg_setReg_other {m : Mach} {r r' : Reg} {i i' j j' : Nat} (v : Nat) (h : regsWf m.regs = true)
    (hk : (⟨r', i', j'⟩ : RegKey) ≠ ⟨r, i, j⟩) : (m.setReg r i j v).reg r' i' j' = m.reg r' i' j' := by
  rw [Mach.reg, Mach.setReg, regGet_regSet _ _ _ _ h, if_neg hk, Mach.reg]

/-! ### Vectors -/

theorem vget_vmod_same {α : Type} {n : Nat} (d : α) (v : Vector α n) (k : Nat) (f : α → α) (hk : k < n) :
    vget d (vmod v k f) k = f (vget d v k) := by
  simp [vget, vmod, hk]

theorem vget_vmod_other {α : Type} {n : Nat} (d : α) (v : Vector α n) (f : α → α) {j k : Nat} (h : j ≠ k) :
    vget d (vmod v k f) j = vget d v j := by
  unfold vget vmod
  by_cases hj : j < n
  · by_cases hk : k < n
    · simp [hj, hk, Ne.symm h]
    · simp [hj, hk]
  · simp [hj]

end Sys2Proof.Machine
end

