-- ==== Sys2Proof/Laws/Scope.lean ====
section
/-!
SUPPORT. What the basic operations may change: the frame of an operation as a bit mask, with the soundness of the stored data. A lemma `f_held` says that `f` keeps the stored data sound and changes nothing outside its mask.
-/

namespace Sys2Proof.Machine

theorem Otp.Keeps.refl (o : Otp) : o.Keeps o := ⟨fun _ _ h => h, fun _ h => h, fun h => h⟩

theorem Otp.Keeps.trans {a b c : Otp} (h1 : a.Keeps b) (h2 : b.Keeps c) : a.Keeps c :=
  ⟨fun k x h => h2.hashes k x (h1.hashes k x h), fun k h => h2.revoked k (h1.revoked k h), fun h => h2.reqSig (h1.reqSig h)⟩

/-! ### What an operation may change -/

/-- The bit of a register in the mask of a frame; bits 0 to 37 are the fields of `Mach` in their order, where `dram` stands for
the bytes outside the mirror of the event ring, and `staged` for writes that wait being taken, replaced or added. -/
def Reg.bit (r : Reg) : Nat := 2 ^ 64 * (2 ^ (r.ctorIdx / 2) * 2 ^ (r.ctorIdx - r.ctorIdx / 2))

theorem Reg.bit_eq (r : Reg) : r.bit = 2 ^ (64 + r.ctorIdx) := by
  rw [Reg.bit, ← Nat.pow_add, ← Nat.pow_add]
  congr 1
  omega

/-- What is kept: the key store `otp`, and, of the module `base`, everything outside `mask`. -/
structure Scope where
  otp : Otp
  base : Mach
  mask : Nat

/-- Bit `i` of the mask. -/
def Scope.has (T : Scope) (i : Nat) : Prop := T.mask.testBit i = true

/-- The mask has the bits of `k`. -/
def Scope.allows (T : Scope) (k : Nat) : Prop := k &&& T.mask = k

theorem Scope.allows.has {T : Scope} {k : Nat} (h : T.allows k) {i : Nat} (hi : k.testBit i = true) : T.has i := by
  have h2 : (k &&& T.mask).testBit i = k.testBit i := by rw [show k &&& T.mask = k from h]
  rw [Nat.testBit_and, hi] at h2
  exact h2

theorem Scope.allows.sub {T : Scope} {k j : Nat} (h : T.allows k) (hj : j &&& k = j) : T.allows j := by
  unfold Scope.allows at *
  rw [← hj, Nat.and_assoc, h]

theorem Scope.allows_bit {T : Scope} {r : Reg} (h : T.allows r.bit) : T.has (64 + r.ctorIdx) :=
  h.has (by rw [Reg.bit_eq, Nat.testBit_two_pow_self])

/-- A module whose stored data are sound and which differs from the frame's base only in what the mask names. -/
structure Mach.Within (T : Scope) (m : Mach) : Prop where
  stored : Stored T.otp m.dram m.flash m.regs m.otp m.rings
  dram : T.has 3 ∨ ∀ a, a < 0x04000000 ∨ 0x04100000 ≤ a → memGet dramDefault m.dram a = memGet dramDefault T.base.dram a
  reg : ∀ k : RegKey, T.has (64 + k.r.ctorIdx) ∨ regGet m.regs k = regGet T.base.regs k
  force : T.has 2 ∨ ∀ r i j, T.has (64 + Reg.ctorIdx r) ∨ m.force r i j = T.base.force r i j
  clk : T.has 0 ∨ m.clk = T.base.clk
  flash : T.has 4 ∨ m.flash = T.base.flash
  inp : T.has 5 ∨ m.inp = T.base.inp
  snapIn : T.has 6 ∨ m.snapIn = T.base.snapIn
  go : T.has 7 ∨ m.go = T.base.go
  goPulse : T.has 8 ∨ m.goPulse = T.base.goPulse
  readData : T.has 9 ∨ m.readData = T.base.readData
  axes : T.has 10 ∨ m.axes = T.base.axes
  queues : T.has 11 ∨ m.queues = T.base.queues
  rings : T.has 12 ∨ m.rings = T.base.rings
  arms : T.has 13 ∨ m.arms = T.base.arms
  vmasters : T.has 14 ∨ m.vmasters = T.base.vmasters
  regchans : T.has 15 ∨ m.regchans = T.base.regchans
  sections : T.has 16 ∨ m.sections = T.base.sections
  coils : T.has 17 ∨ m.coils = T.base.coils
  obs : T.has 18 ∨ m.obs = T.base.obs
  harm : T.has 19 ∨ m.harm = T.base.harm
  comm : T.has 20 ∨ m.comm = T.base.comm
  banks : T.has 21 ∨ m.banks = T.base.banks
  sync : T.has 22 ∨ m.sync = T.base.sync
  gasp : T.has 23 ∨ m.gasp = T.base.gasp
  dbgHalt : T.has 24 ∨ m.dbgHalt = T.base.dbgHalt
  testInstr : T.has 25 ∨ m.testInstr = T.base.testInstr
  ledRon : T.has 26 ∨ m.ledRon = T.base.ledRon
  ports : T.has 27 ∨ m.ports = T.base.ports
  sf : T.has 28 ∨ m.sf = T.base.sf
  fm : T.has 29 ∨ m.fm = T.base.fm
  heat : T.has 30 ∨ m.heat = T.base.heat
  kn : T.has 31 ∨ m.kn = T.base.kn ∨ T.has 12 ∧ ∃ l, m.kn = { T.base.kn with raised := l }
  otp : T.has 32 ∨ m.otp = T.base.otp
  nv : T.has 33 ∨ m.nv = T.base.nv
  pt : T.has 34 ∨ m.pt = T.base.pt
  st : T.has 35 ∨ m.st = T.base.st
  hp : T.has 36 ∨ m.hp = T.base.hp
  tap : T.has 37 ∨ m.tap = T.base.tap

theorem Mach.Within.start {m : Mach} (h : m.Sound m.otp) (k : Nat) : m.Within ⟨m.otp, m, k⟩ := by
  constructor
  case stored => exact h.stored
  all_goals first | exact .inr rfl | exact .inr (.inl rfl) | exact .inr fun _ _ => rfl | exact fun _ => .inr rfl | exact .inr fun _ _ _ => .inr rfl

theorem Mach.Within.sound {T : Scope} {m : Mach} (h : m.Within T) : m.Sound T.otp := ⟨h.stored⟩

/-- A record update of fields that hold no stored data. -/
structure Upd (T : Scope) (b m : Mach) : Prop where
  dram : m.dram = b.dram
  clk : m.clk = b.clk ∨ T.has 0
  regs : m.regs = b.regs
  staged : m.staged = b.staged ∨ T.has 2
  flash : m.flash = b.flash
  inp : m.inp = b.inp ∨ T.has 5
  snapIn : m.snapIn = b.snapIn ∨ T.has 6
  go : m.go = b.go ∨ T.has 7
  goPulse : m.goPulse = b.goPulse ∨ T.has 8
  readData : m.readData = b.readData ∨ T.has 9
  axes : m.axes = b.axes ∨ T.has 10
  queues : m.queues = b.queues ∨ T.has 11
  rings : m.rings = b.rings
  arms : m.arms = b.arms ∨ T.has 13
  vmasters : m.vmasters = b.vmasters ∨ T.has 14
  regchans : m.regchans = b.regchans ∨ T.has 15
  sections : m.sections = b.sections ∨ T.has 16
  coils : m.coils = b.coils ∨ T.has 17
  obs : m.obs = b.obs ∨ T.has 18
  harm : m.harm = b.harm ∨ T.has 19
  comm : m.comm = b.comm ∨ T.has 20
  banks : m.banks = b.banks ∨ T.has 21
  sync : m.sync = b.sync ∨ T.has 22
  gasp : m.gasp = b.gasp ∨ T.has 23
  dbgHalt : m.dbgHalt = b.dbgHalt ∨ T.has 24
  testInstr : m.testInstr = b.testInstr ∨ T.has 25
  ledRon : m.ledRon = b.ledRon ∨ T.has 26
  ports : m.ports = b.ports ∨ T.has 27
  sf : m.sf = b.sf ∨ T.has 28
  fm : m.fm = b.fm ∨ T.has 29
  heat : m.heat = b.heat ∨ T.has 30
  kn : m.kn = b.kn ∨ T.has 31
  otp : m.otp = b.otp
  nv : m.nv = b.nv ∨ T.has 33
  pt : m.pt = b.pt ∨ T.has 34
  st : m.st = b.st ∨ T.has 35
  hp : m.hp = b.hp ∨ T.has 36
  tap : m.tap = b.tap ∨ T.has 37

theorem Mach.force_congr {a b : Mach} (h1 : a.regs = b.regs) (h2 : a.staged = b.staged) (r : Reg) (i j : Nat) :
    a.force r i j = b.force r i j := by
  unfold Mach.force Mach.reg
  rw [h1, h2]

theorem Mach.held_upd {T : Scope} {b m : Mach} (u : Upd T b m) (h : b.Within T) : m.Within T where
  stored := by rw [u.dram, u.flash, u.regs, u.otp, u.rings]; exact h.stored
  dram := by rw [u.dram]; exact h.dram
  reg := by rw [u.regs]; exact h.reg
  force := by
    rcases u.staged with e | e
    · refine h.force.imp_right fun h r i j => ?_
      rw [Mach.force_congr u.regs e]
      exact h r i j
    · exact .inl e
  clk := u.clk.elim (fun e => by rw [e]; exact h.clk) .inl
  flash := by rw [u.flash]; exact h.flash
  inp := u.inp.elim (fun e => by rw [e]; exact h.inp) .inl
  snapIn := u.snapIn.elim (fun e => by rw [e]; exact h.snapIn) .inl
  go := u.go.elim (fun e => by rw [e]; exact h.go) .inl
  goPulse := u.goPulse.elim (fun e => by rw [e]; exact h.goPulse) .inl
  readData := u.readData.elim (fun e => by rw [e]; exact h.readData) .inl
  axes := u.axes.elim (fun e => by rw [e]; exact h.axes) .inl
  queues := u.queues.elim (fun e => by rw [e]; exact h.queues) .inl
  rings := by rw [u.rings]; exact h.rings
  arms := u.arms.elim (fun e => by rw [e]; exact h.arms) .inl
  vmasters := u.vmasters.elim (fun e => by rw [e]; exact h.vmasters) .inl
  regchans := u.regchans.elim (fun e => by rw [e]; exact h.regchans) .inl
  sections := u.sections.elim (fun e => by rw [e]; exact h.sections) .inl
  coils := u.coils.elim (fun e => by rw [e]; exact h.coils) .inl
  obs := u.obs.elim (fun e => by rw [e]; exact h.obs) .inl
  harm := u.harm.elim (fun e => by rw [e]; exact h.harm) .inl
  comm := u.comm.elim (fun e => by rw [e]; exact h.comm) .inl
  banks := u.banks.elim (fun e => by rw [e]; exact h.banks) .inl
  sync := u.sync.elim (fun e => by rw [e]; exact h.sync) .inl
  gasp := u.gasp.elim (fun e => by rw [e]; exact h.gasp) .inl
  dbgHalt := u.dbgHalt.elim (fun e => by rw [e]; exact h.dbgHalt) .inl
  testInstr := u.testInstr.elim (fun e => by rw [e]; exact h.testInstr) .inl
  ledRon := u.ledRon.elim (fun e => by rw [e]; exact h.ledRon) .inl
  ports := u.ports.elim (fun e => by rw [e]; exact h.ports) .inl
  sf := u.sf.elim (fun e => by rw [e]; exact h.sf) .inl
  fm := u.fm.elim (fun e => by rw [e]; exact h.fm) .inl
  heat := u.heat.elim (fun e => by rw [e]; exact h.heat) .inl
  kn := u.kn.elim (fun e => by rw [e]; exact h.kn) .inl
  otp := by rw [u.otp]; exact h.otp
  nv := u.nv.elim (fun e => by rw [e]; exact h.nv) .inl
  pt := u.pt.elim (fun e => by rw [e]; exact h.pt) .inl
  st := u.st.elim (fun e => by rw [e]; exact h.st) .inl
  hp := u.hp.elim (fun e => by rw [e]; exact h.hp) .inl
  tap := u.tap.elim (fun e => by rw [e]; exact h.tap) .inl

theorem Mach.held_rings {T : Scope} {m : Mach} (h : m.Within T) (hT : T.allows 4096) {r : Rings} (hr : r.Fit) :
    ({ m with rings := r } : Mach).Within T :=
  ⟨⟨h.stored.dram, h.stored.flash, h.stored.regs, h.stored.otp, hr⟩, h.dram, h.reg, h.force, h.clk, h.flash, h.inp, h.snapIn, h.go, h.goPulse, h.readData, h.axes, h.queues, .inl (hT.has (by decide)), h.arms, h.vmasters, h.regchans, h.sections, h.coils, h.obs, h.harm, h.comm, h.banks, h.sync, h.gasp, h.dbgHalt, h.testInstr, h.ledRon, h.ports, h.sf, h.fm, h.heat, h.kn, h.otp, h.nv, h.pt, h.st, h.hp, h.tap⟩

/-- Events that wait for RUN are counted with the rings. -/
theorem Mach.held_raised {T : Scope} {m : Mach} (h : m.Within T) (hT : T.allows 4096) (l : List (Nat × Nat × Nat)) :
    ({ m with kn := { m.kn with raised := l } } : Mach).Within T :=
  ⟨h.stored, h.dram, h.reg, h.force, h.clk, h.flash, h.inp, h.snapIn, h.go, h.goPulse, h.readData, h.axes, h.queues, h.rings, h.arms, h.vmasters, h.regchans, h.sections, h.coils, h.obs, h.harm, h.comm, h.banks, h.sync, h.gasp, h.dbgHalt, h.testInstr, h.ledRon, h.ports, h.sf, h.fm, h.heat, h.kn.imp_right fun e => .inr ⟨hT.has (by decide), l, by rcases e with e | ⟨_, x, e⟩ <;> rw [e]⟩, h.otp, h.nv, h.pt, h.st, h.hp, h.tap⟩

theorem Mach.held_flash {T : Scope} {m : Mach} (h : m.Within T) (hT : T.allows 16) {c : List Host.Cell} (hc : Flash.wf c = true) :
    ({ m with flash := c } : Mach).Within T :=
  ⟨⟨h.stored.dram, hc, h.stored.regs, h.stored.otp, h.stored.rings⟩, h.dram, h.reg, h.force, h.clk, .inl (hT.has (by decide)), h.inp, h.snapIn, h.go, h.goPulse, h.readData, h.axes, h.queues, h.rings, h.arms, h.vmasters, h.regchans, h.sections, h.coils, h.obs, h.harm, h.comm, h.banks, h.sync, h.gasp, h.dbgHalt, h.testInstr, h.ledRon, h.ports, h.sf, h.fm, h.heat, h.kn, h.otp, h.nv, h.pt, h.st, h.hp, h.tap⟩

theorem Mach.held_otp {T : Scope} {m : Mach} (h : m.Within T) (hT : T.allows 4294967296) {x : Otp} (hx : T.otp.Keeps x) :
    ({ m with otp := x } : Mach).Within T :=
  ⟨⟨h.stored.dram, h.stored.flash, h.stored.regs, hx, h.stored.rings⟩, h.dram, h.reg, h.force, h.clk, h.flash, h.inp, h.snapIn, h.go, h.goPulse, h.readData, h.axes, h.queues, h.rings, h.arms, h.vmasters, h.regchans, h.sections, h.coils, h.obs, h.harm, h.comm, h.banks, h.sync, h.gasp, h.dbgHalt, h.testInstr, h.ledRon, h.ports, h.sf, h.fm, h.heat, h.kn, .inl (hT.has (by decide)), h.nv, h.pt, h.st, h.hp, h.tap⟩

theorem Mach.held_dram {T : Scope} {m : Mach} (h : m.Within T) {c : List Host.Cell} (hc : Memory.wf c = true)
    (hd : T.has 3 ∨ ∀ a, a < 0x04000000 ∨ 0x04100000 ≤ a → memGet dramDefault c a = memGet dramDefault m.dram a) :
    ({ m with dram := c } : Mach).Within T :=
  ⟨⟨hc, h.stored.flash, h.stored.regs, h.stored.otp, h.stored.rings⟩, hd.elim .inl fun e => h.dram.imp_right fun d a ha => (e a ha).trans (d a ha), h.reg, h.force, h.clk, h.flash, h.inp, h.snapIn, h.go, h.goPulse, h.readData, h.axes, h.queues, h.rings, h.arms, h.vmasters, h.regchans, h.sections, h.coils, h.obs, h.harm, h.comm, h.banks, h.sync, h.gasp, h.dbgHalt, h.testInstr, h.ledRon, h.ports, h.sf, h.fm, h.heat, h.kn, h.otp, h.nv, h.pt, h.st, h.hp, h.tap⟩

theorem Mach.dramWrite_held {T : Scope} {m : Mach} (h : m.Within T) (hT : T.allows 8) (a n v : Nat) : (m.dramWrite a n v).Within T :=
  Mach.held_dram h (Mach.dramWrite_wf a n v h.stored.dram) (.inl (hT.has (by decide)))

theorem Mach.flashWrite_held {T : Scope} {m : Mach} (h : m.Within T) (hT : T.allows 16) (a n v : Nat) : (m.flashWrite a n v).Within T :=
  Mach.held_flash h hT (Mach.flashWrite_wf a n v h.stored.flash)

theorem Mach.flashErase_held {T : Scope} {m : Mach} (h : m.Within T) (hT : T.allows 16) (a n : Nat) : (m.flashErase a n).Within T :=
  Mach.held_flash h hT (Mach.flashErase_wf a n h.stored.flash)

theorem Mach.flashProgram_held {T : Scope} (l : List Byte) (hT : T.allows 16) :
    ∀ {m : Mach}, m.Within T → ∀ a : Nat, (m.flashProgram a l).Within T := by
  induction l with
  | nil => intro m h a; exact h
  | cons b rest ih =>
    intro m h a
    rw [Mach.flashProgram]
    exact ih (Mach.held_flash h hT (memSet_wf a _ _ 0 (Nat.zero_le a) h.stored.flash)) (a + 1)

theorem RegKey.ne_of_reg {r r' : Reg} {i i' j j' : Nat} (h : r ≠ r') : (⟨r, i, j⟩ : RegKey) ≠ ⟨r', i', j'⟩ := by
  intro e
  exact h (congrArg RegKey.r e)

/-- A register file that differs in one register. -/
theorem Mach.held_regs {T : Scope} {m : Mach} (h : m.Within T) {r : Reg} (hT : T.allows r.bit) {l : List (RegKey × Word)}
    (hl : regsWf l = true) (hr : ∀ k : RegKey, k.r ≠ r → regGet l k = regGet m.regs k) (st : List Staged)
    (hs : ∀ k : RegKey, k.r ≠ r → st.find? (fun s => s.key == k) = m.staged.find? (fun s => s.key == k)) :
    ({ m with regs := l, staged := st } : Mach).Within T :=
  ⟨⟨h.stored.dram, h.stored.flash, hl, h.stored.otp, h.stored.rings⟩, h.dram, fun k => by
      by_cases hk : k.r = r
      · exact .inl (hk ▸ Scope.allows_bit hT)
      · exact (h.reg k).imp_right fun e => (hr k hk).trans e, h.force.imp_right fun hf x i j => by
      by_cases hk : x = r
      · exact .inl (hk ▸ Scope.allows_bit hT)
      · refine (hf x i j).imp_right fun e => Eq.trans ?_ e
        unfold Mach.force Mach.reg
        dsimp only
        rw [hs ⟨x, i, j⟩ hk, hr ⟨x, i, j⟩ hk], h.clk, h.flash, h.inp, h.snapIn, h.go, h.goPulse, h.readData, h.axes, h.queues, h.rings, h.arms, h.vmasters, h.regchans, h.sections, h.coils, h.obs, h.harm, h.comm, h.banks, h.sync, h.gasp, h.dbgHalt, h.testInstr, h.ledRon, h.ports, h.sf, h.fm, h.heat, h.kn, h.otp, h.nv, h.pt, h.st, h.hp, h.tap⟩

theorem Mach.setReg_held {T : Scope} {m : Mach} (h : m.Within T) (r : Reg) (hT : T.allows r.bit) (i j v : Nat) : (m.setReg r i j v).Within T :=
  Mach.held_regs h hT (l := regSet m.regs ⟨r, i, j⟩ (BitVec.ofNat 128 v)) (Mach.setReg_wf r i j v h.stored.regs)
    (fun k hk => by rw [regGet_regSet _ _ _ _ h.stored.regs, if_neg]; exact fun e => hk (congrArg RegKey.r e)) m.staged fun _ _ => rfl

theorem find_map_key (l : List Staged) (f : Staged → Staged) (hf : ∀ s, (f s).key = s.key) (k : RegKey) (hk : ∀ s, s.key = k → f s = s) :
    (l.map f).find? (fun s => s.key == k) = l.find? (fun s => s.key == k) := by
  induction l with
  | nil => rfl
  | cons s rest ih =>
    rw [List.map_cons, List.find?_cons, List.find?_cons, hf, ih]
    by_cases h : s.key = k
    · rw [hk s h]
    · have hb : (s.key == k) = false := by simp [h]
      rw [hb]

theorem Mach.wr_held {T : Scope} {m : Mach} (h : m.Within T) (f : Fld) (hT : T.allows f.reg.bit) (v i j : Nat) : (m.wr f v i j).Within T := by
  refine Mach.held_regs h hT (Mach.setReg_wf _ i j _ h.stored.regs) (fun k hk => ?_) _ (fun k hk => ?_)
  · show regGet (regSet _ _ _) k = _
    rw [regGet_regSet _ _ _ _ h.stored.regs, if_neg]
    exact fun e => hk (congrArg RegKey.r e)
  · refine find_map_key _ _ (fun s => ?_) k (fun s hs => ?_)
    · split <;> rfl
    · rw [if_neg]
      rw [hs]
      intro e
      exact hk (congrArg RegKey.r (eq_of_beq e))

theorem find_filter_key (l : List Staged) (k z : RegKey) (h : k ≠ z) :
    (l.filter fun s => s.key != z).find? (fun s => s.key == k) = l.find? (fun s => s.key == k) := by
  induction l with
  | nil => rfl
  | cons s rest ih =>
    rw [List.filter_cons]
    split
    · rw [List.find?_cons, List.find?_cons, ih]
    · rename_i hs
      have hk : (s.key == k) = false := by
        have hz : s.key = z := by simpa using hs
        rw [hz]
        simpa using fun e : z = k => h e.symm
      rw [List.find?_cons, hk, ih]

theorem Mach.store_held {T : Scope} {m : Mach} (h : m.Within T) (k : RegKey) (hT : T.allows k.r.bit) (w : Nat) (now : Bool) :
    (m.store k w now).Within T := by
  have hne : ∀ z : RegKey, z.r ≠ k.r → z ≠ k := fun z hz e => hz (congrArg RegKey.r e)
  have hr : ∀ v, ∀ z : RegKey, z.r ≠ k.r → regGet (regSet m.regs ⟨k.r, k.i, k.j⟩ v) z = regGet m.regs z := by
    intro v z hz
    rw [regGet_regSet _ _ _ _ h.stored.regs, if_neg]
    exact fun e => hz (congrArg RegKey.r e)
  unfold Mach.store
  extract_lets old new force m1 rest
  have hrest : ∀ z : RegKey, z.r ≠ k.r → rest.find? (fun s => s.key == z) = m.staged.find? (fun s => s.key == z) :=
    fun z hz => find_filter_key _ _ _ (hne z hz)
  have base : ∀ st : List Staged, (∀ z : RegKey, z.r ≠ k.r → st.find? (fun s => s.key == z) = m.staged.find? (fun s => s.key == z)) →
      ({ m1 with staged := st } : Mach).Within T := fun st hst =>
    Mach.held_regs h hT (l := regSet m.regs ⟨k.r, k.i, k.j⟩ (BitVec.ofNat 128 new)) (Mach.setReg_wf _ _ _ _ h.stored.regs) (hr _) st hst
  split
  · exact base _ hrest
  · split
    · exact base _ hrest
    · refine base _ fun z hz => ?_
      rw [List.find?_append, hrest z hz]
      have hk : ((k == z) : Bool) = false := by simpa using fun e : k = z => hne z hz e.symm
      rw [List.find?_cons]
      dsimp only
      rw [hk]
      simp

theorem Mach.foldl_held {T : Scope} {α : Type} {f : Mach → α → Mach} (hf : ∀ m x, m.Within T → (f m x).Within T) (l : List α) :
    ∀ {m : Mach}, m.Within T → (l.foldl f m).Within T := by
  induction l with
  | nil => intro m h; exact h
  | cons x rest ih => intro m h; exact ih (hf m x h)

theorem Mach.foldl_fst_held {T : Scope} {α β : Type} {f : Mach × β → α → Mach × β}
    (hf : ∀ m y x, m.Within T → (f (m, y) x).1.Within T) (l : List α) :
    ∀ {m : Mach} {y : β}, m.Within T → (l.foldl f (m, y)).1.Within T := by
  induction l with
  | nil => intro m y h; exact h
  | cons x rest ih => intro m y h; exact ih (m := (f (m, y) x).1) (y := (f (m, y) x).2) (hf m y x h)

theorem Mach.each_held {T : Scope} {m : Mach} (h : m.Within T) (n : Nat) (f : Mach → Nat → Mach)
    (hf : ∀ m k, m.Within T → (f m k).Within T) : (m.each n f).Within T := Mach.foldl_held hf _ h

theorem Mach.forAll_held {T : Scope} {m : Mach} (h : m.Within T) (l : List Nat) (f : Mach → Nat → Mach)
    (hf : ∀ m k, m.Within T → (f m k).Within T) : (m.forAll l f).Within T := Mach.foldl_held hf l h

theorem Mach.when_held {T : Scope} {m : Mach} (h : m.Within T) (c : Bool) (f : Mach → Mach)
    (hf : ∀ m, m.Within T → (f m).Within T) : (m.when c f).Within T := by
  unfold Mach.when
  split
  · exact hf m h
  · exact h

theorem Mach.ite_held {T : Scope} {a b : Mach} (c : Prop) [Decidable c] (ha : a.Within T) (hb : b.Within T) :
    (if c then a else b).Within T := by
  split
  · exact ha
  · exact hb

theorem Mach.of_fst {T : Scope} {β : Type} {p : Mach × β} {m : Mach} {y : β} (e : p = (m, y)) (h : p.1.Within T) : m.Within T := by
  rw [e] at h
  exact h

theorem Mach.of_snd {T : Scope} {β : Type} {p : β × Mach} {m : Mach} {y : β} (e : p = (y, m)) (h : p.2.Within T) : m.Within T := by
  rw [e] at h
  exact h

theorem Mach.of_fourth {T : Scope} {α β γ : Type} {p : α × β × γ × Mach} {m : Mach} {a : α} {b : β} {c : γ} (e : p = (a, b, c, m))
    (h : p.2.2.2.Within T) : m.Within T := by
  rw [e] at h
  exact h


theorem Reg.all_bits' (r : Reg) : (0x3fffffffffffffffffffffffffffffffffffffffffffffffffffffffffffffffffffffffffff0000001effffffdd : Nat).testBit (64 + r.ctorIdx) = true := by
  cases r <;> decide

theorem Scope.allows_any {T : Scope} (h : T.allows 0x3fffffffffffffffffffffffffffffffffffffffffffffffffffffffffffffffffffffffffff0000000000000000) (r : Reg) : T.allows r.bit :=
  h.sub (by cases r <;> decide)

theorem Mach.reset_sound : Mach.reset.Sound Otp.reset :=
  ⟨⟨rfl, rfl, rfl, Otp.Keeps.refl _, ⟨⟨by decide, by decide, by decide, by decide⟩, ⟨by decide, by decide, by decide, by decide⟩⟩⟩⟩

/-- A ring that takes a record, losing its oldest unread one where it is full, keeps its size. -/
theorem ringFits_push {α : Type} {cap : Nat} {l : List α} {wr rd : Nat} (x : α) (h : ringFits cap l wr rd) (hc : 0 < cap)
    (hc' : cap < 2 ^ 31) :
    ringFits cap ((x :: l).take cap) ((wr + 1) % 2 ^ 32)
      (if (wr + 2 ^ 32 - rd) % 2 ^ 32 = cap then (rd + 1) % 2 ^ 32 else rd) := by
  obtain ⟨h1, h2, h3, h4⟩ := h
  have hl : ((x :: l).take cap).length = min cap (l.length + 1) := by simp
  refine ⟨by omega, Nat.mod_lt _ (by omega), ?_, ?_⟩
  · split
    · exact Nat.mod_lt _ (by omega)
    · exact h3
  · rw [hl]
    split <;> omega

/-- Taking the oldest unread record keeps a ring's size. -/
theorem ringFits_pop {α : Type} {cap : Nat} {l : List α} {wr rd : Nat} (h : ringFits cap l wr rd) (hn : wr ≠ rd) :
    ringFits cap l wr ((rd + 1) % 2 ^ 32) := by
  obtain ⟨h1, h2, h3, h4⟩ := h
  refine ⟨h1, h2, Nat.mod_lt _ (by omega), ?_⟩
  omega

/-- Setting the read count to any of the records held keeps a ring's size. -/
theorem ringFits_back {α : Type} {cap : Nat} {l : List α} {wr rd n : Nat} (h : ringFits cap l wr rd) (hn : n ≤ l.length)
    (hc : cap < 2 ^ 31) : ringFits cap l wr ((wr + 2 ^ 32 - n) % 2 ^ 32) := by
  obtain ⟨h1, h2, h3, h4⟩ := h
  refine ⟨h1, h2, Nat.mod_lt _ (by omega), ?_⟩
  omega

/-- The read count that a written value gives lies within the records held. -/
theorem ringFits_taken {α : Type} {cap : Nat} {l : List α} {wr rd : Nat} (v : Nat) (h : ringFits cap l wr rd)
    (hc : cap < 2 ^ 31) : ringFits cap l wr (takenCount wr l.length v) := by
  obtain ⟨h1, h2, h3, h4⟩ := h
  unfold takenCount
  dsimp only
  split
  · exact ⟨h1, h2, Nat.mod_lt _ (by omega), by assumption⟩
  · split
    · exact ⟨h1, h2, h2, by omega⟩
    · exact ⟨h1, h2, Nat.mod_lt _ (by omega), by omega⟩

/-- A ring with another read count. -/
theorem Rings.Fit.withEvtRd {r : Rings} (h : r.Fit) (x : Nat) (b : Bool) (hx : ringFits 4096 r.evt r.evtWr x) :
    Rings.Fit { r with evtRd := x, evtLossDue := b } := ⟨h.1, hx⟩

/-! ### The key store -/

theorem bitOf_eq_testBit (x k : Nat) : bitOf x k = x.testBit k := by
  rw [bitOf, Nat.testBit_eq_decide_div_mod_eq, Bool.beq_eq_decide_eq]

theorem bitOf_or (a b k : Nat) : bitOf (a ||| b) k = (bitOf a k || bitOf b k) := by
  rw [bitOf_eq_testBit, bitOf_eq_testBit, bitOf_eq_testBit, Nat.testBit_or]

/-- A slot that holds no hash takes one. -/
theorem Otp.Keeps.program {o x : Otp} (h : o.Keeps x) (k w : Nat) (hn : vget none x.hashes k = none) :
    o.Keeps { x with hashes := vmod x.hashes k fun _ => some w } := by
  refine ⟨fun j v hj => ?_, h.revoked, h.reqSig⟩
  have hx := h.hashes j v hj
  have hjk : j ≠ k := by
    intro e
    rw [e, hn] at hx
    cases hx
  dsimp only
  rw [vget_vmod_other _ _ _ hjk]
  exact hx

theorem Otp.Keeps.revoke {o x : Otp} (h : o.Keeps x) (r : Nat) : o.Keeps { x with revoked := x.revoked ||| r } := by
  refine ⟨h.hashes, fun k hk => ?_, h.reqSig⟩
  dsimp only
  rw [bitOf_or, h.revoked k hk]
  rfl

theorem Otp.Keeps.require {o x : Otp} (h : o.Keeps x) : o.Keeps { x with reqSig := true } := ⟨h.hashes, h.revoked, fun _ => rfl⟩

theorem Mach.setBit_held {T : Scope} {m : Mach} (h : m.Within T) (f : Fld) (i : Nat) (j : Nat) (hT : T.allows f.reg.bit) : (Mach.setBit m f i j).Within T := by
  unfold Mach.setBit
  try dsimp only
  repeat' (first | exact hT | intro _ | with_reducible assumption | with_reducible apply Mach.wr_held)

theorem Mach.clrFld_held {T : Scope} {m : Mach} (h : m.Within T) (f : Fld) (i : Nat) (j : Nat) (hT : T.allows f.reg.bit) : (Mach.clrFld m f i j).Within T := by
  unfold Mach.clrFld
  try dsimp only
  repeat' (first | exact hT | intro _ | with_reducible assumption | with_reducible apply Mach.wr_held)

theorem Mach.wrS_held {T : Scope} {m : Mach} (h : m.Within T) (f : Fld) (v : Int) (i : Nat) (j : Nat) (hT : T.allows f.reg.bit) : (Mach.wrS m f v i j).Within T := by
  unfold Mach.wrS
  try dsimp only
  repeat' (first | exact hT | intro _ | with_reducible assumption | with_reducible apply Mach.wr_held)

theorem Mach.bump_held {T : Scope} {m : Mach} (h : m.Within T) (f : Fld) (i : Nat) (j : Nat) (hT : T.allows f.reg.bit) : (Mach.bump m f i j).Within T := by
  unfold Mach.bump
  try dsimp only
  repeat' (first | exact hT | intro _ | with_reducible assumption | with_reducible apply Mach.wr_held)

theorem Mach.wrap_held {T : Scope} {m : Mach} (h : m.Within T) (f : Fld) (i : Nat) (j : Nat) (hT : T.allows f.reg.bit) : (Mach.wrap m f i j).Within T := by
  unfold Mach.wrap
  try dsimp only
  repeat' (first | exact hT | intro _ | with_reducible assumption | with_reducible apply Mach.wr_held)

theorem Mach.modAx_held {T : Scope} {m : Mach} (h : m.Within T) (hT : T.allows 0x400) (n : Nat) (f : Axis → Axis) : (Mach.modAx m n f).Within T := by
  unfold Mach.modAx
  try dsimp only
  repeat' (first | exact hT.sub (by decide) | intro _ | with_reducible assumption | with_reducible apply Mach.reset_held | with_reducible apply Mach.modQ_held | with_reducible apply Mach.modArm_held | with_reducible apply Mach.modRegch_held | (apply Mach.held_upd; focus (constructor; (dsimp only <;> exact rfl); all_goals (first | with_reducible exact .inl rfl | with_reducible exact rfl | exact .inr (hT.has (by decide))))))

theorem Mach.modQ_held {T : Scope} {m : Mach} (h : m.Within T) (hT : T.allows 0x800) (q : Nat) (f : Queue → Queue) : (Mach.modQ m q f).Within T := by
  unfold Mach.modQ
  try dsimp only
  repeat' (first | exact hT.sub (by decide) | intro _ | with_reducible assumption | with_reducible apply Mach.reset_held | with_reducible apply Mach.modArm_held | with_reducible apply Mach.modRegch_held | (apply Mach.held_upd; focus (constructor; (dsimp only <;> exact rfl); all_goals (first | with_reducible exact .inl rfl | with_reducible exact rfl | exact .inr (hT.has (by decide))))))

theorem Mach.modArm_held {T : Scope} {m : Mach} (h : m.Within T) (hT : T.allows 0x2000) (g : Nat) (f : Arm → Arm) : (Mach.modArm m g f).Within T := by
  unfold Mach.modArm
  try dsimp only
  repeat' (first | exact hT.sub (by decide) | intro _ | with_reducible assumption | with_reducible apply Mach.modRegch_held | (apply Mach.held_upd; focus (constructor; (dsimp only <;> exact rfl); all_goals (first | with_reducible exact .inl rfl | with_reducible exact rfl | exact .inr (hT.has (by decide))))))

theorem Mach.modRegch_held {T : Scope} {m : Mach} (h : m.Within T) (hT : T.allows 0x8000) (r : Nat) (f : RegChan → RegChan) : (Mach.modRegch m r f).Within T := by
  unfold Mach.modRegch
  try dsimp only
  repeat' (first | exact hT.sub (by decide) | intro _ | with_reducible assumption | (apply Mach.held_upd; focus (constructor; (dsimp only <;> exact rfl); all_goals (first | with_reducible exact .inl rfl | with_reducible exact rfl | exact .inr (hT.has (by decide))))))

theorem Mach.modCoil_held {T : Scope} {m : Mach} (h : m.Within T) (hT : T.allows 0x20000) (k : Nat) (f : Coil → Coil) : (Mach.modCoil m k f).Within T := by
  unfold Mach.modCoil
  try dsimp only
  repeat' (first | exact hT.sub (by decide) | intro _ | with_reducible assumption | with_reducible apply Mach.reset_held | with_reducible apply Mach.modOb_held | with_reducible apply Mach.modBank_held | (apply Mach.held_upd; focus (constructor; (dsimp only <;> exact rfl); all_goals (first | with_reducible exact .inl rfl | with_reducible exact rfl | exact .inr (hT.has (by decide))))))

theorem Mach.modOb_held {T : Scope} {m : Mach} (h : m.Within T) (hT : T.allows 0x40000) (n : Nat) (f : Obs → Obs) : (Mach.modOb m n f).Within T := by
  unfold Mach.modOb
  try dsimp only
  repeat' (first | exact hT.sub (by decide) | intro _ | with_reducible assumption | with_reducible apply Mach.reset_held | with_reducible apply Mach.modBank_held | (apply Mach.held_upd; focus (constructor; (dsimp only <;> exact rfl); all_goals (first | with_reducible exact .inl rfl | with_reducible exact rfl | exact .inr (hT.has (by decide))))))

theorem Mach.modBank_held {T : Scope} {m : Mach} (h : m.Within T) (hT : T.allows 0x200000) (b : Nat) (f : Bank → Bank) : (Mach.modBank m b f).Within T := by
  unfold Mach.modBank
  try dsimp only
  repeat' (first | exact hT.sub (by decide) | intro _ | with_reducible assumption | (apply Mach.held_upd; focus (constructor; (dsimp only <;> exact rfl); all_goals (first | with_reducible exact .inl rfl | with_reducible exact rfl | exact .inr (hT.has (by decide))))))

theorem Mach.modPort_held {T : Scope} {m : Mach} (h : m.Within T) (hT : T.allows 0x8000000) (p : Nat) (f : Port → Port) : (Mach.modPort m p f).Within T := by
  unfold Mach.modPort
  try dsimp only
  repeat' (first | exact hT.sub (by decide) | intro _ | with_reducible assumption | (apply Mach.held_upd; focus (constructor; (dsimp only <;> exact rfl); all_goals (first | with_reducible exact .inl rfl | with_reducible exact rfl | exact .inr (hT.has (by decide))))))

theorem Mach.modHax_held {T : Scope} {m : Mach} (h : m.Within T) (hT : T.allows 0x40000000) (n : Nat) (f : HeatAx → HeatAx) : (Mach.modHax m n f).Within T := by
  unfold Mach.modHax
  try dsimp only
  repeat' (first | exact hT.sub (by decide) | intro _ | with_reducible assumption | (apply Mach.held_upd; focus (constructor; (dsimp only <;> exact rfl); all_goals (first | with_reducible exact .inl rfl | with_reducible exact rfl | exact .inr (hT.has (by decide))))))

theorem Mach.begin__held {T : Scope} {m : Mach} (h : m.Within T) (hT : T.allows 0x1) : (Mach.begin_ m).Within T := by
  unfold Mach.begin_
  try dsimp only
  repeat' (first | exact hT.sub (by decide) | intro _ | with_reducible assumption | (apply Mach.held_upd; focus (constructor; (dsimp only <;> exact rfl); all_goals (first | with_reducible exact .inl rfl | with_reducible exact rfl | exact .inr (hT.has (by decide))))))

theorem Mach.hoursAdd_held {T : Scope} {m : Mach} (h : m.Within T) (hT : T.allows 0x1) (k : Nat) : (Mach.hoursAdd m k).Within T := by
  unfold Mach.hoursAdd
  try dsimp only
  repeat' (first | exact hT.sub (by decide) | intro _ | with_reducible assumption | (apply Mach.held_upd; focus (constructor; (dsimp only <;> exact rfl); all_goals (first | with_reducible exact .inl rfl | with_reducible exact rfl | exact .inr (hT.has (by decide))))))

theorem Rings.pushEvt_fit {r : Rings} (h : r.Fit) (w : Word) : (r.pushEvt w).Fit := by
  refine ⟨h.1, ?_⟩
  simpa only [Rings.pushEvt, Rings.evtFull, decide_eq_true_eq] using ringFits_push w h.2 (by decide) (by decide)

/-- Bytes of the mirror of the event ring are written. -/
theorem Mach.dramWrite_mirror {T : Scope} {m : Mach} (h : m.Within T) {a n : Nat} (v : Nat) (h1 : 0x04000000 ≤ a) (h2 : a + n ≤ 0x04100000) :
    (m.dramWrite a n v).Within T := by
  have hw : Memory.wf (memWrite dramDefault m.dram a n v) = true := memWrite_wf n _ a v h.stored.dram
  have ho : ∀ x, x < 0x04000000 ∨ 0x04100000 ≤ x →
      memGet dramDefault (memWrite dramDefault m.dram a n v) x = memGet dramDefault m.dram x :=
    fun x hx => memGet_memWrite_other n x m.dram a v h.stored.dram (by omega)
  unfold Mach.dramWrite
  exact Mach.held_dram h hw (.inr ho)

/-- An event record changes the rings, Q_IRQ and the mirror of the event ring. -/
theorem Mach.enterEvt_held {T : Scope} {m : Mach} (h : m.Within T) (hT : T.allows 0x800000000000000000000000000000000001000) (code obj data ts : Nat) : (m.enterEvt code obj data ts).Within T := by
  unfold Mach.enterEvt
  have hb : T.allows Reg.Q_IRQ.bit := hT.sub (by decide)
  have h1 : ({ m with rings := m.rings.pushEvt (eventWord code obj ts data) } : Mach).Within T :=
    Mach.held_rings h (hT.sub (by decide)) (Rings.pushEvt_fit h.stored.rings _)
  have hl := Nat.mod_lt m.rings.evtMwr (show 0 < 65536 by decide)
  refine Mach.when_held (Mach.when_held (Mach.dramWrite_mirror h1 _ (by omega) (by omega)) _ _ ?_) _ _ ?_
  · intro _ hm
    exact Mach.setBit_held hm _ _ _ hb
  · intro _ hm
    exact Mach.setBit_held hm _ _ _ hb

theorem Mach.postAt_held {T : Scope} {m : Mach} (h : m.Within T) (hT : T.allows 0x800000000000000000000000000000000001000) (code obj data ts : Nat) : (m.postAt code obj data ts).Within T := by
  unfold Mach.postAt
  split
  · exact Mach.held_raised h (hT.sub (by decide)) _
  · exact Mach.enterEvt_held h (hT.sub (by decide)) _ _ _ _

theorem Mach.post_held {T : Scope} {m : Mach} (h : m.Within T) (hT : T.allows 0x800000000000000000000000000000000001000) (code obj data : Nat) : (Mach.post m code obj data).Within T := by
  unfold Mach.post
  try dsimp only
  repeat' (first | exact hT.sub (by decide) | intro _ | with_reducible assumption | with_reducible apply Mach.postAt_held)

theorem Rings.pushCpl_fit {r : Rings} (h : r.Fit) (w : Word) (q : Nat) (full : Bool)
    (hf : full = true ↔ (r.cplWr + 2 ^ 32 - r.cplRd) % 2 ^ 32 = 1024) : (r.pushCpl w q full).Fit := by
  have hp := ringFits_push (w, q) h.1 (by decide) (by decide)
  refine ⟨?_, h.2⟩
  by_cases he : (r.cplWr + 2 ^ 32 - r.cplRd) % 2 ^ 32 = 1024
  · rw [if_pos he] at hp
    simpa [Rings.pushCpl, hf.mpr he] using hp
  · have hn : full = false := by
      cases full
      · rfl
      · exact absurd (hf.mp rfl) he
    rw [if_neg he] at hp
    simpa [Rings.pushCpl, hn] using hp

theorem Mach.postCpl_held {T : Scope} {m : Mach} (h : m.Within T) (hT : T.allows 0x800000000000000000000000000000000001000) (w : Word) (q : Nat) : (m.postCpl w q).Within T := by
  unfold Mach.postCpl
  refine Mach.when_held (Mach.when_held ?_ _ _ ?_) _ _ ?_
  · exact Mach.held_rings h (hT.sub (by decide))
      (Rings.pushCpl_fit h.stored.rings _ _ _ (by unfold Mach.cplUnread; exact decide_eq_true_iff))
  · intro _ hm
    exact Mach.post_held hm (hT.sub (by decide)) _ _ _
  · intro _ hm
    exact Mach.setBit_held hm _ _ _ (hT.sub (by decide))

end Sys2Proof.Machine
end

