-- ==== Sys2Proof/Laws/ScopeAxis.lean ====
section
/-!
SUPPORT. What the operations of the engines may change. A lemma `f_held` says that `f` keeps the stored data sound and changes nothing outside its mask.
-/

namespace Sys2Proof.Machine

theorem Mach.cutCoil_held {T : Scope} {m : Mach} (h : m.Within T) (hT : T.allows 0x20000) (K : Nat) : (Mach.cutCoil m K).Within T := by
  unfold Mach.cutCoil
  try dsimp only
  repeat' (first | exact hT.sub (by decide) | intro _ | with_reducible assumption | with_reducible apply Mach.modCoil_held | with_reducible apply Mach.take_held | split | refine Mach.of_fst (by with_reducible assumption) ?_ | refine Mach.of_snd (by with_reducible assumption) ?_ | (apply Mach.held_upd; focus (constructor; (dsimp only <;> exact rfl); all_goals (first | with_reducible exact .inl rfl | with_reducible exact rfl | exact .inr (hT.has (by decide))))))

theorem Mach.cutBank_held {T : Scope} {m : Mach} (h : m.Within T) (hT : T.allows 0x20000) (b : Nat) : (Mach.cutBank m b).Within T := by
  unfold Mach.cutBank
  try dsimp only
  repeat' (first | exact hT.sub (by decide) | intro _ | with_reducible assumption | with_reducible apply Mach.cutCoil_held | with_reducible apply Mach.foldl_held | with_reducible apply Mach.foldl_fst_held)

theorem Mach.cutAxis_held {T : Scope} {m : Mach} (h : m.Within T) (hT : T.allows 0x20000) (n : Nat) : (Mach.cutAxis m n).Within T := by
  unfold Mach.cutAxis
  try dsimp only
  repeat' (first | exact hT.sub (by decide) | intro _ | with_reducible assumption | with_reducible apply Mach.cutCoil_held)

theorem Mach.retire_held {T : Scope} {m : Mach} (h : m.Within T) (hT : T.allows 0x800) (c : MotionCmd) (st at_ : Nat) : (Mach.retire m c st at_).Within T := by
  unfold Mach.retire
  try dsimp only
  repeat' (first | exact hT.sub (by decide) | intro _ | with_reducible assumption | with_reducible apply Mach.modQ_held | with_reducible apply Mach.ite_held | split | refine Mach.of_fst (by with_reducible assumption) ?_ | refine Mach.of_snd (by with_reducible assumption) ?_ | (apply Mach.held_upd; focus (constructor; (dsimp only <;> exact rfl); all_goals (first | with_reducible exact .inl rfl | with_reducible exact rfl | exact .inr (hT.has (by decide))))))

theorem Mach.retireAll_held {T : Scope} {m : Mach} (h : m.Within T) (hT : T.allows 0x800) (cs : List MotionCmd) (st at_ : Nat) : (Mach.retireAll m cs st at_).Within T := by
  unfold Mach.retireAll
  try dsimp only
  repeat' (first | exact hT.sub (by decide) | intro _ | with_reducible assumption | with_reducible apply Mach.retire_held | with_reducible apply Mach.foldl_held | with_reducible apply Mach.foldl_fst_held)

theorem Mach.dropMotion_held {T : Scope} {m : Mach} (h : m.Within T) (hT : T.allows 0xc00) (n st at_ : Nat) : (Mach.dropMotion m n st at_).Within T := by
  unfold Mach.dropMotion
  try dsimp only
  repeat' (first | exact hT.sub (by decide) | intro _ | with_reducible assumption | with_reducible apply Mach.retireAll_held | with_reducible apply Mach.modAx_held | (apply Mach.held_upd; focus (constructor; (dsimp only <;> exact rfl); all_goals (first | with_reducible exact .inl rfl | with_reducible exact rfl | exact .inr (hT.has (by decide))))))

theorem Mach.uncertain_held {T : Scope} {m : Mach} (h : m.Within T) (hT : T.allows 0x400) (n : Nat) : (Mach.uncertain m n).Within T := by
  unfold Mach.uncertain
  try dsimp only
  repeat' (first | exact hT.sub (by decide) | intro _ | with_reducible assumption | with_reducible apply Mach.modAx_held | (apply Mach.held_upd; focus (constructor; (dsimp only <;> exact rfl); all_goals (first | with_reducible exact .inl rfl | with_reducible exact rfl | exact .inr (hT.has (by decide))))))

theorem Mach.followEnd_held {T : Scope} {m : Mach} (h : m.Within T) (hT : T.allows 0x4000000000000000000000000000800000000000000000000000000000000009c00) (n at_ : Nat) : (Mach.followEnd m n at_).Within T := by
  unfold Mach.followEnd
  try dsimp only
  repeat' (first | exact hT.sub (by decide) | intro _ | with_reducible assumption | with_reducible apply Mach.retire_held | with_reducible apply Mach.clrFld_held | with_reducible apply Mach.post_held | with_reducible apply Mach.modAx_held | with_reducible apply Mach.each_held | with_reducible apply Mach.modRegch_held | with_reducible apply Mach.ite_held | split | refine Mach.of_fst (by with_reducible assumption) ?_ | refine Mach.of_snd (by with_reducible assumption) ?_ | (apply Mach.held_upd; focus (constructor; (dsimp only <;> exact rfl); all_goals (first | with_reducible exact .inl rfl | with_reducible exact rfl | exact .inr (hT.has (by decide))))))

theorem Mach.leaveFollow_held {T : Scope} {m : Mach} (h : m.Within T) (hT : T.allows 0x4000000000000000000000000000800000000000000000000000000000000009c00) (n at_ : Nat) : (Mach.leaveFollow m n at_).Within T := by
  unfold Mach.leaveFollow
  try dsimp only
  repeat' (first | exact hT.sub (by decide) | intro _ | with_reducible assumption | with_reducible apply Mach.followEnd_held | with_reducible apply Mach.modAx_held | (apply Mach.held_upd; focus (constructor; (dsimp only <;> exact rfl); all_goals (first | with_reducible exact .inl rfl | with_reducible exact rfl | exact .inr (hT.has (by decide))))))

theorem Mach.homeFail_held {T : Scope} {m : Mach} (h : m.Within T) (hT : T.allows 0x800000010000000000000000000000000001000) (n code : Nat) : (Mach.homeFail m n code).Within T := by
  unfold Mach.homeFail
  try dsimp only
  repeat' (first | exact hT.sub (by decide) | intro _ | with_reducible assumption | with_reducible apply Mach.setBit_held | with_reducible apply Mach.wr_held | with_reducible apply Mach.post_held)

theorem Mach.homeCut_held {T : Scope} {m : Mach} (h : m.Within T) (hT : T.allows 0x800000010000000000000000000000000001400) (n : Nat) : (Mach.homeCut m n).Within T := by
  unfold Mach.homeCut
  try dsimp only
  repeat' (first | exact hT.sub (by decide) | intro _ | with_reducible assumption | with_reducible apply Mach.homeFail_held | with_reducible apply Mach.modAx_held | with_reducible apply Mach.ite_held | split | refine Mach.of_fst (by with_reducible assumption) ?_ | refine Mach.of_snd (by with_reducible assumption) ?_ | (apply Mach.held_upd; focus (constructor; (dsimp only <;> exact rfl); all_goals (first | with_reducible exact .inl rfl | with_reducible exact rfl | exact .inr (hT.has (by decide))))))

theorem Mach.postCause_held {T : Scope} {m : Mach} (h : m.Within T) (hT : T.allows 0x800000000000000000000000000000000001000) (n cause : Nat) (estop : Bool) : (Mach.postCause m n cause estop).Within T := by
  unfold Mach.postCause
  try dsimp only
  repeat' (first | exact hT.sub (by decide) | intro _ | with_reducible assumption | with_reducible apply Mach.post_held | with_reducible apply Mach.estop_held)

theorem Mach.trimStop_held {T : Scope} {m : Mach} (h : m.Within T) (hT : T.allows 0x42000000000000000000000000000000000000000000400) (n : Nat) : (Mach.trimStop m n).Within T := by
  unfold Mach.trimStop
  try dsimp only
  repeat' (first | exact hT.sub (by decide) | intro _ | with_reducible assumption | with_reducible apply Mach.modAx_held | with_reducible apply Mach.clrFld_held | with_reducible apply Mach.wrS_held | (apply Mach.held_upd; focus (constructor; (dsimp only <;> exact rfl); all_goals (first | with_reducible exact .inl rfl | with_reducible exact rfl | exact .inr (hT.has (by decide))))))

theorem Mach.endEnable_held {T : Scope} {m : Mach} (h : m.Within T) (hT : T.allows 0xc00) (n st at_ : Nat) : (Mach.endEnable m n st at_).Within T := by
  unfold Mach.endEnable
  try dsimp only
  repeat' (first | exact hT.sub (by decide) | intro _ | with_reducible assumption | with_reducible apply Mach.retireAll_held | with_reducible apply Mach.modAx_held | (apply Mach.held_upd; focus (constructor; (dsimp only <;> exact rfl); all_goals (first | with_reducible exact .inl rfl | with_reducible exact rfl | exact .inr (hT.has (by decide))))))

theorem Mach.hardStopAt_held {T : Scope} {m : Mach} (h : m.Within T) (hT : T.allows 0x400) (n at_ st : Nat) : (Mach.hardStopAt m n at_ st).Within T := by
  unfold Mach.hardStopAt
  try dsimp only
  repeat' (first | exact hT.sub (by decide) | intro _ | with_reducible assumption | with_reducible apply Mach.modAx_held | split | refine Mach.of_fst (by with_reducible assumption) ?_ | refine Mach.of_snd (by with_reducible assumption) ?_ | (apply Mach.held_upd; focus (constructor; (dsimp only <;> exact rfl); all_goals (first | with_reducible exact .inl rfl | with_reducible exact rfl | exact .inr (hT.has (by decide))))))

theorem Mach.estopAxis_held {T : Scope} {m : Mach} (h : m.Within T) (hT : T.allows 0x4000800000000000000000000000800000010001000000000000000000000009c00) (n cause : Nat) (ownPlan : Bool) : (Mach.estopAxis m n cause ownPlan).Within T := by
  unfold Mach.estopAxis
  try dsimp only
  repeat' (first | exact hT.sub (by decide) | intro _ | with_reducible assumption | with_reducible apply Mach.homeCut_held | with_reducible apply Mach.dropMotion_held | with_reducible apply Mach.followEnd_held | with_reducible apply Mach.retireAll_held | with_reducible apply Mach.modAx_held | with_reducible apply Mach.estop_held | with_reducible apply Mach.wr_held | with_reducible apply Mach.setBit_held | with_reducible apply Mach.clrFld_held | with_reducible apply Mach.post_held | with_reducible apply Mach.ite_held | split | (apply Mach.held_upd; focus (constructor; (dsimp only <;> exact rfl); all_goals (first | with_reducible exact .inl rfl | with_reducible exact rfl | exact .inr (hT.has (by decide))))))

theorem Mach.groupEstop_held {T : Scope} {m : Mach} (h : m.Within T) (hT : T.allows 0x400080000000000000000000000080000001000100000000000000000000000bc00) (g n cause : Nat) (skip : Option Nat) (own : List Nat) : (Mach.groupEstop m g n cause skip own).Within T := by
  unfold Mach.groupEstop
  try dsimp only
  repeat' (first | exact hT.sub (by decide) | intro _ | with_reducible assumption | with_reducible apply Mach.retire_held | with_reducible apply Mach.retireAll_held | with_reducible apply Mach.modArm_held | with_reducible apply Mach.forAll_held | with_reducible apply Mach.postCause_held | with_reducible apply Mach.estopAxis_held | with_reducible apply Mach.post_held | with_reducible apply Mach.ite_held | split | refine Mach.of_fst (by with_reducible assumption) ?_ | refine Mach.of_snd (by with_reducible assumption) ?_ | (apply Mach.held_upd; focus (constructor; (dsimp only <;> exact rfl); all_goals (first | with_reducible exact .inl rfl | with_reducible exact rfl | exact .inr (hT.has (by decide))))))

theorem Mach.estopWith_held {T : Scope} {m : Mach} (h : m.Within T) (hT : T.allows 0x400080000000000000000000000080000001000100000000000000000000000bc00) (n cause : Nat) (own : List Nat) : (Mach.estopWith m n cause own).Within T := by
  unfold Mach.estopWith
  try dsimp only
  repeat' (first | exact hT.sub (by decide) | intro _ | with_reducible assumption | with_reducible apply Mach.groupEstop_held | with_reducible apply Mach.estopAxis_held | with_reducible apply Mach.postCause_held | with_reducible apply Mach.ite_held | split | refine Mach.of_fst (by with_reducible assumption) ?_ | refine Mach.of_snd (by with_reducible assumption) ?_)

theorem Mach.estop_held {T : Scope} {m : Mach} (h : m.Within T) (hT : T.allows 0x400080000000000000000000000080000001000100000000000000000000000bc00) (n cause : Nat) : (Mach.estop m n cause).Within T := by
  unfold Mach.estop
  try dsimp only
  repeat' (first | exact hT.sub (by decide) | intro _ | with_reducible assumption | with_reducible apply Mach.estopWith_held)

theorem Mach.estopAll_held {T : Scope} {m : Mach} (h : m.Within T) (hT : T.allows 0x400080000000000000000000000080000001000100000000000000000000000bc00) (ns : List Nat) (cause : Nat) : (Mach.estopAll m ns cause).Within T := by
  unfold Mach.estopAll
  try dsimp only
  repeat' (first | exact hT.sub (by decide) | intro _ | with_reducible assumption | with_reducible apply Mach.forAll_held | with_reducible apply Mach.estop_held | with_reducible apply Mach.estopWith_held | with_reducible apply Mach.ite_held | split)

theorem Mach.breakPath_held {T : Scope} {m : Mach} (h : m.Within T) (hT : T.allows 0x400080000000000000000000040080000001000100000000000000000000000bc00) (n code : Nat) : (Mach.breakPath m n code).Within T := by
  unfold Mach.breakPath
  try dsimp only
  repeat' (first | exact hT.sub (by decide) | intro _ | with_reducible assumption | with_reducible apply Mach.modAx_held | with_reducible apply Mach.setBit_held | with_reducible apply Mach.post_held | with_reducible apply Mach.groupEstop_held | with_reducible apply Mach.modArm_held | split | refine Mach.of_fst (by with_reducible assumption) ?_ | refine Mach.of_snd (by with_reducible assumption) ?_ | (apply Mach.held_upd; focus (constructor; (dsimp only <;> exact rfl); all_goals (first | with_reducible exact .inl rfl | with_reducible exact rfl | exact .inr (hT.has (by decide))))))

theorem Mach.masterLost_held {T : Scope} {m : Mach} (h : m.Within T) (hT : T.allows 0x400080000000000000000200000080000001000100000000000000000000000bc00) (n : Nat) : (Mach.masterLost m n).Within T := by
  unfold Mach.masterLost
  try dsimp only
  repeat' (first | exact hT.sub (by decide) | intro _ | with_reducible assumption | with_reducible apply Mach.each_held | with_reducible apply Mach.setBit_held | with_reducible apply Mach.post_held | with_reducible apply Mach.estop_held | with_reducible apply Mach.ite_held | split | refine Mach.of_fst (by with_reducible assumption) ?_ | refine Mach.of_snd (by with_reducible assumption) ?_)

theorem Mach.homeFaulted_held {T : Scope} {m : Mach} (h : m.Within T) (hT : T.allows 0x80000000) (n : Nat) : (Mach.homeFaulted m n).Within T := by
  unfold Mach.homeFaulted
  try dsimp only
  repeat' (first | exact hT.sub (by decide) | intro _ | with_reducible assumption | with_reducible apply Mach.homeFail_held | with_reducible apply Mach.ite_held | split | (apply Mach.held_upd; focus (constructor; (dsimp only <;> exact rfl); all_goals (first | with_reducible exact .inl rfl | with_reducible exact rfl | exact .inr (hT.has (by decide))))))

theorem Mach.keptEnd_held {T : Scope} {m : Mach} (h : m.Within T) (hT : T.allows 0x800000010000000000000000000000000001c00) (n at_ : Nat) : (Mach.keptEnd m n at_).Within T := by
  unfold Mach.keptEnd
  try dsimp only
  repeat' (first | exact hT.sub (by decide) | intro _ | with_reducible assumption | with_reducible apply Mach.retireAll_held | with_reducible apply Mach.modAx_held | with_reducible apply Mach.homeFail_held | with_reducible apply Mach.ite_held | split | refine Mach.of_fst (by with_reducible assumption) ?_ | refine Mach.of_snd (by with_reducible assumption) ?_ | (apply Mach.held_upd; focus (constructor; (dsimp only <;> exact rfl); all_goals (first | with_reducible exact .inl rfl | with_reducible exact rfl | exact .inr (hT.has (by decide))))))

theorem Mach.enterFault_held {T : Scope} {m : Mach} (h : m.Within T) (hT : T.allows 0x400080000000000000004200040080000001000100000000000000000008002bc00) (n cause at_ : Nat) : (Mach.enterFault m n cause at_).Within T := by
  unfold Mach.enterFault
  try dsimp only
  repeat' (first | exact hT.sub (by decide) | intro _ | with_reducible assumption | with_reducible apply Mach.homeFaulted_held | with_reducible apply Mach.modAx_held | with_reducible apply Mach.homeCut_held | with_reducible apply Mach.dropMotion_held | with_reducible apply Mach.retireAll_held | with_reducible apply Mach.breakPath_held | with_reducible apply Mach.endEnable_held | with_reducible apply Mach.leaveFollow_held | with_reducible apply Mach.trimStop_held | with_reducible apply Mach.fault_held | with_reducible apply Mach.wr_held | with_reducible apply Mach.setBit_held | with_reducible apply Mach.clrFld_held | with_reducible apply Mach.cutAxis_held | with_reducible apply Mach.post_held | with_reducible apply Mach.postCause_held | with_reducible apply Mach.masterLost_held | with_reducible apply Mach.ite_held | split | refine Mach.of_fst (by with_reducible assumption) ?_ | refine Mach.of_snd (by with_reducible assumption) ?_ | (apply Mach.held_upd; focus (constructor; (dsimp only <;> exact rfl); all_goals (first | with_reducible exact .inl rfl | with_reducible exact rfl | exact .inr (hT.has (by decide))))))

theorem Mach.fault_held {T : Scope} {m : Mach} (h : m.Within T) (hT : T.allows 0x400080000000000000004200040080000001000100000000000000000008002bc00) (n cause : Nat) : (Mach.fault m n cause).Within T := by
  unfold Mach.fault
  try dsimp only
  repeat' (first | exact hT.sub (by decide) | intro _ | with_reducible assumption | with_reducible apply Mach.modAx_held | with_reducible apply Mach.cutAxis_held | with_reducible apply Mach.postCause_held | with_reducible apply Mach.enterFault_held | split | refine Mach.of_fst (by with_reducible assumption) ?_ | refine Mach.of_snd (by with_reducible assumption) ?_ | (apply Mach.held_upd; focus (constructor; (dsimp only <;> exact rfl); all_goals (first | with_reducible exact .inl rfl | with_reducible exact rfl | exact .inr (hT.has (by decide))))))

theorem Mach.faultWaits_held {T : Scope} {m : Mach} (h : m.Within T) (hT : T.allows 0x800000000000000000000000000000000001400) (n cause : Nat) : (Mach.faultWaits m n cause).Within T := by
  unfold Mach.faultWaits
  try dsimp only
  repeat' (first | exact hT.sub (by decide) | intro _ | with_reducible assumption | with_reducible apply Mach.fault_held | with_reducible apply Mach.postCause_held | with_reducible apply Mach.modAx_held | split | refine Mach.of_fst (by with_reducible assumption) ?_ | refine Mach.of_snd (by with_reducible assumption) ?_ | (apply Mach.held_upd; focus (constructor; (dsimp only <;> exact rfl); all_goals (first | with_reducible exact .inl rfl | with_reducible exact rfl | exact .inr (hT.has (by decide))))))

theorem Mach.faultAfterEstop_held {T : Scope} {m : Mach} (h : m.Within T) (hT : T.allows 0x400080000000000000000000000080000001000100000000000000000000000bc00) (ns : List Nat) (fcause ecause : Nat) : (Mach.faultAfterEstop m ns fcause ecause).Within T := by
  unfold Mach.faultAfterEstop
  try dsimp only
  repeat' (first | exact hT.sub (by decide) | intro _ | with_reducible assumption | with_reducible apply Mach.fault_held | with_reducible apply Mach.estopAll_held | with_reducible apply Mach.forAll_held | with_reducible apply Mach.faultWaits_held | split | refine Mach.of_fst (by with_reducible assumption) ?_ | refine Mach.of_snd (by with_reducible assumption) ?_)

theorem Mach.coilsOff_held {T : Scope} {m : Mach} (h : m.Within T) (hT : T.allows 0x20000) (n : Nat) : (Mach.coilsOff m n).Within T := by
  unfold Mach.coilsOff
  try dsimp only
  repeat' (first | exact hT.sub (by decide) | intro _ | with_reducible assumption | with_reducible apply Mach.modCoil_held | (apply Mach.held_upd; focus (constructor; (dsimp only <;> exact rfl); all_goals (first | with_reducible exact .inl rfl | with_reducible exact rfl | exact .inr (hT.has (by decide))))))

theorem Mach.enterOff_held {T : Scope} {m : Mach} (h : m.Within T) (hT : T.allows 0x400080000000000000004200040080000001000100000000000000000000002bc00) (n : Nat) (st : Nat) : (Mach.enterOff m n st).Within T := by
  unfold Mach.enterOff
  try dsimp only
  repeat' (first | exact hT.sub (by decide) | intro _ | with_reducible assumption | with_reducible apply Mach.homeCut_held | with_reducible apply Mach.dropMotion_held | with_reducible apply Mach.retireAll_held | with_reducible apply Mach.breakPath_held | with_reducible apply Mach.keptEnd_held | with_reducible apply Mach.endEnable_held | with_reducible apply Mach.leaveFollow_held | with_reducible apply Mach.trimStop_held | with_reducible apply Mach.modAx_held | with_reducible apply Mach.cutAxis_held | with_reducible apply Mach.coilsOff_held | with_reducible apply Mach.post_held | with_reducible apply Mach.masterLost_held | split | (apply Mach.held_upd; focus (constructor; (dsimp only <;> exact rfl); all_goals (first | with_reducible exact .inl rfl | with_reducible exact rfl | exact .inr (hT.has (by decide))))))

theorem Mach.disable_held {T : Scope} {m : Mach} (h : m.Within T) (hT : T.allows 0x400080000000000000004200040080000001000100000000000000000000002bc00) (n : Nat) : (Mach.disable m n).Within T := by
  unfold Mach.disable
  try dsimp only
  repeat' (first | exact hT.sub (by decide) | intro _ | with_reducible assumption | with_reducible apply Mach.enterOff_held | split | refine Mach.of_fst (by with_reducible assumption) ?_ | refine Mach.of_snd (by with_reducible assumption) ?_)

theorem Mach.enterHold_held {T : Scope} {m : Mach} (h : m.Within T) (hT : T.allows 0x400) (n t : Nat) : (Mach.enterHold m n t).Within T := by
  unfold Mach.enterHold
  try dsimp only
  repeat' (first | exact hT.sub (by decide) | intro _ | with_reducible assumption | with_reducible apply Mach.modAx_held | (apply Mach.held_upd; focus (constructor; (dsimp only <;> exact rfl); all_goals (first | with_reducible exact .inl rfl | with_reducible exact rfl | exact .inr (hT.has (by decide))))))

theorem Mach.rampEnd_held {T : Scope} {m : Mach} (h : m.Within T) (hT : T.allows 0x400080000000000000004200040080000001000100000000000000000008002bc00) (n t : Nat) : (Mach.rampEnd m n t).Within T := by
  unfold Mach.rampEnd
  try dsimp only
  repeat' (first | exact hT.sub (by decide) | intro _ | with_reducible assumption | with_reducible apply Mach.modAx_held | with_reducible apply Mach.enterFault_held | with_reducible apply Mach.enterHold_held | split | refine Mach.of_fst (by with_reducible assumption) ?_ | refine Mach.of_snd (by with_reducible assumption) ?_ | (apply Mach.held_upd; focus (constructor; (dsimp only <;> exact rfl); all_goals (first | with_reducible exact .inl rfl | with_reducible exact rfl | exact .inr (hT.has (by decide))))))

theorem Mach.enterArming_held {T : Scope} {m : Mach} (h : m.Within T) (hT : T.allows 0x400) (n : Nat) : (Mach.enterArming m n).Within T := by
  unfold Mach.enterArming
  try dsimp only
  repeat' (first | exact hT.sub (by decide) | intro _ | with_reducible assumption | with_reducible apply Mach.modAx_held | (apply Mach.held_upd; focus (constructor; (dsimp only <;> exact rfl); all_goals (first | with_reducible exact .inl rfl | with_reducible exact rfl | exact .inr (hT.has (by decide))))))

theorem Mach.setPosSeg_held {T : Scope} {m : Mach} (h : m.Within T) (hT : T.allows 0x400) (n B : Nat) (s : Kin) (prof : Nat) (lim : Lim) (t ve : Rat) (st : Nat) : (Mach.setPosSeg m n B s prof lim t ve st).Within T := by
  unfold Mach.setPosSeg
  try dsimp only
  repeat' (first | exact hT.sub (by decide) | intro _ | with_reducible assumption | with_reducible apply Mach.modAx_held | (apply Mach.held_upd; focus (constructor; (dsimp only <;> exact rfl); all_goals (first | with_reducible exact .inl rfl | with_reducible exact rfl | exact .inr (hT.has (by decide))))))

theorem Mach.replanPos_held {T : Scope} {m : Mach} (h : m.Within T) (hT : T.allows 0x400) (n B : Nat) (s : Kin) (prof : Nat) (lim : Lim) (t : Rat) (st : Nat) : (Mach.replanPos m n B s prof lim t st).Within T := by
  unfold Mach.replanPos
  try dsimp only
  repeat' (first | exact hT.sub (by decide) | intro _ | with_reducible assumption | with_reducible apply Mach.setPosSeg_held | with_reducible apply Mach.modAx_held | (apply Mach.held_upd; focus (constructor; (dsimp only <;> exact rfl); all_goals (first | with_reducible exact .inl rfl | with_reducible exact rfl | exact .inr (hT.has (by decide))))))

theorem Mach.setVelSeg_held {T : Scope} {m : Mach} (h : m.Within T) (hT : T.allows 0x400) (n B : Nat) (s : Kin) (prof : Nat) (lim : Lim) (vt : Rat) : (Mach.setVelSeg m n B s prof lim vt).Within T := by
  unfold Mach.setVelSeg
  try dsimp only
  repeat' (first | exact hT.sub (by decide) | intro _ | with_reducible assumption | with_reducible apply Mach.modAx_held | with_reducible apply Mach.ite_held | split | (apply Mach.held_upd; focus (constructor; (dsimp only <;> exact rfl); all_goals (first | with_reducible exact .inl rfl | with_reducible exact rfl | exact .inr (hT.has (by decide))))))

theorem Mach.startMotion_held {T : Scope} {m : Mach} (h : m.Within T) (hT : T.allows 0x800000000000000000000000000000000001c00) (n : Nat) (c : MotionCmd) (B at_ : Nat) (s : Kin) : (Mach.startMotion m n c B at_ s).Within T := by
  unfold Mach.startMotion
  try dsimp only
  repeat' (first | exact hT.sub (by decide) | intro _ | with_reducible assumption | with_reducible apply Mach.modAx_held | with_reducible apply Mach.retire_held | with_reducible apply Mach.setVelSeg_held | with_reducible apply Mach.setPosSeg_held | with_reducible apply Mach.post_held | with_reducible apply Mach.ite_held | split | refine Mach.of_fst (by with_reducible assumption) ?_ | refine Mach.of_snd (by with_reducible assumption) ?_ | (apply Mach.held_upd; focus (constructor; (dsimp only <;> exact rfl); all_goals (first | with_reducible exact .inl rfl | with_reducible exact rfl | exact .inr (hT.has (by decide))))))

theorem Mach.homePhase_held {T : Scope} {m : Mach} (h : m.Within T) (hT : T.allows 0x10000000000000000000000000000400) (n ph : Nat) : (Mach.homePhase m n ph).Within T := by
  unfold Mach.homePhase
  try dsimp only
  repeat' (first | exact hT.sub (by decide) | intro _ | with_reducible assumption | with_reducible apply Mach.modAx_held | with_reducible apply Mach.wr_held | (apply Mach.held_upd; focus (constructor; (dsimp only <;> exact rfl); all_goals (first | with_reducible exact .inl rfl | with_reducible exact rfl | exact .inr (hT.has (by decide))))))

theorem Mach.homeRun_held {T : Scope} {m : Mach} (h : m.Within T) (hT : T.allows 0x400) (n B : Nat) (s : Kin) (h : Home) (fast up : Bool) : (Mach.homeRun m n B s h fast up).Within T := by
  unfold Mach.homeRun
  try dsimp only
  repeat' (first | exact hT.sub (by decide) | intro _ | with_reducible assumption | with_reducible apply Mach.setVelSeg_held | with_reducible apply Mach.modAx_held | with_reducible apply Mach.ite_held | split | (apply Mach.held_upd; focus (constructor; (dsimp only <;> exact rfl); all_goals (first | with_reducible exact .inl rfl | with_reducible exact rfl | exact .inr (hT.has (by decide))))))

theorem Mach.homeStop_held {T : Scope} {m : Mach} (h : m.Within T) (hT : T.allows 0x400) (n B : Nat) (s : Kin) (h : Home) : (Mach.homeStop m n B s h).Within T := by
  unfold Mach.homeStop
  try dsimp only
  repeat' (first | exact hT.sub (by decide) | intro _ | with_reducible assumption | with_reducible apply Mach.modAx_held | (apply Mach.held_upd; focus (constructor; (dsimp only <;> exact rfl); all_goals (first | with_reducible exact .inl rfl | with_reducible exact rfl | exact .inr (hT.has (by decide))))))

theorem Mach.reassign_held {T : Scope} {m : Mach} (h : m.Within T) (hT : T.allows 0x2000000000000008000000000000000000000000000000000000000000000400) (n : Nat) (d : Rat) : (Mach.reassign m n d).Within T := by
  unfold Mach.reassign
  try dsimp only
  repeat' (first | exact hT.sub (by decide) | intro _ | with_reducible assumption | with_reducible apply Mach.modAx_held | with_reducible apply Mach.wr_held | (apply Mach.held_upd; focus (constructor; (dsimp only <;> exact rfl); all_goals (first | with_reducible exact .inl rfl | with_reducible exact rfl | exact .inr (hT.has (by decide))))))

theorem Mach.homeDone_held {T : Scope} {m : Mach} (h : m.Within T) (hT : T.allows 0x2000000000000008000000000800000010000000000000000000000000001c00) (n at_ : Nat) (h : Home) : (Mach.homeDone m n at_ h).Within T := by
  unfold Mach.homeDone
  try dsimp only
  repeat' (first | exact hT.sub (by decide) | intro _ | with_reducible assumption | with_reducible apply Mach.reassign_held | with_reducible apply Mach.modAx_held | with_reducible apply Mach.setBit_held | with_reducible apply Mach.wr_held | with_reducible apply Mach.retireAll_held | with_reducible apply Mach.post_held | (apply Mach.held_upd; focus (constructor; (dsimp only <;> exact rfl); all_goals (first | with_reducible exact .inl rfl | with_reducible exact rfl | exact .inr (hT.has (by decide))))))

theorem Mach.homeApproach_held {T : Scope} {m : Mach} (h : m.Within T) (hT : T.allows 0x10000000000000000000000000000400) (n B : Nat) (s : Kin) (h : Home) : (Mach.homeApproach m n B s h).Within T := by
  unfold Mach.homeApproach
  try dsimp only
  repeat' (first | exact hT.sub (by decide) | intro _ | with_reducible assumption | with_reducible apply Mach.homeRun_held | with_reducible apply Mach.homePhase_held | with_reducible apply Mach.ite_held | split)

theorem Mach.startHome_held {T : Scope} {m : Mach} (h : m.Within T) (hT : T.allows 0x2000000000000008000000000800000018000000000000000000000000001c00) (n : Nat) (c : MotionCmd) (B at_ : Nat) (s : Kin) : (Mach.startHome m n c B at_ s).Within T := by
  unfold Mach.startHome
  try dsimp only
  repeat' (first | exact hT.sub (by decide) | intro _ | with_reducible assumption | with_reducible apply Mach.clrFld_held | with_reducible apply Mach.modAx_held | with_reducible apply Mach.retire_held | with_reducible apply Mach.homeFail_held | with_reducible apply Mach.wr_held | with_reducible apply Mach.homeDone_held | with_reducible apply Mach.enterHold_held | with_reducible apply Mach.homeRun_held | with_reducible apply Mach.homePhase_held | with_reducible apply Mach.homeApproach_held | with_reducible apply Mach.ite_held | split | (apply Mach.held_upd; focus (constructor; (dsimp only <;> exact rfl); all_goals (first | with_reducible exact .inl rfl | with_reducible exact rfl | exact .inr (hT.has (by decide))))))

theorem Mach.homeAbandon_held {T : Scope} {m : Mach} (h : m.Within T) (hT : T.allows 0x800000010000000000000000000000000001c00) (n B code : Nat) : (Mach.homeAbandon m n B code).Within T := by
  unfold Mach.homeAbandon
  try dsimp only
  repeat' (first | exact hT.sub (by decide) | intro _ | with_reducible assumption | with_reducible apply Mach.homeFail_held | with_reducible apply Mach.homeStop_held | with_reducible apply Mach.retireAll_held | with_reducible apply Mach.modAx_held | split | refine Mach.of_fst (by with_reducible assumption) ?_ | refine Mach.of_snd (by with_reducible assumption) ?_ | (apply Mach.held_upd; focus (constructor; (dsimp only <;> exact rfl); all_goals (first | with_reducible exact .inl rfl | with_reducible exact rfl | exact .inr (hT.has (by decide))))))

theorem Mach.homeEdge_held {T : Scope} {m : Mach} (h : m.Within T) (hT : T.allows 0x18000000000000000000000000000400) (n : Nat) (index : Bool) (p : Rat) (ts : Nat) : (Mach.homeEdge m n index p ts).Within T := by
  unfold Mach.homeEdge
  try dsimp only
  repeat' (first | exact hT.sub (by decide) | intro _ | with_reducible assumption | with_reducible apply Mach.modAx_held | with_reducible apply Mach.wr_held | with_reducible apply Mach.homePhase_held | with_reducible apply Mach.ite_held | split | refine Mach.of_fst (by with_reducible assumption) ?_ | refine Mach.of_snd (by with_reducible assumption) ?_ | (apply Mach.held_upd; focus (constructor; (dsimp only <;> exact rfl); all_goals (first | with_reducible exact .inl rfl | with_reducible exact rfl | exact .inr (hT.has (by decide))))))

theorem Mach.homeSlot_held {T : Scope} {m : Mach} (h : m.Within T) (hT : T.allows 0x800000010000000000000000000000000001c00) (n : Nat) : (Mach.homeSlot m n).Within T := by
  unfold Mach.homeSlot
  try dsimp only
  repeat' (first | exact hT.sub (by decide) | intro _ | with_reducible assumption | with_reducible apply Mach.homeStop_held | with_reducible apply Mach.modAx_held | with_reducible apply Mach.homePhase_held | with_reducible apply Mach.homeAbandon_held | with_reducible apply Mach.setPosSeg_held | with_reducible apply Mach.ite_held | split | refine Mach.of_fst (by with_reducible assumption) ?_ | refine Mach.of_snd (by with_reducible assumption) ?_ | (apply Mach.held_upd; focus (constructor; (dsimp only <;> exact rfl); all_goals (first | with_reducible exact .inl rfl | with_reducible exact rfl | exact .inr (hT.has (by decide))))))

theorem Mach.homeStepEnd_held {T : Scope} {m : Mach} (h : m.Within T) (hT : T.allows 0x2000000000000008000000000800000010000000000000000000000000001c00) (n B : Nat) : (Mach.homeStepEnd m n B).Within T := by
  unfold Mach.homeStepEnd
  try dsimp only
  repeat' (first | exact hT.sub (by decide) | intro _ | with_reducible assumption | with_reducible apply Mach.homeRun_held | with_reducible apply Mach.homePhase_held | with_reducible apply Mach.modAx_held | with_reducible apply Mach.setPosSeg_held | with_reducible apply Mach.wr_held | with_reducible apply Mach.homeApproach_held | with_reducible apply Mach.homeDone_held | with_reducible apply Mach.enterHold_held | with_reducible apply Mach.ite_held | split | refine Mach.of_fst (by with_reducible assumption) ?_ | refine Mach.of_snd (by with_reducible assumption) ?_ | (apply Mach.held_upd; focus (constructor; (dsimp only <;> exact rfl); all_goals (first | with_reducible exact .inl rfl | with_reducible exact rfl | exact .inr (hT.has (by decide))))))

theorem Mach.applyHold_held {T : Scope} {m : Mach} (h : m.Within T) (hT : T.allows 0x400) (n p1 : Nat) : (Mach.applyHold m n p1).Within T := by
  unfold Mach.applyHold
  try dsimp only
  repeat' (first | exact hT.sub (by decide) | intro _ | with_reducible assumption | with_reducible apply Mach.modAx_held | with_reducible apply Mach.ite_held | split | (apply Mach.held_upd; focus (constructor; (dsimp only <;> exact rfl); all_goals (first | with_reducible exact .inl rfl | with_reducible exact rfl | exact .inr (hT.has (by decide))))))

theorem Mach.applyRetgt_held {T : Scope} {m : Mach} (h : m.Within T) (hT : T.allows 0x800000000000000000000000800000000001000000000000000000000001400) (n : Nat) (w : Word) : (Mach.applyRetgt m n w).Within T := by
  unfold Mach.applyRetgt
  try dsimp only
  repeat' (first | exact hT.sub (by decide) | intro _ | with_reducible assumption | with_reducible apply Mach.setBit_held | with_reducible apply Mach.modAx_held | with_reducible apply Mach.clrFld_held | with_reducible apply Mach.setVelSeg_held | with_reducible apply Mach.replanPos_held | with_reducible apply Mach.post_held | with_reducible apply Mach.ite_held | split | refine Mach.of_fst (by with_reducible assumption) ?_ | refine Mach.of_snd (by with_reducible assumption) ?_ | (apply Mach.held_upd; focus (constructor; (dsimp only <;> exact rfl); all_goals (first | with_reducible exact .inl rfl | with_reducible exact rfl | exact .inr (hT.has (by decide))))))

theorem Mach.regStep_held {T : Scope} {m : Mach} (h : m.Within T) (hT : T.allows 0x8000) (n : Nat) : (m.regStep n).1.Within T := by
  refine Mach.foldl_fst_held ?_ _ h
  intro m y r hm
  dsimp only
  split
  · exact Mach.modRegch_held hm (hT.sub (by decide)) _ _
  · exact hm

theorem Mach.stepTaken_held {T : Scope} {m : Mach} (h : m.Within T) (hT : T.allows 0x8000) (n : Nat) : (Mach.stepTaken m n).Within T := by
  unfold Mach.stepTaken
  try dsimp only
  repeat' (first | exact hT.sub (by decide) | intro _ | with_reducible assumption | with_reducible apply Mach.regStep_held | with_reducible apply Mach.ite_held | split | refine Mach.of_fst (by with_reducible assumption) ?_ | refine Mach.of_snd (by with_reducible assumption) ?_)

theorem Mach.startStop_held {T : Scope} {m' : Mach} (h : m'.Within T) (hT : T.allows 0x4000800000000000000000000000800000010000000000000000000000000009c00) (n : Nat) (c : MotionCmd) (B : Nat) : (Mach.startStop m' n c B).Within T := by
  unfold Mach.startStop
  try dsimp only
  repeat' (first | exact hT.sub (by decide) | intro _ | with_reducible assumption | with_reducible apply Mach.stepTaken_held | with_reducible apply Mach.homeCut_held | with_reducible apply Mach.dropMotion_held | with_reducible apply Mach.leaveFollow_held | with_reducible apply Mach.clrFld_held | with_reducible apply Mach.modAx_held | (apply Mach.held_upd; focus (constructor; (dsimp only <;> exact rfl); all_goals (first | with_reducible exact .inl rfl | with_reducible exact rfl | exact .inr (hT.has (by decide))))))

theorem Mach.engage_held {T : Scope} {m' : Mach} (h : m'.Within T) (hT : T.allows 0x4000800000000000000000000000800000010001000000000000000000000009c00) (n sel : Nat) (law : Law) (prof : Nat) (cmd : Option MotionCmd) (port : Option Nat) : (Mach.engage m' n sel law prof cmd port).Within T := by
  unfold Mach.engage
  try dsimp only
  repeat' (first | exact hT.sub (by decide) | intro _ | with_reducible assumption | with_reducible apply Mach.stepTaken_held | with_reducible apply Mach.command_held | with_reducible apply Mach.retire_held | with_reducible apply Mach.clrFld_held | with_reducible apply Mach.post_held | with_reducible apply Mach.dropMotion_held | with_reducible apply Mach.modAx_held | with_reducible apply Mach.postAt_held | with_reducible apply Mach.setBit_held | with_reducible apply Mach.when_held | with_reducible apply Mach.estopAxis_held | with_reducible apply Mach.faultWaits_held | with_reducible apply Mach.ite_held | split | refine Mach.of_fst (by with_reducible assumption) ?_ | refine Mach.of_snd (by with_reducible assumption) ?_ | (apply Mach.held_upd; focus (constructor; (dsimp only <;> exact rfl); all_goals (first | with_reducible exact .inl rfl | with_reducible exact rfl | exact .inr (hT.has (by decide))))))

theorem Mach.followSlot_held {T : Scope} {m : Mach} (h : m.Within T) (hT : T.allows 0x400080000000000000000200000080000001000100000000000000000000000bc00) (n : Nat) (camMissing : Bool) : (Mach.followSlot m n camMissing).Within T := by
  unfold Mach.followSlot
  try dsimp only
  repeat' (first | exact hT.sub (by decide) | intro _ | with_reducible assumption | with_reducible apply Mach.modAx_held | with_reducible apply Mach.setBit_held | with_reducible apply Mach.wr_held | with_reducible apply Mach.post_held | with_reducible apply Mach.estop_held | with_reducible apply Mach.stepTaken_held | with_reducible apply Mach.retire_held | with_reducible apply Mach.postAt_held | with_reducible apply Mach.faultAfterEstop_held | with_reducible apply Mach.ite_held | split | refine Mach.of_fst (by with_reducible assumption) ?_ | refine Mach.of_snd (by with_reducible assumption) ?_ | (apply Mach.held_upd; focus (constructor; (dsimp only <;> exact rfl); all_goals (first | with_reducible exact .inl rfl | with_reducible exact rfl | exact .inr (hT.has (by decide))))))

theorem Mach.regAdvance_held {T : Scope} {m : Mach} (h : m.Within T) (hT : T.allows 0x400000000000000000000000000000000000000000000) (r : Nat) : (Mach.regAdvance m r).Within T := by
  unfold Mach.regAdvance
  try dsimp only
  repeat' (first | exact hT.sub (by decide) | intro _ | with_reducible assumption | with_reducible apply Mach.wr_held)

theorem Mach.regMark_held {T : Scope} {m : Mach} (h : m.Within T) (hT : T.allows 0xd00000800000000000000000000000000000000009000) (r ts : Nat) : (Mach.regMark m r ts).Within T := by
  unfold Mach.regMark
  try dsimp only
  repeat' (first | exact hT.sub (by decide) | intro _ | with_reducible assumption | with_reducible apply Mach.setBit_held | with_reducible apply Mach.regAdvance_held | with_reducible apply Mach.wr_held | with_reducible apply Mach.wrap_held | with_reducible apply Mach.wrS_held | with_reducible apply Mach.postAt_held | with_reducible apply Mach.modRegch_held | with_reducible apply Mach.ite_held | split | (apply Mach.held_upd; focus (constructor; (dsimp only <;> exact rfl); all_goals (first | with_reducible exact .inl rfl | with_reducible exact rfl | exact .inr (hT.has (by decide))))))

theorem Mach.regMiss_held {T : Scope} {m : Mach} (h : m.Within T) (hT : T.allows 0x500000800000000000000000000000000000000001000) (r : Nat) : (Mach.regMiss m r).Within T := by
  unfold Mach.regMiss
  try dsimp only
  repeat' (first | exact hT.sub (by decide) | intro _ | with_reducible assumption | with_reducible apply Mach.regAdvance_held | with_reducible apply Mach.wr_held | with_reducible apply Mach.setBit_held | with_reducible apply Mach.post_held | with_reducible apply Mach.ite_held | split)

theorem Mach.trimShow_held {T : Scope} {m : Mach} (h : m.Within T) (hT : T.allows 0x40000000000000000000000000000000000000000000000) (n : Nat) : (Mach.trimShow m n).Within T := by
  unfold Mach.trimShow
  try dsimp only
  repeat' (first | exact hT.sub (by decide) | intro _ | with_reducible assumption | with_reducible apply Mach.wrS_held)

theorem Mach.trimStale_held {T : Scope} {m : Mach} (h : m.Within T) (hT : T.allows 0x2000000800000000000000000000000000000000001400) (n : Nat) : (Mach.trimStale m n).Within T := by
  unfold Mach.trimStale
  try dsimp only
  repeat' (first | exact hT.sub (by decide) | intro _ | with_reducible assumption | with_reducible apply Mach.modAx_held | with_reducible apply Mach.setBit_held | with_reducible apply Mach.post_held | with_reducible apply Mach.ite_held | split | (apply Mach.held_upd; focus (constructor; (dsimp only <;> exact rfl); all_goals (first | with_reducible exact .inl rfl | with_reducible exact rfl | exact .inr (hT.has (by decide))))))

theorem Mach.trimCmd_held {T : Scope} {m : Mach} (h : m.Within T) (hT : T.allows 0x46000000800000000000000000000000000000000001400) (n p1 p0 : Nat) : (Mach.trimCmd m n p1 p0).Within T := by
  unfold Mach.trimCmd
  try dsimp only
  repeat' (first | exact hT.sub (by decide) | intro _ | with_reducible assumption | with_reducible apply Mach.modAx_held | with_reducible apply Mach.setBit_held | with_reducible apply Mach.wr_held | with_reducible apply Mach.clrFld_held | with_reducible apply Mach.trimShow_held | with_reducible apply Mach.when_held | with_reducible apply Mach.trimStale_held | with_reducible apply Mach.trimStop_held | with_reducible apply Mach.ite_held | split | (apply Mach.held_upd; focus (constructor; (dsimp only <;> exact rfl); all_goals (first | with_reducible exact .inl rfl | with_reducible exact rfl | exact .inr (hT.has (by decide))))))

theorem Mach.trimUpdate_held {T : Scope} {m : Mach} (h : m.Within T) (hT : T.allows 0x42000000800000000000000000000000000000000001400) (n : Nat) (y : Int) : (Mach.trimUpdate m n y).Within T := by
  unfold Mach.trimUpdate
  try dsimp only
  repeat' (first | exact hT.sub (by decide) | intro _ | with_reducible assumption | with_reducible apply Mach.modAx_held | with_reducible apply Mach.clrFld_held | with_reducible apply Mach.when_held | with_reducible apply Mach.setBit_held | with_reducible apply Mach.post_held | with_reducible apply Mach.trimShow_held | with_reducible apply Mach.ite_held | split | (apply Mach.held_upd; focus (constructor; (dsimp only <;> exact rfl); all_goals (first | with_reducible exact .inl rfl | with_reducible exact rfl | exact .inr (hT.has (by decide))))))

theorem Mach.vmasterStep_held {T : Scope} {m : Mach} (h : m.Within T) (hT : T.allows 0x20000000000000000000000000000000000000004000) (v : Nat) : (Mach.vmasterStep m v).Within T := by
  unfold Mach.vmasterStep
  try dsimp only
  repeat' (first | exact hT.sub (by decide) | intro _ | with_reducible assumption | with_reducible apply Mach.wr_held | with_reducible apply Mach.ite_held | split | (apply Mach.held_upd; focus (constructor; (dsimp only <;> exact rfl); all_goals (first | with_reducible exact .inl rfl | with_reducible exact rfl | exact .inr (hT.has (by decide))))))

theorem Mach.writeMemb_held {T : Scope} {m : Mach} (h : m.Within T) (hT : T.allows 0x580000000000000000000000000000000000000000) (g : Nat) (hi : Bool) (v : Nat) : (Mach.writeMemb m g hi v).Within T := by
  unfold Mach.writeMemb
  try dsimp only
  repeat' (first | exact hT.sub (by decide) | intro _ | with_reducible assumption | with_reducible apply Mach.setReg_held | with_reducible apply Mach.setBit_held | with_reducible apply Mach.ite_held | split)

theorem Mach.startGroup_held {T : Scope} {m : Mach} (h : m.Within T) (hT : T.allows 0x2400800000000000000000000000000000000003c00) (g : Nat) (c : MotionCmd) (B at_ : Nat) (vs : Rat) : (Mach.startGroup m g c B at_ vs).Within T := by
  unfold Mach.startGroup
  try dsimp only
  repeat' (first | exact hT.sub (by decide) | intro _ | with_reducible assumption | with_reducible apply Mach.retire_held | with_reducible apply Mach.modArm_held | with_reducible apply Mach.forAll_held | with_reducible apply Mach.modAx_held | with_reducible apply Mach.wr_held | with_reducible apply Mach.setBit_held | with_reducible apply Mach.post_held | with_reducible apply Mach.foldl_held | with_reducible apply Mach.foldl_fst_held | with_reducible apply Mach.ite_held | split | refine Mach.of_fst (by with_reducible assumption) ?_ | refine Mach.of_snd (by with_reducible assumption) ?_ | (apply Mach.held_upd; focus (constructor; (dsimp only <;> exact rfl); all_goals (first | with_reducible exact .inl rfl | with_reducible exact rfl | exact .inr (hT.has (by decide))))))

theorem Mach.groupStop_held {T : Scope} {m : Mach} (h : m.Within T) (hT : T.allows 0x2c00) (g : Nat) : (Mach.groupStop m g).Within T := by
  unfold Mach.groupStop
  try dsimp only
  repeat' (first | exact hT.sub (by decide) | intro _ | with_reducible assumption | with_reducible apply Mach.retire_held | with_reducible apply Mach.retireAll_held | with_reducible apply Mach.modArm_held | with_reducible apply Mach.forAll_held | with_reducible apply Mach.modAx_held | with_reducible apply Mach.ite_held | split | refine Mach.of_fst (by with_reducible assumption) ?_ | refine Mach.of_snd (by with_reducible assumption) ?_ | (apply Mach.held_upd; focus (constructor; (dsimp only <;> exact rfl); all_goals (first | with_reducible exact .inl rfl | with_reducible exact rfl | exact .inr (hT.has (by decide))))))

theorem Mach.memberSlot_held {T : Scope} {m : Mach} (h : m.Within T) (hT : T.allows 0x400) (n g : Nat) : (Mach.memberSlot m n g).Within T := by
  unfold Mach.memberSlot
  try dsimp only
  repeat' (first | exact hT.sub (by decide) | intro _ | with_reducible assumption | with_reducible apply Mach.modAx_held | with_reducible apply Mach.ite_held | split | refine Mach.of_fst (by with_reducible assumption) ?_ | refine Mach.of_snd (by with_reducible assumption) ?_ | (apply Mach.held_upd; focus (constructor; (dsimp only <;> exact rfl); all_goals (first | with_reducible exact .inl rfl | with_reducible exact rfl | exact .inr (hT.has (by decide))))))

theorem Mach.pathSlot_held {T : Scope} {m : Mach} (h : m.Within T) (hT : T.allows 0x2000) (g : Nat) : (Mach.pathSlot m g).Within T := by
  unfold Mach.pathSlot
  try dsimp only
  repeat' (first | exact hT.sub (by decide) | intro _ | with_reducible assumption | with_reducible apply Mach.modArm_held | with_reducible apply Mach.ite_held | split | refine Mach.of_fst (by with_reducible assumption) ?_ | refine Mach.of_snd (by with_reducible assumption) ?_ | (apply Mach.held_upd; focus (constructor; (dsimp only <;> exact rfl); all_goals (first | with_reducible exact .inl rfl | with_reducible exact rfl | exact .inr (hT.has (by decide))))))

theorem Mach.memberSoft_held {T : Scope} {m : Mach} (h : m.Within T) (hT : T.allows 0x400080000000000000000000000080000001000100000000000000000000000bc00) (n g : Nat) : (Mach.memberSoft m n g).Within T := by
  unfold Mach.memberSoft
  try dsimp only
  repeat' (first | exact hT.sub (by decide) | intro _ | with_reducible assumption | with_reducible apply Mach.modAx_held | with_reducible apply Mach.post_held | with_reducible apply Mach.estop_held | with_reducible apply Mach.ite_held | split | refine Mach.of_fst (by with_reducible assumption) ?_ | refine Mach.of_snd (by with_reducible assumption) ?_ | (apply Mach.held_upd; focus (constructor; (dsimp only <;> exact rfl); all_goals (first | with_reducible exact .inl rfl | with_reducible exact rfl | exact .inr (hT.has (by decide))))))

theorem Mach.groupEnd_held {T : Scope} {m : Mach} (h : m.Within T) (hT : T.allows 0x400080000000000000004200040080000001000100000000000000000008002bc00) (g B : Nat) : (Mach.groupEnd m g B).Within T := by
  unfold Mach.groupEnd
  try dsimp only
  repeat' (first | exact hT.sub (by decide) | intro _ | with_reducible assumption | with_reducible apply Mach.modArm_held | with_reducible apply Mach.modAx_held | with_reducible apply Mach.enterFault_held | with_reducible apply Mach.rampEnd_held | with_reducible apply Mach.forAll_held | with_reducible apply Mach.ite_held | split | (apply Mach.held_upd; focus (constructor; (dsimp only <;> exact rfl); all_goals (first | with_reducible exact .inl rfl | with_reducible exact rfl | exact .inr (hT.has (by decide))))))

theorem Mach.groupAhead_held {T : Scope} (hT : T.allows 0x400080000000000000004200240080000001000100000000000000000008002bc00) (g B : Nat) (seg : Seg) (l : List MotionCmd) :
    ∀ {m : Mach}, m.Within T → (m.groupAhead g B seg l).Within T := by
  induction l with
  | nil =>
    intro m h
    rw [Mach.groupAhead]
    split
    · exact Mach.groupEnd_held h (hT.sub (by decide)) _ _
    · exact Mach.modArm_held h (hT.sub (by decide)) _ _
  | cons nx rest ih =>
    intro m h
    rw [Mach.groupAhead]
    have h1 := fun z => Mach.startGroup_held (Mach.modArm_held h (hT.sub (by decide)) g fun a => { a with ahead := rest }) (hT.sub (by decide)) g nx B B z
    repeat' split
    all_goals first | exact h1 _ | exact ih (h1 _)

theorem Mach.armNext_held {T : Scope} {m : Mach} (h : m.Within T) (hT : T.allows 0x2000) (g B : Nat) : (Mach.armNext m g B).Within T := by
  unfold Mach.armNext
  try dsimp only
  repeat' (first | exact hT.sub (by decide) | intro _ | with_reducible assumption | with_reducible apply Mach.modArm_held | with_reducible apply Mach.ite_held | split | refine Mach.of_fst (by with_reducible assumption) ?_ | refine Mach.of_snd (by with_reducible assumption) ?_ | (apply Mach.held_upd; focus (constructor; (dsimp only <;> exact rfl); all_goals (first | with_reducible exact .inl rfl | with_reducible exact rfl | exact .inr (hT.has (by decide))))))

theorem Mach.armStops_held {T : Scope} {m : Mach} (h : m.Within T) (hT : T.allows 0x400080000000000000004200040080000001000100000000000000000008002bc00) (g B : Nat) (seg : Seg) (k : Kin) : (Mach.armStops m g B seg k).Within T := by
  unfold Mach.armStops
  try dsimp only
  repeat' (first | exact hT.sub (by decide) | intro _ | with_reducible assumption | with_reducible apply Mach.groupEnd_held | with_reducible apply Mach.modArm_held | with_reducible apply Mach.ite_held | split | (apply Mach.held_upd; focus (constructor; (dsimp only <;> exact rfl); all_goals (first | with_reducible exact .inl rfl | with_reducible exact rfl | exact .inr (hT.has (by decide))))))

theorem Mach.armEnds_held {T : Scope} {m : Mach} (h : m.Within T) (hT : T.allows 0x400080000000000000004200240080000001000100000000000000000008002bc00) (g B : Nat) (seg : Seg) : (Mach.armEnds m g B seg).Within T := by
  unfold Mach.armEnds
  try dsimp only
  repeat' (first | exact hT.sub (by decide) | intro _ | with_reducible assumption | with_reducible apply Mach.retire_held | with_reducible apply Mach.modArm_held | with_reducible apply Mach.groupAhead_held | with_reducible apply Mach.groupEnd_held | with_reducible apply Mach.ite_held | split | refine Mach.of_fst (by with_reducible assumption) ?_ | refine Mach.of_snd (by with_reducible assumption) ?_ | (apply Mach.held_upd; focus (constructor; (dsimp only <;> exact rfl); all_goals (first | with_reducible exact .inl rfl | with_reducible exact rfl | exact .inr (hT.has (by decide))))))

theorem Mach.armTick_held {T : Scope} {m : Mach} (h : m.Within T) (hT : T.allows 0x400080000000000000004200240080000001000100000000000000000008002bc00) (g : Nat) : (Mach.armTick m g).Within T := by
  unfold Mach.armTick
  try dsimp only
  repeat' (first | exact hT.sub (by decide) | intro _ | with_reducible assumption | with_reducible apply Mach.armNext_held | with_reducible apply Mach.modArm_held | with_reducible apply Mach.armStops_held | with_reducible apply Mach.armEnds_held | with_reducible apply Mach.ite_held | split | refine Mach.of_fst (by with_reducible assumption) ?_ | refine Mach.of_snd (by with_reducible assumption) ?_ | (apply Mach.held_upd; focus (constructor; (dsimp only <;> exact rfl); all_goals (first | with_reducible exact .inl rfl | with_reducible exact rfl | exact .inr (hT.has (by decide))))))

theorem Mach.taken_held {T : Scope} {m : Mach} (h : m.Within T) (hT : T.allows 0x800) (c : MotionCmd) (st : Nat) : (Mach.taken m c st).Within T := by
  unfold Mach.taken
  try dsimp only
  repeat' (first | exact hT.sub (by decide) | intro _ | with_reducible assumption | with_reducible apply Mach.retire_held)

theorem Mach.takeEnable_held {T : Scope} {m : Mach} (h : m.Within T) (hT : T.allows 0xc00) (n : Nat) (c : MotionCmd) : (Mach.takeEnable m n c).Within T := by
  unfold Mach.takeEnable
  try dsimp only
  repeat' (first | exact hT.sub (by decide) | intro _ | with_reducible assumption | with_reducible apply Mach.taken_held | with_reducible apply Mach.enterArming_held | with_reducible apply Mach.modAx_held | with_reducible apply Mach.ite_held | split | (apply Mach.held_upd; focus (constructor; (dsimp only <;> exact rfl); all_goals (first | with_reducible exact .inl rfl | with_reducible exact rfl | exact .inr (hT.has (by decide))))))

theorem Mach.actNow_held {T : Scope} {m : Mach} (h : m.Within T) (hT : T.allows 0x400280000000000000804600040080000001800100000000000000000000002bc00) (n : Nat) (c : MotionCmd) : (Mach.actNow m n c).Within T := by
  unfold Mach.actNow
  try dsimp only
  repeat' (first | exact hT.sub (by decide) | intro _ | with_reducible assumption | with_reducible apply Mach.modAx_held | with_reducible apply Mach.startStop_held | with_reducible apply Mach.applyHold_held | with_reducible apply Mach.taken_held | with_reducible apply Mach.startHome_held | with_reducible apply Mach.reassign_held | with_reducible apply Mach.takeEnable_held | with_reducible apply Mach.disable_held | with_reducible apply Mach.engage_held | with_reducible apply Mach.trimCmd_held | with_reducible apply Mach.startMotion_held | with_reducible apply Mach.ite_held | split | refine Mach.of_fst (by with_reducible assumption) ?_ | refine Mach.of_snd (by with_reducible assumption) ?_ | (apply Mach.held_upd; focus (constructor; (dsimp only <;> exact rfl); all_goals (first | with_reducible exact .inl rfl | with_reducible exact rfl | exact .inr (hT.has (by decide))))))

theorem Mach.notBegun_held {T : Scope} {m : Mach} (h : m.Within T) (hT : T.allows 0x400) (c : MotionCmd) (n : Nat) : (Mach.notBegun m c n).Within T := by
  unfold Mach.notBegun
  try dsimp only
  repeat' (first | exact hT.sub (by decide) | intro _ | with_reducible assumption | with_reducible apply Mach.modAx_held | split | refine Mach.of_fst (by with_reducible assumption) ?_ | refine Mach.of_snd (by with_reducible assumption) ?_ | (apply Mach.held_upd; focus (constructor; (dsimp only <;> exact rfl); all_goals (first | with_reducible exact .inl rfl | with_reducible exact rfl | exact .inr (hT.has (by decide))))))

theorem Mach.actOn_held {T : Scope} {m : Mach} (h : m.Within T) (hT : T.allows 0x400280000000000000804600040080000001800100000000000000000000002bc00) (n : Nat) (c : MotionCmd) : (Mach.actOn m n c).Within T := by
  unfold Mach.actOn
  try dsimp only
  repeat' (first | exact hT.sub (by decide) | intro _ | with_reducible assumption | with_reducible apply Mach.actNow_held | with_reducible apply Mach.when_held | with_reducible apply Mach.notBegun_held)

theorem Mach.takeAxis_held {T : Scope} {m : Mach} (h : m.Within T) (hT : T.allows 0x400280000000000000804600040080000001800100000000000000000000002bc00) (n : Nat) (c : MotionCmd) : (Mach.takeAxis m n c).Within T := by
  unfold Mach.takeAxis
  try dsimp only
  repeat' (first | exact hT.sub (by decide) | intro _ | with_reducible assumption | with_reducible apply Mach.taken_held | with_reducible apply Mach.actOn_held | split | refine Mach.of_fst (by with_reducible assumption) ?_ | refine Mach.of_snd (by with_reducible assumption) ?_)

theorem Mach.takeGroup_held {T : Scope} {m : Mach} (h : m.Within T) (hT : T.allows 0x400280000000000000804600240080000001800100000000000000000000002bc00) (g : Nat) (c : MotionCmd) : (Mach.takeGroup m g c).Within T := by
  unfold Mach.takeGroup
  try dsimp only
  repeat' (first | exact hT.sub (by decide) | intro _ | with_reducible assumption | with_reducible apply Mach.taken_held | with_reducible apply Mach.modArm_held | with_reducible apply Mach.startGroup_held | with_reducible apply Mach.notBegun_held | with_reducible apply Mach.modQ_held | with_reducible apply Mach.actOn_held | with_reducible apply Mach.foldl_held | with_reducible apply Mach.foldl_fst_held | with_reducible apply Mach.ite_held | split | refine Mach.of_fst (by with_reducible assumption) ?_ | refine Mach.of_snd (by with_reducible assumption) ?_ | (apply Mach.held_upd; focus (constructor; (dsimp only <;> exact rfl); all_goals (first | with_reducible exact .inl rfl | with_reducible exact rfl | exact .inr (hT.has (by decide))))))

theorem Mach.take_held {T : Scope} {m : Mach} (h : m.Within T) (hT : T.allows 0x400280000000000000804600240080000001800100000000000000000000002bc00) (c : MotionCmd) : (Mach.take m c).Within T := by
  unfold Mach.take
  try dsimp only
  repeat' (first | exact hT.sub (by decide) | intro _ | with_reducible assumption | with_reducible apply Mach.takeAxis_held | with_reducible apply Mach.takeGroup_held | with_reducible apply Mach.ite_held | split)

theorem Mach.takeAll_held {T : Scope} {m : Mach} (h : m.Within T) (hT : T.allows 0x400280000000000000804600240080000001800100000000000000000000002bc00) (n : Nat) : (Mach.takeAll m n).Within T := by
  unfold Mach.takeAll
  try dsimp only
  repeat' (first | exact hT.sub (by decide) | intro _ | with_reducible assumption | with_reducible apply Mach.take_held | with_reducible apply Mach.modAx_held | with_reducible apply Mach.foldl_held | with_reducible apply Mach.foldl_fst_held | (apply Mach.held_upd; focus (constructor; (dsimp only <;> exact rfl); all_goals (first | with_reducible exact .inl rfl | with_reducible exact rfl | exact .inr (hT.has (by decide))))))

theorem Mach.verCapture_held {T : Scope} {m : Mach} (h : m.Within T) (hT : T.allows 0x2000000000000000000000000000000000000000000000000000000000000000) (n : Nat) : (Mach.verCapture m n).Within T := by
  unfold Mach.verCapture
  try dsimp only
  repeat' (first | exact hT.sub (by decide) | intro _ | with_reducible assumption | with_reducible apply Mach.wr_held | with_reducible apply Mach.ite_held | split | refine Mach.of_fst (by with_reducible assumption) ?_ | refine Mach.of_snd (by with_reducible assumption) ?_)

theorem Mach.startRetry_held {T : Scope} {m : Mach} (h : m.Within T) (hT : T.allows 0x800000000000000000000000800000000000000000000000000000000001400) (n : Nat) : (Mach.startRetry m n).Within T := by
  unfold Mach.startRetry
  try dsimp only
  repeat' (first | exact hT.sub (by decide) | intro _ | with_reducible assumption | with_reducible apply Mach.modAx_held | with_reducible apply Mach.setBit_held | with_reducible apply Mach.post_held | split | refine Mach.of_fst (by with_reducible assumption) ?_ | refine Mach.of_snd (by with_reducible assumption) ?_ | (apply Mach.held_upd; focus (constructor; (dsimp only <;> exact rfl); all_goals (first | with_reducible exact .inl rfl | with_reducible exact rfl | exact .inr (hT.has (by decide))))))

theorem Mach.stallReact_held {T : Scope} {m : Mach} (h : m.Within T) (hT : T.allows 0x400080000000000000000000000080000001000100000000000000000000000bc00) (n : Nat) : (Mach.stallReact m n).Within T := by
  unfold Mach.stallReact
  try dsimp only
  repeat' (first | exact hT.sub (by decide) | intro _ | with_reducible assumption | with_reducible apply Mach.estop_held | with_reducible apply Mach.hardStopAt_held | with_reducible apply Mach.startRetry_held | with_reducible apply Mach.post_held | with_reducible apply Mach.ite_held | split | refine Mach.of_fst (by with_reducible assumption) ?_ | refine Mach.of_snd (by with_reducible assumption) ?_)

theorem Mach.stallSlot_held {T : Scope} {m : Mach} (h : m.Within T) (hT : T.allows 0x400180000000000000000000000080000001800100000000000000000000000bc00) (n : Nat) : (Mach.stallSlot m n).Within T := by
  unfold Mach.stallSlot
  try dsimp only
  repeat' (first | exact hT.sub (by decide) | intro _ | with_reducible assumption | with_reducible apply Mach.estop_held | with_reducible apply Mach.modAx_held | with_reducible apply Mach.setBit_held | with_reducible apply Mach.bump_held | with_reducible apply Mach.uncertain_held | with_reducible apply Mach.wr_held | with_reducible apply Mach.post_held | with_reducible apply Mach.homePhase_held | with_reducible apply Mach.stallReact_held | with_reducible apply Mach.ite_held | split | refine Mach.of_fst (by with_reducible assumption) ?_ | refine Mach.of_snd (by with_reducible assumption) ?_ | (apply Mach.held_upd; focus (constructor; (dsimp only <;> exact rfl); all_goals (first | with_reducible exact .inl rfl | with_reducible exact rfl | exact .inr (hT.has (by decide))))))

theorem Mach.ferrSlot_held {T : Scope} {m : Mach} (h : m.Within T) (hT : T.allows 0x400280000000000000000000000080000001000100000000000000000000000bc00) (n : Nat) : (Mach.ferrSlot m n).Within T := by
  unfold Mach.ferrSlot
  try dsimp only
  repeat' (first | exact hT.sub (by decide) | intro _ | with_reducible assumption | with_reducible apply Mach.estop_held | with_reducible apply Mach.wr_held | with_reducible apply Mach.setBit_held | with_reducible apply Mach.post_held | with_reducible apply Mach.modAx_held | with_reducible apply Mach.uncertain_held | with_reducible apply Mach.faultAfterEstop_held | with_reducible apply Mach.ite_held | split | refine Mach.of_fst (by with_reducible assumption) ?_ | refine Mach.of_snd (by with_reducible assumption) ?_ | (apply Mach.held_upd; focus (constructor; (dsimp only <;> exact rfl); all_goals (first | with_reducible exact .inl rfl | with_reducible exact rfl | exact .inr (hT.has (by decide))))))

theorem Mach.bothSlot_held {T : Scope} {m : Mach} (h : m.Within T) (hT : T.allows 0x400080000000000000004200040080000001002100000000000000000008002bc00) (n : Nat) : (Mach.bothSlot m n).Within T := by
  unfold Mach.bothSlot
  try dsimp only
  repeat' (first | exact hT.sub (by decide) | intro _ | with_reducible assumption | with_reducible apply Mach.modAx_held | with_reducible apply Mach.fault_held | with_reducible apply Mach.setBit_held | with_reducible apply Mach.ite_held | split | (apply Mach.held_upd; focus (constructor; (dsimp only <;> exact rfl); all_goals (first | with_reducible exact .inl rfl | with_reducible exact rfl | exact .inr (hT.has (by decide))))))

theorem Mach.autoClear_held {T : Scope} {m : Mach} (h : m.Within T) (hT : T.allows 0x800000000020000000000000000000000001000) (n : Nat) (sideB : Bool) : (Mach.autoClear m n sideB).Within T := by
  unfold Mach.autoClear
  try dsimp only
  repeat' (first | exact hT.sub (by decide) | intro _ | with_reducible assumption | with_reducible apply Mach.clrFld_held | with_reducible apply Mach.post_held | with_reducible apply Mach.ite_held | split)

theorem Mach.softStop_held {T : Scope} {m : Mach} (h : m.Within T) (hT : T.allows 0x400080000000000000000000000080000001000100000000000000000000000bc00) (n : Nat) (hi : Bool) : (Mach.softStop m n hi).Within T := by
  unfold Mach.softStop
  try dsimp only
  repeat' (first | exact hT.sub (by decide) | intro _ | with_reducible assumption | with_reducible apply Mach.post_held | with_reducible apply Mach.estop_held)

theorem Mach.softSlot_held {T : Scope} {m : Mach} (h : m.Within T) (hT : T.allows 0x400080000000000000000000000080000001000100000000000000000000000bc00) (n : Nat) : (Mach.softSlot m n).Within T := by
  unfold Mach.softSlot
  try dsimp only
  repeat' (first | exact hT.sub (by decide) | intro _ | with_reducible assumption | with_reducible apply Mach.modAx_held | with_reducible apply Mach.replanPos_held | with_reducible apply Mach.post_held | with_reducible apply Mach.softStop_held | with_reducible apply Mach.ite_held | split | refine Mach.of_fst (by with_reducible assumption) ?_ | refine Mach.of_snd (by with_reducible assumption) ?_ | (apply Mach.held_upd; focus (constructor; (dsimp only <;> exact rfl); all_goals (first | with_reducible exact .inl rfl | with_reducible exact rfl | exact .inr (hT.has (by decide))))))

theorem Mach.blendSlot_held {T : Scope} {m : Mach} (h : m.Within T) (hT : T.allows 0x400) (n : Nat) : (Mach.blendSlot m n).Within T := by
  unfold Mach.blendSlot
  try dsimp only
  repeat' (first | exact hT.sub (by decide) | intro _ | with_reducible assumption | with_reducible apply Mach.setPosSeg_held | with_reducible apply Mach.ite_held | split | refine Mach.of_fst (by with_reducible assumption) ?_ | refine Mach.of_snd (by with_reducible assumption) ?_)

theorem Mach.planSlot_held {T : Scope} {m : Mach} (h : m.Within T) (hT : T.allows 0x400) (n : Nat) : (Mach.planSlot m n).Within T := by
  unfold Mach.planSlot
  try dsimp only
  repeat' (first | exact hT.sub (by decide) | intro _ | with_reducible assumption | with_reducible apply Mach.modAx_held | split | refine Mach.of_fst (by with_reducible assumption) ?_ | refine Mach.of_snd (by with_reducible assumption) ?_ | (apply Mach.held_upd; focus (constructor; (dsimp only <;> exact rfl); all_goals (first | with_reducible exact .inl rfl | with_reducible exact rfl | exact .inr (hT.has (by decide))))))

theorem Mach.fbSlot_held {T : Scope} {m : Mach} (h : m.Within T) (hT : T.allows 0x4010800000000000000000000000800000010001000000000000000000000009c00) (n : Nat) : (Mach.fbSlot m n).Within T := by
  unfold Mach.fbSlot
  try dsimp only
  repeat' (first | exact hT.sub (by decide) | intro _ | with_reducible assumption | with_reducible apply Mach.modAx_held | with_reducible apply Mach.engage_held | with_reducible apply Mach.setBit_held | split | refine Mach.of_fst (by with_reducible assumption) ?_ | refine Mach.of_snd (by with_reducible assumption) ?_ | (apply Mach.held_upd; focus (constructor; (dsimp only <;> exact rfl); all_goals (first | with_reducible exact .inl rfl | with_reducible exact rfl | exact .inr (hT.has (by decide))))))

theorem Mach.retgtSlot_held {T : Scope} {m : Mach} (h : m.Within T) (hT : T.allows 0x800000000000000000000000800000000001000000000000000000000001400) (n : Nat) : (Mach.retgtSlot m n).Within T := by
  unfold Mach.retgtSlot
  try dsimp only
  repeat' (first | exact hT.sub (by decide) | intro _ | with_reducible assumption | with_reducible apply Mach.modAx_held | with_reducible apply Mach.applyRetgt_held | split | refine Mach.of_fst (by with_reducible assumption) ?_ | refine Mach.of_snd (by with_reducible assumption) ?_ | (apply Mach.held_upd; focus (constructor; (dsimp only <;> exact rfl); all_goals (first | with_reducible exact .inl rfl | with_reducible exact rfl | exact .inr (hT.has (by decide))))))

theorem Mach.checkSlot_held {T : Scope} {m : Mach} (h : m.Within T) (hT : T.allows 0x401380000000000000004200040080000001802100000000000000000008002bc00) (n : Nat) : (Mach.checkSlot m n).Within T := by
  unfold Mach.checkSlot
  try dsimp only
  repeat' (first | exact hT.sub (by decide) | intro _ | with_reducible assumption | with_reducible apply Mach.fbSlot_held | with_reducible apply Mach.bothSlot_held | with_reducible apply Mach.autoClear_held | with_reducible apply Mach.stallSlot_held | with_reducible apply Mach.ferrSlot_held | with_reducible apply Mach.homeSlot_held | with_reducible apply Mach.softSlot_held | with_reducible apply Mach.blendSlot_held)

theorem Mach.regSlots_held {T : Scope} {m : Mach} (h : m.Within T) (hT : T.allows 0x500000800000000000000000000000000000000001000) (n : Nat) : (Mach.regSlots m n).Within T := by
  unfold Mach.regSlots
  try dsimp only
  repeat' (first | exact hT.sub (by decide) | intro _ | with_reducible assumption | with_reducible apply Mach.each_held | with_reducible apply Mach.regMiss_held | with_reducible apply Mach.ite_held | split)

theorem Mach.moveSlot_held {T : Scope} {m : Mach} (h : m.Within T) (hT : T.allows 0x400080000000000000000200000080000001000100000000000000000000000bc00) (n : Nat) (camMissing : Bool) : (Mach.moveSlot m n camMissing).Within T := by
  unfold Mach.moveSlot
  try dsimp only
  repeat' (first | exact hT.sub (by decide) | intro _ | with_reducible assumption | with_reducible apply Mach.pathSlot_held | with_reducible apply Mach.memberSlot_held | with_reducible apply Mach.memberSoft_held | with_reducible apply Mach.followSlot_held | with_reducible apply Mach.planSlot_held | with_reducible apply Mach.ite_held | split | refine Mach.of_fst (by with_reducible assumption) ?_ | refine Mach.of_snd (by with_reducible assumption) ?_)

theorem Mach.axisSlot_held {T : Scope} {m : Mach} (h : m.Within T) (hT : T.allows 0x401380000000000000804650240080000001802100000000000000000008002bc00) (n : Nat) (camMissing : Bool) : (Mach.axisSlot m n camMissing).Within T := by
  unfold Mach.axisSlot
  try dsimp only
  repeat' (first | exact hT.sub (by decide) | intro _ | with_reducible assumption | with_reducible apply Mach.takeAll_held | with_reducible apply Mach.retgtSlot_held | with_reducible apply Mach.checkSlot_held | with_reducible apply Mach.regSlots_held | with_reducible apply Mach.moveSlot_held | with_reducible apply Mach.modAx_held | (apply Mach.held_upd; focus (constructor; (dsimp only <;> exact rfl); all_goals (first | with_reducible exact .inl rfl | with_reducible exact rfl | exact .inr (hT.has (by decide))))))

theorem Mach.startAhead_held {T : Scope} (hT : T.allows 0x800000000000000000000000000000000001c00) (n B : Nat) (g : Seg) (s : Kin) (l : List MotionCmd) :
    ∀ {m : Mach}, m.Within T → (m.startAhead n B g s l).Within T := by
  induction l with
  | nil =>
    intro m h
    rw [Mach.startAhead]
    split
    · exact Mach.enterHold_held h (hT.sub (by decide)) _ _
    · exact Mach.modAx_held h (hT.sub (by decide)) _ _
  | cons c rest ih =>
    intro m h
    rw [Mach.startAhead]
    have h1 := Mach.startMotion_held (Mach.modAx_held h (hT.sub (by decide)) n fun a => { a with ahead := rest, seg := none }) (hT.sub (by decide)) n c B B s
    split
    · exact h1
    · exact ih h1

theorem Mach.segEnd_held {T : Scope} {m : Mach} (h : m.Within T) (hT : T.allows 0x400280000000000000804200040080000001000100000000000000000008002bc00) (n B : Nat) (g : Seg) : (Mach.segEnd m n B g).Within T := by
  unfold Mach.segEnd
  try dsimp only
  repeat' (first | exact hT.sub (by decide) | intro _ | with_reducible assumption | with_reducible apply Mach.retireAll_held | with_reducible apply Mach.modAx_held | with_reducible apply Mach.enterHold_held | with_reducible apply Mach.homeStepEnd_held | with_reducible apply Mach.startAhead_held | with_reducible apply Mach.rampEnd_held | with_reducible apply Mach.ite_held | split | refine Mach.of_fst (by with_reducible assumption) ?_ | refine Mach.of_snd (by with_reducible assumption) ?_ | (apply Mach.held_upd; focus (constructor; (dsimp only <;> exact rfl); all_goals (first | with_reducible exact .inl rfl | with_reducible exact rfl | exact .inr (hT.has (by decide))))))

theorem Mach.reqAtRest_held {T : Scope} {m : Mach} (h : m.Within T) (hT : T.allows 0x400) (n B : Nat) : (Mach.reqAtRest m n B).Within T := by
  unfold Mach.reqAtRest
  try dsimp only
  repeat' (first | exact hT.sub (by decide) | intro _ | with_reducible assumption | with_reducible apply Mach.modAx_held | (apply Mach.held_upd; focus (constructor; (dsimp only <;> exact rfl); all_goals (first | with_reducible exact .inl rfl | with_reducible exact rfl | exact .inr (hT.has (by decide))))))

theorem Mach.hardStop_held {T : Scope} {m0 : Mach} (h : m0.Within T) (hT : T.allows 0x400280000000000000804200040080000001000100000000000000000008002bc00) (n B st : Nat) : (Mach.hardStop m0 n B st).Within T := by
  unfold Mach.hardStop
  try dsimp only
  repeat' (first | exact hT.sub (by decide) | intro _ | with_reducible assumption | with_reducible apply Mach.retireAll_held | with_reducible apply Mach.reqAtRest_held | with_reducible apply Mach.breakPath_held | with_reducible apply Mach.when_held | with_reducible apply Mach.uncertain_held | with_reducible apply Mach.modAx_held | with_reducible apply Mach.homeDone_held | with_reducible apply Mach.rampEnd_held | with_reducible apply Mach.homeCut_held | with_reducible apply Mach.dropMotion_held | with_reducible apply Mach.leaveFollow_held | with_reducible apply Mach.ite_held | split | refine Mach.of_fst (by with_reducible assumption) ?_ | refine Mach.of_snd (by with_reducible assumption) ?_ | (apply Mach.held_upd; focus (constructor; (dsimp only <;> exact rfl); all_goals (first | with_reducible exact .inl rfl | with_reducible exact rfl | exact .inr (hT.has (by decide))))))

theorem Mach.revNote_held {T : Scope} {m : Mach} (h : m.Within T) (hT : T.allows 0x800000000000000000000000000000000001000) (n B : Nat) : (Mach.revNote m n B).Within T := by
  unfold Mach.revNote
  try dsimp only
  repeat' (first | exact hT.sub (by decide) | intro _ | with_reducible assumption | with_reducible apply Mach.postAt_held | with_reducible apply Mach.ite_held | split | refine Mach.of_fst (by with_reducible assumption) ?_ | refine Mach.of_snd (by with_reducible assumption) ?_)

theorem Mach.axisTick_held {T : Scope} {m : Mach} (h : m.Within T) (hT : T.allows 0x400280000000000000804200040080000001000100000000000000000008002bc00) (n : Nat) : (Mach.axisTick m n).Within T := by
  unfold Mach.axisTick
  try dsimp only
  repeat' (first | exact hT.sub (by decide) | intro _ | with_reducible assumption | with_reducible apply Mach.revNote_held | with_reducible apply Mach.hardStop_held | with_reducible apply Mach.modAx_held | with_reducible apply Mach.enterFault_held | with_reducible apply Mach.estop_held | with_reducible apply Mach.leaveFollow_held | with_reducible apply Mach.rampEnd_held | with_reducible apply Mach.segEnd_held | with_reducible apply Mach.ite_held | split | refine Mach.of_fst (by with_reducible assumption) ?_ | refine Mach.of_snd (by with_reducible assumption) ?_ | (apply Mach.held_upd; focus (constructor; (dsimp only <;> exact rfl); all_goals (first | with_reducible exact .inl rfl | with_reducible exact rfl | exact .inr (hT.has (by decide))))))

theorem Mach.snapShow_held {T : Scope} {m : Mach} (h : m.Within T) (hT : T.allows 0x400) (n : Nat) : (Mach.snapShow m n).Within T := by
  unfold Mach.snapShow
  try dsimp only
  repeat' (first | exact hT.sub (by decide) | intro _ | with_reducible assumption | with_reducible apply Mach.modAx_held | (apply Mach.held_upd; focus (constructor; (dsimp only <;> exact rfl); all_goals (first | with_reducible exact .inl rfl | with_reducible exact rfl | exact .inr (hT.has (by decide))))))

theorem Mach.axisSnap_held {T : Scope} {m : Mach} (h : m.Within T) (hT : T.allows 0x400) (n : Nat) : (Mach.axisSnap m n).Within T := by
  unfold Mach.axisSnap
  try dsimp only
  repeat' (first | exact hT.sub (by decide) | intro _ | with_reducible assumption | with_reducible apply Mach.snapShow_held | with_reducible apply Mach.modAx_held | with_reducible apply Mach.take_held | with_reducible apply Mach.ite_held | split | (apply Mach.held_upd; focus (constructor; (dsimp only <;> exact rfl); all_goals (first | with_reducible exact .inl rfl | with_reducible exact rfl | exact .inr (hT.has (by decide))))))

theorem Mach.resyncTick_held {T : Scope} {m : Mach} (h : m.Within T) (hT : T.allows 0x2000000000000008000000000800000000000000000000000000000000001400) (n : Nat) : (Mach.resyncTick m n).Within T := by
  unfold Mach.resyncTick
  try dsimp only
  repeat' (first | exact hT.sub (by decide) | intro _ | with_reducible assumption | with_reducible apply Mach.resync_held | with_reducible apply Mach.modAx_held | with_reducible apply Mach.reassign_held | with_reducible apply Mach.post_held | with_reducible apply Mach.ite_held | split | refine Mach.of_fst (by with_reducible assumption) ?_ | refine Mach.of_snd (by with_reducible assumption) ?_ | (apply Mach.held_upd; focus (constructor; (dsimp only <;> exact rfl); all_goals (first | with_reducible exact .inl rfl | with_reducible exact rfl | exact .inr (hT.has (by decide))))))

theorem Mach.pathSnap_held {T : Scope} {m : Mach} (h : m.Within T) (hT : T.allows 0x1000000000000000000000000000000000000000000) (g : Nat) : (Mach.pathSnap m g).Within T := by
  unfold Mach.pathSnap
  try dsimp only
  repeat' (first | exact hT.sub (by decide) | intro _ | with_reducible assumption | with_reducible apply Mach.setReg_held | with_reducible apply Mach.ite_held | split)

theorem Mach.owedSlot_held {T : Scope} {m : Mach} (h : m.Within T) (hT : T.allows 0x40138000000000000080465024008000000180210000000000000000000a002bc00) (n : Nat) : (Mach.owedSlot m n).Within T := by
  unfold Mach.owedSlot
  try dsimp only
  repeat' (first | exact hT.sub (by decide) | intro _ | with_reducible assumption | with_reducible apply Mach.axisSlot_held | with_reducible apply Mach.ite_held | split | (apply Mach.held_upd; focus (constructor; (dsimp only <;> exact rfl); all_goals (first | with_reducible exact .inl rfl | with_reducible exact rfl | exact .inr (hT.has (by decide))))))

theorem Mach.erPublish_held {T : Scope} {m : Mach} (h : m.Within T) (hT : T.allows 0x1000000000000000000000000000000000020000400) (n : Nat) : (Mach.erPublish m n).Within T := by
  unfold Mach.erPublish
  try dsimp only
  repeat' (first | exact hT.sub (by decide) | intro _ | with_reducible assumption | with_reducible apply Mach.snapShow_held | with_reducible apply Mach.pathSnap_held | with_reducible apply Mach.ite_held | split | refine Mach.of_fst (by with_reducible assumption) ?_ | refine Mach.of_snd (by with_reducible assumption) ?_ | (apply Mach.held_upd; focus (constructor; (dsimp only <;> exact rfl); all_goals (first | with_reducible exact .inl rfl | with_reducible exact rfl | exact .inr (hT.has (by decide))))))

theorem Mach.engineSlot_held {T : Scope} {m : Mach} (h : m.Within T) (hT : T.allows 0x40138000000000000080465034008000000180210000000000000000000a002bc00) (n : Nat) (camMissing : Bool) : (Mach.engineSlot m n camMissing).Within T := by
  unfold Mach.engineSlot
  try dsimp only
  repeat' (first | exact hT.sub (by decide) | intro _ | with_reducible assumption | with_reducible apply Mach.erPublish_held | with_reducible apply Mach.axisSlot_held | with_reducible apply Mach.when_held | with_reducible apply Mach.ite_held | split)

theorem Mach.enginesTick_held {T : Scope} {m : Mach} (h : m.Within T) (hT : T.allows 0x400280000000000000804200240080000001000100000000000000000008002bc00) : (Mach.enginesTick m).Within T := by
  unfold Mach.enginesTick
  try dsimp only
  repeat' (first | exact hT.sub (by decide) | intro _ | with_reducible assumption | with_reducible apply Mach.each_held | with_reducible apply Mach.armTick_held | with_reducible apply Mach.axisTick_held | with_reducible apply Mach.resyncTick_held | with_reducible apply Mach.axisSnap_held | (apply Mach.held_upd; focus (constructor; (dsimp only <;> exact rfl); all_goals (first | with_reducible exact .inl rfl | with_reducible exact rfl | exact .inr (hT.has (by decide))))))

end Sys2Proof.Machine
end

