-- ==== Sys2Proof/Laws/ScopeQueue.lean ====
section
/-!
SUPPORT. What the operations of the queue unit may change. A lemma `f_held` says that `f` keeps the stored data sound and changes nothing outside its mask.
-/

namespace Sys2Proof.Machine

theorem Mach.push_held {T : Scope} {m : Mach} (h : m.Within T) (hT : T.allows 0x800000100000000000000000000000000001800) (q : Nat) (w : Word) : (Mach.push m q w).Within T := by
  unfold Mach.push
  try dsimp only
  repeat' (first | exact hT.sub (by decide) | intro _ | with_reducible assumption | with_reducible apply Mach.setBit_held | with_reducible apply Mach.post_held | with_reducible apply Mach.modQ_held | with_reducible apply Mach.ite_held | split | (apply Mach.held_upd; focus (constructor; (dsimp only <;> exact rfl); all_goals (first | with_reducible exact .inl rfl | with_reducible exact rfl | exact .inr (hT.has (by decide))))))

theorem Mach.publish_held {T : Scope} {m : Mach} (h : m.Within T) (hT : T.allows 0x800) (q : Nat) : (Mach.publish m q).Within T := by
  unfold Mach.publish
  try dsimp only
  repeat' (first | exact hT.sub (by decide) | intro _ | with_reducible assumption | with_reducible apply Mach.modQ_held | with_reducible apply Mach.settle_held | (apply Mach.held_upd; focus (constructor; (dsimp only <;> exact rfl); all_goals (first | with_reducible exact .inl rfl | with_reducible exact rfl | exact .inr (hT.has (by decide))))))

theorem Mach.discard_held {T : Scope} {m : Mach} (h : m.Within T) (hT : T.allows 0x800) (q : Nat) : (Mach.discard m q).Within T := by
  unfold Mach.discard
  try dsimp only
  repeat' (first | exact hT.sub (by decide) | intro _ | with_reducible assumption | with_reducible apply Mach.modQ_held | (apply Mach.held_upd; focus (constructor; (dsimp only <;> exact rfl); all_goals (first | with_reducible exact .inl rfl | with_reducible exact rfl | exact .inr (hT.has (by decide))))))

theorem Mach.writeQDb_held {T : Scope} {m : Mach} (h : m.Within T) (hT : T.allows 0x800) (q v : Nat) : (Mach.writeQDb m q v).Within T := by
  unfold Mach.writeQDb
  try dsimp only
  repeat' (first | exact hT.sub (by decide) | intro _ | with_reducible assumption | with_reducible apply Mach.discard_held | with_reducible apply Mach.publish_held | with_reducible apply Mach.ite_held | split)

theorem Mach.mdb_held {T : Scope} {m : Mach} (h : m.Within T) (hT : T.allows 0x800) (hi : Bool) (mask : Nat) : (Mach.mdb m hi mask).Within T := by
  unfold Mach.mdb
  try dsimp only
  repeat' (first | exact hT.sub (by decide) | intro _ | with_reducible assumption | with_reducible apply Mach.each_held | with_reducible apply Mach.publish_held | with_reducible apply Mach.ite_held | split)

theorem Mach.flush_held {T : Scope} {m : Mach} (h : m.Within T) (hT : T.allows 0x800) (q : Nat) : (Mach.flush m q).Within T := by
  unfold Mach.flush
  try dsimp only
  repeat' (first | exact hT.sub (by decide) | intro _ | with_reducible assumption | with_reducible apply Mach.modQ_held | split | refine Mach.of_fst (by with_reducible assumption) ?_ | refine Mach.of_snd (by with_reducible assumption) ?_ | (apply Mach.held_upd; focus (constructor; (dsimp only <;> exact rfl); all_goals (first | with_reducible exact .inl rfl | with_reducible exact rfl | exact .inr (hT.has (by decide))))))

theorem Mach.qResume_held {T : Scope} {m : Mach} (h : m.Within T) (hT : T.allows 0x800) (q : Nat) : (Mach.qResume m q).Within T := by
  unfold Mach.qResume
  try dsimp only
  repeat' (first | exact hT.sub (by decide) | intro _ | with_reducible assumption | with_reducible apply Mach.modQ_held)

theorem Mach.pause_held {T : Scope} {m : Mach} (h : m.Within T) (hT : T.allows 0x800) (q : Nat) : (Mach.pause m q).Within T := by
  unfold Mach.pause
  try dsimp only
  repeat' (first | exact hT.sub (by decide) | intro _ | with_reducible assumption | with_reducible apply Mach.modQ_held | split | refine Mach.of_fst (by with_reducible assumption) ?_ | refine Mach.of_snd (by with_reducible assumption) ?_ | (apply Mach.held_upd; focus (constructor; (dsimp only <;> exact rfl); all_goals (first | with_reducible exact .inl rfl | with_reducible exact rfl | exact .inr (hT.has (by decide))))))

theorem Mach.writeQCtrl_held {T : Scope} {m : Mach} (h : m.Within T) (hT : T.allows 0x800) (q v : Nat) : (Mach.writeQCtrl m q v).Within T := by
  unfold Mach.writeQCtrl
  try dsimp only
  repeat' (first | exact hT.sub (by decide) | intro _ | with_reducible assumption | with_reducible apply Mach.when_held | with_reducible apply Mach.flush_held | with_reducible apply Mach.qResume_held | with_reducible apply Mach.pause_held)

theorem Mach.halt_held {T : Scope} {m : Mach} (h : m.Within T) (hT : T.allows 0x800000000000000000000000000000000001800) (q why : Nat) : (Mach.halt m q why).Within T := by
  unfold Mach.halt
  try dsimp only
  repeat' (first | exact hT.sub (by decide) | intro _ | with_reducible assumption | with_reducible apply Mach.modQ_held | with_reducible apply Mach.setBit_held | with_reducible apply Mach.post_held | (apply Mach.held_upd; focus (constructor; (dsimp only <;> exact rfl); all_goals (first | with_reducible exact .inl rfl | with_reducible exact rfl | exact .inr (hT.has (by decide))))))

theorem Mach.rtnStart_held {T : Scope} {m : Mach} (h : m.Within T) (hT : T.allows 0x800000100000000000000000000000000001800) (q rtn : Nat) (auto : Bool) : (Mach.rtnStart m q rtn auto).Within T := by
  unfold Mach.rtnStart
  try dsimp only
  repeat' (first | exact hT.sub (by decide) | intro _ | with_reducible assumption | with_reducible apply Mach.modQ_held | with_reducible apply Mach.post_held | with_reducible apply Mach.setBit_held | split | refine Mach.of_fst (by with_reducible assumption) ?_ | refine Mach.of_snd (by with_reducible assumption) ?_ | (apply Mach.held_upd; focus (constructor; (dsimp only <;> exact rfl); all_goals (first | with_reducible exact .inl rfl | with_reducible exact rfl | exact .inr (hT.has (by decide))))))

theorem Mach.rtnEnd_held {T : Scope} {m : Mach} (h : m.Within T) (hT : T.allows 0x800000000000000000000000000000000001800) (q why : Nat) : (Mach.rtnEnd m q why).Within T := by
  unfold Mach.rtnEnd
  try dsimp only
  repeat' (first | exact hT.sub (by decide) | intro _ | with_reducible assumption | with_reducible apply Mach.modQ_held | with_reducible apply Mach.post_held | (apply Mach.held_upd; focus (constructor; (dsimp only <;> exact rfl); all_goals (first | with_reducible exact .inl rfl | with_reducible exact rfl | exact .inr (hT.has (by decide))))))

theorem Mach.postRetired_held {T : Scope} {m : Mach} (h : m.Within T) (hT : T.allows 0x800000900000000000000000000000000001800) (q : Nat) (w : Word) (st ts : Nat) : (Mach.postRetired m q w st ts).Within T := by
  unfold Mach.postRetired
  try dsimp only
  repeat' (first | exact hT.sub (by decide) | intro _ | with_reducible assumption | with_reducible apply Mach.wr_held | with_reducible apply Mach.modQ_held | with_reducible apply Mach.postCpl_held | with_reducible apply Mach.when_held | with_reducible apply Mach.setBit_held | with_reducible apply Mach.post_held | with_reducible apply Mach.halt_held | with_reducible apply Mach.ite_held | split | (apply Mach.held_upd; focus (constructor; (dsimp only <;> exact rfl); all_goals (first | with_reducible exact .inl rfl | with_reducible exact rfl | exact .inr (hT.has (by decide))))))

theorem Mach.homeNote_held {T : Scope} {m : Mach} (h : m.Within T) (hT : T.allows 0x80000000) (q : Nat) (w : Word) (st : Nat) (auto : Bool) : (Mach.homeNote m q w st auto).Within T := by
  unfold Mach.homeNote
  try dsimp only
  repeat' (first | exact hT.sub (by decide) | intro _ | with_reducible assumption | with_reducible apply Mach.homeFail_held | with_reducible apply Mach.ite_held | split | (apply Mach.held_upd; focus (constructor; (dsimp only <;> exact rfl); all_goals (first | with_reducible exact .inl rfl | with_reducible exact rfl | exact .inr (hT.has (by decide))))))

theorem Mach.retireDue_held {T : Scope} {m : Mach} (h : m.Within T) (hT : T.allows 0x800000900000000000000000000000080001800) (q : Nat) : (Mach.retireDue m q).Within T := by
  unfold Mach.retireDue
  try dsimp only
  repeat' (first | exact hT.sub (by decide) | intro _ | with_reducible assumption | with_reducible apply Mach.modQ_held | with_reducible apply Mach.homeNote_held | with_reducible apply Mach.postRetired_held | with_reducible apply Mach.settle_held | with_reducible apply Mach.foldl_held | with_reducible apply Mach.foldl_fst_held | split | refine Mach.of_fst (by with_reducible assumption) ?_ | refine Mach.of_snd (by with_reducible assumption) ?_ | (apply Mach.held_upd; focus (constructor; (dsimp only <;> exact rfl); all_goals (first | with_reducible exact .inl rfl | with_reducible exact rfl | exact .inr (hT.has (by decide))))))

theorem Mach.writeCplRd_held {T : Scope} {m : Mach} (h : m.Within T) (hT : T.allows 0x800000000000000000000000000000000001000) (v : Nat) : (m.writeCplRd v).Within T := by
  have ht := ringFits_taken v h.stored.rings.1 (by decide)
  unfold Mach.writeCplRd
  extract_lets r x room unread x' m1 hwm
  refine Mach.when_held (m := m1) ?_ _ _ fun _ hm => Mach.setBit_held hm F.Q_IRQ_CPL_HWM _ _ (hT.sub (by decide))
  refine Mach.held_rings h (hT.sub (by decide)) ⟨?_, h.stored.rings.2⟩
  show ringFits 1024 r.cpl r.cplWr (if _ then _ else _)
  split
  · rename_i hr
    exact ringFits_back h.stored.rings.1 (Nat.le_trans (Nat.le_of_lt hr.2) ht.2.2.2) (by decide)
  · exact ht

theorem Mach.writeEvtRd_held {T : Scope} {m : Mach} (h : m.Within T) (hT : T.allows 0x800000000000000000000000000000000001000) (v : Nat) : (m.writeEvtRd v).Within T := by
  unfold Mach.writeEvtRd
  dsimp only
  refine Mach.when_held ?_ _ _ ?_
  · have ht : ringFits 4096 m.rings.evt m.rings.evtWr (takenCount m.rings.evtWr m.rings.evt.length v) :=
      ringFits_taken v h.stored.rings.2 (by decide)
    exact Mach.held_rings h (hT.sub (by decide)) (h.stored.rings.withEvtRd _ false ht)
  · intro _ hm
    exact Mach.post_held hm (hT.sub (by decide)) _ _ _

theorem Mach.cplPop_held {T : Scope} {m : Mach} (h : m.Within T) (hT : T.allows 0x1000) : m.cplPop.Within T := by
  unfold Mach.cplPop
  split
  · exact h
  · rename_i hn
    exact Mach.held_rings h (hT.sub (by decide)) ⟨ringFits_pop h.stored.rings.1 hn, h.stored.rings.2⟩

theorem Mach.evtPop_held {T : Scope} {m : Mach} (h : m.Within T) (hT : T.allows 0x1000) : m.evtPop.Within T := by
  unfold Mach.evtPop
  split
  · exact h
  · rename_i hn
    exact Mach.held_rings h (hT.sub (by decide)) ⟨h.stored.rings.1, ringFits_pop h.stored.rings.2 hn⟩

theorem Mach.dropKept_held {T : Scope} {m : Mach} (h : m.Within T) (hT : T.allows 0x800000010000000000000000000000000001c00) (n : Nat) : (Mach.dropKept m n).Within T := by
  unfold Mach.dropKept
  try dsimp only
  repeat' (first | exact hT.sub (by decide) | intro _ | with_reducible assumption | with_reducible apply Mach.keptEnd_held | with_reducible apply Mach.modAx_held | split | refine Mach.of_fst (by with_reducible assumption) ?_ | refine Mach.of_snd (by with_reducible assumption) ?_ | (apply Mach.held_upd; focus (constructor; (dsimp only <;> exact rfl); all_goals (first | with_reducible exact .inl rfl | with_reducible exact rfl | exact .inr (hT.has (by decide))))))

theorem Mach.armUnbegin_held {T : Scope} {m : Mach} (h : m.Within T) (hT : T.allows 0x2000) (qs : List Nat) (g : Nat) : (Mach.armUnbegin m qs g).Within T := by
  unfold Mach.armUnbegin
  try dsimp only
  repeat' (first | exact hT.sub (by decide) | intro _ | with_reducible assumption | with_reducible apply Mach.modArm_held | with_reducible apply Mach.ite_held | split | refine Mach.of_fst (by with_reducible assumption) ?_ | refine Mach.of_snd (by with_reducible assumption) ?_ | (apply Mach.held_upd; focus (constructor; (dsimp only <;> exact rfl); all_goals (first | with_reducible exact .inl rfl | with_reducible exact rfl | exact .inr (hT.has (by decide))))))

theorem Mach.axisUnbegin_held {T : Scope} {m : Mach} (h : m.Within T) (hT : T.allows 0x10000000000000000000000000000400) (qs : List Nat) (n : Nat) : (Mach.axisUnbegin m qs n).Within T := by
  unfold Mach.axisUnbegin
  try dsimp only
  repeat' (first | exact hT.sub (by decide) | intro _ | with_reducible assumption | with_reducible apply Mach.modAx_held | with_reducible apply Mach.when_held | with_reducible apply Mach.wr_held | (apply Mach.held_upd; focus (constructor; (dsimp only <;> exact rfl); all_goals (first | with_reducible exact .inl rfl | with_reducible exact rfl | exact .inr (hT.has (by decide))))))

theorem Mach.abortQueue_held {T : Scope} {m : Mach} (h : m.Within T) (hT : T.allows 0x10000000000000000000000000000000800) (q : Nat) (r : AbortRun) : (Mach.abortQueue m q r).Within T := by
  unfold Mach.abortQueue
  try dsimp only
  repeat' (first | exact hT.sub (by decide) | intro _ | with_reducible assumption | with_reducible apply Mach.modQ_held | with_reducible apply Mach.abort_held | with_reducible apply Mach.wr_held | (apply Mach.held_upd; focus (constructor; (dsimp only <;> exact rfl); all_goals (first | with_reducible exact .inl rfl | with_reducible exact rfl | exact .inr (hT.has (by decide))))))

theorem Mach.abortEnd_held {T : Scope} {m : Mach} (h : m.Within T) (hT : T.allows 0x800010900000000000000000000000080001800) (q : Nat) : (Mach.abortEnd m q).Within T := by
  unfold Mach.abortEnd
  try dsimp only
  repeat' (first | exact hT.sub (by decide) | intro _ | with_reducible assumption | with_reducible apply Mach.abort_held | with_reducible apply Mach.modQ_held | with_reducible apply Mach.homeNote_held | with_reducible apply Mach.postRetired_held | with_reducible apply Mach.wr_held | with_reducible apply Mach.setBit_held | with_reducible apply Mach.postAt_held | with_reducible apply Mach.postCpl_held | with_reducible apply Mach.when_held | with_reducible apply Mach.halt_held | with_reducible apply Mach.foldl_held | with_reducible apply Mach.foldl_fst_held | with_reducible apply Mach.ite_held | split | refine Mach.of_fst (by with_reducible assumption) ?_ | refine Mach.of_snd (by with_reducible assumption) ?_ | (apply Mach.held_upd; focus (constructor; (dsimp only <;> exact rfl); all_goals (first | with_reducible exact .inl rfl | with_reducible exact rfl | exact .inr (hT.has (by decide))))))

theorem Mach.abortsDue_held {T : Scope} {m : Mach} (h : m.Within T) (hT : T.allows 0x800010900000000000000000000000080001800) : (Mach.abortsDue m).Within T := by
  unfold Mach.abortsDue
  try dsimp only
  repeat' (first | exact hT.sub (by decide) | intro _ | with_reducible assumption | with_reducible apply Mach.forAll_held | with_reducible apply Mach.abortEnd_held)

theorem Mach.abort_held {T : Scope} {m : Mach} (h : m.Within T) (hT : T.allows 0x400080000000000000000000000080001091000100000000000000000008000bc00) (qs : List Nat) (tag scope : Nat) (halt : Bool) (ago span : Nat) : (Mach.abort m qs tag scope halt ago span).Within T := by
  unfold Mach.abort
  try dsimp only
  repeat' (first | exact hT.sub (by decide) | intro _ | with_reducible assumption | with_reducible apply Mach.halt_held | with_reducible apply Mach.forAll_held | with_reducible apply Mach.bump_held | with_reducible apply Mach.retireDue_held | with_reducible apply Mach.abortQueue_held | with_reducible apply Mach.each_held | with_reducible apply Mach.axisUnbegin_held | with_reducible apply Mach.armUnbegin_held | with_reducible apply Mach.dropKept_held | with_reducible apply Mach.estopAll_held | with_reducible apply Mach.endEnable_held | with_reducible apply Mach.abortsDue_held | with_reducible apply Mach.ite_held | split)

theorem Mach.abortsOverlap_held {T : Scope} {m : Mach} (h : m.Within T) (hT : T.allows 0x800) : (Mach.abortsOverlap m).Within T := by
  unfold Mach.abortsOverlap
  try dsimp only
  repeat' (first | exact hT.sub (by decide) | intro _ | with_reducible assumption | with_reducible apply Mach.abort_held | (apply Mach.held_upd; focus (constructor; (dsimp only <;> exact rfl); all_goals (first | with_reducible exact .inl rfl | with_reducible exact rfl | exact .inr (hT.has (by decide))))))

theorem Mach.abortsDelay_held {T : Scope} {m : Mach} (h : m.Within T) (hT : T.allows 0x800) (dur : Nat) : (Mach.abortsDelay m dur).Within T := by
  unfold Mach.abortsDelay
  try dsimp only
  repeat' (first | exact hT.sub (by decide) | intro _ | with_reducible assumption | with_reducible apply Mach.abort_held | with_reducible apply Mach.ite_held | split | (apply Mach.held_upd; focus (constructor; (dsimp only <;> exact rfl); all_goals (first | with_reducible exact .inl rfl | with_reducible exact rfl | exact .inr (hT.has (by decide))))))

theorem Mach.abortByWrite_held {T : Scope} {m : Mach} (h : m.Within T) (hT : T.allows 0x400080000000000000000000000080001091000100000000000000000008000bc00) (qs : List Nat) (tag scope : Nat) (halt : Bool) : (Mach.abortByWrite m qs tag scope halt).Within T := by
  unfold Mach.abortByWrite
  try dsimp only
  repeat' (first | exact hT.sub (by decide) | intro _ | with_reducible assumption | with_reducible apply Mach.abort_held | with_reducible apply Mach.halt_held)

theorem Mach.writeQAbort_held {T : Scope} {m : Mach} (h : m.Within T) (hT : T.allows 0x400080000000000000000000000080001091000100000000000000000008000bc00) (q v : Nat) : (Mach.writeQAbort m q v).Within T := by
  unfold Mach.writeQAbort
  try dsimp only
  repeat' (first | exact hT.sub (by decide) | intro _ | with_reducible assumption | with_reducible apply Mach.abortByWrite_held | with_reducible apply Mach.ite_held | split)

theorem Mach.writeAbortX_held {T : Scope} {m : Mach} (h : m.Within T) (hT : T.allows 0x400080000000000000000000000080041091000100000000000000000008000bc00) (v : Nat) : (Mach.writeAbortX m v).Within T := by
  unfold Mach.writeAbortX
  try dsimp only
  repeat' (first | exact hT.sub (by decide) | intro _ | with_reducible assumption | with_reducible apply Mach.abortByWrite_held | with_reducible apply Mach.setBit_held | split | refine Mach.of_fst (by with_reducible assumption) ?_ | refine Mach.of_snd (by with_reducible assumption) ?_)

theorem Mach.abortInput_held {T : Scope} {m : Mach} (h : m.Within T) (hT : T.allows 0x400080000000000000000000000080041091000100000000000000000008000bc00) (k : Nat) : (Mach.abortInput m k).Within T := by
  unfold Mach.abortInput
  try dsimp only
  repeat' (first | exact hT.sub (by decide) | intro _ | with_reducible assumption | with_reducible apply Mach.abort_held | with_reducible apply Mach.setBit_held | with_reducible apply Mach.ite_held | split | refine Mach.of_fst (by with_reducible assumption) ?_ | refine Mach.of_snd (by with_reducible assumption) ?_)

end Sys2Proof.Machine
end

