-- ==== Sys2Proof/Laws/ScopeCoil.lean ====
section
/-!
SUPPORT. What the operations of bridges, coils, converters and observers may change. A lemma `f_held` says that `f` keeps the stored data sound and changes nothing outside its mask.
-/

namespace Sys2Proof.Machine

theorem Mach.forceBank_held {T : Scope} {m : Mach} (h : m.Within T) (hT : T.allows 0x220000) (b : Nat) (was : Bool) : (Mach.forceBank m b was).Within T := by
  unfold Mach.forceBank
  try dsimp only
  repeat' (first | exact hT.sub (by decide) | intro _ | with_reducible assumption | with_reducible apply Mach.modBank_held | with_reducible apply Mach.modCoil_held | with_reducible apply Mach.cutBank_held | with_reducible apply Mach.foldl_held | with_reducible apply Mach.foldl_fst_held | with_reducible apply Mach.ite_held | split | (apply Mach.held_upd; focus (constructor; (dsimp only <;> exact rfl); all_goals (first | with_reducible exact .inl rfl | with_reducible exact rfl | exact .inr (hT.has (by decide))))))

theorem Mach.tailBank_held {T : Scope} {m : Mach} (h : m.Within T) (hT : T.allows 0x20000) (b : Nat) : (Mach.tailBank m b).Within T := by
  unfold Mach.tailBank
  try dsimp only
  repeat' (first | exact hT.sub (by decide) | intro _ | with_reducible assumption | with_reducible apply Mach.modCoil_held | with_reducible apply Mach.foldl_held | with_reducible apply Mach.foldl_fst_held | (apply Mach.held_upd; focus (constructor; (dsimp only <;> exact rfl); all_goals (first | with_reducible exact .inl rfl | with_reducible exact rfl | exact .inr (hT.has (by decide))))))

theorem Mach.faultBank_held {T : Scope} {m : Mach} (h : m.Within T) (hT : T.allows 0x400080000000000000004200040080000001000100000000000000000008002bc00) (b cause : Nat) : (Mach.faultBank m b cause).Within T := by
  unfold Mach.faultBank
  try dsimp only
  repeat' (first | exact hT.sub (by decide) | intro _ | with_reducible assumption | with_reducible apply Mach.forAll_held | with_reducible apply Mach.fault_held)

theorem Mach.writeSafe_held {T : Scope} {m : Mach} (h : m.Within T) (hT : T.allows 0x18000000000000000000000000000000000000000000000200000) (b v : Nat) : (Mach.writeSafe m b v).Within T := by
  unfold Mach.writeSafe
  try dsimp only
  repeat' (first | exact hT.sub (by decide) | intro _ | with_reducible assumption | with_reducible apply Mach.modBank_held | with_reducible apply Mach.setReg_held | with_reducible apply Mach.setBit_held | with_reducible apply Mach.ite_held | split | (apply Mach.held_upd; focus (constructor; (dsimp only <;> exact rfl); all_goals (first | with_reducible exact .inl rfl | with_reducible exact rfl | exact .inr (hT.has (by decide))))))

theorem Mach.safeCheck_held {T : Scope} {m : Mach} (h : m.Within T) (hT : T.allows 0x18000000000000800000000000000000000000000000000201000) (b : Nat) (upset : Option (Nat × Nat)) : (Mach.safeCheck m b upset).Within T := by
  unfold Mach.safeCheck
  try dsimp only
  repeat' (first | exact hT.sub (by decide) | intro _ | with_reducible assumption | with_reducible apply Mach.modBank_held | with_reducible apply Mach.setBit_held | with_reducible apply Mach.post_held | with_reducible apply Mach.setReg_held | with_reducible apply Mach.ite_held | split | refine Mach.of_fst (by with_reducible assumption) ?_ | refine Mach.of_snd (by with_reducible assumption) ?_ | (apply Mach.held_upd; focus (constructor; (dsimp only <;> exact rfl); all_goals (first | with_reducible exact .inl rfl | with_reducible exact rfl | exact .inr (hT.has (by decide))))))

theorem Mach.debugHalt_held {T : Scope} {m : Mach} (h : m.Within T) (hT : T.allows 0x400080000000004000004200040080000001000100000000000000000008122bc00) : (Mach.debugHalt m).Within T := by
  unfold Mach.debugHalt
  try dsimp only
  repeat' (first | exact hT.sub (by decide) | intro _ | with_reducible assumption | with_reducible apply Mach.each_held | with_reducible apply Mach.forceBank_held | with_reducible apply Mach.faultBank_held | with_reducible apply Mach.setBit_held | with_reducible apply Mach.post_held | with_reducible apply Mach.ite_held | split | (apply Mach.held_upd; focus (constructor; (dsimp only <;> exact rfl); all_goals (first | with_reducible exact .inl rfl | with_reducible exact rfl | exact .inr (hT.has (by decide))))))

theorem Mach.debugHaltEnd_held {T : Scope} {m : Mach} (h : m.Within T) (hT : T.allows 0x1000000) : (Mach.debugHaltEnd m).Within T := by
  unfold Mach.debugHaltEnd
  try dsimp only
  repeat' (first | exact hT.sub (by decide) | intro _ | with_reducible assumption | (apply Mach.held_upd; focus (constructor; (dsimp only <;> exact rfl); all_goals (first | with_reducible exact .inl rfl | with_reducible exact rfl | exact .inr (hT.has (by decide))))))

theorem Mach.clockStop_held {T : Scope} {m : Mach} (h : m.Within T) (hT : T.allows 0x220000) (b : Nat) : (Mach.clockStop m b).Within T := by
  unfold Mach.clockStop
  try dsimp only
  repeat' (first | exact hT.sub (by decide) | intro _ | with_reducible assumption | with_reducible apply Mach.modBank_held | with_reducible apply Mach.forceBank_held | with_reducible apply Mach.ite_held | split | (apply Mach.held_upd; focus (constructor; (dsimp only <;> exact rfl); all_goals (first | with_reducible exact .inl rfl | with_reducible exact rfl | exact .inr (hT.has (by decide))))))

theorem Mach.clockStopEnd_held {T : Scope} {m : Mach} (h : m.Within T) (hT : T.allows 0x400080000000004000004200040080000001000100000000000000000008022bc00) (b : Nat) : (Mach.clockStopEnd m b).Within T := by
  unfold Mach.clockStopEnd
  try dsimp only
  repeat' (first | exact hT.sub (by decide) | intro _ | with_reducible assumption | with_reducible apply Mach.modBank_held | with_reducible apply Mach.faultBank_held | with_reducible apply Mach.setBit_held | with_reducible apply Mach.post_held | with_reducible apply Mach.ite_held | split | (apply Mach.held_upd; focus (constructor; (dsimp only <;> exact rfl); all_goals (first | with_reducible exact .inl rfl | with_reducible exact rfl | exact .inr (hT.has (by decide))))))

theorem Mach.shortCircuit_held {T : Scope} {m : Mach} (h : m.Within T) (hT : T.allows 0x400080000000008000004200040080000001000100000000000000000008002bc00) (n : Nat) (coilB : Bool) : (Mach.shortCircuit m n coilB).Within T := by
  unfold Mach.shortCircuit
  try dsimp only
  repeat' (first | exact hT.sub (by decide) | intro _ | with_reducible assumption | with_reducible apply Mach.wr_held | with_reducible apply Mach.cutCoil_held | with_reducible apply Mach.fault_held | with_reducible apply Mach.post_held | split)

theorem Mach.bfaultClear_held {T : Scope} {m : Mach} (h : m.Within T) (hT : T.allows 0x80000000000000000000000000000000000000000000000000000) (b mask : Nat) : (Mach.bfaultClear m b mask).Within T := by
  unfold Mach.bfaultClear
  try dsimp only
  repeat' (first | exact hT.sub (by decide) | intro _ | with_reducible assumption | with_reducible apply Mach.each_held | with_reducible apply Mach.wr_held | with_reducible apply Mach.ite_held | split)

theorem Mach.gateLow_held {T : Scope} {m : Mach} (h : m.Within T) (hT : T.allows 0x400080000000004000004200040080000001000100000000000000000008022bc00) (b : Nat) : (Mach.gateLow m b).Within T := by
  unfold Mach.gateLow
  try dsimp only
  repeat' (first | exact hT.sub (by decide) | intro _ | with_reducible assumption | with_reducible apply Mach.modBank_held | with_reducible apply Mach.cutBank_held | with_reducible apply Mach.setBit_held | with_reducible apply Mach.faultBank_held | with_reducible apply Mach.post_held | (apply Mach.held_upd; focus (constructor; (dsimp only <;> exact rfl); all_goals (first | with_reducible exact .inl rfl | with_reducible exact rfl | exact .inr (hT.has (by decide))))))

theorem Mach.gateGood_held {T : Scope} {m : Mach} (h : m.Within T) (hT : T.allows 0x200000) (b : Nat) : (Mach.gateGood m b).Within T := by
  unfold Mach.gateGood
  try dsimp only
  repeat' (first | exact hT.sub (by decide) | intro _ | with_reducible assumption | with_reducible apply Mach.modBank_held | (apply Mach.held_upd; focus (constructor; (dsimp only <;> exact rfl); all_goals (first | with_reducible exact .inl rfl | with_reducible exact rfl | exact .inr (hT.has (by decide))))))

theorem Mach.restartBank_held {T : Scope} {m : Mach} (h : m.Within T) (hT : T.allows 0x220000) (b ref : Nat) : (Mach.restartBank m b ref).Within T := by
  unfold Mach.restartBank
  try dsimp only
  repeat' (first | exact hT.sub (by decide) | intro _ | with_reducible assumption | with_reducible apply Mach.modBank_held | with_reducible apply Mach.each_held | with_reducible apply Mach.modCoil_held | (apply Mach.held_upd; focus (constructor; (dsimp only <;> exact rfl); all_goals (first | with_reducible exact .inl rfl | with_reducible exact rfl | exact .inr (hT.has (by decide))))))

theorem Mach.writePeriod_held {T : Scope} {m : Mach} (h : m.Within T) (hT : T.allows 0x42000000000000000000000000000000000000000000000220000) (b v : Nat) : (Mach.writePeriod m b v).Within T := by
  unfold Mach.writePeriod
  try dsimp only
  repeat' (first | exact hT.sub (by decide) | intro _ | with_reducible assumption | with_reducible apply Mach.setReg_held | with_reducible apply Mach.restartBank_held | with_reducible apply Mach.setBit_held | with_reducible apply Mach.ite_held | split)

theorem Mach.writeChOfs_held {T : Scope} {m : Mach} (h : m.Within T) (hT : T.allows 0x240000000000000000000000000000000000000000000000220000) (b k v : Nat) : (Mach.writeChOfs m b k v).Within T := by
  unfold Mach.writeChOfs
  try dsimp only
  repeat' (first | exact hT.sub (by decide) | intro _ | with_reducible assumption | with_reducible apply Mach.setReg_held | with_reducible apply Mach.restartBank_held | with_reducible apply Mach.setBit_held | with_reducible apply Mach.ite_held | split)

theorem Mach.syncLock_held {T : Scope} {m : Mach} (h : m.Within T) (hT : T.allows 0x10000000000000000800000000000000000000000000000000001000) : (Mach.syncLock m).Within T := by
  unfold Mach.syncLock
  try dsimp only
  repeat' (first | exact hT.sub (by decide) | intro _ | with_reducible assumption | with_reducible apply Mach.setBit_held | with_reducible apply Mach.post_held | with_reducible apply Mach.clrFld_held | with_reducible apply Mach.ite_held | split)

theorem Mach.writePwCfg_held {T : Scope} {m : Mach} (h : m.Within T) (hT : T.allows 0x10041000000000000800000000000000000000000000000000221000) (b v : Nat) : (Mach.writePwCfg m b v).Within T := by
  unfold Mach.writePwCfg
  try dsimp only
  repeat' (first | exact hT.sub (by decide) | intro _ | with_reducible assumption | with_reducible apply Mach.setReg_held | with_reducible apply Mach.syncLock_held | with_reducible apply Mach.restartBank_held | with_reducible apply Mach.setBit_held | with_reducible apply Mach.ite_held | split)

theorem Mach.periodApply_held {T : Scope} {m : Mach} (h : m.Within T) (hT : T.allows 0x4) (K : Nat) : (Mach.periodApply m K).Within T := by
  unfold Mach.periodApply
  try dsimp only
  repeat' (first | exact hT.sub (by decide) | intro _ | with_reducible assumption | with_reducible apply Mach.ite_held | split | refine Mach.of_fst (by with_reducible assumption) ?_ | refine Mach.of_snd (by with_reducible assumption) ?_ | (apply Mach.held_upd; focus (constructor; (dsimp only <;> exact rfl); all_goals (first | with_reducible exact .inl rfl | with_reducible exact rfl | exact .inr (hT.has (by decide))))))

theorem Mach.periodEnd_held {T : Scope} {m : Mach} (h : m.Within T) (hT : T.allows 0x800000000000000000000000000000000021000) (K : Nat) : (Mach.periodEnd m K).Within T := by
  unfold Mach.periodEnd
  try dsimp only
  repeat' (first | exact hT.sub (by decide) | intro _ | with_reducible assumption | with_reducible apply Mach.modCoil_held | with_reducible apply Mach.post_held | with_reducible apply Mach.ite_held | split | refine Mach.of_fst (by with_reducible assumption) ?_ | refine Mach.of_snd (by with_reducible assumption) ?_ | (apply Mach.held_upd; focus (constructor; (dsimp only <;> exact rfl); all_goals (first | with_reducible exact .inl rfl | with_reducible exact rfl | exact .inr (hT.has (by decide))))))

theorem Mach.syncMeasure_held {T : Scope} {m : Mach} (h : m.Within T) (hT : T.allows 0x10000000000000000800000000000000000000000000000000601000) (b : Nat) : (Mach.syncMeasure m b).Within T := by
  unfold Mach.syncMeasure
  try dsimp only
  repeat' (first | exact hT.sub (by decide) | intro _ | with_reducible assumption | with_reducible apply Mach.modBank_held | with_reducible apply Mach.syncLock_held | with_reducible apply Mach.wr_held | with_reducible apply Mach.ite_held | split | refine Mach.of_fst (by with_reducible assumption) ?_ | refine Mach.of_snd (by with_reducible assumption) ?_ | (apply Mach.held_upd; focus (constructor; (dsimp only <;> exact rfl); all_goals (first | with_reducible exact .inl rfl | with_reducible exact rfl | exact .inr (hT.has (by decide))))))

theorem Mach.trigEvent_held {T : Scope} {m : Mach} (h : m.Within T) (hT : T.allows 0x200000) (b src ch t : Nat) : (Mach.trigEvent m b src ch t).Within T := by
  unfold Mach.trigEvent
  try dsimp only
  repeat' (first | exact hT.sub (by decide) | intro _ | with_reducible assumption | with_reducible apply Mach.modBank_held | with_reducible apply Mach.ite_held | split | (apply Mach.held_upd; focus (constructor; (dsimp only <;> exact rfl); all_goals (first | with_reducible exact .inl rfl | with_reducible exact rfl | exact .inr (hT.has (by decide))))))

theorem Mach.trigMoved_held {T : Scope} {m : Mach} (h : m.Within T) (hT : T.allows 0x200000) (b ch was : Nat) : (Mach.trigMoved m b ch was).Within T := by
  unfold Mach.trigMoved
  try dsimp only
  repeat' (first | exact hT.sub (by decide) | intro _ | with_reducible assumption | with_reducible apply Mach.modBank_held | (apply Mach.held_upd; focus (constructor; (dsimp only <;> exact rfl); all_goals (first | with_reducible exact .inl rfl | with_reducible exact rfl | exact .inr (hT.has (by decide))))))

theorem Mach.periodStart_held {T : Scope} {m : Mach} (h : m.Within T) (hT : T.allows 0x400000000000000000000010440000000000000800000000000000000000000000000000621004) (K : Nat) : (Mach.periodStart m K).Within T := by
  unfold Mach.periodStart
  try dsimp only
  repeat' (first | exact hT.sub (by decide) | intro _ | with_reducible assumption | with_reducible apply Mach.periodEnd_held | with_reducible apply Mach.periodApply_held | with_reducible apply Mach.modBank_held | with_reducible apply Mach.trigEvent_held | with_reducible apply Mach.syncMeasure_held | with_reducible apply Mach.bump_held | with_reducible apply Mach.take_held | with_reducible apply Mach.modCoil_held | with_reducible apply Mach.setReg_held | with_reducible apply Mach.ite_held | split | refine Mach.of_fst (by with_reducible assumption) ?_ | refine Mach.of_snd (by with_reducible assumption) ?_ | (apply Mach.held_upd; focus (constructor; (dsimp only <;> exact rfl); all_goals (first | with_reducible exact .inl rfl | with_reducible exact rfl | exact .inr (hT.has (by decide))))))

theorem Mach.peakTrip_held {T : Scope} {m : Mach} (h : m.Within T) (hT : T.allows 0x40000000000000800000000000000000000000000000000221000) (K cnt : Nat) : (Mach.peakTrip m K cnt).Within T := by
  unfold Mach.peakTrip
  try dsimp only
  repeat' (first | exact hT.sub (by decide) | intro _ | with_reducible assumption | with_reducible apply Mach.modCoil_held | with_reducible apply Mach.take_held | with_reducible apply Mach.trigMoved_held | with_reducible apply Mach.trigEvent_held | with_reducible apply Mach.bump_held | with_reducible apply Mach.post_held | with_reducible apply Mach.ite_held | split | refine Mach.of_fst (by with_reducible assumption) ?_ | refine Mach.of_snd (by with_reducible assumption) ?_ | (apply Mach.held_upd; focus (constructor; (dsimp only <;> exact rfl); all_goals (first | with_reducible exact .inl rfl | with_reducible exact rfl | exact .inr (hT.has (by decide))))))

theorem Mach.testsCut_held {T : Scope} {m : Mach} (h : m.Within T) (hT : T.allows 0x80000000) (banks : Nat) : (Mach.testsCut m banks).Within T := by
  unfold Mach.testsCut
  try dsimp only
  repeat' (first | exact hT.sub (by decide) | intro _ | with_reducible assumption | with_reducible apply Mach.ite_held | split | (apply Mach.held_upd; focus (constructor; (dsimp only <;> exact rfl); all_goals (first | with_reducible exact .inl rfl | with_reducible exact rfl | exact .inr (hT.has (by decide))))))

theorem Mach.tripAct_held {T : Scope} {m : Mach} (h : m.Within T) (hT : T.allows 0x400080000000300000004200040080000001000100000000000000000008022bc00) : (Mach.tripAct m).Within T := by
  unfold Mach.tripAct
  try dsimp only
  repeat' (first | exact hT.sub (by decide) | intro _ | with_reducible assumption | with_reducible apply Mach.testsCut_held | with_reducible apply Mach.setBit_held | with_reducible apply Mach.wr_held | with_reducible apply Mach.bump_held | with_reducible apply Mach.each_held | with_reducible apply Mach.forceBank_held | with_reducible apply Mach.faultBank_held | with_reducible apply Mach.postAt_held | with_reducible apply Mach.ite_held | split)

theorem Mach.tripLevels_held {T : Scope} {m : Mach} (h : m.Within T) (hT : T.allows 0x400080000000300000004200040080000001000100000000000000000008022bc20) (a b : Bool) : (Mach.tripLevels m a b).Within T := by
  unfold Mach.tripLevels
  try dsimp only
  repeat' (first | exact hT.sub (by decide) | intro _ | with_reducible assumption | with_reducible apply Mach.tripAct_held | (apply Mach.held_upd; focus (constructor; (dsimp only <;> exact rfl); all_goals (first | with_reducible exact .inl rfl | with_reducible exact rfl | exact .inr (hT.has (by decide))))))

theorem Mach.tripClear_held {T : Scope} {m : Mach} (h : m.Within T) (hT : T.allows 0x3000000000000000800000000000000000000000000000000021000) : (Mach.tripClear m).Within T := by
  unfold Mach.tripClear
  try dsimp only
  repeat' (first | exact hT.sub (by decide) | intro _ | with_reducible assumption | with_reducible apply Mach.setBit_held | with_reducible apply Mach.post_held | with_reducible apply Mach.each_held | with_reducible apply Mach.tailBank_held | with_reducible apply Mach.clrFld_held | with_reducible apply Mach.wr_held | with_reducible apply Mach.ite_held | split)

theorem Mach.tripDisc_held {T : Scope} {m : Mach} (h : m.Within T) (hT : T.allows 0x1000000000000000800000000000000000000000000000000001000) : (Mach.tripDisc m).Within T := by
  unfold Mach.tripDisc
  try dsimp only
  repeat' (first | exact hT.sub (by decide) | intro _ | with_reducible assumption | with_reducible apply Mach.setBit_held | with_reducible apply Mach.post_held | with_reducible apply Mach.ite_held | split)

theorem Mach.takeRole_held {T : Scope} {m : Mach} (h : m.Within T) (hT : T.allows 0x400000) : (Mach.takeRole m).Within T := by
  unfold Mach.takeRole
  try dsimp only
  repeat' (first | exact hT.sub (by decide) | intro _ | with_reducible assumption | (apply Mach.held_upd; focus (constructor; (dsimp only <;> exact rfl); all_goals (first | with_reducible exact .inl rfl | with_reducible exact rfl | exact .inr (hT.has (by decide))))))

theorem Mach.frameBegin_held {T : Scope} {m : Mach} (h : m.Within T) (hT : T.allows 0x400004) : (Mach.frameBegin m).Within T := by
  unfold Mach.frameBegin
  try dsimp only
  repeat' (first | exact hT.sub (by decide) | intro _ | with_reducible assumption | with_reducible apply Mach.when_held | with_reducible apply Mach.takeRole_held | (apply Mach.held_upd; focus (constructor; (dsimp only <;> exact rfl); all_goals (first | with_reducible exact .inl rfl | with_reducible exact rfl | exact .inr (hT.has (by decide))))))

theorem Mach.syncDrive_held {T : Scope} {m : Mach} (h : m.Within T) (hT : T.allows 0x400004) : (Mach.syncDrive m).Within T := by
  unfold Mach.syncDrive
  try dsimp only
  repeat' (first | exact hT.sub (by decide) | intro _ | with_reducible assumption | with_reducible apply Mach.frameBegin_held | with_reducible apply Mach.ite_held | split | (apply Mach.held_upd; focus (constructor; (dsimp only <;> exact rfl); all_goals (first | with_reducible exact .inl rfl | with_reducible exact rfl | exact .inr (hT.has (by decide))))))

theorem Mach.frameCheck_held {T : Scope} {m : Mach} (h : m.Within T) (hT : T.allows 0x10000000000000000800000000000000000000000000000000201000) (b : Nat) : (Mach.frameCheck m b).Within T := by
  unfold Mach.frameCheck
  try dsimp only
  repeat' (first | exact hT.sub (by decide) | intro _ | with_reducible assumption | with_reducible apply Mach.modBank_held | with_reducible apply Mach.setBit_held | with_reducible apply Mach.post_held | with_reducible apply Mach.ite_held | split | (apply Mach.held_upd; focus (constructor; (dsimp only <;> exact rfl); all_goals (first | with_reducible exact .inl rfl | with_reducible exact rfl | exact .inr (hT.has (by decide))))))

theorem Mach.syncEdge_held {T : Scope} {m : Mach} (h : m.Within T) (hT : T.allows 0x10000000000000000800000000000000000000000000000000601004) (r : Nat) : (Mach.syncEdge m r).Within T := by
  unfold Mach.syncEdge
  try dsimp only
  repeat' (first | exact hT.sub (by decide) | intro _ | with_reducible assumption | with_reducible apply Mach.setBit_held | with_reducible apply Mach.post_held | with_reducible apply Mach.frameBegin_held | with_reducible apply Mach.each_held | with_reducible apply Mach.frameCheck_held | with_reducible apply Mach.ite_held | split | (apply Mach.held_upd; focus (constructor; (dsimp only <;> exact rfl); all_goals (first | with_reducible exact .inl rfl | with_reducible exact rfl | exact .inr (hT.has (by decide))))))

theorem Mach.syncLost_held {T : Scope} {m : Mach} (h : m.Within T) (hT : T.allows 0x10000000000000000800000000000000000000000000000000601000) : (Mach.syncLost m).Within T := by
  unfold Mach.syncLost
  try dsimp only
  repeat' (first | exact hT.sub (by decide) | intro _ | with_reducible assumption | with_reducible apply Mach.each_held | with_reducible apply Mach.modBank_held | with_reducible apply Mach.clrFld_held | with_reducible apply Mach.setBit_held | with_reducible apply Mach.post_held | with_reducible apply Mach.ite_held | split | (apply Mach.held_upd; focus (constructor; (dsimp only <;> exact rfl); all_goals (first | with_reducible exact .inl rfl | with_reducible exact rfl | exact .inr (hT.has (by decide))))))

theorem Mach.useSlice_held {T : Scope} {m : Mach} (h : m.Within T) (hT : T.allows 0x200000) (b s t : Nat) : (Mach.useSlice m b s t).Within T := by
  unfold Mach.useSlice
  try dsimp only
  repeat' (first | exact hT.sub (by decide) | intro _ | with_reducible assumption | with_reducible apply Mach.modBank_held | (apply Mach.held_upd; focus (constructor; (dsimp only <;> exact rfl); all_goals (first | with_reducible exact .inl rfl | with_reducible exact rfl | exact .inr (hT.has (by decide))))))

theorem Mach.placeOne_held {T : Scope} {m : Mach} (h : m.Within T) (hT : T.allows 0x220000) (K P t0 : Nat) (w : Windows) (kind : Nat) : (Mach.placeOne m K P t0 w kind).Within T := by
  unfold Mach.placeOne
  try dsimp only
  repeat' (first | exact hT.sub (by decide) | intro _ | with_reducible assumption | with_reducible apply Mach.modCoil_held | with_reducible apply Mach.useSlice_held | with_reducible apply Mach.modBank_held | with_reducible apply Mach.ite_held | split | refine Mach.of_fst (by with_reducible assumption) ?_ | refine Mach.of_snd (by with_reducible assumption) ?_ | (apply Mach.held_upd; focus (constructor; (dsimp only <;> exact rfl); all_goals (first | with_reducible exact .inl rfl | with_reducible exact rfl | exact .inr (hT.has (by decide))))))

theorem Mach.placeReqs_held {T : Scope} {m : Mach} (h : m.Within T) (hT : T.allows 0x220000) (K ton : Nat) : (Mach.placeReqs m K ton).Within T := by
  unfold Mach.placeReqs
  try dsimp only
  repeat' (first | exact hT.sub (by decide) | intro _ | with_reducible assumption | with_reducible apply Mach.placeOne_held | with_reducible apply Mach.modCoil_held | with_reducible apply Mach.foldl_held | with_reducible apply Mach.foldl_fst_held | (apply Mach.held_upd; focus (constructor; (dsimp only <;> exact rfl); all_goals (first | with_reducible exact .inl rfl | with_reducible exact rfl | exact .inr (hT.has (by decide))))))

theorem Mach.setBin_held {T : Scope} {m : Mach} (h : m.Within T) (hT : T.allows 0x80000) (n b : Nat) (coilB : Bool) (v : Int) : (Mach.setBin m n b coilB v).Within T := by
  unfold Mach.setBin
  try dsimp only
  repeat' (first | exact hT.sub (by decide) | intro _ | with_reducible assumption | with_reducible apply Mach.ite_held | split | (apply Mach.held_upd; focus (constructor; (dsimp only <;> exact rfl); all_goals (first | with_reducible exact .inl rfl | with_reducible exact rfl | exact .inr (hT.has (by decide))))))

theorem Mach.guardStep_held {T : Scope} {m : Mach} (h : m.Within T) (hT : T.allows 0x20000000000800000000000000000000000000000000041000) (n P amp : Nat) : (Mach.guardStep m n P amp).Within T := by
  unfold Mach.guardStep
  try dsimp only
  repeat' (first | exact hT.sub (by decide) | intro _ | with_reducible assumption | with_reducible apply Mach.modOb_held | with_reducible apply Mach.wr_held | with_reducible apply Mach.setBit_held | with_reducible apply Mach.post_held | with_reducible apply Mach.ite_held | split | (apply Mach.held_upd; focus (constructor; (dsimp only <;> exact rfl); all_goals (first | with_reducible exact .inl rfl | with_reducible exact rfl | exact .inr (hT.has (by decide))))))

theorem Mach.emfFilter_held {T : Scope} {m : Mach} (h : m.Within T) (hT : T.allows 0x40000) (n : Nat) (a : Int) (ea eb : Rat) : (Mach.emfFilter m n a ea eb).Within T := by
  unfold Mach.emfFilter
  try dsimp only
  repeat' (first | exact hT.sub (by decide) | intro _ | with_reducible assumption | with_reducible apply Mach.modOb_held | (apply Mach.held_upd; focus (constructor; (dsimp only <;> exact rfl); all_goals (first | with_reducible exact .inl rfl | with_reducible exact rfl | exact .inr (hT.has (by decide))))))

theorem Mach.obsLost_held {T : Scope} {m : Mach} (h : m.Within T) (hT : T.allows 0x800000000000000000000000800000000000000000000000000000000001000) (n src : Nat) : (Mach.obsLost m n src).Within T := by
  unfold Mach.obsLost
  try dsimp only
  repeat' (first | exact hT.sub (by decide) | intro _ | with_reducible assumption | with_reducible apply Mach.setBit_held | with_reducible apply Mach.post_held | with_reducible apply Mach.ite_held | split)

theorem Mach.patPeriod_held {T : Scope} {m : Mach} (h : m.Within T) (hT : T.allows 0x40000) (K iamp : Nat) (im : Rat) : (Mach.patPeriod m K iamp im).Within T := by
  unfold Mach.patPeriod
  try dsimp only
  repeat' (first | exact hT.sub (by decide) | intro _ | with_reducible assumption | with_reducible apply Mach.modOb_held | with_reducible apply Mach.ite_held | split | refine Mach.of_fst (by with_reducible assumption) ?_ | refine Mach.of_snd (by with_reducible assumption) ?_ | (apply Mach.held_upd; focus (constructor; (dsimp only <;> exact rfl); all_goals (first | with_reducible exact .inl rfl | with_reducible exact rfl | exact .inr (hT.has (by decide))))))

theorem Mach.patBlock_held {T : Scope} {m : Mach} (h : m.Within T) (hT : T.allows 0x40000) (K : Nat) (est : Option Rat) : (Mach.patBlock m K est).Within T := by
  unfold Mach.patBlock
  try dsimp only
  repeat' (first | exact hT.sub (by decide) | intro _ | with_reducible assumption | with_reducible apply Mach.modOb_held | with_reducible apply Mach.ite_held | split | refine Mach.of_fst (by with_reducible assumption) ?_ | refine Mach.of_snd (by with_reducible assumption) ?_ | (apply Mach.held_upd; focus (constructor; (dsimp only <;> exact rfl); all_goals (first | with_reducible exact .inl rfl | with_reducible exact rfl | exact .inr (hT.has (by decide))))))

theorem Mach.observe_held {T : Scope} {m : Mach} (h : m.Within T) (hT : T.allows 0x800000000000000000000000800000000000000000000000000000000061000) (K : Nat) (a : Int) (im v : Rat) (iamp : Nat) : (Mach.observe m K a im v iamp).Within T := by
  unfold Mach.observe
  try dsimp only
  repeat' (first | exact hT.sub (by decide) | intro _ | with_reducible assumption | with_reducible apply Mach.modCoil_held | with_reducible apply Mach.emfFilter_held | with_reducible apply Mach.modOb_held | with_reducible apply Mach.obsLost_held | with_reducible apply Mach.patPeriod_held | with_reducible apply Mach.patBlock_held | with_reducible apply Mach.ite_held | split | refine Mach.of_fst (by with_reducible assumption) ?_ | refine Mach.of_snd (by with_reducible assumption) ?_ | (apply Mach.held_upd; focus (constructor; (dsimp only <;> exact rfl); all_goals (first | with_reducible exact .inl rfl | with_reducible exact rfl | exact .inr (hT.has (by decide))))))

theorem Mach.learnCoil_held {T : Scope} {m : Mach} (h : m.Within T) (hT : T.allows 0x200000000008000000000000000000000000000000000a1000) (n K iamp : Nat) : (Mach.learnCoil m n K iamp).Within T := by
  unfold Mach.learnCoil
  try dsimp only
  repeat' (first | exact hT.sub (by decide) | intro _ | with_reducible assumption | with_reducible apply Mach.setBin_held | with_reducible apply Mach.setBit_held | with_reducible apply Mach.post_held | with_reducible apply Mach.modCoil_held | with_reducible apply Mach.foldl_held | with_reducible apply Mach.foldl_fst_held | with_reducible apply Mach.ite_held | split | (apply Mach.held_upd; focus (constructor; (dsimp only <;> exact rfl); all_goals (first | with_reducible exact .inl rfl | with_reducible exact rfl | exact .inr (hT.has (by decide))))))

theorem Mach.learn_held {T : Scope} {m : Mach} (h : m.Within T) (hT : T.allows 0x200000000008000000000000000000000000000000000e1000) (K : Nat) (res : Kin) (aNow aOld : Int) (e : Rat) (iamp : Nat) : (Mach.learn m K res aNow aOld e iamp).Within T := by
  unfold Mach.learn
  try dsimp only
  repeat' (first | exact hT.sub (by decide) | intro _ | with_reducible assumption | with_reducible apply Mach.modCoil_held | with_reducible apply Mach.modOb_held | with_reducible apply Mach.learnCoil_held | with_reducible apply Mach.ite_held | split | refine Mach.of_fst (by with_reducible assumption) ?_ | refine Mach.of_snd (by with_reducible assumption) ?_ | (apply Mach.held_upd; focus (constructor; (dsimp only <;> exact rfl); all_goals (first | with_reducible exact .inl rfl | with_reducible exact rfl | exact .inr (hT.has (by decide))))))

theorem Mach.coilShow_held {T : Scope} {m : Mach} (h : m.Within T) (hT : T.allows 0x10000000000000000000000000000000000000000000000000) (K : Nat) (req : Req) (duty : Int) (lf cap : Bool) : (Mach.coilShow m K req duty lf cap).Within T := by
  unfold Mach.coilShow
  try dsimp only
  repeat' (first | exact hT.sub (by decide) | intro _ | with_reducible assumption | with_reducible apply Mach.wr_held | with_reducible apply Mach.wrS_held | with_reducible apply Mach.ite_held | split)

theorem Mach.coilCompute_held {T : Scope} {m : Mach} (h : m.Within T) (hT : T.allows 0x8000000000000300000000008000000000000000000000000000000002e1000) (K tph : Nat) : (Mach.coilCompute m K tph).Within T := by
  unfold Mach.coilCompute
  try dsimp only
  repeat' (first | exact hT.sub (by decide) | intro _ | with_reducible assumption | with_reducible apply Mach.modCoil_held | with_reducible apply Mach.fault_held | with_reducible apply Mach.reset_held | with_reducible apply Mach.observe_held | with_reducible apply Mach.guardStep_held | with_reducible apply Mach.coilShow_held | with_reducible apply Mach.placeReqs_held | with_reducible apply Mach.loop_held | with_reducible apply Mach.learn_held | with_reducible apply Mach.wr_held | with_reducible apply Mach.setBit_held | with_reducible apply Mach.post_held | with_reducible apply Mach.ite_held | split | refine Mach.of_fst (by with_reducible assumption) ?_ | refine Mach.of_snd (by with_reducible assumption) ?_ | (apply Mach.held_upd; focus (constructor; (dsimp only <;> exact rfl); all_goals (first | with_reducible exact .inl rfl | with_reducible exact rfl | exact .inr (hT.has (by decide))))))

theorem Mach.harmAdvance_held {T : Scope} {m : Mach} (h : m.Within T) (hT : T.allows 0x400000000000000000000000000000000000000000000000000) (n : Nat) : (Mach.harmAdvance m n).Within T := by
  unfold Mach.harmAdvance
  try dsimp only
  repeat' (first | exact hT.sub (by decide) | intro _ | with_reducible assumption | with_reducible apply Mach.wrap_held)

theorem Mach.writeHarm_held {T : Scope} {m : Mach} (h : m.Within T) (hT : T.allows 0x400000000000000000000000000000000000000000000080000) (n v : Nat) : (Mach.writeHarm m n v).Within T := by
  unfold Mach.writeHarm
  try dsimp only
  repeat' (first | exact hT.sub (by decide) | intro _ | with_reducible assumption | with_reducible apply Mach.harmAdvance_held | with_reducible apply Mach.ite_held | split | (apply Mach.held_upd; focus (constructor; (dsimp only <;> exact rfl); all_goals (first | with_reducible exact .inl rfl | with_reducible exact rfl | exact .inr (hT.has (by decide))))))

theorem Mach.winExamine_held {T : Scope} {m : Mach} (h : m.Within T) (hT : T.allows 0x400000000000000000000800000000000000000000000000000000201000) (b src sel : Nat) (val : Int) : (Mach.winExamine m b src sel val).Within T := by
  unfold Mach.winExamine
  try dsimp only
  repeat' (first | exact hT.sub (by decide) | intro _ | with_reducible assumption | with_reducible apply Mach.each_held | with_reducible apply Mach.modBank_held | with_reducible apply Mach.wr_held | with_reducible apply Mach.post_held | with_reducible apply Mach.ite_held | split | (apply Mach.held_upd; focus (constructor; (dsimp only <;> exact rfl); all_goals (first | with_reducible exact .inl rfl | with_reducible exact rfl | exact .inr (hT.has (by decide))))))

theorem Mach.setCoef_held {T : Scope} {m : Mach} (h : m.Within T) (hT : T.allows 0x400000000000000000000000000000000000000000000000000200000) (b s : Nat) (ofs gain : Int) : (Mach.setCoef m b s ofs gain).Within T := by
  unfold Mach.setCoef
  try dsimp only
  repeat' (first | exact hT.sub (by decide) | intro _ | with_reducible assumption | with_reducible apply Mach.modBank_held | with_reducible apply Mach.wrS_held | (apply Mach.held_upd; focus (constructor; (dsimp only <;> exact rfl); all_goals (first | with_reducible exact .inl rfl | with_reducible exact rfl | exact .inr (hT.has (by decide))))))

theorem Mach.deliverSample_held {T : Scope} {m : Mach} (h : m.Within T) (hT : T.allows 0x400300000000000000000800000000000000000000000000000000221000) (K : Nat) (h : Held) (raw : Int) (conv full : Bool) : (Mach.deliverSample m K h raw conv full).Within T := by
  unfold Mach.deliverSample
  try dsimp only
  repeat' (first | exact hT.sub (by decide) | intro _ | with_reducible assumption | with_reducible apply Mach.modCoil_held | with_reducible apply Mach.when_held | with_reducible apply Mach.setBit_held | with_reducible apply Mach.bump_held | with_reducible apply Mach.post_held | with_reducible apply Mach.wr_held | with_reducible apply Mach.winExamine_held | with_reducible apply Mach.ite_held | split | (apply Mach.held_upd; focus (constructor; (dsimp only <;> exact rfl); all_goals (first | with_reducible exact .inl rfl | with_reducible exact rfl | exact .inr (hT.has (by decide))))))

theorem Mach.sampleHold_held {T : Scope} {m : Mach} (h : m.Within T) (hT : T.allows 0x400700000000000000000800000000000000000000000000000000221000) (K kind : Nat) : (Mach.sampleHold m K kind).Within T := by
  unfold Mach.sampleHold
  try dsimp only
  repeat' (first | exact hT.sub (by decide) | intro _ | with_reducible assumption | with_reducible apply Mach.modCoil_held | with_reducible apply Mach.deliverSample_held | with_reducible apply Mach.useSlice_held | with_reducible apply Mach.modBank_held | with_reducible apply Mach.wrap_held | with_reducible apply Mach.ite_held | split | refine Mach.of_fst (by with_reducible assumption) ?_ | refine Mach.of_snd (by with_reducible assumption) ?_ | (apply Mach.held_upd; focus (constructor; (dsimp only <;> exact rfl); all_goals (first | with_reducible exact .inl rfl | with_reducible exact rfl | exact .inr (hT.has (by decide))))))

theorem Mach.sampleDelivered_held {T : Scope} {m : Mach} (h : m.Within T) (hT : T.allows 0x400300000000000000000800000000000000000000000000000000221000) (K kind : Nat) (raw : Int) (full : Bool) : (Mach.sampleDelivered m K kind raw full).Within T := by
  unfold Mach.sampleDelivered
  try dsimp only
  repeat' (first | exact hT.sub (by decide) | intro _ | with_reducible assumption | with_reducible apply Mach.deliverSample_held | split | refine Mach.of_fst (by with_reducible assumption) ?_ | refine Mach.of_snd (by with_reducible assumption) ?_)

theorem Mach.sliceTime_held {T : Scope} {m : Mach} (h : m.Within T) (hT : T.allows 0x200000) (b s h : Nat) : (Mach.sliceTime m b s h).Within T := by
  unfold Mach.sliceTime
  try dsimp only
  repeat' (first | exact hT.sub (by decide) | intro _ | with_reducible assumption | with_reducible apply Mach.modBank_held | (apply Mach.held_upd; focus (constructor; (dsimp only <;> exact rfl); all_goals (first | with_reducible exact .inl rfl | with_reducible exact rfl | exact .inr (hT.has (by decide))))))

theorem Mach.shadowBlock_held {T : Scope} {m : Mach} (h : m.Within T) (hT : T.allows 0x500000000000000000800000000000000000000000000000000201000) (b s : Nat) (ps : List (Int × Int × Rat)) : (Mach.shadowBlock m b s ps).Within T := by
  unfold Mach.shadowBlock
  try dsimp only
  repeat' (first | exact hT.sub (by decide) | intro _ | with_reducible assumption | with_reducible apply Mach.setCoef_held | with_reducible apply Mach.wrS_held | with_reducible apply Mach.wr_held | with_reducible apply Mach.modBank_held | with_reducible apply Mach.setBit_held | with_reducible apply Mach.post_held | with_reducible apply Mach.ite_held | split | (apply Mach.held_upd; focus (constructor; (dsimp only <;> exact rfl); all_goals (first | with_reducible exact .inl rfl | with_reducible exact rfl | exact .inr (hT.has (by decide))))))

theorem Mach.calSlice_held {T : Scope} {m : Mach} (h : m.Within T) (hT : T.allows 0x400000000000000000000000000000000000000000000000000200000) (b s : Nat) (zero pos neg : Int) : (Mach.calSlice m b s zero pos neg).Within T := by
  unfold Mach.calSlice
  try dsimp only
  repeat' (first | exact hT.sub (by decide) | intro _ | with_reducible assumption | with_reducible apply Mach.setCoef_held | split | refine Mach.of_fst (by with_reducible assumption) ?_ | refine Mach.of_snd (by with_reducible assumption) ?_)

theorem Mach.spareRecal_held {T : Scope} {m : Mach} (h : m.Within T) (hT : T.allows 0x400000000000000000000000000000000000000000000000000200000) (b : Nat) (zero pos neg : Int) : (Mach.spareRecal m b zero pos neg).Within T := by
  unfold Mach.spareRecal
  try dsimp only
  repeat' (first | exact hT.sub (by decide) | intro _ | with_reducible assumption | with_reducible apply Mach.calSlice_held | with_reducible apply Mach.ite_held | split | refine Mach.of_fst (by with_reducible assumption) ?_ | refine Mach.of_snd (by with_reducible assumption) ?_)

theorem Mach.selBad_held {T : Scope} {m : Mach} (h : m.Within T) (hT : T.allows 0x100000000000000000800000000000000000000000000000000001000) (b sel : Nat) : (Mach.selBad m b sel).Within T := by
  unfold Mach.selBad
  try dsimp only
  repeat' (first | exact hT.sub (by decide) | intro _ | with_reducible assumption | with_reducible apply Mach.setBit_held | with_reducible apply Mach.post_held)

theorem Mach.injGo_held {T : Scope} {m : Mach} (h : m.Within T) (hT : T.allows 0x1100000000000000000800000000000000000000000000000000201000) (b trig at_ : Nat) : (Mach.injGo m b trig at_).Within T := by
  unfold Mach.injGo
  try dsimp only
  repeat' (first | exact hT.sub (by decide) | intro _ | with_reducible assumption | with_reducible apply Mach.setBit_held | with_reducible apply Mach.selBad_held | with_reducible apply Mach.modBank_held | with_reducible apply Mach.ite_held | split | (apply Mach.held_upd; focus (constructor; (dsimp only <;> exact rfl); all_goals (first | with_reducible exact .inl rfl | with_reducible exact rfl | exact .inr (hT.has (by decide))))))

theorem Mach.injResult_held {T : Scope} {m : Mach} (h : m.Within T) (hT : T.allows 0x403000000000000000000800000000000000000000000000000000201000) (b : Nat) (raw : Int) (wait : Nat) : (Mach.injResult m b raw wait).Within T := by
  unfold Mach.injResult
  try dsimp only
  repeat' (first | exact hT.sub (by decide) | intro _ | with_reducible assumption | with_reducible apply Mach.useSlice_held | with_reducible apply Mach.modBank_held | with_reducible apply Mach.clrFld_held | with_reducible apply Mach.setReg_held | with_reducible apply Mach.setBit_held | with_reducible apply Mach.wr_held | with_reducible apply Mach.when_held | with_reducible apply Mach.post_held | with_reducible apply Mach.winExamine_held | split | refine Mach.of_fst (by with_reducible assumption) ?_ | refine Mach.of_snd (by with_reducible assumption) ?_ | (apply Mach.held_upd; focus (constructor; (dsimp only <;> exact rfl); all_goals (first | with_reducible exact .inl rfl | with_reducible exact rfl | exact .inr (hT.has (by decide))))))

theorem Mach.scanNext_held {T : Scope} (hT : T.allows 0x8100000000000000000800000000000000000000000000000000201000) (b fuel : Nat) : ∀ {m : Mach}, m.Within T → ∀ i : Nat, (m.scanNext b fuel i).Within T := by
  have hb := fun (m : Mach) (h : m.Within T) f => Mach.modBank_held h (hT.sub (by decide)) b f
  induction fuel with
  | zero => intro m h i; exact Mach.clrFld_held (hb _ h _) _ _ _ (hT.sub (by decide))
  | succ fuel ih =>
    intro m h i
    rw [Mach.scanNext]
    split
    · exact Mach.clrFld_held (hb _ h _) _ _ _ (hT.sub (by decide))
    · dsimp only
      split
      · exact Mach.setBit_held (hb _ h _) _ _ _ (hT.sub (by decide))
      · exact ih (Mach.selBad_held h (hT.sub (by decide)) _ _) _

theorem Mach.scanGo_held {T : Scope} {m : Mach} (h : m.Within T) (hT : T.allows 0x8100000000000000000800000000000000000000000000000000201000) (b trig : Nat) : (Mach.scanGo m b trig).Within T := by
  unfold Mach.scanGo
  try dsimp only
  repeat' (first | exact hT.sub (by decide) | intro _ | with_reducible assumption | with_reducible apply Mach.modBank_held | with_reducible apply Mach.scanNext_held | with_reducible apply Mach.ite_held | split | (apply Mach.held_upd; focus (constructor; (dsimp only <;> exact rfl); all_goals (first | with_reducible exact .inl rfl | with_reducible exact rfl | exact .inr (hT.has (by decide))))))

theorem Mach.scanStopCmd_held {T : Scope} {m : Mach} (h : m.Within T) (hT : T.allows 0x200000) (b : Nat) : (Mach.scanStopCmd m b).Within T := by
  unfold Mach.scanStopCmd
  try dsimp only
  repeat' (first | exact hT.sub (by decide) | intro _ | with_reducible assumption | with_reducible apply Mach.modBank_held | with_reducible apply Mach.ite_held | split | (apply Mach.held_upd; focus (constructor; (dsimp only <;> exact rfl); all_goals (first | with_reducible exact .inl rfl | with_reducible exact rfl | exact .inr (hT.has (by decide))))))

theorem Mach.scanPush_held {T : Scope} {m : Mach} (h : m.Within T) (hT : T.allows 0x8000000000000000000800000000000000000000000000000000201000) (b w : Nat) : (Mach.scanPush m b w).Within T := by
  unfold Mach.scanPush
  try dsimp only
  repeat' (first | exact hT.sub (by decide) | intro _ | with_reducible assumption | with_reducible apply Mach.bump_held | with_reducible apply Mach.setBit_held | with_reducible apply Mach.post_held | with_reducible apply Mach.modBank_held | with_reducible apply Mach.wr_held | with_reducible apply Mach.ite_held | split | (apply Mach.held_upd; focus (constructor; (dsimp only <;> exact rfl); all_goals (first | with_reducible exact .inl rfl | with_reducible exact rfl | exact .inr (hT.has (by decide))))))

theorem Mach.scanResult_held {T : Scope} {m : Mach} (h : m.Within T) (hT : T.allows 0x408100000000000000000800000000000000000000000000000000201000) (b slice : Nat) (raw : Int) (wait : Nat) : (Mach.scanResult m b slice raw wait).Within T := by
  unfold Mach.scanResult
  try dsimp only
  repeat' (first | exact hT.sub (by decide) | intro _ | with_reducible assumption | with_reducible apply Mach.useSlice_held | with_reducible apply Mach.scanPush_held | with_reducible apply Mach.winExamine_held | with_reducible apply Mach.modBank_held | with_reducible apply Mach.clrFld_held | with_reducible apply Mach.scanNext_held | with_reducible apply Mach.ite_held | split | refine Mach.of_fst (by with_reducible assumption) ?_ | refine Mach.of_snd (by with_reducible assumption) ?_ | (apply Mach.held_upd; focus (constructor; (dsimp only <;> exact rfl); all_goals (first | with_reducible exact .inl rfl | with_reducible exact rfl | exact .inr (hT.has (by decide))))))

theorem Mach.scanPop_held {T : Scope} {m : Mach} (h : m.Within T) (hT : T.allows 0x8000000000000000000000000000000000000000000000000000200000) (b : Nat) : (Mach.scanPop m b).Within T := by
  unfold Mach.scanPop
  try dsimp only
  repeat' (first | exact hT.sub (by decide) | intro _ | with_reducible assumption | with_reducible apply Mach.modBank_held | with_reducible apply Mach.wr_held | (apply Mach.held_upd; focus (constructor; (dsimp only <;> exact rfl); all_goals (first | with_reducible exact .inl rfl | with_reducible exact rfl | exact .inr (hT.has (by decide))))))

theorem Mach.trigDo_held {T : Scope} {m : Mach} (h : m.Within T) (hT : T.allows 0x9100000000000000000800000000000000000000000000000000201000) (b k at_ : Nat) : (Mach.trigDo m b k at_).Within T := by
  unfold Mach.trigDo
  try dsimp only
  repeat' (first | exact hT.sub (by decide) | intro _ | with_reducible assumption | with_reducible apply Mach.scanGo_held | with_reducible apply Mach.injGo_held | with_reducible apply Mach.ite_held | split)

theorem Mach.trigFire_held {T : Scope} {m : Mach} (h : m.Within T) (hT : T.allows 0x9100000000000000000800000000000000000000000000000000201000) (b k : Nat) : (Mach.trigFire m b k).Within T := by
  unfold Mach.trigFire
  try dsimp only
  repeat' (first | exact hT.sub (by decide) | intro _ | with_reducible assumption | with_reducible apply Mach.modBank_held | with_reducible apply Mach.trigDo_held | with_reducible apply Mach.foldl_held | with_reducible apply Mach.foldl_fst_held | with_reducible apply Mach.ite_held | split | refine Mach.of_fst (by with_reducible assumption) ?_ | refine Mach.of_snd (by with_reducible assumption) ?_ | (apply Mach.held_upd; focus (constructor; (dsimp only <;> exact rfl); all_goals (first | with_reducible exact .inl rfl | with_reducible exact rfl | exact .inr (hT.has (by decide))))))

theorem Mach.pchkGo_held {T : Scope} {m : Mach} (h : m.Within T) (hT : T.allows 0x1000000000000000000000000000000000000000000000000000000200000) (b : Nat) : (Mach.pchkGo m b).Within T := by
  unfold Mach.pchkGo
  try dsimp only
  repeat' (first | exact hT.sub (by decide) | intro _ | with_reducible assumption | with_reducible apply Mach.setBit_held | with_reducible apply Mach.modBank_held | with_reducible apply Mach.ite_held | split | (apply Mach.held_upd; focus (constructor; (dsimp only <;> exact rfl); all_goals (first | with_reducible exact .inl rfl | with_reducible exact rfl | exact .inr (hT.has (by decide))))))

theorem Mach.pchkDone_held {T : Scope} {m : Mach} (h : m.Within T) (hT : T.allows 0x1000000000000000000000800000000000000000000000000000000201000) (b : Nat) (s1 s2 : Int) : (Mach.pchkDone m b s1 s2).Within T := by
  unfold Mach.pchkDone
  try dsimp only
  repeat' (first | exact hT.sub (by decide) | intro _ | with_reducible assumption | with_reducible apply Mach.modBank_held | with_reducible apply Mach.clrFld_held | with_reducible apply Mach.setBit_held | with_reducible apply Mach.wr_held | with_reducible apply Mach.post_held | with_reducible apply Mach.ite_held | split | refine Mach.of_fst (by with_reducible assumption) ?_ | refine Mach.of_snd (by with_reducible assumption) ?_ | (apply Mach.held_upd; focus (constructor; (dsimp only <;> exact rfl); all_goals (first | with_reducible exact .inl rfl | with_reducible exact rfl | exact .inr (hT.has (by decide))))))

theorem Mach.patTick_held {T : Scope} {m : Mach} (h : m.Within T) (hT : T.allows 0x40000) (n : Nat) (emf : Bool) (delta : Int) : (Mach.patTick m n emf delta).Within T := by
  unfold Mach.patTick
  try dsimp only
  repeat' (first | exact hT.sub (by decide) | intro _ | with_reducible assumption | with_reducible apply Mach.modOb_held | with_reducible apply Mach.ite_held | split | (apply Mach.held_upd; focus (constructor; (dsimp only <;> exact rfl); all_goals (first | with_reducible exact .inl rfl | with_reducible exact rfl | exact .inr (hT.has (by decide))))))

theorem Mach.laTick_held {T : Scope} {m : Mach} (h : m.Within T) (hT : T.allows 0x1000000000000000000000000800000000000000000000000000000000041400) (n : Nat) : (Mach.laTick m n).Within T := by
  unfold Mach.laTick
  try dsimp only
  repeat' (first | exact hT.sub (by decide) | intro _ | with_reducible assumption | with_reducible apply Mach.learn_held | with_reducible apply Mach.patTick_held | with_reducible apply Mach.modOb_held | with_reducible apply Mach.setReg_held | with_reducible apply Mach.modAx_held | with_reducible apply Mach.post_held | with_reducible apply Mach.ite_held | split | refine Mach.of_fst (by with_reducible assumption) ?_ | refine Mach.of_snd (by with_reducible assumption) ?_ | (apply Mach.held_upd; focus (constructor; (dsimp only <;> exact rfl); all_goals (first | with_reducible exact .inl rfl | with_reducible exact rfl | exact .inr (hT.has (by decide))))))

theorem Mach.retryResume_held {T : Scope} {m : Mach} (h : m.Within T) (hT : T.allows 0x800000000000000000000000000000000000000000000000000000000000400) (n : Nat) : (Mach.retryResume m n).Within T := by
  unfold Mach.retryResume
  try dsimp only
  repeat' (first | exact hT.sub (by decide) | intro _ | with_reducible assumption | with_reducible apply Mach.modAx_held | with_reducible apply Mach.clrFld_held | with_reducible apply Mach.setVelSeg_held | with_reducible apply Mach.replanPos_held | with_reducible apply Mach.ite_held | split | refine Mach.of_fst (by with_reducible assumption) ?_ | refine Mach.of_snd (by with_reducible assumption) ?_ | (apply Mach.held_upd; focus (constructor; (dsimp only <;> exact rfl); all_goals (first | with_reducible exact .inl rfl | with_reducible exact rfl | exact .inr (hT.has (by decide))))))

theorem Mach.resync_held {T : Scope} {m : Mach} (h : m.Within T) (hT : T.allows 0x800000000000000000000000000000000000000000000000000000000000400) (b j : Nat) : (Mach.resync m b j).Within T := by
  unfold Mach.resync
  try dsimp only
  repeat' (first | exact hT.sub (by decide) | intro _ | with_reducible assumption | with_reducible apply Mach.modAx_held | with_reducible apply Mach.setBit_held | with_reducible apply Mach.ite_held | split | refine Mach.of_fst (by with_reducible assumption) ?_ | refine Mach.of_snd (by with_reducible assumption) ?_ | (apply Mach.held_upd; focus (constructor; (dsimp only <;> exact rfl); all_goals (first | with_reducible exact .inl rfl | with_reducible exact rfl | exact .inr (hT.has (by decide))))))

theorem Mach.peakClr_held {T : Scope} {m : Mach} (h : m.Within T) (hT : T.allows 0x1000000000000000000000000000000000000000000000000000000000000000) (b j : Nat) : (Mach.peakClr m b j).Within T := by
  unfold Mach.peakClr
  try dsimp only
  repeat' (first | exact hT.sub (by decide) | intro _ | with_reducible assumption | with_reducible apply Mach.clrFld_held | with_reducible apply Mach.ite_held | split)

theorem Mach.writeLaCtrl_held {T : Scope} {m : Mach} (h : m.Within T) (hT : T.allows 0x1800000000000000000000000000000000000000000000000000000000000400) (b v : Nat) : (Mach.writeLaCtrl m b v).Within T := by
  unfold Mach.writeLaCtrl
  try dsimp only
  repeat' (first | exact hT.sub (by decide) | intro _ | with_reducible assumption | with_reducible apply Mach.when_held | with_reducible apply Mach.resync_held | with_reducible apply Mach.peakClr_held)

end Sys2Proof.Machine
end

