-- ==== Sys2Proof/Laws/ScopeUnits.lean ====
section
/-!
SUPPORT. What the operations of supplies, ports, front end, fault masking, heat ledger and NVM may change. A lemma `f_held` says that `f` keeps the stored data sound and changes nothing outside its mask.
-/

namespace Sys2Proof.Machine

theorem Mach.vmUv_held {T : Scope} {m : Mach} (h : m.Within T) (hT : T.allows 0x400080000000000000004200040080000001000100000000004000000008022bc00) (b vm : Nat) : (Mach.vmUv m b vm).Within T := by
  unfold Mach.vmUv
  try dsimp only
  repeat' (first | exact hT.sub (by decide) | intro _ | with_reducible assumption | with_reducible apply Mach.testsCut_held | with_reducible apply Mach.setBit_held | with_reducible apply Mach.bump_held | with_reducible apply Mach.clrFld_held | with_reducible apply Mach.post_held | with_reducible apply Mach.forAll_held | with_reducible apply Mach.modAx_held | with_reducible apply Mach.modBank_held | with_reducible apply Mach.faultBank_held | with_reducible apply Mach.cutBank_held | with_reducible apply Mach.ite_held | split | (apply Mach.held_upd; focus (constructor; (dsimp only <;> exact rfl); all_goals (first | with_reducible exact .inl rfl | with_reducible exact rfl | exact .inr (hT.has (by decide))))))

theorem Mach.vmResume_held {T : Scope} {m : Mach} (h : m.Within T) (hT : T.allows 0x800000000000000000000040000000000201400) (b mode : Nat) : (Mach.vmResume m b mode).Within T := by
  unfold Mach.vmResume
  try dsimp only
  repeat' (first | exact hT.sub (by decide) | intro _ | with_reducible assumption | with_reducible apply Mach.clrFld_held | with_reducible apply Mach.post_held | with_reducible apply Mach.modBank_held | with_reducible apply Mach.forAll_held | with_reducible apply Mach.fault_held | with_reducible apply Mach.modAx_held | with_reducible apply Mach.ite_held | split | (apply Mach.held_upd; focus (constructor; (dsimp only <;> exact rfl); all_goals (first | with_reducible exact .inl rfl | with_reducible exact rfl | exact .inr (hT.has (by decide))))))

theorem Mach.vmRecovered_held {T : Scope} {m : Mach} (h : m.Within T) (hT : T.allows 0x800000000000000000000040000000000201400) (b : Nat) : (Mach.vmRecovered m b).Within T := by
  unfold Mach.vmRecovered
  try dsimp only
  repeat' (first | exact hT.sub (by decide) | intro _ | with_reducible assumption | with_reducible apply Mach.clrFld_held | with_reducible apply Mach.setBit_held | with_reducible apply Mach.vmResume_held | with_reducible apply Mach.ite_held | split | refine Mach.of_fst (by with_reducible assumption) ?_ | refine Mach.of_snd (by with_reducible assumption) ?_)

theorem Mach.vmResumeCmd_held {T : Scope} {m : Mach} (h : m.Within T) (hT : T.allows 0x800000000000000000000040000000000201400) (b : Nat) : (Mach.vmResumeCmd m b).Within T := by
  unfold Mach.vmResumeCmd
  try dsimp only
  repeat' (first | exact hT.sub (by decide) | intro _ | with_reducible assumption | with_reducible apply Mach.vmResume_held | with_reducible apply Mach.ite_held | split)

theorem Mach.recoverEnd_held {T : Scope} {m : Mach} (h : m.Within T) (hT : T.allows 0x800000010000000000000000000000000001c00) (n : Nat) (cont : Bool) : (Mach.recoverEnd m n cont).Within T := by
  unfold Mach.recoverEnd
  try dsimp only
  repeat' (first | exact hT.sub (by decide) | intro _ | with_reducible assumption | with_reducible apply Mach.enterHold_held | with_reducible apply Mach.modAx_held | with_reducible apply Mach.setVelSeg_held | with_reducible apply Mach.replanPos_held | with_reducible apply Mach.taken_held | with_reducible apply Mach.keptEnd_held | with_reducible apply Mach.ite_held | split | refine Mach.of_fst (by with_reducible assumption) ?_ | refine Mach.of_snd (by with_reducible assumption) ?_ | (apply Mach.held_upd; focus (constructor; (dsimp only <;> exact rfl); all_goals (first | with_reducible exact .inl rfl | with_reducible exact rfl | exact .inr (hT.has (by decide))))))

theorem Mach.vmRampEnd_held {T : Scope} {m : Mach} (h : m.Within T) (hT : T.allows 0x800000010000000000000000000000000201c00) (b : Nat) : (Mach.vmRampEnd m b).Within T := by
  unfold Mach.vmRampEnd
  try dsimp only
  repeat' (first | exact hT.sub (by decide) | intro _ | with_reducible assumption | with_reducible apply Mach.forAll_held | with_reducible apply Mach.recoverEnd_held | with_reducible apply Mach.modBank_held | split | refine Mach.of_fst (by with_reducible assumption) ?_ | refine Mach.of_snd (by with_reducible assumption) ?_ | (apply Mach.held_upd; focus (constructor; (dsimp only <;> exact rfl); all_goals (first | with_reducible exact .inl rfl | with_reducible exact rfl | exact .inr (hT.has (by decide))))))

theorem Mach.clampOn_held {T : Scope} {m : Mach} (h : m.Within T) (hT : T.allows 0x800000000000000000000040000000000221400) (b vm : Nat) : (Mach.clampOn m b vm).Within T := by
  unfold Mach.clampOn
  try dsimp only
  repeat' (first | exact hT.sub (by decide) | intro _ | with_reducible assumption | with_reducible apply Mach.modBank_held | with_reducible apply Mach.forAll_held | with_reducible apply Mach.modAx_held | with_reducible apply Mach.cutBank_held | with_reducible apply Mach.setBit_held | with_reducible apply Mach.bump_held | with_reducible apply Mach.post_held | with_reducible apply Mach.ite_held | split | (apply Mach.held_upd; focus (constructor; (dsimp only <;> exact rfl); all_goals (first | with_reducible exact .inl rfl | with_reducible exact rfl | exact .inr (hT.has (by decide))))))

theorem Mach.clampOff_held {T : Scope} {m : Mach} (h : m.Within T) (hT : T.allows 0x800000000000000000000000000000000221400) (b dur : Nat) : (Mach.clampOff m b dur).Within T := by
  unfold Mach.clampOff
  try dsimp only
  repeat' (first | exact hT.sub (by decide) | intro _ | with_reducible assumption | with_reducible apply Mach.tailBank_held | with_reducible apply Mach.modBank_held | with_reducible apply Mach.when_held | with_reducible apply Mach.forceBank_held | with_reducible apply Mach.cutBank_held | with_reducible apply Mach.post_held | with_reducible apply Mach.forAll_held | with_reducible apply Mach.uncertain_held | with_reducible apply Mach.ite_held | split | (apply Mach.held_upd; focus (constructor; (dsimp only <;> exact rfl); all_goals (first | with_reducible exact .inl rfl | with_reducible exact rfl | exact .inr (hT.has (by decide))))))

theorem Mach.clampTimeout_held {T : Scope} {m : Mach} (h : m.Within T) (hT : T.allows 0x400080000000000000004200040080000001000100000000004000000008022bc00) (b vm : Nat) : (Mach.clampTimeout m b vm).Within T := by
  unfold Mach.clampTimeout
  try dsimp only
  repeat' (first | exact hT.sub (by decide) | intro _ | with_reducible assumption | with_reducible apply Mach.setBit_held | with_reducible apply Mach.post_held | with_reducible apply Mach.faultBank_held | with_reducible apply Mach.modBank_held | with_reducible apply Mach.ite_held | split | (apply Mach.held_upd; focus (constructor; (dsimp only <;> exact rfl); all_goals (first | with_reducible exact .inl rfl | with_reducible exact rfl | exact .inr (hT.has (by decide))))))

theorem Mach.ovForceEnd_held {T : Scope} {m : Mach} (h : m.Within T) (hT : T.allows 0x200000) (b : Nat) : (Mach.ovForceEnd m b).Within T := by
  unfold Mach.ovForceEnd
  try dsimp only
  repeat' (first | exact hT.sub (by decide) | intro _ | with_reducible assumption | with_reducible apply Mach.modBank_held | with_reducible apply Mach.ite_held | split | (apply Mach.held_upd; focus (constructor; (dsimp only <;> exact rfl); all_goals (first | with_reducible exact .inl rfl | with_reducible exact rfl | exact .inr (hT.has (by decide))))))

theorem Mach.vioOverload_held {T : Scope} {m : Mach} (h : m.Within T) (hT : T.allows 0x800000000000000000000100000000000001000) (rail : Nat) : (Mach.vioOverload m rail).Within T := by
  unfold Mach.vioOverload
  try dsimp only
  repeat' (first | exact hT.sub (by decide) | intro _ | with_reducible assumption | with_reducible apply Mach.clrFld_held | with_reducible apply Mach.setBit_held | with_reducible apply Mach.post_held | with_reducible apply Mach.ite_held | split)

theorem Mach.loopFrom_held {T : Scope} {m : Mach} (h : m.Within T) (hT : T.allows 0xc0000000000000000000000000000000000000000000000000) (n ra la rb lb : Nat) : (Mach.loopFrom m n ra la rb lb).Within T := by
  unfold Mach.loopFrom
  try dsimp only
  repeat' (first | exact hT.sub (by decide) | intro _ | with_reducible assumption | with_reducible apply Mach.wr_held)

theorem Mach.loopImage_held {T : Scope} {m : Mach} (h : m.Within T) (hT : T.allows 0xc0000000000000000000000000000000000000000000000000) (n : Nat) : (Mach.loopImage m n).Within T := by
  unfold Mach.loopImage
  try dsimp only
  repeat' (first | exact hT.sub (by decide) | intro _ | with_reducible assumption | with_reducible apply Mach.loopFrom_held)

theorem Mach.motorChar_held {T : Scope} {m : Mach} (h : m.Within T) (hT : T.allows 0xc8000000000800000000000000070000000000000000001000) (n : Nat) (w : MotorMeas) : (Mach.motorChar m n w).1.Within T := by
  unfold Mach.motorChar
  try dsimp only
  repeat' (first | exact hT.sub (by decide) | intro _ | with_reducible assumption | with_reducible apply Mach.setReg_held | with_reducible apply Mach.loopImage_held | with_reducible apply Mach.loopFrom_held | with_reducible apply Mach.wr_held | with_reducible apply Mach.when_held | with_reducible apply Mach.post_held | with_reducible apply Mach.ite_held | split)

theorem Mach.ctrlEnable_held {T : Scope} {m : Mach} (h : m.Within T) (hT : T.allows 0x1000000000000000000000000400) (n : Nat) : (Mach.ctrlEnable m n).Within T := by
  unfold Mach.ctrlEnable
  try dsimp only
  repeat' (first | exact hT.sub (by decide) | intro _ | with_reducible assumption | with_reducible apply Mach.enterArming_held | with_reducible apply Mach.setBit_held | with_reducible apply Mach.ite_held | split)

theorem Mach.ctrlDisable_held {T : Scope} {m : Mach} (h : m.Within T) (hT : T.allows 0x400080000000000000004200040080000001000100000000000000000000002bc00) (n : Nat) : (Mach.ctrlDisable m n).Within T := by
  unfold Mach.ctrlDisable
  try dsimp only
  repeat' (first | exact hT.sub (by decide) | intro _ | with_reducible assumption | with_reducible apply Mach.setBit_held | with_reducible apply Mach.disable_held | with_reducible apply Mach.ite_held | split)

theorem Mach.ctrlEstop_held {T : Scope} {m : Mach} (h : m.Within T) (hT : T.allows 0x400080000000000000000000000080000001000100000000000000000000000bc00) (n : Nat) : (Mach.ctrlEstop m n).Within T := by
  unfold Mach.ctrlEstop
  try dsimp only
  repeat' (first | exact hT.sub (by decide) | intro _ | with_reducible assumption | with_reducible apply Mach.setBit_held | with_reducible apply Mach.estop_held | with_reducible apply Mach.ite_held | split)

theorem Mach.ctrlMaqEnter_held {T : Scope} {m : Mach} (h : m.Within T) (hT : T.allows 0x800000000001000000000000000000000001400) (n : Nat) : (Mach.ctrlMaqEnter m n).Within T := by
  unfold Mach.ctrlMaqEnter
  try dsimp only
  repeat' (first | exact hT.sub (by decide) | intro _ | with_reducible assumption | with_reducible apply Mach.modAx_held | with_reducible apply Mach.post_held | with_reducible apply Mach.setBit_held | with_reducible apply Mach.ite_held | split | (apply Mach.held_upd; focus (constructor; (dsimp only <;> exact rfl); all_goals (first | with_reducible exact .inl rfl | with_reducible exact rfl | exact .inr (hT.has (by decide))))))

theorem Mach.ctrlMaqExit_held {T : Scope} {m : Mach} (h : m.Within T) (hT : T.allows 0x400080000000000000004200040080000001000100000000000000000000000bc00) (n : Nat) : (Mach.ctrlMaqExit m n).Within T := by
  unfold Mach.ctrlMaqExit
  try dsimp only
  repeat' (first | exact hT.sub (by decide) | intro _ | with_reducible assumption | with_reducible apply Mach.homeCut_held | with_reducible apply Mach.dropMotion_held | with_reducible apply Mach.retireAll_held | with_reducible apply Mach.keptEnd_held | with_reducible apply Mach.breakPath_held | with_reducible apply Mach.endEnable_held | with_reducible apply Mach.leaveFollow_held | with_reducible apply Mach.trimStop_held | with_reducible apply Mach.modAx_held | with_reducible apply Mach.post_held | with_reducible apply Mach.masterLost_held | with_reducible apply Mach.setBit_held | with_reducible apply Mach.ite_held | split | (apply Mach.held_upd; focus (constructor; (dsimp only <;> exact rfl); all_goals (first | with_reducible exact .inl rfl | with_reducible exact rfl | exact .inr (hT.has (by decide))))))

theorem Mach.writeAxCtrl_held {T : Scope} {m : Mach} (h : m.Within T) (hT : T.allows 0x400080000000000000004200040080000001000100000000000000000000002bc00) (n v : Nat) : (Mach.writeAxCtrl m n v).Within T := by
  unfold Mach.writeAxCtrl
  try dsimp only
  repeat' (first | exact hT.sub (by decide) | intro _ | with_reducible assumption | with_reducible apply Mach.setBit_held | with_reducible apply Mach.ctrlDisable_held | with_reducible apply Mach.ctrlMaqExit_held | with_reducible apply Mach.ctrlEstop_held | with_reducible apply Mach.ctrlMaqEnter_held | with_reducible apply Mach.ctrlEnable_held | with_reducible apply Mach.ite_held | split)

theorem Mach.setUntested_held {T : Scope} {m : Mach} (h : m.Within T) (hT : T.allows 0x300000000000000000000) (n : Nat) (on : Bool) : (Mach.setUntested m n on).Within T := by
  unfold Mach.setUntested
  try dsimp only
  repeat' (first | exact hT.sub (by decide) | intro _ | with_reducible assumption | with_reducible apply Mach.setReg_held | with_reducible apply Mach.ite_held | split)

theorem Mach.armingFail_held {T : Scope} {m : Mach} (h : m.Within T) (hT : T.allows 0x400080000000000000004200000080000001000100000000000000000000000bc00) (n : Nat) : (Mach.armingFail m n).Within T := by
  unfold Mach.armingFail
  try dsimp only
  repeat' (first | exact hT.sub (by decide) | intro _ | with_reducible assumption | with_reducible apply Mach.retireAll_held | with_reducible apply Mach.trimStop_held | with_reducible apply Mach.modAx_held | with_reducible apply Mach.masterLost_held | with_reducible apply Mach.post_held | (apply Mach.held_upd; focus (constructor; (dsimp only <;> exact rfl); all_goals (first | with_reducible exact .inl rfl | with_reducible exact rfl | exact .inr (hT.has (by decide))))))

theorem Mach.armingHold_held {T : Scope} {m : Mach} (h : m.Within T) (hT : T.allows 0x2000000000000000000000000800000000000000000300000000000000001c00) (n : Nat) : (Mach.armingHold m n).Within T := by
  unfold Mach.armingHold
  try dsimp only
  repeat' (first | exact hT.sub (by decide) | intro _ | with_reducible assumption | with_reducible apply Mach.setUntested_held | with_reducible apply Mach.modAx_held | with_reducible apply Mach.endEnable_held | with_reducible apply Mach.verCapture_held | with_reducible apply Mach.post_held | (apply Mach.held_upd; focus (constructor; (dsimp only <;> exact rfl); all_goals (first | with_reducible exact .inl rfl | with_reducible exact rfl | exact .inr (hT.has (by decide))))))

theorem Mach.armingDone_held {T : Scope} {m : Mach} (h : m.Within T) (hT : T.allows 0x40028000000000000c804200000080000001000100007030000000000000000bc00) (n : Nat) (bridgeOk : Bool) (w : MotorMeas) : (Mach.armingDone m n bridgeOk w).Within T := by
  unfold Mach.armingDone
  try dsimp only
  repeat' (first | exact hT.sub (by decide) | intro _ | with_reducible assumption | with_reducible apply Mach.armingHold_held | with_reducible apply Mach.armingFail_held | with_reducible apply Mach.motorChar_held | with_reducible apply Mach.ite_held | split | refine Mach.of_fst (by with_reducible assumption) ?_ | refine Mach.of_snd (by with_reducible assumption) ?_)

theorem Mach.stillRamp_held {T : Scope} {m : Mach} (h : m.Within T) (hT : T.allows 0x400) (n : Nat) : (Mach.stillRamp m n).Within T := by
  unfold Mach.stillRamp
  try dsimp only
  repeat' (first | exact hT.sub (by decide) | intro _ | with_reducible assumption | with_reducible apply Mach.modAx_held | with_reducible apply Mach.ite_held | split | (apply Mach.held_upd; focus (constructor; (dsimp only <;> exact rfl); all_goals (first | with_reducible exact .inl rfl | with_reducible exact rfl | exact .inr (hT.has (by decide))))))

theorem Mach.setLim_held {T : Scope} {m : Mach} (h : m.Within T) (hT : T.allows 0x20) (n : Nat) (sideB level : Bool) : (Mach.setLim m n sideB level).Within T := by
  unfold Mach.setLim
  try dsimp only
  repeat' (first | exact hT.sub (by decide) | intro _ | with_reducible assumption | with_reducible apply Mach.ite_held | split | (apply Mach.held_upd; focus (constructor; (dsimp only <;> exact rfl); all_goals (first | with_reducible exact .inl rfl | with_reducible exact rfl | exact .inr (hT.has (by decide))))))

theorem Mach.limitActive_held {T : Scope} {m : Mach} (h : m.Within T) (hT : T.allows 0x400080000000000000000000000080000001002100000000000000000000000bc20) (n : Nat) (sideB : Bool) : (Mach.limitActive m n sideB).Within T := by
  unfold Mach.limitActive
  try dsimp only
  repeat' (first | exact hT.sub (by decide) | intro _ | with_reducible assumption | with_reducible apply Mach.setLim_held | with_reducible apply Mach.estop_held | with_reducible apply Mach.setBit_held | with_reducible apply Mach.modAx_held | with_reducible apply Mach.bump_held | with_reducible apply Mach.post_held | with_reducible apply Mach.homeFail_held | with_reducible apply Mach.hardStopAt_held | with_reducible apply Mach.ite_held | split | refine Mach.of_fst (by with_reducible assumption) ?_ | refine Mach.of_snd (by with_reducible assumption) ?_ | (apply Mach.held_upd; focus (constructor; (dsimp only <;> exact rfl); all_goals (first | with_reducible exact .inl rfl | with_reducible exact rfl | exact .inr (hT.has (by decide))))))

theorem Mach.limitEdges_held {T : Scope} {m : Mach} (h : m.Within T) (hT : T.allows 0x400080000000000000000000000080000001002100000000000000000000000bc20) (before : Mach) : (Mach.limitEdges m before).Within T := by
  unfold Mach.limitEdges
  try dsimp only
  repeat' (first | exact hT.sub (by decide) | intro _ | with_reducible assumption | with_reducible apply Mach.each_held | with_reducible apply Mach.limitActive_held | with_reducible apply Mach.ite_held | split)

theorem Mach.limClear_held {T : Scope} {m : Mach} (h : m.Within T) (hT : T.allows 0x800000000020000000000000000000000001000) (n : Nat) (sideB : Bool) : (Mach.limClear m n sideB).Within T := by
  unfold Mach.limClear
  try dsimp only
  repeat' (first | exact hT.sub (by decide) | intro _ | with_reducible assumption | with_reducible apply Mach.setBit_held | with_reducible apply Mach.clrFld_held | with_reducible apply Mach.post_held | with_reducible apply Mach.ite_held | split)

theorem Mach.homeRef_held {T : Scope} {m : Mach} (h : m.Within T) (hT : T.allows 0x18000000000000000000000000000400) (n ts : Nat) : (Mach.homeRef m n ts).Within T := by
  unfold Mach.homeRef
  try dsimp only
  repeat' (first | exact hT.sub (by decide) | intro _ | with_reducible assumption | with_reducible apply Mach.homeEdge_held | with_reducible apply Mach.ite_held | split | refine Mach.of_fst (by with_reducible assumption) ?_ | refine Mach.of_snd (by with_reducible assumption) ?_)

theorem Mach.portReset_held {T : Scope} {m : Mach} (h : m.Within T) (hT : T.allows 0x1030000000000000000000000000000000000000000000000000000000008000000) (p : Nat) : (Mach.portReset m p).Within T := by
  unfold Mach.portReset
  try dsimp only
  repeat' (first | exact hT.sub (by decide) | intro _ | with_reducible assumption | with_reducible apply Mach.modPort_held | with_reducible apply Mach.reset_held | with_reducible apply Mach.setReg_held | with_reducible apply Mach.clrFld_held | (apply Mach.held_upd; focus (constructor; (dsimp only <;> exact rfl); all_goals (first | with_reducible exact .inl rfl | with_reducible exact rfl | exact .inr (hT.has (by decide))))))

theorem Mach.portFault_held {T : Scope} {m : Mach} (h : m.Within T) (hT : T.allows 0x401080000000000000000000000080000001000100000000000000000000000bc00) (p cause code data : Nat) : (Mach.portFault m p cause code data).Within T := by
  unfold Mach.portFault
  try dsimp only
  repeat' (first | exact hT.sub (by decide) | intro _ | with_reducible assumption | with_reducible apply Mach.setBit_held | with_reducible apply Mach.wr_held | with_reducible apply Mach.post_held | with_reducible apply Mach.faultAfterEstop_held | with_reducible apply Mach.ite_held | split)

theorem Mach.portFaultClear_held {T : Scope} {m : Mach} (h : m.Within T) (hT : T.allows 0x30000000000000000000000000800000000000000000000000000000000001000) (p : Nat) : (Mach.portFaultClear m p).Within T := by
  unfold Mach.portFaultClear
  try dsimp only
  repeat' (first | exact hT.sub (by decide) | intro _ | with_reducible assumption | with_reducible apply Mach.clrFld_held | with_reducible apply Mach.post_held)

theorem Mach.portEvent_held {T : Scope} {m : Mach} (h : m.Within T) (hT : T.allows 0x20000000000000000000000000000000000000000000000000000000008000000) (p : Nat) : (Mach.portEvent m p).Within T := by
  unfold Mach.portEvent
  try dsimp only
  repeat' (first | exact hT.sub (by decide) | intro _ | with_reducible assumption | with_reducible apply Mach.modPort_held | with_reducible apply Mach.clrFld_held | with_reducible apply Mach.ite_held | split | (apply Mach.held_upd; focus (constructor; (dsimp only <;> exact rfl); all_goals (first | with_reducible exact .inl rfl | with_reducible exact rfl | exact .inr (hT.has (by decide))))))

theorem Mach.portCount_held {T : Scope} {m : Mach} (h : m.Within T) (hT : T.allows 0x30000000000000000000000000000000000000000000000000000000008000000) (p : Nat) (d0 : Int) (cyc : Nat) : (Mach.portCount m p d0 cyc).Within T := by
  unfold Mach.portCount
  try dsimp only
  repeat' (first | exact hT.sub (by decide) | intro _ | with_reducible assumption | with_reducible apply Mach.modPort_held | with_reducible apply Mach.clrFld_held | with_reducible apply Mach.wr_held | with_reducible apply Mach.portEvent_held | with_reducible apply Mach.ite_held | split | (apply Mach.held_upd; focus (constructor; (dsimp only <;> exact rfl); all_goals (first | with_reducible exact .inl rfl | with_reducible exact rfl | exact .inr (hT.has (by decide))))))

theorem Mach.portErr_held {T : Scope} {m : Mach} (h : m.Within T) (hT : T.allows 0x403080000000000000000000000080000001000100000000000000000000800bc00) (p : Nat) (hall : Bool) : (Mach.portErr m p hall).Within T := by
  unfold Mach.portErr
  try dsimp only
  repeat' (first | exact hT.sub (by decide) | intro _ | with_reducible assumption | with_reducible apply Mach.bump_held | with_reducible apply Mach.modPort_held | with_reducible apply Mach.portFault_held | with_reducible apply Mach.portEvent_held | with_reducible apply Mach.ite_held | split | (apply Mach.held_upd; focus (constructor; (dsimp only <;> exact rfl); all_goals (first | with_reducible exact .inl rfl | with_reducible exact rfl | exact .inr (hT.has (by decide))))))

theorem Mach.portLevels_held {T : Scope} {m : Mach} (h : m.Within T) (hT : T.allows 0x8000000) (p lvl : Nat) : (Mach.portLevels m p lvl).Within T := by
  unfold Mach.portLevels
  try dsimp only
  repeat' (first | exact hT.sub (by decide) | intro _ | with_reducible assumption | with_reducible apply Mach.modPort_held | (apply Mach.held_upd; focus (constructor; (dsimp only <;> exact rfl); all_goals (first | with_reducible exact .inl rfl | with_reducible exact rfl | exact .inr (hT.has (by decide))))))

theorem Mach.indexTake_held {T : Scope} {m : Mach} (h : m.Within T) (hT : T.allows 0x80090000000000000000000000000800000018000000000000000000000008001400) (p : Nat) : (Mach.indexTake m p).Within T := by
  unfold Mach.indexTake
  try dsimp only
  repeat' (first | exact hT.sub (by decide) | intro _ | with_reducible assumption | with_reducible apply Mach.wr_held | with_reducible apply Mach.setBit_held | with_reducible apply Mach.wrS_held | with_reducible apply Mach.reset_held | with_reducible apply Mach.modPort_held | with_reducible apply Mach.post_held | with_reducible apply Mach.clrFld_held | with_reducible apply Mach.each_held | with_reducible apply Mach.homeEdge_held | with_reducible apply Mach.ite_held | split | refine Mach.of_fst (by with_reducible assumption) ?_ | refine Mach.of_snd (by with_reducible assumption) ?_ | (apply Mach.held_upd; focus (constructor; (dsimp only <;> exact rfl); all_goals (first | with_reducible exact .inl rfl | with_reducible exact rfl | exact .inr (hT.has (by decide))))))

theorem Mach.quadTake_held {T : Scope} {m : Mach} (h : m.Within T) (hT : T.allows 0x403080000000000000000000000080000001000100000000000000000000800bc00) (p old new cyc : Nat) : (Mach.quadTake m p old new cyc).Within T := by
  unfold Mach.quadTake
  try dsimp only
  repeat' (first | exact hT.sub (by decide) | intro _ | with_reducible assumption | with_reducible apply Mach.portErr_held | with_reducible apply Mach.portCount_held | with_reducible apply Mach.ite_held | split)

theorem Mach.hallTake_held {T : Scope} {m : Mach} (h : m.Within T) (hT : T.allows 0x403080000000000000000000000080000001000100000000000000000000800bc00) (p old new cyc : Nat) : (Mach.hallTake m p old new cyc).Within T := by
  unfold Mach.hallTake
  try dsimp only
  repeat' (first | exact hT.sub (by decide) | intro _ | with_reducible assumption | with_reducible apply Mach.portErr_held | with_reducible apply Mach.portCount_held | with_reducible apply Mach.ite_held | split | refine Mach.of_fst (by with_reducible assumption) ?_ | refine Mach.of_snd (by with_reducible assumption) ?_)

theorem Mach.stepTake_held {T : Scope} {m : Mach} (h : m.Within T) (hT : T.allows 0x30000000000000000000000000000000000000000000000000000000008000000) (p : Nat) (dir : Bool) (new cyc : Nat) : (Mach.stepTake m p dir new cyc).Within T := by
  unfold Mach.stepTake
  try dsimp only
  repeat' (first | exact hT.sub (by decide) | intro _ | with_reducible assumption | with_reducible apply Mach.portCount_held | with_reducible apply Mach.ite_held | split)

theorem Mach.portTake_held {T : Scope} {m : Mach} (h : m.Within T) (hT : T.allows 0x840b080000000000000000000000080000001800100000000000000000000800bc00) (p old cyc : Nat) : (Mach.portTake m p old cyc).Within T := by
  unfold Mach.portTake
  try dsimp only
  repeat' (first | exact hT.sub (by decide) | intro _ | with_reducible assumption | with_reducible apply Mach.quadTake_held | with_reducible apply Mach.indexTake_held | with_reducible apply Mach.hallTake_held | with_reducible apply Mach.stepTake_held | with_reducible apply Mach.ite_held | split | refine Mach.of_fst (by with_reducible assumption) ?_ | refine Mach.of_snd (by with_reducible assumption) ?_)

theorem Mach.quadEdge_held {T : Scope} {m : Mach} (h : m.Within T) (hT : T.allows 0x840b080000000000000000000000080000001800100000000000000000000800bc00) (p : Nat) (a b z : Bool) (cyc : Nat) : (Mach.quadEdge m p a b z cyc).Within T := by
  unfold Mach.quadEdge
  try dsimp only
  repeat' (first | exact hT.sub (by decide) | intro _ | with_reducible assumption | with_reducible apply Mach.portLevels_held | with_reducible apply Mach.portTake_held)

theorem Mach.hallChange_held {T : Scope} {m : Mach} (h : m.Within T) (hT : T.allows 0x840b080000000000000000000000080000001800100000000000000000000800bc00) (p code cyc : Nat) : (Mach.hallChange m p code cyc).Within T := by
  unfold Mach.hallChange
  try dsimp only
  repeat' (first | exact hT.sub (by decide) | intro _ | with_reducible assumption | with_reducible apply Mach.portLevels_held | with_reducible apply Mach.modPort_held | with_reducible apply Mach.portTake_held | (apply Mach.held_upd; focus (constructor; (dsimp only <;> exact rfl); all_goals (first | with_reducible exact .inl rfl | with_reducible exact rfl | exact .inr (hT.has (by decide))))))

theorem Mach.stepEdge_held {T : Scope} {m : Mach} (h : m.Within T) (hT : T.allows 0x840b080000000000000000000000080000001800100000000000000000000800bc00) (p : Nat) (dir ena : Bool) (cyc : Nat) : (Mach.stepEdge m p dir ena cyc).Within T := by
  unfold Mach.stepEdge
  try dsimp only
  repeat' (first | exact hT.sub (by decide) | intro _ | with_reducible assumption | with_reducible apply Mach.portLevels_held | with_reducible apply Mach.portTake_held)

theorem Mach.indexEdge_held {T : Scope} {m : Mach} (h : m.Within T) (hT : T.allows 0x840b080000000000000000000000080000001800100000000000000000000800bc00) (p : Nat) : (Mach.indexEdge m p).Within T := by
  unfold Mach.indexEdge
  try dsimp only
  repeat' (first | exact hT.sub (by decide) | intro _ | with_reducible assumption | with_reducible apply Mach.portLevels_held | with_reducible apply Mach.portTake_held)

theorem Mach.polChange_held {T : Scope} {m : Mach} (h : m.Within T) (hT : T.allows 0x840b080000000000000000000000080000001800100000000000000000000800bc00) (p oldPol : Nat) : (Mach.polChange m p oldPol).Within T := by
  unfold Mach.polChange
  try dsimp only
  repeat' (first | exact hT.sub (by decide) | intro _ | with_reducible assumption | with_reducible apply Mach.portTake_held)

theorem Mach.portLevel_held {T : Scope} {m : Mach} (h : m.Within T) (hT : T.allows 0x8000000) (p now : Nat) (held : Nat → Nat) : (Mach.portLevel m p now held).Within T := by
  unfold Mach.portLevel
  try dsimp only
  repeat' (first | exact hT.sub (by decide) | intro _ | with_reducible assumption | with_reducible apply Mach.modPort_held | with_reducible apply Mach.ite_held | split | (apply Mach.held_upd; focus (constructor; (dsimp only <;> exact rfl); all_goals (first | with_reducible exact .inl rfl | with_reducible exact rfl | exact .inr (hT.has (by decide))))))

theorem Mach.portsLevel_held {T : Scope} {m : Mach} (h : m.Within T) (hT : T.allows 0x8000000) (lv : Nat) (held : List Nat) : (Mach.portsLevel m lv held).Within T := by
  unfold Mach.portsLevel
  try dsimp only
  repeat' (first | exact hT.sub (by decide) | intro _ | with_reducible assumption | with_reducible apply Mach.each_held | with_reducible apply Mach.portLevel_held)

theorem Mach.writeFbCtrl_held {T : Scope} {m : Mach} (h : m.Within T) (hT : T.allows 0x10000000000000000000000000000000000000000000000000000000000000000) (p v : Nat) : (Mach.writeFbCtrl m p v).Within T := by
  unfold Mach.writeFbCtrl
  try dsimp only
  repeat' (first | exact hT.sub (by decide) | intro _ | with_reducible assumption | with_reducible apply Mach.clrFld_held | with_reducible apply Mach.setBit_held | with_reducible apply Mach.ite_held | split)

theorem Mach.portTick_held {T : Scope} {m : Mach} (h : m.Within T) (hT : T.allows 0x60000000000000000000000000000000000000000000000000000000000008000000) (p : Nat) : (Mach.portTick m p).Within T := by
  unfold Mach.portTick
  try dsimp only
  repeat' (first | exact hT.sub (by decide) | intro _ | with_reducible assumption | with_reducible apply Mach.modPort_held | with_reducible apply Mach.wr_held | with_reducible apply Mach.ite_held | split | (apply Mach.held_upd; focus (constructor; (dsimp only <;> exact rfl); all_goals (first | with_reducible exact .inl rfl | with_reducible exact rfl | exact .inr (hT.has (by decide))))))

theorem Mach.speedTimeout_held {T : Scope} {m : Mach} (h : m.Within T) (hT : T.allows 0x10000000000000000000000000000000000000000000000000000000008000000) (p : Nat) : (Mach.speedTimeout m p).Within T := by
  unfold Mach.speedTimeout
  try dsimp only
  repeat' (first | exact hT.sub (by decide) | intro _ | with_reducible assumption | with_reducible apply Mach.modPort_held | with_reducible apply Mach.setBit_held | (apply Mach.held_upd; focus (constructor; (dsimp only <;> exact rfl); all_goals (first | with_reducible exact .inl rfl | with_reducible exact rfl | exact .inr (hT.has (by decide))))))

theorem Mach.portRescale_held {T : Scope} {m : Mach} (h : m.Within T) (hT : T.allows 0x8000000) (p : Nat) : (Mach.portRescale m p).Within T := by
  unfold Mach.portRescale
  try dsimp only
  repeat' (first | exact hT.sub (by decide) | intro _ | with_reducible assumption | with_reducible apply Mach.modPort_held | (apply Mach.held_upd; focus (constructor; (dsimp only <;> exact rfl); all_goals (first | with_reducible exact .inl rfl | with_reducible exact rfl | exact .inr (hT.has (by decide))))))

theorem Mach.serialRead_held {T : Scope} {m : Mach} (h : m.Within T) (hT : T.allows 0x10000000000000000000000000000000000000000000000000000000008000000) (p : Nat) : (Mach.serialRead m p).Within T := by
  unfold Mach.serialRead
  try dsimp only
  repeat' (first | exact hT.sub (by decide) | intro _ | with_reducible assumption | with_reducible apply Mach.setBit_held | with_reducible apply Mach.modPort_held | with_reducible apply Mach.ite_held | split | (apply Mach.held_upd; focus (constructor; (dsimp only <;> exact rfl); all_goals (first | with_reducible exact .inl rfl | with_reducible exact rfl | exact .inr (hT.has (by decide))))))

theorem Mach.serialWord_held {T : Scope} {m : Mach} (h : m.Within T) (hT : T.allows 0x10503080000000000000000000000080000001000100000000000000000000800bc00) (p : Nat) (waits : FrameWaits) (raw : Nat) (eBit wBit : Bool) (crc : Nat) : (Mach.serialWord m p waits raw eBit wBit crc).Within T := by
  unfold Mach.serialWord
  try dsimp only
  repeat' (first | exact hT.sub (by decide) | intro _ | with_reducible assumption | with_reducible apply Mach.modPort_held | with_reducible apply Mach.setReg_held | with_reducible apply Mach.bump_held | with_reducible apply Mach.portFault_held | with_reducible apply Mach.clrFld_held | with_reducible apply Mach.wr_held | with_reducible apply Mach.setBit_held | with_reducible apply Mach.post_held | with_reducible apply Mach.ite_held | split | refine Mach.of_fst (by with_reducible assumption) ?_ | refine Mach.of_snd (by with_reducible assumption) ?_ | (apply Mach.held_upd; focus (constructor; (dsimp only <;> exact rfl); all_goals (first | with_reducible exact .inl rfl | with_reducible exact rfl | exact .inr (hT.has (by decide))))))

theorem Mach.fbEngageReq_held {T : Scope} {m : Mach} (h : m.Within T) (hT : T.allows 0x10000000000000000000000000000000000000000000000000000000000000400) (p : Nat) : (Mach.fbEngageReq m p).Within T := by
  unfold Mach.fbEngageReq
  try dsimp only
  repeat' (first | exact hT.sub (by decide) | intro _ | with_reducible assumption | with_reducible apply Mach.modAx_held | with_reducible apply Mach.setBit_held | with_reducible apply Mach.ite_held | split | (apply Mach.held_upd; focus (constructor; (dsimp only <;> exact rfl); all_goals (first | with_reducible exact .inl rfl | with_reducible exact rfl | exact .inr (hT.has (by decide))))))

theorem Mach.fbDisengage_held {T : Scope} {m : Mach} (h : m.Within T) (hT : T.allows 0x4000800000000000000000000000800000010000000000000000000000000009c00) (p : Nat) : (Mach.fbDisengage m p).Within T := by
  unfold Mach.fbDisengage
  try dsimp only
  repeat' (first | exact hT.sub (by decide) | intro _ | with_reducible assumption | with_reducible apply Mach.each_held | with_reducible apply Mach.startStop_held | with_reducible apply Mach.ite_held | split | refine Mach.of_fst (by with_reducible assumption) ?_ | refine Mach.of_snd (by with_reducible assumption) ?_)

theorem Mach.writeFbFollow_held {T : Scope} {m : Mach} (h : m.Within T) (hT : T.allows 0x4010800000000000000000000000800000010000000000000000000000000009c00) (p v : Nat) : (Mach.writeFbFollow m p v).Within T := by
  unfold Mach.writeFbFollow
  try dsimp only
  repeat' (first | exact hT.sub (by decide) | intro _ | with_reducible assumption | with_reducible apply Mach.setReg_held | with_reducible apply Mach.fbEngageReq_held | with_reducible apply Mach.fbDisengage_held | with_reducible apply Mach.ite_held | split)

theorem Mach.modSf_held {T : Scope} {m : Mach} (h : m.Within T) (hT : T.allows 0x10000000) (f : FrontEnd → FrontEnd) : (Mach.modSf m f).Within T := by
  unfold Mach.modSf
  try dsimp only
  repeat' (first | exact hT.sub (by decide) | intro _ | with_reducible assumption | with_reducible apply Mach.modConv_held | with_reducible apply Mach.reset_held | with_reducible apply Mach.modChan_held | (apply Mach.held_upd; focus (constructor; (dsimp only <;> exact rfl); all_goals (first | with_reducible exact .inl rfl | with_reducible exact rfl | exact .inr (hT.has (by decide))))))

theorem Mach.modConv_held {T : Scope} {m : Mach} (h : m.Within T) (hT : T.allows 0x10000000) (k : Nat) (f : Conv → Conv) : (Mach.modConv m k f).Within T := by
  unfold Mach.modConv
  try dsimp only
  repeat' (first | exact hT.sub (by decide) | intro _ | with_reducible assumption | with_reducible apply Mach.modSf_held | with_reducible apply Mach.reset_held | with_reducible apply Mach.modChan_held | (apply Mach.held_upd; focus (constructor; (dsimp only <;> exact rfl); all_goals (first | with_reducible exact .inl rfl | with_reducible exact rfl | exact .inr (hT.has (by decide))))))

theorem Mach.modChan_held {T : Scope} {m : Mach} (h : m.Within T) (hT : T.allows 0x10000000) (c : Nat) (f : SfChan → SfChan) : (Mach.modChan m c f).Within T := by
  unfold Mach.modChan
  try dsimp only
  repeat' (first | exact hT.sub (by decide) | intro _ | with_reducible assumption | with_reducible apply Mach.modSf_held | (apply Mach.held_upd; focus (constructor; (dsimp only <;> exact rfl); all_goals (first | with_reducible exact .inl rfl | with_reducible exact rfl | exact .inr (hT.has (by decide))))))

theorem Mach.sfCfgBad_held {T : Scope} {m : Mach} (h : m.Within T) (hT : T.allows 0x400000000000000000000000000000800000000000000000000000000000000001000) (addr : Nat) : (Mach.sfCfgBad m addr).Within T := by
  unfold Mach.sfCfgBad
  try dsimp only
  repeat' (first | exact hT.sub (by decide) | intro _ | with_reducible assumption | with_reducible apply Mach.setBit_held | with_reducible apply Mach.post_held)

theorem Mach.repTake_held {T : Scope} {m : Mach} (h : m.Within T) (hT : T.allows 0x40000000000000000000000000000000000000000000000000000000000000000000010000000) (src : Nat) (x : Int) (r : Nat) : (Mach.repTake m src x r).Within T := by
  unfold Mach.repTake
  try dsimp only
  repeat' (first | exact hT.sub (by decide) | intro _ | with_reducible assumption | with_reducible apply Mach.modSf_held | with_reducible apply Mach.wr_held | with_reducible apply Mach.clrFld_held | with_reducible apply Mach.ite_held | split | refine Mach.of_fst (by with_reducible assumption) ?_ | refine Mach.of_snd (by with_reducible assumption) ?_ | (apply Mach.held_upd; focus (constructor; (dsimp only <;> exact rfl); all_goals (first | with_reducible exact .inl rfl | with_reducible exact rfl | exact .inr (hT.has (by decide))))))

theorem Mach.repSource_held {T : Scope} {m : Mach} (h : m.Within T) (hT : T.allows 0x40000000000000000000000000000000000000000000000000000000000000000000010000000) (src : Nat) (x : Int) : (Mach.repSource m src x).Within T := by
  unfold Mach.repSource
  try dsimp only
  repeat' (first | exact hT.sub (by decide) | intro _ | with_reducible assumption | with_reducible apply Mach.each_held | with_reducible apply Mach.repTake_held)

theorem Mach.repStale_held {T : Scope} {m : Mach} (h : m.Within T) (hT : T.allows 0x40000000000000000000000000000000000000000000000000000000000000000000010000000) (src : Nat) : (Mach.repStale m src).Within T := by
  unfold Mach.repStale
  try dsimp only
  repeat' (first | exact hT.sub (by decide) | intro _ | with_reducible assumption | with_reducible apply Mach.each_held | with_reducible apply Mach.setBit_held | with_reducible apply Mach.modSf_held | with_reducible apply Mach.ite_held | split | (apply Mach.held_upd; focus (constructor; (dsimp only <;> exact rfl); all_goals (first | with_reducible exact .inl rfl | with_reducible exact rfl | exact .inr (hT.has (by decide))))))

theorem Mach.repPeriodEnd_held {T : Scope} {m : Mach} (h : m.Within T) (hT : T.allows 0x40000000000000000000000000000000000000000000000000000000000000000000010000000) (r : Nat) : (Mach.repPeriodEnd m r).Within T := by
  unfold Mach.repPeriodEnd
  try dsimp only
  repeat' (first | exact hT.sub (by decide) | intro _ | with_reducible assumption | with_reducible apply Mach.modSf_held | with_reducible apply Mach.wr_held | split | refine Mach.of_fst (by with_reducible assumption) ?_ | refine Mach.of_snd (by with_reducible assumption) ?_ | (apply Mach.held_upd; focus (constructor; (dsimp only <;> exact rfl); all_goals (first | with_reducible exact .inl rfl | with_reducible exact rfl | exact .inr (hT.has (by decide))))))

theorem Mach.repStart_held {T : Scope} {m : Mach} (h : m.Within T) (hT : T.allows 0x40000000000000000000000000000000000000000000000000000000000000000000010000000) (r : Nat) : (Mach.repStart m r).Within T := by
  unfold Mach.repStart
  try dsimp only
  repeat' (first | exact hT.sub (by decide) | intro _ | with_reducible assumption | with_reducible apply Mach.modSf_held | with_reducible apply Mach.wr_held | with_reducible apply Mach.ite_held | split | (apply Mach.held_upd; focus (constructor; (dsimp only <;> exact rfl); all_goals (first | with_reducible exact .inl rfl | with_reducible exact rfl | exact .inr (hT.has (by decide))))))

theorem Mach.repWritten_held {T : Scope} {m : Mach} (h : m.Within T) (hT : T.allows 0x40000000000000000000000000000000000000000000000000000000000000000000010000000) (r : Nat) (was : Bool) : (Mach.repWritten m r was).Within T := by
  unfold Mach.repWritten
  try dsimp only
  repeat' (first | exact hT.sub (by decide) | intro _ | with_reducible assumption | with_reducible apply Mach.repStart_held | with_reducible apply Mach.wr_held | with_reducible apply Mach.modSf_held | with_reducible apply Mach.ite_held | split | (apply Mach.held_upd; focus (constructor; (dsimp only <;> exact rfl); all_goals (first | with_reducible exact .inl rfl | with_reducible exact rfl | exact .inr (hT.has (by decide))))))

theorem Mach.setStale_held {T : Scope} {m : Mach} (h : m.Within T) (hT : T.allows 0x40408000000000000000000000000002000000800000000000000000000000000000010001400) (c : Nat) : (Mach.setStale m c).Within T := by
  unfold Mach.setStale
  try dsimp only
  repeat' (first | exact hT.sub (by decide) | intro _ | with_reducible assumption | with_reducible apply Mach.setReg_held | with_reducible apply Mach.setBit_held | with_reducible apply Mach.each_held | with_reducible apply Mach.trimStale_held | with_reducible apply Mach.repStale_held | with_reducible apply Mach.ite_held | split)

theorem Mach.gainAfresh_held {T : Scope} {m : Mach} (h : m.Within T) (hT : T.allows 0x10000000) (c : Nat) : (Mach.gainAfresh m c).Within T := by
  unfold Mach.gainAfresh
  try dsimp only
  repeat' (first | exact hT.sub (by decide) | intro _ | with_reducible assumption | with_reducible apply Mach.modChan_held | with_reducible apply Mach.autoGain_held | (apply Mach.held_upd; focus (constructor; (dsimp only <;> exact rfl); all_goals (first | with_reducible exact .inl rfl | with_reducible exact rfl | exact .inr (hT.has (by decide))))))

theorem Mach.sfTakeCh_held {T : Scope} {m : Mach} (h : m.Within T) (hT : T.allows 0x10000004) (c : Nat) : (Mach.sfTakeCh m c).Within T := by
  unfold Mach.sfTakeCh
  try dsimp only
  repeat' (first | exact hT.sub (by decide) | intro _ | with_reducible assumption | with_reducible apply Mach.when_held | with_reducible apply Mach.gainAfresh_held | with_reducible apply Mach.sfTakeConv_held | with_reducible apply Mach.sfTakeSeq_held | (apply Mach.held_upd; focus (constructor; (dsimp only <;> exact rfl); all_goals (first | with_reducible exact .inl rfl | with_reducible exact rfl | exact .inr (hT.has (by decide))))))

theorem Mach.sfTakeConv_held {T : Scope} {m : Mach} (h : m.Within T) (hT : T.allows 0x4) (k : Nat) : (Mach.sfTakeConv m k).Within T := by
  unfold Mach.sfTakeConv
  try dsimp only
  repeat' (first | exact hT.sub (by decide) | intro _ | with_reducible assumption | with_reducible apply Mach.sfTakeSeq_held | (apply Mach.held_upd; focus (constructor; (dsimp only <;> exact rfl); all_goals (first | with_reducible exact .inl rfl | with_reducible exact rfl | exact .inr (hT.has (by decide))))))

theorem Mach.sfTakeSeq_held {T : Scope} {m : Mach} (h : m.Within T) (hT : T.allows 0x4) (k : Nat) : (Mach.sfTakeSeq m k).Within T := by
  unfold Mach.sfTakeSeq
  try dsimp only
  repeat' (first | exact hT.sub (by decide) | intro _ | with_reducible assumption | (apply Mach.held_upd; focus (constructor; (dsimp only <;> exact rfl); all_goals (first | with_reducible exact .inl rfl | with_reducible exact rfl | exact .inr (hT.has (by decide))))))

theorem Mach.connect_held {T : Scope} {m : Mach} (h : m.Within T) (hT : T.allows 0x8002000000000000000000000000000000000000000000000000000000000000010000004) (k i c : Nat) : (Mach.connect m k i c).Within T := by
  unfold Mach.connect
  try dsimp only
  repeat' (first | exact hT.sub (by decide) | intro _ | with_reducible assumption | with_reducible apply Mach.sfTakeConv_held | with_reducible apply Mach.modConv_held | with_reducible apply Mach.wr_held | (apply Mach.held_upd; focus (constructor; (dsimp only <;> exact rfl); all_goals (first | with_reducible exact .inl rfl | with_reducible exact rfl | exact .inr (hT.has (by decide))))))

theorem Mach.nextEntry_held {T : Scope} (hT : T.allows 0x10000004) (k fuel : Nat) : ∀ {m : Mach}, m.Within T → ∀ i : Nat, (m.nextEntry k fuel i).1.Within T := by
  induction fuel with
  | zero => intro m h i; exact h
  | succ fuel ih =>
    intro m h i
    rw [Mach.nextEntry]
    split
    · exact h
    · dsimp only
      split
      · exact Mach.sfTakeCh_held h (hT.sub (by decide)) _
      · exact ih (Mach.sfTakeCh_held h (hT.sub (by decide)) _) _

theorem Mach.convIdle_held {T : Scope} {m : Mach} (h : m.Within T) (hT : T.allows 0x2000000000000000000000000000000000000000000000000000000000000010000000) (k : Nat) : (Mach.convIdle m k).Within T := by
  unfold Mach.convIdle
  try dsimp only
  repeat' (first | exact hT.sub (by decide) | intro _ | with_reducible assumption | with_reducible apply Mach.modConv_held | with_reducible apply Mach.clrFld_held | (apply Mach.held_upd; focus (constructor; (dsimp only <;> exact rfl); all_goals (first | with_reducible exact .inl rfl | with_reducible exact rfl | exact .inr (hT.has (by decide))))))

theorem Mach.passBegin_held {T : Scope} {m : Mach} (h : m.Within T) (hT : T.allows 0x8002000000000000000000000000000000000000000000000000000000000000010000004) (k : Nat) : (Mach.passBegin m k).Within T := by
  unfold Mach.passBegin
  try dsimp only
  repeat' (first | exact hT.sub (by decide) | intro _ | with_reducible assumption | with_reducible apply Mach.sfTakeSeq_held | with_reducible apply Mach.sfTakeConv_held | with_reducible apply Mach.nextEntry_held | with_reducible apply Mach.modConv_held | with_reducible apply Mach.setBit_held | with_reducible apply Mach.connect_held | with_reducible apply Mach.convIdle_held | with_reducible apply Mach.ite_held | split | refine Mach.of_fst (by with_reducible assumption) ?_ | refine Mach.of_snd (by with_reducible assumption) ?_ | (apply Mach.held_upd; focus (constructor; (dsimp only <;> exact rfl); all_goals (first | with_reducible exact .inl rfl | with_reducible exact rfl | exact .inr (hT.has (by decide))))))

theorem Mach.advance_held {T : Scope} {m : Mach} (h : m.Within T) (hT : T.allows 0x8002000000000000000000000000000000000000000000000000000000000000010000004) (k i : Nat) : (Mach.advance m k i).Within T := by
  unfold Mach.advance
  try dsimp only
  repeat' (first | exact hT.sub (by decide) | intro _ | with_reducible assumption | with_reducible apply Mach.nextEntry_held | with_reducible apply Mach.connect_held | with_reducible apply Mach.wrap_held | with_reducible apply Mach.passBegin_held | with_reducible apply Mach.convIdle_held | with_reducible apply Mach.ite_held | split | refine Mach.of_fst (by with_reducible assumption) ?_ | refine Mach.of_snd (by with_reducible assumption) ?_)

theorem Mach.auxGo_held {T : Scope} {m : Mach} (h : m.Within T) (hT : T.allows 0x8002000000000000000000000000000000000000000000000000000000000000010000004) (k : Nat) : (Mach.auxGo m k).Within T := by
  unfold Mach.auxGo
  try dsimp only
  repeat' (first | exact hT.sub (by decide) | intro _ | with_reducible assumption | with_reducible apply Mach.passBegin_held | with_reducible apply Mach.ite_held | split)

theorem Mach.auxStop_held {T : Scope} {m : Mach} (h : m.Within T) (hT : T.allows 0x2000000000000000000000000000000000000000000000000000000000000010000000) (k : Nat) : (Mach.auxStop m k).Within T := by
  unfold Mach.auxStop
  try dsimp only
  repeat' (first | exact hT.sub (by decide) | intro _ | with_reducible assumption | with_reducible apply Mach.modConv_held | with_reducible apply Mach.convIdle_held | split | refine Mach.of_fst (by with_reducible assumption) ?_ | refine Mach.of_snd (by with_reducible assumption) ?_ | (apply Mach.held_upd; focus (constructor; (dsimp only <;> exact rfl); all_goals (first | with_reducible exact .inl rfl | with_reducible exact rfl | exact .inr (hT.has (by decide))))))

theorem Mach.convKick_held {T : Scope} {m : Mach} (h : m.Within T) (hT : T.allows 0x8002000000000000000000000000000000000000000000000000000000000000010000004) (k : Nat) : (Mach.convKick m k).Within T := by
  unfold Mach.convKick
  try dsimp only
  repeat' (first | exact hT.sub (by decide) | intro _ | with_reducible assumption | with_reducible apply Mach.passBegin_held | with_reducible apply Mach.ite_held | split)

theorem Mach.sfRun_held {T : Scope} {m : Mach} (h : m.Within T) (hT : T.allows 0x40008002000000000000000000000000000000000000000000000000000000000000010000004) : (Mach.sfRun m).Within T := by
  unfold Mach.sfRun
  try dsimp only
  repeat' (first | exact hT.sub (by decide) | intro _ | with_reducible assumption | with_reducible apply Mach.each_held | with_reducible apply Mach.passBegin_held | with_reducible apply Mach.repStart_held | with_reducible apply Mach.ite_held | split)

theorem Mach.sfAfresh_held {T : Scope} {m : Mach} (h : m.Within T) (hT : T.allows 0x8002400000000000000000000000000000000000000000000000000000000000010000004) (c : Nat) : (Mach.sfAfresh m c).Within T := by
  unfold Mach.sfAfresh
  try dsimp only
  repeat' (first | exact hT.sub (by decide) | intro _ | with_reducible assumption | with_reducible apply Mach.each_held | with_reducible apply Mach.bump_held | with_reducible apply Mach.sfTakeCh_held | with_reducible apply Mach.connect_held | with_reducible apply Mach.advance_held | with_reducible apply Mach.convKick_held | with_reducible apply Mach.ite_held | split | refine Mach.of_fst (by with_reducible assumption) ?_ | refine Mach.of_snd (by with_reducible assumption) ?_)

theorem Mach.exChange_held {T : Scope} {m : Mach} (h : m.Within T) (hT : T.allows 0x10000000) (e : Nat) : (Mach.exChange m e).Within T := by
  unfold Mach.exChange
  try dsimp only
  repeat' (first | exact hT.sub (by decide) | intro _ | with_reducible assumption | with_reducible apply Mach.modSf_held | with_reducible apply Mach.ite_held | split | refine Mach.of_fst (by with_reducible assumption) ?_ | refine Mach.of_snd (by with_reducible assumption) ?_ | (apply Mach.held_upd; focus (constructor; (dsimp only <;> exact rfl); all_goals (first | with_reducible exact .inl rfl | with_reducible exact rfl | exact .inr (hT.has (by decide))))))

theorem Mach.exMeas_held {T : Scope} {m : Mach} (h : m.Within T) (hT : T.allows 0x8000000000000000000000000000000000000000000000000000000000000000000000) (e : Nat) (mode : Nat) : (Mach.exMeas m e mode).Within T := by
  unfold Mach.exMeas
  try dsimp only
  repeat' (first | exact hT.sub (by decide) | intro _ | with_reducible assumption | with_reducible apply Mach.when_held | with_reducible apply Mach.wr_held)

theorem Mach.exSensed_held {T : Scope} {m : Mach} (h : m.Within T) (hT : T.allows 0x8000000000000000000000000000000000000000000000000000000000000000000000) (v : BitVec 32) : (Mach.exSensed m v).Within T := by
  unfold Mach.exSensed
  try dsimp only
  repeat' (first | exact hT.sub (by decide) | intro _ | with_reducible assumption | with_reducible apply Mach.each_held | with_reducible apply Mach.when_held | with_reducible apply Mach.wr_held)

theorem Mach.writeExCfg_held {T : Scope} {m : Mach} (h : m.Within T) (hT : T.allows 0xc400000000000000000000000000000800000000000000000000000000000010001000) (e v : Nat) : (Mach.writeExCfg m e v).Within T := by
  unfold Mach.writeExCfg
  try dsimp only
  repeat' (first | exact hT.sub (by decide) | intro _ | with_reducible assumption | with_reducible apply Mach.setReg_held | with_reducible apply Mach.sfCfgBad_held | with_reducible apply Mach.modSf_held | with_reducible apply Mach.exMeas_held | with_reducible apply Mach.exChange_held | with_reducible apply Mach.ite_held | split | (apply Mach.held_upd; focus (constructor; (dsimp only <;> exact rfl); all_goals (first | with_reducible exact .inl rfl | with_reducible exact rfl | exact .inr (hT.has (by decide))))))

theorem Mach.exFault_held {T : Scope} {m : Mach} (h : m.Within T) (hT : T.allows 0x8000000000000000000000000000000800000000000000000000000000000010001000) (e bits : Nat) : (Mach.exFault m e bits).Within T := by
  unfold Mach.exFault
  try dsimp only
  repeat' (first | exact hT.sub (by decide) | intro _ | with_reducible assumption | with_reducible apply Mach.setReg_held | with_reducible apply Mach.modSf_held | with_reducible apply Mach.exChange_held | with_reducible apply Mach.when_held | with_reducible apply Mach.post_held | with_reducible apply Mach.ite_held | split | (apply Mach.held_upd; focus (constructor; (dsimp only <;> exact rfl); all_goals (first | with_reducible exact .inl rfl | with_reducible exact rfl | exact .inr (hT.has (by decide))))))

theorem Mach.exFaultClear_held {T : Scope} {m : Mach} (h : m.Within T) (hT : T.allows 0x10000000) (e : Nat) : (Mach.exFaultClear m e).Within T := by
  unfold Mach.exFaultClear
  try dsimp only
  repeat' (first | exact hT.sub (by decide) | intro _ | with_reducible assumption | with_reducible apply Mach.modSf_held | with_reducible apply Mach.exChange_held | with_reducible apply Mach.ite_held | split | (apply Mach.held_upd; focus (constructor; (dsimp only <;> exact rfl); all_goals (first | with_reducible exact .inl rfl | with_reducible exact rfl | exact .inr (hT.has (by decide))))))

theorem Mach.blankStep_held {T : Scope} {m : Mach} (h : m.Within T) (hT : T.allows 0x10000000) : (Mach.blankStep m).Within T := by
  unfold Mach.blankStep
  try dsimp only
  repeat' (first | exact hT.sub (by decide) | intro _ | with_reducible assumption | with_reducible apply Mach.modSf_held | with_reducible apply Mach.ite_held | split | (apply Mach.held_upd; focus (constructor; (dsimp only <;> exact rfl); all_goals (first | with_reducible exact .inl rfl | with_reducible exact rfl | exact .inr (hT.has (by decide))))))

theorem Mach.sfPush_held {T : Scope} {m : Mach} (h : m.Within T) (hT : T.allows 0x300400000000000000000000000000000800000000000000000000000000000010001008) (w : Word) : (Mach.sfPush m w).Within T := by
  unfold Mach.sfPush
  try dsimp only
  repeat' (first | exact hT.sub (by decide) | intro _ | with_reducible assumption | with_reducible apply Mach.bump_held | with_reducible apply Mach.setBit_held | with_reducible apply Mach.post_held | with_reducible apply Mach.modSf_held | with_reducible apply Mach.wr_held | with_reducible apply Mach.dramWrite_held | with_reducible apply Mach.wrap_held | with_reducible apply Mach.ite_held | split | (apply Mach.held_upd; focus (constructor; (dsimp only <;> exact rfl); all_goals (first | with_reducible exact .inl rfl | with_reducible exact rfl | exact .inr (hT.has (by decide))))))

theorem Mach.sfPop_held {T : Scope} {m : Mach} (h : m.Within T) (hT : T.allows 0x100000000000000000000000000000000000000000000000000000000000000010000000) : (Mach.sfPop m).Within T := by
  unfold Mach.sfPop
  try dsimp only
  repeat' (first | exact hT.sub (by decide) | intro _ | with_reducible assumption | with_reducible apply Mach.modSf_held | with_reducible apply Mach.wr_held | (apply Mach.held_upd; focus (constructor; (dsimp only <;> exact rfl); all_goals (first | with_reducible exact .inl rfl | with_reducible exact rfl | exact .inr (hT.has (by decide))))))

theorem Mach.calEnd_held {T : Scope} {m : Mach} (h : m.Within T) (hT : T.allows 0x80000000000000000000000000000000800000000000000000000000000000010001000) (code : Nat) (isGain : Bool) (new : Nat) (c : Nat) : (Mach.calEnd m code isGain new c).Within T := by
  unfold Mach.calEnd
  try dsimp only
  repeat' (first | exact hT.sub (by decide) | intro _ | with_reducible assumption | with_reducible apply Mach.modSf_held | with_reducible apply Mach.clrFld_held | with_reducible apply Mach.setBit_held | with_reducible apply Mach.post_held | with_reducible apply Mach.wr_held | with_reducible apply Mach.ite_held | split | (apply Mach.held_upd; focus (constructor; (dsimp only <;> exact rfl); all_goals (first | with_reducible exact .inl rfl | with_reducible exact rfl | exact .inr (hT.has (by decide))))))

theorem Mach.calStart_held {T : Scope} {m : Mach} (h : m.Within T) (hT : T.allows 0x80000000000000000000000000000000800000000000000000000000000000010001000) (c cmd navg : Nat) : (Mach.calStart m c cmd navg).Within T := by
  unfold Mach.calStart
  try dsimp only
  repeat' (first | exact hT.sub (by decide) | intro _ | with_reducible assumption | with_reducible apply Mach.setBit_held | with_reducible apply Mach.wr_held | with_reducible apply Mach.post_held | with_reducible apply Mach.modSf_held | with_reducible apply Mach.ite_held | split | (apply Mach.held_upd; focus (constructor; (dsimp only <;> exact rfl); all_goals (first | with_reducible exact .inl rfl | with_reducible exact rfl | exact .inr (hT.has (by decide))))))

theorem Mach.calCancel_held {T : Scope} {m : Mach} (h : m.Within T) (hT : T.allows 0x80000000000000000000000000000000000000000000000000000000000000010000000) : (Mach.calCancel m).Within T := by
  unfold Mach.calCancel
  try dsimp only
  repeat' (first | exact hT.sub (by decide) | intro _ | with_reducible assumption | with_reducible apply Mach.modSf_held | with_reducible apply Mach.clrFld_held | (apply Mach.held_upd; focus (constructor; (dsimp only <;> exact rfl); all_goals (first | with_reducible exact .inl rfl | with_reducible exact rfl | exact .inr (hT.has (by decide))))))

theorem Mach.calTimeout_held {T : Scope} {m : Mach} (h : m.Within T) (hT : T.allows 0x80000000000000000000000000000000800000000000000000000000000000010001000) : (Mach.calTimeout m).Within T := by
  unfold Mach.calTimeout
  try dsimp only
  repeat' (first | exact hT.sub (by decide) | intro _ | with_reducible assumption | with_reducible apply Mach.calEnd_held | split | refine Mach.of_fst (by with_reducible assumption) ?_ | refine Mach.of_snd (by with_reducible assumption) ?_)

theorem Mach.calResult_held {T : Scope} {m : Mach} (h : m.Within T) (hT : T.allows 0x180080000000000000000000000000000000800000000000000000000000000000010001000) (c : Nat) (y : Rat) : (Mach.calResult m c y).Within T := by
  unfold Mach.calResult
  try dsimp only
  repeat' (first | exact hT.sub (by decide) | intro _ | with_reducible assumption | with_reducible apply Mach.modSf_held | with_reducible apply Mach.wr_held | with_reducible apply Mach.calEnd_held | with_reducible apply Mach.ite_held | split | refine Mach.of_fst (by with_reducible assumption) ?_ | refine Mach.of_snd (by with_reducible assumption) ?_ | (apply Mach.held_upd; focus (constructor; (dsimp only <;> exact rfl); all_goals (first | with_reducible exact .inl rfl | with_reducible exact rfl | exact .inr (hT.has (by decide))))))

theorem Mach.crossCheck_held {T : Scope} {m : Mach} (h : m.Within T) (hT : T.allows 0x800000000000000000000000000000010001000) (c : Nat) (v : Int) (valid : Bool) : (Mach.crossCheck m c v valid).Within T := by
  unfold Mach.crossCheck
  try dsimp only
  repeat' (first | exact hT.sub (by decide) | intro _ | with_reducible assumption | with_reducible apply Mach.modChan_held | with_reducible apply Mach.when_held | with_reducible apply Mach.post_held | with_reducible apply Mach.ite_held | split | refine Mach.of_fst (by with_reducible assumption) ?_ | refine Mach.of_snd (by with_reducible assumption) ?_ | (apply Mach.held_upd; focus (constructor; (dsimp only <;> exact rfl); all_goals (first | with_reducible exact .inl rfl | with_reducible exact rfl | exact .inr (hT.has (by decide))))))

theorem Mach.autoGain_held {T : Scope} {m : Mach} (h : m.Within T) (hT : T.allows 0x10000000) (c gain : Nat) (code : Int) (clip : Bool) : (Mach.autoGain m c gain code clip).Within T := by
  unfold Mach.autoGain
  try dsimp only
  repeat' (first | exact hT.sub (by decide) | intro _ | with_reducible assumption | with_reducible apply Mach.modChan_held | with_reducible apply Mach.ite_held | split | (apply Mach.held_upd; focus (constructor; (dsimp only <;> exact rfl); all_goals (first | with_reducible exact .inl rfl | with_reducible exact rfl | exact .inr (hT.has (by decide))))))

theorem Mach.dataTake_held {T : Scope} {m : Mach} (h : m.Within T) (hT : T.allows 0x40408000000000000000000000000042000000800000000000000000000000000000010001400) (c : Nat) (w : Word) (v : Int) (valid : Bool) : (Mach.dataTake m c w v valid).Within T := by
  unfold Mach.dataTake
  try dsimp only
  repeat' (first | exact hT.sub (by decide) | intro _ | with_reducible assumption | with_reducible apply Mach.setReg_held | with_reducible apply Mach.clrFld_held | with_reducible apply Mach.each_held | with_reducible apply Mach.trimUpdate_held | with_reducible apply Mach.repSource_held | with_reducible apply Mach.setStale_held | with_reducible apply Mach.ite_held | split)

theorem Mach.flagNotes_held {T : Scope} {m : Mach} (h : m.Within T) (hT : T.allows 0x8000000000000000000000000000000000800000000000000000000000000000010001000) (c gain : Nat) (v : Int) (clip rng cjc : Bool) (op : Nat) : (Mach.flagNotes m c gain v clip rng cjc op).Within T := by
  unfold Mach.flagNotes
  try dsimp only
  repeat' (first | exact hT.sub (by decide) | intro _ | with_reducible assumption | with_reducible apply Mach.when_held | with_reducible apply Mach.setBit_held | with_reducible apply Mach.post_held | with_reducible apply Mach.modChan_held | split | (apply Mach.held_upd; focus (constructor; (dsimp only <;> exact rfl); all_goals (first | with_reducible exact .inl rfl | with_reducible exact rfl | exact .inr (hT.has (by decide))))))

theorem Mach.sfDeliver_held {T : Scope} {m : Mach} (h : m.Within T) (hT : T.allows 0x40588380400000000000000000000042000000800000000000000000000000000000010001408) (k c gain raw : Nat) : (Mach.sfDeliver m k c gain raw).Within T := by
  unfold Mach.sfDeliver
  try dsimp only
  repeat' (first | exact hT.sub (by decide) | intro _ | with_reducible assumption | with_reducible apply Mach.crossCheck_held | with_reducible apply Mach.modChan_held | with_reducible apply Mach.wrap_held | with_reducible apply Mach.sfPush_held | with_reducible apply Mach.dataTake_held | with_reducible apply Mach.flagNotes_held | with_reducible apply Mach.calResult_held | with_reducible apply Mach.autoGain_held | with_reducible apply Mach.ite_held | split | refine Mach.of_fst (by with_reducible assumption) ?_ | refine Mach.of_snd (by with_reducible assumption) ?_ | (apply Mach.held_upd; focus (constructor; (dsimp only <;> exact rfl); all_goals (first | with_reducible exact .inl rfl | with_reducible exact rfl | exact .inr (hT.has (by decide))))))

theorem Mach.auxResult_held {T : Scope} {m : Mach} (h : m.Within T) (hT : T.allows 0x4058838a40000000000000000000004200000080000000000000000000000000000001000140c) (k raw meas : Nat) : (Mach.auxResult m k raw meas).Within T := by
  unfold Mach.auxResult
  try dsimp only
  repeat' (first | exact hT.sub (by decide) | intro _ | with_reducible assumption | with_reducible apply Mach.wr_held | with_reducible apply Mach.modChan_held | with_reducible apply Mach.setStale_held | with_reducible apply Mach.bump_held | with_reducible apply Mach.sfDeliver_held | with_reducible apply Mach.wrap_held | with_reducible apply Mach.convIdle_held | with_reducible apply Mach.advance_held | with_reducible apply Mach.ite_held | split | refine Mach.of_fst (by with_reducible assumption) ?_ | refine Mach.of_snd (by with_reducible assumption) ?_ | (apply Mach.held_upd; focus (constructor; (dsimp only <;> exact rfl); all_goals (first | with_reducible exact .inl rfl | with_reducible exact rfl | exact .inr (hT.has (by decide))))))

theorem Mach.dacShow_held {T : Scope} {m : Mach} (h : m.Within T) (hT : T.allows 0x20000000000000000000000000000000000000000000000000000000000000010000000) : (Mach.dacShow m).Within T := by
  unfold Mach.dacShow
  try dsimp only
  repeat' (first | exact hT.sub (by decide) | intro _ | with_reducible assumption | with_reducible apply Mach.wr_held | with_reducible apply Mach.modSf_held | with_reducible apply Mach.ite_held | split | refine Mach.of_fst (by with_reducible assumption) ?_ | refine Mach.of_snd (by with_reducible assumption) ?_ | (apply Mach.held_upd; focus (constructor; (dsimp only <;> exact rfl); all_goals (first | with_reducible exact .inl rfl | with_reducible exact rfl | exact .inr (hT.has (by decide))))))

theorem Mach.chkHold_held {T : Scope} {m : Mach} (h : m.Within T) (hT : T.allows 0x40408002000000000000000000000002000000800000000000000000000000000000010001404) : (Mach.chkHold m).Within T := by
  unfold Mach.chkHold
  try dsimp only
  repeat' (first | exact hT.sub (by decide) | intro _ | with_reducible assumption | with_reducible apply Mach.setStale_held | with_reducible apply Mach.each_held | with_reducible apply Mach.advance_held | with_reducible apply Mach.ite_held | split | refine Mach.of_fst (by with_reducible assumption) ?_ | refine Mach.of_snd (by with_reducible assumption) ?_)

theorem Mach.dacRequest_held {T : Scope} {m : Mach} (h : m.Within T) (hT : T.allows 0x40408022000000000000000000000002000000800000000000000000000000000000010001404) (u : Nat) : (Mach.dacRequest m u).Within T := by
  unfold Mach.dacRequest
  try dsimp only
  repeat' (first | exact hT.sub (by decide) | intro _ | with_reducible assumption | with_reducible apply Mach.dacShow_held | with_reducible apply Mach.modSf_held | with_reducible apply Mach.when_held | with_reducible apply Mach.chkHold_held | with_reducible apply Mach.ite_held | split | refine Mach.of_fst (by with_reducible assumption) ?_ | refine Mach.of_snd (by with_reducible assumption) ?_ | (apply Mach.held_upd; focus (constructor; (dsimp only <;> exact rfl); all_goals (first | with_reducible exact .inl rfl | with_reducible exact rfl | exact .inr (hT.has (by decide))))))

theorem Mach.dacRelease_held {T : Scope} {m : Mach} (h : m.Within T) (hT : T.allows 0x40408022000000000000000000000002000000800000000000000000000000000000010001404) (u : Nat) : (Mach.dacRelease m u).Within T := by
  unfold Mach.dacRelease
  try dsimp only
  repeat' (first | exact hT.sub (by decide) | intro _ | with_reducible assumption | with_reducible apply Mach.modSf_held | with_reducible apply Mach.dacShow_held | with_reducible apply Mach.when_held | with_reducible apply Mach.chkHold_held | with_reducible apply Mach.ite_held | split | (apply Mach.held_upd; focus (constructor; (dsimp only <;> exact rfl); all_goals (first | with_reducible exact .inl rfl | with_reducible exact rfl | exact .inr (hT.has (by decide))))))

theorem Mach.tdacWritten_held {T : Scope} {m : Mach} (h : m.Within T) (hT : T.allows 0x40408022000000000000000000000002000000800000000000000000000000000000010001404) : (Mach.tdacWritten m).Within T := by
  unfold Mach.tdacWritten
  try dsimp only
  repeat' (first | exact hT.sub (by decide) | intro _ | with_reducible assumption | with_reducible apply Mach.dacRequest_held | with_reducible apply Mach.dacRelease_held | with_reducible apply Mach.ite_held | split)

theorem Mach.chkGo_held {T : Scope} {m : Mach} (h : m.Within T) (hT : T.allows 0x40408062000000000000000000000002000000800000000000000000000000000000010001404) : (Mach.chkGo m).Within T := by
  unfold Mach.chkGo
  try dsimp only
  repeat' (first | exact hT.sub (by decide) | intro _ | with_reducible assumption | with_reducible apply Mach.modSf_held | with_reducible apply Mach.setBit_held | with_reducible apply Mach.dacRequest_held | with_reducible apply Mach.ite_held | split | (apply Mach.held_upd; focus (constructor; (dsimp only <;> exact rfl); all_goals (first | with_reducible exact .inl rfl | with_reducible exact rfl | exact .inr (hT.has (by decide))))))

theorem Mach.chkDone_held {T : Scope} {m : Mach} (h : m.Within T) (hT : T.allows 0x40408062000000000000000000000002000000800000000000000000000000000000010001404) (e1 e2 : Int) : (Mach.chkDone m e1 e2).Within T := by
  unfold Mach.chkDone
  try dsimp only
  repeat' (first | exact hT.sub (by decide) | intro _ | with_reducible assumption | with_reducible apply Mach.modSf_held | with_reducible apply Mach.clrFld_held | with_reducible apply Mach.setBit_held | with_reducible apply Mach.wr_held | with_reducible apply Mach.wrS_held | with_reducible apply Mach.post_held | with_reducible apply Mach.dacRelease_held | with_reducible apply Mach.each_held | with_reducible apply Mach.convKick_held | with_reducible apply Mach.ite_held | split | refine Mach.of_fst (by with_reducible assumption) ?_ | refine Mach.of_snd (by with_reducible assumption) ?_ | (apply Mach.held_upd; focus (constructor; (dsimp only <;> exact rfl); all_goals (first | with_reducible exact .inl rfl | with_reducible exact rfl | exact .inr (hT.has (by decide))))))

theorem Mach.pchkStart_held {T : Scope} {m : Mach} (h : m.Within T) (hT : T.allows 0x40408022000000001000000000000002000000800000000000000000000000000000010201404) (b : Nat) : (Mach.pchkStart m b).Within T := by
  unfold Mach.pchkStart
  try dsimp only
  repeat' (first | exact hT.sub (by decide) | intro _ | with_reducible assumption | with_reducible apply Mach.pchkGo_held | with_reducible apply Mach.dacRequest_held | with_reducible apply Mach.ite_held | split)

theorem Mach.pchkFinish_held {T : Scope} {m : Mach} (h : m.Within T) (hT : T.allows 0x40408022000000001000000000000002000000800000000000000000000000000000010201404) (b : Nat) (s1 s2 : Int) : (Mach.pchkFinish m b s1 s2).Within T := by
  unfold Mach.pchkFinish
  try dsimp only
  repeat' (first | exact hT.sub (by decide) | intro _ | with_reducible assumption | with_reducible apply Mach.pchkDone_held | with_reducible apply Mach.dacRelease_held | with_reducible apply Mach.ite_held | split)

theorem Mach.modFm_held {T : Scope} {m : Mach} (h : m.Within T) (hT : T.allows 0x20000000) (f : FaultMask → FaultMask) : (Mach.modFm m f).Within T := by
  unfold Mach.modFm
  try dsimp only
  repeat' (first | exact hT.sub (by decide) | intro _ | with_reducible assumption | (apply Mach.held_upd; focus (constructor; (dsimp only <;> exact rfl); all_goals (first | with_reducible exact .inl rfl | with_reducible exact rfl | exact .inr (hT.has (by decide))))))

theorem Mach.retireUnit_held {T : Scope} {m : Mach} (h : m.Within T) (hT : T.allows 0x800000000000000000000040000000000000000000000000000000000c000000000000020000000) (u : Nat) : (Mach.retireUnit m u).Within T := by
  unfold Mach.retireUnit
  try dsimp only
  repeat' (first | exact hT.sub (by decide) | intro _ | with_reducible assumption | with_reducible apply Mach.wr_held | with_reducible apply Mach.modFm_held | with_reducible apply Mach.setBit_held | split | refine Mach.of_fst (by with_reducible assumption) ?_ | refine Mach.of_snd (by with_reducible assumption) ?_ | (apply Mach.held_upd; focus (constructor; (dsimp only <;> exact rfl); all_goals (first | with_reducible exact .inl rfl | with_reducible exact rfl | exact .inr (hT.has (by decide))))))

theorem Mach.unitLost_held {T : Scope} {m : Mach} (h : m.Within T) (hT : T.allows 0x14040800000400080000000000000004200040080000001000100000000000000000029022bc00) (u : Nat) : (Mach.unitLost m u).Within T := by
  unfold Mach.unitLost
  try dsimp only
  repeat' (first | exact hT.sub (by decide) | intro _ | with_reducible assumption | with_reducible apply Mach.setBit_held | with_reducible apply Mach.post_held | with_reducible apply Mach.forAll_held | with_reducible apply Mach.fault_held | with_reducible apply Mach.each_held | with_reducible apply Mach.clockStop_held | with_reducible apply Mach.setStale_held | split | refine Mach.of_fst (by with_reducible assumption) ?_ | refine Mach.of_snd (by with_reducible assumption) ?_ | (apply Mach.held_upd; focus (constructor; (dsimp only <;> exact rfl); all_goals (first | with_reducible exact .inl rfl | with_reducible exact rfl | exact .inr (hT.has (by decide))))))

theorem Mach.csaSwap_held {T : Scope} {m : Mach} (h : m.Within T) (hT : T.allows 0x20000) : (Mach.csaSwap m).Within T := by
  unfold Mach.csaSwap
  try dsimp only
  repeat' (first | exact hT.sub (by decide) | intro _ | with_reducible assumption | with_reducible apply Mach.each_held | with_reducible apply Mach.modCoil_held | (apply Mach.held_upd; focus (constructor; (dsimp only <;> exact rfl); all_goals (first | with_reducible exact .inl rfl | with_reducible exact rfl | exact .inr (hT.has (by decide))))))

theorem Mach.auxSwap_held {T : Scope} {m : Mach} (h : m.Within T) (hT : T.allows 0x8002400000000000000000000000000000000000000000000000000000000000010000004) : (Mach.auxSwap m).Within T := by
  unfold Mach.auxSwap
  try dsimp only
  repeat' (first | exact hT.sub (by decide) | intro _ | with_reducible assumption | with_reducible apply Mach.each_held | with_reducible apply Mach.bump_held | with_reducible apply Mach.connect_held | split | refine Mach.of_fst (by with_reducible assumption) ?_ | refine Mach.of_snd (by with_reducible assumption) ?_)

theorem Mach.spareTakes_held {T : Scope} {m1 : Mach} (h : m1.Within T) (hT : T.allows 0x100008002400000000000400000000000000000000000000000000000000000000000030020004) (u mech : Nat) : (Mach.spareTakes m1 u mech).Within T := by
  unfold Mach.spareTakes
  try dsimp only
  repeat' (first | exact hT.sub (by decide) | intro _ | with_reducible assumption | with_reducible apply Mach.wr_held | with_reducible apply Mach.when_held | with_reducible apply Mach.auxSwap_held | with_reducible apply Mach.csaSwap_held | with_reducible apply Mach.modFm_held | split | refine Mach.of_fst (by with_reducible assumption) ?_ | refine Mach.of_snd (by with_reducible assumption) ?_ | (apply Mach.held_upd; focus (constructor; (dsimp only <;> exact rfl); all_goals (first | with_reducible exact .inl rfl | with_reducible exact rfl | exact .inr (hT.has (by decide))))))

theorem Mach.tkoBegin_held {T : Scope} {m : Mach} (h : m.Within T) (hT : T.allows 0x1000080024000000000004000000000000000008000109000000000000000000000000b0021804) (u mech : Nat) : (Mach.tkoBegin m u mech).Within T := by
  unfold Mach.tkoBegin
  try dsimp only
  repeat' (first | exact hT.sub (by decide) | intro _ | with_reducible assumption | with_reducible apply Mach.abortsDue_held | with_reducible apply Mach.abortsOverlap_held | with_reducible apply Mach.modFm_held | with_reducible apply Mach.spareTakes_held | (apply Mach.held_upd; focus (constructor; (dsimp only <;> exact rfl); all_goals (first | with_reducible exact .inl rfl | with_reducible exact rfl | exact .inr (hT.has (by decide))))))

theorem Mach.spareMoves_held {T : Scope} {m : Mach} (h : m.Within T) (hT : T.allows 0x100008002400000000000400000000000000000000000000000000000000000000000030020004) (u mech : Nat) : (Mach.spareMoves m u mech).Within T := by
  unfold Mach.spareMoves
  try dsimp only
  repeat' (first | exact hT.sub (by decide) | intro _ | with_reducible assumption | with_reducible apply Mach.wr_held | with_reducible apply Mach.modFm_held | with_reducible apply Mach.spareTakes_held | split | refine Mach.of_fst (by with_reducible assumption) ?_ | refine Mach.of_snd (by with_reducible assumption) ?_ | (apply Mach.held_upd; focus (constructor; (dsimp only <;> exact rfl); all_goals (first | with_reducible exact .inl rfl | with_reducible exact rfl | exact .inr (hT.has (by decide))))))

theorem Mach.xtalSeen_held {T : Scope} {m : Mach} (h : m.Within T) (hT : T.allows 0x20000000) (ok : Bool) : (Mach.xtalSeen m ok).Within T := by
  unfold Mach.xtalSeen
  try dsimp only
  repeat' (first | exact hT.sub (by decide) | intro _ | with_reducible assumption | with_reducible apply Mach.modFm_held | with_reducible apply Mach.ite_held | split | (apply Mach.held_upd; focus (constructor; (dsimp only <;> exact rfl); all_goals (first | with_reducible exact .inl rfl | with_reducible exact rfl | exact .inr (hT.has (by decide))))))

theorem Mach.unitFault_held {T : Scope} {m : Mach} (h : m.Within T) (hT : T.allows 0x814040800240400080000040000000004200040080001091000100000c0000000000002b022bc04) (u mech : Nat) : (Mach.unitFault m u mech).Within T := by
  unfold Mach.unitFault
  try dsimp only
  repeat' (first | exact hT.sub (by decide) | intro _ | with_reducible assumption | with_reducible apply Mach.retireUnit_held | with_reducible apply Mach.setBit_held | with_reducible apply Mach.post_held | with_reducible apply Mach.tkoBegin_held | with_reducible apply Mach.modFm_held | with_reducible apply Mach.spareMoves_held | with_reducible apply Mach.unitLost_held | with_reducible apply Mach.ite_held | split | refine Mach.of_fst (by with_reducible assumption) ?_ | refine Mach.of_snd (by with_reducible assumption) ?_ | (apply Mach.held_upd; focus (constructor; (dsimp only <;> exact rfl); all_goals (first | with_reducible exact .inl rfl | with_reducible exact rfl | exact .inr (hT.has (by decide))))))

theorem Mach.tkoDone_held {T : Scope} {m : Mach} (h : m.Within T) (hT : T.allows 0x7000000000000000000000000000000000010008000109000000000000000000000000a0001c00) (u dur0 rep : Nat) : (Mach.tkoDone m u dur0 rep).Within T := by
  unfold Mach.tkoDone
  try dsimp only
  repeat' (first | exact hT.sub (by decide) | intro _ | with_reducible assumption | with_reducible apply Mach.erPublish_held | with_reducible apply Mach.abortsDue_held | with_reducible apply Mach.abortsDelay_held | with_reducible apply Mach.modFm_held | with_reducible apply Mach.setReg_held | with_reducible apply Mach.bump_held | with_reducible apply Mach.post_held | with_reducible apply Mach.setBit_held | with_reducible apply Mach.foldl_held | with_reducible apply Mach.foldl_fst_held | split | refine Mach.of_fst (by with_reducible assumption) ?_ | refine Mach.of_snd (by with_reducible assumption) ?_ | (apply Mach.held_upd; focus (constructor; (dsimp only <;> exact rfl); all_goals (first | with_reducible exact .inl rfl | with_reducible exact rfl | exact .inr (hT.has (by decide))))))

theorem Mach.auditMismatch_held {T : Scope} {m : Mach} (h : m.Within T) (hT : T.allows 0x854040800240400080000040000000004200040080001091000100000c0000000000002b022bc04) (u : Nat) (sparePasses : Bool) (axes : List Nat) : (Mach.auditMismatch m u sparePasses axes).Within T := by
  unfold Mach.auditMismatch
  try dsimp only
  repeat' (first | exact hT.sub (by decide) | intro _ | with_reducible assumption | with_reducible apply Mach.bump_held | with_reducible apply Mach.unitFault_held | with_reducible apply Mach.forAll_held | with_reducible apply Mach.uncertain_held | with_reducible apply Mach.ite_held | split | refine Mach.of_fst (by with_reducible assumption) ?_ | refine Mach.of_snd (by with_reducible assumption) ?_)

theorem Mach.checkUnit_held {T : Scope} {m : Mach} (h : m.Within T) (hT : T.allows 0x814040800240400080000040000000004200040080001091000100000c0000000000002b022bc04) (u mech : Nat) : (Mach.checkUnit m u mech).Within T := by
  unfold Mach.checkUnit
  try dsimp only
  repeat' (first | exact hT.sub (by decide) | intro _ | with_reducible assumption | with_reducible apply Mach.unitFault_held | with_reducible apply Mach.ite_held | split)

theorem Mach.inject_held {T : Scope} {m : Mach} (h : m.Within T) (hT : T.allows 0x814040800240400080000040000000004200040080001091000100000c0000000000002b022bc04) (v : Nat) : (Mach.inject m v).Within T := by
  unfold Mach.inject
  try dsimp only
  repeat' (first | exact hT.sub (by decide) | intro _ | with_reducible assumption | with_reducible apply Mach.post_held | with_reducible apply Mach.unitFault_held | with_reducible apply Mach.setBit_held | with_reducible apply Mach.ite_held | split)

theorem Mach.eccLast_held {T : Scope} {m : Mach} (h : m.Within T) (hT : T.allows 0x2000000000000000000000000000000000000000000000000000000000000000000000000000000) (dram unc : Bool) (addr : Nat) : (Mach.eccLast m dram unc addr).Within T := by
  unfold Mach.eccLast
  try dsimp only
  repeat' (first | exact hT.sub (by decide) | intro _ | with_reducible assumption | with_reducible apply Mach.setReg_held)

theorem Mach.eccCorr_held {T : Scope} {m : Mach} (h : m.Within T) (hT : T.allows 0x3900000000000000000000000000000000000000800000000000000000000000000000020001000) (dram : Bool) (addr row : Nat) (reserve : Bool) : (Mach.eccCorr m dram addr row reserve).Within T := by
  unfold Mach.eccCorr
  try dsimp only
  repeat' (first | exact hT.sub (by decide) | intro _ | with_reducible assumption | with_reducible apply Mach.bump_held | with_reducible apply Mach.eccLast_held | with_reducible apply Mach.modFm_held | with_reducible apply Mach.post_held | with_reducible apply Mach.wr_held | with_reducible apply Mach.setBit_held | with_reducible apply Mach.ite_held | split | refine Mach.of_fst (by with_reducible assumption) ?_ | refine Mach.of_snd (by with_reducible assumption) ?_ | (apply Mach.held_upd; focus (constructor; (dsimp only <;> exact rfl); all_goals (first | with_reducible exact .inl rfl | with_reducible exact rfl | exact .inr (hT.has (by decide))))))

theorem Mach.ringWordBad_held {T : Scope} {m : Mach} (h : m.Within T) (hT : T.allows 0x800000900000000000000000000000000001800) (q i : Nat) : (Mach.ringWordBad m q i).Within T := by
  unfold Mach.ringWordBad
  try dsimp only
  repeat' (first | exact hT.sub (by decide) | intro _ | with_reducible assumption | with_reducible apply Mach.modQ_held | with_reducible apply Mach.postRetired_held | split | refine Mach.of_fst (by with_reducible assumption) ?_ | refine Mach.of_snd (by with_reducible assumption) ?_ | (apply Mach.held_upd; focus (constructor; (dsimp only <;> exact rfl); all_goals (first | with_reducible exact .inl rfl | with_reducible exact rfl | exact .inr (hT.has (by decide))))))

theorem Mach.eccUncorr_held {T : Scope} {m : Mach} (h : m.Within T) (hT : T.allows 0xb94040800240400080000040000000004200040080001091000100000c0000000000002b022bc04) (loc : EccLoc) (addr : Nat) : (Mach.eccUncorr m loc addr).Within T := by
  unfold Mach.eccUncorr
  try dsimp only
  repeat' (first | exact hT.sub (by decide) | intro _ | with_reducible assumption | with_reducible apply Mach.bump_held | with_reducible apply Mach.wr_held | with_reducible apply Mach.eccLast_held | with_reducible apply Mach.post_held | with_reducible apply Mach.unitFault_held | with_reducible apply Mach.fault_held | with_reducible apply Mach.ringWordBad_held | with_reducible apply Mach.modFm_held | with_reducible apply Mach.ite_held | split | refine Mach.of_fst (by with_reducible assumption) ?_ | refine Mach.of_snd (by with_reducible assumption) ?_ | (apply Mach.held_upd; focus (constructor; (dsimp only <;> exact rfl); all_goals (first | with_reducible exact .inl rfl | with_reducible exact rfl | exact .inr (hT.has (by decide))))))

theorem Mach.scrub_held {T : Scope} {m : Mach} (h : m.Within T) (hT : T.allows 0x4000000000000000000000000000000000000000000000000000000000000000000000000000000) (dram : Bool) (progress : Nat) : (Mach.scrub m dram progress).Within T := by
  unfold Mach.scrub
  try dsimp only
  repeat' (first | exact hT.sub (by decide) | intro _ | with_reducible assumption | with_reducible apply Mach.wr_held | with_reducible apply Mach.wrap_held | with_reducible apply Mach.ite_held | split)

theorem Mach.staleStep_held {T : Scope} {m : Mach} (h : m.Within T) (hT : T.allows 0x800000000000000000000000000000000000000000800000000000000000000000000000040001000) (n : Nat) : (Mach.staleStep m n).Within T := by
  unfold Mach.staleStep
  try dsimp only
  repeat' (first | exact hT.sub (by decide) | intro _ | with_reducible assumption | with_reducible apply Mach.modHax_held | with_reducible apply Mach.setBit_held | with_reducible apply Mach.post_held | with_reducible apply Mach.ite_held | split | (apply Mach.held_upd; focus (constructor; (dsimp only <;> exact rfl); all_goals (first | with_reducible exact .inl rfl | with_reducible exact rfl | exact .inr (hT.has (by decide))))))

theorem Mach.ownStep_held {T : Scope} {m : Mach} (h : m.Within T) (hT : T.allows 0x800000000000000000000000000000000000000000800000000000000000000000000000040001000) (n : Nat) (t dt : Rat) : (Mach.ownStep m n t dt).Within T := by
  unfold Mach.ownStep
  try dsimp only
  repeat' (first | exact hT.sub (by decide) | intro _ | with_reducible assumption | with_reducible apply Mach.modHax_held | with_reducible apply Mach.when_held | with_reducible apply Mach.setBit_held | with_reducible apply Mach.post_held | with_reducible apply Mach.ite_held | split | refine Mach.of_fst (by with_reducible assumption) ?_ | refine Mach.of_snd (by with_reducible assumption) ?_ | (apply Mach.held_upd; focus (constructor; (dsimp only <;> exact rfl); all_goals (first | with_reducible exact .inl rfl | with_reducible exact rfl | exact .inr (hT.has (by decide))))))

theorem Mach.allocPost_held {T : Scope} {m : Mach} (h : m.Within T) (hT : T.allows 0x800000000000000000000000000000000001000) (g what : Nat) : (Mach.allocPost m g what).Within T := by
  unfold Mach.allocPost
  try dsimp only
  repeat' (first | exact hT.sub (by decide) | intro _ | with_reducible assumption | with_reducible apply Mach.post_held)

theorem Mach.setScale_held {T : Scope} {m : Mach} (h : m.Within T) (hT : T.allows 0x400000000000000000000000000000000000000000800000000000000000000000000000000001000) (g s : Nat) : (Mach.setScale m g s).Within T := by
  unfold Mach.setScale
  try dsimp only
  repeat' (first | exact hT.sub (by decide) | intro _ | with_reducible assumption | with_reducible apply Mach.wr_held | with_reducible apply Mach.when_held | with_reducible apply Mach.allocPost_held)

theorem Mach.allocate_held {T : Scope} {m : Mach} (h : m.Within T) (hT : T.allows 0x400000000000000000000000000000000000000000800000000000000000000000000000000001000) (p capEff : Rat) : (Mach.allocate m p capEff).Within T := by
  unfold Mach.allocate
  try dsimp only
  repeat' (first | exact hT.sub (by decide) | intro _ | with_reducible assumption | with_reducible apply Mach.setScale_held | with_reducible apply Mach.ite_held | split | refine Mach.of_fst (by with_reducible assumption) ?_ | refine Mach.of_snd (by with_reducible assumption) ?_)

theorem Mach.capStep_held {T : Scope} {m : Mach} (h : m.Within T) (hT : T.allows 0x6000000000000000000000000000000000000000000000000000000000000000000000000000000000) (n : Nat) : (Mach.capStep m n).Within T := by
  unfold Mach.capStep
  try dsimp only
  repeat' (first | exact hT.sub (by decide) | intro _ | with_reducible assumption | with_reducible apply Mach.wr_held | with_reducible apply Mach.estop_held | with_reducible apply Mach.ite_held | split | refine Mach.of_fst (by with_reducible assumption) ?_ | refine Mach.of_snd (by with_reducible assumption) ?_)

theorem Mach.heatTick_held {T : Scope} {m : Mach} (h : m.Within T) (hT : T.allows 0x40000000) : (Mach.heatTick m).Within T := by
  unfold Mach.heatTick
  try dsimp only
  repeat' (first | exact hT.sub (by decide) | intro _ | with_reducible assumption | with_reducible apply Mach.each_held | with_reducible apply Mach.modHax_held | (apply Mach.held_upd; focus (constructor; (dsimp only <;> exact rfl); all_goals (first | with_reducible exact .inl rfl | with_reducible exact rfl | exact .inr (hT.has (by decide))))))

theorem Mach.patHour_held {T : Scope} {m : Mach} (h : m.Within T) (hT : T.allows 0x440000000) (tbp pbar : Rat) : (Mach.patHour m tbp pbar).Within T := by
  unfold Mach.patHour
  try dsimp only
  repeat' (first | exact hT.sub (by decide) | intro _ | with_reducible assumption | with_reducible apply Mach.ite_held | split | refine Mach.of_fst (by with_reducible assumption) ?_ | refine Mach.of_snd (by with_reducible assumption) ?_ | (apply Mach.held_upd; focus (constructor; (dsimp only <;> exact rfl); all_goals (first | with_reducible exact .inl rfl | with_reducible exact rfl | exact .inr (hT.has (by decide))))))

theorem Mach.ledger_held {T : Scope} {m : Mach} (h : m.Within T) (hT : T.allows 0x6c00000000000000000000000000000000000000000800000000000000000000000000000440021000) (tbpRaw : Int) : (Mach.ledger m tbpRaw).Within T := by
  unfold Mach.ledger
  try dsimp only
  repeat' (first | exact hT.sub (by decide) | intro _ | with_reducible assumption | with_reducible apply Mach.each_held | with_reducible apply Mach.modHax_held | with_reducible apply Mach.modCoil_held | with_reducible apply Mach.wr_held | with_reducible apply Mach.staleStep_held | with_reducible apply Mach.ownStep_held | with_reducible apply Mach.allocate_held | with_reducible apply Mach.when_held | with_reducible apply Mach.allocPost_held | with_reducible apply Mach.setBit_held | with_reducible apply Mach.post_held | with_reducible apply Mach.capStep_held | with_reducible apply Mach.patHour_held | with_reducible apply Mach.foldl_held | with_reducible apply Mach.foldl_fst_held | (apply Mach.held_upd; focus (constructor; (dsimp only <;> exact rfl); all_goals (first | with_reducible exact .inl rfl | with_reducible exact rfl | exact .inr (hT.has (by decide))))))

theorem Mach.heatRun_held {T : Scope} {m : Mach} (h : m.Within T) (hT : T.allows 0x400000000000000000000000000000000000000000000000000000000000000000000000040000000) : (Mach.heatRun m).Within T := by
  unfold Mach.heatRun
  try dsimp only
  repeat' (first | exact hT.sub (by decide) | intro _ | with_reducible assumption | with_reducible apply Mach.reset_held | with_reducible apply Mach.wr_held | (apply Mach.held_upd; focus (constructor; (dsimp only <;> exact rfl); all_goals (first | with_reducible exact .inl rfl | with_reducible exact rfl | exact .inr (hT.has (by decide))))))

theorem Mach.thermalFault_held {T : Scope} {m : Mach} (h : m.Within T) (hT : T.allows 0x400080000000000000004200040080000001000100000000000000000008002bc00) (n : Nat) : (Mach.thermalFault m n).Within T := by
  unfold Mach.thermalFault
  try dsimp only
  repeat' (first | exact hT.sub (by decide) | intro _ | with_reducible assumption | with_reducible apply Mach.post_held | with_reducible apply Mach.fault_held | with_reducible apply Mach.ite_held | split)

theorem Mach.modNv_held {T : Scope} {m : Mach} (h : m.Within T) (hT : T.allows 0x200000000) (f : Nvm → Nvm) : (Mach.modNv m f).Within T := by
  unfold Mach.modNv
  try dsimp only
  repeat' (first | exact hT.sub (by decide) | intro _ | with_reducible assumption | (apply Mach.held_upd; focus (constructor; (dsimp only <;> exact rfl); all_goals (first | with_reducible exact .inl rfl | with_reducible exact rfl | exact .inr (hT.has (by decide))))))

theorem Mach.modKn_held {T : Scope} {m : Mach} (h : m.Within T) (hT : T.allows 0x80000000) (f : Kiln → Kiln) : (Mach.modKn m f).Within T := by
  unfold Mach.modKn
  try dsimp only
  repeat' (first | exact hT.sub (by decide) | intro _ | with_reducible assumption | (apply Mach.held_upd; focus (constructor; (dsimp only <;> exact rfl); all_goals (first | with_reducible exact .inl rfl | with_reducible exact rfl | exact .inr (hT.has (by decide))))))

theorem Mach.nvDo_held {T : Scope} {m : Mach} (h : m.Within T) (hT : T.allows 0x200000000) (l : List FlashAct) : (Mach.nvDo m l).Within T := by
  unfold Mach.nvDo
  try dsimp only
  repeat' (first | exact hT.sub (by decide) | intro _ | with_reducible assumption | with_reducible apply Mach.modNv_held | with_reducible apply Mach.take_held | (apply Mach.held_upd; focus (constructor; (dsimp only <;> exact rfl); all_goals (first | with_reducible exact .inl rfl | with_reducible exact rfl | exact .inr (hT.has (by decide))))))

theorem Mach.nvWrite_held {T : Scope} {m : Mach} (h : m.Within T) (hT : T.allows 0x200000000) (c : FlashCmd) (a : Nat) (out : List Byte) : (Mach.nvWrite m c a out).Within T := by
  unfold Mach.nvWrite
  try dsimp only
  repeat' (first | exact hT.sub (by decide) | intro _ | with_reducible assumption | with_reducible apply Mach.nvDo_held)

theorem Mach.nvRead_held {T : Scope} {m : Mach} (h : m.Within T) (hT : T.allows 0x200000000) (a n : Nat) : (Mach.nvRead m a n).Within T := by
  unfold Mach.nvRead
  try dsimp only
  repeat' (first | exact hT.sub (by decide) | intro _ | with_reducible assumption | with_reducible apply Mach.nvDo_held)

theorem Mach.nvReset_held {T : Scope} {m : Mach} (h : m.Within T) (hT : T.allows 0x200000000) (khz : Nat) : (Mach.nvReset m khz).Within T := by
  unfold Mach.nvReset
  try dsimp only
  repeat' (first | exact hT.sub (by decide) | intro _ | with_reducible assumption | with_reducible apply Mach.nvDo_held | with_reducible apply Mach.reset_held | with_reducible apply Mach.pause_held | with_reducible apply Mach.modNv_held | (apply Mach.held_upd; focus (constructor; (dsimp only <;> exact rfl); all_goals (first | with_reducible exact .inl rfl | with_reducible exact rfl | exact .inr (hT.has (by decide))))))

theorem Mach.nvEnter_held {T : Scope} {m : Mach} (h : m.Within T) (hT : T.allows 0x200000000) (g : Nat → Byte) (legacy : Bool) : (Mach.nvEnter m g legacy).Within T := by
  unfold Mach.nvEnter
  try dsimp only
  repeat' (first | exact hT.sub (by decide) | intro _ | with_reducible assumption | with_reducible apply Mach.when_held | with_reducible apply Mach.nvReset_held | with_reducible apply Mach.nvDo_held | with_reducible apply Mach.pause_held | with_reducible apply Mach.modNv_held | with_reducible apply Mach.ite_held | split | (apply Mach.held_upd; focus (constructor; (dsimp only <;> exact rfl); all_goals (first | with_reducible exact .inl rfl | with_reducible exact rfl | exact .inr (hT.has (by decide))))))

theorem Mach.nvRecover_held {T : Scope} {m : Mach} (h : m.Within T) (hT : T.allows 0x200000000) : (Mach.nvRecover m).Within T := by
  unfold Mach.nvRecover
  try dsimp only
  repeat' (first | exact hT.sub (by decide) | intro _ | with_reducible assumption | with_reducible apply Mach.nvDo_held | with_reducible apply Mach.pause_held | with_reducible apply Mach.modNv_held | with_reducible apply Mach.nvEnter_held | split | refine Mach.of_fst (by with_reducible assumption) ?_ | refine Mach.of_snd (by with_reducible assumption) ?_ | (apply Mach.held_upd; focus (constructor; (dsimp only <;> exact rfl); all_goals (first | with_reducible exact .inl rfl | with_reducible exact rfl | exact .inr (hT.has (by decide))))))

theorem Mach.nvProgram_held {T : Scope} {m : Mach} (h : m.Within T) (hT : T.allows 0x200000010) (a : Nat) (l : List Byte) : (Mach.nvProgram m a l).Within T := by
  unfold Mach.nvProgram
  try dsimp only
  repeat' (first | exact hT.sub (by decide) | intro _ | with_reducible assumption | with_reducible apply Mach.nvWrite_held | with_reducible apply Mach.flashProgram_held)

theorem Mach.eraseIssue_held {T : Scope} {m : Mach} (h : m.Within T) (hT : T.allows 0x200000000) (a n : Nat) : (Mach.eraseIssue m a n).Within T := by
  unfold Mach.eraseIssue
  try dsimp only
  repeat' (first | exact hT.sub (by decide) | intro _ | with_reducible assumption | with_reducible apply Mach.modNv_held | with_reducible apply Mach.nvWrite_held | with_reducible apply Mach.foldl_held | with_reducible apply Mach.foldl_fst_held | with_reducible apply Mach.ite_held | split | (apply Mach.held_upd; focus (constructor; (dsimp only <;> exact rfl); all_goals (first | with_reducible exact .inl rfl | with_reducible exact rfl | exact .inr (hT.has (by decide))))))

theorem Mach.erase_held {T : Scope} {m : Mach} (h : m.Within T) (hT : T.allows 0x200000010) (a n : Nat) : (Mach.erase m a n).Within T := by
  unfold Mach.erase
  try dsimp only
  repeat' (first | exact hT.sub (by decide) | intro _ | with_reducible assumption | with_reducible apply Mach.eraseIssue_held | with_reducible apply Mach.flashErase_held)

theorem Mach.ringProgram_held {T : Scope} {m : Mach} (h : m.Within T) (hT : T.allows 0x200000010) (a : Nat) (l : List Byte) : (Mach.ringProgram m a l).Within T := by
  unfold Mach.ringProgram
  try dsimp only
  repeat' (first | exact hT.sub (by decide) | intro _ | with_reducible assumption | with_reducible apply Mach.nvProgram_held | with_reducible apply Mach.modNv_held | (apply Mach.held_upd; focus (constructor; (dsimp only <;> exact rfl); all_goals (first | with_reducible exact .inl rfl | with_reducible exact rfl | exact .inr (hT.has (by decide))))))

theorem Mach.ringErase_held {T : Scope} {m : Mach} (h : m.Within T) (hT : T.allows 0x200000010) (a : Nat) : (Mach.ringErase m a).Within T := by
  unfold Mach.ringErase
  try dsimp only
  repeat' (first | exact hT.sub (by decide) | intro _ | with_reducible assumption | with_reducible apply Mach.erase_held | with_reducible apply Mach.modNv_held | (apply Mach.held_upd; focus (constructor; (dsimp only <;> exact rfl); all_goals (first | with_reducible exact .inl rfl | with_reducible exact rfl | exact .inr (hT.has (by decide))))))

theorem Mach.indeterminate_held {T : Scope} {m : Mach} (h : m.Within T) (hT : T.allows 0x10) (a n : Nat) : (m.indeterminate a n).Within T :=
  Mach.held_flash h (hT.sub (by decide)) (memPut_wf _ _ _ h.stored.flash)

theorem Mach.plinthCut_held {T : Scope} {m done : Mach} (h : m.Within T) (hd : done.Within T) (hT : T.allows 0x10) (copy : Nat) :
    (m.plinthCut copy done).Within T := by
  unfold Mach.plinthCut
  split
  · exact Mach.flashErase_held h (hT.sub (by decide)) _ _
  · exact Mach.held_flash h (hT.sub (by decide)) (memPut_wf _ _ _ h.stored.flash)
  · exact hd

theorem Mach.calFlags_held {T : Scope} {m : Mach} (h : m.Within T) (hT : T.allows 0x800000000000000000000000) : (Mach.calFlags m).Within T := by
  unfold Mach.calFlags
  try dsimp only
  repeat' (first | exact hT.sub (by decide) | intro _ | with_reducible assumption | with_reducible apply Mach.wr_held)

theorem Mach.commitRefuse_held {T : Scope} {m : Mach} (h : m.Within T) (hT : T.allows 0x800000000000008000000000000000000001000) (kind code : Nat) : (Mach.commitRefuse m kind code).Within T := by
  unfold Mach.commitRefuse
  try dsimp only
  repeat' (first | exact hT.sub (by decide) | intro _ | with_reducible assumption | with_reducible apply Mach.setBit_held | with_reducible apply Mach.wr_held | with_reducible apply Mach.post_held | with_reducible apply Mach.ite_held | split)

theorem Mach.commitBegin_held {T : Scope} {m : Mach} (h : m.Within T) (hT : T.allows 0x8000000000000000200000000) (c : Commit) : (Mach.commitBegin m c).Within T := by
  unfold Mach.commitBegin
  try dsimp only
  repeat' (first | exact hT.sub (by decide) | intro _ | with_reducible assumption | with_reducible apply Mach.modNv_held | with_reducible apply Mach.setBit_held | with_reducible apply Mach.wr_held | (apply Mach.held_upd; focus (constructor; (dsimp only <;> exact rfl); all_goals (first | with_reducible exact .inl rfl | with_reducible exact rfl | exact .inr (hT.has (by decide))))))

theorem Mach.commitImage_held {T : Scope} {m : Mach} (h : m.Within T) (hT : T.allows 0x800000000000008000000000000000200001000) : (Mach.commitImage m).Within T := by
  unfold Mach.commitImage
  try dsimp only
  repeat' (first | exact hT.sub (by decide) | intro _ | with_reducible assumption | with_reducible apply Mach.commitRefuse_held | with_reducible apply Mach.commitBegin_held | with_reducible apply Mach.ite_held | split)

theorem Mach.commitOverlay_held {T : Scope} {m : Mach} (h : m.Within T) (hT : T.allows 0x800000000000008000000000000000200001000) : (Mach.commitOverlay m).Within T := by
  unfold Mach.commitOverlay
  try dsimp only
  repeat' (first | exact hT.sub (by decide) | intro _ | with_reducible assumption | with_reducible apply Mach.commitRefuse_held | with_reducible apply Mach.commitBegin_held | with_reducible apply Mach.ite_held | split | refine Mach.of_fst (by with_reducible assumption) ?_ | refine Mach.of_snd (by with_reducible assumption) ?_ | (apply Mach.held_upd; focus (constructor; (dsimp only <;> exact rfl); all_goals (first | with_reducible exact .inl rfl | with_reducible exact rfl | exact .inr (hT.has (by decide))))))

theorem Mach.calBegin_held {T : Scope} {m : Mach} (h : m.Within T) (hT : T.allows 0x8000000000000000200000000) (auto_ : Bool) : (Mach.calBegin m auto_).Within T := by
  unfold Mach.calBegin
  try dsimp only
  repeat' (first | exact hT.sub (by decide) | intro _ | with_reducible assumption | with_reducible apply Mach.commitBegin_held | with_reducible apply Mach.ite_held | split | refine Mach.of_fst (by with_reducible assumption) ?_ | refine Mach.of_snd (by with_reducible assumption) ?_)

theorem Mach.commitCal_held {T : Scope} {m : Mach} (h : m.Within T) (hT : T.allows 0x800000000000008000000000000000200001000) : (Mach.commitCal m).Within T := by
  unfold Mach.commitCal
  try dsimp only
  repeat' (first | exact hT.sub (by decide) | intro _ | with_reducible assumption | with_reducible apply Mach.commitRefuse_held | with_reducible apply Mach.calBegin_held | with_reducible apply Mach.ite_held | split)

theorem Mach.commitKind3_held {T : Scope} {m : Mach} (h : m.Within T) (hT : T.allows 0x800000000000008000000000000000000001000) : (Mach.commitKind3 m).Within T := by
  unfold Mach.commitKind3
  try dsimp only
  repeat' (first | exact hT.sub (by decide) | intro _ | with_reducible assumption | with_reducible apply Mach.commitRefuse_held | with_reducible apply Mach.ite_held | split)

theorem Mach.tieAck_held {T : Scope} {m : Mach} (h : m.Within T) (hT : T.allows 0x800000000000000100000000000000000001000) : (Mach.tieAck m).Within T := by
  unfold Mach.tieAck
  try dsimp only
  repeat' (first | exact hT.sub (by decide) | intro _ | with_reducible assumption | with_reducible apply Mach.clrFld_held | with_reducible apply Mach.post_held | with_reducible apply Mach.ite_held | split)

theorem Mach.autoCal_held {T : Scope} {m : Mach} (h : m.Within T) (hT : T.allows 0x8000000000000000200000000) : (Mach.autoCal m).Within T := by
  unfold Mach.autoCal
  try dsimp only
  repeat' (first | exact hT.sub (by decide) | intro _ | with_reducible assumption | with_reducible apply Mach.modNv_held | with_reducible apply Mach.calBegin_held | with_reducible apply Mach.ite_held | split | (apply Mach.held_upd; focus (constructor; (dsimp only <;> exact rfl); all_goals (first | with_reducible exact .inl rfl | with_reducible exact rfl | exact .inr (hT.has (by decide))))))

theorem Mach.showCopy_held {T : Scope} {m : Mach} (h : m.Within T) (hT : T.allows 0x700000000000000000000000) (copy : Nat) (valid : Bool) (seq : Nat) : (Mach.showCopy m copy valid seq).Within T := by
  unfold Mach.showCopy
  try dsimp only
  repeat' (first | exact hT.sub (by decide) | intro _ | with_reducible assumption | with_reducible apply Mach.wr_held | with_reducible apply Mach.ite_held | split)

theorem Mach.commitIdle_held {T : Scope} {m : Mach} (h : m.Within T) (hT : T.allows 0x8000000000000000200000000) : (Mach.commitIdle m).Within T := by
  unfold Mach.commitIdle
  try dsimp only
  repeat' (first | exact hT.sub (by decide) | intro _ | with_reducible assumption | with_reducible apply Mach.modNv_held | with_reducible apply Mach.clrFld_held | with_reducible apply Mach.wr_held | (apply Mach.held_upd; focus (constructor; (dsimp only <;> exact rfl); all_goals (first | with_reducible exact .inl rfl | with_reducible exact rfl | exact .inr (hT.has (by decide))))))

theorem Mach.calSpoil_held {T : Scope} {m : Mach} (h : m.Within T) (hT : T.allows 0x200000010) (c : Nat) : (Mach.calSpoil m c).Within T := by
  unfold Mach.calSpoil
  try dsimp only
  repeat' (first | exact hT.sub (by decide) | intro _ | with_reducible assumption | with_reducible apply Mach.nvProgram_held | with_reducible apply Mach.ite_held | split)

theorem Mach.commitFail_held {T : Scope} {m : Mach} (h : m.Within T) (hT : T.allows 0x800000000000008f00000000000000200001010) (c : Commit) (code : Nat) : (Mach.commitFail m c code).Within T := by
  unfold Mach.commitFail
  try dsimp only
  repeat' (first | exact hT.sub (by decide) | intro _ | with_reducible assumption | with_reducible apply Mach.setBit_held | with_reducible apply Mach.wr_held | with_reducible apply Mach.post_held | with_reducible apply Mach.calSpoil_held | with_reducible apply Mach.calFlags_held | with_reducible apply Mach.showCopy_held | with_reducible apply Mach.commitIdle_held | with_reducible apply Mach.ite_held | split)

theorem Mach.commitBad_held {T : Scope} {m : Mach} (h : m.Within T) (hT : T.allows 0x800000000000008f00000000000000200001010) (c : Commit) : (Mach.commitBad m c).Within T := by
  unfold Mach.commitBad
  try dsimp only
  repeat' (first | exact hT.sub (by decide) | intro _ | with_reducible assumption | with_reducible apply Mach.erase_held | with_reducible apply Mach.commitFail_held | with_reducible apply Mach.ite_held | split)

theorem Mach.commitOk_held {T : Scope} {m : Mach} (h : m.Within T) (hT : T.allows 0x800000000000008f00000000000000280001000) (c : Commit) : (Mach.commitOk m c).Within T := by
  unfold Mach.commitOk
  try dsimp only
  repeat' (first | exact hT.sub (by decide) | intro _ | with_reducible assumption | with_reducible apply Mach.setBit_held | with_reducible apply Mach.calFlags_held | with_reducible apply Mach.post_held | with_reducible apply Mach.clrFld_held | with_reducible apply Mach.showCopy_held | with_reducible apply Mach.commitIdle_held | with_reducible apply Mach.ite_held | split | (apply Mach.held_upd; focus (constructor; (dsimp only <;> exact rfl); all_goals (first | with_reducible exact .inl rfl | with_reducible exact rfl | exact .inr (hT.has (by decide))))))

theorem Mach.commitPhase_held {T : Scope} {m : Mach} (h : m.Within T) (hT : T.allows 0x8000000000000000200000000) (c : Commit) (p : Nat) : (Mach.commitPhase m c p).Within T := by
  unfold Mach.commitPhase
  try dsimp only
  repeat' (first | exact hT.sub (by decide) | intro _ | with_reducible assumption | with_reducible apply Mach.modNv_held | with_reducible apply Mach.wr_held | (apply Mach.held_upd; focus (constructor; (dsimp only <;> exact rfl); all_goals (first | with_reducible exact .inl rfl | with_reducible exact rfl | exact .inr (hT.has (by decide))))))

theorem Mach.commitMore_held {T : Scope} {m : Mach} (h : m.Within T) (hT : T.allows 0x8000000000000000200000000) (c : Commit) (total : Nat) : (Mach.commitMore m c total).Within T := by
  unfold Mach.commitMore
  try dsimp only
  repeat' (first | exact hT.sub (by decide) | intro _ | with_reducible assumption | with_reducible apply Mach.modNv_held | with_reducible apply Mach.wr_held | (apply Mach.held_upd; focus (constructor; (dsimp only <;> exact rfl); all_goals (first | with_reducible exact .inl rfl | with_reducible exact rfl | exact .inr (hT.has (by decide))))))

theorem Mach.commitOpDone_held {T : Scope} {m : Mach} (h : m.Within T) (hT : T.allows 0x800000000000008f00000000000000280001010) (readOk : Bool) : (Mach.commitOpDone m readOk).Within T := by
  unfold Mach.commitOpDone
  try dsimp only
  repeat' (first | exact hT.sub (by decide) | intro _ | with_reducible assumption | with_reducible apply Mach.erase_held | with_reducible apply Mach.commitPhase_held | with_reducible apply Mach.commitMore_held | with_reducible apply Mach.nvProgram_held | with_reducible apply Mach.nvRead_held | with_reducible apply Mach.commitBad_held | with_reducible apply Mach.commitOk_held | with_reducible apply Mach.ite_held | split | refine Mach.of_fst (by with_reducible assumption) ?_ | refine Mach.of_snd (by with_reducible assumption) ?_)

theorem Mach.calRest_held {T : Scope} {m : Mach} (h : m.Within T) (hT : T.allows 0x200000010) (c : Commit) : (Mach.calRest m c).Within T := by
  unfold Mach.calRest
  try dsimp only
  repeat' (first | exact hT.sub (by decide) | intro _ | with_reducible assumption | with_reducible apply Mach.erase_held | with_reducible apply Mach.nvProgram_held | with_reducible apply Mach.foldl_held | with_reducible apply Mach.foldl_fst_held | with_reducible apply Mach.ite_held | split)

theorem Mach.calDone_held {T : Scope} {m : Mach} (h : m.Within T) (hT : T.allows 0x800000000000008f00000000000000280001010) (readOk : Bool) : (Mach.calDone m readOk).Within T := by
  unfold Mach.calDone
  try dsimp only
  repeat' (first | exact hT.sub (by decide) | intro _ | with_reducible assumption | with_reducible apply Mach.calRest_held | with_reducible apply Mach.nvRead_held | with_reducible apply Mach.commitOk_held | with_reducible apply Mach.commitFail_held | with_reducible apply Mach.ite_held | split | refine Mach.of_fst (by with_reducible assumption) ?_ | refine Mach.of_snd (by with_reducible assumption) ?_ | (apply Mach.held_upd; focus (constructor; (dsimp only <;> exact rfl); all_goals (first | with_reducible exact .inl rfl | with_reducible exact rfl | exact .inr (hT.has (by decide))))))

theorem Mach.accGo_held {T : Scope} {m : Mach} (h : m.Within T) (hT : T.allows 0x20000000000000000200000000) (op : Nat) : (Mach.accGo m op).Within T := by
  unfold Mach.accGo
  try dsimp only
  repeat' (first | exact hT.sub (by decide) | intro _ | with_reducible assumption | with_reducible apply Mach.setBit_held | with_reducible apply Mach.modNv_held | with_reducible apply Mach.ite_held | split | (apply Mach.held_upd; focus (constructor; (dsimp only <;> exact rfl); all_goals (first | with_reducible exact .inl rfl | with_reducible exact rfl | exact .inr (hT.has (by decide))))))

theorem Mach.accDone_held {T : Scope} {m : Mach} (h : m.Within T) (hT : T.allows 0x60000000000000000200000010) : (Mach.accDone m).Within T := by
  unfold Mach.accDone
  try dsimp only
  repeat' (first | exact hT.sub (by decide) | intro _ | with_reducible assumption | with_reducible apply Mach.nvRead_held | with_reducible apply Mach.each_held | with_reducible apply Mach.wr_held | with_reducible apply Mach.nvProgram_held | with_reducible apply Mach.erase_held | with_reducible apply Mach.modNv_held | with_reducible apply Mach.clrFld_held | with_reducible apply Mach.setBit_held | with_reducible apply Mach.ite_held | split | refine Mach.of_fst (by with_reducible assumption) ?_ | refine Mach.of_snd (by with_reducible assumption) ?_ | (apply Mach.held_upd; focus (constructor; (dsimp only <;> exact rfl); all_goals (first | with_reducible exact .inl rfl | with_reducible exact rfl | exact .inr (hT.has (by decide))))))

theorem Mach.eraseLost_held {T : Scope} {m : Mach} (h : m.Within T) (hT : T.allows 0x200000010) (a n : Nat) : (Mach.eraseLost m a n).Within T := by
  unfold Mach.eraseLost
  try dsimp only
  repeat' (first | exact hT.sub (by decide) | intro _ | with_reducible assumption | with_reducible apply Mach.eraseIssue_held | with_reducible apply Mach.indeterminate_held)

theorem Mach.programLost_held {T : Scope} {m : Mach} (h : m.Within T) (hT : T.allows 0x200000010) (a : Nat) (l : List Byte) : (Mach.programLost m a l).Within T := by
  unfold Mach.programLost
  try dsimp only
  repeat' (first | exact hT.sub (by decide) | intro _ | with_reducible assumption | with_reducible apply Mach.nvWrite_held | with_reducible apply Mach.indeterminate_held)

theorem Mach.commitTimeout_held {T : Scope} {m : Mach} (h : m.Within T) (hT : T.allows 0x800000000000008f00000000000000200001010) (again : Bool) : (Mach.commitTimeout m again).Within T := by
  unfold Mach.commitTimeout
  try dsimp only
  repeat' (first | exact hT.sub (by decide) | intro _ | with_reducible assumption | with_reducible apply Mach.eraseLost_held | with_reducible apply Mach.programLost_held | with_reducible apply Mach.nvRecover_held | with_reducible apply Mach.erase_held | with_reducible apply Mach.commitFail_held | with_reducible apply Mach.ite_held | split | refine Mach.of_fst (by with_reducible assumption) ?_ | refine Mach.of_snd (by with_reducible assumption) ?_)

theorem Mach.accTimeout_held {T : Scope} {m : Mach} (h : m.Within T) (hT : T.allows 0x20000000000000000200000010) : (Mach.accTimeout m).Within T := by
  unfold Mach.accTimeout
  try dsimp only
  repeat' (first | exact hT.sub (by decide) | intro _ | with_reducible assumption | with_reducible apply Mach.programLost_held | with_reducible apply Mach.eraseLost_held | with_reducible apply Mach.nvRecover_held | with_reducible apply Mach.modNv_held | with_reducible apply Mach.clrFld_held | with_reducible apply Mach.setBit_held | with_reducible apply Mach.ite_held | split | refine Mach.of_fst (by with_reducible assumption) ?_ | refine Mach.of_snd (by with_reducible assumption) ?_ | (apply Mach.held_upd; focus (constructor; (dsimp only <;> exact rfl); all_goals (first | with_reducible exact .inl rfl | with_reducible exact rfl | exact .inr (hT.has (by decide))))))

theorem Mach.ringTimeout_held {T : Scope} {m : Mach} (h : m.Within T) (hT : T.allows 0x200000010) : (Mach.ringTimeout m).Within T := by
  unfold Mach.ringTimeout
  try dsimp only
  repeat' (first | exact hT.sub (by decide) | intro _ | with_reducible assumption | with_reducible apply Mach.indeterminate_held | with_reducible apply Mach.modNv_held | with_reducible apply Mach.nvRecover_held | split | refine Mach.of_fst (by with_reducible assumption) ?_ | refine Mach.of_snd (by with_reducible assumption) ?_ | (apply Mach.held_upd; focus (constructor; (dsimp only <;> exact rfl); all_goals (first | with_reducible exact .inl rfl | with_reducible exact rfl | exact .inr (hT.has (by decide))))))

theorem Mach.keyShow_held {T : Scope} {m : Mach} (h : m.Within T) (hT : T.allows 0x80000000000000000000000000) : (Mach.keyShow m).Within T := by
  unfold Mach.keyShow
  try dsimp only
  repeat' (first | exact hT.sub (by decide) | intro _ | with_reducible assumption | with_reducible apply Mach.wr_held)

theorem Mach.keyProgram_held {T : Scope} {m : Mach} (h : m.Within T) (hT : T.allows 0x80000000000000000100000000) (slot : Nat) : (m.keyProgram slot).Within T := by
  unfold Mach.keyProgram
  have hb : T.allows Reg.NV_KEY_STAT.bit := hT.sub (by decide)
  split
  · exact Mach.setBit_held h _ _ _ hb
  · rename_i hc
    have hn : vget none m.otp.hashes slot = none := by
      simp only [Bool.or_eq_true, not_or, Bool.not_eq_true, Option.isSome_eq_false_iff, Option.isNone_iff_eq_none] at hc
      exact hc.2
    refine Mach.setBit_held (Mach.keyShow_held ?_ (hT.sub (by decide))) _ _ _ hb
    exact Mach.held_otp h (hT.sub (by decide)) (h.stored.otp.program _ _ hn)

theorem Mach.keyRevoke_held {T : Scope} {m : Mach} (h : m.Within T) (hT : T.allows 0x80000000000000000100000000) (slot : Nat) : (m.keyRevoke slot).Within T := by
  unfold Mach.keyRevoke
  have hb : T.allows Reg.NV_KEY_STAT.bit := hT.sub (by decide)
  split
  · exact Mach.setBit_held h _ _ _ hb
  · refine Mach.setBit_held (Mach.keyShow_held ?_ (hT.sub (by decide))) _ _ _ hb
    exact Mach.held_otp h (hT.sub (by decide)) (h.stored.otp.revoke _)

theorem Mach.keyRequireSig_held {T : Scope} {m : Mach} (h : m.Within T) (hT : T.allows 0x80000000000000000100000000) : m.keyRequireSig.Within T := by
  unfold Mach.keyRequireSig
  have hb : T.allows Reg.NV_KEY_STAT.bit := hT.sub (by decide)
  split
  · exact Mach.setBit_held h _ _ _ hb
  · refine Mach.setBit_held (Mach.keyShow_held ?_ (hT.sub (by decide))) _ _ _ hb
    exact Mach.held_otp h (hT.sub (by decide)) h.stored.otp.require

end Sys2Proof.Machine
end

