-- ==== Sys2Proof/Laws/ScopeLog.lean ====
section
/-!
SUPPORT. What the operations of the kiln log, patina and the strata recorder may change. A lemma `f_held` says that `f` keeps the stored data sound and changes nothing outside its mask.
-/

namespace Sys2Proof.Machine

theorem Mach.lgMakeRoom_held {T : Scope} {m : Mach} (h : m.Within T) (hT : T.allows 0x200000010) : (Mach.lgMakeRoom m).Within T := by
  unfold Mach.lgMakeRoom
  try dsimp only
  repeat' (first | exact hT.sub (by decide) | intro _ | with_reducible assumption | with_reducible apply Mach.ringErase_held | with_reducible apply Mach.foldl_held | with_reducible apply Mach.foldl_fst_held | with_reducible apply Mach.ite_held | split)

theorem Mach.lgPut_held {T : Scope} {m : Mach} (h : m.Within T) (hT : T.allows 0x200000010) (o n v : Nat) : (Mach.lgPut m o n v).Within T := by
  unfold Mach.lgPut
  try dsimp only
  repeat' (first | exact hT.sub (by decide) | intro _ | with_reducible assumption | with_reducible apply Mach.ringProgram_held | split | refine Mach.of_fst (by with_reducible assumption) ?_ | refine Mach.of_snd (by with_reducible assumption) ?_)

theorem Mach.lgMark_held {T : Scope} {m : Mach} (h : m.Within T) (hT : T.allows 0x200000010) (o k : Nat) : (Mach.lgMark m o k).Within T := by
  unfold Mach.lgMark
  try dsimp only
  repeat' (first | exact hT.sub (by decide) | intro _ | with_reducible assumption | with_reducible apply Mach.lgPut_held | with_reducible apply Mach.ite_held | split)

theorem Mach.lgClose_held {T : Scope} {m : Mach} (h : m.Within T) (hT : T.allows 0x200000010) (a : Nat) : (Mach.lgClose m a).Within T := by
  unfold Mach.lgClose
  try dsimp only
  repeat' (first | exact hT.sub (by decide) | intro _ | with_reducible assumption | with_reducible apply Mach.ringProgram_held)

theorem Mach.lgCloseNow_held {T : Scope} {m : Mach} (h : m.Within T) (hT : T.allows 0x280000010) : (Mach.lgCloseNow m).Within T := by
  unfold Mach.lgCloseNow
  try dsimp only
  repeat' (first | exact hT.sub (by decide) | intro _ | with_reducible assumption | with_reducible apply Mach.lgClose_held | with_reducible apply Mach.modKn_held | split | refine Mach.of_fst (by with_reducible assumption) ?_ | refine Mach.of_snd (by with_reducible assumption) ?_ | (apply Mach.held_upd; focus (constructor; (dsimp only <;> exact rfl); all_goals (first | with_reducible exact .inl rfl | with_reducible exact rfl | exact .inr (hT.has (by decide))))))

theorem Mach.memoPut_held {T : Scope} {m : Mach} (h : m.Within T) (hT : T.allows 0x80000000000000080000000) (v : Nat) : (Mach.memoPut m v).Within T := by
  unfold Mach.memoPut
  try dsimp only
  repeat' (first | exact hT.sub (by decide) | intro _ | with_reducible assumption | with_reducible apply Mach.setReg_held | with_reducible apply Mach.modKn_held | with_reducible apply Mach.take_held | with_reducible apply Mach.ite_held | split | (apply Mach.held_upd; focus (constructor; (dsimp only <;> exact rfl); all_goals (first | with_reducible exact .inl rfl | with_reducible exact rfl | exact .inr (hT.has (by decide))))))

theorem Mach.memoFld_held {T : Scope} {m : Mach} (h : m.Within T) (hT : T.allows 0x80000000000000080000000) (f : Fld) (v : Nat) : (Mach.memoFld m f v).Within T := by
  unfold Mach.memoFld
  try dsimp only
  repeat' (first | exact hT.sub (by decide) | intro _ | with_reducible assumption | with_reducible apply Mach.memoPut_held)

theorem Mach.memoKeep_held {T : Scope} {m : Mach} (h : m.Within T) (hT : T.allows 0x80000000000000080000000) : (Mach.memoKeep m).Within T := by
  unfold Mach.memoKeep
  try dsimp only
  repeat' (first | exact hT.sub (by decide) | intro _ | with_reducible assumption | with_reducible apply Mach.memoFld_held)

theorem Mach.setCount_held {T : Scope} {m : Mach} (h : m.Within T) (hT : T.allows 0x80000000000000080000000) (s v : Nat) : (Mach.setCount m s v).Within T := by
  unfold Mach.setCount
  try dsimp only
  repeat' (first | exact hT.sub (by decide) | intro _ | with_reducible assumption | with_reducible apply Mach.modKn_held | with_reducible apply Mach.when_held | with_reducible apply Mach.memoKeep_held | (apply Mach.held_upd; focus (constructor; (dsimp only <;> exact rfl); all_goals (first | with_reducible exact .inl rfl | with_reducible exact rfl | exact .inr (hT.has (by decide))))))

theorem Mach.flashCut_held {T : Scope} {m : Mach} (h : m.Within T) (hT : T.allows 0x10) : (Mach.flashCut m).Within T := by
  unfold Mach.flashCut
  try dsimp only
  repeat' (first | exact hT.sub (by decide) | intro _ | with_reducible assumption | with_reducible apply Mach.plinthCut_held | with_reducible apply Mach.indeterminate_held | with_reducible apply Mach.flashProgram_held | with_reducible apply Mach.ite_held | split | refine Mach.of_fst (by with_reducible assumption) ?_ | refine Mach.of_snd (by with_reducible assumption) ?_)

theorem Mach.wipe_held {T : Scope} {m : Mach} (h : m.Within T) (hT : T.allows 0x3fffffffffffffffffffffffffffffffffffffffffffffffffffffffffffffffffffffffffff0000001effffffdd) : m.wipe.Within T := by
  unfold Mach.wipe
  dsimp only
  refine Mach.each_held (Mach.setReg_held (Mach.setReg_held ?_ _ (hT.sub (by decide)) _ _ _) _ (hT.sub (by decide)) _ _ _) _ _ ?_
  · constructor
    · exact ⟨Mach.reset_sound.stored.dram, (Mach.flashCut_held h (hT.sub (by decide))).stored.flash, Mach.reset_sound.stored.regs,
        h.stored.otp, Mach.reset_sound.stored.rings⟩
    all_goals first
      | exact fun k => .inl (hT.has (Reg.all_bits' k.r))
      | exact .inl (hT.has (by decide))
      | exact h.inp
      | exact h.otp
      | exact h.tap
  · intro _ _ hm
    exact Mach.modBank_held hm (hT.sub (by decide)) _ _

theorem Mach.wipeSoft_held {T : Scope} {m : Mach} (h : m.Within T) (hT : T.allows 0x3fffffffffffffffffffffffffffffffffffffffffffffffffffffffffffffffffffffffffff0000001effffffdd) : (Mach.wipeSoft m).Within T := by
  unfold Mach.wipeSoft
  try dsimp only
  repeat' (first | exact hT.sub (by decide) | exact Scope.allows_any (hT.sub (by decide)) _ | intro _ | with_reducible assumption | with_reducible apply Mach.setReg_held | with_reducible apply Mach.wipe_held | with_reducible apply Mach.foldl_held | with_reducible apply Mach.foldl_fst_held | (apply Mach.held_upd; focus (constructor; (dsimp only <;> exact rfl); all_goals (first | with_reducible exact .inl rfl | with_reducible exact rfl | exact .inr (hT.has (by decide))))))

theorem Mach.stepBegin_held {T : Scope} {m : Mach} (h : m.Within T) (hT : T.allows 0x800000000000000000000000000000280001010) (s : Nat) : (Mach.stepBegin m s).Within T := by
  unfold Mach.stepBegin
  try dsimp only
  repeat' (first | exact hT.sub (by decide) | intro _ | with_reducible assumption | with_reducible apply Mach.when_held | with_reducible apply Mach.nvReset_held | with_reducible apply Mach.modKn_held | with_reducible apply Mach.post_held | with_reducible apply Mach.lgMark_held | with_reducible apply Mach.ite_held | split | (apply Mach.held_upd; focus (constructor; (dsimp only <;> exact rfl); all_goals (first | with_reducible exact .inl rfl | with_reducible exact rfl | exact .inr (hT.has (by decide))))))

theorem Mach.startBegin_held {T : Scope} {m : Mach} (h : m.Within T) (hT : T.allows 0x800000000000000100000000000000280001010) (trigger : Nat) : (Mach.startBegin m trigger).Within T := by
  unfold Mach.startBegin
  try dsimp only
  repeat' (first | exact hT.sub (by decide) | intro _ | with_reducible assumption | with_reducible apply Mach.modKn_held | with_reducible apply Mach.wr_held | with_reducible apply Mach.stepBegin_held | with_reducible apply Mach.ite_held | split | (apply Mach.held_upd; focus (constructor; (dsimp only <;> exact rfl); all_goals (first | with_reducible exact .inl rfl | with_reducible exact rfl | exact .inr (hT.has (by decide))))))

theorem Mach.knRequest_held {T : Scope} {m : Mach} (h : m.Within T) (hT : T.allows 0x80000000000000280000010) (k : Nat) : (Mach.knRequest m k).Within T := by
  unfold Mach.knRequest
  try dsimp only
  repeat' (first | exact hT.sub (by decide) | intro _ | with_reducible assumption | with_reducible apply Mach.lgPut_held | with_reducible apply Mach.memoFld_held | split | refine Mach.of_fst (by with_reducible assumption) ?_ | refine Mach.of_snd (by with_reducible assumption) ?_)

theorem Mach.knRestart_held {T : Scope} {m : Mach} (h : m.Within T) (hT : T.allows 0x3fffffffffffffffffffffffffffffffffffffffffffffffffffffffffffffffffffffffffff0000001effffffdd) (clrCnt : Bool) : (Mach.knRestart m clrCnt).Within T := by
  unfold Mach.knRestart
  try dsimp only
  repeat' (first | exact hT.sub (by decide) | exact Scope.allows_any (hT.sub (by decide)) _ | intro _ | with_reducible assumption | with_reducible apply Mach.modKn_held | with_reducible apply Mach.when_held | with_reducible apply Mach.memoKeep_held | with_reducible apply Mach.wipeSoft_held | with_reducible apply Mach.startBegin_held | with_reducible apply Mach.ite_held | split | (apply Mach.held_upd; focus (constructor; (dsimp only <;> exact rfl); all_goals (first | with_reducible exact .inl rfl | with_reducible exact rfl | exact .inr (hT.has (by decide))))))

theorem Mach.writeKnCtrl_held {T : Scope} {m : Mach} (h : m.Within T) (hT : T.allows 0x3fffffffffffffffffffffffffffffffffffffffffffffffffffffffffffffffffffffffffff0000001effffffdd) (v : Nat) : (Mach.writeKnCtrl m v).Within T := by
  unfold Mach.writeKnCtrl
  try dsimp only
  repeat' (first | exact hT.sub (by decide) | exact Scope.allows_any (hT.sub (by decide)) _ | intro _ | with_reducible assumption | with_reducible apply Mach.when_held | with_reducible apply Mach.knRequest_held | with_reducible apply Mach.knRestart_held | with_reducible apply Mach.ite_held | split)

theorem Mach.patRon_held {T : Scope} {m : Mach} (h : m.Within T) (hT : T.allows 0x40000) (n : Nat) (drop i : Rat) : (Mach.patRon m n drop i).Within T := by
  unfold Mach.patRon
  try dsimp only
  repeat' (first | exact hT.sub (by decide) | intro _ | with_reducible assumption | with_reducible apply Mach.modOb_held | with_reducible apply Mach.ite_held | split | (apply Mach.held_upd; focus (constructor; (dsimp only <;> exact rfl); all_goals (first | with_reducible exact .inl rfl | with_reducible exact rfl | exact .inr (hT.has (by decide))))))

theorem Mach.windAdjust_held {T : Scope} {m : Mach} (h : m.Within T) (hT : T.allows 0xc0000000000000000000000000000000000000000000000000) (n : Nat) (coilB : Bool) (r l : Nat) (rOk lOk : Bool) : (Mach.windAdjust m n coilB r l rOk lOk).1.Within T := by
  unfold Mach.windAdjust
  try dsimp only
  repeat' (first | exact hT.sub (by decide) | intro _ | with_reducible assumption | with_reducible apply Mach.wr_held | with_reducible apply Mach.ite_held | split)

theorem Mach.windStep_held {T : Scope} {m : Mach} (h : m.Within T) (hT : T.allows 0x400000000000000000000000000000000c0000000000800000000000000000000000000000000001000) (w : Window) (n : Nat) : (Mach.windStep m w n).Within T := by
  unfold Mach.windStep
  try dsimp only
  repeat' (first | exact hT.sub (by decide) | intro _ | with_reducible assumption | with_reducible apply Mach.setBit_held | with_reducible apply Mach.post_held | with_reducible apply Mach.windAdjust_held | with_reducible apply Mach.ite_held | split | refine Mach.of_fst (by with_reducible assumption) ?_ | refine Mach.of_snd (by with_reducible assumption) ?_)

theorem Mach.ledgerRows_held {T : Scope} {m : Mach} (h : m.Within T) (hT : T.allows 0x180000000000000000000000000000000000000000000000000000000000000000000000004000000) (w : Window) : (Mach.ledgerRows m w).Within T := by
  unfold Mach.ledgerRows
  try dsimp only
  repeat' (first | exact hT.sub (by decide) | intro _ | with_reducible assumption | with_reducible apply Mach.each_held | with_reducible apply Mach.wr_held | with_reducible apply Mach.ite_held | split | (apply Mach.held_upd; focus (constructor; (dsimp only <;> exact rfl); all_goals (first | with_reducible exact .inl rfl | with_reducible exact rfl | exact .inr (hT.has (by decide))))))

theorem Mach.patWarn_held {T : Scope} {m : Mach} (h : m.Within T) (f : Fld) (hf : T.allows f.reg.bit) (hT : T.allows 0x800000000000000000000000000000400001000) (bit : Nat) (cond : Bool)
    (code obj data : Nat) : (m.patWarn bit cond f code obj data).Within T := by
  unfold Mach.patWarn
  dsimp only
  have h1 : (if cond && !bitOf m.pt.noted bit then (m.setBit f).post code obj data else m).Within T :=
    Mach.ite_held _ (Mach.post_held (Mach.setBit_held h _ _ _ hf) (hT.sub (by decide)) _ _ _) h
  generalize (if cond && !bitOf m.pt.noted bit then (m.setBit f).post code obj data else m) = x at h1 ⊢
  refine Mach.held_upd (b := x) ?_ h1
  constructor
  case dram => rfl
  all_goals first | with_reducible exact .inl rfl | with_reducible exact rfl | exact .inr (hT.has (by decide))

theorem Mach.fricWarn_held {T : Scope} {m : Mach} (h : m.Within T) (hT : T.allows 0x40000000000000000000000000000000000000000000800000000000000000000000000000400001000) (w : Window) (n : Nat) : (Mach.fricWarn m w n).Within T := by
  unfold Mach.fricWarn
  try dsimp only
  repeat' (first | exact hT.sub (by decide) | intro _ | with_reducible assumption | with_reducible apply Mach.setBit_held | with_reducible apply Mach.post_held | with_reducible apply Mach.ite_held | split | refine Mach.of_fst (by with_reducible assumption) ?_ | refine Mach.of_snd (by with_reducible assumption) ?_ | (apply Mach.held_upd; focus (constructor; (dsimp only <;> exact rfl); all_goals (first | with_reducible exact .inl rfl | with_reducible exact rfl | exact .inr (hT.has (by decide))))))

theorem Mach.patWarnings_held {T : Scope} {m : Mach} (h : m.Within T) (hT : T.allows 0x40000000000000000000000000000000000000000000800000000000000000000000000000400001000) (w : Window) (rcp : Option Nat) : (m.patWarnings w rcp).Within T := by
  have hw : ∀ {m : Mach}, m.Within T → ∀ bit cond (f : Fld) (_ : f.reg = .PT_STAT) code obj data, (m.patWarn bit cond f code obj data).Within T :=
    fun hm _ _ f e _ _ _ => Mach.patWarn_held hm f (by rw [e]; exact hT.sub (by decide)) (hT.sub (by decide)) _ _ _ _ _
  unfold Mach.patWarnings
  dsimp only
  refine Mach.each_held ?_ _ _ fun _ _ hm => Mach.fricWarn_held hm (hT.sub (by decide)) _ _
  have h3 := hw (Mach.each_held (hw h 0 (!m.fm.rcRef && decide (10 * m.rd F.PT_CFG2_OSC_PPM < (signedOf 16 w.refPpm.toNat).natAbs))
    F.PT_STAT_OSC rfl Ev.PT_OSC_DRIFT 0 w.refPpm.toNat) 4 (fun m r => m.patWarn (1 + r) (m.wornOut r) F.PT_STAT_WEAR Ev.PT_WEAR r m.wearPct)
    fun _ _ hm => hw hm _ _ _ rfl _ _ _)
  split
  · exact hw (h3 _ _ _ rfl _ _ _) _ _ _ rfl _ _ _
  · exact hw (h3 _ _ _ rfl _ _ _) _ _ _ rfl _ _ _

theorem Mach.patShow_held {T : Scope} {m : Mach} (h : m.Within T) (hT : T.allows 0xe00000000000000000000000000000000000000000000000000000000000000000000000000000000000) (w : Window) (rcp : Option Nat) (plans : List Nat) : (Mach.patShow m w rcp plans).Within T := by
  unfold Mach.patShow
  try dsimp only
  repeat' (first | exact hT.sub (by decide) | intro _ | with_reducible assumption | with_reducible apply Mach.setReg_held | with_reducible apply Mach.each_held)

theorem Mach.patinaPass_held {T : Scope} {m : Mach} (h : m.Within T) (hT : T.allows 0xe401800000000000000010000000000000c0000000000800000000000000000000000000000444041000) (win : PatinaWin) : (m.patinaPass win).Within T := by
  unfold Mach.patinaPass
  refine Mach.ite_held _ h ?_
  extract_lets w rcp plans rec_ m1 m2 m3 m4 z m5 p
  have h1 : m1.Within T := Mach.patShow_held h (hT.sub (by decide)) _ _ _
  have h2 : m2.Within T := Mach.when_held h1 _ _ fun _ hm => Mach.setBit_held hm _ _ _ (hT.sub (by decide))
  have h3 : m3.Within T := Mach.ledgerRows_held
    (Mach.each_held h2 _ _ fun _ _ hm => Mach.windStep_held hm (hT.sub (by decide)) _ _) (hT.sub (by decide)) _
  have h4 : m4.Within T := Mach.wrap_held (Mach.patWarnings_held h3 (hT.sub (by decide)) _ _) _ _ _ (hT.sub (by decide))
  have h5 : m5.Within T := Mach.each_held h4 _ _ fun _ _ hm =>
    Mach.modOb_held (Mach.clrFld_held (Mach.clrFld_held hm _ _ _ (hT.sub (by decide))) _ _ _ (hT.sub (by decide))) (hT.sub (by decide)) _ _
  clear_value m5
  refine Mach.held_upd (b := m5) ?_ h5
  constructor
  case dram => rfl
  all_goals first | with_reducible exact .inl rfl | with_reducible exact rfl | exact .inr (hT.has (by decide))

theorem Mach.clrLimits_held {T : Scope} {m : Mach} (h : m.Within T) (hT : T.allows 0x800000000000000000000000000000000000000000000000000000000000000000000000000000000000) : (Mach.clrLimits m).Within T := by
  unfold Mach.clrLimits
  try dsimp only
  repeat' (first | exact hT.sub (by decide) | intro _ | with_reducible assumption | with_reducible apply Mach.each_held | with_reducible apply Mach.clrFld_held)

theorem Mach.patMinute_held {T : Scope} {m : Mach} (h : m.Within T) (hT : T.allows 0x400000000) : (Mach.patMinute m).Within T := by
  unfold Mach.patMinute
  try dsimp only
  repeat' (first | exact hT.sub (by decide) | intro _ | with_reducible assumption | with_reducible apply Mach.take_held | (apply Mach.held_upd; focus (constructor; (dsimp only <;> exact rfl); all_goals (first | with_reducible exact .inl rfl | with_reducible exact rfl | exact .inr (hT.has (by decide))))))

theorem Mach.patWritten_held {T : Scope} {m : Mach} (h : m.Within T) (hT : T.allows 0x40000000000000000000000000000000000000000000800000000000000000000000000000600001010) (ok : Bool) : (Mach.patWritten m ok).Within T := by
  unfold Mach.patWritten
  try dsimp only
  repeat' (first | exact hT.sub (by decide) | intro _ | with_reducible assumption | with_reducible apply Mach.take_held | with_reducible apply Mach.setBit_held | with_reducible apply Mach.post_held | with_reducible apply Mach.ringProgram_held | with_reducible apply Mach.ringErase_held | with_reducible apply Mach.foldl_held | with_reducible apply Mach.foldl_fst_held | with_reducible apply Mach.ite_held | split | refine Mach.of_fst (by with_reducible assumption) ?_ | refine Mach.of_snd (by with_reducible assumption) ?_ | (apply Mach.held_upd; focus (constructor; (dsimp only <;> exact rfl); all_goals (first | with_reducible exact .inl rfl | with_reducible exact rfl | exact .inr (hT.has (by decide))))))

theorem Mach.planApply_held {T : Scope} {m : Mach} (h : m.Within T) (hT : T.allows 0x100000000000000000000000104000000000000000000000000000) (n plan : Nat) : (Mach.planApply m n plan).Within T := by
  unfold Mach.planApply
  try dsimp only
  repeat' (first | exact hT.sub (by decide) | intro _ | with_reducible assumption | with_reducible apply Mach.wr_held | with_reducible apply Mach.each_held | with_reducible apply Mach.ite_held | split)

theorem Mach.unitNote_held {T : Scope} {m : Mach} (h : m.Within T) (hT : T.allows 0x80000000) (unit s code : Nat) : (Mach.unitNote m unit s code).Within T := by
  unfold Mach.unitNote
  try dsimp only
  repeat' (first | exact hT.sub (by decide) | intro _ | with_reducible assumption | with_reducible apply Mach.modKn_held | (apply Mach.held_upd; focus (constructor; (dsimp only <;> exact rfl); all_goals (first | with_reducible exact .inl rfl | with_reducible exact rfl | exact .inr (hT.has (by decide))))))

theorem Mach.patStart_held {T : Scope} {m : Mach} (h : m.Within T) (hT : T.allows 0x800000000000000000000000000000100000000000000800000000104000000000000000000480001000) : (Mach.patStart m).Within T := by
  unfold Mach.patStart
  try dsimp only
  repeat' (first | exact hT.sub (by decide) | intro _ | with_reducible assumption | with_reducible apply Mach.unitNote_held | with_reducible apply Mach.each_held | with_reducible apply Mach.planApply_held | with_reducible apply Mach.setReg_held | with_reducible apply Mach.post_held | with_reducible apply Mach.ite_held | split | refine Mach.of_fst (by with_reducible assumption) ?_ | refine Mach.of_snd (by with_reducible assumption) ?_ | (apply Mach.held_upd; focus (constructor; (dsimp only <;> exact rfl); all_goals (first | with_reducible exact .inl rfl | with_reducible exact rfl | exact .inr (hT.has (by decide))))))

theorem Mach.patWear_held {T : Scope} {m : Mach} (h : m.Within T) (hT : T.allows 0x200000000) : (Mach.patWear m).Within T := by
  unfold Mach.patWear
  try dsimp only
  repeat' (first | exact hT.sub (by decide) | intro _ | with_reducible assumption | with_reducible apply Mach.modNv_held | with_reducible apply Mach.foldl_held | with_reducible apply Mach.foldl_fst_held | split | refine Mach.of_fst (by with_reducible assumption) ?_ | refine Mach.of_snd (by with_reducible assumption) ?_ | (apply Mach.held_upd; focus (constructor; (dsimp only <;> exact rfl); all_goals (first | with_reducible exact .inl rfl | with_reducible exact rfl | exact .inr (hT.has (by decide))))))

theorem Mach.modSt_held {T : Scope} {m : Mach} (h : m.Within T) (hT : T.allows 0x800000000) (f : Strata → Strata) : (Mach.modSt m f).Within T := by
  unfold Mach.modSt
  try dsimp only
  repeat' (first | exact hT.sub (by decide) | intro _ | with_reducible assumption | (apply Mach.held_upd; focus (constructor; (dsimp only <;> exact rfl); all_goals (first | with_reducible exact .inl rfl | with_reducible exact rfl | exact .inr (hT.has (by decide))))))

theorem Mach.stEmpty_held {T : Scope} {m : Mach} (h : m.Within T) (hT : T.allows 0x400000000000000000000000000000000000000000000000000000000000000000000000000000800000000) : (Mach.stEmpty m).Within T := by
  unfold Mach.stEmpty
  try dsimp only
  repeat' (first | exact hT.sub (by decide) | intro _ | with_reducible assumption | with_reducible apply Mach.modSt_held | with_reducible apply Mach.setReg_held | (apply Mach.held_upd; focus (constructor; (dsimp only <;> exact rfl); all_goals (first | with_reducible exact .inl rfl | with_reducible exact rfl | exact .inr (hT.has (by decide))))))

theorem Mach.chunkBegin_held {T : Scope} {m : Mach} (h : m.Within T) (hT : T.allows 0x800000008) (ts : Nat) : (Mach.chunkBegin m ts).Within T := by
  unfold Mach.chunkBegin
  try dsimp only
  repeat' (first | exact hT.sub (by decide) | intro _ | with_reducible assumption | with_reducible apply Mach.dramWrite_held | with_reducible apply Mach.modSt_held | split | refine Mach.of_fst (by with_reducible assumption) ?_ | refine Mach.of_snd (by with_reducible assumption) ?_ | (apply Mach.held_upd; focus (constructor; (dsimp only <;> exact rfl); all_goals (first | with_reducible exact .inl rfl | with_reducible exact rfl | exact .inr (hT.has (by decide))))))

theorem Mach.chunkNext_held {T : Scope} {m : Mach} (h : m.Within T) (hT : T.allows 0x800000008) (full : Bool) : (Mach.chunkNext m full).Within T := by
  unfold Mach.chunkNext
  try dsimp only
  repeat' (first | exact hT.sub (by decide) | intro _ | with_reducible assumption | with_reducible apply Mach.dramWrite_held | with_reducible apply Mach.modSt_held | with_reducible apply Mach.ite_held | split | (apply Mach.held_upd; focus (constructor; (dsimp only <;> exact rfl); all_goals (first | with_reducible exact .inl rfl | with_reducible exact rfl | exact .inr (hT.has (by decide))))))

theorem Mach.stPut_held {T : Scope} {m : Mach} (h : m.Within T) (hT : T.allows 0x800000008) (ts w : Nat) : (Mach.stPut m ts w).Within T := by
  unfold Mach.stPut
  try dsimp only
  repeat' (first | exact hT.sub (by decide) | intro _ | with_reducible assumption | with_reducible apply Mach.chunkBegin_held | with_reducible apply Mach.dramWrite_held | with_reducible apply Mach.modSt_held | with_reducible apply Mach.chunkNext_held | with_reducible apply Mach.ite_held | split | (apply Mach.held_upd; focus (constructor; (dsimp only <;> exact rfl); all_goals (first | with_reducible exact .inl rfl | with_reducible exact rfl | exact .inr (hT.has (by decide))))))

theorem Mach.stPeriod_held {T : Scope} {m : Mach} (h : m.Within T) (hT : T.allows 0x800000000) (K : Nat) : (Mach.stPeriod m K).Within T := by
  unfold Mach.stPeriod
  try dsimp only
  repeat' (first | exact hT.sub (by decide) | intro _ | with_reducible assumption | with_reducible apply Mach.modSt_held | with_reducible apply Mach.ite_held | split | (apply Mach.held_upd; focus (constructor; (dsimp only <;> exact rfl); all_goals (first | with_reducible exact .inl rfl | with_reducible exact rfl | exact .inr (hT.has (by decide))))))

theorem Mach.stFrame_held {T : Scope} {m : Mach} (h : m.Within T) (hT : T.allows 0x1c04000000000000000000000000000000000000000000000800000000000000000000000000000800001008) : (Mach.stFrame m).Within T := by
  unfold Mach.stFrame
  try dsimp only
  repeat' (first | exact hT.sub (by decide) | intro _ | with_reducible assumption | with_reducible apply Mach.modSt_held | with_reducible apply Mach.bump_held | with_reducible apply Mach.setBit_held | with_reducible apply Mach.post_held | with_reducible apply Mach.chunkBegin_held | with_reducible apply Mach.stPut_held | with_reducible apply Mach.setReg_held | with_reducible apply Mach.wr_held | with_reducible apply Mach.foldl_held | with_reducible apply Mach.foldl_fst_held | with_reducible apply Mach.ite_held | split | refine Mach.of_fst (by with_reducible assumption) ?_ | refine Mach.of_snd (by with_reducible assumption) ?_ | (apply Mach.held_upd; focus (constructor; (dsimp only <;> exact rfl); all_goals (first | with_reducible exact .inl rfl | with_reducible exact rfl | exact .inr (hT.has (by decide))))))

theorem Mach.stShowRate_held {T : Scope} {m : Mach} (h : m.Within T) (hT : T.allows 0x8000000000000000000000000000000000000000000000000000000000000000000000000000000000000) : (Mach.stShowRate m).Within T := by
  unfold Mach.stShowRate
  try dsimp only
  repeat' (first | exact hT.sub (by decide) | intro _ | with_reducible assumption | with_reducible apply Mach.wr_held)

theorem Mach.stSelWait_held {T : Scope} {m : Mach} (h : m.Within T) (hT : T.allows 0x4) (k : RegKey) : (Mach.stSelWait m k).Within T := by
  unfold Mach.stSelWait
  try dsimp only
  repeat' (first | exact hT.sub (by decide) | intro _ | with_reducible assumption | with_reducible apply Mach.ite_held | split | (apply Mach.held_upd; focus (constructor; (dsimp only <;> exact rfl); all_goals (first | with_reducible exact .inl rfl | with_reducible exact rfl | exact .inr (hT.has (by decide))))))

theorem Mach.stPeriodChange_held {T : Scope} {m : Mach} (h : m.Within T) (hT : T.allows 0x20c000000000000000000000000000000000000000000000000000000000000000000000000000000000004) (b : Nat) : (Mach.stPeriodChange m b).Within T := by
  unfold Mach.stPeriodChange
  try dsimp only
  repeat' (first | exact hT.sub (by decide) | intro _ | with_reducible assumption | with_reducible apply Mach.stShowRate_held | with_reducible apply Mach.setReg_held | with_reducible apply Mach.setBit_held | with_reducible apply Mach.ite_held | split | (apply Mach.held_upd; focus (constructor; (dsimp only <;> exact rfl); all_goals (first | with_reducible exact .inl rfl | with_reducible exact rfl | exact .inr (hT.has (by decide))))))

theorem Mach.stCount_held {T : Scope} {m : Mach} (h : m.Within T) (hT : T.allows 0x4000000000000000000000000000000000000000000000000000000000000000000000000000000000000) : (Mach.stCount m).Within T := by
  unfold Mach.stCount
  try dsimp only
  repeat' (first | exact hT.sub (by decide) | intro _ | with_reducible assumption | with_reducible apply Mach.wr_held)

theorem Mach.stAccept_held {T : Scope} {m : Mach} (h : m.Within T) (hT : T.allows 0x1800000000000000000000000000000000000000000000000800000000000000000000000000000800001000) (cause : Nat) : (Mach.stAccept m cause).Within T := by
  unfold Mach.stAccept
  try dsimp only
  repeat' (first | exact hT.sub (by decide) | intro _ | with_reducible assumption | with_reducible apply Mach.modSt_held | with_reducible apply Mach.setReg_held | with_reducible apply Mach.post_held | with_reducible apply Mach.ite_held | split | refine Mach.of_fst (by with_reducible assumption) ?_ | refine Mach.of_snd (by with_reducible assumption) ?_ | (apply Mach.held_upd; focus (constructor; (dsimp only <;> exact rfl); all_goals (first | with_reducible exact .inl rfl | with_reducible exact rfl | exact .inr (hT.has (by decide))))))

theorem Mach.stTrigger_held {T : Scope} {m : Mach} (h : m.Within T) (hT : T.allows 0x1804000000000000000000000000000000000000000000000800000000000000000000000000000800001000) : (Mach.stTrigger m).Within T := by
  unfold Mach.stTrigger
  try dsimp only
  repeat' (first | exact hT.sub (by decide) | intro _ | with_reducible assumption | with_reducible apply Mach.modSt_held | with_reducible apply Mach.wr_held | with_reducible apply Mach.bump_held | with_reducible apply Mach.stAccept_held | with_reducible apply Mach.setBit_held | with_reducible apply Mach.post_held | with_reducible apply Mach.ite_held | split | refine Mach.of_fst (by with_reducible assumption) ?_ | refine Mach.of_snd (by with_reducible assumption) ?_ | (apply Mach.held_upd; focus (constructor; (dsimp only <;> exact rfl); all_goals (first | with_reducible exact .inl rfl | with_reducible exact rfl | exact .inr (hT.has (by decide))))))

theorem Mach.stFire_held {T : Scope} {m : Mach} (h : m.Within T) (hT : T.allows 0x800000000) (src : Nat) : (Mach.stFire m src).Within T := by
  unfold Mach.stFire
  try dsimp only
  repeat' (first | exact hT.sub (by decide) | intro _ | with_reducible assumption | with_reducible apply Mach.modSt_held | with_reducible apply Mach.ite_held | split | (apply Mach.held_upd; focus (constructor; (dsimp only <;> exact rfl); all_goals (first | with_reducible exact .inl rfl | with_reducible exact rfl | exact .inr (hT.has (by decide))))))

theorem Mach.stFreeze_held {T : Scope} {m : Mach} (h : m.Within T) (hT : T.allows 0x1004000000000000000000000000000000000000000000000800000000000000000000000000000800001008) (short : Bool) : (Mach.stFreeze m short).Within T := by
  unfold Mach.stFreeze
  try dsimp only
  repeat' (first | exact hT.sub (by decide) | intro _ | with_reducible assumption | with_reducible apply Mach.wr_held | with_reducible apply Mach.setBit_held | with_reducible apply Mach.post_held | with_reducible apply Mach.modSt_held | with_reducible apply Mach.chunkNext_held | with_reducible apply Mach.stCount_held | with_reducible apply Mach.ite_held | split | refine Mach.of_fst (by with_reducible assumption) ?_ | refine Mach.of_snd (by with_reducible assumption) ?_ | (apply Mach.held_upd; focus (constructor; (dsimp only <;> exact rfl); all_goals (first | with_reducible exact .inl rfl | with_reducible exact rfl | exact .inr (hT.has (by decide))))))

theorem Mach.stDrained_held {T : Scope} {m : Mach} (h : m.Within T) (hT : T.allows 0x1004000000000000000000000000000000000000000000000800000000000000000000000000000800001008) : (Mach.stDrained m).Within T := by
  unfold Mach.stDrained
  try dsimp only
  repeat' (first | exact hT.sub (by decide) | intro _ | with_reducible assumption | with_reducible apply Mach.stFreeze_held | with_reducible apply Mach.ite_held | split | refine Mach.of_fst (by with_reducible assumption) ?_ | refine Mach.of_snd (by with_reducible assumption) ?_)

theorem Mach.stRelease_held {T : Scope} {m : Mach} (h : m.Within T) (hT : T.allows 0x1804000000000000000000000000000000000000000000000000000000000000000000000000000800000000) (i : Nat) : (Mach.stRelease m i).Within T := by
  unfold Mach.stRelease
  try dsimp only
  repeat' (first | exact hT.sub (by decide) | intro _ | with_reducible assumption | with_reducible apply Mach.modSt_held | with_reducible apply Mach.setReg_held | with_reducible apply Mach.stCount_held | with_reducible apply Mach.ite_held | split | refine Mach.of_fst (by with_reducible assumption) ?_ | refine Mach.of_snd (by with_reducible assumption) ?_ | (apply Mach.held_upd; focus (constructor; (dsimp only <;> exact rfl); all_goals (first | with_reducible exact .inl rfl | with_reducible exact rfl | exact .inr (hT.has (by decide))))))

theorem Mach.stReleaseAll_held {T : Scope} {m : Mach} (h : m.Within T) (hT : T.allows 0x1804000000000000000000000000000000000000000000000000000000000000000000000000000800000000) : (Mach.stReleaseAll m).Within T := by
  unfold Mach.stReleaseAll
  try dsimp only
  repeat' (first | exact hT.sub (by decide) | intro _ | with_reducible assumption | with_reducible apply Mach.each_held | with_reducible apply Mach.stRelease_held)

theorem Mach.stEnable_held {T : Scope} {m : Mach} (h : m.Within T) (hT : T.allows 0x1405000000000000000000000000000000000000000000000800000000000000000000000000000800001008) (en : Bool) : (Mach.stEnable m en).Within T := by
  unfold Mach.stEnable
  try dsimp only
  repeat' (first | exact hT.sub (by decide) | intro _ | with_reducible assumption | with_reducible apply Mach.wr_held | with_reducible apply Mach.stEmpty_held | with_reducible apply Mach.modSt_held | with_reducible apply Mach.stFreeze_held | with_reducible apply Mach.ite_held | split | (apply Mach.held_upd; focus (constructor; (dsimp only <;> exact rfl); all_goals (first | with_reducible exact .inl rfl | with_reducible exact rfl | exact .inr (hT.has (by decide))))))

theorem Mach.stRegion_held {T : Scope} {m : Mach} (h : m.Within T) (hT : T.allows 0x1c06000000000000000000000000000000000000000000000000000000000000000000000000000800000000) (v : Nat) : (Mach.stRegion m v).Within T := by
  unfold Mach.stRegion
  try dsimp only
  repeat' (first | exact hT.sub (by decide) | intro _ | with_reducible assumption | with_reducible apply Mach.wr_held | with_reducible apply Mach.stReleaseAll_held | with_reducible apply Mach.stEmpty_held | with_reducible apply Mach.setBit_held | with_reducible apply Mach.ite_held | split)

theorem Mach.writeStCtrl_held {T : Scope} {m : Mach} (h : m.Within T) (hT : T.allows 0x1804000000000000000000000000000000000000000000000000000000000000000000000000000800000000) (v : Nat) : (Mach.writeStCtrl m v).Within T := by
  unfold Mach.writeStCtrl
  try dsimp only
  repeat' (first | exact hT.sub (by decide) | intro _ | with_reducible assumption | with_reducible apply Mach.stRelease_held | with_reducible apply Mach.stReleaseAll_held | with_reducible apply Mach.modSt_held | with_reducible apply Mach.stFire_held | with_reducible apply Mach.ite_held | split | (apply Mach.held_upd; focus (constructor; (dsimp only <;> exact rfl); all_goals (first | with_reducible exact .inl rfl | with_reducible exact rfl | exact .inr (hT.has (by decide))))))

theorem Mach.stMark_held {T : Scope} {m : Mach} (h : m.Within T) (hT : T.allows 0x800000000) (q ident user tag : Nat) (freeze : Bool) : (Mach.stMark m q ident user tag freeze).1.Within T := by
  unfold Mach.stMark
  try dsimp only
  repeat' (first | exact hT.sub (by decide) | intro _ | with_reducible assumption | with_reducible apply Mach.modSt_held | with_reducible apply Mach.stFire_held | with_reducible apply Mach.ite_held | split | (apply Mach.held_upd; focus (constructor; (dsimp only <;> exact rfl); all_goals (first | with_reducible exact .inl rfl | with_reducible exact rfl | exact .inr (hT.has (by decide))))))

theorem Mach.stRun_held {T : Scope} {m : Mach} (h : m.Within T) (hT : T.allows 0x408000000000000000000000000000000000000000000000000000000000000000000000000000800000000) : (Mach.stRun m).Within T := by
  unfold Mach.stRun
  try dsimp only
  repeat' (first | exact hT.sub (by decide) | intro _ | with_reducible assumption | with_reducible apply Mach.reset_held | with_reducible apply Mach.stEmpty_held | with_reducible apply Mach.modSt_held | with_reducible apply Mach.stShowRate_held | (apply Mach.held_upd; focus (constructor; (dsimp only <;> exact rfl); all_goals (first | with_reducible exact .inl rfl | with_reducible exact rfl | exact .inr (hT.has (by decide))))))

end Sys2Proof.Machine
end

