-- ==== Sys2Proof/Laws/ScopeHost.lean ====
section
/-!
SUPPORT. What register accesses and host frames may change. A lemma `f_held` says that `f` keeps the stored data sound and changes nothing outside its mask.
-/

namespace Sys2Proof.Machine

theorem Mach.readEffect_held {T : Scope} {m : Mach} (h : m.Within T) (hT : T.allows 0x100000000000008000000400000000000000000000000000000000000000000010201000) (k : RegKey) : (Mach.readEffect m k).Within T := by
  unfold Mach.readEffect
  try dsimp only
  repeat' (first | exact hT.sub (by decide) | intro _ | with_reducible assumption | with_reducible apply Mach.cplPop_held | with_reducible apply Mach.evtPop_held | with_reducible apply Mach.scanPop_held | with_reducible apply Mach.sfPop_held | with_reducible apply Mach.harmAdvance_held | split | refine Mach.of_fst (by with_reducible assumption) ?_ | refine Mach.of_snd (by with_reducible assumption) ?_)

theorem Mach.recordLocks_held {T : Scope} {m : Mach} (h : m.Within T) (hT : T.allows 0x1000000000) (bits : Nat) : (Mach.recordLocks m bits).Within T := by
  unfold Mach.recordLocks
  try dsimp only
  repeat' (first | exact hT.sub (by decide) | intro _ | with_reducible assumption | split | refine Mach.of_fst (by with_reducible assumption) ?_ | refine Mach.of_snd (by with_reducible assumption) ?_ | (apply Mach.held_upd; focus (constructor; (dsimp only <;> exact rfl); all_goals (first | with_reducible exact .inl rfl | with_reducible exact rfl | exact .inr (hT.has (by decide))))))

theorem Mach.modHp_held {T : Scope} {m : Mach} (h : m.Within T) (hT : T.allows 0x1000000000) (f : HostPort → HostPort) : (Mach.modHp m f).Within T := by
  unfold Mach.modHp
  try dsimp only
  repeat' (first | exact hT.sub (by decide) | intro _ | with_reducible assumption | (apply Mach.held_upd; focus (constructor; (dsimp only <;> exact rfl); all_goals (first | with_reducible exact .inl rfl | with_reducible exact rfl | exact .inr (hT.has (by decide))))))

theorem Mach.hpError_held {T : Scope} {m : Mach} (h : m.Within T) (hT : T.allows 0x28000000000000000000000000000000000000000000000000800000000000000000000000000001000001000) (status addr seq : Nat) (bcast : Bool) : (Mach.hpError m status addr seq bcast).Within T := by
  unfold Mach.hpError
  try dsimp only
  repeat' (first | exact hT.sub (by decide) | intro _ | with_reducible assumption | with_reducible apply Mach.bump_held | with_reducible apply Mach.setReg_held | with_reducible apply Mach.post_held | with_reducible apply Mach.modHp_held | with_reducible apply Mach.ite_held | split | refine Mach.of_fst (by with_reducible assumption) ?_ | refine Mach.of_snd (by with_reducible assumption) ?_ | (apply Mach.held_upd; focus (constructor; (dsimp only <;> exact rfl); all_goals (first | with_reducible exact .inl rfl | with_reducible exact rfl | exact .inr (hT.has (by decide))))))

theorem Mach.windowWrite_held {T : Scope} {m : Mach} (h : m.Within T) (hT : T.allows 0x20000008) (off n v : Nat) : (Mach.windowWrite m off n v).1.Within T := by
  unfold Mach.windowWrite
  try dsimp only
  repeat' (first | exact hT.sub (by decide) | intro _ | with_reducible assumption | with_reducible apply Mach.dramWrite_held | with_reducible apply Mach.modFm_held | with_reducible apply Mach.ite_held | split | (apply Mach.held_upd; focus (constructor; (dsimp only <;> exact rfl); all_goals (first | with_reducible exact .inl rfl | with_reducible exact rfl | exact .inr (hT.has (by decide))))))

theorem Mach.holdRead_held {T : Scope} {m : Mach} (h : m.Within T) (hT : T.allows 0x100000000000000000000000000000000000000000000000000000000000000000000000000000001000000000) (k : RegKey) (tag w : Nat) : (Mach.holdRead m k tag w).2.Within T := by
  unfold Mach.holdRead
  try dsimp only
  repeat' (first | exact hT.sub (by decide) | intro _ | with_reducible assumption | with_reducible apply Mach.modHp_held | with_reducible apply Mach.setBit_held | with_reducible apply Mach.ite_held | split | refine Mach.of_fst (by with_reducible assumption) ?_ | refine Mach.of_snd (by with_reducible assumption) ?_ | (apply Mach.held_upd; focus (constructor; (dsimp only <;> exact rfl); all_goals (first | with_reducible exact .inl rfl | with_reducible exact rfl | exact .inr (hT.has (by decide))))))

theorem Mach.read32_held {T : Scope} {m : Mach} (h : m.Within T) (hT : T.allows 0x100000000000000000000000000000000000000000000000000000000000000000000000000000001000000000) (a : Nat) : (Mach.read32 m a).2.2.2.Within T := by
  unfold Mach.read32
  try dsimp only
  repeat' (first | exact hT.sub (by decide) | intro _ | with_reducible assumption | with_reducible apply Mach.holdRead_held | with_reducible apply Mach.ite_held | split | refine Mach.of_fst (by with_reducible assumption) ?_ | refine Mach.of_snd (by with_reducible assumption) ?_)

theorem Mach.idataFail_held {T : Scope} {m : Mach} (h : m.Within T) (hT : T.allows 0x28000000000000000000000000000000000000000000000000800000000000000000000000000001000001000) (st : Nat) : (Mach.idataFail m st).Within T := by
  unfold Mach.idataFail
  try dsimp only
  repeat' (first | exact hT.sub (by decide) | intro _ | with_reducible assumption | with_reducible apply Mach.hpError_held | with_reducible apply Mach.ite_held | split)

theorem Mach.prefetch_held {T : Scope} {m : Mach} (h : m.Within T) (hT : T.allows 0x10128000000000000000000000000000000000000000000000000800000000000000000000000000001000001000) : (Mach.prefetch m).Within T := by
  unfold Mach.prefetch
  try dsimp only
  repeat' (first | exact hT.sub (by decide) | intro _ | with_reducible assumption | with_reducible apply Mach.read32_held | with_reducible apply Mach.modHp_held | with_reducible apply Mach.setBit_held | with_reducible apply Mach.idataFail_held | refine Mach.of_fourth (by with_reducible assumption) ?_ | (apply Mach.held_upd; focus (constructor; (dsimp only <;> exact rfl); all_goals (first | with_reducible exact .inl rfl | with_reducible exact rfl | exact .inr (hT.has (by decide))))))

theorem Mach.iadvance_held {T : Scope} {m : Mach} (h : m.Within T) (hT : T.allows 0x16128000000000000000000000000000000000000000000000000800000000000000000000000000001000001000) : (Mach.iadvance m).Within T := by
  unfold Mach.iadvance
  try dsimp only
  repeat' (first | exact hT.sub (by decide) | intro _ | with_reducible assumption | with_reducible apply Mach.wr_held | with_reducible apply Mach.prefetch_held | with_reducible apply Mach.ite_held | split)

theorem Mach.preEffect_held {T : Scope} {m : Mach} (h : m.Within T) (hT : T.allows 0x100000000000008000000400000000000000000000000000000000000000000010201000) (t : Target) : (Mach.preEffect m t).Within T := by
  unfold Mach.preEffect
  try dsimp only
  repeat' (first | exact hT.sub (by decide) | intro _ | with_reducible assumption | with_reducible apply Mach.readEffect_held | with_reducible apply Mach.ite_held | split | refine Mach.of_fst (by with_reducible assumption) ?_ | refine Mach.of_snd (by with_reducible assumption) ?_)

theorem Mach.idataRead_held {T : Scope} {m : Mach} (h : m.Within T) (hT : T.allows 0x16128000000000000000100000000000008000000400000000000800000000000000000000000000001010201000) : (Mach.idataRead m).Within T := by
  unfold Mach.idataRead
  try dsimp only
  repeat' (first | exact hT.sub (by decide) | intro _ | with_reducible assumption | with_reducible apply Mach.setBit_held | with_reducible apply Mach.preEffect_held | with_reducible apply Mach.iadvance_held | with_reducible apply Mach.ite_held | split)

theorem Mach.takeEffect_held {T : Scope} {m : Mach} (h : m.Within T) (hT : T.allows 0x16128000000000000000100000000000008000000400000000000800000000000000000000000000001010201000) (k : RegKey) : (Mach.takeEffect m k).Within T := by
  unfold Mach.takeEffect
  try dsimp only
  repeat' (first | exact hT.sub (by decide) | intro _ | with_reducible assumption | with_reducible apply Mach.idataRead_held | with_reducible apply Mach.readEffect_held | with_reducible apply Mach.ite_held | split)

theorem Mach.prefetchDone_held {T : Scope} {m : Mach} (h : m.Within T) (hT : T.allows 0x10000000000000000000000000000000000000000000000000000000000000000000000000000000000000000000) : (Mach.prefetchDone m).Within T := by
  unfold Mach.prefetchDone
  try dsimp only
  repeat' (first | exact hT.sub (by decide) | intro _ | with_reducible assumption | with_reducible apply Mach.clrFld_held | with_reducible apply Mach.wr_held | with_reducible apply Mach.ite_held | split)

theorem Mach.writeDbg_held {T : Scope} {m : Mach} (h : m.Within T) (hT : T.allows 0x90000000000000000000000400080000000004000004200040080000001000100000000000000000108122bc00) (v : Nat) : (Mach.writeDbg m v).Within T := by
  unfold Mach.writeDbg
  try dsimp only
  repeat' (first | exact hT.sub (by decide) | intro _ | with_reducible assumption | with_reducible apply Mach.setBit_held | with_reducible apply Mach.wr_held | with_reducible apply Mach.debugHalt_held | with_reducible apply Mach.post_held | with_reducible apply Mach.debugHaltEnd_held | with_reducible apply Mach.ite_held | split | refine Mach.of_fst (by with_reducible assumption) ?_ | refine Mach.of_snd (by with_reducible assumption) ?_ | (apply Mach.held_upd; focus (constructor; (dsimp only <;> exact rfl); all_goals (first | with_reducible exact .inl rfl | with_reducible exact rfl | exact .inr (hT.has (by decide))))))

theorem Mach.writeLock_held {T : Scope} {m : Mach} (h : m.Within T) (hT : T.allows 0x200000000000000000000000000000000000000000000000000800000000000000000000000000000000001000) (v : Nat) (image : Bool) : (Mach.writeLock m v image).Within T := by
  unfold Mach.writeLock
  try dsimp only
  repeat' (first | exact hT.sub (by decide) | intro _ | with_reducible assumption | with_reducible apply Mach.wr_held | with_reducible apply Mach.post_held | with_reducible apply Mach.ite_held | split)

theorem Mach.writeFbCfg_held {T : Scope} {m : Mach} (h : m.Within T) (hT : T.allows 0x850b480000000000000000000000080000001800100000000000000000000800bc00) (p v : Nat) (now : Bool) : (Mach.writeFbCfg m p v now).Within T := by
  unfold Mach.writeFbCfg
  try dsimp only
  repeat' (first | exact hT.sub (by decide) | (show T.allows (Reg.bit _); dsimp only; exact hT.sub (by decide)) | intro _ | with_reducible assumption | with_reducible apply Mach.setBit_held | with_reducible apply Mach.store_held | with_reducible apply Mach.when_held | with_reducible apply Mach.portReset_held | with_reducible apply Mach.polChange_held | with_reducible apply Mach.ite_held | split)

theorem Mach.writeSfCh_held {T : Scope} {m : Mach} (h : m.Within T) (hT : T.allows 0x3fffffffffffffffffffffffffffffffffffffffffffffffffffffffffffffffffffffffffff0000000010001004) (k : RegKey) (v : Nat) (now : Bool) : (Mach.writeSfCh m k v now).Within T := by
  unfold Mach.writeSfCh
  try dsimp only
  repeat' (first | exact hT.sub (by decide) | exact Scope.allows_any (hT.sub (by decide)) _ | (show T.allows (Reg.bit _); dsimp only; exact hT.sub (by decide)) | intro _ | with_reducible assumption | with_reducible apply Mach.store_held | with_reducible apply Mach.gainAfresh_held | with_reducible apply Mach.sfAfresh_held | with_reducible apply Mach.each_held | with_reducible apply Mach.convKick_held | with_reducible apply Mach.sfCfgBad_held | with_reducible apply Mach.ite_held | split)

theorem Mach.ownerWrite_held {T : Scope} {m : Mach} (h : m.Within T) (hT : T.allows 0x3fffffffffffffffffffffffffffffffffffffffffffffffffffffffffffffffffffffffffff0000001fffffffdd) (k : RegKey) (w : Nat) (image : Bool) : (Mach.ownerWrite m k w image).Within T := by
  unfold Mach.ownerWrite
  try dsimp only
  repeat' (first | exact hT.sub (by decide) | exact Scope.allows_any (hT.sub (by decide)) _ | (show T.allows (Reg.bit _); dsimp only; exact hT.sub (by decide)) | intro _ | with_reducible assumption | with_reducible apply Mach.store_held | with_reducible apply Mach.writePeriod_held | with_reducible apply Mach.stPeriodChange_held | with_reducible apply Mach.writeChOfs_held | with_reducible apply Mach.writePwCfg_held | with_reducible apply Mach.writeSafe_held | with_reducible apply Mach.bfaultClear_held | with_reducible apply Mach.when_held | with_reducible apply Mach.tripClear_held | with_reducible apply Mach.tripAct_held | with_reducible apply Mach.takeRole_held | with_reducible apply Mach.vmResumeCmd_held | with_reducible apply Mach.writeKnCtrl_held | with_reducible apply Mach.tieAck_held | with_reducible apply Mach.commitImage_held | with_reducible apply Mach.commitOverlay_held | with_reducible apply Mach.commitCal_held | with_reducible apply Mach.commitKind3_held | with_reducible apply Mach.accGo_held | with_reducible apply Mach.keyProgram_held | with_reducible apply Mach.keyRevoke_held | with_reducible apply Mach.keyRequireSig_held | with_reducible apply Mach.writeAxCtrl_held | with_reducible apply Mach.modAx_held | with_reducible apply Mach.limClear_held | with_reducible apply Mach.writeHarm_held | with_reducible apply Mach.writeQCtrl_held | with_reducible apply Mach.rtnStart_held | with_reducible apply Mach.writeQAbort_held | with_reducible apply Mach.push_held | with_reducible apply Mach.publish_held | with_reducible apply Mach.writeQDb_held | with_reducible apply Mach.mdb_held | with_reducible apply Mach.writeAbortX_held | with_reducible apply Mach.writeCplRd_held | with_reducible apply Mach.writeEvtRd_held | with_reducible apply Mach.writeMemb_held | with_reducible apply Mach.groupStop_held | with_reducible apply Mach.injGo_held | with_reducible apply Mach.scanStopCmd_held | with_reducible apply Mach.scanGo_held | with_reducible apply Mach.pchkStart_held | with_reducible apply Mach.writeLaCtrl_held | with_reducible apply Mach.verCapture_held | with_reducible apply Mach.writeFbCfg_held | with_reducible apply Mach.writeFbCtrl_held | with_reducible apply Mach.portFaultClear_held | with_reducible apply Mach.portRescale_held | with_reducible apply Mach.writeFbFollow_held | with_reducible apply Mach.auxStop_held | with_reducible apply Mach.auxGo_held | with_reducible apply Mach.convKick_held | with_reducible apply Mach.writeExCfg_held | with_reducible apply Mach.writeSfCh_held | with_reducible apply Mach.tdacWritten_held | with_reducible apply Mach.chkGo_held | with_reducible apply Mach.calCancel_held | with_reducible apply Mach.calStart_held | with_reducible apply Mach.repWritten_held | with_reducible apply Mach.repTake_held | with_reducible apply Mach.inject_held | with_reducible apply Mach.patinaPass_held | with_reducible apply Mach.clrLimits_held | with_reducible apply Mach.writeStCtrl_held | with_reducible apply Mach.stEnable_held | with_reducible apply Mach.stRegion_held | with_reducible apply Mach.stSelWait_held | with_reducible apply Mach.stShowRate_held | with_reducible apply Mach.setBit_held | with_reducible apply Mach.writeLock_held | with_reducible apply Mach.writeDbg_held | with_reducible apply Mach.prefetch_held | with_reducible apply Mach.ite_held | split | refine Mach.of_fst (by with_reducible assumption) ?_ | refine Mach.of_snd (by with_reducible assumption) ?_ | (apply Mach.held_upd; focus (constructor; (dsimp only <;> exact rfl); all_goals (first | with_reducible exact .inl rfl | with_reducible exact rfl | exact .inr (hT.has (by decide))))))

theorem Mach.levelsHold_held {T : Scope} {m : Mach} (h : m.Within T) (k : RegKey) (old : Nat) (hT : T.allows k.r.bit) : (Mach.levelsHold m k old).Within T := by
  unfold Mach.levelsHold
  try dsimp only
  repeat' (first | exact hT | intro _ | with_reducible assumption | with_reducible apply Mach.setReg_held | with_reducible apply Mach.ite_held | split)

theorem Mach.lockedWrite_held {T : Scope} {m : Mach} (h : m.Within T) (hT : T.allows 0x3fffffffffffffffffffffffffffffffffffffffffffffffffffffffffffffffffffffffffff0000001fffffffdd) (bits : Nat) (k : RegKey) (w : Nat) : (Mach.lockedWrite m bits k w).1.Within T := by
  unfold Mach.lockedWrite
  try dsimp only
  repeat' (first | exact hT.sub (by decide) | exact Scope.allows_any (hT.sub (by decide)) _ | intro _ | with_reducible assumption | with_reducible apply Mach.setBit_held | with_reducible apply Mach.ownerWrite_held | with_reducible apply Mach.levelsHold_held | with_reducible apply Mach.ite_held | split)

theorem Mach.regWrite_held {T : Scope} {m : Mach} (h : m.Within T) (hT : T.allows 0x3fffffffffffffffffffffffffffffffffffffffffffffffffffffffffffffffffffffffffff0000001fffffffdd) (bits : Nat) (k : RegKey) (al : Alias) (w : Nat) : (Mach.regWrite m bits k al w).1.Within T := by
  unfold Mach.regWrite
  try dsimp only
  repeat' (first | exact hT.sub (by decide) | exact Scope.allows_any (hT.sub (by decide)) _ | intro _ | with_reducible assumption | with_reducible apply Mach.lockedWrite_held | with_reducible apply Mach.ite_held | split | refine Mach.of_fst (by with_reducible assumption) ?_ | refine Mach.of_snd (by with_reducible assumption) ?_)

theorem Mach.stageWrite_held {T : Scope} {m : Mach} (h : m.Within T) (hT : T.allows 0x3fffffffffffffffffffffffffffffffffffffffffffffffffffffffffffffffffffffffffff0000001fffffffdd) (bits : Nat) (k : RegKey) (al : Alias) (tag w v : Nat) : (Mach.stageWrite m bits k al tag w v).1.Within T := by
  unfold Mach.stageWrite
  try dsimp only
  repeat' (first | exact hT.sub (by decide) | exact Scope.allows_any (hT.sub (by decide)) _ | intro _ | with_reducible assumption | with_reducible apply Mach.modHp_held | with_reducible apply Mach.when_held | with_reducible apply Mach.setBit_held | with_reducible apply Mach.regWrite_held | with_reducible apply Mach.ite_held | split | refine Mach.of_fst (by with_reducible assumption) ?_ | refine Mach.of_snd (by with_reducible assumption) ?_ | (apply Mach.held_upd; focus (constructor; (dsimp only <;> exact rfl); all_goals (first | with_reducible exact .inl rfl | with_reducible exact rfl | exact .inr (hT.has (by decide))))))

theorem Mach.idataUnit_held {T : Scope} {m : Mach} (h : m.Within T) (hT : T.allows 0x3fffffffffffffffffffffffffffffffffffffffffffffffffffffffffffffffffffffffffff0000001fffffffdd) (t : Target) (a bits v : Nat) : (Mach.idataUnit m t a bits v).1.Within T := by
  unfold Mach.idataUnit
  try dsimp only
  repeat' (first | exact hT.sub (by decide) | exact Scope.allows_any (hT.sub (by decide)) _ | intro _ | with_reducible assumption | with_reducible apply Mach.stageWrite_held | with_reducible apply Mach.regWrite_held | with_reducible apply Mach.windowWrite_held | with_reducible apply Mach.ite_held | split | refine Mach.of_fst (by with_reducible assumption) ?_ | refine Mach.of_snd (by with_reducible assumption) ?_)

theorem Mach.idataWrite_held {T : Scope} {m : Mach} (h : m.Within T) (hT : T.allows 0x3fffffffffffffffffffffffffffffffffffffffffffffffffffffffffffffffffffffffffff0000001fffffffdd) (bits v : Nat) : (m.idataWrite bits v).Within T := by
  unfold Mach.idataWrite
  have hr := Mach.idataUnit_held h (hT.sub (by decide)) (target m.iaddr) m.iaddr bits v
  have hb : T.allows Reg.GL_ISTAT.bit := hT.sub (by decide)
  have hh : ∀ x : Mach, x.Within T → ∀ f, (x.modHp f).Within T := fun x hx f => Mach.modHp_held hx (hT.sub (by decide)) f
  generalize m.idataUnit (target m.iaddr) m.iaddr bits v = p at hr ⊢
  dsimp only
  refine Mach.iadvance_held (Mach.wr_held (Mach.ite_held _ ?_ ?_) _ hb _ _ _) (hT.sub (by decide))
  · exact Mach.setBit_held (hh _ hr _) _ _ _ hb
  · exact Mach.hpError_held (Mach.setBit_held (hh _ hr _) _ _ _ hb) (hT.sub (by decide)) _ _ _ _

theorem Mach.unitWrite_held {T : Scope} {m : Mach} (h : m.Within T) (hT : T.allows 0x3fffffffffffffffffffffffffffffffffffffffffffffffffffffffffffffffffffffffffff0000001fffffffdd) (bits : Nat) (k : RegKey) (al : Alias) (v : Nat) : (Mach.unitWrite m bits k al v).1.Within T := by
  unfold Mach.unitWrite
  try dsimp only
  repeat' (first | exact hT.sub (by decide) | exact Scope.allows_any (hT.sub (by decide)) _ | intro _ | with_reducible assumption | with_reducible apply Mach.idataWrite_held | with_reducible apply Mach.regWrite_held | with_reducible apply Mach.ite_held | split | refine Mach.of_fst (by with_reducible assumption) ?_ | refine Mach.of_snd (by with_reducible assumption) ?_)

theorem Mach.writesDone_held {T : Scope} {m : Mach} (h : m.Within T) (hT : T.allows 0x8000000000000000000000000000000000000000000000000000000000000000000000000000001000000000) (bits : Nat) : (Mach.writesDone m bits).Within T := by
  unfold Mach.writesDone
  try dsimp only
  repeat' (first | exact hT.sub (by decide) | intro _ | with_reducible assumption | with_reducible apply Mach.recordLocks_held | with_reducible apply Mach.modHp_held | with_reducible apply Mach.setReg_held | with_reducible apply Mach.ite_held | split | (apply Mach.held_upd; focus (constructor; (dsimp only <;> exact rfl); all_goals (first | with_reducible exact .inl rfl | with_reducible exact rfl | exact .inr (hT.has (by decide))))))

theorem Mach.hostAlias_held {T : Scope} {m : Mach} (h : m.Within T) (hT : T.allows 0x3fffffffffffffffffffffffffffffffffffffffffffffffffffffffffffffffffffffffffff0000001fffffffdd) (k : RegKey) (al : Alias) (w : Nat) : (Mach.hostAlias m k al w).Within T := by
  unfold Mach.hostAlias
  try dsimp only
  repeat' (first | exact hT.sub (by decide) | exact Scope.allows_any (hT.sub (by decide)) _ | intro _ | with_reducible assumption | with_reducible apply Mach.unitWrite_held | with_reducible apply Mach.hpError_held | with_reducible apply Mach.writesDone_held | with_reducible apply Mach.ite_held | split | refine Mach.of_fst (by with_reducible assumption) ?_ | refine Mach.of_snd (by with_reducible assumption) ?_)

theorem Mach.hostWrite_held {T : Scope} {m : Mach} (h : m.Within T) (hT : T.allows 0x3fffffffffffffffffffffffffffffffffffffffffffffffffffffffffffffffffffffffffff0000001fffffffdd) (k : RegKey) (w : Nat) : (Mach.hostWrite m k w).Within T := by
  unfold Mach.hostWrite
  try dsimp only
  repeat' (first | exact hT.sub (by decide) | exact Scope.allows_any (hT.sub (by decide)) _ | intro _ | with_reducible assumption | with_reducible apply Mach.hostAlias_held)

theorem Mach.stSources_held {T : Scope} {m : Mach} (h : m.Within T) (hT : T.allows 0x800000000) (before : Mach) : (Mach.stSources m before).Within T := by
  unfold Mach.stSources
  try dsimp only
  repeat' (first | exact hT.sub (by decide) | intro _ | with_reducible assumption | with_reducible apply Mach.when_held | with_reducible apply Mach.stFire_held)

theorem Mach.settle_held {T : Scope} {m : Mach} (h : m.Within T) (hT : T.allows 0x810200000) (before : Mach) : (Mach.settle m before).Within T := by
  unfold Mach.settle
  try dsimp only
  repeat' (first | exact hT.sub (by decide) | intro _ | with_reducible assumption | with_reducible apply Mach.each_held | with_reducible apply Mach.ovForceEnd_held | with_reducible apply Mach.blankStep_held | with_reducible apply Mach.stSources_held)

theorem Mach.genTake_held {T : Scope} {m : Mach} (h : m.Within T) (hT : T.allows 0x800000000000000000000000000001000001000) : (Mach.genTake m).Within T := by
  unfold Mach.genTake
  try dsimp only
  repeat' (first | exact hT.sub (by decide) | intro _ | with_reducible assumption | with_reducible apply Mach.modHp_held | with_reducible apply Mach.post_held | with_reducible apply Mach.ite_held | split | refine Mach.of_fst (by with_reducible assumption) ?_ | refine Mach.of_snd (by with_reducible assumption) ?_ | (apply Mach.held_upd; focus (constructor; (dsimp only <;> exact rfl); all_goals (first | with_reducible exact .inl rfl | with_reducible exact rfl | exact .inr (hT.has (by decide))))))

theorem Mach.frameStart_held {T : Scope} {m : Mach} (h : m.Within T) (hT : T.allows 0x800000000000000000000000000001000001004) : (Mach.frameStart m).Within T := by
  unfold Mach.frameStart
  try dsimp only
  repeat' (first | exact hT.sub (by decide) | intro _ | with_reducible assumption | with_reducible apply Mach.genTake_held | (apply Mach.held_upd; focus (constructor; (dsimp only <;> exact rfl); all_goals (first | with_reducible exact .inl rfl | with_reducible exact rfl | exact .inr (hT.has (by decide))))))

theorem Mach.unitWrite32_held {T : Scope} {m : Mach} (h : m.Within T) (hT : T.allows 0x3fffffffffffffffffffffffffffffffffffffffffffffffffffffffffffffffffffffffffff0000001fffffffdd) (bits a v : Nat) : (Mach.unitWrite32 m bits a v).1.Within T := by
  unfold Mach.unitWrite32
  try dsimp only
  repeat' (first | exact hT.sub (by decide) | exact Scope.allows_any (hT.sub (by decide)) _ | intro _ | with_reducible assumption | with_reducible apply Mach.unitWrite_held | with_reducible apply Mach.ite_held | split | refine Mach.of_fst (by with_reducible assumption) ?_ | refine Mach.of_snd (by with_reducible assumption) ?_)

theorem Mach.unitWrite128_held {T : Scope} {m : Mach} (h : m.Within T) (hT : T.allows 0x3fffffffffffffffffffffffffffffffffffffffffffffffffffffffffffffffffffffffffff0000001fffffffdd) (bits a v : Nat) : (Mach.unitWrite128 m bits a v).1.Within T := by
  unfold Mach.unitWrite128
  try dsimp only
  repeat' (first | exact hT.sub (by decide) | exact Scope.allows_any (hT.sub (by decide)) _ | intro _ | with_reducible assumption | with_reducible apply Mach.unitWrite32_held | with_reducible apply Mach.windowWrite_held | with_reducible apply Mach.unitWrite_held | with_reducible apply Mach.foldl_held | with_reducible apply Mach.foldl_fst_held | with_reducible apply Mach.ite_held | split | refine Mach.of_fst (by with_reducible assumption) ?_ | refine Mach.of_snd (by with_reducible assumption) ?_)

theorem Mach.slotRead_held {T : Scope} {m : Mach} (h : m.Within T) (hT : T.allows 0x16128000000000000000100000000000008000000400000000000800000000000000000000000000001010201000) (r : Request) : (Mach.slotRead m r).1.Within T := by
  unfold Mach.slotRead
  try dsimp only
  repeat' (first | exact hT.sub (by decide) | intro _ | with_reducible assumption | with_reducible apply Mach.fault_held | with_reducible apply Mach.read32_held | with_reducible apply Mach.takeEffect_held | split | refine Mach.of_fourth (by with_reducible assumption) ?_ | refine Mach.of_fst (by with_reducible assumption) ?_ | refine Mach.of_snd (by with_reducible assumption) ?_)

theorem Mach.slotWrite_held {T : Scope} {m : Mach} (h : m.Within T) (hT : T.allows 0x3fffffffffffffffffffffffffffffffffffffffffffffffffffffffffffffffffffffffffff0000001fffffffdd) (r : Request) : (Mach.slotWrite m r).1.Within T := by
  unfold Mach.slotWrite
  try dsimp only
  repeat' (first | exact hT.sub (by decide) | exact Scope.allows_any (hT.sub (by decide)) _ | intro _ | with_reducible assumption | with_reducible apply Mach.writesDone_held | with_reducible apply Mach.fault_held | with_reducible apply Mach.stageWrite_held | with_reducible apply Mach.unitWrite_held | with_reducible apply Mach.ite_held | split | refine Mach.of_fst (by with_reducible assumption) ?_ | refine Mach.of_snd (by with_reducible assumption) ?_)

theorem Mach.burstRead_held {T : Scope} {m : Mach} (h : m.Within T) (hT : T.allows 0x16128000000000000000100000000000008000000400000000000800000000000000000000000000001010201000) (r : Request) : (Mach.burstRead m r).1.Within T := by
  unfold Mach.burstRead
  try dsimp only
  repeat' (first | exact hT.sub (by decide) | intro _ | with_reducible assumption | with_reducible apply Mach.takeEffect_held | with_reducible apply Mach.foldl_held | with_reducible apply Mach.foldl_fst_held | with_reducible apply Mach.ite_held | split | refine Mach.of_fst (by with_reducible assumption) ?_ | refine Mach.of_snd (by with_reducible assumption) ?_)

theorem Mach.burstWrite_held {T : Scope} {m : Mach} (h : m.Within T) (hT : T.allows 0x3fffffffffffffffffffffffffffffffffffffffffffffffffffffffffffffffffffffffffff0000001fffffffdd) (r : Request) (data : List Word) : (Mach.burstWrite m r data).1.Within T := by
  unfold Mach.burstWrite
  try dsimp only
  repeat' (first | exact hT.sub (by decide) | exact Scope.allows_any (hT.sub (by decide)) _ | intro _ | with_reducible assumption | with_reducible apply Mach.unitWrite128_held | with_reducible apply Mach.unitWrite32_held | with_reducible apply Mach.writesDone_held | with_reducible apply Mach.foldl_held | with_reducible apply Mach.foldl_fst_held | with_reducible apply Mach.ite_held | split | refine Mach.of_fst (by with_reducible assumption) ?_ | refine Mach.of_snd (by with_reducible assumption) ?_)

theorem Mach.execute_held {T : Scope} {m : Mach} (h : m.Within T) (hT : T.allows 0x3fffffffffffffffffffffffffffffffffffffffffffffffffffffffffffffffffffffffffff0000001fffffffdd) (r : Request) (data : List Word) (bcast : Bool) : (Mach.execute m r data bcast).1.Within T := by
  unfold Mach.execute
  try dsimp only
  repeat' (first | exact hT.sub (by decide) | exact Scope.allows_any (hT.sub (by decide)) _ | intro _ | with_reducible assumption | with_reducible apply Mach.fault_held | with_reducible apply Mach.burstRead_held | with_reducible apply Mach.slotRead_held | with_reducible apply Mach.burstWrite_held | with_reducible apply Mach.slotWrite_held | with_reducible apply Mach.ite_held | split | refine Mach.of_fst (by with_reducible assumption) ?_ | refine Mach.of_snd (by with_reducible assumption) ?_)

theorem Mach.frame_held {T : Scope} {m : Mach} (h : m.Within T) (hT : T.allows 0x3fffffffffffffffffffffffffffffffffffffffffffffffffffffffffffffffffffffffffff0000001fffffffdd) (req cmd : Nat) (data : List Word) (bcast : Bool) : (Mach.frame m req cmd data bcast).Within T := by
  unfold Mach.frame
  try dsimp only
  repeat' (first | exact hT.sub (by decide) | exact Scope.allows_any (hT.sub (by decide)) _ | intro _ | with_reducible assumption | with_reducible apply Mach.frameStart_held | with_reducible apply Mach.modHp_held | with_reducible apply Mach.execute_held | with_reducible apply Mach.hpError_held | with_reducible apply Mach.wrap_held | with_reducible apply Mach.foldl_held | with_reducible apply Mach.foldl_fst_held | with_reducible apply Mach.ite_held | split | refine Mach.of_fst (by with_reducible assumption) ?_ | refine Mach.of_snd (by with_reducible assumption) ?_ | (apply Mach.held_upd; focus (constructor; (dsimp only <;> exact rfl); all_goals (first | with_reducible exact .inl rfl | with_reducible exact rfl | exact .inr (hT.has (by decide))))))

theorem Mach.discardFrame_held {T : Scope} {m : Mach} (h : m.Within T) (hT : T.allows 0x28000000000000000000000000000000000000000000000000800000000000000000000000000001000001004) (cause : Nat) (bcast : Bool) : (Mach.discardFrame m cause bcast).Within T := by
  unfold Mach.discardFrame
  try dsimp only
  repeat' (first | exact hT.sub (by decide) | intro _ | with_reducible assumption | with_reducible apply Mach.frameStart_held | with_reducible apply Mach.bump_held | with_reducible apply Mach.setReg_held | with_reducible apply Mach.post_held | with_reducible apply Mach.modHp_held | with_reducible apply Mach.ite_held | split | (apply Mach.held_upd; focus (constructor; (dsimp only <;> exact rfl); all_goals (first | with_reducible exact .inl rfl | with_reducible exact rfl | exact .inr (hT.has (by decide))))))

theorem Mach.laneReset_held {T : Scope} {m : Mach} (h : m.Within T) (hT : T.allows 0x2e000000000000000000000000000000000000000000000000800000000000000000000000000001000001004) : (Mach.laneReset m).Within T := by
  unfold Mach.laneReset
  try dsimp only
  repeat' (first | exact hT.sub (by decide) | intro _ | with_reducible assumption | with_reducible apply Mach.discardFrame_held | with_reducible apply Mach.wr_held | with_reducible apply Mach.setBit_held | with_reducible apply Mach.post_held | with_reducible apply Mach.ite_held | split)

theorem Mach.eccRestore_held {T : Scope} {m : Mach} (h : m.Within T) (hT : T.allows 0x20000008) (off : Nat) : (Mach.eccRestore m off).Within T := by
  unfold Mach.eccRestore
  try dsimp only
  repeat' (first | exact hT.sub (by decide) | intro _ | with_reducible assumption | with_reducible apply Mach.dramWrite_held | with_reducible apply Mach.modFm_held | with_reducible apply Mach.ite_held | split | refine Mach.of_fst (by with_reducible assumption) ?_ | refine Mach.of_snd (by with_reducible assumption) ?_ | (apply Mach.held_upd; focus (constructor; (dsimp only <;> exact rfl); all_goals (first | with_reducible exact .inl rfl | with_reducible exact rfl | exact .inr (hT.has (by decide))))))

theorem Mach.faultLine_held {T : Scope} {m : Mach} (h : m.Within T) (hT : T.allows 0x10000000000400080000000000000000000000080000001000100000000000000000082000bc00) (asserted : Bool) : (Mach.faultLine m asserted).Within T := by
  unfold Mach.faultLine
  try dsimp only
  repeat' (first | exact hT.sub (by decide) | intro _ | with_reducible assumption | with_reducible apply Mach.modFm_held | with_reducible apply Mach.setBit_held | with_reducible apply Mach.post_held | with_reducible apply Mach.estopAll_held | with_reducible apply Mach.stFire_held | with_reducible apply Mach.ite_held | split | (apply Mach.held_upd; focus (constructor; (dsimp only <;> exact rfl); all_goals (first | with_reducible exact .inl rfl | with_reducible exact rfl | exact .inr (hT.has (by decide))))))

theorem Mach.hostField_held {T : Scope} {m : Mach} (h : m.Within T) (hT : T.allows 0x3fffffffffffffffffffffffffffffffffffffffffffffffffffffffffffffffffffffffffff0000001fffffffdd) (f : Fld) (i j v : Nat) : (Mach.hostField m f i j v).Within T := by
  unfold Mach.hostField
  try dsimp only
  repeat' (first | exact hT.sub (by decide) | exact Scope.allows_any (hT.sub (by decide)) _ | intro _ | with_reducible assumption | with_reducible apply Mach.hostWrite_held)

theorem Mach.hostBits_held {T : Scope} {m : Mach} (h : m.Within T) (hT : T.allows 0x3fffffffffffffffffffffffffffffffffffffffffffffffffffffffffffffffffffffffffff0000001fffffffdd) (k : RegKey) (bits : Nat) : (Mach.hostBits m k bits).Within T := by
  unfold Mach.hostBits
  try dsimp only
  repeat' (first | exact hT.sub (by decide) | exact Scope.allows_any (hT.sub (by decide)) _ | intro _ | with_reducible assumption | with_reducible apply Mach.hostWrite_held)

theorem Mach.hostRead_held {T : Scope} {m : Mach} (h : m.Within T) (hT : T.allows 0x16128000000000000000100000000000008000000400000000000800000000000000000000000000001010201200) (k : RegKey) : (Mach.hostRead m k).Within T := by
  unfold Mach.hostRead
  try dsimp only
  repeat' (first | exact hT.sub (by decide) | intro _ | with_reducible assumption | with_reducible apply Mach.takeEffect_held | with_reducible apply Mach.hpError_held | with_reducible apply Mach.ite_held | split | (apply Mach.held_upd; focus (constructor; (dsimp only <;> exact rfl); all_goals (first | with_reducible exact .inl rfl | with_reducible exact rfl | exact .inr (hT.has (by decide))))))

theorem Mach.hostRead32_held {T : Scope} {m : Mach} (h : m.Within T) (hT : T.allows 0x16128000000000000000100000000000008000000400000000000800000000000000000000000000001010201200) (a : Nat) : (Mach.hostRead32 m a).Within T := by
  unfold Mach.hostRead32
  try dsimp only
  repeat' (first | exact hT.sub (by decide) | intro _ | with_reducible assumption | with_reducible apply Mach.read32_held | with_reducible apply Mach.takeEffect_held | with_reducible apply Mach.hpError_held | split | refine Mach.of_fourth (by with_reducible assumption) ?_ | refine Mach.of_fst (by with_reducible assumption) ?_ | refine Mach.of_snd (by with_reducible assumption) ?_ | (apply Mach.held_upd; focus (constructor; (dsimp only <;> exact rfl); all_goals (first | with_reducible exact .inl rfl | with_reducible exact rfl | exact .inr (hT.has (by decide))))))

theorem Mach.hostWrite32_held {T : Scope} {m : Mach} (h : m.Within T) (hT : T.allows 0x3fffffffffffffffffffffffffffffffffffffffffffffffffffffffffffffffffffffffffff0000001fffffffdd) (a v : Nat) : (Mach.hostWrite32 m a v).Within T := by
  unfold Mach.hostWrite32
  try dsimp only
  repeat' (first | exact hT.sub (by decide) | exact Scope.allows_any (hT.sub (by decide)) _ | intro _ | with_reducible assumption | with_reducible apply Mach.stageWrite_held | with_reducible apply Mach.unitWrite_held | with_reducible apply Mach.windowWrite_held | with_reducible apply Mach.hpError_held | with_reducible apply Mach.writesDone_held | with_reducible apply Mach.ite_held | split | refine Mach.of_fst (by with_reducible assumption) ?_ | refine Mach.of_snd (by with_reducible assumption) ?_)

theorem Mach.aliasAt_held {T : Scope} {m : Mach} (h : m.Within T) (hT : T.allows 0x3fffffffffffffffffffffffffffffffffffffffffffffffffffffffffffffffffffffffffff0000001fffffffdd) (a : Nat) (al : Alias) (v : Nat) : (Mach.aliasAt m a al v).Within T := by
  unfold Mach.aliasAt
  try dsimp only
  repeat' (first | exact hT.sub (by decide) | exact Scope.allows_any (hT.sub (by decide)) _ | intro _ | with_reducible assumption | with_reducible apply Mach.hostAlias_held | with_reducible apply Mach.stageWrite_held | with_reducible apply Mach.hpError_held | with_reducible apply Mach.writesDone_held | with_reducible apply Mach.ite_held | split | refine Mach.of_fst (by with_reducible assumption) ?_ | refine Mach.of_snd (by with_reducible assumption) ?_)

theorem Mach.compactWrite_held {T : Scope} {m : Mach} (h : m.Within T) (hT : T.allows 0x3fffffffffffffffffffffffffffffffffffffffffffffffffffffffffffffffffffffffffff0000001fffffffdd) (slot axis v : Nat) : (Mach.compactWrite m slot axis v).Within T := by
  unfold Mach.compactWrite
  try dsimp only
  repeat' (first | exact hT.sub (by decide) | exact Scope.allows_any (hT.sub (by decide)) _ | intro _ | with_reducible assumption | with_reducible apply Mach.modHp_held | with_reducible apply Mach.slotWrite_held | with_reducible apply Mach.hpError_held | with_reducible apply Mach.foldl_held | with_reducible apply Mach.foldl_fst_held | with_reducible apply Mach.ite_held | split | refine Mach.of_fst (by with_reducible assumption) ?_ | refine Mach.of_snd (by with_reducible assumption) ?_ | (apply Mach.held_upd; focus (constructor; (dsimp only <;> exact rfl); all_goals (first | with_reducible exact .inl rfl | with_reducible exact rfl | exact .inr (hT.has (by decide))))))

end Sys2Proof.Machine
end

