-- ==== Sys2Proof/Laws/ScopeStart.lean ====
section
/-!
SUPPORT. What last gasps, starts, a tick boundary and supplies may change. A lemma `f_held` says that `f` keeps the stored data sound and changes nothing outside its mask.
-/

namespace Sys2Proof.Machine

theorem Mach.gaspFlash_held {T : Scope} {m : Mach} (h : m.Within T) (hT : T.allows 0x200000000) : (Mach.gaspFlash m).Within T := by
  unfold Mach.gaspFlash
  try dsimp only
  repeat' (first | exact hT.sub (by decide) | intro _ | with_reducible assumption | with_reducible apply Mach.nvDo_held | with_reducible apply Mach.pause_held | with_reducible apply Mach.modNv_held | with_reducible apply Mach.ite_held | split | (apply Mach.held_upd; focus (constructor; (dsimp only <;> exact rfl); all_goals (first | with_reducible exact .inl rfl | with_reducible exact rfl | exact .inr (hT.has (by decide))))))

theorem Mach.gaspCut_held {T : Scope} {m : Mach} (h : m.Within T) (hT : T.allows 0x200000010) : (Mach.gaspCut m).Within T := by
  unfold Mach.gaspCut
  try dsimp only
  repeat' (first | exact hT.sub (by decide) | intro _ | with_reducible assumption | with_reducible apply Mach.plinthCut_held | with_reducible apply Mach.indeterminate_held | with_reducible apply Mach.flashProgram_held | with_reducible apply Mach.modNv_held | with_reducible apply Mach.ite_held | split | refine Mach.of_fst (by with_reducible assumption) ?_ | refine Mach.of_snd (by with_reducible assumption) ?_ | (apply Mach.held_upd; focus (constructor; (dsimp only <;> exact rfl); all_goals (first | with_reducible exact .inl rfl | with_reducible exact rfl | exact .inr (hT.has (by decide))))))

theorem Mach.gaspUv_held {T : Scope} {m : Mach} (h : m.Within T) (hT : T.allows 0x40000000080000000) (b : Nat) : (Mach.gaspUv m b).Within T := by
  unfold Mach.gaspUv
  try dsimp only
  repeat' (first | exact hT.sub (by decide) | intro _ | with_reducible assumption | with_reducible apply Mach.setBit_held | with_reducible apply Mach.bump_held | with_reducible apply Mach.take_held | with_reducible apply Mach.modKn_held | with_reducible apply Mach.foldl_held | with_reducible apply Mach.foldl_fst_held | with_reducible apply Mach.ite_held | split | refine Mach.of_fst (by with_reducible assumption) ?_ | refine Mach.of_snd (by with_reducible assumption) ?_ | (apply Mach.held_upd; focus (constructor; (dsimp only <;> exact rfl); all_goals (first | with_reducible exact .inl rfl | with_reducible exact rfl | exact .inr (hT.has (by decide))))))

theorem Mach.gaspBegin_held {T : Scope} {m : Mach} (h : m.Within T) (hT : T.allows 0x100000001a80a20011) (vaux vhold : Nat) : (Mach.gaspBegin m vaux vhold).Within T := by
  unfold Mach.gaspBegin
  try dsimp only
  repeat' (first | exact hT.sub (by decide) | intro _ | with_reducible assumption | with_reducible apply Mach.gaspFlash_held | with_reducible apply Mach.gaspCut_held | with_reducible apply Mach.clrFld_held | with_reducible apply Mach.each_held | with_reducible apply Mach.forceBank_held | (apply Mach.held_upd; focus (constructor; (dsimp only <;> exact rfl); all_goals (first | with_reducible exact .inl rfl | with_reducible exact rfl | exact .inr (hT.has (by decide))))))

theorem Mach.gaspProgram_held {T : Scope} {m : Mach} (h : m.Within T) (hT : T.allows 0x280000010) : (Mach.gaspProgram m).Within T := by
  unfold Mach.gaspProgram
  try dsimp only
  repeat' (first | exact hT.sub (by decide) | intro _ | with_reducible assumption | with_reducible apply Mach.nvProgram_held | with_reducible apply Mach.take_held | with_reducible apply Mach.modKn_held | with_reducible apply Mach.ite_held | split | refine Mach.of_fst (by with_reducible assumption) ?_ | refine Mach.of_snd (by with_reducible assumption) ?_ | (apply Mach.held_upd; focus (constructor; (dsimp only <;> exact rfl); all_goals (first | with_reducible exact .inl rfl | with_reducible exact rfl | exact .inr (hT.has (by decide))))))

theorem Mach.gaspLost_held {T : Scope} {m : Mach} (h : m.Within T) (hT : T.allows 0x10) : (Mach.gaspLost m).Within T := by
  unfold Mach.gaspLost
  try dsimp only
  repeat' (first | exact hT.sub (by decide) | intro _ | with_reducible assumption | with_reducible apply Mach.indeterminate_held | with_reducible apply Mach.ite_held | split | refine Mach.of_fst (by with_reducible assumption) ?_ | refine Mach.of_snd (by with_reducible assumption) ?_)

theorem Mach.orReg_held {T : Scope} {m : Mach} (h : m.Within T) (r : Reg) (bits : Nat) (hT : T.allows r.bit) : (Mach.orReg m r bits).Within T := by
  unfold Mach.orReg
  try dsimp only
  repeat' (first | exact hT | intro _ | with_reducible assumption | with_reducible apply Mach.setReg_held | split)

theorem Mach.markAxis_held {T : Scope} {m : Mach} (h : m.Within T) (hT : T.allows 0x3fffffffffffffffffffffffffffffffffffffffffffffffffffffffffffffffffffffffffff0000000000000000) (lo hi : Reg) (n : Nat) : (Mach.markAxis m lo hi n).Within T := by
  unfold Mach.markAxis
  try dsimp only
  repeat' (first | exact hT.sub (by decide) | exact Scope.allows_any (hT.sub (by decide)) _ | intro _ | with_reducible assumption | with_reducible apply Mach.orReg_held | with_reducible apply Mach.ite_held | split)

theorem Mach.kilnAxisOff_held {T : Scope} {m : Mach} (h : m.Within T) (hT : T.allows 0x3fffffffffffffffffffffffffffffffffffffffffffffffffffffffffffffffffffffffffff0000000280001010) (n s code : Nat) : (Mach.kilnAxisOff m n s code).Within T := by
  unfold Mach.kilnAxisOff
  try dsimp only
  repeat' (first | exact hT.sub (by decide) | exact Scope.allows_any (hT.sub (by decide)) _ | intro _ | with_reducible assumption | with_reducible apply Mach.markAxis_held | with_reducible apply Mach.lgMark_held | with_reducible apply Mach.unitNote_held | with_reducible apply Mach.post_held | with_reducible apply Mach.ite_held | split)

theorem Mach.kilnUnit_held {T : Scope} {m : Mach} (h : m.Within T) (hT : T.allows 0x800000000000000000000000000000080001000) (unit s code : Nat) : (Mach.kilnUnit m unit s code).Within T := by
  unfold Mach.kilnUnit
  try dsimp only
  repeat' (first | exact hT.sub (by decide) | intro _ | with_reducible assumption | with_reducible apply Mach.unitNote_held | with_reducible apply Mach.post_held)

theorem Mach.kilnUntested_held {T : Scope} {m : Mach} (h : m.Within T) (hT : T.allows 0x3fffffffffffffffffffffffffffffffffffffffffffffffffffffffffffffffffffffffffff0000000200001010) (axes : List Nat) : (Mach.kilnUntested m axes).Within T := by
  unfold Mach.kilnUntested
  try dsimp only
  repeat' (first | exact hT.sub (by decide) | exact Scope.allows_any (hT.sub (by decide)) _ | intro _ | with_reducible assumption | with_reducible apply Mach.forAll_held | with_reducible apply Mach.markAxis_held | with_reducible apply Mach.lgMark_held | with_reducible apply Mach.each_held | with_reducible apply Mach.post_held | with_reducible apply Mach.ite_held | split)

theorem Mach.kilnFail_held {T : Scope} {m : Mach} (h : m.Within T) (hT : T.allows 0x80004400000001280000010) (s code detail : Nat) : (Mach.kilnFail m s code detail).Within T := by
  unfold Mach.kilnFail
  try dsimp only
  repeat' (first | exact hT.sub (by decide) | intro _ | with_reducible assumption | with_reducible apply Mach.setCount_held | with_reducible apply Mach.memoFld_held | with_reducible apply Mach.modKn_held | with_reducible apply Mach.lgPut_held | with_reducible apply Mach.lgCloseNow_held | with_reducible apply Mach.setReg_held | with_reducible apply Mach.wr_held | with_reducible apply Mach.modHp_held | with_reducible apply Mach.ite_held | split | (apply Mach.held_upd; focus (constructor; (dsimp only <;> exact rfl); all_goals (first | with_reducible exact .inl rfl | with_reducible exact rfl | exact .inr (hT.has (by decide))))))

theorem Mach.kilnSupply_held {T : Scope} {m : Mach} (h : m.Within T) (hT : T.allows 0x40008000000000000000420004008000000100010000000001c000000008022bc00) (w : StartMeas) : (Mach.kilnSupply m w).Within T := by
  unfold Mach.kilnSupply
  try dsimp only
  repeat' (first | exact hT.sub (by decide) | intro _ | with_reducible assumption | with_reducible apply Mach.wr_held | with_reducible apply Mach.modKn_held | with_reducible apply Mach.each_held | with_reducible apply Mach.vmUv_held | with_reducible apply Mach.ite_held | split | (apply Mach.held_upd; focus (constructor; (dsimp only <;> exact rfl); all_goals (first | with_reducible exact .inl rfl | with_reducible exact rfl | exact .inr (hT.has (by decide))))))

theorem Mach.kilnSram_held {T : Scope} {m : Mach} (h : m.Within T) (hT : T.allows 0x20000000) (w : StartMeas) : (Mach.kilnSram m w).Within T := by
  unfold Mach.kilnSram
  try dsimp only
  repeat' (first | exact hT.sub (by decide) | intro _ | with_reducible assumption | with_reducible apply Mach.modFm_held | (apply Mach.held_upd; focus (constructor; (dsimp only <;> exact rfl); all_goals (first | with_reducible exact .inl rfl | with_reducible exact rfl | exact .inr (hT.has (by decide))))))

theorem Mach.kilnClocks_held {T : Scope} {m : Mach} (h : m.Within T) (hT : T.allows 0x80000000000000000000000000000000000000008000000000000000000000000000010a0001000) (w : StartMeas) : (Mach.kilnClocks m w).Within T := by
  unfold Mach.kilnClocks
  try dsimp only
  repeat' (first | exact hT.sub (by decide) | intro _ | with_reducible assumption | with_reducible apply Mach.modFm_held | with_reducible apply Mach.setBit_held | with_reducible apply Mach.modKn_held | with_reducible apply Mach.modHp_held | with_reducible apply Mach.genTake_held | with_reducible apply Mach.ite_held | split | (apply Mach.held_upd; focus (constructor; (dsimp only <;> exact rfl); all_goals (first | with_reducible exact .inl rfl | with_reducible exact rfl | exact .inr (hT.has (by decide))))))

theorem Mach.logErrors_held {T : Scope} {m : Mach} (h : m.Within T) (hT : T.allows 0x800000000000000000000000000000000001000) : (Mach.logErrors m).Within T := by
  unfold Mach.logErrors
  try dsimp only
  repeat' (first | exact hT.sub (by decide) | intro _ | with_reducible assumption | with_reducible apply Mach.post_held | with_reducible apply Mach.foldl_held | with_reducible apply Mach.foldl_fst_held | with_reducible apply Mach.ite_held | split)

theorem Mach.logInterrupted_held {T : Scope} {m : Mach} (h : m.Within T) (hT : T.allows 0x200000010) : (Mach.logInterrupted m).Within T := by
  unfold Mach.logInterrupted
  try dsimp only
  repeat' (first | exact hT.sub (by decide) | intro _ | with_reducible assumption | with_reducible apply Mach.ringProgram_held | with_reducible apply Mach.ite_held | split | refine Mach.of_fst (by with_reducible assumption) ?_ | refine Mach.of_snd (by with_reducible assumption) ?_)

theorem Mach.logHead_held {T : Scope} {m : Mach} (h : m.Within T) (hT : T.allows 0x200000010) (a no counts : Nat) : (Mach.logHead m a no counts).Within T := by
  unfold Mach.logHead
  try dsimp only
  repeat' (first | exact hT.sub (by decide) | intro _ | with_reducible assumption | with_reducible apply Mach.ringProgram_held)

theorem Mach.logMemo_held {T : Scope} {m : Mach} (h : m.Within T) (hT : T.allows 0x80000000000000280000010) (log : Nat) : (Mach.logMemo m log).Within T := by
  unfold Mach.logMemo
  try dsimp only
  repeat' (first | exact hT.sub (by decide) | intro _ | with_reducible assumption | with_reducible apply Mach.logHead_held | with_reducible apply Mach.ringProgram_held | with_reducible apply Mach.lgClose_held | with_reducible apply Mach.memoFld_held | with_reducible apply Mach.ite_held | split)

theorem Mach.homeDirs_held {T : Scope} {m : Mach} (h : m.Within T) (hT : T.allows 0x800000000000000000c00000000000080001000) (reset : Bool) : (Mach.homeDirs m reset).Within T := by
  unfold Mach.homeDirs
  try dsimp only
  repeat' (first | exact hT.sub (by decide) | intro _ | with_reducible assumption | with_reducible apply Mach.reset_held | with_reducible apply Mach.modKn_held | with_reducible apply Mach.setReg_held | with_reducible apply Mach.each_held | with_reducible apply Mach.post_held | with_reducible apply Mach.ite_held | split | refine Mach.of_fst (by with_reducible assumption) ?_ | refine Mach.of_snd (by with_reducible assumption) ?_ | (apply Mach.held_upd; focus (constructor; (dsimp only <;> exact rfl); all_goals (first | with_reducible exact .inl rfl | with_reducible exact rfl | exact .inr (hT.has (by decide))))))

theorem Mach.kilnAlts_held {T : Scope} {m : Mach} (h : m.Within T) (hT : T.allows 0x80000000) (newest : Option Nat) (fast clr : Bool) : (Mach.kilnAlts m newest fast clr).Within T := by
  unfold Mach.kilnAlts
  try dsimp only
  repeat' (first | exact hT.sub (by decide) | intro _ | with_reducible assumption | with_reducible apply Mach.modKn_held | with_reducible apply Mach.ite_held | split | refine Mach.of_fst (by with_reducible assumption) ?_ | refine Mach.of_snd (by with_reducible assumption) ?_ | (apply Mach.held_upd; focus (constructor; (dsimp only <;> exact rfl); all_goals (first | with_reducible exact .inl rfl | with_reducible exact rfl | exact .inr (hT.has (by decide))))))

theorem Mach.logOpen_held {T : Scope} {m : Mach} (h : m.Within T) (hT : T.allows 0x280000010) (before : Nat) : (Mach.logOpen m before).Within T := by
  unfold Mach.logOpen
  try dsimp only
  repeat' (first | exact hT.sub (by decide) | intro _ | with_reducible assumption | with_reducible apply Mach.logHead_held | with_reducible apply Mach.ringProgram_held | with_reducible apply Mach.modKn_held | with_reducible apply Mach.lgPut_held | split | (apply Mach.held_upd; focus (constructor; (dsimp only <;> exact rfl); all_goals (first | with_reducible exact .inl rfl | with_reducible exact rfl | exact .inr (hT.has (by decide))))))

theorem Mach.logFailure_held {T : Scope} {m : Mach} (h : m.Within T) (hT : T.allows 0x800000000000000000004000000000000001000) (newest : Option Nat) : (Mach.logFailure m newest).Within T := by
  unfold Mach.logFailure
  try dsimp only
  repeat' (first | exact hT.sub (by decide) | intro _ | with_reducible assumption | with_reducible apply Mach.setReg_held | with_reducible apply Mach.post_held | with_reducible apply Mach.ite_held | split | refine Mach.of_fst (by with_reducible assumption) ?_ | refine Mach.of_snd (by with_reducible assumption) ?_)

theorem Mach.plinthShow_held {T : Scope} {m : Mach} (h : m.Within T) (hT : T.allows 0x100000000000000200000000) (copy : Nat) : (Mach.plinthShow m copy).Within T := by
  unfold Mach.plinthShow
  try dsimp only
  repeat' (first | exact hT.sub (by decide) | intro _ | with_reducible assumption | with_reducible apply Mach.wr_held | with_reducible apply Mach.modNv_held | (apply Mach.held_upd; focus (constructor; (dsimp only <;> exact rfl); all_goals (first | with_reducible exact .inl rfl | with_reducible exact rfl | exact .inr (hT.has (by decide))))))

theorem Mach.copyProfile_held {T : Scope} {m : Mach} (h : m.Within T) (hT : T.allows 0x100000000000000200000000) (copy : Nat) : (Mach.copyProfile m copy).Within T := by
  unfold Mach.copyProfile
  try dsimp only
  repeat' (first | exact hT.sub (by decide) | intro _ | with_reducible assumption | with_reducible apply Mach.nvEnter_held | with_reducible apply Mach.modNv_held | with_reducible apply Mach.wr_held | (apply Mach.held_upd; focus (constructor; (dsimp only <;> exact rfl); all_goals (first | with_reducible exact .inl rfl | with_reducible exact rfl | exact .inr (hT.has (by decide))))))

theorem Mach.plinthChosen_held {T : Scope} {m : Mach} (h : m.Within T) (hT : T.allows 0x800000000000000100000000000001000001000) (tie : Bool) : (Mach.plinthChosen m tie).Within T := by
  unfold Mach.plinthChosen
  try dsimp only
  repeat' (first | exact hT.sub (by decide) | intro _ | with_reducible assumption | with_reducible apply Mach.setBit_held | with_reducible apply Mach.post_held | with_reducible apply Mach.modHp_held | with_reducible apply Mach.ite_held | split | (apply Mach.held_upd; focus (constructor; (dsimp only <;> exact rfl); all_goals (first | with_reducible exact .inl rfl | with_reducible exact rfl | exact .inr (hT.has (by decide))))))

theorem Mach.logScan_held {T : Scope} {m : Mach} (h : m.Within T) (hT : T.allows 0x80000100000000280000010) : (Mach.logScan m).Within T := by
  unfold Mach.logScan
  try dsimp only
  repeat' (first | exact hT.sub (by decide) | intro _ | with_reducible assumption | with_reducible apply Mach.when_held | with_reducible apply Mach.logInterrupted_held | with_reducible apply Mach.setBit_held | with_reducible apply Mach.lgMakeRoom_held | with_reducible apply Mach.logMemo_held | with_reducible apply Mach.ite_held | split | refine Mach.of_fst (by with_reducible assumption) ?_ | refine Mach.of_snd (by with_reducible assumption) ?_)

theorem Mach.logCount_held {T : Scope} {m : Mach} (h : m.Within T) (hT : T.allows 0x800000000000000080c04000000000280001010) (req : Nat) : (Mach.logCount m req).Within T := by
  unfold Mach.logCount
  try dsimp only
  repeat' (first | exact hT.sub (by decide) | intro _ | with_reducible assumption | with_reducible apply Mach.modKn_held | with_reducible apply Mach.memoKeep_held | with_reducible apply Mach.logFailure_held | with_reducible apply Mach.kilnAlts_held | with_reducible apply Mach.homeDirs_held | with_reducible apply Mach.logOpen_held | with_reducible apply Mach.ite_held | split | refine Mach.of_fst (by with_reducible assumption) ?_ | refine Mach.of_snd (by with_reducible assumption) ?_ | (apply Mach.held_upd; focus (constructor; (dsimp only <;> exact rfl); all_goals (first | with_reducible exact .inl rfl | with_reducible exact rfl | exact .inr (hT.has (by decide))))))

theorem Mach.calScan_held {T : Scope} {m : Mach} (h : m.Within T) (hT : T.allows 0x800000000000000800000000000000000001000) : (Mach.calScan m).Within T := by
  unfold Mach.calScan
  try dsimp only
  repeat' (first | exact hT.sub (by decide) | intro _ | with_reducible assumption | with_reducible apply Mach.calFlags_held | with_reducible apply Mach.wr_held | with_reducible apply Mach.setBit_held | with_reducible apply Mach.post_held | split | refine Mach.of_fst (by with_reducible assumption) ?_ | refine Mach.of_snd (by with_reducible assumption) ?_)

theorem Mach.plinthsScan_held {T : Scope} {m : Mach} (h : m.Within T) (hT : T.allows 0x800000000000000980c04100000001280001010) (c : Option (Nat × Bool)) : (Mach.plinthsScan m c).1.Within T := by
  unfold Mach.plinthsScan
  try dsimp only
  repeat' (first | exact hT.sub (by decide) | intro _ | with_reducible assumption | with_reducible apply Mach.plinthChosen_held | with_reducible apply Mach.patWear_held | with_reducible apply Mach.logErrors_held | with_reducible apply Mach.logScan_held | with_reducible apply Mach.logCount_held | with_reducible apply Mach.calScan_held | with_reducible apply Mach.plinthShow_held | split | refine Mach.of_fst (by with_reducible assumption) ?_ | refine Mach.of_snd (by with_reducible assumption) ?_)

theorem Mach.plinthRead_held {T : Scope} {m : Mach} (h : m.Within T) (hT : T.allows 0x200000000) (copy : Nat) : (Mach.plinthRead m copy).Within T := by
  unfold Mach.plinthRead
  try dsimp only
  repeat' (first | exact hT.sub (by decide) | intro _ | with_reducible assumption | with_reducible apply Mach.nvRead_held | with_reducible apply Mach.ite_held | split)

theorem Mach.flashScan_held {T : Scope} {m : Mach} (h : m.Within T) (hT : T.allows 0x200000000) : (Mach.flashScan m).Within T := by
  unfold Mach.flashScan
  try dsimp only
  repeat' (first | exact hT.sub (by decide) | intro _ | with_reducible assumption | with_reducible apply Mach.plinthRead_held | with_reducible apply Mach.nvRead_held)

theorem Mach.kilnPlinths_held {T : Scope} {m : Mach} (h : m.Within T) (hT : T.allows 0x800000000000000f80c04100000001280001010) : (Mach.kilnPlinths m).1.Within T := by
  unfold Mach.kilnPlinths
  try dsimp only
  repeat' (first | exact hT.sub (by decide) | intro _ | with_reducible assumption | with_reducible apply Mach.flashScan_held | with_reducible apply Mach.showCopy_held | with_reducible apply Mach.plinthsScan_held)

theorem Mach.paramApply_held {T : Scope} {m : Mach} (h : m.Within T) (hT : T.allows 0x3fffffffffffffffffffffffffffffffffffffffffffffffffffffffffffffffffffffffffff0000001fffffffdd) (inst : Nat) (p : ParamRec) : (Mach.paramApply m inst p).Within T := by
  unfold Mach.paramApply
  try dsimp only
  repeat' (first | exact hT.sub (by decide) | exact Scope.allows_any (hT.sub (by decide)) _ | intro _ | with_reducible assumption | with_reducible apply Mach.modKn_held | with_reducible apply Mach.ownerWrite_held | with_reducible apply Mach.ite_held | split | refine Mach.of_fst (by with_reducible assumption) ?_ | refine Mach.of_snd (by with_reducible assumption) ?_ | (apply Mach.held_upd; focus (constructor; (dsimp only <;> exact rfl); all_goals (first | with_reducible exact .inl rfl | with_reducible exact rfl | exact .inr (hT.has (by decide))))))

theorem Mach.params_held {T : Scope} {m : Mach} (h : m.Within T) (hT : T.allows 0x3fffffffffffffffffffffffffffffffffffffffffffffffffffffffffffffffffffffffffff0000001fffffffdd) (g : Nat → Byte) (phase : Nat) : (Mach.params m g phase).Within T := by
  unfold Mach.params
  try dsimp only
  repeat' (first | exact hT.sub (by decide) | exact Scope.allows_any (hT.sub (by decide)) _ | intro _ | with_reducible assumption | with_reducible apply Mach.paramApply_held | with_reducible apply Mach.foldl_held | with_reducible apply Mach.foldl_fst_held)

theorem Mach.coreImg_held {T : Scope} {m : Mach} (h : m.Within T) (hT : T.allows 0x3fffffffffffffffffffffffffffffffffffffffffffffffffffffffffffffffffffffffffff0000000000000000) : (Mach.coreImg m).Within T := by
  unfold Mach.coreImg
  try dsimp only
  repeat' (first | exact hT.sub (by decide) | exact Scope.allows_any (hT.sub (by decide)) _ | intro _ | with_reducible assumption | with_reducible apply Mach.setReg_held | with_reducible apply Mach.foldl_held | with_reducible apply Mach.foldl_fst_held)

theorem Mach.copyUse_held {T : Scope} {m : Mach} (h : m.Within T) (hT : T.allows 0x3fffffffffffffffffffffffffffffffffffffffffffffffffffffffffffffffffffffffffff0000001fffffffdd) (c : Nat) : (Mach.copyUse m c).Within T := by
  unfold Mach.copyUse
  try dsimp only
  repeat' (first | exact hT.sub (by decide) | exact Scope.allows_any (hT.sub (by decide)) _ | intro _ | with_reducible assumption | with_reducible apply Mach.plinthShow_held | with_reducible apply Mach.modNv_held | with_reducible apply Mach.wr_held | with_reducible apply Mach.lgPut_held | with_reducible apply Mach.coreImg_held | with_reducible apply Mach.params_held | with_reducible apply Mach.modHp_held | with_reducible apply Mach.ite_held | split | (apply Mach.held_upd; focus (constructor; (dsimp only <;> exact rfl); all_goals (first | with_reducible exact .inl rfl | with_reducible exact rfl | exact .inr (hT.has (by decide))))))

theorem Mach.copyRead_held {T : Scope} {m : Mach} (h : m.Within T) (hT : T.allows 0x100000000000000200000000) (c : Nat) : (Mach.copyRead m c).Within T := by
  unfold Mach.copyRead
  try dsimp only
  repeat' (first | exact hT.sub (by decide) | intro _ | with_reducible assumption | with_reducible apply Mach.copyProfile_held | with_reducible apply Mach.nvRead_held)

theorem Mach.copyFailed_held {T : Scope} {m : Mach} (h : m.Within T) (hT : T.allows 0x80000000) (c : Nat) : (Mach.copyFailed m c).Within T := by
  unfold Mach.copyFailed
  try dsimp only
  repeat' (first | exact hT.sub (by decide) | intro _ | with_reducible assumption | with_reducible apply Mach.modKn_held | (apply Mach.held_upd; focus (constructor; (dsimp only <;> exact rfl); all_goals (first | with_reducible exact .inl rfl | with_reducible exact rfl | exact .inr (hT.has (by decide))))))

theorem Mach.kilnImage_held {T : Scope} {m : Mach} (h : m.Within T) (hT : T.allows 0x3fffffffffffffffffffffffffffffffffffffffffffffffffffffffffffffffffffffffffff0000001fffffffdd) : (Mach.kilnImage m).1.Within T := by
  unfold Mach.kilnImage
  try dsimp only
  repeat' (first | exact hT.sub (by decide) | exact Scope.allows_any (hT.sub (by decide)) _ | intro _ | with_reducible assumption | with_reducible apply Mach.plinthShow_held | with_reducible apply Mach.copyRead_held | with_reducible apply Mach.copyUse_held | with_reducible apply Mach.copyFailed_held | with_reducible apply Mach.modHp_held | with_reducible apply Mach.post_held | split | refine Mach.of_fst (by with_reducible assumption) ?_ | refine Mach.of_snd (by with_reducible assumption) ?_ | (apply Mach.held_upd; focus (constructor; (dsimp only <;> exact rfl); all_goals (first | with_reducible exact .inl rfl | with_reducible exact rfl | exact .inr (hT.has (by decide))))))

theorem Mach.kilnTrain_held {T : Scope} {m : Mach} (h : m.Within T) (hT : T.allows 0x800000000000000280000010) (w : StartMeas) : (Mach.kilnTrain m w).Within T := by
  unfold Mach.kilnTrain
  try dsimp only
  repeat' (first | exact hT.sub (by decide) | intro _ | with_reducible assumption | with_reducible apply Mach.modNv_held | with_reducible apply Mach.setBit_held | with_reducible apply Mach.modKn_held | with_reducible apply Mach.lgPut_held | with_reducible apply Mach.ite_held | split | refine Mach.of_fst (by with_reducible assumption) ?_ | refine Mach.of_snd (by with_reducible assumption) ?_ | (apply Mach.held_upd; focus (constructor; (dsimp only <;> exact rfl); all_goals (first | with_reducible exact .inl rfl | with_reducible exact rfl | exact .inr (hT.has (by decide))))))

/-- The DRAM is loaded anew. -/
theorem Mach.held_load {T : Scope} {m : Mach} (h : m.Within T) (hT : T.allows 0x200010008) {c : List Host.Cell} (hc : Memory.wf c = true) (s : List Section) :
    ({ m with dram := c, sections := s } : Mach).Within T := by
  refine Mach.held_upd (b := { m with dram := c }) ?_ (Mach.held_dram h hc (.inl (hT.has (by decide))))
  constructor
  case dram => rfl
  all_goals first | with_reducible exact .inl rfl | with_reducible exact rfl | exact .inr (hT.has (by decide))

theorem Mach.kilnLoad_held {T : Scope} {m : Mach} (h : m.Within T) (hT : T.allows 0x200010008) : m.kilnLoad.Within T := by
  unfold Mach.kilnLoad
  split
  · exact Mach.held_load (Mach.nvRead_held h (hT.sub (by decide)) _ _) hT (memPut_wf _ _ _ rfl) _
  · exact h

theorem Mach.held_tables {T : Scope} {m : Mach} (h : m.Within T) (hT : T.allows 0x180000) (c : Vector (Option Nat) 16) (x : Vector Nat 48) :
    ({ m with comm := c, harm := x } : Mach).Within T := by
  refine Mach.held_upd (b := m) ?_ h
  constructor
  case dram => rfl
  all_goals first | with_reducible exact .inl rfl | with_reducible exact rfl | exact .inr (hT.has (by decide))

theorem Mach.kilnTables_held {T : Scope} {m : Mach} (h : m.Within T) (hT : T.allows 0x180000) : m.kilnTables.Within T :=
  Mach.held_tables h hT _ _

theorem Mach.kilnCams_held {T : Scope} {m : Mach} (h : m.Within T) (hT : T.allows 0x8000000000000000000000000000000000000000000) : (Mach.kilnCams m).Within T := by
  unfold Mach.kilnCams
  try dsimp only
  repeat' (first | exact hT.sub (by decide) | intro _ | with_reducible assumption | with_reducible apply Mach.each_held | with_reducible apply Mach.wr_held | split | refine Mach.of_fst (by with_reducible assumption) ?_ | refine Mach.of_snd (by with_reducible assumption) ?_)

theorem Mach.kilnCurves_held {T : Scope} {m : Mach} (h : m.Within T) (hT : T.allows 0x1000400000000000000000000000000000800000000000000000000000000000000001000) : (Mach.kilnCurves m).Within T := by
  unfold Mach.kilnCurves
  try dsimp only
  repeat' (first | exact hT.sub (by decide) | intro _ | with_reducible assumption | with_reducible apply Mach.each_held | with_reducible apply Mach.clrFld_held | with_reducible apply Mach.sfCfgBad_held | with_reducible apply Mach.ite_held | split)

theorem Mach.kilnCores_held {T : Scope} {m : Mach} (h : m.Within T) (hT : T.allows 0x810000000000000000000040000000000000000080000000000000000c0000000000002a0001010) (w : StartMeas) : (Mach.kilnCores m w).Within T := by
  unfold Mach.kilnCores
  try dsimp only
  repeat' (first | exact hT.sub (by decide) | intro _ | with_reducible assumption | with_reducible apply Mach.retireUnit_held | with_reducible apply Mach.lgMark_held | with_reducible apply Mach.kilnUnit_held | with_reducible apply Mach.each_held | with_reducible apply Mach.setBit_held | with_reducible apply Mach.wr_held | with_reducible apply Mach.ite_held | split)

theorem Mach.kilnEngines_held {T : Scope} {m : Mach} (h : m.Within T) (hT : T.allows 0x3fffffffffffffffffffffffffffffffffffffffffffffffffffffffffffffffffffffffffff0000001fffffffdd) (w : StartMeas) : (Mach.kilnEngines m w).1.Within T := by
  unfold Mach.kilnEngines
  try dsimp only
  repeat' (first | exact hT.sub (by decide) | exact Scope.allows_any (hT.sub (by decide)) _ | intro _ | with_reducible assumption | with_reducible apply Mach.kilnTables_held | with_reducible apply Mach.kilnCams_held | with_reducible apply Mach.params_held | with_reducible apply Mach.recordLocks_held | with_reducible apply Mach.kilnCurves_held | with_reducible apply Mach.kilnCores_held | with_reducible apply Mach.ite_held | split | (apply Mach.held_upd; focus (constructor; (dsimp only <;> exact rfl); all_goals (first | with_reducible exact .inl rfl | with_reducible exact rfl | exact .inr (hT.has (by decide))))))

theorem Mach.stagedDid_held {T : Scope} {m : Mach} (h : m.Within T) (hT : T.allows 0x850b080000000000000000000000080000001800100000000000000000000800bc00) (s : Staged) : (Mach.stagedDid m s).Within T := by
  unfold Mach.stagedDid
  try dsimp only
  repeat' (first | exact hT.sub (by decide) | intro _ | with_reducible assumption | with_reducible apply Mach.portReset_held | with_reducible apply Mach.polChange_held | with_reducible apply Mach.portRescale_held | with_reducible apply Mach.ite_held | split | refine Mach.of_fst (by with_reducible assumption) ?_ | refine Mach.of_snd (by with_reducible assumption) ?_)

theorem Mach.tickApply_held {T : Scope} {m : Mach} (h : m.Within T) (hT : T.allows 0xc0000000000000000850b080000000000000000000000080000001800100000000000000000000800bc04) : (Mach.tickApply m).Within T := by
  unfold Mach.tickApply
  try dsimp only
  repeat' (first | exact hT.sub (by decide) | intro _ | with_reducible assumption | with_reducible apply Mach.stagedDid_held | with_reducible apply Mach.wrap_held | with_reducible apply Mach.stShowRate_held | with_reducible apply Mach.foldl_held | with_reducible apply Mach.foldl_fst_held | with_reducible apply Mach.ite_held | split | (apply Mach.held_upd; focus (constructor; (dsimp only <;> exact rfl); all_goals (first | with_reducible exact .inl rfl | with_reducible exact rfl | exact .inr (hT.has (by decide))))))

theorem Mach.movedNote_held {T : Scope} {m : Mach} (h : m.Within T) (hT : T.allows 0x400000000) : (Mach.movedNote m).Within T := by
  unfold Mach.movedNote
  try dsimp only
  repeat' (first | exact hT.sub (by decide) | intro _ | with_reducible assumption | split | (apply Mach.held_upd; focus (constructor; (dsimp only <;> exact rfl); all_goals (first | with_reducible exact .inl rfl | with_reducible exact rfl | exact .inr (hT.has (by decide))))))

theorem Mach.boundaryIn_held {T : Scope} {m : Mach} (h : m.Within T) (hT : T.allows 0xc0000000000000000e50b080000000000000000000000080000001800100000000000000000000800bc44) (i : InputLevels) : (Mach.boundaryIn m i).Within T := by
  unfold Mach.boundaryIn
  try dsimp only
  repeat' (first | exact hT.sub (by decide) | intro _ | with_reducible assumption | with_reducible apply Mach.tickApply_held | with_reducible apply Mach.each_held | with_reducible apply Mach.portTick_held | (apply Mach.held_upd; focus (constructor; (dsimp only <;> exact rfl); all_goals (first | with_reducible exact .inl rfl | with_reducible exact rfl | exact .inr (hT.has (by decide))))))

theorem Mach.boundaryOut_held {T : Scope} {m : Mach} (h : m.Within T) (hT : T.allows 0x1c04000000000000000000001000000000000000000000000800000000000000000000000000000c40041408) : (Mach.boundaryOut m).Within T := by
  unfold Mach.boundaryOut
  try dsimp only
  repeat' (first | exact hT.sub (by decide) | intro _ | with_reducible assumption | with_reducible apply Mach.each_held | with_reducible apply Mach.laTick_held | with_reducible apply Mach.heatTick_held | with_reducible apply Mach.movedNote_held | with_reducible apply Mach.stFrame_held)

theorem Mach.takeLevels_held {T : Scope} {m : Mach} (h : m.Within T) (hT : T.allows 0x400080000000300000004200040080000001002100000000000000000008022bc20) (i : InputLevels) : (Mach.takeLevels m i).Within T := by
  unfold Mach.takeLevels
  try dsimp only
  repeat' (first | exact hT.sub (by decide) | intro _ | with_reducible assumption | with_reducible apply Mach.limitEdges_held | with_reducible apply Mach.tripLevels_held | with_reducible apply Mach.ite_held | split | (apply Mach.held_upd; focus (constructor; (dsimp only <;> exact rfl); all_goals (first | with_reducible exact .inl rfl | with_reducible exact rfl | exact .inr (hT.has (by decide))))))

theorem Mach.takePorts_held {T : Scope} {m : Mach} (h : m.Within T) (hT : T.allows 0x8000000) (lv : TickInputs) : (Mach.takePorts m lv).Within T := by
  unfold Mach.takePorts
  try dsimp only
  repeat' (first | exact hT.sub (by decide) | intro _ | with_reducible assumption | with_reducible apply Mach.when_held | with_reducible apply Mach.portsLevel_held)

theorem Mach.tickClock_held {T : Scope} {m : Mach} (h : m.Within T) (hT : T.allows 0x1) : (Mach.tickClock m).Within T := by
  unfold Mach.tickClock
  try dsimp only
  repeat' (first | exact hT.sub (by decide) | intro _ | with_reducible assumption | with_reducible apply Mach.ite_held | split | (apply Mach.held_upd; focus (constructor; (dsimp only <;> exact rfl); all_goals (first | with_reducible exact .inl rfl | with_reducible exact rfl | exact .inr (hT.has (by decide))))))

theorem Mach.tickDue_held {T : Scope} {m : Mach} (h : m.Within T) (hT : T.allows 0x800010900000000000000000000000080201800) : (Mach.tickDue m).Within T := by
  unfold Mach.tickDue
  try dsimp only
  repeat' (first | exact hT.sub (by decide) | intro _ | with_reducible assumption | with_reducible apply Mach.abortsDue_held | with_reducible apply Mach.each_held | with_reducible apply Mach.trigEvent_held)

theorem Mach.tickEngines_held {T : Scope} {m : Mach} (h : m.Within T) (hT : T.allows 0x400280000000000000804200340080000001000100000000000000000008002bc00) : (Mach.tickEngines m).Within T := by
  unfold Mach.tickEngines
  try dsimp only
  repeat' (first | exact hT.sub (by decide) | intro _ | with_reducible assumption | with_reducible apply Mach.enginesTick_held | with_reducible apply Mach.each_held | with_reducible apply Mach.pathSnap_held | with_reducible apply Mach.ite_held | split)

theorem Mach.tickNow_held {T : Scope} {m : Mach} (h : m.Within T) (hT : T.allows 0x1c0c0000000000000000e50b3800000003000008046503400800010918021000000000000000000ce826bc6d) (i : InputLevels) : (Mach.tickNow m i).Within T := by
  unfold Mach.tickNow
  try dsimp only
  repeat' (first | exact hT.sub (by decide) | intro _ | with_reducible assumption | with_reducible apply Mach.takeLevels_held | with_reducible apply Mach.each_held | with_reducible apply Mach.owedSlot_held | with_reducible apply Mach.tickClock_held | with_reducible apply Mach.tickDue_held | with_reducible apply Mach.boundaryIn_held | with_reducible apply Mach.tickEngines_held | with_reducible apply Mach.boundaryOut_held | with_reducible apply Mach.ite_held | split)

theorem Mach.sliceRoles_held {T : Scope} {m : Mach} (h : m.Within T) (hT : T.allows 0x400000000000000000000000000000000000000000000000000000000) (b : Nat) (bad : Nat → Bool) : (Mach.sliceRoles m b bad).Within T := by
  unfold Mach.sliceRoles
  try dsimp only
  repeat' (first | exact hT.sub (by decide) | intro _ | with_reducible assumption | with_reducible apply Mach.each_held | with_reducible apply Mach.wr_held | with_reducible apply Mach.ite_held | split | refine Mach.of_fst (by with_reducible assumption) ?_ | refine Mach.of_snd (by with_reducible assumption) ?_)

theorem Mach.sliceSkew_held {T : Scope} {m : Mach} (h : m.Within T) (hT : T.allows 0x400000000000000000000000000000000000000000000000000000000) (b s : Nat) : (Mach.sliceSkew m b s).Within T := by
  unfold Mach.sliceSkew
  try dsimp only
  repeat' (first | exact hT.sub (by decide) | intro _ | with_reducible assumption | with_reducible apply Mach.wr_held | split | refine Mach.of_fst (by with_reducible assumption) ?_ | refine Mach.of_snd (by with_reducible assumption) ?_)

theorem Mach.kilnSlices_held {T : Scope} {m : Mach} (h : m.Within T) (hT : T.allows 0x3fffffffffffffffffffffffffffffffffffffffffffffffffffffffffffffffffffffffffff0000000280201010) (w : StartMeas) : (Mach.kilnSlices m w).Within T := by
  unfold Mach.kilnSlices
  try dsimp only
  repeat' (first | exact hT.sub (by decide) | exact Scope.allows_any (hT.sub (by decide)) _ | intro _ | with_reducible assumption | with_reducible apply Mach.each_held | with_reducible apply Mach.calSlice_held | with_reducible apply Mach.sliceSkew_held | with_reducible apply Mach.sliceRoles_held | with_reducible apply Mach.orReg_held | with_reducible apply Mach.lgMark_held | with_reducible apply Mach.kilnUnit_held | with_reducible apply Mach.forAll_held | with_reducible apply Mach.kilnAxisOff_held | with_reducible apply Mach.when_held | with_reducible apply Mach.setBit_held | with_reducible apply Mach.ite_held | split | refine Mach.of_fst (by with_reducible assumption) ?_ | refine Mach.of_snd (by with_reducible assumption) ?_)

theorem Mach.kilnSlicesSkip_held {T : Scope} {m : Mach} (h : m.Within T) (hT : T.allows 0x400000000000000000000000000000000000000000000000000200000) : (Mach.kilnSlicesSkip m).Within T := by
  unfold Mach.kilnSlicesSkip
  try dsimp only
  repeat' (first | exact hT.sub (by decide) | intro _ | with_reducible assumption | with_reducible apply Mach.each_held | with_reducible apply Mach.wr_held | with_reducible apply Mach.sliceTime_held | with_reducible apply Mach.sliceRoles_held | split | refine Mach.of_fst (by with_reducible assumption) ?_ | refine Mach.of_snd (by with_reducible assumption) ?_)

theorem Mach.kilnBridges_held {T : Scope} {m : Mach} (h : m.Within T) (hT : T.allows 0x3fffffffffffffffffffffffffffffffffffffffffffffffffffffffffffffffffffffffffff0000000680001010) (w : StartMeas) : (Mach.kilnBridges m w).Within T := by
  unfold Mach.kilnBridges
  try dsimp only
  repeat' (first | exact hT.sub (by decide) | exact Scope.allows_any (hT.sub (by decide)) _ | intro _ | with_reducible assumption | with_reducible apply Mach.kilnUntested_held | with_reducible apply Mach.forAll_held | with_reducible apply Mach.kilnAxisOff_held | with_reducible apply Mach.ite_held | split | (apply Mach.held_upd; focus (constructor; (dsimp only <;> exact rfl); all_goals (first | with_reducible exact .inl rfl | with_reducible exact rfl | exact .inr (hT.has (by decide))))))

theorem Mach.kilnFront_held {T : Scope} {m : Mach} (h : m.Within T) (hT : T.allows 0x8008000000000000000000000000000000800000000000000008000000000000290001010) (w : StartMeas) : (Mach.kilnFront m w).Within T := by
  unfold Mach.kilnFront
  try dsimp only
  repeat' (first | exact hT.sub (by decide) | intro _ | with_reducible assumption | with_reducible apply Mach.modSf_held | with_reducible apply Mach.each_held | with_reducible apply Mach.when_held | with_reducible apply Mach.wr_held | with_reducible apply Mach.exFaultClear_held | with_reducible apply Mach.exFault_held | with_reducible apply Mach.setBit_held | with_reducible apply Mach.lgMark_held | with_reducible apply Mach.unitNote_held | with_reducible apply Mach.post_held | with_reducible apply Mach.ite_held | split | refine Mach.of_fst (by with_reducible assumption) ?_ | refine Mach.of_snd (by with_reducible assumption) ?_ | (apply Mach.held_upd; focus (constructor; (dsimp only <;> exact rfl); all_goals (first | with_reducible exact .inl rfl | with_reducible exact rfl | exact .inr (hT.has (by decide))))))

theorem Mach.kilnMotor_held {T : Scope} {m : Mach} (h : m.Within T) (hT : T.allows 0x3fffffffffffffffffffffffffffffffffffffffffffffffffffffffffffffffffffffffffff0000000280001010) (n : Nat) (w : MotorMeas) : (Mach.kilnMotor m n w).Within T := by
  unfold Mach.kilnMotor
  try dsimp only
  repeat' (first | exact hT.sub (by decide) | exact Scope.allows_any (hT.sub (by decide)) _ | intro _ | with_reducible assumption | with_reducible apply Mach.motorChar_held | with_reducible apply Mach.kilnAxisOff_held | split | refine Mach.of_fst (by with_reducible assumption) ?_ | refine Mach.of_snd (by with_reducible assumption) ?_)

theorem Mach.kilnMotors_held {T : Scope} {m : Mach} (h : m.Within T) (hT : T.allows 0x3fffffffffffffffffffffffffffffffffffffffffffffffffffffffffffffffffffffffffff0000000280001010) (w : StartMeas) : (Mach.kilnMotors m w).Within T := by
  unfold Mach.kilnMotors
  try dsimp only
  repeat' (first | exact hT.sub (by decide) | exact Scope.allows_any (hT.sub (by decide)) _ | intro _ | with_reducible assumption | with_reducible apply Mach.each_held | with_reducible apply Mach.loopImage_held | with_reducible apply Mach.kilnUntested_held | with_reducible apply Mach.forAll_held | with_reducible apply Mach.kilnMotor_held | with_reducible apply Mach.ite_held | split)

theorem Mach.kilnMotorsSkip_held {T : Scope} {m : Mach} (h : m.Within T) (hT : T.allows 0xc0000000000000000000000000070000000000000000000000) : (Mach.kilnMotorsSkip m).Within T := by
  unfold Mach.kilnMotorsSkip
  try dsimp only
  repeat' (first | exact hT.sub (by decide) | intro _ | with_reducible assumption | with_reducible apply Mach.each_held | with_reducible apply Mach.loopImage_held | with_reducible apply Mach.setBit_held | with_reducible apply Mach.setReg_held)

theorem Mach.kilnPorts_held {T : Scope} {m : Mach} (h : m.Within T) (hT : T.allows 0x10000000000000000000000000800000000000000004000000000000280001010) (w : StartMeas) : (Mach.kilnPorts m w).Within T := by
  unfold Mach.kilnPorts
  try dsimp only
  repeat' (first | exact hT.sub (by decide) | intro _ | with_reducible assumption | with_reducible apply Mach.each_held | with_reducible apply Mach.setBit_held | with_reducible apply Mach.wr_held | with_reducible apply Mach.lgMark_held | with_reducible apply Mach.unitNote_held | with_reducible apply Mach.post_held | with_reducible apply Mach.ite_held | split | refine Mach.of_fst (by with_reducible assumption) ?_ | refine Mach.of_snd (by with_reducible assumption) ?_)

theorem Mach.autoRoutine_held {T : Scope} {m : Mach} (h : m.Within T) (hT : T.allows 0x800000000000000000000000000000000001800) (q : Nat) (s : Section) : (Mach.autoRoutine m q s).Within T := by
  unfold Mach.autoRoutine
  try dsimp only
  repeat' (first | exact hT.sub (by decide) | intro _ | with_reducible assumption | with_reducible apply Mach.modQ_held | with_reducible apply Mach.post_held | with_reducible apply Mach.ite_held | split | (apply Mach.held_upd; focus (constructor; (dsimp only <;> exact rfl); all_goals (first | with_reducible exact .inl rfl | with_reducible exact rfl | exact .inr (hT.has (by decide))))))

theorem Mach.autostart_held {T : Scope} {m : Mach} (h : m.Within T) (hT : T.allows 0x800000000000000000000000000000000001800) : (Mach.autostart m).Within T := by
  unfold Mach.autostart
  try dsimp only
  repeat' (first | exact hT.sub (by decide) | intro _ | with_reducible assumption | with_reducible apply Mach.each_held | with_reducible apply Mach.autoRoutine_held | with_reducible apply Mach.post_held | with_reducible apply Mach.foldl_held | with_reducible apply Mach.foldl_fst_held | split | refine Mach.of_fst (by with_reducible assumption) ?_ | refine Mach.of_snd (by with_reducible assumption) ?_)

theorem Mach.step16End_held {T : Scope} {m : Mach} (h : m.Within T) (hT : T.allows 0x80020000000000280000010) : (Mach.step16End m).Within T := by
  unfold Mach.step16End
  try dsimp only
  repeat' (first | exact hT.sub (by decide) | intro _ | with_reducible assumption | with_reducible apply Mach.lgPut_held | with_reducible apply Mach.homeFail_held | with_reducible apply Mach.lgMark_held | with_reducible apply Mach.each_held | with_reducible apply Mach.unitNote_held | with_reducible apply Mach.wr_held | with_reducible apply Mach.setCount_held | with_reducible apply Mach.modKn_held | with_reducible apply Mach.lgCloseNow_held | with_reducible apply Mach.ite_held | split | (apply Mach.held_upd; focus (constructor; (dsimp only <;> exact rfl); all_goals (first | with_reducible exact .inl rfl | with_reducible exact rfl | exact .inr (hT.has (by decide))))))

theorem Mach.step16Check_held {T : Scope} {m : Mach} (h : m.Within T) (hT : T.allows 0x80020000000000280000010) : (Mach.step16Check m).Within T := by
  unfold Mach.step16Check
  try dsimp only
  repeat' (first | exact hT.sub (by decide) | intro _ | with_reducible assumption | with_reducible apply Mach.step16End_held | with_reducible apply Mach.ite_held | split)

theorem Mach.firstBoundary_held {T : Scope} {m : Mach} (h : m.Within T) (hT : T.allows 0x1c0c0000000000000000e50b1800000000000000000001000800000018001000000000000000000c4804bc4c) : (Mach.firstBoundary m).Within T := by
  unfold Mach.firstBoundary
  try dsimp only
  repeat' (first | exact hT.sub (by decide) | intro _ | with_reducible assumption | with_reducible apply Mach.boundaryIn_held | with_reducible apply Mach.each_held | with_reducible apply Mach.pathSnap_held | with_reducible apply Mach.axisSnap_held | with_reducible apply Mach.boundaryOut_held)

theorem Mach.runSetup_held {T : Scope} {m : Mach} (h : m.Within T) (hT : T.allows 0x1c0c0004000400080020e50b3800000000000000000001000800000018001000000000000000000cd866bccd) : (Mach.runSetup m).Within T := by
  unfold Mach.runSetup
  try dsimp only
  repeat' (first | exact hT.sub (by decide) | intro _ | with_reducible assumption | with_reducible apply Mach.each_held | with_reducible apply Mach.restartBank_held | with_reducible apply Mach.takeRole_held | with_reducible apply Mach.modAx_held | with_reducible apply Mach.verCapture_held | with_reducible apply Mach.enterArming_held | with_reducible apply Mach.heatRun_held | with_reducible apply Mach.sfRun_held | with_reducible apply Mach.stRun_held | with_reducible apply Mach.firstBoundary_held | with_reducible apply Mach.ite_held | split | (apply Mach.held_upd; focus (constructor; (dsimp only <;> exact rfl); all_goals (first | with_reducible exact .inl rfl | with_reducible exact rfl | exact .inr (hT.has (by decide))))))

theorem Mach.enterRun_held {T : Scope} {m : Mach} (h : m.Within T) (hT : T.allows 0x1c0c0004000400080020e50b3800000000000000000001000800000018001000080030000000000ed866bcdd) (toRun : Nat) : (Mach.enterRun m toRun).Within T := by
  unfold Mach.enterRun
  try dsimp only
  repeat' (first | exact hT.sub (by decide) | intro _ | with_reducible assumption | with_reducible apply Mach.runSetup_held | with_reducible apply Mach.enterEvt_held | with_reducible apply Mach.modKn_held | with_reducible apply Mach.post_held | with_reducible apply Mach.wr_held | with_reducible apply Mach.memoFld_held | with_reducible apply Mach.lgPut_held | with_reducible apply Mach.stepBegin_held | with_reducible apply Mach.when_held | with_reducible apply Mach.autostart_held | with_reducible apply Mach.step16Check_held | with_reducible apply Mach.foldl_held | with_reducible apply Mach.foldl_fst_held | with_reducible apply Mach.ite_held | split | refine Mach.of_fst (by with_reducible assumption) ?_ | refine Mach.of_snd (by with_reducible assumption) ?_ | (apply Mach.held_upd; focus (constructor; (dsimp only <;> exact rfl); all_goals (first | with_reducible exact .inl rfl | with_reducible exact rfl | exact .inr (hT.has (by decide))))))

theorem Mach.stepDo_held {T : Scope} {m : Mach} (h : m.Within T) (hT : T.allows 0x3fffffffffffffffffffffffffffffffffffffffffffffffffffffffffffffffffffffffffff0000001fffffffdd) (w : StartMeas) (s : Nat) (skip : Bool) : (Mach.stepDo m w s skip).1.Within T := by
  unfold Mach.stepDo
  try dsimp only
  repeat' (first | exact hT.sub (by decide) | exact Scope.allows_any (hT.sub (by decide)) _ | intro _ | with_reducible assumption | with_reducible apply Mach.kilnSupply_held | with_reducible apply Mach.kilnClocks_held | with_reducible apply Mach.kilnSram_held | with_reducible apply Mach.kilnPlinths_held | with_reducible apply Mach.kilnImage_held | with_reducible apply Mach.kilnTrain_held | with_reducible apply Mach.kilnLoad_held | with_reducible apply Mach.kilnEngines_held | with_reducible apply Mach.kilnSlices_held | with_reducible apply Mach.kilnSlicesSkip_held | with_reducible apply Mach.kilnBridges_held | with_reducible apply Mach.kilnFront_held | with_reducible apply Mach.kilnMotors_held | with_reducible apply Mach.kilnMotorsSkip_held | with_reducible apply Mach.kilnPorts_held | with_reducible apply Mach.patStart_held | with_reducible apply Mach.ite_held | split | refine Mach.of_fst (by with_reducible assumption) ?_ | refine Mach.of_snd (by with_reducible assumption) ?_)

theorem Mach.stepDone_held {T : Scope} {m : Mach} (h : m.Within T) (hT : T.allows 0x1c0c0004000400080020e50b3800000000000000000001000800000018001000080030000000000ed866bcdd) (w : StartMeas) (s : Nat) (skip : Bool) : (Mach.stepDone m w s skip).Within T := by
  unfold Mach.stepDone
  try dsimp only
  repeat' (first | exact hT.sub (by decide) | intro _ | with_reducible assumption | with_reducible apply Mach.lgMark_held | with_reducible apply Mach.setCount_held | with_reducible apply Mach.modKn_held | with_reducible apply Mach.stepBegin_held | with_reducible apply Mach.enterRun_held | with_reducible apply Mach.ite_held | split | (apply Mach.held_upd; focus (constructor; (dsimp only <;> exact rfl); all_goals (first | with_reducible exact .inl rfl | with_reducible exact rfl | exact .inr (hT.has (by decide))))))

theorem Mach.kilnStep_held {T : Scope} {m : Mach} (h : m.Within T) (hT : T.allows 0x3fffffffffffffffffffffffffffffffffffffffffffffffffffffffffffffffffffffffffff0000001fffffffdd) (w : StartMeas) : (Mach.kilnStep m w).Within T := by
  unfold Mach.kilnStep
  try dsimp only
  repeat' (first | exact hT.sub (by decide) | exact Scope.allows_any (hT.sub (by decide)) _ | intro _ | with_reducible assumption | with_reducible apply Mach.when_held | with_reducible apply Mach.genTake_held | with_reducible apply Mach.wr_held | with_reducible apply Mach.kilnFail_held | with_reducible apply Mach.stepDo_held | with_reducible apply Mach.stepDone_held | with_reducible apply Mach.ite_held | split | refine Mach.of_fst (by with_reducible assumption) ?_ | refine Mach.of_snd (by with_reducible assumption) ?_)

theorem Mach.kilnGo_held {T : Scope} (hT : T.allows 0x3fffffffffffffffffffffffffffffffffffffffffffffffffffffffffffffffffffffffffff0000001fffffffdd) (w : StartMeas) (f : Nat) : ∀ {m : Mach}, m.Within T → (Mach.kilnGo w f m).Within T := by
  induction f with
  | zero => intro m h; exact h
  | succ f ih =>
    intro m h
    rw [Mach.kilnGo]
    split
    · exact ih (Mach.kilnStep_held h (hT.sub (by decide)) w)
    · exact h

theorem Mach.hoursPass_held {T : Scope} {m : Mach} (h : m.Within T) (hT : T.allows 0x1) : (Mach.hoursPass m).Within T := by
  unfold Mach.hoursPass
  try dsimp only
  repeat' (first | exact hT.sub (by decide) | intro _ | with_reducible assumption | with_reducible apply Mach.hoursAdd_held | with_reducible apply Mach.ite_held | split)

theorem Mach.powerOff_held {T : Scope} {m : Mach} (h : m.Within T) (hT : T.allows 0x3fffffffffffffffffffffffffffffffffffffffffffffffffffffffffffffffffffffffffff0000003effffffdd) : (Mach.powerOff m).Within T := by
  unfold Mach.powerOff
  try dsimp only
  repeat' (first | exact hT.sub (by decide) | exact Scope.allows_any (hT.sub (by decide)) _ | intro _ | with_reducible assumption | with_reducible apply Mach.wipe_held | with_reducible apply Mach.modKn_held | with_reducible apply Mach.modNv_held | with_reducible apply Mach.each_held | with_reducible apply Mach.modBank_held | with_reducible apply Mach.setReg_held | with_reducible apply Mach.reset_held | (apply Mach.held_upd; focus (constructor; (dsimp only <;> exact rfl); all_goals (first | with_reducible exact .inl rfl | with_reducible exact rfl | exact .inr (hT.has (by decide))))))

theorem Mach.keepClamps_held {T : Scope} {x : Mach} (h : x.Within T) (hT : T.allows 0x200000) (m : Mach) : (Mach.keepClamps x m).Within T := by
  unfold Mach.keepClamps
  try dsimp only
  repeat' (first | exact hT.sub (by decide) | intro _ | with_reducible assumption | with_reducible apply Mach.each_held | with_reducible apply Mach.modBank_held | (apply Mach.held_upd; focus (constructor; (dsimp only <;> exact rfl); all_goals (first | with_reducible exact .inl rfl | with_reducible exact rfl | exact .inr (hT.has (by decide))))))

theorem Mach.strapsIn_held {T : Scope} {m : Mach} (h : m.Within T) (hT : T.allows 0x100000000000000000) (v33H v33N : Bool) (vaux : Nat) : (Mach.strapsIn m v33H v33N vaux).Within T := by
  unfold Mach.strapsIn
  try dsimp only
  repeat' (first | exact hT.sub (by decide) | intro _ | with_reducible assumption | with_reducible apply Mach.wr_held)

theorem Mach.powerUp_held {T : Scope} {m : Mach} (h : m.Within T) (hT : T.allows 0x3fffffffffffffffffffffffffffffffffffffffffffffffffffffffffffffffffffffffffff0000003effffffdd) (v33H v33N : Bool) (vaux : Nat) : (Mach.powerUp m v33H v33N vaux).Within T := by
  unfold Mach.powerUp
  try dsimp only
  repeat' (first | exact hT.sub (by decide) | exact Scope.allows_any (hT.sub (by decide)) _ | intro _ | with_reducible assumption | with_reducible apply Mach.powerOff_held | with_reducible apply Mach.keepClamps_held | with_reducible apply Mach.modKn_held | with_reducible apply Mach.strapsIn_held | with_reducible apply Mach.setBit_held | with_reducible apply Mach.resetLow_held | with_reducible apply Mach.startBegin_held | with_reducible apply Mach.tripAct_held | with_reducible apply Mach.ite_held | split | (apply Mach.held_upd; focus (constructor; (dsimp only <;> exact rfl); all_goals (first | with_reducible exact .inl rfl | with_reducible exact rfl | exact .inr (hT.has (by decide))))))

theorem Mach.vauxRise_held {T : Scope} {m : Mach} (h : m.Within T) (hT : T.allows 0x3fffffffffffffffffffffffffffffffffffffffffffffffffffffffffffffffffffffffffff0000003effffffdd) (v33H v33N : Bool) (vaux vhold : Nat) : (Mach.vauxRise m v33H v33N vaux vhold).Within T := by
  unfold Mach.vauxRise
  try dsimp only
  repeat' (first | exact hT.sub (by decide) | exact Scope.allows_any (hT.sub (by decide)) _ | intro _ | with_reducible assumption | with_reducible apply Mach.modKn_held | with_reducible apply Mach.strapsIn_held | with_reducible apply Mach.powerUp_held | with_reducible apply Mach.ite_held | split | (apply Mach.held_upd; focus (constructor; (dsimp only <;> exact rfl); all_goals (first | with_reducible exact .inl rfl | with_reducible exact rfl | exact .inr (hT.has (by decide))))))

theorem Mach.vauxFall_held {T : Scope} {m : Mach} (h : m.Within T) (hT : T.allows 0x100000001a80a20011) (vaux vhold : Nat) : (Mach.vauxFall m vaux vhold).Within T := by
  unfold Mach.vauxFall
  try dsimp only
  repeat' (first | exact hT.sub (by decide) | intro _ | with_reducible assumption | with_reducible apply Mach.modKn_held | with_reducible apply Mach.wr_held | with_reducible apply Mach.gaspBegin_held | with_reducible apply Mach.ite_held | split | (apply Mach.held_upd; focus (constructor; (dsimp only <;> exact rfl); all_goals (first | with_reducible exact .inl rfl | with_reducible exact rfl | exact .inr (hT.has (by decide))))))

theorem Mach.gaspEnd_held {T : Scope} {m : Mach} (h : m.Within T) (hT : T.allows 0x3fffffffffffffffffffffffffffffffffffffffffffffffffffffffffffffffffffffffffff0000003effffffdd) : (Mach.gaspEnd m).Within T := by
  unfold Mach.gaspEnd
  try dsimp only
  repeat' (first | exact hT.sub (by decide) | exact Scope.allows_any (hT.sub (by decide)) _ | intro _ | with_reducible assumption | with_reducible apply Mach.powerUp_held | with_reducible apply Mach.powerOff_held | with_reducible apply Mach.modKn_held | with_reducible apply Mach.keepClamps_held | with_reducible apply Mach.ite_held | split | refine Mach.of_fst (by with_reducible assumption) ?_ | refine Mach.of_snd (by with_reducible assumption) ?_ | (apply Mach.held_upd; focus (constructor; (dsimp only <;> exact rfl); all_goals (first | with_reducible exact .inl rfl | with_reducible exact rfl | exact .inr (hT.has (by decide))))))

theorem Mach.suppliesOff_held {T : Scope} {m : Mach} (h : m.Within T) (hT : T.allows 0x3fffffffffffffffffffffffffffffffffffffffffffffffffffffffffffffffffffffffffff0000003effffffdd) : (Mach.suppliesOff m).Within T := by
  unfold Mach.suppliesOff
  try dsimp only
  repeat' (first | exact hT.sub (by decide) | exact Scope.allows_any (hT.sub (by decide)) _ | intro _ | with_reducible assumption | with_reducible apply Mach.when_held | with_reducible apply Mach.gaspLost_held | with_reducible apply Mach.powerOff_held | with_reducible apply Mach.ite_held | split)

theorem Mach.alwaysOnLost_held {T : Scope} {m : Mach} (h : m.Within T) (hT : T.allows 0x80000000000000080000001) : (Mach.alwaysOnLost m).Within T := by
  unfold Mach.alwaysOnLost
  try dsimp only
  repeat' (first | exact hT.sub (by decide) | intro _ | with_reducible assumption | with_reducible apply Mach.setReg_held | with_reducible apply Mach.modKn_held | with_reducible apply Mach.ite_held | split | (apply Mach.held_upd; focus (constructor; (dsimp only <;> exact rfl); all_goals (first | with_reducible exact .inl rfl | with_reducible exact rfl | exact .inr (hT.has (by decide))))))

theorem Mach.resetLow_held {T : Scope} {m : Mach} (h : m.Within T) (hT : T.allows 0x3fffffffffffffffffffffffffffffffffffffffffffffffffffffffffffffffffffffffffff0000001effffffdd) : (Mach.resetLow m).Within T := by
  unfold Mach.resetLow
  try dsimp only
  repeat' (first | exact hT.sub (by decide) | exact Scope.allows_any (hT.sub (by decide)) _ | intro _ | with_reducible assumption | with_reducible apply Mach.modKn_held | with_reducible apply Mach.wipe_held | with_reducible apply Mach.modNv_held | with_reducible apply Mach.ite_held | split | (apply Mach.held_upd; focus (constructor; (dsimp only <;> exact rfl); all_goals (first | with_reducible exact .inl rfl | with_reducible exact rfl | exact .inr (hT.has (by decide))))))

theorem Mach.resetRise_held {T : Scope} {m : Mach} (h : m.Within T) (hT : T.allows 0x400080000000300000004200040080000001000100010000000000000028022bc30) (a b : Bool) : (Mach.resetRise m a b).Within T := by
  unfold Mach.resetRise
  try dsimp only
  repeat' (first | exact hT.sub (by decide) | intro _ | with_reducible assumption | with_reducible apply Mach.modKn_held | with_reducible apply Mach.resetLow_held | with_reducible apply Mach.startBegin_held | with_reducible apply Mach.tripLevels_held | with_reducible apply Mach.ite_held | split | (apply Mach.held_upd; focus (constructor; (dsimp only <;> exact rfl); all_goals (first | with_reducible exact .inl rfl | with_reducible exact rfl | exact .inr (hT.has (by decide))))))

end Sys2Proof.Machine
end

