-- ==== Sys2Proof/Laws/ScopeRun.lean ====
section
/-!
SUPPORT. What dispatch and boundary scan may change. A lemma `f_held` says that `f` keeps the stored data sound and changes nothing outside its mask.
-/

namespace Sys2Proof.Machine

theorem Mach.goTo_held {T : Scope} {m : Mach} (h : m.Within T) (hT : T.allows 0x800) (q : Nat) (t : Nat × Nat × Nat) : (Mach.goTo m q t).Within T := by
  unfold Mach.goTo
  try dsimp only
  repeat' (first | exact hT.sub (by decide) | intro _ | with_reducible assumption | with_reducible apply Mach.modQ_held | split | refine Mach.of_fst (by with_reducible assumption) ?_ | refine Mach.of_snd (by with_reducible assumption) ?_ | (apply Mach.held_upd; focus (constructor; (dsimp only <;> exact rfl); all_goals (first | with_reducible exact .inl rfl | with_reducible exact rfl | exact .inr (hT.has (by decide))))))

theorem Mach.sendAxis_held {T : Scope} {m : Mach} (h : m.Within T) (hT : T.allows 0x2c00) (q : Nat) (w : Word) (ps : Pass) : (Mach.sendAxis m q w ps).Within T := by
  unfold Mach.sendAxis
  try dsimp only
  repeat' (first | exact hT.sub (by decide) | intro _ | with_reducible assumption | with_reducible apply Mach.modQ_held | with_reducible apply Mach.modAx_held | with_reducible apply Mach.modArm_held | with_reducible apply Mach.retire_held | with_reducible apply Mach.ite_held | split | refine Mach.of_fst (by with_reducible assumption) ?_ | refine Mach.of_snd (by with_reducible assumption) ?_ | (apply Mach.held_upd; focus (constructor; (dsimp only <;> exact rfl); all_goals (first | with_reducible exact .inl rfl | with_reducible exact rfl | exact .inr (hT.has (by decide))))))

theorem Mach.qDone_held {T : Scope} {m : Mach} (h : m.Within T) (hT : T.allows 0x800000900000000000000000000000080001800) (q : Nat) (w : Word) (st : Nat) : (Mach.qDone m q w st).Within T := by
  unfold Mach.qDone
  try dsimp only
  repeat' (first | exact hT.sub (by decide) | intro _ | with_reducible assumption | with_reducible apply Mach.homeNote_held | with_reducible apply Mach.postRetired_held)

theorem Mach.waitBegin_held {T : Scope} {m : Mach} (h : m.Within T) (hT : T.allows 0x800) (q : Nat) (w : Word) : (Mach.waitBegin m q w).Within T := by
  unfold Mach.waitBegin
  try dsimp only
  repeat' (first | exact hT.sub (by decide) | intro _ | with_reducible assumption | with_reducible apply Mach.modQ_held | with_reducible apply Mach.ite_held | split | refine Mach.of_fst (by with_reducible assumption) ?_ | refine Mach.of_snd (by with_reducible assumption) ?_ | (apply Mach.held_upd; focus (constructor; (dsimp only <;> exact rfl); all_goals (first | with_reducible exact .inl rfl | with_reducible exact rfl | exact .inr (hT.has (by decide))))))

theorem Mach.setOutput_held {T : Scope} {m : Mach} (h : m.Within T) (hT : T.allows 0x180) (w : Word) : (Mach.setOutput m w).Within T := by
  unfold Mach.setOutput
  try dsimp only
  repeat' (first | exact hT.sub (by decide) | intro _ | with_reducible assumption | with_reducible apply Mach.foldl_held | with_reducible apply Mach.foldl_fst_held | with_reducible apply Mach.ite_held | split | (apply Mach.held_upd; focus (constructor; (dsimp only <;> exact rfl); all_goals (first | with_reducible exact .inl rfl | with_reducible exact rfl | exact .inr (hT.has (by decide))))))

theorem Mach.pulseEnd_held {T : Scope} {m : Mach} (h : m.Within T) (hT : T.allows 0x180) (outs : Nat) : (Mach.pulseEnd m outs).Within T := by
  unfold Mach.pulseEnd
  try dsimp only
  repeat' (first | exact hT.sub (by decide) | intro _ | with_reducible assumption | with_reducible apply Mach.foldl_held | with_reducible apply Mach.foldl_fst_held | with_reducible apply Mach.ite_held | split | refine Mach.of_fst (by with_reducible assumption) ?_ | refine Mach.of_snd (by with_reducible assumption) ?_ | (apply Mach.held_upd; focus (constructor; (dsimp only <;> exact rfl); all_goals (first | with_reducible exact .inl rfl | with_reducible exact rfl | exact .inr (hT.has (by decide))))))

theorem Mach.signal_held {T : Scope} {m : Mach} (h : m.Within T) (hT : T.allows 0x800001000000000000000000000000000001800) (q v : Nat) : (Mach.signal m q v).Within T := by
  unfold Mach.signal
  try dsimp only
  repeat' (first | exact hT.sub (by decide) | intro _ | with_reducible assumption | with_reducible apply Mach.wr_held | with_reducible apply Mach.wrap_held | with_reducible apply Mach.setBit_held | with_reducible apply Mach.post_held | with_reducible apply Mach.each_held | with_reducible apply Mach.modQ_held | with_reducible apply Mach.ite_held | split | refine Mach.of_fst (by with_reducible assumption) ?_ | refine Mach.of_snd (by with_reducible assumption) ?_ | (apply Mach.held_upd; focus (constructor; (dsimp only <;> exact rfl); all_goals (first | with_reducible exact .inl rfl | with_reducible exact rfl | exact .inr (hT.has (by decide))))))

theorem Mach.loop_held {T : Scope} {m : Mach} (h : m.Within T) (hT : T.allows 0x800) (q : Nat) (w : Word) (t : Nat × Nat × Nat) : (Mach.loop m q w t).Within T := by
  unfold Mach.loop
  try dsimp only
  repeat' (first | exact hT.sub (by decide) | intro _ | with_reducible assumption | with_reducible apply Mach.frame_held | with_reducible apply Mach.goTo_held | with_reducible apply Mach.modQ_held | with_reducible apply Mach.ite_held | split | refine Mach.of_fst (by with_reducible assumption) ?_ | refine Mach.of_snd (by with_reducible assumption) ?_ | (apply Mach.held_upd; focus (constructor; (dsimp only <;> exact rfl); all_goals (first | with_reducible exact .inl rfl | with_reducible exact rfl | exact .inr (hT.has (by decide))))))

theorem Mach.call_held {T : Scope} {m : Mach} (h : m.Within T) (hT : T.allows 0x800) (q : Nat) (t : Nat × Nat × Nat) : (Mach.call m q t).Within T := by
  unfold Mach.call
  try dsimp only
  repeat' (first | exact hT.sub (by decide) | intro _ | with_reducible assumption | with_reducible apply Mach.modQ_held | (apply Mach.held_upd; focus (constructor; (dsimp only <;> exact rfl); all_goals (first | with_reducible exact .inl rfl | with_reducible exact rfl | exact .inr (hT.has (by decide))))))

theorem Mach.ret_held {T : Scope} {m : Mach} (h : m.Within T) (hT : T.allows 0x800000000000000000000000000000000001800) (q : Nat) : (Mach.ret m q).Within T := by
  unfold Mach.ret
  try dsimp only
  repeat' (first | exact hT.sub (by decide) | intro _ | with_reducible assumption | with_reducible apply Mach.rtnEnd_held | with_reducible apply Mach.modQ_held | with_reducible apply Mach.ite_held | split | (apply Mach.held_upd; focus (constructor; (dsimp only <;> exact rfl); all_goals (first | with_reducible exact .inl rfl | with_reducible exact rfl | exact .inr (hT.has (by decide))))))

theorem Mach.runQueue_held {T : Scope} {m : Mach} (h : m.Within T) (hT : T.allows 0x3fffffffffffffffffffffffffffffffffffffffffffffffffffffffffffffffffffffffffff0000001fffffffdd) (q : Nat) (w : Word) : (Mach.runQueue m q w).Within T := by
  unfold Mach.runQueue
  try dsimp only
  repeat' (first | exact hT.sub (by decide) | exact Scope.allows_any (hT.sub (by decide)) _ | intro _ | with_reducible assumption | with_reducible apply Mach.qDone_held | with_reducible apply Mach.waitBegin_held | with_reducible apply Mach.idataWrite_held | with_reducible apply Mach.ownerWrite_held | with_reducible apply Mach.levelsHold_held | with_reducible apply Mach.writesDone_held | with_reducible apply Mach.setOutput_held | with_reducible apply Mach.goTo_held | with_reducible apply Mach.call_held | with_reducible apply Mach.ret_held | with_reducible apply Mach.loop_held | with_reducible apply Mach.signal_held | with_reducible apply Mach.rtnEnd_held | with_reducible apply Mach.stMark_held | with_reducible apply Mach.ite_held | split | refine Mach.of_fst (by with_reducible assumption) ?_ | refine Mach.of_snd (by with_reducible assumption) ?_)

theorem Mach.dispatchWord_held {T : Scope} {m : Mach} (h : m.Within T) (hT : T.allows 0x3fffffffffffffffffffffffffffffffffffffffffffffffffffffffffffffffffffffffffff0000001fffffffdd) (q : Nat) (w : Word) : (Mach.dispatchWord m q w).Within T := by
  unfold Mach.dispatchWord
  try dsimp only
  repeat' (first | exact hT.sub (by decide) | exact Scope.allows_any (hT.sub (by decide)) _ | intro _ | with_reducible assumption | with_reducible apply Mach.setBit_held | with_reducible apply Mach.modQ_held | with_reducible apply Mach.qDone_held | with_reducible apply Mach.settle_held | with_reducible apply Mach.sendAxis_held | with_reducible apply Mach.runQueue_held | with_reducible apply Mach.ite_held | split | refine Mach.of_fst (by with_reducible assumption) ?_ | refine Mach.of_snd (by with_reducible assumption) ?_)

theorem Mach.fetchBad_held {T : Scope} {m : Mach} (h : m.Within T) (hT : T.allows 0x800000900000000000000000000000080001800) (q : Nat) (w : Word) : (Mach.fetchBad m q w).Within T := by
  unfold Mach.fetchBad
  try dsimp only
  repeat' (first | exact hT.sub (by decide) | intro _ | with_reducible assumption | with_reducible apply Mach.modQ_held | with_reducible apply Mach.setBit_held | with_reducible apply Mach.qDone_held | with_reducible apply Mach.halt_held | (apply Mach.held_upd; focus (constructor; (dsimp only <;> exact rfl); all_goals (first | with_reducible exact .inl rfl | with_reducible exact rfl | exact .inr (hT.has (by decide))))))

theorem Mach.tryHead_held {T : Scope} {m : Mach} (h : m.Within T) (hT : T.allows 0x3fffffffffffffffffffffffffffffffffffffffffffffffffffffffffffffffffffffffffff0000001fffffffdd) (q : Nat) (w : Word) (bad : Bool) : (Mach.tryHead m q w bad).Within T := by
  unfold Mach.tryHead
  try dsimp only
  repeat' (first | exact hT.sub (by decide) | exact Scope.allows_any (hT.sub (by decide)) _ | intro _ | with_reducible assumption | with_reducible apply Mach.fetchBad_held | with_reducible apply Mach.dispatchWord_held | with_reducible apply Mach.modQ_held | with_reducible apply Mach.setBit_held | with_reducible apply Mach.post_held | with_reducible apply Mach.ite_held | split | refine Mach.of_fst (by with_reducible assumption) ?_ | refine Mach.of_snd (by with_reducible assumption) ?_ | (apply Mach.held_upd; focus (constructor; (dsimp only <;> exact rfl); all_goals (first | with_reducible exact .inl rfl | with_reducible exact rfl | exact .inr (hT.has (by decide))))))

theorem Mach.pastEnd_held {T : Scope} {m : Mach} (h : m.Within T) (hT : T.allows 0x800000000000000000000000000000000001800) (q : Nat) : (Mach.pastEnd m q).Within T := by
  unfold Mach.pastEnd
  try dsimp only
  repeat' (first | exact hT.sub (by decide) | intro _ | with_reducible assumption | with_reducible apply Mach.frame_held | with_reducible apply Mach.rtnEnd_held | with_reducible apply Mach.modQ_held | with_reducible apply Mach.settle_held | with_reducible apply Mach.ite_held | split | refine Mach.of_fst (by with_reducible assumption) ?_ | refine Mach.of_snd (by with_reducible assumption) ?_)

theorem Mach.strobeHead_held {T : Scope} {m : Mach} (h : m.Within T) (hT : T.allows 0x3fffffffffffffffffffffffffffffffffffffffffffffffffffffffffffffffffffffffffff0000001fffffffdd) (q : Nat) : (Mach.strobeHead m q).Within T := by
  unfold Mach.strobeHead
  try dsimp only
  repeat' (first | exact hT.sub (by decide) | exact Scope.allows_any (hT.sub (by decide)) _ | intro _ | with_reducible assumption | with_reducible apply Mach.frame_held | with_reducible apply Mach.modQ_held | with_reducible apply Mach.tryHead_held | with_reducible apply Mach.settle_held | split | refine Mach.of_fst (by with_reducible assumption) ?_ | refine Mach.of_snd (by with_reducible assumption) ?_ | (apply Mach.held_upd; focus (constructor; (dsimp only <;> exact rfl); all_goals (first | with_reducible exact .inl rfl | with_reducible exact rfl | exact .inr (hT.has (by decide))))))

theorem Mach.queueStrobe_held {T : Scope} {m : Mach} (h : m.Within T) (hT : T.allows 0x3fffffffffffffffffffffffffffffffffffffffffffffffffffffffffffffffffffffffffff0000001fffffffdd) (q : Nat) : (Mach.queueStrobe m q).Within T := by
  unfold Mach.queueStrobe
  try dsimp only
  repeat' (first | exact hT.sub (by decide) | exact Scope.allows_any (hT.sub (by decide)) _ | intro _ | with_reducible assumption | with_reducible apply Mach.pastEnd_held | with_reducible apply Mach.strobeHead_held)

theorem Mach.routineFetch_held {T : Scope} {m0 : Mach} (h : m0.Within T) (hT : T.allows 0x800000000000000000000000000000000001800) (q : Nat) (bad : Bool) : (Mach.routineFetch m0 q bad).Within T := by
  unfold Mach.routineFetch
  try dsimp only
  repeat' (first | exact hT.sub (by decide) | intro _ | with_reducible assumption | with_reducible apply Mach.pastEnd_held | with_reducible apply Mach.modQ_held | with_reducible apply Mach.frame_held | with_reducible apply Mach.ite_held | split | refine Mach.of_fst (by with_reducible assumption) ?_ | refine Mach.of_snd (by with_reducible assumption) ?_ | (apply Mach.held_upd; focus (constructor; (dsimp only <;> exact rfl); all_goals (first | with_reducible exact .inl rfl | with_reducible exact rfl | exact .inr (hT.has (by decide))))))

theorem Mach.waitStep_held {T : Scope} {m : Mach} (h : m.Within T) (hT : T.allows 0x800) (q : Nat) (timeoutOnly : Bool) : (Mach.waitStep m q timeoutOnly).Within T := by
  unfold Mach.waitStep
  try dsimp only
  repeat' (first | exact hT.sub (by decide) | intro _ | with_reducible assumption | with_reducible apply Mach.modQ_held | with_reducible apply Mach.ite_held | split | refine Mach.of_fst (by with_reducible assumption) ?_ | refine Mach.of_snd (by with_reducible assumption) ?_ | (apply Mach.held_upd; focus (constructor; (dsimp only <;> exact rfl); all_goals (first | with_reducible exact .inl rfl | with_reducible exact rfl | exact .inr (hT.has (by decide))))))

theorem Mach.queueDispatch_held {T : Scope} {m : Mach} (h : m.Within T) (hT : T.allows 0x3fffffffffffffffffffffffffffffffffffffffffffffffffffffffffffffffffffffffffff0000001fffffffdd) : (Mach.queueDispatch m).Within T := by
  unfold Mach.queueDispatch
  try dsimp only
  repeat' (first | exact hT.sub (by decide) | exact Scope.allows_any (hT.sub (by decide)) _ | intro _ | with_reducible assumption | with_reducible apply Mach.abortsDue_held | with_reducible apply Mach.each_held | with_reducible apply Mach.vmasterStep_held | with_reducible apply Mach.waitStep_held | with_reducible apply Mach.retireDue_held | with_reducible apply Mach.queueStrobe_held | with_reducible apply Mach.step16Check_held | with_reducible apply Mach.ite_held | split)

theorem Mach.command_held {T : Scope} {m0 : Mach} (h : m0.Within T) (hT : T.allows 0x3fffffffffffffffffffffffffffffffffffffffffffffffffffffffffffffffffffffffffff0000001fffffffdd) (q opc : Nat) (c : CmdArgs) : (Mach.command m0 q opc c).Within T := by
  unfold Mach.command
  try dsimp only
  repeat' (first | exact hT.sub (by decide) | exact Scope.allows_any (hT.sub (by decide)) _ | intro _ | with_reducible assumption | with_reducible apply Mach.abortsDue_held | with_reducible apply Mach.push_held | with_reducible apply Mach.publish_held | with_reducible apply Mach.pastEnd_held | with_reducible apply Mach.strobeHead_held | with_reducible apply Mach.forAll_held | with_reducible apply Mach.takeAll_held | with_reducible apply Mach.step16Check_held | with_reducible apply Mach.ite_held | split)

theorem Mach.functionsStop_held {T : Scope} {m : Mach} (h : m.Within T) (hT : T.allows 0x1800000001) : (Mach.functionsStop m).Within T := by
  unfold Mach.functionsStop
  try dsimp only
  repeat' (first | exact hT.sub (by decide) | intro _ | with_reducible assumption | (apply Mach.held_upd; focus (constructor; (dsimp only <;> exact rfl); all_goals (first | with_reducible exact .inl rfl | with_reducible exact rfl | exact .inr (hT.has (by decide))))))

theorem Mach.tapTest_held {T : Scope} {m : Mach} (h : m.Within T) (hT : T.allows 0x400080000000000000004200040080000001000100000000000000000188202bc01) : (Mach.tapTest m).Within T := by
  unfold Mach.tapTest
  try dsimp only
  repeat' (first | exact hT.sub (by decide) | intro _ | with_reducible assumption | with_reducible apply Mach.each_held | with_reducible apply Mach.fault_held | with_reducible apply Mach.cutBank_held | with_reducible apply Mach.functionsStop_held | (apply Mach.held_upd; focus (constructor; (dsimp only <;> exact rfl); all_goals (first | with_reducible exact .inl rfl | with_reducible exact rfl | exact .inr (hT.has (by decide))))))

end Sys2Proof.Machine
end

