-- ==== Sys2Proof/Laws/State.lean ====
section
/-!
SUPPORT. One lemma per field per update of the state, each true by unfolding the update once, so that no later proof unfolds a
record update. The updates of what follows a command and of an event's post are at the end.
-/

namespace Sys2Proof.Machine

variable (m : Mach)

@[simp] theorem Mach.modAx_clk (n : Nat) (f : Axis → Axis) : (m.modAx n f).clk = m.clk := rfl
@[simp] theorem Mach.modAx_regs (n : Nat) (f : Axis → Axis) : (m.modAx n f).regs = m.regs := rfl
@[simp] theorem Mach.modAx_staged (n : Nat) (f : Axis → Axis) : (m.modAx n f).staged = m.staged := rfl
@[simp] theorem Mach.modAx_dram (n : Nat) (f : Axis → Axis) : (m.modAx n f).dram = m.dram := rfl
@[simp] theorem Mach.modAx_flash (n : Nat) (f : Axis → Axis) : (m.modAx n f).flash = m.flash := rfl
@[simp] theorem Mach.modAx_inp (n : Nat) (f : Axis → Axis) : (m.modAx n f).inp = m.inp := rfl
@[simp] theorem Mach.modAx_snapIn (n : Nat) (f : Axis → Axis) : (m.modAx n f).snapIn = m.snapIn := rfl
@[simp] theorem Mach.modAx_go (n : Nat) (f : Axis → Axis) : (m.modAx n f).go = m.go := rfl
@[simp] theorem Mach.modAx_goPulse (n : Nat) (f : Axis → Axis) : (m.modAx n f).goPulse = m.goPulse := rfl
@[simp] theorem Mach.modAx_readData (n : Nat) (f : Axis → Axis) : (m.modAx n f).readData = m.readData := rfl
@[simp] theorem Mach.modAx_queues (n : Nat) (f : Axis → Axis) : (m.modAx n f).queues = m.queues := rfl
@[simp] theorem Mach.modAx_rings (n : Nat) (f : Axis → Axis) : (m.modAx n f).rings = m.rings := rfl
@[simp] theorem Mach.modAx_arms (n : Nat) (f : Axis → Axis) : (m.modAx n f).arms = m.arms := rfl
@[simp] theorem Mach.modAx_vmasters (n : Nat) (f : Axis → Axis) : (m.modAx n f).vmasters = m.vmasters := rfl
@[simp] theorem Mach.modAx_regchans (n : Nat) (f : Axis → Axis) : (m.modAx n f).regchans = m.regchans := rfl
@[simp] theorem Mach.modAx_sections (n : Nat) (f : Axis → Axis) : (m.modAx n f).sections = m.sections := rfl
@[simp] theorem Mach.modAx_coils (n : Nat) (f : Axis → Axis) : (m.modAx n f).coils = m.coils := rfl
@[simp] theorem Mach.modAx_obs (n : Nat) (f : Axis → Axis) : (m.modAx n f).obs = m.obs := rfl
@[simp] theorem Mach.modAx_harm (n : Nat) (f : Axis → Axis) : (m.modAx n f).harm = m.harm := rfl
@[simp] theorem Mach.modAx_comm (n : Nat) (f : Axis → Axis) : (m.modAx n f).comm = m.comm := rfl
@[simp] theorem Mach.modAx_banks (n : Nat) (f : Axis → Axis) : (m.modAx n f).banks = m.banks := rfl
@[simp] theorem Mach.modAx_sync (n : Nat) (f : Axis → Axis) : (m.modAx n f).sync = m.sync := rfl
@[simp] theorem Mach.modAx_gasp (n : Nat) (f : Axis → Axis) : (m.modAx n f).gasp = m.gasp := rfl
@[simp] theorem Mach.modAx_dbgHalt (n : Nat) (f : Axis → Axis) : (m.modAx n f).dbgHalt = m.dbgHalt := rfl
@[simp] theorem Mach.modAx_testInstr (n : Nat) (f : Axis → Axis) : (m.modAx n f).testInstr = m.testInstr := rfl
@[simp] theorem Mach.modAx_ledRon (n : Nat) (f : Axis → Axis) : (m.modAx n f).ledRon = m.ledRon := rfl
@[simp] theorem Mach.modAx_ports (n : Nat) (f : Axis → Axis) : (m.modAx n f).ports = m.ports := rfl
@[simp] theorem Mach.modAx_sf (n : Nat) (f : Axis → Axis) : (m.modAx n f).sf = m.sf := rfl
@[simp] theorem Mach.modAx_fm (n : Nat) (f : Axis → Axis) : (m.modAx n f).fm = m.fm := rfl
@[simp] theorem Mach.modAx_heat (n : Nat) (f : Axis → Axis) : (m.modAx n f).heat = m.heat := rfl
@[simp] theorem Mach.modAx_kn (n : Nat) (f : Axis → Axis) : (m.modAx n f).kn = m.kn := rfl
@[simp] theorem Mach.modAx_otp (n : Nat) (f : Axis → Axis) : (m.modAx n f).otp = m.otp := rfl
@[simp] theorem Mach.modAx_nv (n : Nat) (f : Axis → Axis) : (m.modAx n f).nv = m.nv := rfl
@[simp] theorem Mach.modAx_pt (n : Nat) (f : Axis → Axis) : (m.modAx n f).pt = m.pt := rfl
@[simp] theorem Mach.modAx_st (n : Nat) (f : Axis → Axis) : (m.modAx n f).st = m.st := rfl
@[simp] theorem Mach.modAx_hp (n : Nat) (f : Axis → Axis) : (m.modAx n f).hp = m.hp := rfl
@[simp] theorem Mach.modAx_tap (n : Nat) (f : Axis → Axis) : (m.modAx n f).tap = m.tap := rfl

@[simp] theorem Mach.modQ_clk (q : Nat) (f : Queue → Queue) : (m.modQ q f).clk = m.clk := rfl
@[simp] theorem Mach.modQ_regs (q : Nat) (f : Queue → Queue) : (m.modQ q f).regs = m.regs := rfl
@[simp] theorem Mach.modQ_staged (q : Nat) (f : Queue → Queue) : (m.modQ q f).staged = m.staged := rfl
@[simp] theorem Mach.modQ_dram (q : Nat) (f : Queue → Queue) : (m.modQ q f).dram = m.dram := rfl
@[simp] theorem Mach.modQ_flash (q : Nat) (f : Queue → Queue) : (m.modQ q f).flash = m.flash := rfl
@[simp] theorem Mach.modQ_inp (q : Nat) (f : Queue → Queue) : (m.modQ q f).inp = m.inp := rfl
@[simp] theorem Mach.modQ_snapIn (q : Nat) (f : Queue → Queue) : (m.modQ q f).snapIn = m.snapIn := rfl
@[simp] theorem Mach.modQ_go (q : Nat) (f : Queue → Queue) : (m.modQ q f).go = m.go := rfl
@[simp] theorem Mach.modQ_goPulse (q : Nat) (f : Queue → Queue) : (m.modQ q f).goPulse = m.goPulse := rfl
@[simp] theorem Mach.modQ_readData (q : Nat) (f : Queue → Queue) : (m.modQ q f).readData = m.readData := rfl
@[simp] theorem Mach.modQ_axes (q : Nat) (f : Queue → Queue) : (m.modQ q f).axes = m.axes := rfl
@[simp] theorem Mach.modQ_rings (q : Nat) (f : Queue → Queue) : (m.modQ q f).rings = m.rings := rfl
@[simp] theorem Mach.modQ_arms (q : Nat) (f : Queue → Queue) : (m.modQ q f).arms = m.arms := rfl
@[simp] theorem Mach.modQ_vmasters (q : Nat) (f : Queue → Queue) : (m.modQ q f).vmasters = m.vmasters := rfl
@[simp] theorem Mach.modQ_regchans (q : Nat) (f : Queue → Queue) : (m.modQ q f).regchans = m.regchans := rfl
@[simp] theorem Mach.modQ_sections (q : Nat) (f : Queue → Queue) : (m.modQ q f).sections = m.sections := rfl
@[simp] theorem Mach.modQ_coils (q : Nat) (f : Queue → Queue) : (m.modQ q f).coils = m.coils := rfl
@[simp] theorem Mach.modQ_obs (q : Nat) (f : Queue → Queue) : (m.modQ q f).obs = m.obs := rfl
@[simp] theorem Mach.modQ_harm (q : Nat) (f : Queue → Queue) : (m.modQ q f).harm = m.harm := rfl
@[simp] theorem Mach.modQ_comm (q : Nat) (f : Queue → Queue) : (m.modQ q f).comm = m.comm := rfl
@[simp] theorem Mach.modQ_banks (q : Nat) (f : Queue → Queue) : (m.modQ q f).banks = m.banks := rfl
@[simp] theorem Mach.modQ_sync (q : Nat) (f : Queue → Queue) : (m.modQ q f).sync = m.sync := rfl
@[simp] theorem Mach.modQ_gasp (q : Nat) (f : Queue → Queue) : (m.modQ q f).gasp = m.gasp := rfl
@[simp] theorem Mach.modQ_dbgHalt (q : Nat) (f : Queue → Queue) : (m.modQ q f).dbgHalt = m.dbgHalt := rfl
@[simp] theorem Mach.modQ_testInstr (q : Nat) (f : Queue → Queue) : (m.modQ q f).testInstr = m.testInstr := rfl
@[simp] theorem Mach.modQ_ledRon (q : Nat) (f : Queue → Queue) : (m.modQ q f).ledRon = m.ledRon := rfl
@[simp] theorem Mach.modQ_ports (q : Nat) (f : Queue → Queue) : (m.modQ q f).ports = m.ports := rfl
@[simp] theorem Mach.modQ_sf (q : Nat) (f : Queue → Queue) : (m.modQ q f).sf = m.sf := rfl
@[simp] theorem Mach.modQ_fm (q : Nat) (f : Queue → Queue) : (m.modQ q f).fm = m.fm := rfl
@[simp] theorem Mach.modQ_heat (q : Nat) (f : Queue → Queue) : (m.modQ q f).heat = m.heat := rfl
@[simp] theorem Mach.modQ_kn (q : Nat) (f : Queue → Queue) : (m.modQ q f).kn = m.kn := rfl
@[simp] theorem Mach.modQ_otp (q : Nat) (f : Queue → Queue) : (m.modQ q f).otp = m.otp := rfl
@[simp] theorem Mach.modQ_nv (q : Nat) (f : Queue → Queue) : (m.modQ q f).nv = m.nv := rfl
@[simp] theorem Mach.modQ_pt (q : Nat) (f : Queue → Queue) : (m.modQ q f).pt = m.pt := rfl
@[simp] theorem Mach.modQ_st (q : Nat) (f : Queue → Queue) : (m.modQ q f).st = m.st := rfl
@[simp] theorem Mach.modQ_hp (q : Nat) (f : Queue → Queue) : (m.modQ q f).hp = m.hp := rfl
@[simp] theorem Mach.modQ_tap (q : Nat) (f : Queue → Queue) : (m.modQ q f).tap = m.tap := rfl

@[simp] theorem Mach.modArm_clk (g : Nat) (f : Arm → Arm) : (m.modArm g f).clk = m.clk := rfl
@[simp] theorem Mach.modArm_regs (g : Nat) (f : Arm → Arm) : (m.modArm g f).regs = m.regs := rfl
@[simp] theorem Mach.modArm_staged (g : Nat) (f : Arm → Arm) : (m.modArm g f).staged = m.staged := rfl
@[simp] theorem Mach.modArm_dram (g : Nat) (f : Arm → Arm) : (m.modArm g f).dram = m.dram := rfl
@[simp] theorem Mach.modArm_flash (g : Nat) (f : Arm → Arm) : (m.modArm g f).flash = m.flash := rfl
@[simp] theorem Mach.modArm_inp (g : Nat) (f : Arm → Arm) : (m.modArm g f).inp = m.inp := rfl
@[simp] theorem Mach.modArm_snapIn (g : Nat) (f : Arm → Arm) : (m.modArm g f).snapIn = m.snapIn := rfl
@[simp] theorem Mach.modArm_go (g : Nat) (f : Arm → Arm) : (m.modArm g f).go = m.go := rfl
@[simp] theorem Mach.modArm_goPulse (g : Nat) (f : Arm → Arm) : (m.modArm g f).goPulse = m.goPulse := rfl
@[simp] theorem Mach.modArm_readData (g : Nat) (f : Arm → Arm) : (m.modArm g f).readData = m.readData := rfl
@[simp] theorem Mach.modArm_axes (g : Nat) (f : Arm → Arm) : (m.modArm g f).axes = m.axes := rfl
@[simp] theorem Mach.modArm_queues (g : Nat) (f : Arm → Arm) : (m.modArm g f).queues = m.queues := rfl
@[simp] theorem Mach.modArm_rings (g : Nat) (f : Arm → Arm) : (m.modArm g f).rings = m.rings := rfl
@[simp] theorem Mach.modArm_vmasters (g : Nat) (f : Arm → Arm) : (m.modArm g f).vmasters = m.vmasters := rfl
@[simp] theorem Mach.modArm_regchans (g : Nat) (f : Arm → Arm) : (m.modArm g f).regchans = m.regchans := rfl
@[simp] theorem Mach.modArm_sections (g : Nat) (f : Arm → Arm) : (m.modArm g f).sections = m.sections := rfl
@[simp] theorem Mach.modArm_coils (g : Nat) (f : Arm → Arm) : (m.modArm g f).coils = m.coils := rfl
@[simp] theorem Mach.modArm_obs (g : Nat) (f : Arm → Arm) : (m.modArm g f).obs = m.obs := rfl
@[simp] theorem Mach.modArm_harm (g : Nat) (f : Arm → Arm) : (m.modArm g f).harm = m.harm := rfl
@[simp] theorem Mach.modArm_comm (g : Nat) (f : Arm → Arm) : (m.modArm g f).comm = m.comm := rfl
@[simp] theorem Mach.modArm_banks (g : Nat) (f : Arm → Arm) : (m.modArm g f).banks = m.banks := rfl
@[simp] theorem Mach.modArm_sync (g : Nat) (f : Arm → Arm) : (m.modArm g f).sync = m.sync := rfl
@[simp] theorem Mach.modArm_gasp (g : Nat) (f : Arm → Arm) : (m.modArm g f).gasp = m.gasp := rfl
@[simp] theorem Mach.modArm_dbgHalt (g : Nat) (f : Arm → Arm) : (m.modArm g f).dbgHalt = m.dbgHalt := rfl
@[simp] theorem Mach.modArm_testInstr (g : Nat) (f : Arm → Arm) : (m.modArm g f).testInstr = m.testInstr := rfl
@[simp] theorem Mach.modArm_ledRon (g : Nat) (f : Arm → Arm) : (m.modArm g f).ledRon = m.ledRon := rfl
@[simp] theorem Mach.modArm_ports (g : Nat) (f : Arm → Arm) : (m.modArm g f).ports = m.ports := rfl
@[simp] theorem Mach.modArm_sf (g : Nat) (f : Arm → Arm) : (m.modArm g f).sf = m.sf := rfl
@[simp] theorem Mach.modArm_fm (g : Nat) (f : Arm → Arm) : (m.modArm g f).fm = m.fm := rfl
@[simp] theorem Mach.modArm_heat (g : Nat) (f : Arm → Arm) : (m.modArm g f).heat = m.heat := rfl
@[simp] theorem Mach.modArm_kn (g : Nat) (f : Arm → Arm) : (m.modArm g f).kn = m.kn := rfl
@[simp] theorem Mach.modArm_otp (g : Nat) (f : Arm → Arm) : (m.modArm g f).otp = m.otp := rfl
@[simp] theorem Mach.modArm_nv (g : Nat) (f : Arm → Arm) : (m.modArm g f).nv = m.nv := rfl
@[simp] theorem Mach.modArm_pt (g : Nat) (f : Arm → Arm) : (m.modArm g f).pt = m.pt := rfl
@[simp] theorem Mach.modArm_st (g : Nat) (f : Arm → Arm) : (m.modArm g f).st = m.st := rfl
@[simp] theorem Mach.modArm_hp (g : Nat) (f : Arm → Arm) : (m.modArm g f).hp = m.hp := rfl
@[simp] theorem Mach.modArm_tap (g : Nat) (f : Arm → Arm) : (m.modArm g f).tap = m.tap := rfl

@[simp] theorem Mach.modRegch_clk (r : Nat) (f : RegChan → RegChan) : (m.modRegch r f).clk = m.clk := rfl
@[simp] theorem Mach.modRegch_regs (r : Nat) (f : RegChan → RegChan) : (m.modRegch r f).regs = m.regs := rfl
@[simp] theorem Mach.modRegch_staged (r : Nat) (f : RegChan → RegChan) : (m.modRegch r f).staged = m.staged := rfl
@[simp] theorem Mach.modRegch_dram (r : Nat) (f : RegChan → RegChan) : (m.modRegch r f).dram = m.dram := rfl
@[simp] theorem Mach.modRegch_flash (r : Nat) (f : RegChan → RegChan) : (m.modRegch r f).flash = m.flash := rfl
@[simp] theorem Mach.modRegch_inp (r : Nat) (f : RegChan → RegChan) : (m.modRegch r f).inp = m.inp := rfl
@[simp] theorem Mach.modRegch_snapIn (r : Nat) (f : RegChan → RegChan) : (m.modRegch r f).snapIn = m.snapIn := rfl
@[simp] theorem Mach.modRegch_go (r : Nat) (f : RegChan → RegChan) : (m.modRegch r f).go = m.go := rfl
@[simp] theorem Mach.modRegch_goPulse (r : Nat) (f : RegChan → RegChan) : (m.modRegch r f).goPulse = m.goPulse := rfl
@[simp] theorem Mach.modRegch_readData (r : Nat) (f : RegChan → RegChan) : (m.modRegch r f).readData = m.readData := rfl
@[simp] theorem Mach.modRegch_axes (r : Nat) (f : RegChan → RegChan) : (m.modRegch r f).axes = m.axes := rfl
@[simp] theorem Mach.modRegch_queues (r : Nat) (f : RegChan → RegChan) : (m.modRegch r f).queues = m.queues := rfl
@[simp] theorem Mach.modRegch_rings (r : Nat) (f : RegChan → RegChan) : (m.modRegch r f).rings = m.rings := rfl
@[simp] theorem Mach.modRegch_arms (r : Nat) (f : RegChan → RegChan) : (m.modRegch r f).arms = m.arms := rfl
@[simp] theorem Mach.modRegch_vmasters (r : Nat) (f : RegChan → RegChan) : (m.modRegch r f).vmasters = m.vmasters := rfl
@[simp] theorem Mach.modRegch_sections (r : Nat) (f : RegChan → RegChan) : (m.modRegch r f).sections = m.sections := rfl
@[simp] theorem Mach.modRegch_coils (r : Nat) (f : RegChan → RegChan) : (m.modRegch r f).coils = m.coils := rfl
@[simp] theorem Mach.modRegch_obs (r : Nat) (f : RegChan → RegChan) : (m.modRegch r f).obs = m.obs := rfl
@[simp] theorem Mach.modRegch_harm (r : Nat) (f : RegChan → RegChan) : (m.modRegch r f).harm = m.harm := rfl
@[simp] theorem Mach.modRegch_comm (r : Nat) (f : RegChan → RegChan) : (m.modRegch r f).comm = m.comm := rfl
@[simp] theorem Mach.modRegch_banks (r : Nat) (f : RegChan → RegChan) : (m.modRegch r f).banks = m.banks := rfl
@[simp] theorem Mach.modRegch_sync (r : Nat) (f : RegChan → RegChan) : (m.modRegch r f).sync = m.sync := rfl
@[simp] theorem Mach.modRegch_gasp (r : Nat) (f : RegChan → RegChan) : (m.modRegch r f).gasp = m.gasp := rfl
@[simp] theorem Mach.modRegch_dbgHalt (r : Nat) (f : RegChan → RegChan) : (m.modRegch r f).dbgHalt = m.dbgHalt := rfl
@[simp] theorem Mach.modRegch_testInstr (r : Nat) (f : RegChan → RegChan) : (m.modRegch r f).testInstr = m.testInstr := rfl
@[simp] theorem Mach.modRegch_ledRon (r : Nat) (f : RegChan → RegChan) : (m.modRegch r f).ledRon = m.ledRon := rfl
@[simp] theorem Mach.modRegch_ports (r : Nat) (f : RegChan → RegChan) : (m.modRegch r f).ports = m.ports := rfl
@[simp] theorem Mach.modRegch_sf (r : Nat) (f : RegChan → RegChan) : (m.modRegch r f).sf = m.sf := rfl
@[simp] theorem Mach.modRegch_fm (r : Nat) (f : RegChan → RegChan) : (m.modRegch r f).fm = m.fm := rfl
@[simp] theorem Mach.modRegch_heat (r : Nat) (f : RegChan → RegChan) : (m.modRegch r f).heat = m.heat := rfl
@[simp] theorem Mach.modRegch_kn (r : Nat) (f : RegChan → RegChan) : (m.modRegch r f).kn = m.kn := rfl
@[simp] theorem Mach.modRegch_otp (r : Nat) (f : RegChan → RegChan) : (m.modRegch r f).otp = m.otp := rfl
@[simp] theorem Mach.modRegch_nv (r : Nat) (f : RegChan → RegChan) : (m.modRegch r f).nv = m.nv := rfl
@[simp] theorem Mach.modRegch_pt (r : Nat) (f : RegChan → RegChan) : (m.modRegch r f).pt = m.pt := rfl
@[simp] theorem Mach.modRegch_st (r : Nat) (f : RegChan → RegChan) : (m.modRegch r f).st = m.st := rfl
@[simp] theorem Mach.modRegch_hp (r : Nat) (f : RegChan → RegChan) : (m.modRegch r f).hp = m.hp := rfl
@[simp] theorem Mach.modRegch_tap (r : Nat) (f : RegChan → RegChan) : (m.modRegch r f).tap = m.tap := rfl

@[simp] theorem Mach.modCoil_clk (k : Nat) (f : Coil → Coil) : (m.modCoil k f).clk = m.clk := rfl
@[simp] theorem Mach.modCoil_regs (k : Nat) (f : Coil → Coil) : (m.modCoil k f).regs = m.regs := rfl
@[simp] theorem Mach.modCoil_staged (k : Nat) (f : Coil → Coil) : (m.modCoil k f).staged = m.staged := rfl
@[simp] theorem Mach.modCoil_dram (k : Nat) (f : Coil → Coil) : (m.modCoil k f).dram = m.dram := rfl
@[simp] theorem Mach.modCoil_flash (k : Nat) (f : Coil → Coil) : (m.modCoil k f).flash = m.flash := rfl
@[simp] theorem Mach.modCoil_inp (k : Nat) (f : Coil → Coil) : (m.modCoil k f).inp = m.inp := rfl
@[simp] theorem Mach.modCoil_snapIn (k : Nat) (f : Coil → Coil) : (m.modCoil k f).snapIn = m.snapIn := rfl
@[simp] theorem Mach.modCoil_go (k : Nat) (f : Coil → Coil) : (m.modCoil k f).go = m.go := rfl
@[simp] theorem Mach.modCoil_goPulse (k : Nat) (f : Coil → Coil) : (m.modCoil k f).goPulse = m.goPulse := rfl
@[simp] theorem Mach.modCoil_readData (k : Nat) (f : Coil → Coil) : (m.modCoil k f).readData = m.readData := rfl
@[simp] theorem Mach.modCoil_axes (k : Nat) (f : Coil → Coil) : (m.modCoil k f).axes = m.axes := rfl
@[simp] theorem Mach.modCoil_queues (k : Nat) (f : Coil → Coil) : (m.modCoil k f).queues = m.queues := rfl
@[simp] theorem Mach.modCoil_rings (k : Nat) (f : Coil → Coil) : (m.modCoil k f).rings = m.rings := rfl
@[simp] theorem Mach.modCoil_arms (k : Nat) (f : Coil → Coil) : (m.modCoil k f).arms = m.arms := rfl
@[simp] theorem Mach.modCoil_vmasters (k : Nat) (f : Coil → Coil) : (m.modCoil k f).vmasters = m.vmasters := rfl
@[simp] theorem Mach.modCoil_regchans (k : Nat) (f : Coil → Coil) : (m.modCoil k f).regchans = m.regchans := rfl
@[simp] theorem Mach.modCoil_sections (k : Nat) (f : Coil → Coil) : (m.modCoil k f).sections = m.sections := rfl
@[simp] theorem Mach.modCoil_obs (k : Nat) (f : Coil → Coil) : (m.modCoil k f).obs = m.obs := rfl
@[simp] theorem Mach.modCoil_harm (k : Nat) (f : Coil → Coil) : (m.modCoil k f).harm = m.harm := rfl
@[simp] theorem Mach.modCoil_comm (k : Nat) (f : Coil → Coil) : (m.modCoil k f).comm = m.comm := rfl
@[simp] theorem Mach.modCoil_banks (k : Nat) (f : Coil → Coil) : (m.modCoil k f).banks = m.banks := rfl
@[simp] theorem Mach.modCoil_sync (k : Nat) (f : Coil → Coil) : (m.modCoil k f).sync = m.sync := rfl
@[simp] theorem Mach.modCoil_gasp (k : Nat) (f : Coil → Coil) : (m.modCoil k f).gasp = m.gasp := rfl
@[simp] theorem Mach.modCoil_dbgHalt (k : Nat) (f : Coil → Coil) : (m.modCoil k f).dbgHalt = m.dbgHalt := rfl
@[simp] theorem Mach.modCoil_testInstr (k : Nat) (f : Coil → Coil) : (m.modCoil k f).testInstr = m.testInstr := rfl
@[simp] theorem Mach.modCoil_ledRon (k : Nat) (f : Coil → Coil) : (m.modCoil k f).ledRon = m.ledRon := rfl
@[simp] theorem Mach.modCoil_ports (k : Nat) (f : Coil → Coil) : (m.modCoil k f).ports = m.ports := rfl
@[simp] theorem Mach.modCoil_sf (k : Nat) (f : Coil → Coil) : (m.modCoil k f).sf = m.sf := rfl
@[simp] theorem Mach.modCoil_fm (k : Nat) (f : Coil → Coil) : (m.modCoil k f).fm = m.fm := rfl
@[simp] theorem Mach.modCoil_heat (k : Nat) (f : Coil → Coil) : (m.modCoil k f).heat = m.heat := rfl
@[simp] theorem Mach.modCoil_kn (k : Nat) (f : Coil → Coil) : (m.modCoil k f).kn = m.kn := rfl
@[simp] theorem Mach.modCoil_otp (k : Nat) (f : Coil → Coil) : (m.modCoil k f).otp = m.otp := rfl
@[simp] theorem Mach.modCoil_nv (k : Nat) (f : Coil → Coil) : (m.modCoil k f).nv = m.nv := rfl
@[simp] theorem Mach.modCoil_pt (k : Nat) (f : Coil → Coil) : (m.modCoil k f).pt = m.pt := rfl
@[simp] theorem Mach.modCoil_st (k : Nat) (f : Coil → Coil) : (m.modCoil k f).st = m.st := rfl
@[simp] theorem Mach.modCoil_hp (k : Nat) (f : Coil → Coil) : (m.modCoil k f).hp = m.hp := rfl
@[simp] theorem Mach.modCoil_tap (k : Nat) (f : Coil → Coil) : (m.modCoil k f).tap = m.tap := rfl

@[simp] theorem Mach.modOb_clk (n : Nat) (f : Obs → Obs) : (m.modOb n f).clk = m.clk := rfl
@[simp] theorem Mach.modOb_regs (n : Nat) (f : Obs → Obs) : (m.modOb n f).regs = m.regs := rfl
@[simp] theorem Mach.modOb_staged (n : Nat) (f : Obs → Obs) : (m.modOb n f).staged = m.staged := rfl
@[simp] theorem Mach.modOb_dram (n : Nat) (f : Obs → Obs) : (m.modOb n f).dram = m.dram := rfl
@[simp] theorem Mach.modOb_flash (n : Nat) (f : Obs → Obs) : (m.modOb n f).flash = m.flash := rfl
@[simp] theorem Mach.modOb_inp (n : Nat) (f : Obs → Obs) : (m.modOb n f).inp = m.inp := rfl
@[simp] theorem Mach.modOb_snapIn (n : Nat) (f : Obs → Obs) : (m.modOb n f).snapIn = m.snapIn := rfl
@[simp] theorem Mach.modOb_go (n : Nat) (f : Obs → Obs) : (m.modOb n f).go = m.go := rfl
@[simp] theorem Mach.modOb_goPulse (n : Nat) (f : Obs → Obs) : (m.modOb n f).goPulse = m.goPulse := rfl
@[simp] theorem Mach.modOb_readData (n : Nat) (f : Obs → Obs) : (m.modOb n f).readData = m.readData := rfl
@[simp] theorem Mach.modOb_axes (n : Nat) (f : Obs → Obs) : (m.modOb n f).axes = m.axes := rfl
@[simp] theorem Mach.modOb_queues (n : Nat) (f : Obs → Obs) : (m.modOb n f).queues = m.queues := rfl
@[simp] theorem Mach.modOb_rings (n : Nat) (f : Obs → Obs) : (m.modOb n f).rings = m.rings := rfl
@[simp] theorem Mach.modOb_arms (n : Nat) (f : Obs → Obs) : (m.modOb n f).arms = m.arms := rfl
@[simp] theorem Mach.modOb_vmasters (n : Nat) (f : Obs → Obs) : (m.modOb n f).vmasters = m.vmasters := rfl
@[simp] theorem Mach.modOb_regchans (n : Nat) (f : Obs → Obs) : (m.modOb n f).regchans = m.regchans := rfl
@[simp] theorem Mach.modOb_sections (n : Nat) (f : Obs → Obs) : (m.modOb n f).sections = m.sections := rfl
@[simp] theorem Mach.modOb_coils (n : Nat) (f : Obs → Obs) : (m.modOb n f).coils = m.coils := rfl
@[simp] theorem Mach.modOb_harm (n : Nat) (f : Obs → Obs) : (m.modOb n f).harm = m.harm := rfl
@[simp] theorem Mach.modOb_comm (n : Nat) (f : Obs → Obs) : (m.modOb n f).comm = m.comm := rfl
@[simp] theorem Mach.modOb_banks (n : Nat) (f : Obs → Obs) : (m.modOb n f).banks = m.banks := rfl
@[simp] theorem Mach.modOb_sync (n : Nat) (f : Obs → Obs) : (m.modOb n f).sync = m.sync := rfl
@[simp] theorem Mach.modOb_gasp (n : Nat) (f : Obs → Obs) : (m.modOb n f).gasp = m.gasp := rfl
@[simp] theorem Mach.modOb_dbgHalt (n : Nat) (f : Obs → Obs) : (m.modOb n f).dbgHalt = m.dbgHalt := rfl
@[simp] theorem Mach.modOb_testInstr (n : Nat) (f : Obs → Obs) : (m.modOb n f).testInstr = m.testInstr := rfl
@[simp] theorem Mach.modOb_ledRon (n : Nat) (f : Obs → Obs) : (m.modOb n f).ledRon = m.ledRon := rfl
@[simp] theorem Mach.modOb_ports (n : Nat) (f : Obs → Obs) : (m.modOb n f).ports = m.ports := rfl
@[simp] theorem Mach.modOb_sf (n : Nat) (f : Obs → Obs) : (m.modOb n f).sf = m.sf := rfl
@[simp] theorem Mach.modOb_fm (n : Nat) (f : Obs → Obs) : (m.modOb n f).fm = m.fm := rfl
@[simp] theorem Mach.modOb_heat (n : Nat) (f : Obs → Obs) : (m.modOb n f).heat = m.heat := rfl
@[simp] theorem Mach.modOb_kn (n : Nat) (f : Obs → Obs) : (m.modOb n f).kn = m.kn := rfl
@[simp] theorem Mach.modOb_otp (n : Nat) (f : Obs → Obs) : (m.modOb n f).otp = m.otp := rfl
@[simp] theorem Mach.modOb_nv (n : Nat) (f : Obs → Obs) : (m.modOb n f).nv = m.nv := rfl
@[simp] theorem Mach.modOb_pt (n : Nat) (f : Obs → Obs) : (m.modOb n f).pt = m.pt := rfl
@[simp] theorem Mach.modOb_st (n : Nat) (f : Obs → Obs) : (m.modOb n f).st = m.st := rfl
@[simp] theorem Mach.modOb_hp (n : Nat) (f : Obs → Obs) : (m.modOb n f).hp = m.hp := rfl
@[simp] theorem Mach.modOb_tap (n : Nat) (f : Obs → Obs) : (m.modOb n f).tap = m.tap := rfl

@[simp] theorem Mach.modBank_clk (b : Nat) (f : Bank → Bank) : (m.modBank b f).clk = m.clk := rfl
@[simp] theorem Mach.modBank_regs (b : Nat) (f : Bank → Bank) : (m.modBank b f).regs = m.regs := rfl
@[simp] theorem Mach.modBank_staged (b : Nat) (f : Bank → Bank) : (m.modBank b f).staged = m.staged := rfl
@[simp] theorem Mach.modBank_dram (b : Nat) (f : Bank → Bank) : (m.modBank b f).dram = m.dram := rfl
@[simp] theorem Mach.modBank_flash (b : Nat) (f : Bank → Bank) : (m.modBank b f).flash = m.flash := rfl
@[simp] theorem Mach.modBank_inp (b : Nat) (f : Bank → Bank) : (m.modBank b f).inp = m.inp := rfl
@[simp] theorem Mach.modBank_snapIn (b : Nat) (f : Bank → Bank) : (m.modBank b f).snapIn = m.snapIn := rfl
@[simp] theorem Mach.modBank_go (b : Nat) (f : Bank → Bank) : (m.modBank b f).go = m.go := rfl
@[simp] theorem Mach.modBank_goPulse (b : Nat) (f : Bank → Bank) : (m.modBank b f).goPulse = m.goPulse := rfl
@[simp] theorem Mach.modBank_readData (b : Nat) (f : Bank → Bank) : (m.modBank b f).readData = m.readData := rfl
@[simp] theorem Mach.modBank_axes (b : Nat) (f : Bank → Bank) : (m.modBank b f).axes = m.axes := rfl
@[simp] theorem Mach.modBank_queues (b : Nat) (f : Bank → Bank) : (m.modBank b f).queues = m.queues := rfl
@[simp] theorem Mach.modBank_rings (b : Nat) (f : Bank → Bank) : (m.modBank b f).rings = m.rings := rfl
@[simp] theorem Mach.modBank_arms (b : Nat) (f : Bank → Bank) : (m.modBank b f).arms = m.arms := rfl
@[simp] theorem Mach.modBank_vmasters (b : Nat) (f : Bank → Bank) : (m.modBank b f).vmasters = m.vmasters := rfl
@[simp] theorem Mach.modBank_regchans (b : Nat) (f : Bank → Bank) : (m.modBank b f).regchans = m.regchans := rfl
@[simp] theorem Mach.modBank_sections (b : Nat) (f : Bank → Bank) : (m.modBank b f).sections = m.sections := rfl
@[simp] theorem Mach.modBank_coils (b : Nat) (f : Bank → Bank) : (m.modBank b f).coils = m.coils := rfl
@[simp] theorem Mach.modBank_obs (b : Nat) (f : Bank → Bank) : (m.modBank b f).obs = m.obs := rfl
@[simp] theorem Mach.modBank_harm (b : Nat) (f : Bank → Bank) : (m.modBank b f).harm = m.harm := rfl
@[simp] theorem Mach.modBank_comm (b : Nat) (f : Bank → Bank) : (m.modBank b f).comm = m.comm := rfl
@[simp] theorem Mach.modBank_sync (b : Nat) (f : Bank → Bank) : (m.modBank b f).sync = m.sync := rfl
@[simp] theorem Mach.modBank_gasp (b : Nat) (f : Bank → Bank) : (m.modBank b f).gasp = m.gasp := rfl
@[simp] theorem Mach.modBank_dbgHalt (b : Nat) (f : Bank → Bank) : (m.modBank b f).dbgHalt = m.dbgHalt := rfl
@[simp] theorem Mach.modBank_testInstr (b : Nat) (f : Bank → Bank) : (m.modBank b f).testInstr = m.testInstr := rfl
@[simp] theorem Mach.modBank_ledRon (b : Nat) (f : Bank → Bank) : (m.modBank b f).ledRon = m.ledRon := rfl
@[simp] theorem Mach.modBank_ports (b : Nat) (f : Bank → Bank) : (m.modBank b f).ports = m.ports := rfl
@[simp] theorem Mach.modBank_sf (b : Nat) (f : Bank → Bank) : (m.modBank b f).sf = m.sf := rfl
@[simp] theorem Mach.modBank_fm (b : Nat) (f : Bank → Bank) : (m.modBank b f).fm = m.fm := rfl
@[simp] theorem Mach.modBank_heat (b : Nat) (f : Bank → Bank) : (m.modBank b f).heat = m.heat := rfl
@[simp] theorem Mach.modBank_kn (b : Nat) (f : Bank → Bank) : (m.modBank b f).kn = m.kn := rfl
@[simp] theorem Mach.modBank_otp (b : Nat) (f : Bank → Bank) : (m.modBank b f).otp = m.otp := rfl
@[simp] theorem Mach.modBank_nv (b : Nat) (f : Bank → Bank) : (m.modBank b f).nv = m.nv := rfl
@[simp] theorem Mach.modBank_pt (b : Nat) (f : Bank → Bank) : (m.modBank b f).pt = m.pt := rfl
@[simp] theorem Mach.modBank_st (b : Nat) (f : Bank → Bank) : (m.modBank b f).st = m.st := rfl
@[simp] theorem Mach.modBank_hp (b : Nat) (f : Bank → Bank) : (m.modBank b f).hp = m.hp := rfl
@[simp] theorem Mach.modBank_tap (b : Nat) (f : Bank → Bank) : (m.modBank b f).tap = m.tap := rfl

@[simp] theorem Mach.modPort_clk (p : Nat) (f : Port → Port) : (m.modPort p f).clk = m.clk := rfl
@[simp] theorem Mach.modPort_regs (p : Nat) (f : Port → Port) : (m.modPort p f).regs = m.regs := rfl
@[simp] theorem Mach.modPort_staged (p : Nat) (f : Port → Port) : (m.modPort p f).staged = m.staged := rfl
@[simp] theorem Mach.modPort_dram (p : Nat) (f : Port → Port) : (m.modPort p f).dram = m.dram := rfl
@[simp] theorem Mach.modPort_flash (p : Nat) (f : Port → Port) : (m.modPort p f).flash = m.flash := rfl
@[simp] theorem Mach.modPort_inp (p : Nat) (f : Port → Port) : (m.modPort p f).inp = m.inp := rfl
@[simp] theorem Mach.modPort_snapIn (p : Nat) (f : Port → Port) : (m.modPort p f).snapIn = m.snapIn := rfl
@[simp] theorem Mach.modPort_go (p : Nat) (f : Port → Port) : (m.modPort p f).go = m.go := rfl
@[simp] theorem Mach.modPort_goPulse (p : Nat) (f : Port → Port) : (m.modPort p f).goPulse = m.goPulse := rfl
@[simp] theorem Mach.modPort_readData (p : Nat) (f : Port → Port) : (m.modPort p f).readData = m.readData := rfl
@[simp] theorem Mach.modPort_axes (p : Nat) (f : Port → Port) : (m.modPort p f).axes = m.axes := rfl
@[simp] theorem Mach.modPort_queues (p : Nat) (f : Port → Port) : (m.modPort p f).queues = m.queues := rfl
@[simp] theorem Mach.modPort_rings (p : Nat) (f : Port → Port) : (m.modPort p f).rings = m.rings := rfl
@[simp] theorem Mach.modPort_arms (p : Nat) (f : Port → Port) : (m.modPort p f).arms = m.arms := rfl
@[simp] theorem Mach.modPort_vmasters (p : Nat) (f : Port → Port) : (m.modPort p f).vmasters = m.vmasters := rfl
@[simp] theorem Mach.modPort_regchans (p : Nat) (f : Port → Port) : (m.modPort p f).regchans = m.regchans := rfl
@[simp] theorem Mach.modPort_sections (p : Nat) (f : Port → Port) : (m.modPort p f).sections = m.sections := rfl
@[simp] theorem Mach.modPort_coils (p : Nat) (f : Port → Port) : (m.modPort p f).coils = m.coils := rfl
@[simp] theorem Mach.modPort_obs (p : Nat) (f : Port → Port) : (m.modPort p f).obs = m.obs := rfl
@[simp] theorem Mach.modPort_harm (p : Nat) (f : Port → Port) : (m.modPort p f).harm = m.harm := rfl
@[simp] theorem Mach.modPort_comm (p : Nat) (f : Port → Port) : (m.modPort p f).comm = m.comm := rfl
@[simp] theorem Mach.modPort_banks (p : Nat) (f : Port → Port) : (m.modPort p f).banks = m.banks := rfl
@[simp] theorem Mach.modPort_sync (p : Nat) (f : Port → Port) : (m.modPort p f).sync = m.sync := rfl
@[simp] theorem Mach.modPort_gasp (p : Nat) (f : Port → Port) : (m.modPort p f).gasp = m.gasp := rfl
@[simp] theorem Mach.modPort_dbgHalt (p : Nat) (f : Port → Port) : (m.modPort p f).dbgHalt = m.dbgHalt := rfl
@[simp] theorem Mach.modPort_testInstr (p : Nat) (f : Port → Port) : (m.modPort p f).testInstr = m.testInstr := rfl
@[simp] theorem Mach.modPort_ledRon (p : Nat) (f : Port → Port) : (m.modPort p f).ledRon = m.ledRon := rfl
@[simp] theorem Mach.modPort_sf (p : Nat) (f : Port → Port) : (m.modPort p f).sf = m.sf := rfl
@[simp] theorem Mach.modPort_fm (p : Nat) (f : Port → Port) : (m.modPort p f).fm = m.fm := rfl
@[simp] theorem Mach.modPort_heat (p : Nat) (f : Port → Port) : (m.modPort p f).heat = m.heat := rfl
@[simp] theorem Mach.modPort_kn (p : Nat) (f : Port → Port) : (m.modPort p f).kn = m.kn := rfl
@[simp] theorem Mach.modPort_otp (p : Nat) (f : Port → Port) : (m.modPort p f).otp = m.otp := rfl
@[simp] theorem Mach.modPort_nv (p : Nat) (f : Port → Port) : (m.modPort p f).nv = m.nv := rfl
@[simp] theorem Mach.modPort_pt (p : Nat) (f : Port → Port) : (m.modPort p f).pt = m.pt := rfl
@[simp] theorem Mach.modPort_st (p : Nat) (f : Port → Port) : (m.modPort p f).st = m.st := rfl
@[simp] theorem Mach.modPort_hp (p : Nat) (f : Port → Port) : (m.modPort p f).hp = m.hp := rfl
@[simp] theorem Mach.modPort_tap (p : Nat) (f : Port → Port) : (m.modPort p f).tap = m.tap := rfl

@[simp] theorem Mach.modHax_clk (n : Nat) (f : HeatAx → HeatAx) : (m.modHax n f).clk = m.clk := rfl
@[simp] theorem Mach.modHax_regs (n : Nat) (f : HeatAx → HeatAx) : (m.modHax n f).regs = m.regs := rfl
@[simp] theorem Mach.modHax_staged (n : Nat) (f : HeatAx → HeatAx) : (m.modHax n f).staged = m.staged := rfl
@[simp] theorem Mach.modHax_dram (n : Nat) (f : HeatAx → HeatAx) : (m.modHax n f).dram = m.dram := rfl
@[simp] theorem Mach.modHax_flash (n : Nat) (f : HeatAx → HeatAx) : (m.modHax n f).flash = m.flash := rfl
@[simp] theorem Mach.modHax_inp (n : Nat) (f : HeatAx → HeatAx) : (m.modHax n f).inp = m.inp := rfl
@[simp] theorem Mach.modHax_snapIn (n : Nat) (f : HeatAx → HeatAx) : (m.modHax n f).snapIn = m.snapIn := rfl
@[simp] theorem Mach.modHax_go (n : Nat) (f : HeatAx → HeatAx) : (m.modHax n f).go = m.go := rfl
@[simp] theorem Mach.modHax_goPulse (n : Nat) (f : HeatAx → HeatAx) : (m.modHax n f).goPulse = m.goPulse := rfl
@[simp] theorem Mach.modHax_readData (n : Nat) (f : HeatAx → HeatAx) : (m.modHax n f).readData = m.readData := rfl
@[simp] theorem Mach.modHax_axes (n : Nat) (f : HeatAx → HeatAx) : (m.modHax n f).axes = m.axes := rfl
@[simp] theorem Mach.modHax_queues (n : Nat) (f : HeatAx → HeatAx) : (m.modHax n f).queues = m.queues := rfl
@[simp] theorem Mach.modHax_rings (n : Nat) (f : HeatAx → HeatAx) : (m.modHax n f).rings = m.rings := rfl
@[simp] theorem Mach.modHax_arms (n : Nat) (f : HeatAx → HeatAx) : (m.modHax n f).arms = m.arms := rfl
@[simp] theorem Mach.modHax_vmasters (n : Nat) (f : HeatAx → HeatAx) : (m.modHax n f).vmasters = m.vmasters := rfl
@[simp] theorem Mach.modHax_regchans (n : Nat) (f : HeatAx → HeatAx) : (m.modHax n f).regchans = m.regchans := rfl
@[simp] theorem Mach.modHax_sections (n : Nat) (f : HeatAx → HeatAx) : (m.modHax n f).sections = m.sections := rfl
@[simp] theorem Mach.modHax_coils (n : Nat) (f : HeatAx → HeatAx) : (m.modHax n f).coils = m.coils := rfl
@[simp] theorem Mach.modHax_obs (n : Nat) (f : HeatAx → HeatAx) : (m.modHax n f).obs = m.obs := rfl
@[simp] theorem Mach.modHax_harm (n : Nat) (f : HeatAx → HeatAx) : (m.modHax n f).harm = m.harm := rfl
@[simp] theorem Mach.modHax_comm (n : Nat) (f : HeatAx → HeatAx) : (m.modHax n f).comm = m.comm := rfl
@[simp] theorem Mach.modHax_banks (n : Nat) (f : HeatAx → HeatAx) : (m.modHax n f).banks = m.banks := rfl
@[simp] theorem Mach.modHax_sync (n : Nat) (f : HeatAx → HeatAx) : (m.modHax n f).sync = m.sync := rfl
@[simp] theorem Mach.modHax_gasp (n : Nat) (f : HeatAx → HeatAx) : (m.modHax n f).gasp = m.gasp := rfl
@[simp] theorem Mach.modHax_dbgHalt (n : Nat) (f : HeatAx → HeatAx) : (m.modHax n f).dbgHalt = m.dbgHalt := rfl
@[simp] theorem Mach.modHax_testInstr (n : Nat) (f : HeatAx → HeatAx) : (m.modHax n f).testInstr = m.testInstr := rfl
@[simp] theorem Mach.modHax_ledRon (n : Nat) (f : HeatAx → HeatAx) : (m.modHax n f).ledRon = m.ledRon := rfl
@[simp] theorem Mach.modHax_ports (n : Nat) (f : HeatAx → HeatAx) : (m.modHax n f).ports = m.ports := rfl
@[simp] theorem Mach.modHax_sf (n : Nat) (f : HeatAx → HeatAx) : (m.modHax n f).sf = m.sf := rfl
@[simp] theorem Mach.modHax_fm (n : Nat) (f : HeatAx → HeatAx) : (m.modHax n f).fm = m.fm := rfl
@[simp] theorem Mach.modHax_kn (n : Nat) (f : HeatAx → HeatAx) : (m.modHax n f).kn = m.kn := rfl
@[simp] theorem Mach.modHax_otp (n : Nat) (f : HeatAx → HeatAx) : (m.modHax n f).otp = m.otp := rfl
@[simp] theorem Mach.modHax_nv (n : Nat) (f : HeatAx → HeatAx) : (m.modHax n f).nv = m.nv := rfl
@[simp] theorem Mach.modHax_pt (n : Nat) (f : HeatAx → HeatAx) : (m.modHax n f).pt = m.pt := rfl
@[simp] theorem Mach.modHax_st (n : Nat) (f : HeatAx → HeatAx) : (m.modHax n f).st = m.st := rfl
@[simp] theorem Mach.modHax_hp (n : Nat) (f : HeatAx → HeatAx) : (m.modHax n f).hp = m.hp := rfl
@[simp] theorem Mach.modHax_tap (n : Nat) (f : HeatAx → HeatAx) : (m.modHax n f).tap = m.tap := rfl

@[simp] theorem Mach.modKn_clk (f : Kiln → Kiln) : (m.modKn f).clk = m.clk := rfl
@[simp] theorem Mach.modKn_regs (f : Kiln → Kiln) : (m.modKn f).regs = m.regs := rfl
@[simp] theorem Mach.modKn_staged (f : Kiln → Kiln) : (m.modKn f).staged = m.staged := rfl
@[simp] theorem Mach.modKn_dram (f : Kiln → Kiln) : (m.modKn f).dram = m.dram := rfl
@[simp] theorem Mach.modKn_flash (f : Kiln → Kiln) : (m.modKn f).flash = m.flash := rfl
@[simp] theorem Mach.modKn_inp (f : Kiln → Kiln) : (m.modKn f).inp = m.inp := rfl
@[simp] theorem Mach.modKn_snapIn (f : Kiln → Kiln) : (m.modKn f).snapIn = m.snapIn := rfl
@[simp] theorem Mach.modKn_go (f : Kiln → Kiln) : (m.modKn f).go = m.go := rfl
@[simp] theorem Mach.modKn_goPulse (f : Kiln → Kiln) : (m.modKn f).goPulse = m.goPulse := rfl
@[simp] theorem Mach.modKn_readData (f : Kiln → Kiln) : (m.modKn f).readData = m.readData := rfl
@[simp] theorem Mach.modKn_axes (f : Kiln → Kiln) : (m.modKn f).axes = m.axes := rfl
@[simp] theorem Mach.modKn_queues (f : Kiln → Kiln) : (m.modKn f).queues = m.queues := rfl
@[simp] theorem Mach.modKn_rings (f : Kiln → Kiln) : (m.modKn f).rings = m.rings := rfl
@[simp] theorem Mach.modKn_arms (f : Kiln → Kiln) : (m.modKn f).arms = m.arms := rfl
@[simp] theorem Mach.modKn_vmasters (f : Kiln → Kiln) : (m.modKn f).vmasters = m.vmasters := rfl
@[simp] theorem Mach.modKn_regchans (f : Kiln → Kiln) : (m.modKn f).regchans = m.regchans := rfl
@[simp] theorem Mach.modKn_sections (f : Kiln → Kiln) : (m.modKn f).sections = m.sections := rfl
@[simp] theorem Mach.modKn_coils (f : Kiln → Kiln) : (m.modKn f).coils = m.coils := rfl
@[simp] theorem Mach.modKn_obs (f : Kiln → Kiln) : (m.modKn f).obs = m.obs := rfl
@[simp] theorem Mach.modKn_harm (f : Kiln → Kiln) : (m.modKn f).harm = m.harm := rfl
@[simp] theorem Mach.modKn_comm (f : Kiln → Kiln) : (m.modKn f).comm = m.comm := rfl
@[simp] theorem Mach.modKn_banks (f : Kiln → Kiln) : (m.modKn f).banks = m.banks := rfl
@[simp] theorem Mach.modKn_sync (f : Kiln → Kiln) : (m.modKn f).sync = m.sync := rfl
@[simp] theorem Mach.modKn_gasp (f : Kiln → Kiln) : (m.modKn f).gasp = m.gasp := rfl
@[simp] theorem Mach.modKn_dbgHalt (f : Kiln → Kiln) : (m.modKn f).dbgHalt = m.dbgHalt := rfl
@[simp] theorem Mach.modKn_testInstr (f : Kiln → Kiln) : (m.modKn f).testInstr = m.testInstr := rfl
@[simp] theorem Mach.modKn_ledRon (f : Kiln → Kiln) : (m.modKn f).ledRon = m.ledRon := rfl
@[simp] theorem Mach.modKn_ports (f : Kiln → Kiln) : (m.modKn f).ports = m.ports := rfl
@[simp] theorem Mach.modKn_sf (f : Kiln → Kiln) : (m.modKn f).sf = m.sf := rfl
@[simp] theorem Mach.modKn_fm (f : Kiln → Kiln) : (m.modKn f).fm = m.fm := rfl
@[simp] theorem Mach.modKn_heat (f : Kiln → Kiln) : (m.modKn f).heat = m.heat := rfl
@[simp] theorem Mach.modKn_otp (f : Kiln → Kiln) : (m.modKn f).otp = m.otp := rfl
@[simp] theorem Mach.modKn_nv (f : Kiln → Kiln) : (m.modKn f).nv = m.nv := rfl
@[simp] theorem Mach.modKn_pt (f : Kiln → Kiln) : (m.modKn f).pt = m.pt := rfl
@[simp] theorem Mach.modKn_st (f : Kiln → Kiln) : (m.modKn f).st = m.st := rfl
@[simp] theorem Mach.modKn_hp (f : Kiln → Kiln) : (m.modKn f).hp = m.hp := rfl
@[simp] theorem Mach.modKn_tap (f : Kiln → Kiln) : (m.modKn f).tap = m.tap := rfl

@[simp] theorem Mach.modFm_clk (f : FaultMask → FaultMask) : (m.modFm f).clk = m.clk := rfl
@[simp] theorem Mach.modFm_regs (f : FaultMask → FaultMask) : (m.modFm f).regs = m.regs := rfl
@[simp] theorem Mach.modFm_staged (f : FaultMask → FaultMask) : (m.modFm f).staged = m.staged := rfl
@[simp] theorem Mach.modFm_dram (f : FaultMask → FaultMask) : (m.modFm f).dram = m.dram := rfl
@[simp] theorem Mach.modFm_flash (f : FaultMask → FaultMask) : (m.modFm f).flash = m.flash := rfl
@[simp] theorem Mach.modFm_inp (f : FaultMask → FaultMask) : (m.modFm f).inp = m.inp := rfl
@[simp] theorem Mach.modFm_snapIn (f : FaultMask → FaultMask) : (m.modFm f).snapIn = m.snapIn := rfl
@[simp] theorem Mach.modFm_go (f : FaultMask → FaultMask) : (m.modFm f).go = m.go := rfl
@[simp] theorem Mach.modFm_goPulse (f : FaultMask → FaultMask) : (m.modFm f).goPulse = m.goPulse := rfl
@[simp] theorem Mach.modFm_readData (f : FaultMask → FaultMask) : (m.modFm f).readData = m.readData := rfl
@[simp] theorem Mach.modFm_axes (f : FaultMask → FaultMask) : (m.modFm f).axes = m.axes := rfl
@[simp] theorem Mach.modFm_queues (f : FaultMask → FaultMask) : (m.modFm f).queues = m.queues := rfl
@[simp] theorem Mach.modFm_rings (f : FaultMask → FaultMask) : (m.modFm f).rings = m.rings := rfl
@[simp] theorem Mach.modFm_arms (f : FaultMask → FaultMask) : (m.modFm f).arms = m.arms := rfl
@[simp] theorem Mach.modFm_vmasters (f : FaultMask → FaultMask) : (m.modFm f).vmasters = m.vmasters := rfl
@[simp] theorem Mach.modFm_regchans (f : FaultMask → FaultMask) : (m.modFm f).regchans = m.regchans := rfl
@[simp] theorem Mach.modFm_sections (f : FaultMask → FaultMask) : (m.modFm f).sections = m.sections := rfl
@[simp] theorem Mach.modFm_coils (f : FaultMask → FaultMask) : (m.modFm f).coils = m.coils := rfl
@[simp] theorem Mach.modFm_obs (f : FaultMask → FaultMask) : (m.modFm f).obs = m.obs := rfl
@[simp] theorem Mach.modFm_harm (f : FaultMask → FaultMask) : (m.modFm f).harm = m.harm := rfl
@[simp] theorem Mach.modFm_comm (f : FaultMask → FaultMask) : (m.modFm f).comm = m.comm := rfl
@[simp] theorem Mach.modFm_banks (f : FaultMask → FaultMask) : (m.modFm f).banks = m.banks := rfl
@[simp] theorem Mach.modFm_sync (f : FaultMask → FaultMask) : (m.modFm f).sync = m.sync := rfl
@[simp] theorem Mach.modFm_gasp (f : FaultMask → FaultMask) : (m.modFm f).gasp = m.gasp := rfl
@[simp] theorem Mach.modFm_dbgHalt (f : FaultMask → FaultMask) : (m.modFm f).dbgHalt = m.dbgHalt := rfl
@[simp] theorem Mach.modFm_testInstr (f : FaultMask → FaultMask) : (m.modFm f).testInstr = m.testInstr := rfl
@[simp] theorem Mach.modFm_ledRon (f : FaultMask → FaultMask) : (m.modFm f).ledRon = m.ledRon := rfl
@[simp] theorem Mach.modFm_ports (f : FaultMask → FaultMask) : (m.modFm f).ports = m.ports := rfl
@[simp] theorem Mach.modFm_sf (f : FaultMask → FaultMask) : (m.modFm f).sf = m.sf := rfl
@[simp] theorem Mach.modFm_heat (f : FaultMask → FaultMask) : (m.modFm f).heat = m.heat := rfl
@[simp] theorem Mach.modFm_kn (f : FaultMask → FaultMask) : (m.modFm f).kn = m.kn := rfl
@[simp] theorem Mach.modFm_otp (f : FaultMask → FaultMask) : (m.modFm f).otp = m.otp := rfl
@[simp] theorem Mach.modFm_nv (f : FaultMask → FaultMask) : (m.modFm f).nv = m.nv := rfl
@[simp] theorem Mach.modFm_pt (f : FaultMask → FaultMask) : (m.modFm f).pt = m.pt := rfl
@[simp] theorem Mach.modFm_st (f : FaultMask → FaultMask) : (m.modFm f).st = m.st := rfl
@[simp] theorem Mach.modFm_hp (f : FaultMask → FaultMask) : (m.modFm f).hp = m.hp := rfl
@[simp] theorem Mach.modFm_tap (f : FaultMask → FaultMask) : (m.modFm f).tap = m.tap := rfl

@[simp] theorem Mach.modNv_clk (f : Nvm → Nvm) : (m.modNv f).clk = m.clk := rfl
@[simp] theorem Mach.modNv_regs (f : Nvm → Nvm) : (m.modNv f).regs = m.regs := rfl
@[simp] theorem Mach.modNv_staged (f : Nvm → Nvm) : (m.modNv f).staged = m.staged := rfl
@[simp] theorem Mach.modNv_dram (f : Nvm → Nvm) : (m.modNv f).dram = m.dram := rfl
@[simp] theorem Mach.modNv_flash (f : Nvm → Nvm) : (m.modNv f).flash = m.flash := rfl
@[simp] theorem Mach.modNv_inp (f : Nvm → Nvm) : (m.modNv f).inp = m.inp := rfl
@[simp] theorem Mach.modNv_snapIn (f : Nvm → Nvm) : (m.modNv f).snapIn = m.snapIn := rfl
@[simp] theorem Mach.modNv_go (f : Nvm → Nvm) : (m.modNv f).go = m.go := rfl
@[simp] theorem Mach.modNv_goPulse (f : Nvm → Nvm) : (m.modNv f).goPulse = m.goPulse := rfl
@[simp] theorem Mach.modNv_readData (f : Nvm → Nvm) : (m.modNv f).readData = m.readData := rfl
@[simp] theorem Mach.modNv_axes (f : Nvm → Nvm) : (m.modNv f).axes = m.axes := rfl
@[simp] theorem Mach.modNv_queues (f : Nvm → Nvm) : (m.modNv f).queues = m.queues := rfl
@[simp] theorem Mach.modNv_rings (f : Nvm → Nvm) : (m.modNv f).rings = m.rings := rfl
@[simp] theorem Mach.modNv_arms (f : Nvm → Nvm) : (m.modNv f).arms = m.arms := rfl
@[simp] theorem Mach.modNv_vmasters (f : Nvm → Nvm) : (m.modNv f).vmasters = m.vmasters := rfl
@[simp] theorem Mach.modNv_regchans (f : Nvm → Nvm) : (m.modNv f).regchans = m.regchans := rfl
@[simp] theorem Mach.modNv_sections (f : Nvm → Nvm) : (m.modNv f).sections = m.sections := rfl
@[simp] theorem Mach.modNv_coils (f : Nvm → Nvm) : (m.modNv f).coils = m.coils := rfl
@[simp] theorem Mach.modNv_obs (f : Nvm → Nvm) : (m.modNv f).obs = m.obs := rfl
@[simp] theorem Mach.modNv_harm (f : Nvm → Nvm) : (m.modNv f).harm = m.harm := rfl
@[simp] theorem Mach.modNv_comm (f : Nvm → Nvm) : (m.modNv f).comm = m.comm := rfl
@[simp] theorem Mach.modNv_banks (f : Nvm → Nvm) : (m.modNv f).banks = m.banks := rfl
@[simp] theorem Mach.modNv_sync (f : Nvm → Nvm) : (m.modNv f).sync = m.sync := rfl
@[simp] theorem Mach.modNv_gasp (f : Nvm → Nvm) : (m.modNv f).gasp = m.gasp := rfl
@[simp] theorem Mach.modNv_dbgHalt (f : Nvm → Nvm) : (m.modNv f).dbgHalt = m.dbgHalt := rfl
@[simp] theorem Mach.modNv_testInstr (f : Nvm → Nvm) : (m.modNv f).testInstr = m.testInstr := rfl
@[simp] theorem Mach.modNv_ledRon (f : Nvm → Nvm) : (m.modNv f).ledRon = m.ledRon := rfl
@[simp] theorem Mach.modNv_ports (f : Nvm → Nvm) : (m.modNv f).ports = m.ports := rfl
@[simp] theorem Mach.modNv_sf (f : Nvm → Nvm) : (m.modNv f).sf = m.sf := rfl
@[simp] theorem Mach.modNv_fm (f : Nvm → Nvm) : (m.modNv f).fm = m.fm := rfl
@[simp] theorem Mach.modNv_heat (f : Nvm → Nvm) : (m.modNv f).heat = m.heat := rfl
@[simp] theorem Mach.modNv_kn (f : Nvm → Nvm) : (m.modNv f).kn = m.kn := rfl
@[simp] theorem Mach.modNv_otp (f : Nvm → Nvm) : (m.modNv f).otp = m.otp := rfl
@[simp] theorem Mach.modNv_pt (f : Nvm → Nvm) : (m.modNv f).pt = m.pt := rfl
@[simp] theorem Mach.modNv_st (f : Nvm → Nvm) : (m.modNv f).st = m.st := rfl
@[simp] theorem Mach.modNv_hp (f : Nvm → Nvm) : (m.modNv f).hp = m.hp := rfl
@[simp] theorem Mach.modNv_tap (f : Nvm → Nvm) : (m.modNv f).tap = m.tap := rfl

@[simp] theorem Mach.modSf_clk (f : FrontEnd → FrontEnd) : (m.modSf f).clk = m.clk := rfl
@[simp] theorem Mach.modSf_regs (f : FrontEnd → FrontEnd) : (m.modSf f).regs = m.regs := rfl
@[simp] theorem Mach.modSf_staged (f : FrontEnd → FrontEnd) : (m.modSf f).staged = m.staged := rfl
@[simp] theorem Mach.modSf_dram (f : FrontEnd → FrontEnd) : (m.modSf f).dram = m.dram := rfl
@[simp] theorem Mach.modSf_flash (f : FrontEnd → FrontEnd) : (m.modSf f).flash = m.flash := rfl
@[simp] theorem Mach.modSf_inp (f : FrontEnd → FrontEnd) : (m.modSf f).inp = m.inp := rfl
@[simp] theorem Mach.modSf_snapIn (f : FrontEnd → FrontEnd) : (m.modSf f).snapIn = m.snapIn := rfl
@[simp] theorem Mach.modSf_go (f : FrontEnd → FrontEnd) : (m.modSf f).go = m.go := rfl
@[simp] theorem Mach.modSf_goPulse (f : FrontEnd → FrontEnd) : (m.modSf f).goPulse = m.goPulse := rfl
@[simp] theorem Mach.modSf_readData (f : FrontEnd → FrontEnd) : (m.modSf f).readData = m.readData := rfl
@[simp] theorem Mach.modSf_axes (f : FrontEnd → FrontEnd) : (m.modSf f).axes = m.axes := rfl
@[simp] theorem Mach.modSf_queues (f : FrontEnd → FrontEnd) : (m.modSf f).queues = m.queues := rfl
@[simp] theorem Mach.modSf_rings (f : FrontEnd → FrontEnd) : (m.modSf f).rings = m.rings := rfl
@[simp] theorem Mach.modSf_arms (f : FrontEnd → FrontEnd) : (m.modSf f).arms = m.arms := rfl
@[simp] theorem Mach.modSf_vmasters (f : FrontEnd → FrontEnd) : (m.modSf f).vmasters = m.vmasters := rfl
@[simp] theorem Mach.modSf_regchans (f : FrontEnd → FrontEnd) : (m.modSf f).regchans = m.regchans := rfl
@[simp] theorem Mach.modSf_sections (f : FrontEnd → FrontEnd) : (m.modSf f).sections = m.sections := rfl
@[simp] theorem Mach.modSf_coils (f : FrontEnd → FrontEnd) : (m.modSf f).coils = m.coils := rfl
@[simp] theorem Mach.modSf_obs (f : FrontEnd → FrontEnd) : (m.modSf f).obs = m.obs := rfl
@[simp] theorem Mach.modSf_harm (f : FrontEnd → FrontEnd) : (m.modSf f).harm = m.harm := rfl
@[simp] theorem Mach.modSf_comm (f : FrontEnd → FrontEnd) : (m.modSf f).comm = m.comm := rfl
@[simp] theorem Mach.modSf_banks (f : FrontEnd → FrontEnd) : (m.modSf f).banks = m.banks := rfl
@[simp] theorem Mach.modSf_sync (f : FrontEnd → FrontEnd) : (m.modSf f).sync = m.sync := rfl
@[simp] theorem Mach.modSf_gasp (f : FrontEnd → FrontEnd) : (m.modSf f).gasp = m.gasp := rfl
@[simp] theorem Mach.modSf_dbgHalt (f : FrontEnd → FrontEnd) : (m.modSf f).dbgHalt = m.dbgHalt := rfl
@[simp] theorem Mach.modSf_testInstr (f : FrontEnd → FrontEnd) : (m.modSf f).testInstr = m.testInstr := rfl
@[simp] theorem Mach.modSf_ledRon (f : FrontEnd → FrontEnd) : (m.modSf f).ledRon = m.ledRon := rfl
@[simp] theorem Mach.modSf_ports (f : FrontEnd → FrontEnd) : (m.modSf f).ports = m.ports := rfl
@[simp] theorem Mach.modSf_fm (f : FrontEnd → FrontEnd) : (m.modSf f).fm = m.fm := rfl
@[simp] theorem Mach.modSf_heat (f : FrontEnd → FrontEnd) : (m.modSf f).heat = m.heat := rfl
@[simp] theorem Mach.modSf_kn (f : FrontEnd → FrontEnd) : (m.modSf f).kn = m.kn := rfl
@[simp] theorem Mach.modSf_otp (f : FrontEnd → FrontEnd) : (m.modSf f).otp = m.otp := rfl
@[simp] theorem Mach.modSf_nv (f : FrontEnd → FrontEnd) : (m.modSf f).nv = m.nv := rfl
@[simp] theorem Mach.modSf_pt (f : FrontEnd → FrontEnd) : (m.modSf f).pt = m.pt := rfl
@[simp] theorem Mach.modSf_st (f : FrontEnd → FrontEnd) : (m.modSf f).st = m.st := rfl
@[simp] theorem Mach.modSf_hp (f : FrontEnd → FrontEnd) : (m.modSf f).hp = m.hp := rfl
@[simp] theorem Mach.modSf_tap (f : FrontEnd → FrontEnd) : (m.modSf f).tap = m.tap := rfl

@[simp] theorem Mach.modConv_clk (k : Nat) (f : Conv → Conv) : (m.modConv k f).clk = m.clk := rfl
@[simp] theorem Mach.modConv_regs (k : Nat) (f : Conv → Conv) : (m.modConv k f).regs = m.regs := rfl
@[simp] theorem Mach.modConv_staged (k : Nat) (f : Conv → Conv) : (m.modConv k f).staged = m.staged := rfl
@[simp] theorem Mach.modConv_dram (k : Nat) (f : Conv → Conv) : (m.modConv k f).dram = m.dram := rfl
@[simp] theorem Mach.modConv_flash (k : Nat) (f : Conv → Conv) : (m.modConv k f).flash = m.flash := rfl
@[simp] theorem Mach.modConv_inp (k : Nat) (f : Conv → Conv) : (m.modConv k f).inp = m.inp := rfl
@[simp] theorem Mach.modConv_snapIn (k : Nat) (f : Conv → Conv) : (m.modConv k f).snapIn = m.snapIn := rfl
@[simp] theorem Mach.modConv_go (k : Nat) (f : Conv → Conv) : (m.modConv k f).go = m.go := rfl
@[simp] theorem Mach.modConv_goPulse (k : Nat) (f : Conv → Conv) : (m.modConv k f).goPulse = m.goPulse := rfl
@[simp] theorem Mach.modConv_readData (k : Nat) (f : Conv → Conv) : (m.modConv k f).readData = m.readData := rfl
@[simp] theorem Mach.modConv_axes (k : Nat) (f : Conv → Conv) : (m.modConv k f).axes = m.axes := rfl
@[simp] theorem Mach.modConv_queues (k : Nat) (f : Conv → Conv) : (m.modConv k f).queues = m.queues := rfl
@[simp] theorem Mach.modConv_rings (k : Nat) (f : Conv → Conv) : (m.modConv k f).rings = m.rings := rfl
@[simp] theorem Mach.modConv_arms (k : Nat) (f : Conv → Conv) : (m.modConv k f).arms = m.arms := rfl
@[simp] theorem Mach.modConv_vmasters (k : Nat) (f : Conv → Conv) : (m.modConv k f).vmasters = m.vmasters := rfl
@[simp] theorem Mach.modConv_regchans (k : Nat) (f : Conv → Conv) : (m.modConv k f).regchans = m.regchans := rfl
@[simp] theorem Mach.modConv_sections (k : Nat) (f : Conv → Conv) : (m.modConv k f).sections = m.sections := rfl
@[simp] theorem Mach.modConv_coils (k : Nat) (f : Conv → Conv) : (m.modConv k f).coils = m.coils := rfl
@[simp] theorem Mach.modConv_obs (k : Nat) (f : Conv → Conv) : (m.modConv k f).obs = m.obs := rfl
@[simp] theorem Mach.modConv_harm (k : Nat) (f : Conv → Conv) : (m.modConv k f).harm = m.harm := rfl
@[simp] theorem Mach.modConv_comm (k : Nat) (f : Conv → Conv) : (m.modConv k f).comm = m.comm := rfl
@[simp] theorem Mach.modConv_banks (k : Nat) (f : Conv → Conv) : (m.modConv k f).banks = m.banks := rfl
@[simp] theorem Mach.modConv_sync (k : Nat) (f : Conv → Conv) : (m.modConv k f).sync = m.sync := rfl
@[simp] theorem Mach.modConv_gasp (k : Nat) (f : Conv → Conv) : (m.modConv k f).gasp = m.gasp := rfl
@[simp] theorem Mach.modConv_dbgHalt (k : Nat) (f : Conv → Conv) : (m.modConv k f).dbgHalt = m.dbgHalt := rfl
@[simp] theorem Mach.modConv_testInstr (k : Nat) (f : Conv → Conv) : (m.modConv k f).testInstr = m.testInstr := rfl
@[simp] theorem Mach.modConv_ledRon (k : Nat) (f : Conv → Conv) : (m.modConv k f).ledRon = m.ledRon := rfl
@[simp] theorem Mach.modConv_ports (k : Nat) (f : Conv → Conv) : (m.modConv k f).ports = m.ports := rfl
@[simp] theorem Mach.modConv_fm (k : Nat) (f : Conv → Conv) : (m.modConv k f).fm = m.fm := rfl
@[simp] theorem Mach.modConv_heat (k : Nat) (f : Conv → Conv) : (m.modConv k f).heat = m.heat := rfl
@[simp] theorem Mach.modConv_kn (k : Nat) (f : Conv → Conv) : (m.modConv k f).kn = m.kn := rfl
@[simp] theorem Mach.modConv_otp (k : Nat) (f : Conv → Conv) : (m.modConv k f).otp = m.otp := rfl
@[simp] theorem Mach.modConv_nv (k : Nat) (f : Conv → Conv) : (m.modConv k f).nv = m.nv := rfl
@[simp] theorem Mach.modConv_pt (k : Nat) (f : Conv → Conv) : (m.modConv k f).pt = m.pt := rfl
@[simp] theorem Mach.modConv_st (k : Nat) (f : Conv → Conv) : (m.modConv k f).st = m.st := rfl
@[simp] theorem Mach.modConv_hp (k : Nat) (f : Conv → Conv) : (m.modConv k f).hp = m.hp := rfl
@[simp] theorem Mach.modConv_tap (k : Nat) (f : Conv → Conv) : (m.modConv k f).tap = m.tap := rfl

@[simp] theorem Mach.modChan_clk (c : Nat) (f : SfChan → SfChan) : (m.modChan c f).clk = m.clk := rfl
@[simp] theorem Mach.modChan_regs (c : Nat) (f : SfChan → SfChan) : (m.modChan c f).regs = m.regs := rfl
@[simp] theorem Mach.modChan_staged (c : Nat) (f : SfChan → SfChan) : (m.modChan c f).staged = m.staged := rfl
@[simp] theorem Mach.modChan_dram (c : Nat) (f : SfChan → SfChan) : (m.modChan c f).dram = m.dram := rfl
@[simp] theorem Mach.modChan_flash (c : Nat) (f : SfChan → SfChan) : (m.modChan c f).flash = m.flash := rfl
@[simp] theorem Mach.modChan_inp (c : Nat) (f : SfChan → SfChan) : (m.modChan c f).inp = m.inp := rfl
@[simp] theorem Mach.modChan_snapIn (c : Nat) (f : SfChan → SfChan) : (m.modChan c f).snapIn = m.snapIn := rfl
@[simp] theorem Mach.modChan_go (c : Nat) (f : SfChan → SfChan) : (m.modChan c f).go = m.go := rfl
@[simp] theorem Mach.modChan_goPulse (c : Nat) (f : SfChan → SfChan) : (m.modChan c f).goPulse = m.goPulse := rfl
@[simp] theorem Mach.modChan_readData (c : Nat) (f : SfChan → SfChan) : (m.modChan c f).readData = m.readData := rfl
@[simp] theorem Mach.modChan_axes (c : Nat) (f : SfChan → SfChan) : (m.modChan c f).axes = m.axes := rfl
@[simp] theorem Mach.modChan_queues (c : Nat) (f : SfChan → SfChan) : (m.modChan c f).queues = m.queues := rfl
@[simp] theorem Mach.modChan_rings (c : Nat) (f : SfChan → SfChan) : (m.modChan c f).rings = m.rings := rfl
@[simp] theorem Mach.modChan_arms (c : Nat) (f : SfChan → SfChan) : (m.modChan c f).arms = m.arms := rfl
@[simp] theorem Mach.modChan_vmasters (c : Nat) (f : SfChan → SfChan) : (m.modChan c f).vmasters = m.vmasters := rfl
@[simp] theorem Mach.modChan_regchans (c : Nat) (f : SfChan → SfChan) : (m.modChan c f).regchans = m.regchans := rfl
@[simp] theorem Mach.modChan_sections (c : Nat) (f : SfChan → SfChan) : (m.modChan c f).sections = m.sections := rfl
@[simp] theorem Mach.modChan_coils (c : Nat) (f : SfChan → SfChan) : (m.modChan c f).coils = m.coils := rfl
@[simp] theorem Mach.modChan_obs (c : Nat) (f : SfChan → SfChan) : (m.modChan c f).obs = m.obs := rfl
@[simp] theorem Mach.modChan_harm (c : Nat) (f : SfChan → SfChan) : (m.modChan c f).harm = m.harm := rfl
@[simp] theorem Mach.modChan_comm (c : Nat) (f : SfChan → SfChan) : (m.modChan c f).comm = m.comm := rfl
@[simp] theorem Mach.modChan_banks (c : Nat) (f : SfChan → SfChan) : (m.modChan c f).banks = m.banks := rfl
@[simp] theorem Mach.modChan_sync (c : Nat) (f : SfChan → SfChan) : (m.modChan c f).sync = m.sync := rfl
@[simp] theorem Mach.modChan_gasp (c : Nat) (f : SfChan → SfChan) : (m.modChan c f).gasp = m.gasp := rfl
@[simp] theorem Mach.modChan_dbgHalt (c : Nat) (f : SfChan → SfChan) : (m.modChan c f).dbgHalt = m.dbgHalt := rfl
@[simp] theorem Mach.modChan_testInstr (c : Nat) (f : SfChan → SfChan) : (m.modChan c f).testInstr = m.testInstr := rfl
@[simp] theorem Mach.modChan_ledRon (c : Nat) (f : SfChan → SfChan) : (m.modChan c f).ledRon = m.ledRon := rfl
@[simp] theorem Mach.modChan_ports (c : Nat) (f : SfChan → SfChan) : (m.modChan c f).ports = m.ports := rfl
@[simp] theorem Mach.modChan_fm (c : Nat) (f : SfChan → SfChan) : (m.modChan c f).fm = m.fm := rfl
@[simp] theorem Mach.modChan_heat (c : Nat) (f : SfChan → SfChan) : (m.modChan c f).heat = m.heat := rfl
@[simp] theorem Mach.modChan_kn (c : Nat) (f : SfChan → SfChan) : (m.modChan c f).kn = m.kn := rfl
@[simp] theorem Mach.modChan_otp (c : Nat) (f : SfChan → SfChan) : (m.modChan c f).otp = m.otp := rfl
@[simp] theorem Mach.modChan_nv (c : Nat) (f : SfChan → SfChan) : (m.modChan c f).nv = m.nv := rfl
@[simp] theorem Mach.modChan_pt (c : Nat) (f : SfChan → SfChan) : (m.modChan c f).pt = m.pt := rfl
@[simp] theorem Mach.modChan_st (c : Nat) (f : SfChan → SfChan) : (m.modChan c f).st = m.st := rfl
@[simp] theorem Mach.modChan_hp (c : Nat) (f : SfChan → SfChan) : (m.modChan c f).hp = m.hp := rfl
@[simp] theorem Mach.modChan_tap (c : Nat) (f : SfChan → SfChan) : (m.modChan c f).tap = m.tap := rfl

@[simp] theorem Mach.modSt_clk (f : Strata → Strata) : (m.modSt f).clk = m.clk := rfl
@[simp] theorem Mach.modSt_regs (f : Strata → Strata) : (m.modSt f).regs = m.regs := rfl
@[simp] theorem Mach.modSt_staged (f : Strata → Strata) : (m.modSt f).staged = m.staged := rfl
@[simp] theorem Mach.modSt_dram (f : Strata → Strata) : (m.modSt f).dram = m.dram := rfl
@[simp] theorem Mach.modSt_flash (f : Strata → Strata) : (m.modSt f).flash = m.flash := rfl
@[simp] theorem Mach.modSt_inp (f : Strata → Strata) : (m.modSt f).inp = m.inp := rfl
@[simp] theorem Mach.modSt_snapIn (f : Strata → Strata) : (m.modSt f).snapIn = m.snapIn := rfl
@[simp] theorem Mach.modSt_go (f : Strata → Strata) : (m.modSt f).go = m.go := rfl
@[simp] theorem Mach.modSt_goPulse (f : Strata → Strata) : (m.modSt f).goPulse = m.goPulse := rfl
@[simp] theorem Mach.modSt_readData (f : Strata → Strata) : (m.modSt f).readData = m.readData := rfl
@[simp] theorem Mach.modSt_axes (f : Strata → Strata) : (m.modSt f).axes = m.axes := rfl
@[simp] theorem Mach.modSt_queues (f : Strata → Strata) : (m.modSt f).queues = m.queues := rfl
@[simp] theorem Mach.modSt_rings (f : Strata → Strata) : (m.modSt f).rings = m.rings := rfl
@[simp] theorem Mach.modSt_arms (f : Strata → Strata) : (m.modSt f).arms = m.arms := rfl
@[simp] theorem Mach.modSt_vmasters (f : Strata → Strata) : (m.modSt f).vmasters = m.vmasters := rfl
@[simp] theorem Mach.modSt_regchans (f : Strata → Strata) : (m.modSt f).regchans = m.regchans := rfl
@[simp] theorem Mach.modSt_sections (f : Strata → Strata) : (m.modSt f).sections = m.sections := rfl
@[simp] theorem Mach.modSt_coils (f : Strata → Strata) : (m.modSt f).coils = m.coils := rfl
@[simp] theorem Mach.modSt_obs (f : Strata → Strata) : (m.modSt f).obs = m.obs := rfl
@[simp] theorem Mach.modSt_harm (f : Strata → Strata) : (m.modSt f).harm = m.harm := rfl
@[simp] theorem Mach.modSt_comm (f : Strata → Strata) : (m.modSt f).comm = m.comm := rfl
@[simp] theorem Mach.modSt_banks (f : Strata → Strata) : (m.modSt f).banks = m.banks := rfl
@[simp] theorem Mach.modSt_sync (f : Strata → Strata) : (m.modSt f).sync = m.sync := rfl
@[simp] theorem Mach.modSt_gasp (f : Strata → Strata) : (m.modSt f).gasp = m.gasp := rfl
@[simp] theorem Mach.modSt_dbgHalt (f : Strata → Strata) : (m.modSt f).dbgHalt = m.dbgHalt := rfl
@[simp] theorem Mach.modSt_testInstr (f : Strata → Strata) : (m.modSt f).testInstr = m.testInstr := rfl
@[simp] theorem Mach.modSt_ledRon (f : Strata → Strata) : (m.modSt f).ledRon = m.ledRon := rfl
@[simp] theorem Mach.modSt_ports (f : Strata → Strata) : (m.modSt f).ports = m.ports := rfl
@[simp] theorem Mach.modSt_sf (f : Strata → Strata) : (m.modSt f).sf = m.sf := rfl
@[simp] theorem Mach.modSt_fm (f : Strata → Strata) : (m.modSt f).fm = m.fm := rfl
@[simp] theorem Mach.modSt_heat (f : Strata → Strata) : (m.modSt f).heat = m.heat := rfl
@[simp] theorem Mach.modSt_kn (f : Strata → Strata) : (m.modSt f).kn = m.kn := rfl
@[simp] theorem Mach.modSt_otp (f : Strata → Strata) : (m.modSt f).otp = m.otp := rfl
@[simp] theorem Mach.modSt_nv (f : Strata → Strata) : (m.modSt f).nv = m.nv := rfl
@[simp] theorem Mach.modSt_pt (f : Strata → Strata) : (m.modSt f).pt = m.pt := rfl
@[simp] theorem Mach.modSt_hp (f : Strata → Strata) : (m.modSt f).hp = m.hp := rfl
@[simp] theorem Mach.modSt_tap (f : Strata → Strata) : (m.modSt f).tap = m.tap := rfl

@[simp] theorem Mach.modHp_clk (f : HostPort → HostPort) : (m.modHp f).clk = m.clk := rfl
@[simp] theorem Mach.modHp_regs (f : HostPort → HostPort) : (m.modHp f).regs = m.regs := rfl
@[simp] theorem Mach.modHp_staged (f : HostPort → HostPort) : (m.modHp f).staged = m.staged := rfl
@[simp] theorem Mach.modHp_dram (f : HostPort → HostPort) : (m.modHp f).dram = m.dram := rfl
@[simp] theorem Mach.modHp_flash (f : HostPort → HostPort) : (m.modHp f).flash = m.flash := rfl
@[simp] theorem Mach.modHp_inp (f : HostPort → HostPort) : (m.modHp f).inp = m.inp := rfl
@[simp] theorem Mach.modHp_snapIn (f : HostPort → HostPort) : (m.modHp f).snapIn = m.snapIn := rfl
@[simp] theorem Mach.modHp_go (f : HostPort → HostPort) : (m.modHp f).go = m.go := rfl
@[simp] theorem Mach.modHp_goPulse (f : HostPort → HostPort) : (m.modHp f).goPulse = m.goPulse := rfl
@[simp] theorem Mach.modHp_readData (f : HostPort → HostPort) : (m.modHp f).readData = m.readData := rfl
@[simp] theorem Mach.modHp_axes (f : HostPort → HostPort) : (m.modHp f).axes = m.axes := rfl
@[simp] theorem Mach.modHp_queues (f : HostPort → HostPort) : (m.modHp f).queues = m.queues := rfl
@[simp] theorem Mach.modHp_rings (f : HostPort → HostPort) : (m.modHp f).rings = m.rings := rfl
@[simp] theorem Mach.modHp_arms (f : HostPort → HostPort) : (m.modHp f).arms = m.arms := rfl
@[simp] theorem Mach.modHp_vmasters (f : HostPort → HostPort) : (m.modHp f).vmasters = m.vmasters := rfl
@[simp] theorem Mach.modHp_regchans (f : HostPort → HostPort) : (m.modHp f).regchans = m.regchans := rfl
@[simp] theorem Mach.modHp_sections (f : HostPort → HostPort) : (m.modHp f).sections = m.sections := rfl
@[simp] theorem Mach.modHp_coils (f : HostPort → HostPort) : (m.modHp f).coils = m.coils := rfl
@[simp] theorem Mach.modHp_obs (f : HostPort → HostPort) : (m.modHp f).obs = m.obs := rfl
@[simp] theorem Mach.modHp_harm (f : HostPort → HostPort) : (m.modHp f).harm = m.harm := rfl
@[simp] theorem Mach.modHp_comm (f : HostPort → HostPort) : (m.modHp f).comm = m.comm := rfl
@[simp] theorem Mach.modHp_banks (f : HostPort → HostPort) : (m.modHp f).banks = m.banks := rfl
@[simp] theorem Mach.modHp_sync (f : HostPort → HostPort) : (m.modHp f).sync = m.sync := rfl
@[simp] theorem Mach.modHp_gasp (f : HostPort → HostPort) : (m.modHp f).gasp = m.gasp := rfl
@[simp] theorem Mach.modHp_dbgHalt (f : HostPort → HostPort) : (m.modHp f).dbgHalt = m.dbgHalt := rfl
@[simp] theorem Mach.modHp_testInstr (f : HostPort → HostPort) : (m.modHp f).testInstr = m.testInstr := rfl
@[simp] theorem Mach.modHp_ledRon (f : HostPort → HostPort) : (m.modHp f).ledRon = m.ledRon := rfl
@[simp] theorem Mach.modHp_ports (f : HostPort → HostPort) : (m.modHp f).ports = m.ports := rfl
@[simp] theorem Mach.modHp_sf (f : HostPort → HostPort) : (m.modHp f).sf = m.sf := rfl
@[simp] theorem Mach.modHp_fm (f : HostPort → HostPort) : (m.modHp f).fm = m.fm := rfl
@[simp] theorem Mach.modHp_heat (f : HostPort → HostPort) : (m.modHp f).heat = m.heat := rfl
@[simp] theorem Mach.modHp_kn (f : HostPort → HostPort) : (m.modHp f).kn = m.kn := rfl
@[simp] theorem Mach.modHp_otp (f : HostPort → HostPort) : (m.modHp f).otp = m.otp := rfl
@[simp] theorem Mach.modHp_nv (f : HostPort → HostPort) : (m.modHp f).nv = m.nv := rfl
@[simp] theorem Mach.modHp_pt (f : HostPort → HostPort) : (m.modHp f).pt = m.pt := rfl
@[simp] theorem Mach.modHp_st (f : HostPort → HostPort) : (m.modHp f).st = m.st := rfl
@[simp] theorem Mach.modHp_tap (f : HostPort → HostPort) : (m.modHp f).tap = m.tap := rfl

@[simp] theorem Mach.setReg_clk (r : Reg) (i j v : Nat) : (m.setReg r i j v).clk = m.clk := rfl
@[simp] theorem Mach.setReg_staged (r : Reg) (i j v : Nat) : (m.setReg r i j v).staged = m.staged := rfl
@[simp] theorem Mach.setReg_dram (r : Reg) (i j v : Nat) : (m.setReg r i j v).dram = m.dram := rfl
@[simp] theorem Mach.setReg_flash (r : Reg) (i j v : Nat) : (m.setReg r i j v).flash = m.flash := rfl
@[simp] theorem Mach.setReg_inp (r : Reg) (i j v : Nat) : (m.setReg r i j v).inp = m.inp := rfl
@[simp] theorem Mach.setReg_snapIn (r : Reg) (i j v : Nat) : (m.setReg r i j v).snapIn = m.snapIn := rfl
@[simp] theorem Mach.setReg_go (r : Reg) (i j v : Nat) : (m.setReg r i j v).go = m.go := rfl
@[simp] theorem Mach.setReg_goPulse (r : Reg) (i j v : Nat) : (m.setReg r i j v).goPulse = m.goPulse := rfl
@[simp] theorem Mach.setReg_readData (r : Reg) (i j v : Nat) : (m.setReg r i j v).readData = m.readData := rfl
@[simp] theorem Mach.setReg_axes (r : Reg) (i j v : Nat) : (m.setReg r i j v).axes = m.axes := rfl
@[simp] theorem Mach.setReg_queues (r : Reg) (i j v : Nat) : (m.setReg r i j v).queues = m.queues := rfl
@[simp] theorem Mach.setReg_rings (r : Reg) (i j v : Nat) : (m.setReg r i j v).rings = m.rings := rfl
@[simp] theorem Mach.setReg_arms (r : Reg) (i j v : Nat) : (m.setReg r i j v).arms = m.arms := rfl
@[simp] theorem Mach.setReg_vmasters (r : Reg) (i j v : Nat) : (m.setReg r i j v).vmasters = m.vmasters := rfl
@[simp] theorem Mach.setReg_regchans (r : Reg) (i j v : Nat) : (m.setReg r i j v).regchans = m.regchans := rfl
@[simp] theorem Mach.setReg_sections (r : Reg) (i j v : Nat) : (m.setReg r i j v).sections = m.sections := rfl
@[simp] theorem Mach.setReg_coils (r : Reg) (i j v : Nat) : (m.setReg r i j v).coils = m.coils := rfl
@[simp] theorem Mach.setReg_obs (r : Reg) (i j v : Nat) : (m.setReg r i j v).obs = m.obs := rfl
@[simp] theorem Mach.setReg_harm (r : Reg) (i j v : Nat) : (m.setReg r i j v).harm = m.harm := rfl
@[simp] theorem Mach.setReg_comm (r : Reg) (i j v : Nat) : (m.setReg r i j v).comm = m.comm := rfl
@[simp] theorem Mach.setReg_banks (r : Reg) (i j v : Nat) : (m.setReg r i j v).banks = m.banks := rfl
@[simp] theorem Mach.setReg_sync (r : Reg) (i j v : Nat) : (m.setReg r i j v).sync = m.sync := rfl
@[simp] theorem Mach.setReg_gasp (r : Reg) (i j v : Nat) : (m.setReg r i j v).gasp = m.gasp := rfl
@[simp] theorem Mach.setReg_dbgHalt (r : Reg) (i j v : Nat) : (m.setReg r i j v).dbgHalt = m.dbgHalt := rfl
@[simp] theorem Mach.setReg_testInstr (r : Reg) (i j v : Nat) : (m.setReg r i j v).testInstr = m.testInstr := rfl
@[simp] theorem Mach.setReg_ledRon (r : Reg) (i j v : Nat) : (m.setReg r i j v).ledRon = m.ledRon := rfl
@[simp] theorem Mach.setReg_ports (r : Reg) (i j v : Nat) : (m.setReg r i j v).ports = m.ports := rfl
@[simp] theorem Mach.setReg_sf (r : Reg) (i j v : Nat) : (m.setReg r i j v).sf = m.sf := rfl
@[simp] theorem Mach.setReg_fm (r : Reg) (i j v : Nat) : (m.setReg r i j v).fm = m.fm := rfl
@[simp] theorem Mach.setReg_heat (r : Reg) (i j v : Nat) : (m.setReg r i j v).heat = m.heat := rfl
@[simp] theorem Mach.setReg_kn (r : Reg) (i j v : Nat) : (m.setReg r i j v).kn = m.kn := rfl
@[simp] theorem Mach.setReg_otp (r : Reg) (i j v : Nat) : (m.setReg r i j v).otp = m.otp := rfl
@[simp] theorem Mach.setReg_nv (r : Reg) (i j v : Nat) : (m.setReg r i j v).nv = m.nv := rfl
@[simp] theorem Mach.setReg_pt (r : Reg) (i j v : Nat) : (m.setReg r i j v).pt = m.pt := rfl
@[simp] theorem Mach.setReg_st (r : Reg) (i j v : Nat) : (m.setReg r i j v).st = m.st := rfl
@[simp] theorem Mach.setReg_hp (r : Reg) (i j v : Nat) : (m.setReg r i j v).hp = m.hp := rfl
@[simp] theorem Mach.setReg_tap (r : Reg) (i j v : Nat) : (m.setReg r i j v).tap = m.tap := rfl

@[simp] theorem Mach.wr_clk (f : Fld) (v i j : Nat) : (m.wr f v i j).clk = m.clk := rfl
@[simp] theorem Mach.wr_dram (f : Fld) (v i j : Nat) : (m.wr f v i j).dram = m.dram := rfl
@[simp] theorem Mach.wr_flash (f : Fld) (v i j : Nat) : (m.wr f v i j).flash = m.flash := rfl
@[simp] theorem Mach.wr_inp (f : Fld) (v i j : Nat) : (m.wr f v i j).inp = m.inp := rfl
@[simp] theorem Mach.wr_snapIn (f : Fld) (v i j : Nat) : (m.wr f v i j).snapIn = m.snapIn := rfl
@[simp] theorem Mach.wr_go (f : Fld) (v i j : Nat) : (m.wr f v i j).go = m.go := rfl
@[simp] theorem Mach.wr_goPulse (f : Fld) (v i j : Nat) : (m.wr f v i j).goPulse = m.goPulse := rfl
@[simp] theorem Mach.wr_readData (f : Fld) (v i j : Nat) : (m.wr f v i j).readData = m.readData := rfl
@[simp] theorem Mach.wr_axes (f : Fld) (v i j : Nat) : (m.wr f v i j).axes = m.axes := rfl
@[simp] theorem Mach.wr_queues (f : Fld) (v i j : Nat) : (m.wr f v i j).queues = m.queues := rfl
@[simp] theorem Mach.wr_rings (f : Fld) (v i j : Nat) : (m.wr f v i j).rings = m.rings := rfl
@[simp] theorem Mach.wr_arms (f : Fld) (v i j : Nat) : (m.wr f v i j).arms = m.arms := rfl
@[simp] theorem Mach.wr_vmasters (f : Fld) (v i j : Nat) : (m.wr f v i j).vmasters = m.vmasters := rfl
@[simp] theorem Mach.wr_regchans (f : Fld) (v i j : Nat) : (m.wr f v i j).regchans = m.regchans := rfl
@[simp] theorem Mach.wr_sections (f : Fld) (v i j : Nat) : (m.wr f v i j).sections = m.sections := rfl
@[simp] theorem Mach.wr_coils (f : Fld) (v i j : Nat) : (m.wr f v i j).coils = m.coils := rfl
@[simp] theorem Mach.wr_obs (f : Fld) (v i j : Nat) : (m.wr f v i j).obs = m.obs := rfl
@[simp] theorem Mach.wr_harm (f : Fld) (v i j : Nat) : (m.wr f v i j).harm = m.harm := rfl
@[simp] theorem Mach.wr_comm (f : Fld) (v i j : Nat) : (m.wr f v i j).comm = m.comm := rfl
@[simp] theorem Mach.wr_banks (f : Fld) (v i j : Nat) : (m.wr f v i j).banks = m.banks := rfl
@[simp] theorem Mach.wr_sync (f : Fld) (v i j : Nat) : (m.wr f v i j).sync = m.sync := rfl
@[simp] theorem Mach.wr_gasp (f : Fld) (v i j : Nat) : (m.wr f v i j).gasp = m.gasp := rfl
@[simp] theorem Mach.wr_dbgHalt (f : Fld) (v i j : Nat) : (m.wr f v i j).dbgHalt = m.dbgHalt := rfl
@[simp] theorem Mach.wr_testInstr (f : Fld) (v i j : Nat) : (m.wr f v i j).testInstr = m.testInstr := rfl
@[simp] theorem Mach.wr_ledRon (f : Fld) (v i j : Nat) : (m.wr f v i j).ledRon = m.ledRon := rfl
@[simp] theorem Mach.wr_ports (f : Fld) (v i j : Nat) : (m.wr f v i j).ports = m.ports := rfl
@[simp] theorem Mach.wr_sf (f : Fld) (v i j : Nat) : (m.wr f v i j).sf = m.sf := rfl
@[simp] theorem Mach.wr_fm (f : Fld) (v i j : Nat) : (m.wr f v i j).fm = m.fm := rfl
@[simp] theorem Mach.wr_heat (f : Fld) (v i j : Nat) : (m.wr f v i j).heat = m.heat := rfl
@[simp] theorem Mach.wr_kn (f : Fld) (v i j : Nat) : (m.wr f v i j).kn = m.kn := rfl
@[simp] theorem Mach.wr_otp (f : Fld) (v i j : Nat) : (m.wr f v i j).otp = m.otp := rfl
@[simp] theorem Mach.wr_nv (f : Fld) (v i j : Nat) : (m.wr f v i j).nv = m.nv := rfl
@[simp] theorem Mach.wr_pt (f : Fld) (v i j : Nat) : (m.wr f v i j).pt = m.pt := rfl
@[simp] theorem Mach.wr_st (f : Fld) (v i j : Nat) : (m.wr f v i j).st = m.st := rfl
@[simp] theorem Mach.wr_hp (f : Fld) (v i j : Nat) : (m.wr f v i j).hp = m.hp := rfl
@[simp] theorem Mach.wr_tap (f : Fld) (v i j : Nat) : (m.wr f v i j).tap = m.tap := rfl

@[simp] theorem Mach.setBit_clk (f : Fld) (i j : Nat) : (m.setBit f i j).clk = m.clk := rfl
@[simp] theorem Mach.setBit_dram (f : Fld) (i j : Nat) : (m.setBit f i j).dram = m.dram := rfl
@[simp] theorem Mach.setBit_flash (f : Fld) (i j : Nat) : (m.setBit f i j).flash = m.flash := rfl
@[simp] theorem Mach.setBit_inp (f : Fld) (i j : Nat) : (m.setBit f i j).inp = m.inp := rfl
@[simp] theorem Mach.setBit_snapIn (f : Fld) (i j : Nat) : (m.setBit f i j).snapIn = m.snapIn := rfl
@[simp] theorem Mach.setBit_go (f : Fld) (i j : Nat) : (m.setBit f i j).go = m.go := rfl
@[simp] theorem Mach.setBit_goPulse (f : Fld) (i j : Nat) : (m.setBit f i j).goPulse = m.goPulse := rfl
@[simp] theorem Mach.setBit_readData (f : Fld) (i j : Nat) : (m.setBit f i j).readData = m.readData := rfl
@[simp] theorem Mach.setBit_axes (f : Fld) (i j : Nat) : (m.setBit f i j).axes = m.axes := rfl
@[simp] theorem Mach.setBit_queues (f : Fld) (i j : Nat) : (m.setBit f i j).queues = m.queues := rfl
@[simp] theorem Mach.setBit_rings (f : Fld) (i j : Nat) : (m.setBit f i j).rings = m.rings := rfl
@[simp] theorem Mach.setBit_arms (f : Fld) (i j : Nat) : (m.setBit f i j).arms = m.arms := rfl
@[simp] theorem Mach.setBit_vmasters (f : Fld) (i j : Nat) : (m.setBit f i j).vmasters = m.vmasters := rfl
@[simp] theorem Mach.setBit_regchans (f : Fld) (i j : Nat) : (m.setBit f i j).regchans = m.regchans := rfl
@[simp] theorem Mach.setBit_sections (f : Fld) (i j : Nat) : (m.setBit f i j).sections = m.sections := rfl
@[simp] theorem Mach.setBit_coils (f : Fld) (i j : Nat) : (m.setBit f i j).coils = m.coils := rfl
@[simp] theorem Mach.setBit_obs (f : Fld) (i j : Nat) : (m.setBit f i j).obs = m.obs := rfl
@[simp] theorem Mach.setBit_harm (f : Fld) (i j : Nat) : (m.setBit f i j).harm = m.harm := rfl
@[simp] theorem Mach.setBit_comm (f : Fld) (i j : Nat) : (m.setBit f i j).comm = m.comm := rfl
@[simp] theorem Mach.setBit_banks (f : Fld) (i j : Nat) : (m.setBit f i j).banks = m.banks := rfl
@[simp] theorem Mach.setBit_sync (f : Fld) (i j : Nat) : (m.setBit f i j).sync = m.sync := rfl
@[simp] theorem Mach.setBit_gasp (f : Fld) (i j : Nat) : (m.setBit f i j).gasp = m.gasp := rfl
@[simp] theorem Mach.setBit_dbgHalt (f : Fld) (i j : Nat) : (m.setBit f i j).dbgHalt = m.dbgHalt := rfl
@[simp] theorem Mach.setBit_testInstr (f : Fld) (i j : Nat) : (m.setBit f i j).testInstr = m.testInstr := rfl
@[simp] theorem Mach.setBit_ledRon (f : Fld) (i j : Nat) : (m.setBit f i j).ledRon = m.ledRon := rfl
@[simp] theorem Mach.setBit_ports (f : Fld) (i j : Nat) : (m.setBit f i j).ports = m.ports := rfl
@[simp] theorem Mach.setBit_sf (f : Fld) (i j : Nat) : (m.setBit f i j).sf = m.sf := rfl
@[simp] theorem Mach.setBit_fm (f : Fld) (i j : Nat) : (m.setBit f i j).fm = m.fm := rfl
@[simp] theorem Mach.setBit_heat (f : Fld) (i j : Nat) : (m.setBit f i j).heat = m.heat := rfl
@[simp] theorem Mach.setBit_kn (f : Fld) (i j : Nat) : (m.setBit f i j).kn = m.kn := rfl
@[simp] theorem Mach.setBit_otp (f : Fld) (i j : Nat) : (m.setBit f i j).otp = m.otp := rfl
@[simp] theorem Mach.setBit_nv (f : Fld) (i j : Nat) : (m.setBit f i j).nv = m.nv := rfl
@[simp] theorem Mach.setBit_pt (f : Fld) (i j : Nat) : (m.setBit f i j).pt = m.pt := rfl
@[simp] theorem Mach.setBit_st (f : Fld) (i j : Nat) : (m.setBit f i j).st = m.st := rfl
@[simp] theorem Mach.setBit_hp (f : Fld) (i j : Nat) : (m.setBit f i j).hp = m.hp := rfl
@[simp] theorem Mach.setBit_tap (f : Fld) (i j : Nat) : (m.setBit f i j).tap = m.tap := rfl

@[simp] theorem Mach.clrFld_clk (f : Fld) (i j : Nat) : (m.clrFld f i j).clk = m.clk := rfl
@[simp] theorem Mach.clrFld_dram (f : Fld) (i j : Nat) : (m.clrFld f i j).dram = m.dram := rfl
@[simp] theorem Mach.clrFld_flash (f : Fld) (i j : Nat) : (m.clrFld f i j).flash = m.flash := rfl
@[simp] theorem Mach.clrFld_inp (f : Fld) (i j : Nat) : (m.clrFld f i j).inp = m.inp := rfl
@[simp] theorem Mach.clrFld_snapIn (f : Fld) (i j : Nat) : (m.clrFld f i j).snapIn = m.snapIn := rfl
@[simp] theorem Mach.clrFld_go (f : Fld) (i j : Nat) : (m.clrFld f i j).go = m.go := rfl
@[simp] theorem Mach.clrFld_goPulse (f : Fld) (i j : Nat) : (m.clrFld f i j).goPulse = m.goPulse := rfl
@[simp] theorem Mach.clrFld_readData (f : Fld) (i j : Nat) : (m.clrFld f i j).readData = m.readData := rfl
@[simp] theorem Mach.clrFld_axes (f : Fld) (i j : Nat) : (m.clrFld f i j).axes = m.axes := rfl
@[simp] theorem Mach.clrFld_queues (f : Fld) (i j : Nat) : (m.clrFld f i j).queues = m.queues := rfl
@[simp] theorem Mach.clrFld_rings (f : Fld) (i j : Nat) : (m.clrFld f i j).rings = m.rings := rfl
@[simp] theorem Mach.clrFld_arms (f : Fld) (i j : Nat) : (m.clrFld f i j).arms = m.arms := rfl
@[simp] theorem Mach.clrFld_vmasters (f : Fld) (i j : Nat) : (m.clrFld f i j).vmasters = m.vmasters := rfl
@[simp] theorem Mach.clrFld_regchans (f : Fld) (i j : Nat) : (m.clrFld f i j).regchans = m.regchans := rfl
@[simp] theorem Mach.clrFld_sections (f : Fld) (i j : Nat) : (m.clrFld f i j).sections = m.sections := rfl
@[simp] theorem Mach.clrFld_coils (f : Fld) (i j : Nat) : (m.clrFld f i j).coils = m.coils := rfl
@[simp] theorem Mach.clrFld_obs (f : Fld) (i j : Nat) : (m.clrFld f i j).obs = m.obs := rfl
@[simp] theorem Mach.clrFld_harm (f : Fld) (i j : Nat) : (m.clrFld f i j).harm = m.harm := rfl
@[simp] theorem Mach.clrFld_comm (f : Fld) (i j : Nat) : (m.clrFld f i j).comm = m.comm := rfl
@[simp] theorem Mach.clrFld_banks (f : Fld) (i j : Nat) : (m.clrFld f i j).banks = m.banks := rfl
@[simp] theorem Mach.clrFld_sync (f : Fld) (i j : Nat) : (m.clrFld f i j).sync = m.sync := rfl
@[simp] theorem Mach.clrFld_gasp (f : Fld) (i j : Nat) : (m.clrFld f i j).gasp = m.gasp := rfl
@[simp] theorem Mach.clrFld_dbgHalt (f : Fld) (i j : Nat) : (m.clrFld f i j).dbgHalt = m.dbgHalt := rfl
@[simp] theorem Mach.clrFld_testInstr (f : Fld) (i j : Nat) : (m.clrFld f i j).testInstr = m.testInstr := rfl
@[simp] theorem Mach.clrFld_ledRon (f : Fld) (i j : Nat) : (m.clrFld f i j).ledRon = m.ledRon := rfl
@[simp] theorem Mach.clrFld_ports (f : Fld) (i j : Nat) : (m.clrFld f i j).ports = m.ports := rfl
@[simp] theorem Mach.clrFld_sf (f : Fld) (i j : Nat) : (m.clrFld f i j).sf = m.sf := rfl
@[simp] theorem Mach.clrFld_fm (f : Fld) (i j : Nat) : (m.clrFld f i j).fm = m.fm := rfl
@[simp] theorem Mach.clrFld_heat (f : Fld) (i j : Nat) : (m.clrFld f i j).heat = m.heat := rfl
@[simp] theorem Mach.clrFld_kn (f : Fld) (i j : Nat) : (m.clrFld f i j).kn = m.kn := rfl
@[simp] theorem Mach.clrFld_otp (f : Fld) (i j : Nat) : (m.clrFld f i j).otp = m.otp := rfl
@[simp] theorem Mach.clrFld_nv (f : Fld) (i j : Nat) : (m.clrFld f i j).nv = m.nv := rfl
@[simp] theorem Mach.clrFld_pt (f : Fld) (i j : Nat) : (m.clrFld f i j).pt = m.pt := rfl
@[simp] theorem Mach.clrFld_st (f : Fld) (i j : Nat) : (m.clrFld f i j).st = m.st := rfl
@[simp] theorem Mach.clrFld_hp (f : Fld) (i j : Nat) : (m.clrFld f i j).hp = m.hp := rfl
@[simp] theorem Mach.clrFld_tap (f : Fld) (i j : Nat) : (m.clrFld f i j).tap = m.tap := rfl

@[simp] theorem Mach.dramWrite_clk (a n v : Nat) : (m.dramWrite a n v).clk = m.clk := rfl
@[simp] theorem Mach.dramWrite_regs (a n v : Nat) : (m.dramWrite a n v).regs = m.regs := rfl
@[simp] theorem Mach.dramWrite_staged (a n v : Nat) : (m.dramWrite a n v).staged = m.staged := rfl
@[simp] theorem Mach.dramWrite_flash (a n v : Nat) : (m.dramWrite a n v).flash = m.flash := rfl
@[simp] theorem Mach.dramWrite_inp (a n v : Nat) : (m.dramWrite a n v).inp = m.inp := rfl
@[simp] theorem Mach.dramWrite_snapIn (a n v : Nat) : (m.dramWrite a n v).snapIn = m.snapIn := rfl
@[simp] theorem Mach.dramWrite_go (a n v : Nat) : (m.dramWrite a n v).go = m.go := rfl
@[simp] theorem Mach.dramWrite_goPulse (a n v : Nat) : (m.dramWrite a n v).goPulse = m.goPulse := rfl
@[simp] theorem Mach.dramWrite_readData (a n v : Nat) : (m.dramWrite a n v).readData = m.readData := rfl
@[simp] theorem Mach.dramWrite_axes (a n v : Nat) : (m.dramWrite a n v).axes = m.axes := rfl
@[simp] theorem Mach.dramWrite_queues (a n v : Nat) : (m.dramWrite a n v).queues = m.queues := rfl
@[simp] theorem Mach.dramWrite_rings (a n v : Nat) : (m.dramWrite a n v).rings = m.rings := rfl
@[simp] theorem Mach.dramWrite_arms (a n v : Nat) : (m.dramWrite a n v).arms = m.arms := rfl
@[simp] theorem Mach.dramWrite_vmasters (a n v : Nat) : (m.dramWrite a n v).vmasters = m.vmasters := rfl
@[simp] theorem Mach.dramWrite_regchans (a n v : Nat) : (m.dramWrite a n v).regchans = m.regchans := rfl
@[simp] theorem Mach.dramWrite_sections (a n v : Nat) : (m.dramWrite a n v).sections = m.sections := rfl
@[simp] theorem Mach.dramWrite_coils (a n v : Nat) : (m.dramWrite a n v).coils = m.coils := rfl
@[simp] theorem Mach.dramWrite_obs (a n v : Nat) : (m.dramWrite a n v).obs = m.obs := rfl
@[simp] theorem Mach.dramWrite_harm (a n v : Nat) : (m.dramWrite a n v).harm = m.harm := rfl
@[simp] theorem Mach.dramWrite_comm (a n v : Nat) : (m.dramWrite a n v).comm = m.comm := rfl
@[simp] theorem Mach.dramWrite_banks (a n v : Nat) : (m.dramWrite a n v).banks = m.banks := rfl
@[simp] theorem Mach.dramWrite_sync (a n v : Nat) : (m.dramWrite a n v).sync = m.sync := rfl
@[simp] theorem Mach.dramWrite_gasp (a n v : Nat) : (m.dramWrite a n v).gasp = m.gasp := rfl
@[simp] theorem Mach.dramWrite_dbgHalt (a n v : Nat) : (m.dramWrite a n v).dbgHalt = m.dbgHalt := rfl
@[simp] theorem Mach.dramWrite_testInstr (a n v : Nat) : (m.dramWrite a n v).testInstr = m.testInstr := rfl
@[simp] theorem Mach.dramWrite_ledRon (a n v : Nat) : (m.dramWrite a n v).ledRon = m.ledRon := rfl
@[simp] theorem Mach.dramWrite_ports (a n v : Nat) : (m.dramWrite a n v).ports = m.ports := rfl
@[simp] theorem Mach.dramWrite_sf (a n v : Nat) : (m.dramWrite a n v).sf = m.sf := rfl
@[simp] theorem Mach.dramWrite_fm (a n v : Nat) : (m.dramWrite a n v).fm = m.fm := rfl
@[simp] theorem Mach.dramWrite_heat (a n v : Nat) : (m.dramWrite a n v).heat = m.heat := rfl
@[simp] theorem Mach.dramWrite_kn (a n v : Nat) : (m.dramWrite a n v).kn = m.kn := rfl
@[simp] theorem Mach.dramWrite_otp (a n v : Nat) : (m.dramWrite a n v).otp = m.otp := rfl
@[simp] theorem Mach.dramWrite_nv (a n v : Nat) : (m.dramWrite a n v).nv = m.nv := rfl
@[simp] theorem Mach.dramWrite_pt (a n v : Nat) : (m.dramWrite a n v).pt = m.pt := rfl
@[simp] theorem Mach.dramWrite_st (a n v : Nat) : (m.dramWrite a n v).st = m.st := rfl
@[simp] theorem Mach.dramWrite_hp (a n v : Nat) : (m.dramWrite a n v).hp = m.hp := rfl
@[simp] theorem Mach.dramWrite_tap (a n v : Nat) : (m.dramWrite a n v).tap = m.tap := rfl

@[simp] theorem Mach.flashWrite_clk (a n v : Nat) : (m.flashWrite a n v).clk = m.clk := rfl
@[simp] theorem Mach.flashWrite_regs (a n v : Nat) : (m.flashWrite a n v).regs = m.regs := rfl
@[simp] theorem Mach.flashWrite_staged (a n v : Nat) : (m.flashWrite a n v).staged = m.staged := rfl
@[simp] theorem Mach.flashWrite_dram (a n v : Nat) : (m.flashWrite a n v).dram = m.dram := rfl
@[simp] theorem Mach.flashWrite_inp (a n v : Nat) : (m.flashWrite a n v).inp = m.inp := rfl
@[simp] theorem Mach.flashWrite_snapIn (a n v : Nat) : (m.flashWrite a n v).snapIn = m.snapIn := rfl
@[simp] theorem Mach.flashWrite_go (a n v : Nat) : (m.flashWrite a n v).go = m.go := rfl
@[simp] theorem Mach.flashWrite_goPulse (a n v : Nat) : (m.flashWrite a n v).goPulse = m.goPulse := rfl
@[simp] theorem Mach.flashWrite_readData (a n v : Nat) : (m.flashWrite a n v).readData = m.readData := rfl
@[simp] theorem Mach.flashWrite_axes (a n v : Nat) : (m.flashWrite a n v).axes = m.axes := rfl
@[simp] theorem Mach.flashWrite_queues (a n v : Nat) : (m.flashWrite a n v).queues = m.queues := rfl
@[simp] theorem Mach.flashWrite_rings (a n v : Nat) : (m.flashWrite a n v).rings = m.rings := rfl
@[simp] theorem Mach.flashWrite_arms (a n v : Nat) : (m.flashWrite a n v).arms = m.arms := rfl
@[simp] theorem Mach.flashWrite_vmasters (a n v : Nat) : (m.flashWrite a n v).vmasters = m.vmasters := rfl
@[simp] theorem Mach.flashWrite_regchans (a n v : Nat) : (m.flashWrite a n v).regchans = m.regchans := rfl
@[simp] theorem Mach.flashWrite_sections (a n v : Nat) : (m.flashWrite a n v).sections = m.sections := rfl
@[simp] theorem Mach.flashWrite_coils (a n v : Nat) : (m.flashWrite a n v).coils = m.coils := rfl
@[simp] theorem Mach.flashWrite_obs (a n v : Nat) : (m.flashWrite a n v).obs = m.obs := rfl
@[simp] theorem Mach.flashWrite_harm (a n v : Nat) : (m.flashWrite a n v).harm = m.harm := rfl
@[simp] theorem Mach.flashWrite_comm (a n v : Nat) : (m.flashWrite a n v).comm = m.comm := rfl
@[simp] theorem Mach.flashWrite_banks (a n v : Nat) : (m.flashWrite a n v).banks = m.banks := rfl
@[simp] theorem Mach.flashWrite_sync (a n v : Nat) : (m.flashWrite a n v).sync = m.sync := rfl
@[simp] theorem Mach.flashWrite_gasp (a n v : Nat) : (m.flashWrite a n v).gasp = m.gasp := rfl
@[simp] theorem Mach.flashWrite_dbgHalt (a n v : Nat) : (m.flashWrite a n v).dbgHalt = m.dbgHalt := rfl
@[simp] theorem Mach.flashWrite_testInstr (a n v : Nat) : (m.flashWrite a n v).testInstr = m.testInstr := rfl
@[simp] theorem Mach.flashWrite_ledRon (a n v : Nat) : (m.flashWrite a n v).ledRon = m.ledRon := rfl
@[simp] theorem Mach.flashWrite_ports (a n v : Nat) : (m.flashWrite a n v).ports = m.ports := rfl
@[simp] theorem Mach.flashWrite_sf (a n v : Nat) : (m.flashWrite a n v).sf = m.sf := rfl
@[simp] theorem Mach.flashWrite_fm (a n v : Nat) : (m.flashWrite a n v).fm = m.fm := rfl
@[simp] theorem Mach.flashWrite_heat (a n v : Nat) : (m.flashWrite a n v).heat = m.heat := rfl
@[simp] theorem Mach.flashWrite_kn (a n v : Nat) : (m.flashWrite a n v).kn = m.kn := rfl
@[simp] theorem Mach.flashWrite_otp (a n v : Nat) : (m.flashWrite a n v).otp = m.otp := rfl
@[simp] theorem Mach.flashWrite_nv (a n v : Nat) : (m.flashWrite a n v).nv = m.nv := rfl
@[simp] theorem Mach.flashWrite_pt (a n v : Nat) : (m.flashWrite a n v).pt = m.pt := rfl
@[simp] theorem Mach.flashWrite_st (a n v : Nat) : (m.flashWrite a n v).st = m.st := rfl
@[simp] theorem Mach.flashWrite_hp (a n v : Nat) : (m.flashWrite a n v).hp = m.hp := rfl
@[simp] theorem Mach.flashWrite_tap (a n v : Nat) : (m.flashWrite a n v).tap = m.tap := rfl

@[simp] theorem Mach.begin__regs : (m.begin_).regs = m.regs := rfl
@[simp] theorem Mach.begin__staged : (m.begin_).staged = m.staged := rfl
@[simp] theorem Mach.begin__dram : (m.begin_).dram = m.dram := rfl
@[simp] theorem Mach.begin__flash : (m.begin_).flash = m.flash := rfl
@[simp] theorem Mach.begin__inp : (m.begin_).inp = m.inp := rfl
@[simp] theorem Mach.begin__snapIn : (m.begin_).snapIn = m.snapIn := rfl
@[simp] theorem Mach.begin__go : (m.begin_).go = m.go := rfl
@[simp] theorem Mach.begin__goPulse : (m.begin_).goPulse = m.goPulse := rfl
@[simp] theorem Mach.begin__readData : (m.begin_).readData = m.readData := rfl
@[simp] theorem Mach.begin__axes : (m.begin_).axes = m.axes := rfl
@[simp] theorem Mach.begin__queues : (m.begin_).queues = m.queues := rfl
@[simp] theorem Mach.begin__rings : (m.begin_).rings = m.rings := rfl
@[simp] theorem Mach.begin__arms : (m.begin_).arms = m.arms := rfl
@[simp] theorem Mach.begin__vmasters : (m.begin_).vmasters = m.vmasters := rfl
@[simp] theorem Mach.begin__regchans : (m.begin_).regchans = m.regchans := rfl
@[simp] theorem Mach.begin__sections : (m.begin_).sections = m.sections := rfl
@[simp] theorem Mach.begin__coils : (m.begin_).coils = m.coils := rfl
@[simp] theorem Mach.begin__obs : (m.begin_).obs = m.obs := rfl
@[simp] theorem Mach.begin__harm : (m.begin_).harm = m.harm := rfl
@[simp] theorem Mach.begin__comm : (m.begin_).comm = m.comm := rfl
@[simp] theorem Mach.begin__banks : (m.begin_).banks = m.banks := rfl
@[simp] theorem Mach.begin__sync : (m.begin_).sync = m.sync := rfl
@[simp] theorem Mach.begin__gasp : (m.begin_).gasp = m.gasp := rfl
@[simp] theorem Mach.begin__dbgHalt : (m.begin_).dbgHalt = m.dbgHalt := rfl
@[simp] theorem Mach.begin__testInstr : (m.begin_).testInstr = m.testInstr := rfl
@[simp] theorem Mach.begin__ledRon : (m.begin_).ledRon = m.ledRon := rfl
@[simp] theorem Mach.begin__ports : (m.begin_).ports = m.ports := rfl
@[simp] theorem Mach.begin__sf : (m.begin_).sf = m.sf := rfl
@[simp] theorem Mach.begin__fm : (m.begin_).fm = m.fm := rfl
@[simp] theorem Mach.begin__heat : (m.begin_).heat = m.heat := rfl
@[simp] theorem Mach.begin__kn : (m.begin_).kn = m.kn := rfl
@[simp] theorem Mach.begin__otp : (m.begin_).otp = m.otp := rfl
@[simp] theorem Mach.begin__nv : (m.begin_).nv = m.nv := rfl
@[simp] theorem Mach.begin__pt : (m.begin_).pt = m.pt := rfl
@[simp] theorem Mach.begin__st : (m.begin_).st = m.st := rfl
@[simp] theorem Mach.begin__hp : (m.begin_).hp = m.hp := rfl
@[simp] theorem Mach.begin__tap : (m.begin_).tap = m.tap := rfl

/-- The element changed. -/
theorem Mach.ax_modAx_same {n : Nat} (f : Axis → Axis) (h : n < 48) : (m.modAx n f).ax n = f (m.ax n) :=
  vget_vmod_same _ _ _ _ h

/-- Every other element. -/
theorem Mach.ax_modAx_other {n x : Nat} (f : Axis → Axis) (h : x ≠ n) : (m.modAx n f).ax x = m.ax x :=
  vget_vmod_other _ _ _ h

/-- The element changed. -/
theorem Mach.qu_modQ_same {q : Nat} (f : Queue → Queue) (h : q < 64) : (m.modQ q f).qu q = f (m.qu q) :=
  vget_vmod_same _ _ _ _ h

/-- Every other element. -/
theorem Mach.qu_modQ_other {q x : Nat} (f : Queue → Queue) (h : x ≠ q) : (m.modQ q f).qu x = m.qu x :=
  vget_vmod_other _ _ _ h

/-- The element changed. -/
theorem Mach.arm_modArm_same {g : Nat} (f : Arm → Arm) (h : g < 16) : (m.modArm g f).arm g = f (m.arm g) :=
  vget_vmod_same _ _ _ _ h

/-- Every other element. -/
theorem Mach.arm_modArm_other {g x : Nat} (f : Arm → Arm) (h : x ≠ g) : (m.modArm g f).arm x = m.arm x :=
  vget_vmod_other _ _ _ h

/-- The element changed. -/
theorem Mach.coil_modCoil_same {k : Nat} (f : Coil → Coil) (h : k < 96) : (m.modCoil k f).coil k = f (m.coil k) :=
  vget_vmod_same _ _ _ _ h

/-- Every other element. -/
theorem Mach.coil_modCoil_other {k x : Nat} (f : Coil → Coil) (h : x ≠ k) : (m.modCoil k f).coil x = m.coil x :=
  vget_vmod_other _ _ _ h

/-- The element changed. -/
theorem Mach.ob_modOb_same {n : Nat} (f : Obs → Obs) (h : n < 48) : (m.modOb n f).ob n = f (m.ob n) :=
  vget_vmod_same _ _ _ _ h

/-- Every other element. -/
theorem Mach.ob_modOb_other {n x : Nat} (f : Obs → Obs) (h : x ≠ n) : (m.modOb n f).ob x = m.ob x :=
  vget_vmod_other _ _ _ h

/-- The element changed. -/
theorem Mach.bank_modBank_same {b : Nat} (f : Bank → Bank) (h : b < 4) : (m.modBank b f).bank b = f (m.bank b) :=
  vget_vmod_same _ _ _ _ h

/-- Every other element. -/
theorem Mach.bank_modBank_other {b x : Nat} (f : Bank → Bank) (h : x ≠ b) : (m.modBank b f).bank x = m.bank x :=
  vget_vmod_other _ _ _ h

/-- The element changed. -/
theorem Mach.port_modPort_same {p : Nat} (f : Port → Port) (h : p < 12) : (m.modPort p f).port p = f (m.port p) :=
  vget_vmod_same _ _ _ _ h

/-- Every other element. -/
theorem Mach.port_modPort_other {p x : Nat} (f : Port → Port) (h : x ≠ p) : (m.modPort p f).port x = m.port x :=
  vget_vmod_other _ _ _ h

/-- The element changed. -/
theorem Mach.regch_modRegch_same {r : Nat} (f : RegChan → RegChan) (h : r < 4) : (m.modRegch r f).regch r = f (m.regch r) :=
  vget_vmod_same _ _ _ _ h

/-- Every other element. -/
theorem Mach.regch_modRegch_other {r x : Nat} (f : RegChan → RegChan) (h : x ≠ r) : (m.modRegch r f).regch x = m.regch x :=
  vget_vmod_other _ _ _ h

@[simp] theorem Mach.modKn_kn (f : Kiln → Kiln) : (m.modKn f).kn = f m.kn := rfl
@[simp] theorem Mach.modFm_fm (f : FaultMask → FaultMask) : (m.modFm f).fm = f m.fm := rfl
@[simp] theorem Mach.modNv_nv (f : Nvm → Nvm) : (m.modNv f).nv = f m.nv := rfl
@[simp] theorem Mach.modSf_sf (f : FrontEnd → FrontEnd) : (m.modSf f).sf = f m.sf := rfl
@[simp] theorem Mach.modSt_st (f : Strata → Strata) : (m.modSt f).st = f m.st := rfl
@[simp] theorem Mach.modHp_hp (f : HostPort → HostPort) : (m.modHp f).hp = f m.hp := rfl

/-! ### An event is posted -/

/-- A bit set under a condition changes registers only. -/
theorem Mach.when_setBit_eq (c : Bool) (f : Fld) (i j : Nat) :
    ∃ r s, (m.when c fun m => m.setBit f i j) = { m with regs := r, staged := s } := by
  unfold Mach.when
  split
  · exact ⟨_, _, rfl⟩
  · exact ⟨m.regs, m.staged, rfl⟩

/-- An event that enters the ring changes the rings, the DRAM mirror and the interrupt flags. -/
theorem Mach.enterEvt_eq (c o d ts : Nat) :
    ∃ r s dr rs, m.enterEvt c o d ts = { m with regs := r, staged := s, dram := dr, rings := rs } := by
  unfold Mach.enterEvt
  obtain ⟨r2, s2, h2⟩ := Mach.when_setBit_eq (({ m with rings := m.rings.pushEvt (eventWord c o ts d) } : Mach).dramWrite
    (0x04000000 + 16 * (m.rings.evtMwr % 65536)) 16 (eventWord c o ts d).toNat) m.rings.evtFull F.Q_IRQ_EVT_LOST 0 0
  dsimp only
  rw [h2]
  obtain ⟨r3, s3, h3⟩ := Mach.when_setBit_eq ({ (({ m with rings := m.rings.pushEvt (eventWord c o ts d) } : Mach).dramWrite
    (0x04000000 + 16 * (m.rings.evtMwr % 65536)) 16 (eventWord c o ts d).toNat) with regs := r2, staged := s2 } : Mach) _ F.Q_IRQ_EVT 0 0
  exact ⟨r3, s3, _, _, h3⟩

@[simp] theorem Mach.enterEvt_clk (c o d ts : Nat) : (m.enterEvt c o d ts).clk = m.clk := by
  obtain ⟨_, _, _, _, h⟩ := Mach.enterEvt_eq m c o d ts
  rw [h]
@[simp] theorem Mach.enterEvt_flash (c o d ts : Nat) : (m.enterEvt c o d ts).flash = m.flash := by
  obtain ⟨_, _, _, _, h⟩ := Mach.enterEvt_eq m c o d ts
  rw [h]
@[simp] theorem Mach.enterEvt_inp (c o d ts : Nat) : (m.enterEvt c o d ts).inp = m.inp := by
  obtain ⟨_, _, _, _, h⟩ := Mach.enterEvt_eq m c o d ts
  rw [h]
@[simp] theorem Mach.enterEvt_snapIn (c o d ts : Nat) : (m.enterEvt c o d ts).snapIn = m.snapIn := by
  obtain ⟨_, _, _, _, h⟩ := Mach.enterEvt_eq m c o d ts
  rw [h]
@[simp] theorem Mach.enterEvt_go (c o d ts : Nat) : (m.enterEvt c o d ts).go = m.go := by
  obtain ⟨_, _, _, _, h⟩ := Mach.enterEvt_eq m c o d ts
  rw [h]
@[simp] theorem Mach.enterEvt_goPulse (c o d ts : Nat) : (m.enterEvt c o d ts).goPulse = m.goPulse := by
  obtain ⟨_, _, _, _, h⟩ := Mach.enterEvt_eq m c o d ts
  rw [h]
@[simp] theorem Mach.enterEvt_readData (c o d ts : Nat) : (m.enterEvt c o d ts).readData = m.readData := by
  obtain ⟨_, _, _, _, h⟩ := Mach.enterEvt_eq m c o d ts
  rw [h]
@[simp] theorem Mach.enterEvt_axes (c o d ts : Nat) : (m.enterEvt c o d ts).axes = m.axes := by
  obtain ⟨_, _, _, _, h⟩ := Mach.enterEvt_eq m c o d ts
  rw [h]
@[simp] theorem Mach.enterEvt_queues (c o d ts : Nat) : (m.enterEvt c o d ts).queues = m.queues := by
  obtain ⟨_, _, _, _, h⟩ := Mach.enterEvt_eq m c o d ts
  rw [h]
@[simp] theorem Mach.enterEvt_arms (c o d ts : Nat) : (m.enterEvt c o d ts).arms = m.arms := by
  obtain ⟨_, _, _, _, h⟩ := Mach.enterEvt_eq m c o d ts
  rw [h]
@[simp] theorem Mach.enterEvt_vmasters (c o d ts : Nat) : (m.enterEvt c o d ts).vmasters = m.vmasters := by
  obtain ⟨_, _, _, _, h⟩ := Mach.enterEvt_eq m c o d ts
  rw [h]
@[simp] theorem Mach.enterEvt_regchans (c o d ts : Nat) : (m.enterEvt c o d ts).regchans = m.regchans := by
  obtain ⟨_, _, _, _, h⟩ := Mach.enterEvt_eq m c o d ts
  rw [h]
@[simp] theorem Mach.enterEvt_sections (c o d ts : Nat) : (m.enterEvt c o d ts).sections = m.sections := by
  obtain ⟨_, _, _, _, h⟩ := Mach.enterEvt_eq m c o d ts
  rw [h]
@[simp] theorem Mach.enterEvt_coils (c o d ts : Nat) : (m.enterEvt c o d ts).coils = m.coils := by
  obtain ⟨_, _, _, _, h⟩ := Mach.enterEvt_eq m c o d ts
  rw [h]
@[simp] theorem Mach.enterEvt_obs (c o d ts : Nat) : (m.enterEvt c o d ts).obs = m.obs := by
  obtain ⟨_, _, _, _, h⟩ := Mach.enterEvt_eq m c o d ts
  rw [h]
@[simp] theorem Mach.enterEvt_harm (c o d ts : Nat) : (m.enterEvt c o d ts).harm = m.harm := by
  obtain ⟨_, _, _, _, h⟩ := Mach.enterEvt_eq m c o d ts
  rw [h]
@[simp] theorem Mach.enterEvt_comm (c o d ts : Nat) : (m.enterEvt c o d ts).comm = m.comm := by
  obtain ⟨_, _, _, _, h⟩ := Mach.enterEvt_eq m c o d ts
  rw [h]
@[simp] theorem Mach.enterEvt_banks (c o d ts : Nat) : (m.enterEvt c o d ts).banks = m.banks := by
  obtain ⟨_, _, _, _, h⟩ := Mach.enterEvt_eq m c o d ts
  rw [h]
@[simp] theorem Mach.enterEvt_sync (c o d ts : Nat) : (m.enterEvt c o d ts).sync = m.sync := by
  obtain ⟨_, _, _, _, h⟩ := Mach.enterEvt_eq m c o d ts
  rw [h]
@[simp] theorem Mach.enterEvt_gasp (c o d ts : Nat) : (m.enterEvt c o d ts).gasp = m.gasp := by
  obtain ⟨_, _, _, _, h⟩ := Mach.enterEvt_eq m c o d ts
  rw [h]
@[simp] theorem Mach.enterEvt_dbgHalt (c o d ts : Nat) : (m.enterEvt c o d ts).dbgHalt = m.dbgHalt := by
  obtain ⟨_, _, _, _, h⟩ := Mach.enterEvt_eq m c o d ts
  rw [h]
@[simp] theorem Mach.enterEvt_testInstr (c o d ts : Nat) : (m.enterEvt c o d ts).testInstr = m.testInstr := by
  obtain ⟨_, _, _, _, h⟩ := Mach.enterEvt_eq m c o d ts
  rw [h]
@[simp] theorem Mach.enterEvt_ledRon (c o d ts : Nat) : (m.enterEvt c o d ts).ledRon = m.ledRon := by
  obtain ⟨_, _, _, _, h⟩ := Mach.enterEvt_eq m c o d ts
  rw [h]
@[simp] theorem Mach.enterEvt_ports (c o d ts : Nat) : (m.enterEvt c o d ts).ports = m.ports := by
  obtain ⟨_, _, _, _, h⟩ := Mach.enterEvt_eq m c o d ts
  rw [h]
@[simp] theorem Mach.enterEvt_sf (c o d ts : Nat) : (m.enterEvt c o d ts).sf = m.sf := by
  obtain ⟨_, _, _, _, h⟩ := Mach.enterEvt_eq m c o d ts
  rw [h]
@[simp] theorem Mach.enterEvt_fm (c o d ts : Nat) : (m.enterEvt c o d ts).fm = m.fm := by
  obtain ⟨_, _, _, _, h⟩ := Mach.enterEvt_eq m c o d ts
  rw [h]
@[simp] theorem Mach.enterEvt_heat (c o d ts : Nat) : (m.enterEvt c o d ts).heat = m.heat := by
  obtain ⟨_, _, _, _, h⟩ := Mach.enterEvt_eq m c o d ts
  rw [h]
@[simp] theorem Mach.enterEvt_otp (c o d ts : Nat) : (m.enterEvt c o d ts).otp = m.otp := by
  obtain ⟨_, _, _, _, h⟩ := Mach.enterEvt_eq m c o d ts
  rw [h]
@[simp] theorem Mach.enterEvt_nv (c o d ts : Nat) : (m.enterEvt c o d ts).nv = m.nv := by
  obtain ⟨_, _, _, _, h⟩ := Mach.enterEvt_eq m c o d ts
  rw [h]
@[simp] theorem Mach.enterEvt_pt (c o d ts : Nat) : (m.enterEvt c o d ts).pt = m.pt := by
  obtain ⟨_, _, _, _, h⟩ := Mach.enterEvt_eq m c o d ts
  rw [h]
@[simp] theorem Mach.enterEvt_st (c o d ts : Nat) : (m.enterEvt c o d ts).st = m.st := by
  obtain ⟨_, _, _, _, h⟩ := Mach.enterEvt_eq m c o d ts
  rw [h]
@[simp] theorem Mach.enterEvt_hp (c o d ts : Nat) : (m.enterEvt c o d ts).hp = m.hp := by
  obtain ⟨_, _, _, _, h⟩ := Mach.enterEvt_eq m c o d ts
  rw [h]
@[simp] theorem Mach.enterEvt_tap (c o d ts : Nat) : (m.enterEvt c o d ts).tap = m.tap := by
  obtain ⟨_, _, _, _, h⟩ := Mach.enterEvt_eq m c o d ts
  rw [h]
@[simp] theorem Mach.enterEvt_kn (c o d ts : Nat) : (m.enterEvt c o d ts).kn = m.kn := by
  obtain ⟨_, _, _, _, h⟩ := Mach.enterEvt_eq m c o d ts
  rw [h]
@[simp] theorem Mach.postAt_clk (c o d ts : Nat) : (m.postAt c o d ts).clk = m.clk := by
  unfold Mach.postAt
  split
  · rfl
  · exact Mach.enterEvt_clk m c o d ts
@[simp] theorem Mach.post_clk (c o d : Nat) : (m.post c o d).clk = m.clk := Mach.postAt_clk m c o d _
@[simp] theorem Mach.postAt_flash (c o d ts : Nat) : (m.postAt c o d ts).flash = m.flash := by
  unfold Mach.postAt
  split
  · rfl
  · exact Mach.enterEvt_flash m c o d ts
@[simp] theorem Mach.post_flash (c o d : Nat) : (m.post c o d).flash = m.flash := Mach.postAt_flash m c o d _
@[simp] theorem Mach.postAt_inp (c o d ts : Nat) : (m.postAt c o d ts).inp = m.inp := by
  unfold Mach.postAt
  split
  · rfl
  · exact Mach.enterEvt_inp m c o d ts
@[simp] theorem Mach.post_inp (c o d : Nat) : (m.post c o d).inp = m.inp := Mach.postAt_inp m c o d _
@[simp] theorem Mach.postAt_snapIn (c o d ts : Nat) : (m.postAt c o d ts).snapIn = m.snapIn := by
  unfold Mach.postAt
  split
  · rfl
  · exact Mach.enterEvt_snapIn m c o d ts
@[simp] theorem Mach.post_snapIn (c o d : Nat) : (m.post c o d).snapIn = m.snapIn := Mach.postAt_snapIn m c o d _
@[simp] theorem Mach.postAt_go (c o d ts : Nat) : (m.postAt c o d ts).go = m.go := by
  unfold Mach.postAt
  split
  · rfl
  · exact Mach.enterEvt_go m c o d ts
@[simp] theorem Mach.post_go (c o d : Nat) : (m.post c o d).go = m.go := Mach.postAt_go m c o d _
@[simp] theorem Mach.postAt_goPulse (c o d ts : Nat) : (m.postAt c o d ts).goPulse = m.goPulse := by
  unfold Mach.postAt
  split
  · rfl
  · exact Mach.enterEvt_goPulse m c o d ts
@[simp] theorem Mach.post_goPulse (c o d : Nat) : (m.post c o d).goPulse = m.goPulse := Mach.postAt_goPulse m c o d _
@[simp] theorem Mach.postAt_readData (c o d ts : Nat) : (m.postAt c o d ts).readData = m.readData := by
  unfold Mach.postAt
  split
  · rfl
  · exact Mach.enterEvt_readData m c o d ts
@[simp] theorem Mach.post_readData (c o d : Nat) : (m.post c o d).readData = m.readData := Mach.postAt_readData m c o d _
@[simp] theorem Mach.postAt_axes (c o d ts : Nat) : (m.postAt c o d ts).axes = m.axes := by
  unfold Mach.postAt
  split
  · rfl
  · exact Mach.enterEvt_axes m c o d ts
@[simp] theorem Mach.post_axes (c o d : Nat) : (m.post c o d).axes = m.axes := Mach.postAt_axes m c o d _
@[simp] theorem Mach.postAt_queues (c o d ts : Nat) : (m.postAt c o d ts).queues = m.queues := by
  unfold Mach.postAt
  split
  · rfl
  · exact Mach.enterEvt_queues m c o d ts
@[simp] theorem Mach.post_queues (c o d : Nat) : (m.post c o d).queues = m.queues := Mach.postAt_queues m c o d _
@[simp] theorem Mach.postAt_arms (c o d ts : Nat) : (m.postAt c o d ts).arms = m.arms := by
  unfold Mach.postAt
  split
  · rfl
  · exact Mach.enterEvt_arms m c o d ts
@[simp] theorem Mach.post_arms (c o d : Nat) : (m.post c o d).arms = m.arms := Mach.postAt_arms m c o d _
@[simp] theorem Mach.postAt_vmasters (c o d ts : Nat) : (m.postAt c o d ts).vmasters = m.vmasters := by
  unfold Mach.postAt
  split
  · rfl
  · exact Mach.enterEvt_vmasters m c o d ts
@[simp] theorem Mach.post_vmasters (c o d : Nat) : (m.post c o d).vmasters = m.vmasters := Mach.postAt_vmasters m c o d _
@[simp] theorem Mach.postAt_regchans (c o d ts : Nat) : (m.postAt c o d ts).regchans = m.regchans := by
  unfold Mach.postAt
  split
  · rfl
  · exact Mach.enterEvt_regchans m c o d ts
@[simp] theorem Mach.post_regchans (c o d : Nat) : (m.post c o d).regchans = m.regchans := Mach.postAt_regchans m c o d _
@[simp] theorem Mach.postAt_sections (c o d ts : Nat) : (m.postAt c o d ts).sections = m.sections := by
  unfold Mach.postAt
  split
  · rfl
  · exact Mach.enterEvt_sections m c o d ts
@[simp] theorem Mach.post_sections (c o d : Nat) : (m.post c o d).sections = m.sections := Mach.postAt_sections m c o d _
@[simp] theorem Mach.postAt_coils (c o d ts : Nat) : (m.postAt c o d ts).coils = m.coils := by
  unfold Mach.postAt
  split
  · rfl
  · exact Mach.enterEvt_coils m c o d ts
@[simp] theorem Mach.post_coils (c o d : Nat) : (m.post c o d).coils = m.coils := Mach.postAt_coils m c o d _
@[simp] theorem Mach.postAt_obs (c o d ts : Nat) : (m.postAt c o d ts).obs = m.obs := by
  unfold Mach.postAt
  split
  · rfl
  · exact Mach.enterEvt_obs m c o d ts
@[simp] theorem Mach.post_obs (c o d : Nat) : (m.post c o d).obs = m.obs := Mach.postAt_obs m c o d _
@[simp] theorem Mach.postAt_harm (c o d ts : Nat) : (m.postAt c o d ts).harm = m.harm := by
  unfold Mach.postAt
  split
  · rfl
  · exact Mach.enterEvt_harm m c o d ts
@[simp] theorem Mach.post_harm (c o d : Nat) : (m.post c o d).harm = m.harm := Mach.postAt_harm m c o d _
@[simp] theorem Mach.postAt_comm (c o d ts : Nat) : (m.postAt c o d ts).comm = m.comm := by
  unfold Mach.postAt
  split
  · rfl
  · exact Mach.enterEvt_comm m c o d ts
@[simp] theorem Mach.post_comm (c o d : Nat) : (m.post c o d).comm = m.comm := Mach.postAt_comm m c o d _
@[simp] theorem Mach.postAt_banks (c o d ts : Nat) : (m.postAt c o d ts).banks = m.banks := by
  unfold Mach.postAt
  split
  · rfl
  · exact Mach.enterEvt_banks m c o d ts
@[simp] theorem Mach.post_banks (c o d : Nat) : (m.post c o d).banks = m.banks := Mach.postAt_banks m c o d _
@[simp] theorem Mach.postAt_sync (c o d ts : Nat) : (m.postAt c o d ts).sync = m.sync := by
  unfold Mach.postAt
  split
  · rfl
  · exact Mach.enterEvt_sync m c o d ts
@[simp] theorem Mach.post_sync (c o d : Nat) : (m.post c o d).sync = m.sync := Mach.postAt_sync m c o d _
@[simp] theorem Mach.postAt_gasp (c o d ts : Nat) : (m.postAt c o d ts).gasp = m.gasp := by
  unfold Mach.postAt
  split
  · rfl
  · exact Mach.enterEvt_gasp m c o d ts
@[simp] theorem Mach.post_gasp (c o d : Nat) : (m.post c o d).gasp = m.gasp := Mach.postAt_gasp m c o d _
@[simp] theorem Mach.postAt_dbgHalt (c o d ts : Nat) : (m.postAt c o d ts).dbgHalt = m.dbgHalt := by
  unfold Mach.postAt
  split
  · rfl
  · exact Mach.enterEvt_dbgHalt m c o d ts
@[simp] theorem Mach.post_dbgHalt (c o d : Nat) : (m.post c o d).dbgHalt = m.dbgHalt := Mach.postAt_dbgHalt m c o d _
@[simp] theorem Mach.postAt_testInstr (c o d ts : Nat) : (m.postAt c o d ts).testInstr = m.testInstr := by
  unfold Mach.postAt
  split
  · rfl
  · exact Mach.enterEvt_testInstr m c o d ts
@[simp] theorem Mach.post_testInstr (c o d : Nat) : (m.post c o d).testInstr = m.testInstr := Mach.postAt_testInstr m c o d _
@[simp] theorem Mach.postAt_ledRon (c o d ts : Nat) : (m.postAt c o d ts).ledRon = m.ledRon := by
  unfold Mach.postAt
  split
  · rfl
  · exact Mach.enterEvt_ledRon m c o d ts
@[simp] theorem Mach.post_ledRon (c o d : Nat) : (m.post c o d).ledRon = m.ledRon := Mach.postAt_ledRon m c o d _
@[simp] theorem Mach.postAt_ports (c o d ts : Nat) : (m.postAt c o d ts).ports = m.ports := by
  unfold Mach.postAt
  split
  · rfl
  · exact Mach.enterEvt_ports m c o d ts
@[simp] theorem Mach.post_ports (c o d : Nat) : (m.post c o d).ports = m.ports := Mach.postAt_ports m c o d _
@[simp] theorem Mach.postAt_sf (c o d ts : Nat) : (m.postAt c o d ts).sf = m.sf := by
  unfold Mach.postAt
  split
  · rfl
  · exact Mach.enterEvt_sf m c o d ts
@[simp] theorem Mach.post_sf (c o d : Nat) : (m.post c o d).sf = m.sf := Mach.postAt_sf m c o d _
@[simp] theorem Mach.postAt_fm (c o d ts : Nat) : (m.postAt c o d ts).fm = m.fm := by
  unfold Mach.postAt
  split
  · rfl
  · exact Mach.enterEvt_fm m c o d ts
@[simp] theorem Mach.post_fm (c o d : Nat) : (m.post c o d).fm = m.fm := Mach.postAt_fm m c o d _
@[simp] theorem Mach.postAt_heat (c o d ts : Nat) : (m.postAt c o d ts).heat = m.heat := by
  unfold Mach.postAt
  split
  · rfl
  · exact Mach.enterEvt_heat m c o d ts
@[simp] theorem Mach.post_heat (c o d : Nat) : (m.post c o d).heat = m.heat := Mach.postAt_heat m c o d _
@[simp] theorem Mach.postAt_otp (c o d ts : Nat) : (m.postAt c o d ts).otp = m.otp := by
  unfold Mach.postAt
  split
  · rfl
  · exact Mach.enterEvt_otp m c o d ts
@[simp] theorem Mach.post_otp (c o d : Nat) : (m.post c o d).otp = m.otp := Mach.postAt_otp m c o d _
@[simp] theorem Mach.postAt_nv (c o d ts : Nat) : (m.postAt c o d ts).nv = m.nv := by
  unfold Mach.postAt
  split
  · rfl
  · exact Mach.enterEvt_nv m c o d ts
@[simp] theorem Mach.post_nv (c o d : Nat) : (m.post c o d).nv = m.nv := Mach.postAt_nv m c o d _
@[simp] theorem Mach.postAt_pt (c o d ts : Nat) : (m.postAt c o d ts).pt = m.pt := by
  unfold Mach.postAt
  split
  · rfl
  · exact Mach.enterEvt_pt m c o d ts
@[simp] theorem Mach.post_pt (c o d : Nat) : (m.post c o d).pt = m.pt := Mach.postAt_pt m c o d _
@[simp] theorem Mach.postAt_st (c o d ts : Nat) : (m.postAt c o d ts).st = m.st := by
  unfold Mach.postAt
  split
  · rfl
  · exact Mach.enterEvt_st m c o d ts
@[simp] theorem Mach.post_st (c o d : Nat) : (m.post c o d).st = m.st := Mach.postAt_st m c o d _
@[simp] theorem Mach.postAt_hp (c o d ts : Nat) : (m.postAt c o d ts).hp = m.hp := by
  unfold Mach.postAt
  split
  · rfl
  · exact Mach.enterEvt_hp m c o d ts
@[simp] theorem Mach.post_hp (c o d : Nat) : (m.post c o d).hp = m.hp := Mach.postAt_hp m c o d _
@[simp] theorem Mach.postAt_tap (c o d ts : Nat) : (m.postAt c o d ts).tap = m.tap := by
  unfold Mach.postAt
  split
  · rfl
  · exact Mach.enterEvt_tap m c o d ts
@[simp] theorem Mach.post_tap (c o d : Nat) : (m.post c o d).tap = m.tap := Mach.postAt_tap m c o d _

/-- An event that waits for RUN changes nothing of the kiln but the list of such events. -/
theorem Mach.postAt_kn (c o d ts : Nat) : ∃ l, (m.postAt c o d ts).kn = { m.kn with raised := l } := by
  unfold Mach.postAt
  split
  · exact ⟨_, rfl⟩
  · exact ⟨m.kn.raised, Mach.enterEvt_kn m c o d ts⟩

@[simp] theorem Mach.post_kn_phase (c o d : Nat) : (m.post c o d).kn.phase = m.kn.phase := by
  obtain ⟨l, h⟩ := Mach.postAt_kn m c o d m.stamp
  rw [Mach.post, h]
@[simp] theorem Mach.post_kn_vauxGood (c o d : Nat) : (m.post c o d).kn.vauxGood = m.kn.vauxGood := by
  obtain ⟨l, h⟩ := Mach.postAt_kn m c o d m.stamp
  rw [Mach.post, h]
@[simp] theorem Mach.post_kn_rstLow (c o d : Nat) : (m.post c o d).kn.rstLow = m.kn.rstLow := by
  obtain ⟨l, h⟩ := Mach.postAt_kn m c o d m.stamp
  rw [Mach.post, h]
@[simp] theorem Mach.post_kn_begun (c o d : Nat) : (m.post c o d).kn.begun = m.kn.begun := by
  obtain ⟨l, h⟩ := Mach.postAt_kn m c o d m.stamp
  rw [Mach.post, h]
@[simp] theorem Mach.post_kn_vhold (c o d : Nat) : (m.post c o d).kn.vhold = m.kn.vhold := by
  obtain ⟨l, h⟩ := Mach.postAt_kn m c o d m.stamp
  rw [Mach.post, h]
@[simp] theorem Mach.post_kn_mirror (c o d : Nat) : (m.post c o d).kn.mirror = m.kn.mirror := by
  obtain ⟨l, h⟩ := Mach.postAt_kn m c o d m.stamp
  rw [Mach.post, h]
@[simp] theorem Mach.post_kn_units (c o d : Nat) : (m.post c o d).kn.units = m.kn.units := by
  obtain ⟨l, h⟩ := Mach.postAt_kn m c o d m.stamp
  rw [Mach.post, h]
@[simp] theorem Mach.post_kn_slowKept (c o d : Nat) : (m.post c o d).kn.slowKept = m.kn.slowKept := by
  obtain ⟨l, h⟩ := Mach.postAt_kn m c o d m.stamp
  rw [Mach.post, h]
@[simp] theorem Mach.post_kn_trigger (c o d : Nat) : (m.post c o d).kn.trigger = m.kn.trigger := by
  obtain ⟨l, h⟩ := Mach.postAt_kn m c o d m.stamp
  rw [Mach.post, h]
@[simp] theorem Mach.post_kn_step (c o d : Nat) : (m.post c o d).kn.step = m.kn.step := by
  obtain ⟨l, h⟩ := Mach.postAt_kn m c o d m.stamp
  rw [Mach.post, h]
@[simp] theorem Mach.post_kn_done (c o d : Nat) : (m.post c o d).kn.done = m.kn.done := by
  obtain ⟨l, h⟩ := Mach.postAt_kn m c o d m.stamp
  rw [Mach.post, h]
@[simp] theorem Mach.post_kn_log (c o d : Nat) : (m.post c o d).kn.log = m.kn.log := by
  obtain ⟨l, h⟩ := Mach.postAt_kn m c o d m.stamp
  rw [Mach.post, h]
@[simp] theorem Mach.post_kn_closed (c o d : Nat) : (m.post c o d).kn.closed = m.kn.closed := by
  obtain ⟨l, h⟩ := Mach.postAt_kn m c o d m.stamp
  rw [Mach.post, h]
@[simp] theorem Mach.post_kn_startNo (c o d : Nat) : (m.post c o d).kn.startNo = m.kn.startNo := by
  obtain ⟨l, h⟩ := Mach.postAt_kn m c o d m.stamp
  rw [Mach.post, h]
@[simp] theorem Mach.post_kn_hours0 (c o d : Nat) : (m.post c o d).kn.hours0 = m.kn.hours0 := by
  obtain ⟨l, h⟩ := Mach.postAt_kn m c o d m.stamp
  rw [Mach.post, h]
@[simp] theorem Mach.post_kn_counts (c o d : Nat) : (m.post c o d).kn.counts = m.kn.counts := by
  obtain ⟨l, h⟩ := Mach.postAt_kn m c o d m.stamp
  rw [Mach.post, h]
@[simp] theorem Mach.post_kn_alt (c o d : Nat) : (m.post c o d).kn.alt = m.kn.alt := by
  obtain ⟨l, h⟩ := Mach.postAt_kn m c o d m.stamp
  rw [Mach.post, h]
@[simp] theorem Mach.post_kn_slow (c o d : Nat) : (m.post c o d).kn.slow = m.kn.slow := by
  obtain ⟨l, h⟩ := Mach.postAt_kn m c o d m.stamp
  rw [Mach.post, h]
@[simp] theorem Mach.post_kn_rcStart (c o d : Nat) : (m.post c o d).kn.rcStart = m.kn.rcStart := by
  obtain ⟨l, h⟩ := Mach.postAt_kn m c o d m.stamp
  rw [Mach.post, h]
@[simp] theorem Mach.post_kn_otherFirst (c o d : Nat) : (m.post c o d).kn.otherFirst = m.kn.otherFirst := by
  obtain ⟨l, h⟩ := Mach.postAt_kn m c o d m.stamp
  rw [Mach.post, h]
@[simp] theorem Mach.post_kn_otherDone (c o d : Nat) : (m.post c o d).kn.otherDone = m.kn.otherDone := by
  obtain ⟨l, h⟩ := Mach.postAt_kn m c o d m.stamp
  rw [Mach.post, h]
@[simp] theorem Mach.post_kn_cut (c o d : Nat) : (m.post c o d).kn.cut = m.kn.cut := by
  obtain ⟨l, h⟩ := Mach.postAt_kn m c o d m.stamp
  rw [Mach.post, h]
@[simp] theorem Mach.post_kn_skips (c o d : Nat) : (m.post c o d).kn.skips = m.kn.skips := by
  obtain ⟨l, h⟩ := Mach.postAt_kn m c o d m.stamp
  rw [Mach.post, h]
@[simp] theorem Mach.post_kn_homeFail (c o d : Nat) : (m.post c o d).kn.homeFail = m.kn.homeFail := by
  obtain ⟨l, h⟩ := Mach.postAt_kn m c o d m.stamp
  rw [Mach.post, h]
@[simp] theorem Mach.post_kn_step16 (c o d : Nat) : (m.post c o d).kn.step16 = m.kn.step16 := by
  obtain ⟨l, h⟩ := Mach.postAt_kn m c o d m.stamp
  rw [Mach.post, h]
@[simp] theorem Mach.post_kn_trained (c o d : Nat) : (m.post c o d).kn.trained = m.kn.trained := by
  obtain ⟨l, h⟩ := Mach.postAt_kn m c o d m.stamp
  rw [Mach.post, h]
@[simp] theorem Mach.post_kn_gasp (c o d : Nat) : (m.post c o d).kn.gasp = m.kn.gasp := by
  obtain ⟨l, h⟩ := Mach.postAt_kn m c o d m.stamp
  rw [Mach.post, h]
@[simp] theorem Mach.post_kn_before (c o d : Nat) : (m.post c o d).kn.before = m.kn.before := by
  obtain ⟨l, h⟩ := Mach.postAt_kn m c o d m.stamp
  rw [Mach.post, h]
@[simp] theorem Mach.post_kn_clrCnt (c o d : Nat) : (m.post c o d).kn.clrCnt = m.kn.clrCnt := by
  obtain ⟨l, h⟩ := Mach.postAt_kn m c o d m.stamp
  rw [Mach.post, h]
@[simp] theorem Mach.post_kn_homeRev (c o d : Nat) : (m.post c o d).kn.homeRev = m.kn.homeRev := by
  obtain ⟨l, h⟩ := Mach.postAt_kn m c o d m.stamp
  rw [Mach.post, h]
@[simp] theorem Mach.post_kn_memoDetail (c o d : Nat) : (m.post c o d).kn.memoDetail = m.kn.memoDetail := by
  obtain ⟨l, h⟩ := Mach.postAt_kn m c o d m.stamp
  rw [Mach.post, h]

/-! ### What follows every command -/

theorem Mach.ovForceEnd_eq (b : Nat) : ∃ bk, m.ovForceEnd b = { m with banks := bk } ∧
    ∀ k, ∃ x, vget .reset bk k = { m.bank k with ovForce := x } := by
  unfold Mach.ovForceEnd
  split
  · refine ⟨_, rfl, fun k => ?_⟩
    by_cases hk : k = b
    · subst hk
      by_cases h4 : k < 4
      · exact ⟨false, vget_vmod_same _ _ _ _ h4⟩
      · refine ⟨(m.bank k).ovForce, ?_⟩
        rw [vmod, dif_neg h4]
        rfl
    · exact ⟨(m.bank k).ovForce, vget_vmod_other _ _ _ hk⟩
  · exact ⟨m.banks, rfl, fun k => ⟨(m.bank k).ovForce, rfl⟩⟩

theorem Mach.ovForceEnds_eq (l : List Nat) : ∀ m : Mach, ∃ bk, l.foldl Mach.ovForceEnd m = { m with banks := bk } ∧
    ∀ k, ∃ x, vget .reset bk k = { m.bank k with ovForce := x } := by
  induction l with
  | nil => intro m; exact ⟨m.banks, rfl, fun k => ⟨(m.bank k).ovForce, rfl⟩⟩
  | cons b rest ih =>
    intro m
    obtain ⟨bk, h, hk⟩ := Mach.ovForceEnd_eq m b
    obtain ⟨bk2, h2, hk2⟩ := ih (m.ovForceEnd b)
    refine ⟨bk2, ?_, fun k => ?_⟩
    · rw [List.foldl_cons, h2, h]
    · obtain ⟨x, hx⟩ := hk2 k
      obtain ⟨y, hy⟩ := hk k
      refine ⟨x, ?_⟩
      rw [hx, h]
      show { vget .reset bk k with ovForce := x } = _
      rw [hy]

/-- A trigger source is noted or not. -/
theorem Mach.when_stFire_eq (c : Bool) (n : Nat) :
    ∃ x, (m.when c fun m => m.stFire n) = { m with st := { m.st with fired := x } } := by
  cases c with
  | false => exact ⟨m.st.fired, rfl⟩
  | true =>
    show ∃ x, m.stFire n = _
    unfold Mach.stFire
    split
    · exact ⟨_, rfl⟩
    · exact ⟨m.st.fired, rfl⟩

theorem Mach.stSources_eq (b : Mach) : ∃ x, m.stSources b = { m with st := { m.st with fired := x } } := by
  unfold Mach.stSources
  extract_lets evs gi m1 m2 m3 m4
  obtain ⟨x1, h1⟩ : ∃ x, m1 = { m with st := { m.st with fired := x } } := Mach.when_stFire_eq ..
  obtain ⟨x2, h2⟩ : ∃ x, m2 = { m1 with st := { m1.st with fired := x } } := Mach.when_stFire_eq ..
  obtain ⟨x3, h3⟩ : ∃ x, m3 = { m2 with st := { m2.st with fired := x } } := Mach.when_stFire_eq ..
  obtain ⟨x4, h4⟩ : ∃ x, m4 = { m3 with st := { m3.st with fired := x } } := Mach.when_stFire_eq ..
  obtain ⟨x5, h5⟩ := Mach.when_stFire_eq m4 (evs.any fun w => bitsOf w.toNat 112 16 == Ev.FM_TAKEOVER) 7
  exact ⟨x5, by rw [h5, h4, h3, h2, h1]⟩

/-- What follows a command: a forced coast may end, the blanking of the front end goes on, trigger sources may be noted. -/
theorem Mach.settle_eq (b : Mach) :
    ∃ bk act end_ go fired, m.settle b = { m with banks := bk, sf := { m.sf with blankAct := act, blankEnd := end_, goPrev := go }, st := { m.st with fired := fired } } ∧
    ∀ k, ∃ x, vget .reset bk k = { m.bank k with ovForce := x } := by
  obtain ⟨bk, h, hk⟩ := Mach.ovForceEnds_eq (List.range 4) m
  have h0 : m.each 4 Mach.ovForceEnd = { m with banks := bk } := h
  unfold Mach.settle
  rw [h0]
  obtain ⟨x, hx⟩ := Mach.stSources_eq (Mach.blankStep { m with banks := bk }) b
  exact ⟨bk, _, _, _, x, hx, hk⟩

/-- The front end after what follows a command. -/
theorem Mach.sf_settle (b : Mach) : ∃ act end_ go, (m.settle b).sf = { m.sf with blankAct := act, blankEnd := end_, goPrev := go } := by
  obtain ⟨bk, a, e, g, x, h, _⟩ := Mach.settle_eq m b
  exact ⟨a, e, g, by rw [h]⟩

/-- The recorder after what follows a command. -/
theorem Mach.st_settle (b : Mach) : ∃ x, (m.settle b).st = { m.st with fired := x } := by
  obtain ⟨bk, a, e, g, x, h, _⟩ := Mach.settle_eq m b
  exact ⟨x, by rw [h]⟩

@[simp] theorem Mach.settle_clk (b : Mach) : (m.settle b).clk = m.clk := by
  obtain ⟨bk, _, _, _, x, h, _⟩ := Mach.settle_eq m b
  rw [h]
@[simp] theorem Mach.settle_regs (b : Mach) : (m.settle b).regs = m.regs := by
  obtain ⟨bk, _, _, _, x, h, _⟩ := Mach.settle_eq m b
  rw [h]
@[simp] theorem Mach.settle_staged (b : Mach) : (m.settle b).staged = m.staged := by
  obtain ⟨bk, _, _, _, x, h, _⟩ := Mach.settle_eq m b
  rw [h]
@[simp] theorem Mach.settle_dram (b : Mach) : (m.settle b).dram = m.dram := by
  obtain ⟨bk, _, _, _, x, h, _⟩ := Mach.settle_eq m b
  rw [h]
@[simp] theorem Mach.settle_flash (b : Mach) : (m.settle b).flash = m.flash := by
  obtain ⟨bk, _, _, _, x, h, _⟩ := Mach.settle_eq m b
  rw [h]
@[simp] theorem Mach.settle_inp (b : Mach) : (m.settle b).inp = m.inp := by
  obtain ⟨bk, _, _, _, x, h, _⟩ := Mach.settle_eq m b
  rw [h]
@[simp] theorem Mach.settle_snapIn (b : Mach) : (m.settle b).snapIn = m.snapIn := by
  obtain ⟨bk, _, _, _, x, h, _⟩ := Mach.settle_eq m b
  rw [h]
@[simp] theorem Mach.settle_go (b : Mach) : (m.settle b).go = m.go := by
  obtain ⟨bk, _, _, _, x, h, _⟩ := Mach.settle_eq m b
  rw [h]
@[simp] theorem Mach.settle_goPulse (b : Mach) : (m.settle b).goPulse = m.goPulse := by
  obtain ⟨bk, _, _, _, x, h, _⟩ := Mach.settle_eq m b
  rw [h]
@[simp] theorem Mach.settle_readData (b : Mach) : (m.settle b).readData = m.readData := by
  obtain ⟨bk, _, _, _, x, h, _⟩ := Mach.settle_eq m b
  rw [h]
@[simp] theorem Mach.settle_axes (b : Mach) : (m.settle b).axes = m.axes := by
  obtain ⟨bk, _, _, _, x, h, _⟩ := Mach.settle_eq m b
  rw [h]
@[simp] theorem Mach.settle_queues (b : Mach) : (m.settle b).queues = m.queues := by
  obtain ⟨bk, _, _, _, x, h, _⟩ := Mach.settle_eq m b
  rw [h]
@[simp] theorem Mach.settle_rings (b : Mach) : (m.settle b).rings = m.rings := by
  obtain ⟨bk, _, _, _, x, h, _⟩ := Mach.settle_eq m b
  rw [h]
@[simp] theorem Mach.settle_arms (b : Mach) : (m.settle b).arms = m.arms := by
  obtain ⟨bk, _, _, _, x, h, _⟩ := Mach.settle_eq m b
  rw [h]
@[simp] theorem Mach.settle_vmasters (b : Mach) : (m.settle b).vmasters = m.vmasters := by
  obtain ⟨bk, _, _, _, x, h, _⟩ := Mach.settle_eq m b
  rw [h]
@[simp] theorem Mach.settle_regchans (b : Mach) : (m.settle b).regchans = m.regchans := by
  obtain ⟨bk, _, _, _, x, h, _⟩ := Mach.settle_eq m b
  rw [h]
@[simp] theorem Mach.settle_sections (b : Mach) : (m.settle b).sections = m.sections := by
  obtain ⟨bk, _, _, _, x, h, _⟩ := Mach.settle_eq m b
  rw [h]
@[simp] theorem Mach.settle_coils (b : Mach) : (m.settle b).coils = m.coils := by
  obtain ⟨bk, _, _, _, x, h, _⟩ := Mach.settle_eq m b
  rw [h]
@[simp] theorem Mach.settle_obs (b : Mach) : (m.settle b).obs = m.obs := by
  obtain ⟨bk, _, _, _, x, h, _⟩ := Mach.settle_eq m b
  rw [h]
@[simp] theorem Mach.settle_harm (b : Mach) : (m.settle b).harm = m.harm := by
  obtain ⟨bk, _, _, _, x, h, _⟩ := Mach.settle_eq m b
  rw [h]
@[simp] theorem Mach.settle_comm (b : Mach) : (m.settle b).comm = m.comm := by
  obtain ⟨bk, _, _, _, x, h, _⟩ := Mach.settle_eq m b
  rw [h]
@[simp] theorem Mach.settle_sync (b : Mach) : (m.settle b).sync = m.sync := by
  obtain ⟨bk, _, _, _, x, h, _⟩ := Mach.settle_eq m b
  rw [h]
@[simp] theorem Mach.settle_gasp (b : Mach) : (m.settle b).gasp = m.gasp := by
  obtain ⟨bk, _, _, _, x, h, _⟩ := Mach.settle_eq m b
  rw [h]
@[simp] theorem Mach.settle_dbgHalt (b : Mach) : (m.settle b).dbgHalt = m.dbgHalt := by
  obtain ⟨bk, _, _, _, x, h, _⟩ := Mach.settle_eq m b
  rw [h]
@[simp] theorem Mach.settle_testInstr (b : Mach) : (m.settle b).testInstr = m.testInstr := by
  obtain ⟨bk, _, _, _, x, h, _⟩ := Mach.settle_eq m b
  rw [h]
@[simp] theorem Mach.settle_ledRon (b : Mach) : (m.settle b).ledRon = m.ledRon := by
  obtain ⟨bk, _, _, _, x, h, _⟩ := Mach.settle_eq m b
  rw [h]
@[simp] theorem Mach.settle_ports (b : Mach) : (m.settle b).ports = m.ports := by
  obtain ⟨bk, _, _, _, x, h, _⟩ := Mach.settle_eq m b
  rw [h]
@[simp] theorem Mach.settle_fm (b : Mach) : (m.settle b).fm = m.fm := by
  obtain ⟨bk, _, _, _, x, h, _⟩ := Mach.settle_eq m b
  rw [h]
@[simp] theorem Mach.settle_heat (b : Mach) : (m.settle b).heat = m.heat := by
  obtain ⟨bk, _, _, _, x, h, _⟩ := Mach.settle_eq m b
  rw [h]
@[simp] theorem Mach.settle_kn (b : Mach) : (m.settle b).kn = m.kn := by
  obtain ⟨bk, _, _, _, x, h, _⟩ := Mach.settle_eq m b
  rw [h]
@[simp] theorem Mach.settle_otp (b : Mach) : (m.settle b).otp = m.otp := by
  obtain ⟨bk, _, _, _, x, h, _⟩ := Mach.settle_eq m b
  rw [h]
@[simp] theorem Mach.settle_nv (b : Mach) : (m.settle b).nv = m.nv := by
  obtain ⟨bk, _, _, _, x, h, _⟩ := Mach.settle_eq m b
  rw [h]
@[simp] theorem Mach.settle_pt (b : Mach) : (m.settle b).pt = m.pt := by
  obtain ⟨bk, _, _, _, x, h, _⟩ := Mach.settle_eq m b
  rw [h]
@[simp] theorem Mach.settle_hp (b : Mach) : (m.settle b).hp = m.hp := by
  obtain ⟨bk, _, _, _, x, h, _⟩ := Mach.settle_eq m b
  rw [h]
@[simp] theorem Mach.settle_tap (b : Mach) : (m.settle b).tap = m.tap := by
  obtain ⟨bk, _, _, _, x, h, _⟩ := Mach.settle_eq m b
  rw [h]

end Sys2Proof.Machine
end

