-- ==== Sys2Proof/Laws/Reads.lean ====
section
/-!
SUPPORT. Reading a field after a field has been written, reading through the frame of an operation, and the frames that the
statements speak of.
-/

namespace Sys2Proof.Machine

/-! ### Bits -/

theorem putBits_eq (x lo w v : Nat) :
    putBits x lo w v = 2 ^ lo * (2 ^ w * (x / 2 ^ lo / 2 ^ w) + v % 2 ^ w) + x % 2 ^ lo := by
  unfold putBits bitsOf
  have h1 := Nat.div_add_mod x (2 ^ lo)
  have h2 := Nat.div_add_mod (x / 2 ^ lo) (2 ^ w)
  generalize x / 2 ^ lo / 2 ^ w = c at *
  generalize x / 2 ^ lo % 2 ^ w = b at *
  generalize x % 2 ^ lo = a at *
  generalize v % 2 ^ w = d
  rw [← h2] at h1
  rw [← h1, Nat.mul_add, Nat.mul_add, Nat.mul_comm b, Nat.mul_comm d]
  omega

theorem bitsOf_putBits_same (x lo w v : Nat) : bitsOf (putBits x lo w v) lo w = v % 2 ^ w := by
  have hp : 0 < 2 ^ lo := Nat.two_pow_pos lo
  have hm := Nat.mod_lt x hp
  rw [putBits_eq, bitsOf, Nat.mul_add_div hp, Nat.div_eq_of_lt hm, Nat.add_zero, Nat.mul_add_mod, Nat.mod_mod]

theorem bitsOf_putBits_below {x lo w v lo' w' : Nat} (h : lo' + w' ≤ lo) : bitsOf (putBits x lo w v) lo' w' = bitsOf x lo' w' := by
  have h1 : ∀ y, bitsOf y lo' w' = y % 2 ^ (lo' + w') / 2 ^ lo' := by
    intro y
    rw [bitsOf, Nat.pow_add, Nat.mod_mul_right_div_self]
  have h2 : ∀ y, y % 2 ^ (lo' + w') = y % 2 ^ lo % 2 ^ (lo' + w') := fun y =>
    (Nat.mod_mod_of_dvd y (Nat.pow_dvd_pow 2 h)).symm
  rw [h1, h1, h2 x, h2 (putBits x lo w v), putBits_eq, Nat.mul_add_mod, Nat.mod_mod]

theorem bitsOf_putBits_above {x lo w v lo' w' : Nat} (h : lo + w ≤ lo') : bitsOf (putBits x lo w v) lo' w' = bitsOf x lo' w' := by
  obtain ⟨k, rfl⟩ := Nat.exists_eq_add_of_le h
  have hp : 0 < 2 ^ lo := Nat.two_pow_pos lo
  have hq : 0 < 2 ^ w := Nat.two_pow_pos w
  have hm := Nat.mod_lt x hp
  have hv := Nat.mod_lt v hq
  have h1 : ∀ y, y / 2 ^ (lo + w + k) = y / 2 ^ lo / 2 ^ w / 2 ^ k := by
    intro y
    rw [Nat.pow_add, Nat.pow_add, ← Nat.div_div_eq_div_mul, ← Nat.div_div_eq_div_mul]
  rw [bitsOf, bitsOf, h1, h1, putBits_eq, Nat.mul_add_div hp, Nat.div_eq_of_lt hm, Nat.add_zero, Nat.mul_add_div hq,
    Nat.div_eq_of_lt hv, Nat.add_zero]

theorem putBits_lt {x lo w v n : Nat} (hx : x < 2 ^ n) (h : lo + w ≤ n) : putBits x lo w v < 2 ^ n := by
  obtain ⟨k, rfl⟩ := Nat.exists_eq_add_of_le h
  have hp : 0 < 2 ^ lo := Nat.two_pow_pos lo
  have hq : 0 < 2 ^ w := Nat.two_pow_pos w
  have hm := Nat.mod_lt x hp
  have hv := Nat.mod_lt v hq
  have h1 : putBits x lo w v / 2 ^ (lo + w) = x / 2 ^ (lo + w) := by
    rw [Nat.pow_add, ← Nat.div_div_eq_div_mul, ← Nat.div_div_eq_div_mul, putBits_eq, Nat.mul_add_div hp, Nat.div_eq_of_lt hm,
      Nat.add_zero, Nat.mul_add_div hq, Nat.div_eq_of_lt hv, Nat.add_zero]
  have h2 : x / 2 ^ (lo + w) < 2 ^ k := by
    rw [Nat.div_lt_iff_lt_mul (Nat.two_pow_pos _), ← Nat.pow_add, Nat.add_comm]
    exact hx
  rw [← h1, Nat.div_lt_iff_lt_mul (Nat.two_pow_pos _), ← Nat.pow_add, Nat.add_comm] at h2
  exact h2

/-! ### Fields -/

/-- A register's value fits 128 bits. -/
theorem Mach.reg_lt (m : Mach) (r : Reg) (i j : Nat) : m.reg r i j < 2 ^ 128 := (regGet m.regs ⟨r, i, j⟩).isLt

/-- A value in force fits 128 bits. -/
theorem Mach.force_lt (m : Mach) (r : Reg) (i j : Nat) : m.force r i j < 2 ^ 128 := by
  unfold Mach.force
  split
  · exact BitVec.isLt _
  · exact m.reg_lt r i j

/-- The value in force of a register whose field has been written. -/
theorem Mach.force_wr_same {m : Mach} (hw : regsWf m.regs = true) {f : Fld} (v i j : Nat) (hf : f.lo + f.width ≤ 128) :
    (m.wr f v i j).force f.reg i j = putBits (m.force f.reg i j) f.lo f.width v := by
  unfold Mach.force
  dsimp only [Mach.wr]
  rw [List.find?_map]
  have hk : (fun s : Staged => s.key == (⟨f.reg, i, j⟩ : RegKey)) ∘ (fun s : Staged =>
      if s.key == (⟨f.reg, i, j⟩ : RegKey) then { s with force := BitVec.ofNat 128 (putBits s.force.toNat f.lo f.width v) } else s) =
      fun s : Staged => s.key == (⟨f.reg, i, j⟩ : RegKey) := by
    funext s
    dsimp only [Function.comp]
    split <;> rfl
  rw [hk]
  have hs : (m.setReg f.reg i j (putBits (m.reg f.reg i j) f.lo f.width v)).staged = m.staged := rfl
  rw [hs]
  cases h : m.staged.find? (fun s => s.key == (⟨f.reg, i, j⟩ : RegKey)) with
  | none =>
    dsimp only [Option.map]
    show (m.setReg f.reg i j (putBits (m.reg f.reg i j) f.lo f.width v)).reg f.reg i j = _
    rw [Mach.reg_setReg_same _ _ _ _ hw]
    exact Nat.mod_eq_of_lt (putBits_lt (m.reg_lt _ _ _) hf)
  | some s =>
    have hb : (s.key == (⟨f.reg, i, j⟩ : RegKey)) = true := by simpa using List.find?_some h
    dsimp only [Option.map]
    rw [if_pos hb]
    dsimp only
    rw [BitVec.toNat_ofNat]
    exact Nat.mod_eq_of_lt (putBits_lt (BitVec.isLt _) hf)

/-- A field reads back what was written. -/
theorem Mach.rd_wr_same {m : Mach} (hw : regsWf m.regs = true) {f : Fld} (v i j : Nat) (hf : f.lo + f.width ≤ 128) :
    (m.wr f v i j).rd f i j = v % 2 ^ f.width := by
  rw [Mach.rd, Mach.force_wr_same hw v i j hf, bitsOf_putBits_same]

/-- Another field of the register keeps its value. -/
theorem Mach.rd_wr_field {m : Mach} (hw : regsWf m.regs = true) {f g : Fld} (v i j : Nat) (hf : f.lo + f.width ≤ 128)
    (hr : g.reg = f.reg) (hd : g.lo + g.width ≤ f.lo ∨ f.lo + f.width ≤ g.lo) : (m.wr f v i j).rd g i j = m.rd g i j := by
  rw [Mach.rd, hr, Mach.force_wr_same hw v i j hf, Mach.rd, hr]
  rcases hd with hd | hd
  · exact bitsOf_putBits_below hd
  · exact bitsOf_putBits_above hd

/-- The value in force of another register stays. -/
theorem Mach.force_wr_other {m : Mach} (hw : regsWf m.regs = true) {f : Fld} (v i j : Nat) {r : Reg} {i' j' : Nat}
    (hk : (⟨r, i', j'⟩ : RegKey) ≠ ⟨f.reg, i, j⟩) : (m.wr f v i j).force r i' j' = m.force r i' j' := by
  have hr : (m.wr f v i j).reg r i' j' = m.reg r i' j' := Mach.reg_setReg_other _ hw hk
  have hs : (m.wr f v i j).staged.find? (fun s => s.key == (⟨r, i', j'⟩ : RegKey)) =
      m.staged.find? (fun s => s.key == (⟨r, i', j'⟩ : RegKey)) := by
    refine find_map_key _ _ (fun s => ?_) _ (fun s hs => ?_)
    · split <;> rfl
    · rw [if_neg]
      rw [hs]
      exact fun e => hk (eq_of_beq e)
  unfold Mach.force
  rw [hs, hr]

/-- A field of another register keeps its value. -/
theorem Mach.rd_wr_other {m : Mach} (hw : regsWf m.regs = true) {f g : Fld} (v i j i' j' : Nat)
    (hk : (⟨g.reg, i', j'⟩ : RegKey) ≠ ⟨f.reg, i, j⟩) : (m.wr f v i j).rd g i' j' = m.rd g i' j' := by
  rw [Mach.rd, Mach.force_wr_other hw v i j hk, Mach.rd]

/-- The register file stays in form when a field is written. -/
theorem Mach.wr_wf {m : Mach} (hw : regsWf m.regs = true) (f : Fld) (v i j : Nat) : regsWf (m.wr f v i j).regs = true :=
  Mach.setReg_wf _ _ _ _ hw

/-! ### Reading through a frame -/

theorem Mach.rd_congr {a b : Mach} {f : Fld} {i j : Nat} (h : a.force f.reg i j = b.force f.reg i j) : a.rd f i j = b.rd f i j := by
  rw [Mach.rd, Mach.rd, h]

/-- A field that an operation's mask leaves out keeps its value. -/
theorem Mach.Within.rd {T : Scope} {m : Mach} (h : m.Within T) (f : Fld) (i j : Nat) (hs : T.mask.testBit 2 = false)
    (hr : T.mask.testBit (64 + f.reg.ctorIdx) = false) : m.rd f i j = T.base.rd f i j := by
  refine Mach.rd_congr ?_
  rcases h.force with e | e
  · rw [Scope.has, hs] at e
    cases e
  · rcases e f.reg i j with e | e
    · rw [Scope.has, hr] at e
      cases e
    · exact e

theorem Mach.Within.rb {T : Scope} {m : Mach} (h : m.Within T) (f : Fld) (i j : Nat) (hs : T.mask.testBit 2 = false)
    (hr : T.mask.testBit (64 + f.reg.ctorIdx) = false) : m.rb f i j = T.base.rb f i j := by
  rw [Mach.rb, Mach.rb, h.rd f i j hs hr]

/-- A register that an operation's mask leaves out keeps its value. -/
theorem Mach.Within.reg' {T : Scope} {m : Mach} (h : m.Within T) (r : Reg) (i j : Nat)
    (hr : T.mask.testBit (64 + r.ctorIdx) = false) : m.reg r i j = T.base.reg r i j := by
  rcases h.reg ⟨r, i, j⟩ with e | e
  · rw [Scope.has, hr] at e
    cases e
  · rw [Mach.reg, Mach.reg, e]

/-- A field of the module that the mask leaves out is the base's. -/
theorem Scope.same {T : Scope} {p : Prop} {i : Nat} (h : T.has i ∨ p) (hi : T.mask.testBit i = false) : p := by
  rcases h with e | e
  · rw [Scope.has, hi] at e
    cases e
  · exact e

@[simp] theorem Mach.rd_settle (m b : Mach) (f : Fld) (i j : Nat) : (m.settle b).rd f i j = m.rd f i j :=
  Mach.rd_congr (Mach.force_congr (Mach.settle_regs m b) (Mach.settle_staged m b) _ _ _)

@[simp] theorem Mach.rb_settle (m b : Mach) (f : Fld) (i j : Nat) : (m.settle b).rb f i j = m.rb f i j := by
  rw [Mach.rb, Mach.rb, Mach.rd_settle]

@[simp] theorem Mach.reg_settle (m b : Mach) (r : Reg) (i j : Nat) : (m.settle b).reg r i j = m.reg r i j := by
  rw [Mach.reg, Mach.reg, Mach.settle_regs]

@[simp] theorem Mach.rd_begin_ (m : Mach) (f : Fld) (i j : Nat) : m.begin_.rd f i j = m.rd f i j := rfl
@[simp] theorem Mach.rb_begin_ (m : Mach) (f : Fld) (i j : Nat) : m.begin_.rb f i j = m.rb f i j := rfl
@[simp] theorem Mach.reg_begin_ (m : Mach) (r : Reg) (i j : Nat) : m.begin_.reg r i j = m.reg r i j := rfl
@[simp] theorem Mach.ax_begin_ (m : Mach) (n : Nat) : m.begin_.ax n = m.ax n := rfl
@[simp] theorem Mach.qu_begin_ (m : Mach) (n : Nat) : m.begin_.qu n = m.qu n := rfl
@[simp] theorem Mach.arm_begin_ (m : Mach) (n : Nat) : m.begin_.arm n = m.arm n := rfl
@[simp] theorem Mach.coil_begin_ (m : Mach) (n : Nat) : m.begin_.coil n = m.coil n := rfl
@[simp] theorem Mach.bank_begin_ (m : Mach) (n : Nat) : m.begin_.bank n = m.bank n := rfl
@[simp] theorem Mach.port_begin_ (m : Mach) (n : Nat) : m.begin_.port n = m.port n := rfl
@[simp] theorem Mach.regch_begin_ (m : Mach) (n : Nat) : m.begin_.regch n = m.regch n := rfl

@[simp] theorem Mach.ax_settle (m b : Mach) (n : Nat) : (m.settle b).ax n = m.ax n := by rw [Mach.ax, Mach.ax, Mach.settle_axes]
@[simp] theorem Mach.qu_settle (m b : Mach) (n : Nat) : (m.settle b).qu n = m.qu n := by rw [Mach.qu, Mach.qu, Mach.settle_queues]
@[simp] theorem Mach.arm_settle (m b : Mach) (n : Nat) : (m.settle b).arm n = m.arm n := by rw [Mach.arm, Mach.arm, Mach.settle_arms]
@[simp] theorem Mach.coil_settle (m b : Mach) (n : Nat) : (m.settle b).coil n = m.coil n := by rw [Mach.coil, Mach.coil, Mach.settle_coils]
@[simp] theorem Mach.port_settle (m b : Mach) (n : Nat) : (m.settle b).port n = m.port n := by rw [Mach.port, Mach.port, Mach.settle_ports]
@[simp] theorem Mach.regch_settle (m b : Mach) (n : Nat) : (m.settle b).regch n = m.regch n := by
  rw [Mach.regch, Mach.regch, Mach.settle_regchans]

/-- A bank after what follows a command differs in `ovForce` at most. -/
theorem Mach.bank_settle (m b : Mach) (k : Nat) : ∃ x, (m.settle b).bank k = { m.bank k with ovForce := x } := by
  obtain ⟨bk, _, _, _, x, h, hk⟩ := Mach.settle_eq m b
  rw [h]
  exact hk k

/-! ### The frames of the statements -/

/-- The bit of a part in a mask. -/
def Part.idx : Part → Nat
  | .clk => 0
  | .staged => 2
  | .dram => 3
  | .flash => 4
  | .inp => 5
  | .snapIn => 6
  | .go => 7
  | .goPulse => 8
  | .readData => 9
  | .axes => 10
  | .queues => 11
  | .rings => 12
  | .arms => 13
  | .vmasters => 14
  | .regchans => 15
  | .sections => 16
  | .coils => 17
  | .obs => 18
  | .harm => 19
  | .comm => 20
  | .banks => 21
  | .sync => 22
  | .gasp => 23
  | .dbgHalt => 24
  | .testInstr => 25
  | .ledRon => 26
  | .ports => 27
  | .sf => 28
  | .fm => 29
  | .heat => 30
  | .kn => 31
  | .otp => 32
  | .nv => 33
  | .pt => 34
  | .st => 35
  | .hp => 36
  | .tap => 37

/-- The parts, in the order of their bits. -/
def Part.at (i : Nat) : Part :=
  [Part.clk, .clk, .staged, .dram, .flash, .inp, .snapIn, .go, .goPulse, .readData, .axes, .queues, .rings, .arms, .vmasters, .regchans, .sections, .coils, .obs, .harm, .comm, .banks, .sync, .gasp, .dbgHalt, .testInstr, .ledRon, .ports, .sf, .fm, .heat, .kn, .otp, .nv, .pt, .st, .hp, .tap].getD i .clk

theorem Part.at_idx (p : Part) : Part.at p.idx = p := by cases p <;> rfl

theorem Part.idx_lt (p : Part) : p.idx < 64 := by cases p <;> decide

/-- The mask that a list of parts names. -/
def partsMask : List Part → Nat
  | [] => 0
  | p :: ps => 2 ^ p.idx ||| partsMask ps

/-- The mask that a list of registers names. -/
def regsMask : List Reg → Nat
  | [] => 0
  | r :: rs => r.bit ||| regsMask rs

theorem partsMask_part {p : Part} (parts : List Part) (h : p ∉ parts) : (partsMask parts).testBit p.idx = false := by
  induction parts with
  | nil => rw [partsMask, Nat.zero_testBit]
  | cons q ps ih =>
    rw [partsMask, Nat.testBit_or, ih (fun e => h (List.mem_cons_of_mem _ e)), Nat.testBit_two_pow, Bool.or_false]
    refine decide_eq_false fun e => h ?_
    rw [← Part.at_idx p, ← e, Part.at_idx]
    exact List.mem_cons_self ..

theorem partsMask_reg (parts : List Part) (n : Nat) : (partsMask parts).testBit (64 + n) = false := by
  induction parts with
  | nil => rw [partsMask, Nat.zero_testBit]
  | cons q ps ih =>
    rw [partsMask, Nat.testBit_or, ih, Nat.testBit_two_pow, Bool.or_false]
    have := q.idx_lt
    exact decide_eq_false (by omega)

theorem regsMask_part (p : Part) (regs : List Reg) : (regsMask regs).testBit p.idx = false := by
  induction regs with
  | nil => rw [regsMask, Nat.zero_testBit]
  | cons r rs ih =>
    rw [regsMask, Nat.testBit_or, ih, Reg.bit_eq, Nat.testBit_two_pow, Bool.or_false]
    have := p.idx_lt
    exact decide_eq_false (by omega)

theorem regsMask_reg {r : Reg} (regs : List Reg) (h : r ∉ regs) : (regsMask regs).testBit (64 + r.ctorIdx) = false := by
  induction regs with
  | nil => rw [regsMask, Nat.zero_testBit]
  | cons q rs ih =>
    rw [regsMask, Nat.testBit_or, ih (fun e => h (List.mem_cons_of_mem _ e)), Reg.bit_eq, Nat.testBit_two_pow, Bool.or_false]
    refine decide_eq_false fun e => h ?_
    rw [← Reg.ctorIdx_inj (Nat.add_left_cancel e)]
    exact List.mem_cons_self ..

/-- The mask that two lists name. -/
def listMask (parts : List Part) (regs : List Reg) : Nat := partsMask parts ||| regsMask regs

theorem listMask_part {p : Part} (parts : List Part) (regs : List Reg) (h : p ∉ parts) : (listMask parts regs).testBit p.idx = false := by
  rw [listMask, Nat.testBit_or, partsMask_part parts h, regsMask_part p regs, Bool.or_false]

theorem listMask_reg {r : Reg} (parts : List Part) (regs : List Reg) (h : r ∉ regs) :
    (listMask parts regs).testBit (64 + r.ctorIdx) = false := by
  rw [listMask, Nat.testBit_or, partsMask_reg, regsMask_reg regs h, Bool.or_false]

/-- A mask names no part and no register outside the two lists. -/
def maskFits (mask : Nat) (parts : List Part) (regs : List Reg) : Prop := mask &&& listMask parts regs = mask

theorem maskFits.part {k : Nat} {parts : List Part} {regs : List Reg} (h : maskFits k parts regs) {p : Part} (hp : p ∉ parts) :
    k.testBit p.idx = false := by
  rw [← show k &&& listMask parts regs = k from h, Nat.testBit_and, listMask_part parts regs hp, Bool.and_false]

theorem maskFits.reg {k : Nat} {parts : List Part} {regs : List Reg} (h : maskFits k parts regs) {r : Reg} (hr : r ∉ regs) :
    k.testBit (64 + r.ctorIdx) = false := by
  rw [← show k &&& listMask parts regs = k from h, Nat.testBit_and, listMask_reg parts regs hr, Bool.and_false]

/-- The frame of a command whose body stays within a mask. -/
theorem Mach.Within.changes {o : Otp} {k : Nat} {a m : Mach} (h : m.Within ⟨o, a.begin_, k⟩) (b : Mach) {parts : List Part} {regs : List Reg}
    (hm : maskFits k parts regs) : Changes a (m.settle b) parts regs := by
  have hp : ∀ p, p ∉ parts → k.testBit p.idx = false := fun p hn => hm.part hn
  have hr : ∀ r, r ∉ regs → k.testBit (64 + r.ctorIdx) = false := fun r hn => hm.reg hn
  obtain ⟨bk, act, end_, go, fired, hb, hk⟩ := Mach.settle_eq m b
  refine ⟨fun p hn => ?_, fun r i j hn => ?_, fun hs r i j hn => ?_, fun h1 h2 => ?_⟩
  · have hb' := hp p hn
    cases p
    case staged => exact trivial
    case clk =>
      show (m.settle b).clk = _
      rw [Mach.settle_clk, Scope.same h.clk hb']
      rfl
    case banks =>
      intro n
      obtain ⟨x, hx⟩ := Mach.bank_settle m b n
      have e : m.bank n = a.bank n := by rw [Mach.bank, Scope.same h.banks hb']; rfl
      rw [hx, e]
    case sf =>
      show (m.settle b).sf = { a.sf with blankAct := (m.settle b).sf.blankAct, blankEnd := (m.settle b).sf.blankEnd, goPrev := (m.settle b).sf.goPrev }
      obtain ⟨x, y, z, e⟩ := Mach.sf_settle m b
      rw [e, Scope.same h.sf hb']
      rfl
    case st =>
      show (m.settle b).st = { a.st with fired := (m.settle b).st.fired }
      obtain ⟨x, e⟩ := Mach.st_settle m b
      rw [e, Scope.same h.st hb']
      rfl
    case dram =>
      show ∀ x, _ → _ = _
      rw [Mach.settle_dram]
      exact Scope.same h.dram hb'
    case flash =>
      show (m.settle b).flash = _
      rw [Mach.settle_flash]
      exact Scope.same h.flash hb'
    case inp =>
      show (m.settle b).inp = _
      rw [Mach.settle_inp]
      exact Scope.same h.inp hb'
    case snapIn =>
      show (m.settle b).snapIn = _
      rw [Mach.settle_snapIn]
      exact Scope.same h.snapIn hb'
    case go =>
      show (m.settle b).go = _
      rw [Mach.settle_go]
      exact Scope.same h.go hb'
    case goPulse =>
      show (m.settle b).goPulse = _
      rw [Mach.settle_goPulse]
      exact Scope.same h.goPulse hb'
    case readData =>
      show (m.settle b).readData = _
      rw [Mach.settle_readData]
      exact Scope.same h.readData hb'
    case axes =>
      show (m.settle b).axes = _
      rw [Mach.settle_axes]
      exact Scope.same h.axes hb'
    case queues =>
      show (m.settle b).queues = _
      rw [Mach.settle_queues]
      exact Scope.same h.queues hb'
    case rings =>
      show (m.settle b).rings = _
      rw [Mach.settle_rings]
      exact Scope.same h.rings hb'
    case arms =>
      show (m.settle b).arms = _
      rw [Mach.settle_arms]
      exact Scope.same h.arms hb'
    case vmasters =>
      show (m.settle b).vmasters = _
      rw [Mach.settle_vmasters]
      exact Scope.same h.vmasters hb'
    case regchans =>
      show (m.settle b).regchans = _
      rw [Mach.settle_regchans]
      exact Scope.same h.regchans hb'
    case sections =>
      show (m.settle b).sections = _
      rw [Mach.settle_sections]
      exact Scope.same h.sections hb'
    case coils =>
      show (m.settle b).coils = _
      rw [Mach.settle_coils]
      exact Scope.same h.coils hb'
    case obs =>
      show (m.settle b).obs = _
      rw [Mach.settle_obs]
      exact Scope.same h.obs hb'
    case harm =>
      show (m.settle b).harm = _
      rw [Mach.settle_harm]
      exact Scope.same h.harm hb'
    case comm =>
      show (m.settle b).comm = _
      rw [Mach.settle_comm]
      exact Scope.same h.comm hb'
    case sync =>
      show (m.settle b).sync = _
      rw [Mach.settle_sync]
      exact Scope.same h.sync hb'
    case gasp =>
      show (m.settle b).gasp = _
      rw [Mach.settle_gasp]
      exact Scope.same h.gasp hb'
    case dbgHalt =>
      show (m.settle b).dbgHalt = _
      rw [Mach.settle_dbgHalt]
      exact Scope.same h.dbgHalt hb'
    case testInstr =>
      show (m.settle b).testInstr = _
      rw [Mach.settle_testInstr]
      exact Scope.same h.testInstr hb'
    case ledRon =>
      show (m.settle b).ledRon = _
      rw [Mach.settle_ledRon]
      exact Scope.same h.ledRon hb'
    case ports =>
      show (m.settle b).ports = _
      rw [Mach.settle_ports]
      exact Scope.same h.ports hb'
    case fm =>
      show (m.settle b).fm = _
      rw [Mach.settle_fm]
      exact Scope.same h.fm hb'
    case heat =>
      show (m.settle b).heat = _
      rw [Mach.settle_heat]
      exact Scope.same h.heat hb'
    case kn =>
      show (m.settle b).kn = { a.kn with raised := (m.settle b).kn.raised }
      rw [Mach.settle_kn]
      rcases Scope.same h.kn hb' with e | ⟨_, x, e⟩ <;> rw [e] <;> rfl
    case otp =>
      show (m.settle b).otp = _
      rw [Mach.settle_otp]
      exact Scope.same h.otp hb'
    case nv =>
      show (m.settle b).nv = _
      rw [Mach.settle_nv]
      exact Scope.same h.nv hb'
    case pt =>
      show (m.settle b).pt = _
      rw [Mach.settle_pt]
      exact Scope.same h.pt hb'
    case hp =>
      show (m.settle b).hp = _
      rw [Mach.settle_hp]
      exact Scope.same h.hp hb'
    case tap =>
      show (m.settle b).tap = _
      rw [Mach.settle_tap]
      exact Scope.same h.tap hb'
  · rw [Mach.reg_settle]
    exact h.reg' r i j (hr r hn)
  · rw [Mach.force_congr (Mach.settle_regs m b) (Mach.settle_staged m b)]
    rcases h.force with e | e
    · rw [Scope.has, show k.testBit 2 = false from hp .staged hs] at e
      cases e
    · exact Scope.same (e r i j) (hr r hn)
  · rw [Mach.settle_kn]
    rcases Scope.same h.kn (hp .kn h2) with e | ⟨e, _⟩
    · rw [e]
      rfl
    · rw [Scope.has, show k.testBit 12 = false from hp .rings h1] at e
      cases e

/-- The frame of a command, from the frame of its body. -/
theorem State.run_changes {s t : State} {f : Mach → Mach} (hs : s.Sound) (k : Nat)
    (hf : ∀ m : Mach, m.Within ⟨s.m.otp, s.m.begin_, k⟩ → (f m).Within ⟨s.m.otp, s.m.begin_, k⟩) (ht : s.run f = .next t)
    {parts : List Part} {regs : List Reg} (hm : maskFits k parts regs) : Changes s.m t.m parts regs := by
  unfold State.run at ht
  injection ht with ht
  rw [← ht]
  exact (hf _ (Mach.Within.start (m := s.m.begin_) ⟨hs.stored⟩ k)).changes _ hm

end Sys2Proof.Machine
end

