-- ==== Sys2Proof/Laws/Commands.lean ====
section
/-!
SUPPORT. The frames of the commands that are one access of the host, and of the rows of the queue commands.
-/

namespace Sys2Proof.Machine

/-! ### Host accesses -/

/-- What any access of the host may change by its status: HP_ERR, HP_LAST, GL_STATUS, the port, and an event. -/
abbrev hostMask : Nat := 0x128000000000000000000000000000000000000000000000000800000000000000000000000000001000001000

/-- A register without bits that name a state keeps what a write leaves. -/
theorem Mach.levelsHold_none {m : Mach} {k : RegKey} (h : m.levelBits k = 0) (old : Nat) : m.levelsHold k old = m := by
  unfold Mach.levelsHold
  dsimp only
  rw [h, Nat.zero_and, if_pos rfl]

/-- What R495 sets again changes the register written, or nothing where it has no bits that name a state. -/
theorem Mach.levelsHold_within {T : Scope} {m : Mach} (h : m.Within T) {k : RegKey} (hb : T.allows k.r.bit ∨ ∀ x : Mach, x.levelBits k = 0)
    (old : Nat) : (m.levelsHold k old).Within T := by
  rcases hb with hb | hb
  · exact Mach.levelsHold_held h k old hb
  · rw [Mach.levelsHold_none (hb m)]
    exact h

theorem RegDesc.aliasWord_plain (d : RegDesc) (old w : Nat) : d.aliasWord old w .plain = some w := rfl

/-- A write of the host changes what the write does at its register's owner, and what its status leaves. -/
theorem Mach.hostAlias_within {T : Scope} {m : Mach} (h : m.Within T) (hT : T.allows hostMask) {k : RegKey} (hk : k.r ≠ .GL_IDATA)
    (hb : T.allows k.r.bit ∨ ∀ x : Mach, x.levelBits k = 0) (al : Alias) (w : Nat)
    (ho : ∀ (x : Mach) (v : Nat), x.Within T → k.r.desc.aliasWord (m.peek k) w al = some v → (x.ownerWrite k v false).Within T) :
    (m.hostAlias k al w).Within T := by
  unfold Mach.hostAlias
  dsimp only
  refine Mach.writesDone_held ?_ (hT.sub (by decide)) _
  have hu : (m.unitWrite m.lockBits k al w).1.Within T := by
    unfold Mach.unitWrite
    rw [if_neg hk]
    unfold Mach.regWrite
    split
    · exact h
    · split
      · rename_i hw
        unfold Mach.lockedWrite
        split
        · exact Mach.setBit_held h _ _ _ (hT.sub (by decide))
        · exact Mach.levelsHold_within (ho m _ h hw) hb _
      · exact h
  generalize m.unitWrite m.lockBits k al w = p at hu ⊢
  split
  · exact hu
  · exact Mach.hpError_held hu (hT.sub (by decide)) _ _ _ _

theorem Mach.hostWrite_within {T : Scope} {m : Mach} (h : m.Within T) (hT : T.allows hostMask) {k : RegKey} (hk : k.r ≠ .GL_IDATA)
    (hb : T.allows k.r.bit ∨ ∀ x : Mach, x.levelBits k = 0) (w : Nat)
    (ho : ∀ x : Mach, x.Within T → (x.ownerWrite k w false).Within T) : (m.hostWrite k w).Within T :=
  Mach.hostAlias_within h hT hk hb .plain w fun x v hx hv => by
    rw [RegDesc.aliasWord_plain] at hv
    injection hv with hv
    rw [← hv]
    exact ho x hx

/-- A write that reaches its owner: the register answers and no lock refuses it. -/
theorem Mach.hostAlias_answers {m : Mach} {k : RegKey} (hk : k.r ≠ .GL_IDATA) {al : Alias} {w v : Nat} (ha : m.regAnswers k = true)
    (hv : k.r.desc.aliasWord (m.peek k) w al = some v) (hl : m.lockRefuses m.lockBits k (k.r.desc.merge (m.peek k) v) = false) :
    m.hostAlias k al w = ((m.ownerWrite k v false).levelsHold k (m.reg k.r k.i k.j)).writesDone m.lockBits := by
  have e : m.unitWrite m.lockBits k al w = ((m.ownerWrite k v false).levelsHold k (m.reg k.r k.i k.j), 0) := by
    unfold Mach.unitWrite
    rw [if_neg hk]
    unfold Mach.regWrite
    rw [if_neg (by rw [ha]; decide), hv]
    dsimp only
    unfold Mach.lockedWrite
    rw [if_neg (by rw [hl]; decide)]
  unfold Mach.hostAlias
  dsimp only
  rw [e]
  rfl

theorem Mach.hostWrite_answers {m : Mach} {k : RegKey} (hk : k.r ≠ .GL_IDATA) {w : Nat} (ha : m.regAnswers k = true)
    (hl : m.lockRefuses m.lockBits k (k.r.desc.merge (m.peek k) w) = false) :
    m.hostWrite k w = ((m.ownerWrite k w false).levelsHold k (m.reg k.r k.i k.j)).writesDone m.lockBits :=
  Mach.hostAlias_answers hk ha (RegDesc.aliasWord_plain _ _ _) hl

/-- A read of the host returns what the register reads as, with its side effect. -/
theorem Mach.hostRead_answers {m : Mach} {k : RegKey} (ha : m.regAnswers k = true) :
    m.hostRead k = ({ m with readData := BitVec.ofNat 128 (m.peek k) } : Mach).takeEffect k := by
  unfold Mach.hostRead
  rw [if_pos ha]

theorem Mach.hostRead_within {T : Scope} {m : Mach} (h : m.Within T) (hT : T.allows hostMask) (hr : T.allows 512) {k : RegKey}
    (hk : k.r ≠ .GL_IDATA) (ho : ∀ x : Mach, x.Within T → (x.readEffect k).Within T) : (m.hostRead k).Within T := by
  have hd : ∀ v, ({ m with readData := v } : Mach).Within T := fun v => by
    refine Mach.held_upd (b := m) ?_ h
    constructor
    case dram => rfl
    all_goals first | with_reducible exact .inl rfl | with_reducible exact rfl | exact .inr (hr.has (by decide))
  unfold Mach.hostRead
  split
  · unfold Mach.takeEffect
    rw [if_neg hk]
    exact ho _ (hd _)
  · exact Mach.hpError_held (hd _) (hT.sub (by decide)) _ _ _ _

/-! ### Rows of the queue commands -/

theorem Scope.allows.or {T : Scope} {a b : Nat} (ha : T.allows a) (hb : T.allows b) : T.allows (a ||| b) := by
  unfold Scope.allows at *
  rw [Nat.and_or_distrib_right, ha, hb]

/-- What any queue command but SET_PARAM, SET_OUTPUT, SIGNAL and STRATA_MARK may change: the axes and queues, and what ends with
it, an abort whose conditions now hold (R203) or step 16 of a start (R88). -/
abbrev queueMask : Nat := 0x10000000000000000000000400280000000000000804600240080001091800100008002000000000028002bc10

theorem opcOf_cmdWord (opc : Nat) (c : CmdArgs) (h : opc < 256) : opcOf (cmdWord opc c) = opc := by
  have h1 := c.flg.isLt
  have h2 := c.tag.isLt
  have h3 := c.p1.isLt
  have h4 := c.p0.isLt
  unfold opcOf cmdWord bitsOf
  rw [BitVec.toNat_ofNat]
  omega

/-- What a queue-class command changes. -/
theorem Mach.runQueue_within {T : Scope} {m : Mach} (h : m.Within T) (hT : T.allows queueMask) (q : Nat) (w : Word)
    (h30 : opcOf w ≠ 0x30) (h31 : opcOf w = 0x31 → T.allows 0x180) (h44 : opcOf w = 0x44 → T.allows (Reg.bit .Q_SIGNAL))
    (h50 : opcOf w = 0x50 → T.allows 0x800000000) : (m.runQueue q w).Within T := by
  have hq : ∀ x : Mach, x.Within T → ∀ st, (x.qDone q w st).Within T := fun x hx st => Mach.qDone_held hx (hT.sub (by decide)) _ _ _
  unfold Mach.runQueue
  dsimp only
  split
  any_goals exact Mach.waitBegin_held h (hT.sub (by decide)) _ _
  · rename_i e
    exact absurd e h30
  · rename_i e
    exact hq _ (Mach.setOutput_held h (h31 e) _) _
  · split
    · exact hq _ h _
    · split
      · exact hq _ (Mach.ite_held _ (Mach.goTo_held h (hT.sub (by decide)) _ _) h) _
      · exact hq _ h _
  · split
    · exact hq _ (Mach.call_held h (hT.sub (by decide)) _ _) _
    · exact hq _ h _
  · exact Mach.ite_held _ (hq _ h _) (hq _ (Mach.ret_held h (hT.sub (by decide)) _) _)
  · split
    · exact hq _ h _
    · split
      · exact hq _ (Mach.loop_held h (hT.sub (by decide)) _ _ _) _
      · exact hq _ h _
  · rename_i e
    refine hq _ (Mach.signal_held h ?_ _ _) _
    exact (Scope.allows.or hT (h44 e)).sub (by decide)
  · exact Mach.ite_held _ (hq _ h _) (hq _ (Mach.rtnEnd_held h (hT.sub (by decide)) _ _) _)
  · rename_i e
    exact hq _ (Mach.stMark_held h (h50 e) _ _ _ _ _) _
  · exact hq _ h _

/-- What the dispatch of a head changes. -/
theorem Mach.strobeHead_within {T : Scope} {m : Mach} (h : m.Within T) (hT : T.allows queueMask) (q : Nat) {w : Word} (hw : m.headWord q = some w)
    (h30 : opcOf w ≠ 0x30) (h31 : opcOf w = 0x31 → T.allows 0x180) (h44 : opcOf w = 0x44 → T.allows (Reg.bit .Q_SIGNAL))
    (h50 : opcOf w = 0x50 → T.allows 0x800000000) : (m.strobeHead q).Within T := by
  have hm : ∀ x : Mach, x.Within T → ∀ f, (x.modQ q f).Within T := fun x hx f => Mach.modQ_held hx (hT.sub (by decide)) _ _
  have hd : (m.dispatchWord q w).Within T := by
    unfold Mach.dispatchWord
    try dsimp only
    repeat' (first | exact hT.sub (by decide) | assumption | with_reducible apply Mach.setBit_held | with_reducible apply Mach.modQ_held | with_reducible apply Mach.qDone_held | with_reducible apply Mach.sendAxis_held | with_reducible apply Mach.runQueue_within | with_reducible apply Mach.ite_held | split)
  have ht : ∀ bad, (m.tryHead q w bad).Within T := by
    intro bad
    unfold Mach.tryHead
    try dsimp only
    repeat' (first | exact hT.sub (by decide) | with_reducible assumption | with_reducible apply Mach.fetchBad_held | with_reducible apply Mach.setBit_held | with_reducible apply Mach.modQ_held | with_reducible apply Mach.post_held | with_reducible apply Mach.ite_held | split)
  unfold Mach.strobeHead
  rw [hw]
  split
  any_goals
    split
    · exact hm _ h _
    · rename_i e
      injection e with e
      rw [← e]
      exact ht _
    · rename_i e _ _
      injection e with e
      rw [← e]
      exact ht _
    · rename_i e _
      cases e
  exact h

/-- What a row of a queue command changes. -/
theorem Mach.command_within {T : Scope} {m : Mach} (h : m.Within T) (hT : T.allows queueMask) (q opc : Nat) (c : CmdArgs) (hb : opc < 256)
    (h30 : opc ≠ 0x30) (h31 : opc = 0x31 → T.allows 0x180) (h44 : opc = 0x44 → T.allows (Reg.bit .Q_SIGNAL))
    (h50 : opc = 0x50 → T.allows 0x800000000) : (m.command q opc c).Within T := by
  have h0 : m.abortsDue.Within T := Mach.abortsDue_held h (hT.sub (by decide))
  unfold Mach.command
  extract_lets m' w m1 m2 m3
  have e : opcOf w = opc := opcOf_cmdWord opc c hb
  have h1 : m1.Within T := Mach.ite_held _ h0 (Mach.publish_held (Mach.push_held h0 (hT.sub (by decide)) _ _) (hT.sub (by decide)) _)
  have h2 : m2.Within T := Mach.pastEnd_held h1 (hT.sub (by decide)) _
  split
  · rename_i hc
    simp only [Bool.and_eq_true, beq_iff_eq] at hc
    have h3 : m3.Within T := Mach.strobeHead_within h2 hT q hc.1.2 (e ▸ h30) (e ▸ h31) (e ▸ h44) (e ▸ h50)
    exact Mach.step16Check_held (Mach.ite_held _ h3 (Mach.forAll_held h3 _ _ fun _ _ hx => Mach.takeAll_held hx (hT.sub (by decide)) _))
      (hT.sub (by decide))
  · exact h1

end Sys2Proof.Machine
end

