-- ==== Sys2Proof/Tests/States.lean ====
section
/-!
SUPPORT. Small states and values for the tests, and checks of the conditions that Safety names, as Booleans.
-/

namespace Sys2Proof.Tests

open Sys2Proof Sys2Proof.Machine

/-- The module in RUN, all registers at their start values. -/
def runM : Mach :=
  { Mach.reset with clk.running := true, kn.phase := .run, kn.vauxGood := true, kn.vhold := 0xC000, kn.done := 0xFFFF, kn.step := 16 }

/-- The module in RUN with no command waiting. -/
def runS : State := { pending := [], m := runM }

def aSeg : Seg :=
  { kind := .position, start := ⟨0, 0, 0⟩, phases := [], t0 := 0, target := 0, vEnd := 0, prof := 0, lim := ⟨1, 1, 1, 0⟩, revAt := none,
    tail := 0, status := 0 }

def aHome : Home :=
  { prof := 0, method := 1, step := 1, from_ := 0, gone := 0, backFrom := none, captured := false, stopDue := false, failCode := 0 }

def aFollow : Follow :=
  { sel := 0, law := .gear 0, prof := 0, base := 0, mb := 0, mlast := 0, mvel := 0, travel := 0, sync := none, offs := 0,
    clamp := false, lateRun := 0, lateCnt := 0, extrap := false, cmd := none, port := none, first := false }

def aWait : Wait := { from_ := 0, dueTick := none, level0 := false, pos0 := 0, ref := 0, met := false }

def aFlight : InFlight :=
  { id := 0, w := 0, lookahead := false, slots := 0, parts := 0, worst := 0, reserved := false, auto_ := false, wait := none, done := none }

def aGasp : Gasp := { sector := 0, bytes := [], done := 0 }

def aLog : Nat := 0

def aCommit : Commit :=
  { kind := 0, auto_ := false, target := 0, seq := 0, off := 0x200000, len := 0, crc := 0, plinth := [], base := 0, ovOff := 0, src := 0,
    ovLen := 0, entry := 0, flags := 0, bytes := [], phase := 2, k := 0 }

def anAcc : FlashAcc := { op := 1, addr := 0, data := 0 }

def anInj : InjReq := { sel := 0, trig := 0xFF, at_ := 0 }

def aScan : Nat := 0

def aPchk : Nat × Bool × Bool := (0, false, false)

def aCal : SfCal := { ch := 0, cmd := 1, want := 1, n := 0, sum := 0 }

def aCap : Capture := { layer := 0, t := 0, last := 0, whole := true, short := false }

def aTko (u : Nat) : Tko := { unit := u, mech := 0, ts := 0, joint := false, resumed := [] }

def anAbort : AbortRun := { tag := 0, scope := 0, halt := false, ref := 0, due := 0, late := false, ended := [] }

def aHeld (k : Nat) : Held :=
  { kind := k, at_ := 0, slice := 0, disp := 0, edge := false, nowin := false, clamp := false, safe := false, lost := false }

def aWin : PatinaWin := { refCount := 0, eyeR := 0, eyeW := 0, dies := [], axes := [] }

def aStart : StartMeas :=
  { upTo := 0, fail := none, xtalOk := true, retrainOk := true, eyes := 0, vaux := 0, vhold := 0, vms := [], rails := 7, rows := [],
    eng := 0, reg := 0, slices := [], bridgeFail := 0, delays := [], front := [], sources := [], rpu := 10000, clampTwice := 0,
    motors := [], ports := [], durs := [], toRun := 0 }

/-! ### Conditions as Booleans -/

theorem some_of {α : Type} {o : Option α} {P : α → Prop} (h : o.isSome = true) (hp : P (o.get h)) : ∃ x, o = some x ∧ P x :=
  ⟨o.get h, (Option.some_get h).symm, hp⟩

theorem takes_of {m : Mach} {k : RegKey} {w : Nat}
    (h : (m.regAnswers k && !m.lockRefuses m.lockBits k (k.r.desc.merge (m.peek k) w)) = true) : m.Takes k w := by
  simpa [Mach.Takes] using h

/-- `Queue.Offers` as a Boolean. -/
def offersB (x : Queue) (w : Word) : Bool :=
  x.stack == [.ring] && ((x.published.head? == some w && (x.st == .run || x.st == .wait)) ||
    (x.published.isEmpty && x.staged.isEmpty && (x.st == .idle || x.st == .run || x.st == .wait)))

theorem offers_of {x : Queue} {w : Word} (h : offersB x w = true) : x.Offers w := by
  simpa [offersB, Queue.Offers, and_assoc, or_assoc] using h

/-- `Mach.Fetched` as a Boolean. -/
def fetchedB (m : Mach) (q : Nat) (w : Word) : Bool :=
  (m.qu q).inRoutine && (match (m.qu q).frame.pc with | some a => decide (a + 16 ≤ (m.qu q).frame.bound) | none => true) &&
    (m.qu q).fetched.map (·.2) == some false && m.headWord q == some w && ((m.qu q).st == .run || (m.qu q).st == .wait)

theorem fetched_of {m : Mach} {q : Nat} {w : Word} (h : fetchedB m q w = true) : m.Fetched q w := by
  simp only [fetchedB, Bool.and_eq_true, beq_iff_eq, Bool.or_eq_true] at h
  obtain ⟨⟨⟨⟨h1, h2⟩, h3⟩, h4⟩, h5⟩ := h
  refine ⟨h1, ?_, h3, h4, h5⟩
  intro a ha
  rw [ha] at h2
  simpa using h2

theorem noAbort_of {m : Mach} (h : (List.finRange 64).all (fun q => (m.qu q).abort.isNone) = true) : m.NoAbort := by
  intro q
  simpa using List.all_eq_true.mp h q (List.mem_finRange q)

/-- `Mach.Ready` as a Boolean. -/
def readyB (m : Mach) (q : Nat) (w : Word) : Bool :=
  m.unitRuns && (List.finRange 64).all (fun q : Fin 64 => (m.qu q).abort.isNone) && (m.qu q).inflight.isEmpty && (m.headCheck q w).isNone &&
    (!m.readsDram q w || (m.qu q).vec) && (!m.cplStall || decide (m.cplUnread + m.cplReserved < 960)) && (offersB (m.qu q) w || fetchedB m q w)

theorem ready_of {m : Mach} {q : Nat} {w : Word} (h : readyB m q w = true) : m.Ready q w := by
  simp only [readyB, Bool.and_eq_true, Bool.or_eq_true, List.isEmpty_iff, Option.isNone_iff_eq_none, Bool.not_eq_true',
    decide_eq_true_eq] at h
  obtain ⟨⟨⟨⟨⟨⟨h1, ha⟩, h2⟩, h3⟩, hv⟩, h4⟩, h5⟩ := h
  refine ⟨h1, noAbort_of ha, h2, h3, fun hd => ?_, h4, h5.imp offers_of fetched_of⟩
  rcases hv with hv | hv
  · rw [hd] at hv; exact absurd hv (by simp)
  · exact hv

theorem axisFree_of {m : Mach} {q : Nat} (h : ((m.ax q).toTake.isEmpty && (m.ax q).kept.isNone) = true) : m.AxisFree q := by
  simpa [Mach.AxisFree] using h

/-- `Mach.OrdersFree` as a Boolean. -/
def ordersFreeB (m : Mach) (q : Nat) : Bool :=
  if q < 48 then (m.ax q).kept.isNone else (m.membersOf (q - 48)).all fun n => (m.ax n).kept.isNone

theorem ordersFree_of {m : Mach} {q : Nat} (h : ordersFreeB m q = true) : m.OrdersFree q := by
  unfold ordersFreeB at h
  unfold Mach.OrdersFree
  split at h
  · rename_i hq
    rw [if_pos hq]
    simpa using h
  · rename_i hq
    rw [if_neg hq]
    simpa using h

theorem imageCommit_of {m : Mach} (h : (
    let src := m.rd F.NV_COMMIT_SRC_SRC
    let p (i : Nat) := m.dramB (src + i)
    let img (i : Nat) := m.dramB (src + 0x1000 + i)
    decide (m.rb F.NV_COMMIT_STAT_BUSY = false ∧ m.commitState = true ∧ m.srcOk = true ∧ plinthOk p = true ∧
      src + 0x1000 + plLen p ≤ m.sysSize ∧ plSeq p = nextSeqOf m.newestSeq ∧ m.placeOk (plOff p) (plLen p) = true ∧
      crc32 (bytesAt img 0 (plLen p)) = plCrc p ∧ m.signatureOk p img = true)) = true) : m.ImageCommit := by
  simp only [decide_eq_true_eq] at h
  exact h

theorem overlayCommit_of {m : Mach} (h : (
    let src := m.rd F.NV_COMMIT_SRC_SRC
    let len := m.rd F.NV_COMMIT_LEN_LEN
    decide (m.rb F.NV_COMMIT_STAT_BUSY = false ∧ m.commitState = true ∧ m.rb F.NV_STATUS_CFG_TIE = false ∧ m.srcOk = true ∧
      len % 4 = 0 ∧ 4 ≤ len ∧ len ≤ 0x00100000 ∧ src + len ≤ m.sysSize ∧ m.overlayEntry = none ∧
      ((List.range (imgCap m.dramB)).any fun i => (imgEntry m.dramB i).sec.ty == 0) = true ∧
      m.rb F.NV_STATUS_SIGNED = false ∧ m.otp.reqSig = false ∧ m.nv.inUse.isSome = true) &&
    match m.nv.inUse with
    | some x => decide (16 * ceilDiv (16 * ceilDiv x.2.2 16 + len) 16 ≤ 0x04000000 ∧
        (m.overlayPlace (m.commitTarget 1) (16 * ceilDiv (16 * ceilDiv x.2.2 16 + len) 16)).isSome = true)
    | none => true) = true) : m.OverlayCommit := by
  simp only [Bool.and_eq_true, decide_eq_true_eq] at h
  obtain ⟨⟨h1, h2, h3, h4, h5, h6, h7, h8, h9, h10, h11, h12, h13⟩, h14⟩ := h
  refine ⟨h1, h2, h3, h4, h5, h6, h7, h8, h9, h10, h11, h12, h13, ?_⟩
  intro x hx
  rw [hx] at h14
  simpa using h14

end Sys2Proof.Tests
end

