-- ==== Sys2Proof/Tests/Completion1.lean ====
section
/-!
SUPPORT. For each statement on how commands complete: a state and operands that meet the hypotheses of each of its clauses.
-/

open Sys2Proof Sys2Proof.Machine Sys2Proof.Tests

namespace Sys2Proof.Tests

-- One proof at a time: the kernel decides each, and waits for those before it.
set_option Elab.async false

/-- The clauses of `Obligations.SupplyEventsComplete` can be met. -/
theorem test_supply_events_complete_met :
  (∃ s : State, s.m.kn.vauxGood = false ∧ s.m.kn.phase ≠ .gasp) ∧
  (∃ s : State, s.m.kn.vauxGood = false ∧ s.m.kn.phase = .gasp) ∧
  (∃ s : State, s.m.kn.vauxGood = true ∧ s.m.kn.phase ≠ .gasp ∧ s.m.lgArmed = true) ∧
  (∃ s : State, s.m.kn.vauxGood = true ∧ s.m.kn.phase ≠ .gasp ∧ s.m.lgArmed = false) ∧
  (∃ s : State, ∃ g, s.m.kn.gasp = some g ∧ s.m.kn.phase = .gasp ∧ g.done < 17) ∧
  (∃ s : State, ∃ g, s.m.kn.gasp = some g ∧ s.m.kn.phase = .gasp ∧ 17 ≤ g.done) ∧
  (∃ s : State, s.m.kn.vauxGood = false) ∧
  (∃ s : State, s.m.kn.vauxGood = true) ∧
  (∃ s : State, s.m.kn.phase ≠ .off ∧ s.m.kn.phase ≠ .spent) :=
   ⟨⟨⟨[], (fun mm : Mach => { mm with kn.vauxGood := false }) runM⟩, by decide +kernel⟩,
    ⟨⟨[], (fun mm : Mach => { mm with kn.phase := .gasp }) ((fun mm : Mach => { mm with kn.vauxGood := false }) runM)⟩, by decide +kernel⟩,
    ⟨⟨[], (fun mm : Mach => { mm with kn.vauxGood := true }) runM⟩, by decide +kernel⟩,
    ⟨⟨[], (fun mm : Mach => { mm with kn.vhold := 0 }) ((fun mm : Mach => mm.wr F.KN_SUPPLY_VAUX_V 0xC000) ((fun mm : Mach => { mm with kn.vauxGood := true }) runM))⟩, by decide +kernel⟩,
    ⟨⟨[], (fun mm : Mach => { mm with kn.phase := .gasp }) ((fun mm : Mach => { mm with kn.gasp := some (aGasp) }) runM)⟩, some_of (by decide +kernel) (by decide +kernel)⟩,
    ⟨⟨[], (fun mm : Mach => { mm with kn.phase := .gasp, kn.gasp := some { aGasp with done := 17 } }) ((fun mm : Mach => { mm with kn.phase := .gasp }) ((fun mm : Mach => { mm with kn.gasp := some (aGasp) }) runM))⟩, some_of (by decide +kernel) (by decide +kernel)⟩,
    ⟨⟨[], (fun mm : Mach => { mm with kn.vauxGood := false }) runM⟩, by decide +kernel⟩,
    ⟨⟨[], (fun mm : Mach => { mm with kn.vauxGood := true }) runM⟩, by decide +kernel⟩,
    ⟨⟨[], runM⟩, by decide +kernel⟩⟩

/-- The clauses of `Obligations.BankMonitorEventsComplete` can be met. -/
theorem test_bank_monitor_events_complete_met :
  (∃ (s : State) (b : Fin 4), s.m.monitored = true ∧ s.m.rb F.PW_VMON_STAT_UV_NOW b.val = false) ∧
  (∃ (s : State) (b : Fin 4), s.m.rb F.PW_VMON_STAT_UV_NOW b.val = true) ∧
  (∃ (s : State) (b : Fin 4), s.m.Takes ⟨.PW_VMON_STAT, b.val, 0⟩ 64 ∧ s.m.rb F.PW_VMON_STAT_RESUME_PEND b.val = true) ∧
  (∃ (s : State) (b : Fin 4), (s.m.bank b.val).rampT0.isSome = true) ∧
  (∃ (s : State) (b : Fin 4), s.m.kn.phase ≠ .off ∧ (s.m.bank b.val).clamp = false ∧ s.m.rb F.PW_VMON_CFG_OV_EN b.val = true) ∧
  (∃ (s : State) (b : Fin 4), (s.m.bank b.val).clamp = true) ∧
  (∃ (s : State) (b : Fin 4), (s.m.bank b.val).clamp = true ∧ (s.m.bank b.val).clampLate = false) :=
   ⟨⟨⟨[], (fun mm : Mach => mm.wr F.PW_VMON_STAT_UV_NOW (b2n (false)) (0 : Fin 4).val) runM⟩, 0, by decide +kernel⟩,
    ⟨⟨[], (fun mm : Mach => mm.wr F.PW_VMON_STAT_UV_NOW (b2n (true)) (0 : Fin 4).val) runM⟩, 0, by decide +kernel⟩,
    ⟨⟨[], (fun mm : Mach => mm.wr F.PW_VMON_STAT_RESUME_PEND (b2n (true)) (0 : Fin 4).val) ((fun mm : Mach => { mm with kn.phase := if mm.kn.phase == .off || mm.kn.phase == .gasp || mm.kn.phase == .resetLow then .run else mm.kn.phase, kn.done := 0xFFFF }) ((fun mm : Mach => mm.setReg .GL_LOCK 0 0 0) runM))⟩, 0, ⟨takes_of (by decide +kernel), by decide +kernel⟩⟩,
    ⟨⟨[], (fun mm : Mach => mm.modBank 0 fun x => { x with rampT0 := some 1 }) runM⟩, 0, by decide +kernel⟩,
    ⟨⟨[], (fun mm : Mach => mm.wr F.PW_VMON_CFG_OV_EN (b2n (true)) (0 : Fin 4).val) ((fun mm : Mach => { mm with banks := vmod mm.banks (0 : Fin 4).val fun x__ => { x__ with clamp := false } }) runM)⟩, 0, by decide +kernel⟩,
    ⟨⟨[], (fun mm : Mach => { mm with banks := vmod mm.banks (0 : Fin 4).val fun x__ => { x__ with clamp := true } }) runM⟩, 0, by decide +kernel⟩,
    ⟨⟨[], (fun mm : Mach => { mm with banks := vmod mm.banks (0 : Fin 4).val fun x__ => { x__ with clampLate := false } }) ((fun mm : Mach => { mm with banks := vmod mm.banks (0 : Fin 4).val fun x__ => { x__ with clamp := true } }) runM)⟩, 0, by decide +kernel⟩⟩

/-- The clauses of `Obligations.ResetAndKilnStartComplete` can be met. -/
theorem test_reset_and_kiln_start_complete_met :
  (∃ s : State, s.m.kn.phase ≠ .gasp ∧ s.m.kn.phase ≠ .off ∧ s.m.kn.phase ≠ .spent) ∧
  (∃ s : State, s.m.kn.phase = .gasp ∨ s.m.kn.phase = .off ∨ s.m.kn.phase = .spent) ∧
  (∃ s : State, s.m.kn.phase = .resetLow) ∧
  (∃ s : State, s.m.kn.phase ≠ .resetLow) ∧
  (∃ (s : State) (w : StartMeas), s.m.testInstr = false ∧ s.m.kn.phase = .start ∧ s.m.kn.step = 3 ∧ w.upTo.val = 3 ∧ w.fail = none) ∧
  (∃ (s : State) (w : StartMeas), s.m.testInstr = false ∧ s.m.kn.phase = .start ∧ s.m.kn.step = 1 ∧ w.upTo.val = 1 ∧ w.rails = 7) ∧
  (∃ (s : State) (w : StartMeas), s.m.testInstr = false ∧ s.m.kn.phase = .start ∧ s.m.kn.step = 2 ∧ w.upTo.val = 2 ∧ w.fail = none) ∧
  (∃ (s : State) (w : StartMeas), s.m.testInstr = false ∧ s.m.kn.phase = .start ∧ s.m.kn.step = 1 ∧ w.upTo.val = 1 ∧ w.rails ≠ 7) ∧
  (∃ (s : State) (w : StartMeas), s.m.testInstr = true ∨ (s.m.kn.phase = .start ∧ w.upTo.val < s.m.kn.step)) ∧
  (∃ s : State, s.m.testInstr = false ∧ s.m.kn.phase = .start ∧ 1 ≤ s.m.kn.step ∧ s.m.kn.step ≤ 14) ∧
  (∃ s : State, s.m.testInstr = false ∧ s.m.kn.phase = .waiting) ∧
  (∃ (s : State) (clrCnt : Bool), s.m.Takes ⟨.KN_CTRL, 0, 0⟩ (1 + 2 * b2n clrCnt) ∧ s.m.kn.phase = .hold) ∧
  (∃ (s : State) (clrCnt : Bool), s.m.Takes ⟨.KN_CTRL, 0, 0⟩ (1 + 2 * b2n clrCnt) ∧ s.m.kn.phase ≠ .hold) :=
   ⟨⟨⟨[], runM⟩, by decide +kernel⟩,
    ⟨⟨[], (fun mm : Mach => { mm with kn.phase := .gasp }) runM⟩, by decide +kernel⟩,
    ⟨⟨[], (fun mm : Mach => { mm with kn.phase := .resetLow }) runM⟩, by decide +kernel⟩,
    ⟨⟨[], runM⟩, by decide +kernel⟩,
    ⟨⟨[], (fun mm : Mach => { mm with kn.step := 3 }) ((fun mm : Mach => { mm with kn.phase := .start }) ((fun mm : Mach => { mm with testInstr := false }) runM))⟩, ({ ({ (aStart : StartMeas) with upTo := 3 } : StartMeas) with fail := none } : StartMeas), by decide +kernel⟩,
    ⟨⟨[], (fun mm : Mach => { mm with kn.step := 1 }) ((fun mm : Mach => { mm with kn.phase := .start }) ((fun mm : Mach => { mm with testInstr := false }) runM))⟩, ({ ({ (aStart : StartMeas) with upTo := 1 } : StartMeas) with rails := 7 } : StartMeas), by decide +kernel⟩,
    ⟨⟨[], (fun mm : Mach => { mm with kn.step := 2 }) ((fun mm : Mach => { mm with kn.phase := .start }) ((fun mm : Mach => { mm with testInstr := false }) runM))⟩, ({ ({ (aStart : StartMeas) with upTo := 2 } : StartMeas) with fail := none } : StartMeas), by decide +kernel⟩,
    ⟨⟨[], (fun mm : Mach => { mm with kn.phase := .start, kn.step := 1 }) ((fun mm : Mach => { mm with kn.step := 1 }) ((fun mm : Mach => { mm with kn.phase := .start }) ((fun mm : Mach => { mm with testInstr := false }) runM)))⟩, ({ aStart with upTo := 1, rails := 6 } : StartMeas), by decide +kernel⟩,
    ⟨⟨[], (fun mm : Mach => { mm with testInstr := true }) runM⟩, aStart, by decide +kernel⟩,
    ⟨⟨[], (fun mm : Mach => { mm with kn.step := 14 }) ((fun mm : Mach => { mm with kn.phase := .start }) ((fun mm : Mach => { mm with testInstr := false }) runM))⟩, by decide +kernel⟩,
    ⟨⟨[], (fun mm : Mach => { mm with kn.phase := .waiting }) ((fun mm : Mach => { mm with testInstr := false }) runM)⟩, by decide +kernel⟩,
    ⟨⟨[], (fun mm : Mach => { mm with kn.phase := .hold }) ((fun mm : Mach => { mm with kn.phase := if mm.kn.phase == .off || mm.kn.phase == .gasp || mm.kn.phase == .resetLow then .run else mm.kn.phase, kn.done := 0xFFFF }) ((fun mm : Mach => mm.setReg .GL_LOCK 0 0 0) runM))⟩, false, ⟨takes_of (by decide +kernel), by decide +kernel⟩⟩,
    ⟨⟨[], (fun mm : Mach => { mm with kn.phase := if mm.kn.phase == .off || mm.kn.phase == .gasp || mm.kn.phase == .resetLow then .run else mm.kn.phase, kn.done := 0xFFFF }) ((fun mm : Mach => mm.setReg .GL_LOCK 0 0 0) runM)⟩, false, ⟨takes_of (by decide +kernel), by decide +kernel⟩⟩⟩

/-- The clauses of `Obligations.StartPhaseEventsComplete` can be met. -/
theorem test_start_phase_events_complete_met :
  (∃ s : State, s.m.kn.phase = .run ∧ s.m.kn.step16 = false ∧ (s.m.queues.toList.any (fun x => x.auto_ && x.st != .halted) = false ∨ 3000000 ≤ s.m.clk.tick)) ∧
  (∃ s : State, s.m.kn.phase = .run ∧ s.m.queues.toList.any (fun x => x.auto_ && x.st != .halted) = true ∧ s.m.clk.tick < 3000000) ∧
  (∃ s : State, s.m.Takes ⟨.KN_CTRL, 0, 0⟩ 4 ∧ s.m.kn.log = none) ∧
  (∃ s : State, ∃ a, s.m.kn.log = some a ∧ s.m.Takes ⟨.KN_CTRL, 0, 0⟩ 4) ∧
  (∃ s : State, s.m.Takes ⟨.KN_CTRL, 0, 0⟩ 8 ∧ s.m.kn.log = none) ∧
  (∃ s : State, ∃ a, s.m.kn.log = some a ∧ s.m.Takes ⟨.KN_CTRL, 0, 0⟩ 8) :=
   ⟨⟨⟨[], (fun mm : Mach => { mm with kn.step16 := false }) ((fun mm : Mach => { mm with kn.phase := .run }) runM)⟩, by decide +kernel⟩,
    ⟨⟨[], (fun mm : Mach => mm.modQ 0 fun x => { x with auto_ := true }) ((fun mm : Mach => { mm with kn.phase := .run }) runM)⟩, by decide +kernel⟩,
    ⟨⟨[], (fun mm : Mach => { mm with kn.log := none }) ((fun mm : Mach => { mm with kn.phase := if mm.kn.phase == .off || mm.kn.phase == .gasp || mm.kn.phase == .resetLow then .run else mm.kn.phase, kn.done := 0xFFFF }) ((fun mm : Mach => mm.setReg .GL_LOCK 0 0 0) runM))⟩, ⟨takes_of (by decide +kernel), by decide +kernel⟩⟩,
    ⟨⟨[], (fun mm : Mach => { mm with kn.phase := if mm.kn.phase == .off || mm.kn.phase == .gasp || mm.kn.phase == .resetLow then .run else mm.kn.phase, kn.done := 0xFFFF }) ((fun mm : Mach => mm.setReg .GL_LOCK 0 0 0) ((fun mm : Mach => { mm with kn.log := some (aLog) }) runM))⟩, some_of (by decide +kernel) (takes_of (by decide +kernel))⟩,
    ⟨⟨[], (fun mm : Mach => { mm with kn.log := none }) ((fun mm : Mach => { mm with kn.phase := if mm.kn.phase == .off || mm.kn.phase == .gasp || mm.kn.phase == .resetLow then .run else mm.kn.phase, kn.done := 0xFFFF }) ((fun mm : Mach => mm.setReg .GL_LOCK 0 0 0) runM))⟩, ⟨takes_of (by decide +kernel), by decide +kernel⟩⟩,
    ⟨⟨[], (fun mm : Mach => { mm with kn.phase := if mm.kn.phase == .off || mm.kn.phase == .gasp || mm.kn.phase == .resetLow then .run else mm.kn.phase, kn.done := 0xFFFF }) ((fun mm : Mach => mm.setReg .GL_LOCK 0 0 0) ((fun mm : Mach => { mm with kn.log := some (aLog) }) runM))⟩, some_of (by decide +kernel) (takes_of (by decide +kernel))⟩⟩

/-- The clauses of `Obligations.CommitRequestsComplete` can be met. -/
theorem test_commit_requests_complete_met :
  (∃ s : State, s.m.Takes ⟨.NV_COMMIT, 0, 0⟩ 1 ∧ s.m.rb F.NV_COMMIT_STAT_BUSY = true) ∧
  (∃ s : State, s.m.Takes ⟨.NV_COMMIT, 0, 0⟩ 1 ∧ s.m.ImageCommit) ∧
  (∃ s : State, s.m.Takes ⟨.NV_COMMIT, 0, 0⟩ 5 ∧ s.m.rb F.NV_COMMIT_STAT_BUSY = true) ∧
  (∃ s : State, s.m.Takes ⟨.NV_COMMIT, 0, 0⟩ 5 ∧ s.m.OverlayCommit) ∧
  (∃ s : State, s.m.Takes ⟨.NV_COMMIT, 0, 0⟩ 9 ∧ s.m.rb F.NV_COMMIT_STAT_BUSY = false ∧ s.m.kn.phase = .run ∧ s.m.rb F.NV_STATUS_CFG_TIE = false) ∧
  (∃ s : State, s.m.Takes ⟨.NV_COMMIT, 0, 0⟩ 9 ∧ (s.m.rb F.NV_COMMIT_STAT_BUSY = true ∨ s.m.kn.phase ≠ .run ∨ s.m.rb F.NV_STATUS_CFG_TIE = true)) ∧
  (∃ s : State, s.m.Takes ⟨.NV_COMMIT, 0, 0⟩ 13) ∧
  (∃ s : State, s.m.Takes ⟨.NV_COMMIT, 0, 0⟩ 2 ∧ s.m.rb F.NV_STATUS_CFG_TIE = true) ∧
  (∃ s : State, s.m.Takes ⟨.NV_COMMIT, 0, 0⟩ 2 ∧ s.m.rb F.NV_STATUS_CFG_TIE = false) :=
   ⟨⟨⟨[], (fun mm : Mach => mm.wr F.NV_COMMIT_STAT_BUSY (b2n (true))) ((fun mm : Mach => { mm with kn.phase := if mm.kn.phase == .off || mm.kn.phase == .gasp || mm.kn.phase == .resetLow then .run else mm.kn.phase, kn.done := 0xFFFF }) ((fun mm : Mach => mm.setReg .GL_LOCK 0 0 0) runM))⟩, ⟨takes_of (by decide +kernel), by decide +kernel⟩⟩,
    ⟨⟨[], (fun mm : Mach => { mm.dramWrite 0x060000FC 4 0x3873D40E with nv.capacity := 0x1000000 }) ((fun mm : Mach => (mm.wr F.NV_COMMIT_SRC_SRC 0x06000000).dramWrite 0x06000000 32 0x1180000758D633600000040002000000000000101000001504C4E54) ((fun mm : Mach => { mm with kn.phase := if mm.kn.phase == .off || mm.kn.phase == .gasp || mm.kn.phase == .resetLow then .run else mm.kn.phase, kn.done := 0xFFFF }) ((fun mm : Mach => mm.setReg .GL_LOCK 0 0 0) runM)))⟩, ⟨takes_of (by decide +kernel), imageCommit_of (by decide +kernel)⟩⟩,
    ⟨⟨[], (fun mm : Mach => mm.wr F.NV_COMMIT_STAT_BUSY (b2n (true))) ((fun mm : Mach => { mm with kn.phase := if mm.kn.phase == .off || mm.kn.phase == .gasp || mm.kn.phase == .resetLow then .run else mm.kn.phase, kn.done := 0xFFFF }) ((fun mm : Mach => mm.setReg .GL_LOCK 0 0 0) runM))⟩, ⟨takes_of (by decide +kernel), by decide +kernel⟩⟩,
    ⟨⟨[], (fun mm : Mach => { mm with nv.capacity := 0x1000000, nv.inUse := some (0, 0x200000, 0x1000) }) ((fun mm : Mach => ((mm.wr F.NV_COMMIT_SRC_SRC 0x06000000).wr F.NV_COMMIT_LEN_LEN 4).dramWrite 6 2 1) ((fun mm : Mach => { mm with kn.phase := if mm.kn.phase == .off || mm.kn.phase == .gasp || mm.kn.phase == .resetLow then .run else mm.kn.phase, kn.done := 0xFFFF }) ((fun mm : Mach => mm.setReg .GL_LOCK 0 0 0) runM)))⟩, ⟨takes_of (by decide +kernel), overlayCommit_of (by decide +kernel)⟩⟩,
    ⟨⟨[], (fun mm : Mach => mm.wr F.NV_STATUS_CFG_TIE (b2n (false))) ((fun mm : Mach => { mm with kn.phase := .run }) ((fun mm : Mach => mm.wr F.NV_COMMIT_STAT_BUSY (b2n (false))) ((fun mm : Mach => { mm with kn.phase := if mm.kn.phase == .off || mm.kn.phase == .gasp || mm.kn.phase == .resetLow then .run else mm.kn.phase, kn.done := 0xFFFF }) ((fun mm : Mach => mm.setReg .GL_LOCK 0 0 0) runM))))⟩, ⟨takes_of (by decide +kernel), by decide +kernel⟩⟩,
    ⟨⟨[], (fun mm : Mach => mm.wr F.NV_COMMIT_STAT_BUSY (b2n (true))) ((fun mm : Mach => { mm with kn.phase := if mm.kn.phase == .off || mm.kn.phase == .gasp || mm.kn.phase == .resetLow then .run else mm.kn.phase, kn.done := 0xFFFF }) ((fun mm : Mach => mm.setReg .GL_LOCK 0 0 0) runM))⟩, ⟨takes_of (by decide +kernel), by decide +kernel⟩⟩,
    ⟨⟨[], (fun mm : Mach => { mm with kn.phase := if mm.kn.phase == .off || mm.kn.phase == .gasp || mm.kn.phase == .resetLow then .run else mm.kn.phase, kn.done := 0xFFFF }) ((fun mm : Mach => mm.setReg .GL_LOCK 0 0 0) runM)⟩, takes_of (by decide +kernel)⟩,
    ⟨⟨[], (fun mm : Mach => mm.wr F.NV_STATUS_CFG_TIE (b2n (true))) ((fun mm : Mach => { mm with kn.phase := if mm.kn.phase == .off || mm.kn.phase == .gasp || mm.kn.phase == .resetLow then .run else mm.kn.phase, kn.done := 0xFFFF }) ((fun mm : Mach => mm.setReg .GL_LOCK 0 0 0) runM))⟩, ⟨takes_of (by decide +kernel), by decide +kernel⟩⟩,
    ⟨⟨[], (fun mm : Mach => mm.wr F.NV_STATUS_CFG_TIE (b2n (false))) ((fun mm : Mach => { mm with kn.phase := if mm.kn.phase == .off || mm.kn.phase == .gasp || mm.kn.phase == .resetLow then .run else mm.kn.phase, kn.done := 0xFFFF }) ((fun mm : Mach => mm.setReg .GL_LOCK 0 0 0) runM))⟩, ⟨takes_of (by decide +kernel), by decide +kernel⟩⟩⟩

/-- The clauses of `Obligations.CommitProgressCompletes` can be met. -/
theorem test_commit_progress_completes_met :
  (∃ s : State, ∃ c, s.m.nv.commit = some c ∧ s.m.nv.lost = false ∧ c.phase = 2) ∧
  (∃ s : State, ∃ c, s.m.nv.commit = some c ∧ s.m.nv.lost = false ∧ c.phase = 4 ∧ c.k + 1 < c.pages) ∧
  (∃ (s : State) (late : FlashLate), ∃ c, s.m.nv.commit = some c ∧ late.ring = false ∧ c.kind ≠ 2 ∧ ¬(c.phase = 5 ∨ (c.phase = 6 ∧ c.k ≠ 0))) ∧
  (∃ (s : State) (late : FlashLate), ∃ c, s.m.nv.commit = some c ∧ late.ring = false ∧ ¬(c.phase = 5 ∨ (c.phase = 6 ∧ c.k ≠ 0))) ∧
  (∃ (s : State) (late : FlashLate), ∃ x, s.m.nv.acc = some x ∧ late.ring = false ∧ s.m.nv.commit = none ∧ x.op ≠ 0) ∧
  (∃ (s : State) (late : FlashLate), ∃ c, s.m.nv.commit = some c ∧ late.ring = false ∧ (c.phase = 5 ∨ (c.phase = 6 ∧ c.k ≠ 0))) ∧
  (∃ (s : State) (late : FlashLate), ∃ r, s.m.nv.ringOp = some r ∧ late.ring = true) ∧
  (∃ s : State, s.m.kn.phase = .run ∧ s.m.rb F.NV_CAL_STAT_PENDING = true ∧ s.m.nv.autoDone = false ∧ s.m.nv.commit = none) ∧
  (∃ s : State, ∃ c, s.m.nv.commit = some c ∧ s.m.nv.lost = false ∧ c.kind = 2) :=
   ⟨⟨⟨[], (fun mm : Mach => { mm with nv.commit := (mm.nv.commit).map fun y__ => { y__ with phase := 2 } }) ((fun mm : Mach => { mm with nv.lost := false }) ((fun mm : Mach => { mm with nv.commit := some (aCommit) }) runM))⟩, some_of (by decide +kernel) (by decide +kernel)⟩,
    ⟨⟨[], (fun mm : Mach => { mm with nv.commit := some { aCommit with phase := 4, len := 0x1000 } }) ((fun mm : Mach => { mm with nv.commit := (mm.nv.commit).map fun y__ => { y__ with phase := 4 } }) ((fun mm : Mach => { mm with nv.lost := false }) ((fun mm : Mach => { mm with nv.commit := some (aCommit) }) runM)))⟩, some_of (by decide +kernel) (by decide +kernel)⟩,
    ⟨⟨[], (fun mm : Mach => { mm with nv.commit := some { aCommit with phase := 2 } }) ((fun mm : Mach => { mm with nv.commit := some (aCommit) }) runM)⟩, ({ (⟨false, false⟩ : FlashLate) with ring := false } : FlashLate), some_of (by decide +kernel) (by decide +kernel)⟩,
    ⟨⟨[], (fun mm : Mach => { mm with nv.commit := some { aCommit with phase := 2 } }) ((fun mm : Mach => { mm with nv.commit := some (aCommit) }) runM)⟩, ({ (⟨false, false⟩ : FlashLate) with ring := false } : FlashLate), some_of (by decide +kernel) (by decide +kernel)⟩,
    ⟨⟨[], (fun mm : Mach => { mm with nv.acc := some anAcc }) ((fun mm : Mach => { mm with nv.commit := none }) ((fun mm : Mach => { mm with nv.acc := some (anAcc) }) runM))⟩, ({ (⟨false, false⟩ : FlashLate) with ring := false } : FlashLate), some_of (by decide +kernel) (by decide +kernel)⟩,
    ⟨⟨[], (fun mm : Mach => { mm with nv.commit := some { aCommit with phase := 5 } }) ((fun mm : Mach => { mm with nv.commit := (mm.nv.commit).map fun y__ => { y__ with phase := 5 } }) ((fun mm : Mach => { mm with nv.commit := some (aCommit) }) runM))⟩, ({ (⟨false, false⟩ : FlashLate) with ring := false } : FlashLate), some_of (by decide +kernel) (by decide +kernel)⟩,
    ⟨⟨[], (fun mm : Mach => { mm with nv.ringOp := some (0, 256) }) ((fun mm : Mach => { mm with nv.ringOp := some ((0, 256)) }) runM)⟩, (⟨true, false⟩ : FlashLate), some_of (by decide +kernel) (by decide +kernel)⟩,
    ⟨⟨[], (fun mm : Mach => { mm with nv.commit := none }) ((fun mm : Mach => { mm with nv.autoDone := false }) ((fun mm : Mach => mm.wr F.NV_CAL_STAT_PENDING (b2n (true))) ((fun mm : Mach => { mm with kn.phase := .run }) runM)))⟩, by decide +kernel⟩,
    ⟨⟨[], (fun mm : Mach => { mm with nv.commit := (mm.nv.commit).map fun y__ => { y__ with kind := 2 } }) ((fun mm : Mach => { mm with nv.lost := false }) ((fun mm : Mach => { mm with nv.commit := some (aCommit) }) runM))⟩, some_of (by decide +kernel) (by decide +kernel)⟩⟩

/-- The clauses of `Obligations.FlashAccessCompletes` can be met. -/
theorem test_flash_access_completes_met :
  (∃ s : State, s.m.Takes ⟨.NV_ACC_CTRL, 0, 0⟩ 4 ∧ s.m.accRefused 0 (s.m.rd F.NV_ACC_ADDR_ADDR) = false) ∧
  (∃ s : State, s.m.Takes ⟨.NV_ACC_CTRL, 0, 0⟩ 4 ∧ s.m.accRefused 0 (s.m.rd F.NV_ACC_ADDR_ADDR) = true) ∧
  (∃ s : State, s.m.Takes ⟨.NV_ACC_CTRL, 0, 0⟩ 5 ∧ s.m.accRefused 1 (s.m.rd F.NV_ACC_ADDR_ADDR) = false) ∧
  (∃ s : State, s.m.Takes ⟨.NV_ACC_CTRL, 0, 0⟩ 5 ∧ s.m.accRefused 1 (s.m.rd F.NV_ACC_ADDR_ADDR) = true) ∧
  (∃ s : State, s.m.Takes ⟨.NV_ACC_CTRL, 0, 0⟩ 6 ∧ s.m.accRefused 2 (s.m.rd F.NV_ACC_ADDR_ADDR) = false) ∧
  (∃ s : State, s.m.Takes ⟨.NV_ACC_CTRL, 0, 0⟩ 6 ∧ s.m.accRefused 2 (s.m.rd F.NV_ACC_ADDR_ADDR) = true) ∧
  (∃ s : State, s.m.Takes ⟨.NV_ACC_CTRL, 0, 0⟩ 7 ∧ s.m.accRefused 3 (s.m.rd F.NV_ACC_ADDR_ADDR) = false) ∧
  (∃ s : State, s.m.Takes ⟨.NV_ACC_CTRL, 0, 0⟩ 7 ∧ s.m.accRefused 3 (s.m.rd F.NV_ACC_ADDR_ADDR) = true) ∧
  (∃ s : State, ∃ x, s.m.nv.acc = some x ∧ s.m.nv.commit = none ∧ s.m.nv.lost = false) ∧
  (∃ s : State, s.m.clk.running = true ∧ s.m.nv.lost = false) :=
   ⟨⟨⟨[], (fun mm : Mach => { mm with kn.phase := if mm.kn.phase == .off || mm.kn.phase == .gasp || mm.kn.phase == .resetLow then .run else mm.kn.phase, kn.done := 0xFFFF }) ((fun mm : Mach => mm.setReg .GL_LOCK 0 0 0) runM)⟩, ⟨takes_of (by decide +kernel), by decide +kernel⟩⟩,
    ⟨⟨[], (fun mm : Mach => mm.wr F.NV_ACC_ADDR_ADDR 1) ((fun mm : Mach => { mm with kn.phase := if mm.kn.phase == .off || mm.kn.phase == .gasp || mm.kn.phase == .resetLow then .run else mm.kn.phase, kn.done := 0xFFFF }) ((fun mm : Mach => mm.setReg .GL_LOCK 0 0 0) runM))⟩, ⟨takes_of (by decide +kernel), by decide +kernel⟩⟩,
    ⟨⟨[], (fun mm : Mach => mm.wr F.NV_ACC_ADDR_ADDR 0x200000) ((fun mm : Mach => { mm with nv.capacity := 0x1000000 }) ((fun mm : Mach => { mm with kn.phase := if mm.kn.phase == .off || mm.kn.phase == .gasp || mm.kn.phase == .resetLow then .run else mm.kn.phase, kn.done := 0xFFFF }) ((fun mm : Mach => mm.setReg .GL_LOCK 0 0 0) runM)))⟩, ⟨takes_of (by decide +kernel), by decide +kernel⟩⟩,
    ⟨⟨[], (fun mm : Mach => { mm with kn.phase := if mm.kn.phase == .off || mm.kn.phase == .gasp || mm.kn.phase == .resetLow then .run else mm.kn.phase, kn.done := 0xFFFF }) ((fun mm : Mach => mm.setReg .GL_LOCK 0 0 0) runM)⟩, ⟨takes_of (by decide +kernel), by decide +kernel⟩⟩,
    ⟨⟨[], (fun mm : Mach => mm.wr F.NV_ACC_ADDR_ADDR 0x200000) ((fun mm : Mach => { mm with nv.capacity := 0x1000000 }) ((fun mm : Mach => { mm with kn.phase := if mm.kn.phase == .off || mm.kn.phase == .gasp || mm.kn.phase == .resetLow then .run else mm.kn.phase, kn.done := 0xFFFF }) ((fun mm : Mach => mm.setReg .GL_LOCK 0 0 0) runM)))⟩, ⟨takes_of (by decide +kernel), by decide +kernel⟩⟩,
    ⟨⟨[], (fun mm : Mach => { mm with kn.phase := if mm.kn.phase == .off || mm.kn.phase == .gasp || mm.kn.phase == .resetLow then .run else mm.kn.phase, kn.done := 0xFFFF }) ((fun mm : Mach => mm.setReg .GL_LOCK 0 0 0) runM)⟩, ⟨takes_of (by decide +kernel), by decide +kernel⟩⟩,
    ⟨⟨[], (fun mm : Mach => mm.wr F.NV_ACC_ADDR_ADDR 0x200000) ((fun mm : Mach => { mm with nv.capacity := 0x1000000 }) ((fun mm : Mach => { mm with kn.phase := if mm.kn.phase == .off || mm.kn.phase == .gasp || mm.kn.phase == .resetLow then .run else mm.kn.phase, kn.done := 0xFFFF }) ((fun mm : Mach => mm.setReg .GL_LOCK 0 0 0) runM)))⟩, ⟨takes_of (by decide +kernel), by decide +kernel⟩⟩,
    ⟨⟨[], (fun mm : Mach => { mm with kn.phase := if mm.kn.phase == .off || mm.kn.phase == .gasp || mm.kn.phase == .resetLow then .run else mm.kn.phase, kn.done := 0xFFFF }) ((fun mm : Mach => mm.setReg .GL_LOCK 0 0 0) runM)⟩, ⟨takes_of (by decide +kernel), by decide +kernel⟩⟩,
    ⟨⟨[], (fun mm : Mach => { mm with nv.lost := false }) ((fun mm : Mach => { mm with nv.commit := none }) ((fun mm : Mach => { mm with nv.acc := some (anAcc) }) runM))⟩, some_of (by decide +kernel) (by decide +kernel)⟩,
    ⟨⟨[], (fun mm : Mach => { mm with nv.lost := false }) ((fun mm : Mach => { mm with clk.running := true }) runM)⟩, by decide +kernel⟩⟩

/-- The clauses of `Obligations.KeyCommandsComplete` can be met. -/
theorem test_key_commands_complete_met :
  (∃ (s : State) (slot : Fin 4) (guard : BitVec 8), s.m.Takes ⟨.NV_KEY_CMD, 0, 0⟩ (slot.val + 4 + guard.toNat * 2 ^ 8) ∧ guard = 0xA5 ∧ s.m.keyAllowed = true ∧ vget none s.m.otp.hashes slot.val = none) ∧
  (∃ (s : State) (slot : Fin 4) (guard : BitVec 8), s.m.Takes ⟨.NV_KEY_CMD, 0, 0⟩ (slot.val + 4 + guard.toNat * 2 ^ 8) ∧ guard = 0xA5 ∧ (s.m.keyAllowed = false ∨ (vget none s.m.otp.hashes slot.val).isSome = true)) ∧
  (∃ (s : State) (slot : Fin 4) (guard : BitVec 8), s.m.Takes ⟨.NV_KEY_CMD, 0, 0⟩ (slot.val + 8 + guard.toNat * 2 ^ 8) ∧ guard = 0xA5 ∧ s.m.keyAllowed = true) ∧
  (∃ (s : State) (guard : BitVec 8), s.m.Takes ⟨.NV_KEY_CMD, 0, 0⟩ (12 + guard.toNat * 2 ^ 8) ∧ guard = 0xA5 ∧ s.m.keyAllowed = true) ∧
  (∃ (s : State) (slot : Fin 4) (guard : BitVec 8), s.m.Takes ⟨.NV_KEY_CMD, 0, 0⟩ (slot.val + 4 + guard.toNat * 2 ^ 8) ∧ guard ≠ 0xA5) ∧
  (∃ (s : State) (slot : Fin 4) (guard : BitVec 8), s.m.Takes ⟨.NV_KEY_CMD, 0, 0⟩ (slot.val + 8 + guard.toNat * 2 ^ 8) ∧ (guard ≠ 0xA5 ∨ s.m.keyAllowed = false)) ∧
  (∃ (s : State) (guard : BitVec 8), s.m.Takes ⟨.NV_KEY_CMD, 0, 0⟩ (12 + guard.toNat * 2 ^ 8) ∧ (guard ≠ 0xA5 ∨ s.m.keyAllowed = false)) :=
   ⟨⟨⟨[], (fun mm : Mach => { mm with kn.phase := if mm.kn.phase == .off || mm.kn.phase == .gasp || mm.kn.phase == .resetLow then .run else mm.kn.phase, kn.done := 0xFFFF }) ((fun mm : Mach => mm.setReg .GL_LOCK 0 0 0) runM)⟩, 0, 0xA5, ⟨takes_of (by decide +kernel), by decide +kernel⟩⟩,
    ⟨⟨[], (fun mm : Mach => { mm with kn.phase := .start }) ((fun mm : Mach => { mm with kn.phase := if mm.kn.phase == .off || mm.kn.phase == .gasp || mm.kn.phase == .resetLow then .run else mm.kn.phase, kn.done := 0xFFFF }) ((fun mm : Mach => mm.setReg .GL_LOCK 0 0 0) runM))⟩, 0, 0xA5, ⟨takes_of (by decide +kernel), by decide +kernel⟩⟩,
    ⟨⟨[], (fun mm : Mach => { mm with kn.phase := if mm.kn.phase == .off || mm.kn.phase == .gasp || mm.kn.phase == .resetLow then .run else mm.kn.phase, kn.done := 0xFFFF }) ((fun mm : Mach => mm.setReg .GL_LOCK 0 0 0) runM)⟩, 0, 0xA5, ⟨takes_of (by decide +kernel), by decide +kernel⟩⟩,
    ⟨⟨[], (fun mm : Mach => { mm with kn.phase := if mm.kn.phase == .off || mm.kn.phase == .gasp || mm.kn.phase == .resetLow then .run else mm.kn.phase, kn.done := 0xFFFF }) ((fun mm : Mach => mm.setReg .GL_LOCK 0 0 0) runM)⟩, 0xA5, ⟨takes_of (by decide +kernel), by decide +kernel⟩⟩,
    ⟨⟨[], (fun mm : Mach => { mm with kn.phase := if mm.kn.phase == .off || mm.kn.phase == .gasp || mm.kn.phase == .resetLow then .run else mm.kn.phase, kn.done := 0xFFFF }) ((fun mm : Mach => mm.setReg .GL_LOCK 0 0 0) runM)⟩, 0, 0, ⟨takes_of (by decide +kernel), by decide +kernel⟩⟩,
    ⟨⟨[], (fun mm : Mach => { mm with kn.phase := if mm.kn.phase == .off || mm.kn.phase == .gasp || mm.kn.phase == .resetLow then .run else mm.kn.phase, kn.done := 0xFFFF }) ((fun mm : Mach => mm.setReg .GL_LOCK 0 0 0) runM)⟩, 0, 0, ⟨takes_of (by decide +kernel), by decide +kernel⟩⟩,
    ⟨⟨[], (fun mm : Mach => { mm with kn.phase := if mm.kn.phase == .off || mm.kn.phase == .gasp || mm.kn.phase == .resetLow then .run else mm.kn.phase, kn.done := 0xFFFF }) ((fun mm : Mach => mm.setReg .GL_LOCK 0 0 0) runM)⟩, 0, ⟨takes_of (by decide +kernel), by decide +kernel⟩⟩⟩

/-- The clauses of `Obligations.AxisControlCompletes` can be met. -/
theorem test_axis_control_completes_met :
  (∃ (s : State) (n : Fin 48), s.m.Takes ⟨.AX_CTRL, n.val, 0⟩ 1 ∧ (s.m.ax n.val).mode = .off ∧ s.m.enableRefused n.val = false) ∧
  (∃ (s : State) (n : Fin 48), s.m.Takes ⟨.AX_CTRL, n.val, 0⟩ 1 ∧ ((s.m.ax n.val).eff ≠ .off ∨ s.m.enableRefused n.val = true)) ∧
  (∃ (s : State) (n : Fin 48), s.m.Takes ⟨.AX_CTRL, n.val, 0⟩ 2 ∧ (s.m.ax n.val).mode ≠ .off ∧ (s.m.ax n.val).mode ≠ .maquette) ∧
  (∃ (s : State) (n : Fin 48), s.m.Takes ⟨.AX_CTRL, n.val, 0⟩ 2 ∧ (s.m.ax n.val).mode = .off) ∧
  (∃ (s : State) (n : Fin 48), s.m.Takes ⟨.AX_CTRL, n.val, 0⟩ 4 ∧ s.m.stoppable n.val = true ∧ (s.m.ax n.val).mode ≠ .maquette ∧ (s.m.ax n.val).group = none) ∧
  (∃ (s : State) (n : Fin 48), s.m.Takes ⟨.AX_CTRL, n.val, 0⟩ 4 ∧ (s.m.ax n.val).mode = .off) ∧
  (∃ (s : State) (n : Fin 48), s.m.Takes ⟨.AX_CTRL, n.val, 0⟩ 8 ∧ (s.m.ax n.val).mode = .off) ∧
  (∃ (s : State) (n : Fin 48), s.m.Takes ⟨.AX_CTRL, n.val, 0⟩ 8 ∧ (s.m.ax n.val).mode ≠ .off) ∧
  (∃ (s : State) (n : Fin 48), s.m.Takes ⟨.AX_CTRL, n.val, 0⟩ 16 ∧ (s.m.ax n.val).mode = .maquette) ∧
  (∃ (s : State) (n : Fin 48), s.m.Takes ⟨.AX_CTRL, n.val, 0⟩ 16 ∧ (s.m.ax n.val).mode ≠ .maquette) ∧
  (∃ (s : State) (n : Fin 48) (w : Word), s.m.Takes ⟨.AX_RETGT, n.val, 0⟩ w.toNat) ∧
  (∃ (s : State) (n : Fin 48) (w : Word), s.m.Takes ⟨.AX_SLIM, n.val, 0⟩ w.toNat ∧ s.m.lockBits = 0) ∧
  (∃ (s : State) (n : Fin 48) (a : Bool) (b : Bool), s.m.Takes ⟨.AX_LIM_STAT, n.val, 0⟩ (4 * b2n a + 8 * b2n b)) :=
   ⟨⟨⟨[], (fun mm : Mach => { mm with axes := vmod mm.axes (0 : Fin 48).val fun x__ => { x__ with mode := .off } }) ((fun mm : Mach => { mm with kn.phase := if mm.kn.phase == .off || mm.kn.phase == .gasp || mm.kn.phase == .resetLow then .run else mm.kn.phase, kn.done := 0xFFFF }) ((fun mm : Mach => mm.setReg .GL_LOCK 0 0 0) runM))⟩, 0, ⟨takes_of (by decide +kernel), by decide +kernel⟩⟩,
    ⟨⟨[], (fun mm : Mach => mm.modAx 0 fun x => { x with mode := .hold }) ((fun mm : Mach => { mm with kn.phase := if mm.kn.phase == .off || mm.kn.phase == .gasp || mm.kn.phase == .resetLow then .run else mm.kn.phase, kn.done := 0xFFFF }) ((fun mm : Mach => mm.setReg .GL_LOCK 0 0 0) runM))⟩, 0, ⟨takes_of (by decide +kernel), by decide +kernel⟩⟩,
    ⟨⟨[], (fun mm : Mach => mm.modAx 0 fun x => { x with mode := .hold }) ((fun mm : Mach => { mm with kn.phase := if mm.kn.phase == .off || mm.kn.phase == .gasp || mm.kn.phase == .resetLow then .run else mm.kn.phase, kn.done := 0xFFFF }) ((fun mm : Mach => mm.setReg .GL_LOCK 0 0 0) runM))⟩, 0, ⟨takes_of (by decide +kernel), by decide +kernel⟩⟩,
    ⟨⟨[], (fun mm : Mach => { mm with axes := vmod mm.axes (0 : Fin 48).val fun x__ => { x__ with mode := .off } }) ((fun mm : Mach => { mm with kn.phase := if mm.kn.phase == .off || mm.kn.phase == .gasp || mm.kn.phase == .resetLow then .run else mm.kn.phase, kn.done := 0xFFFF }) ((fun mm : Mach => mm.setReg .GL_LOCK 0 0 0) runM))⟩, 0, ⟨takes_of (by decide +kernel), by decide +kernel⟩⟩,
    ⟨⟨[], (fun mm : Mach => mm.modAx 0 fun x => { x with mode := .move }) ((fun mm : Mach => { mm with axes := vmod mm.axes (0 : Fin 48).val fun x__ => { x__ with group := none } }) ((fun mm : Mach => { mm with kn.phase := if mm.kn.phase == .off || mm.kn.phase == .gasp || mm.kn.phase == .resetLow then .run else mm.kn.phase, kn.done := 0xFFFF }) ((fun mm : Mach => mm.setReg .GL_LOCK 0 0 0) runM)))⟩, 0, ⟨takes_of (by decide +kernel), by decide +kernel⟩⟩,
    ⟨⟨[], (fun mm : Mach => { mm with axes := vmod mm.axes (0 : Fin 48).val fun x__ => { x__ with mode := .off } }) ((fun mm : Mach => { mm with kn.phase := if mm.kn.phase == .off || mm.kn.phase == .gasp || mm.kn.phase == .resetLow then .run else mm.kn.phase, kn.done := 0xFFFF }) ((fun mm : Mach => mm.setReg .GL_LOCK 0 0 0) runM))⟩, 0, ⟨takes_of (by decide +kernel), by decide +kernel⟩⟩,
    ⟨⟨[], (fun mm : Mach => { mm with axes := vmod mm.axes (0 : Fin 48).val fun x__ => { x__ with mode := .off } }) ((fun mm : Mach => { mm with kn.phase := if mm.kn.phase == .off || mm.kn.phase == .gasp || mm.kn.phase == .resetLow then .run else mm.kn.phase, kn.done := 0xFFFF }) ((fun mm : Mach => mm.setReg .GL_LOCK 0 0 0) runM))⟩, 0, ⟨takes_of (by decide +kernel), by decide +kernel⟩⟩,
    ⟨⟨[], (fun mm : Mach => mm.modAx 0 fun x => { x with mode := .hold }) ((fun mm : Mach => { mm with kn.phase := if mm.kn.phase == .off || mm.kn.phase == .gasp || mm.kn.phase == .resetLow then .run else mm.kn.phase, kn.done := 0xFFFF }) ((fun mm : Mach => mm.setReg .GL_LOCK 0 0 0) runM))⟩, 0, ⟨takes_of (by decide +kernel), by decide +kernel⟩⟩,
    ⟨⟨[], (fun mm : Mach => { mm with axes := vmod mm.axes (0 : Fin 48).val fun x__ => { x__ with mode := .maquette } }) ((fun mm : Mach => { mm with kn.phase := if mm.kn.phase == .off || mm.kn.phase == .gasp || mm.kn.phase == .resetLow then .run else mm.kn.phase, kn.done := 0xFFFF }) ((fun mm : Mach => mm.setReg .GL_LOCK 0 0 0) runM))⟩, 0, ⟨takes_of (by decide +kernel), by decide +kernel⟩⟩,
    ⟨⟨[], (fun mm : Mach => { mm with kn.phase := if mm.kn.phase == .off || mm.kn.phase == .gasp || mm.kn.phase == .resetLow then .run else mm.kn.phase, kn.done := 0xFFFF }) ((fun mm : Mach => mm.setReg .GL_LOCK 0 0 0) runM)⟩, 0, ⟨takes_of (by decide +kernel), by decide +kernel⟩⟩,
    ⟨⟨[], (fun mm : Mach => { mm with kn.phase := if mm.kn.phase == .off || mm.kn.phase == .gasp || mm.kn.phase == .resetLow then .run else mm.kn.phase, kn.done := 0xFFFF }) ((fun mm : Mach => mm.setReg .GL_LOCK 0 0 0) runM)⟩, 0, 0, takes_of (by decide +kernel)⟩,
    ⟨⟨[], (fun mm : Mach => mm.setReg .GL_LOCK 0 0 0) ((fun mm : Mach => { mm with kn.phase := if mm.kn.phase == .off || mm.kn.phase == .gasp || mm.kn.phase == .resetLow then .run else mm.kn.phase, kn.done := 0xFFFF }) ((fun mm : Mach => mm.setReg .GL_LOCK 0 0 0) runM))⟩, 0, 0, ⟨takes_of (by decide +kernel), by decide +kernel⟩⟩,
    ⟨⟨[], (fun mm : Mach => { mm with kn.phase := if mm.kn.phase == .off || mm.kn.phase == .gasp || mm.kn.phase == .resetLow then .run else mm.kn.phase, kn.done := 0xFFFF }) ((fun mm : Mach => mm.setReg .GL_LOCK 0 0 0) runM)⟩, 0, false, false, takes_of (by decide +kernel)⟩⟩

/-- The clauses of `Obligations.AxisSlotEventsComplete` can be met. -/
theorem test_axis_slot_events_complete_met :
  (∃ s : State, s.m.clk.running = true) ∧
  (∃ s : State, s.m.clk.running = false) ∧
  (∃ (s : State) (n : Fin 48), s.m.engineDown (n.val / 6) = false ∧ s.m.fm.owed.contains n.val = false ∧ s.m.clk.running = true ∧ s.m.dbgHalt = false ∧ s.m.gasp = false) ∧
  (∃ (s : State) (n : Fin 48), s.m.engineDown (n.val / 6) = false ∧ s.m.fm.owed.contains n.val = true ∧ s.m.clk.running = true ∧ s.m.dbgHalt = false ∧ s.m.gasp = false) ∧
  (∃ (s : State) (n : Fin 48), s.m.engineDown (n.val / 6) = true ∨ s.m.clk.running = false ∨ s.m.dbgHalt = true ∨ s.m.gasp = true) ∧
  (∃ (s : State) (n : Fin 48) (found : ArmingTest), (s.m.ax n.val).mode = .arming ∧ (s.m.untested n.val = false ∨ (found.bridgeOk = true ∧ (s.m.motorChar n.val found.motor).2 = none))) ∧
  (∃ (s : State) (n : Fin 48) (found : ArmingTest), (s.m.ax n.val).mode = .arming ∧ s.m.untested n.val = true ∧ (found.bridgeOk = false ∨ (s.m.motorChar n.val found.motor).2 ≠ none)) ∧
  (∃ (s : State) (n : Fin 48), (s.m.ax n.val).mode = .hold ∧ (s.m.ax n.val).still.isSome = true ∧ (s.m.ax n.val).redDone = false ∧ (s.m.ax n.val).ramp0 = none ∧ (s.m.ax n.val).keepRun = false) ∧
  (∃ (s : State) (n : Fin 48) (sideB : Bool), s.m.rb (if sideB then F.AX_LIM_CFG_EN_B else F.AX_LIM_CFG_EN_A) n.val = true ∧ s.m.limIsRef n.val sideB = false ∧ (s.m.ax n.val).eff = .hold) ∧
  (∃ (s : State) (n : Fin 48) (sideB : Bool), s.m.rb (if sideB then F.AX_LIM_CFG_EN_B else F.AX_LIM_CFG_EN_A) n.val = false) ∧
  (∃ (s : State) (n : Fin 48), ∃ h, (s.m.ax n.val).home = some h ∧ h.failCode = 0 ∧ h.stopDue = false ∧ h.step = 4 ∧ (h.method = 1 ∨ h.method = 2)) ∧
  (∃ (s : State) (n : Fin 48), ∃ h, (s.m.ax n.val).home = some h ∧ h.failCode = 0 ∧ h.stopDue = false ∧ h.step = 5) ∧
  (∃ (s : State) (n : Fin 48), ∃ h, (s.m.ax n.val).home = some h ∧ h.failCode = 0 ∧ h.stopDue = false ∧ h.step = 1) ∧
  (∃ (s : State) (n : Fin 48), (s.m.ax n.val).home = none) ∧
  (∃ (s : State) (n : Fin 48), ∃ g, (s.m.ax n.val).retry.goal = some g ∧ (s.m.ax n.val).retry.waiting = true ∧ (s.m.ax n.val).seg = none) :=
   ⟨⟨⟨[], (fun mm : Mach => { mm with clk.running := true }) runM⟩, by decide +kernel⟩,
    ⟨⟨[], (fun mm : Mach => { mm with clk.running := false }) runM⟩, by decide +kernel⟩,
    ⟨⟨[], (fun mm : Mach => { mm with gasp := false }) ((fun mm : Mach => { mm with dbgHalt := false }) ((fun mm : Mach => { mm with clk.running := true }) runM))⟩, 0, by decide +kernel⟩,
    ⟨⟨[], (fun mm : Mach => { mm with fm.owed := [0] }) ((fun mm : Mach => { mm with gasp := false }) ((fun mm : Mach => { mm with dbgHalt := false }) ((fun mm : Mach => { mm with clk.running := true }) runM)))⟩, 0, by decide +kernel⟩,
    ⟨⟨[], (fun mm : Mach => { mm with clk.running := false }) runM⟩, 0, by decide +kernel⟩,
    ⟨⟨[], (fun mm : Mach => { mm with axes := vmod mm.axes (0 : Fin 48).val fun x__ => { x__ with mode := .arming } }) runM⟩, 0, ({ (⟨false, ⟨⟨0, false, 0, 0, 0⟩, ⟨0, false, 0, 0, 0⟩, []⟩⟩ : ArmingTest) with bridgeOk := true } : ArmingTest), by decide +kernel⟩,
    ⟨⟨[], (fun mm : Mach => mm.setReg .KN_UNTESTED_LO 0 0 1) ((fun mm : Mach => { mm with axes := vmod mm.axes (0 : Fin 48).val fun x__ => { x__ with mode := .arming } }) runM)⟩, 0, ({ (⟨false, ⟨⟨0, false, 0, 0, 0⟩, ⟨0, false, 0, 0, 0⟩, []⟩⟩ : ArmingTest) with bridgeOk := false } : ArmingTest), by decide +kernel⟩,
    ⟨⟨[], (fun mm : Mach => mm.modAx 0 fun x => { x with still := some 0 }) ((fun mm : Mach => { mm with axes := vmod mm.axes (0 : Fin 48).val fun x__ => { x__ with keepRun := false } }) ((fun mm : Mach => { mm with axes := vmod mm.axes (0 : Fin 48).val fun x__ => { x__ with ramp0 := none } }) ((fun mm : Mach => { mm with axes := vmod mm.axes (0 : Fin 48).val fun x__ => { x__ with redDone := false } }) ((fun mm : Mach => { mm with axes := vmod mm.axes (0 : Fin 48).val fun x__ => { x__ with mode := .hold } }) runM))))⟩, 0, by decide +kernel⟩,
    ⟨⟨[], (fun mm : Mach => mm.modAx 0 fun x => { x with mode := .hold }) ((fun mm : Mach => mm.wr F.AX_LIM_CFG_EN_A 1 0) runM)⟩, 0, false, by decide +kernel⟩,
    ⟨⟨[], runM⟩, 0, false, by decide +kernel⟩,
    ⟨⟨[], (fun mm : Mach => { mm with axes := vmod mm.axes (0 : Fin 48).val fun x__ => { x__ with home := ((mm.ax (0 : Fin 48).val).home).map fun y__ => { y__ with method := 1 } } }) ((fun mm : Mach => { mm with axes := vmod mm.axes (0 : Fin 48).val fun x__ => { x__ with home := ((mm.ax (0 : Fin 48).val).home).map fun y__ => { y__ with step := 4 } } }) ((fun mm : Mach => { mm with axes := vmod mm.axes (0 : Fin 48).val fun x__ => { x__ with home := ((mm.ax (0 : Fin 48).val).home).map fun y__ => { y__ with stopDue := false } } }) ((fun mm : Mach => { mm with axes := vmod mm.axes (0 : Fin 48).val fun x__ => { x__ with home := ((mm.ax (0 : Fin 48).val).home).map fun y__ => { y__ with failCode := 0 } } }) ((fun mm : Mach => { mm with axes := vmod mm.axes (0 : Fin 48).val fun x__ => { x__ with home := some (aHome) } }) runM))))⟩, 0, some_of (by decide +kernel) (by decide +kernel)⟩,
    ⟨⟨[], (fun mm : Mach => { mm with axes := vmod mm.axes (0 : Fin 48).val fun x__ => { x__ with home := ((mm.ax (0 : Fin 48).val).home).map fun y__ => { y__ with step := 5 } } }) ((fun mm : Mach => { mm with axes := vmod mm.axes (0 : Fin 48).val fun x__ => { x__ with home := ((mm.ax (0 : Fin 48).val).home).map fun y__ => { y__ with stopDue := false } } }) ((fun mm : Mach => { mm with axes := vmod mm.axes (0 : Fin 48).val fun x__ => { x__ with home := ((mm.ax (0 : Fin 48).val).home).map fun y__ => { y__ with failCode := 0 } } }) ((fun mm : Mach => { mm with axes := vmod mm.axes (0 : Fin 48).val fun x__ => { x__ with home := some (aHome) } }) runM)))⟩, 0, some_of (by decide +kernel) (by decide +kernel)⟩,
    ⟨⟨[], (fun mm : Mach => { mm with axes := vmod mm.axes (0 : Fin 48).val fun x__ => { x__ with home := ((mm.ax (0 : Fin 48).val).home).map fun y__ => { y__ with step := 1 } } }) ((fun mm : Mach => { mm with axes := vmod mm.axes (0 : Fin 48).val fun x__ => { x__ with home := ((mm.ax (0 : Fin 48).val).home).map fun y__ => { y__ with stopDue := false } } }) ((fun mm : Mach => { mm with axes := vmod mm.axes (0 : Fin 48).val fun x__ => { x__ with home := ((mm.ax (0 : Fin 48).val).home).map fun y__ => { y__ with failCode := 0 } } }) ((fun mm : Mach => { mm with axes := vmod mm.axes (0 : Fin 48).val fun x__ => { x__ with home := some (aHome) } }) runM)))⟩, 0, some_of (by decide +kernel) (by decide +kernel)⟩,
    ⟨⟨[], (fun mm : Mach => { mm with axes := vmod mm.axes (0 : Fin 48).val fun x__ => { x__ with home := none } }) runM⟩, 0, by decide +kernel⟩,
    ⟨⟨[], (fun mm : Mach => { mm with axes := vmod mm.axes (0 : Fin 48).val fun x__ => { x__ with seg := none } }) ((fun mm : Mach => { mm with axes := vmod mm.axes (0 : Fin 48).val fun x__ => { x__ with retry.waiting := true } }) ((fun mm : Mach => { mm with axes := vmod mm.axes (0 : Fin 48).val fun x__ => { x__ with retry.goal := some (aSeg) } }) runM))⟩, 0, some_of (by decide +kernel) (by decide +kernel)⟩⟩

end Sys2Proof.Tests
end

