-- ==== Sys2Proof/Tests/Completion2.lean ====
section
/-!
SUPPORT. For each statement on how commands complete: a state and operands that meet the hypotheses of each of its clauses.
-/

open Sys2Proof Sys2Proof.Machine Sys2Proof.Tests

namespace Sys2Proof.Tests

-- One proof at a time: the kernel decides each, and waits for those before it.
set_option Elab.async false

/-- The clauses of `Obligations.CoilAndMarkEventsComplete` can be met. -/
theorem test_coil_and_mark_events_complete_met :
  (∃ (s : State) (r : Fin 4), s.m.regActive r.val = false) ∧
  (∃ (s : State) (r : Fin 4) (ts : BitVec 48), s.m.regActive r.val = true ∧ (s.m.regSource r.val ts.toNat (s.m.giDelay (s.m.rd F.GR_REG_CFG_GI r.val))).2 ≤ 0) ∧
  (∃ (s : State) (r : Fin 4) (ts : BitVec 48), s.m.regActive r.val = true ∧ 0 < (s.m.regSource r.val ts.toNat (s.m.giDelay (s.m.rd F.GR_REG_CFG_GI r.val))).2 ∧ ofFixed 8 (s.m.rd F.GR_REG_GEOM_WIN r.val : Nat) < ratAbs (wrapPos ((s.m.regSource r.val ts.toNat (s.m.giDelay (s.m.rd F.GR_REG_CFG_GI r.val))).1 - posOf (s.m.rd F.GR_REG_EXP_EXP r.val)))) ∧
  (∃ (s : State) (r : Fin 4) (ts : BitVec 48), s.m.regActive r.val = true ∧ 0 < (s.m.regSource r.val ts.toNat (s.m.giDelay (s.m.rd F.GR_REG_CFG_GI r.val))).2 ∧ ratAbs (wrapPos ((s.m.regSource r.val ts.toNat (s.m.giDelay (s.m.rd F.GR_REG_CFG_GI r.val))).1 - posOf (s.m.rd F.GR_REG_EXP_EXP r.val))) ≤ ofFixed 8 (s.m.rd F.GR_REG_GEOM_WIN r.val : Nat) ∧ (s.m.ax (s.m.rd F.GR_REG_CFG_AXIS r.val)).eff ≠ .follow) ∧
  (∃ (s : State) (r : Fin 4) (ts : BitVec 48), s.m.regActive r.val = true ∧ 0 < (s.m.regSource r.val ts.toNat (s.m.giDelay (s.m.rd F.GR_REG_CFG_GI r.val))).2 ∧ ratAbs (wrapPos ((s.m.regSource r.val ts.toNat (s.m.giDelay (s.m.rd F.GR_REG_CFG_GI r.val))).1 - posOf (s.m.rd F.GR_REG_EXP_EXP r.val))) ≤ ofFixed 8 (s.m.rd F.GR_REG_GEOM_WIN r.val : Nat) ∧ (s.m.ax (s.m.rd F.GR_REG_CFG_AXIS r.val)).eff = .follow) ∧
  (∃ (s : State) (k : Fin 96), s.m.repeating k.val = false ∧ s.m.regDown (k.val / 24) = false ∧ s.m.gasp = false ∧ s.m.regOn (k.val / 2) = false) ∧
  (∃ (s : State) (k : Fin 96), s.m.repeating k.val = false ∧ s.m.regDown (k.val / 24) = false ∧ s.m.gasp = false ∧ s.m.regOn (k.val / 2) = true) ∧
  (∃ (s : State) (k : Fin 96) (at_ : CoilAt), s.m.repeating k.val = false ∧ s.m.regDown (k.val / 24) = false ∧ s.m.gasp = false ∧ s.m.regOn (k.val / 2) = true ∧ (s.m.coil k.val).on = false ∧ at_.tph.toNat < 4000) ∧
  (∃ (s : State) (k : Fin 96), s.m.repeating k.val = true ∨ s.m.regDown (k.val / 24) = true ∨ s.m.gasp = true) ∧
  (∃ (s : State) (n : Fin 48) (isWrite : Bool) (v : BitVec 32), isWrite = true ∧ s.m.Takes ⟨.AX_HARM_DATA, n.val, 0⟩ v.toNat) ∧
  (∃ (s : State) (n : Fin 48) (isWrite : Bool), isWrite = false ∧ s.m.regAnswers ⟨.AX_HARM_DATA, n.val, 0⟩ = true) ∧
  (∃ (s : State) (k : Fin 4), ∃ qs, s.m.abortSet (s.m.rd F.Q_ABIN_SCOPE k.val) (s.m.rd F.Q_ABIN_INDEX k.val) = some qs ∧ s.m.gasp = false ∧ s.m.rb F.Q_ABIN_EN k.val = true ∧ s.m.clk.running = false ∧ s.m.NoAbort ∧ (∀ q ∈ qs, (s.m.qu q).st ≠ .aborting)) ∧
  (∃ (s : State) (k : Fin 4), ∃ qs, s.m.abortSet (s.m.rd F.Q_ABIN_SCOPE k.val) (s.m.rd F.Q_ABIN_INDEX k.val) = some qs ∧ s.m.gasp = false ∧ s.m.rb F.Q_ABIN_EN k.val = true ∧ s.m.clk.running = true ∧ s.m.NoAbort ∧ (∀ q ∈ qs, (s.m.qu q).st ≠ .aborting)) ∧
  (∃ (s : State) (k : Fin 4), s.m.gasp = false ∧ s.m.rb F.Q_ABIN_EN k.val = true ∧ s.m.NoAbort ∧ s.m.abortSet (s.m.rd F.Q_ABIN_SCOPE k.val) (s.m.rd F.Q_ABIN_INDEX k.val) = none) ∧
  (∃ (s : State) (k : Fin 4), (s.m.rb F.Q_ABIN_EN k.val = false) ∧ s.m.NoAbort) :=
   ⟨⟨⟨[], runM⟩, 0, by decide +kernel⟩,
    ⟨⟨[], (fun mm : Mach => (mm.wr F.GR_REG_CFG_EN 1 0).wr F.GR_REG_GEOM_PITCH 256 0) runM⟩, 0, 0, by decide +kernel⟩,
    ⟨⟨[], (fun mm : Mach => mm.setReg .GR_REG_EXP 0 0 (5 * 2 ^ 24)) ((fun mm : Mach => mm.modAx 0 fun x => { x with cur := ⟨0, 1, 0⟩ }) ((fun mm : Mach => (mm.wr F.GR_REG_CFG_EN 1 0).wr F.GR_REG_GEOM_PITCH 256 0) runM))⟩, 0, 0, by decide +kernel⟩,
    ⟨⟨[], (fun mm : Mach => mm.wr F.GR_REG_GEOM_WIN 65535 0) ((fun mm : Mach => mm.modAx 0 fun x => { x with cur := ⟨0, 1, 0⟩ }) ((fun mm : Mach => (mm.wr F.GR_REG_CFG_EN 1 0).wr F.GR_REG_GEOM_PITCH 256 0) runM))⟩, 0, 0, by decide +kernel⟩,
    ⟨⟨[], (fun mm : Mach => mm.modAx 0 fun x => { x with mode := .follow }) ((fun mm : Mach => mm.wr F.GR_REG_GEOM_WIN 65535 0) ((fun mm : Mach => mm.modAx 0 fun x => { x with cur := ⟨0, 1, 0⟩ }) ((fun mm : Mach => (mm.wr F.GR_REG_CFG_EN 1 0).wr F.GR_REG_GEOM_PITCH 256 0) runM)))⟩, 0, 0, by decide +kernel⟩,
    ⟨⟨[], (fun mm : Mach => { mm with gasp := false }) runM⟩, 0, by decide +kernel⟩,
    ⟨⟨[], (fun mm : Mach => mm.modAx 0 fun x => { x with mode := .hold }) ((fun mm : Mach => { mm with gasp := false }) runM)⟩, 0, by decide +kernel⟩,
    ⟨⟨[], (fun mm : Mach => mm.modAx 0 fun x => { x with mode := .hold }) ((fun mm : Mach => { mm with coils := vmod mm.coils (0 : Fin 96).val fun x__ => { x__ with on := false } }) ((fun mm : Mach => { mm with gasp := false }) runM))⟩, 0, (⟨0, 0⟩ : CoilAt), by decide +kernel⟩,
    ⟨⟨[], (fun mm : Mach => { mm with gasp := true }) runM⟩, 0, by decide +kernel⟩,
    ⟨⟨[], (fun mm : Mach => { mm with kn.phase := if mm.kn.phase == .off || mm.kn.phase == .gasp || mm.kn.phase == .resetLow then .run else mm.kn.phase, kn.done := 0xFFFF }) ((fun mm : Mach => mm.setReg .GL_LOCK 0 0 0) runM)⟩, 0, true, 0, ⟨by decide +kernel, takes_of (by decide +kernel)⟩⟩,
    ⟨⟨[], (fun mm : Mach => { mm with kn.phase := .run }) runM⟩, 0, false, by decide +kernel⟩,
    ⟨⟨[], (fun mm : Mach => mm.wr F.Q_ABIN_EN 1 0) ((fun mm : Mach => { mm with clk.running := false }) ((fun mm : Mach => { mm with clk.running := false }) ((fun mm : Mach => mm.wr F.Q_ABIN_EN (b2n (true)) (0 : Fin 4).val) ((fun mm : Mach => { mm with gasp := false }) runM))))⟩, 0, some_of (by decide +kernel) ⟨by decide +kernel, by decide +kernel, by decide +kernel, noAbort_of (by decide +kernel), by decide +kernel⟩⟩,
    ⟨⟨[], (fun mm : Mach => mm.wr F.Q_ABIN_EN 1 0) ((fun mm : Mach => { mm with clk.running := true }) ((fun mm : Mach => mm.wr F.Q_ABIN_EN (b2n (true)) (0 : Fin 4).val) ((fun mm : Mach => { mm with gasp := false }) runM)))⟩, 0, some_of (by decide +kernel) ⟨by decide +kernel, by decide +kernel, by decide +kernel, noAbort_of (by decide +kernel), by decide +kernel⟩⟩,
    ⟨⟨[], (fun mm : Mach => (mm.wr F.Q_ABIN_EN 1 0).wr F.Q_ABIN_SCOPE 7 0) ((fun mm : Mach => mm.wr F.Q_ABIN_EN (b2n (true)) (0 : Fin 4).val) ((fun mm : Mach => { mm with gasp := false }) runM))⟩, 0, ⟨by decide +kernel, by decide +kernel, noAbort_of (by decide +kernel), by decide +kernel⟩⟩,
    ⟨⟨[], (fun mm : Mach => mm.wr F.Q_ABIN_EN (b2n (false)) (0 : Fin 4).val) runM⟩, 0, ⟨by decide +kernel, noAbort_of (by decide +kernel)⟩⟩⟩

/-- The clauses of `Obligations.QueueWaitsComplete` can be met. -/
theorem test_queue_waits_complete_met :
  (∃ (s : State) (q : Fin 64) (c : CmdArgs), s.m.Ready q.val (cmdWord 0x20 c)) ∧
  (∃ (s : State) (q : Fin 64) (c : CmdArgs), s.m.Ready q.val (cmdWord 0x21 c)) ∧
  (∃ (s : State) (q : Fin 64) (c : CmdArgs), s.m.Ready q.val (cmdWord 0x22 c)) ∧
  (∃ (s : State) (q : Fin 64) (c : CmdArgs), s.m.Ready q.val (cmdWord 0x23 c)) ∧
  (∃ (s : State) (q : Fin 64), ∃ r, (s.m.qu q.val).abort = some r ∧ (∀ k : Fin 64, k.val ≠ q.val → (s.m.qu k).abort = none) ∧ (s.m.clk.running = false ∨ s.m.abortAt r ≤ s.m.absNow) ∧ (s.m.qu q.val).inflight = [] ∧ (s.m.qu q.val).published = [] ∧ (s.m.qu q.val).staged = [] ∧ (s.m.qu q.val).stack = [.ring]) ∧
  (∃ (s : State) (q : Fin 64), ∃ e, (s.m.qu q.val).inflight.head? = some e ∧ ∃ wt, e.wait = some wt ∧ s.m.NoAbort ∧ (s.m.qu q.val).inflight = [e] ∧ e.done = none ∧ opcOf e.w ≠ 0x21 ∧ (wt.dueTick.map fun d => decide (d ≤ s.m.clk.tick)) = some true) ∧
  (∃ s : State, s.m.NoAbort ∧ s.m.unitRuns = true ∧ (∀ q : Fin 64, (s.m.qu q).inflight = [] ∧ (s.m.qu q).st = .idle ∧ (s.m.qu q).published = [] ∧ (s.m.qu q).stack = [.ring])) ∧
  (∃ (s : State) (q : Fin 64) (w : Word), s.m.Ready q.val w ∧ opcOf w = 0x7F ∧ (s.m.qu q.val).published.head? = some w ∧ (s.m.qu q.val).stack = [.ring] ∧ (∀ k : Fin 64, k.val ≠ q.val → (s.m.qu k).inflight = [] ∧ (s.m.qu k).st = .idle)) ∧
  (∃ (s : State) (q : Fin 64) (e : InFlight) (wt : Wait) (d : Nat), s.m.NoAbort ∧ s.m.unitRuns = true ∧ e.done = none ∧ e.wait = some wt ∧ opcOf e.w = 0x21 ∧ wt.dueTick = some d ∧ d ≤ s.m.clk.tick ∧ (s.m.qu q.val).inflight = [e] ∧ (s.m.qu q.val).published = [] ∧ (s.m.qu q.val).stack = [.ring] ∧ (∀ k : Fin 64, k.val ≠ q.val → (s.m.qu k).inflight = [] ∧ (s.m.qu k).st = .idle)) ∧
  (∃ s : State, s.m.unitRuns = false) :=
   ⟨⟨⟨[], runM⟩, 0, (⟨0, 0, 0, 0⟩ : CmdArgs), ready_of (by decide +kernel)⟩,
    ⟨⟨[], runM⟩, 0, (⟨0, 0, 0, 0⟩ : CmdArgs), ready_of (by decide +kernel)⟩,
    ⟨⟨[], runM⟩, 0, (⟨0, 0, 1, 0⟩ : CmdArgs), ready_of (by decide +kernel)⟩,
    ⟨⟨[], runM⟩, 0, (⟨0, 0, 0, 0⟩ : CmdArgs), ready_of (by decide +kernel)⟩,
    ⟨⟨[], (fun mm : Mach => mm.modQ 0 fun x => { x with st := .aborting, abort := some anAbort }) ((fun mm : Mach => { mm with queues := vmod mm.queues (0 : Fin 64).val fun x__ => { x__ with stack := [.ring] } }) ((fun mm : Mach => { mm with queues := vmod mm.queues (0 : Fin 64).val fun x__ => { x__ with staged := [] } }) ((fun mm : Mach => { mm with queues := vmod mm.queues (0 : Fin 64).val fun x__ => { x__ with published := [] } }) ((fun mm : Mach => { mm with queues := vmod mm.queues (0 : Fin 64).val fun x__ => { x__ with inflight := [] } }) ((fun mm : Mach => { mm with clk.running := false }) ((fun mm : Mach => { mm with queues := vmod mm.queues (0 : Fin 64).val fun x__ => { x__ with abort := some (anAbort) } }) runM))))))⟩, 0, some_of (by decide +kernel) (by decide +kernel)⟩,
    ⟨⟨[], (fun mm : Mach => mm.modQ 0 fun x => { x with st := .run, inflight := [{ aFlight with w := cmdWord 0x20 ⟨0, 0, 0, 0⟩, wait := some { aWait with dueTick := some 0 } }] }) runM⟩, 0, some_of (by decide +kernel) (some_of (by decide +kernel) ⟨noAbort_of (by decide +kernel), by decide +kernel⟩)⟩,
    ⟨⟨[], runM⟩, ⟨noAbort_of (by decide +kernel), by decide +kernel⟩⟩,
    ⟨⟨[], (fun mm : Mach => mm.modQ 0 fun x => { x with published := [(BitVec.ofNat 128 (0x7F * 2 ^ 120) : Word)], st := .run }) ((fun mm : Mach => { mm with queues := vmod mm.queues (0 : Fin 64).val fun x__ => { x__ with stack := [.ring] } }) runM)⟩, 0, (BitVec.ofNat 128 (0x7F * 2 ^ 120) : Word), ⟨ready_of (by decide +kernel), by decide +kernel⟩⟩,
    ⟨⟨[], (fun mm : Mach => mm.modQ 0 fun x => { x with inflight := [({ aFlight with w := cmdWord 0x21 ⟨0, 0, 0, 0⟩, wait := some { aWait with dueTick := some 0 } } : InFlight)], st := .run }) runM⟩, 0, ({ aFlight with w := cmdWord 0x21 ⟨0, 0, 0, 0⟩, wait := some { aWait with dueTick := some 0 } } : InFlight), ({ aWait with dueTick := some 0 } : Wait), 0, ⟨noAbort_of (by decide +kernel), by decide +kernel⟩⟩,
    ⟨⟨[], (fun mm : Mach => { mm with clk.running := false }) runM⟩, by decide +kernel⟩⟩

/-- The clauses of `Obligations.QueueFlowCommandsComplete` can be met. -/
theorem test_queue_flow_commands_complete_met :
  (∃ (s : State) (q : Fin 64) (c : CmdArgs), s.m.Ready q.val (cmdWord 0x40 c) ∧ (s.m.qu q.val).inRoutine = true) ∧
  (∃ (s : State) (q : Fin 64) (c : CmdArgs), s.m.Ready q.val (cmdWord 0x41 c)) ∧
  (∃ (s : State) (q : Fin 64) (c : CmdArgs), s.m.Ready q.val (cmdWord 0x42 c) ∧ (s.m.qu q.val).inRoutine = true) ∧
  (∃ (s : State) (q : Fin 64) (c : CmdArgs), s.m.Ready q.val (cmdWord 0x42 c) ∧ (s.m.qu q.val).stack = [.ring]) ∧
  (∃ (s : State) (q : Fin 64) (c : CmdArgs), s.m.Ready q.val (cmdWord 0x43 c) ∧ (s.m.qu q.val).inRoutine = true ∧ bitsOf c.p1.toNat 0 24 = 0) ∧
  (∃ (s : State) (q : Fin 64) (c : CmdArgs), s.m.Ready q.val (cmdWord 0x43 c) ∧ (s.m.qu q.val).inRoutine = true ∧ bitsOf c.p1.toNat 24 2 = 0 ∧ 1 < bitsOf c.p1.toNat 0 24 ∧ (s.m.qu q.val).frame.c0 = 0) ∧
  (∃ (s : State) (q : Fin 64) (c : CmdArgs), s.m.Ready q.val (cmdWord 0x43 c) ∧ (s.m.qu q.val).inRoutine = true ∧ bitsOf c.p1.toNat 24 2 = 0 ∧ bitsOf c.p1.toNat 0 24 ≠ 0 ∧ (s.m.qu q.val).frame.c0 = 1) ∧
  (∃ (s : State) (q : Fin 64) (c : CmdArgs), s.m.Ready q.val (cmdWord 0x44 c)) ∧
  (∃ (s : State) (q : Fin 64) (c : CmdArgs), s.m.Ready q.val (cmdWord 0x45 c)) ∧
  (∃ (s : State) (q : Fin 64) (c : CmdArgs), s.m.Ready q.val (cmdWord 0x7F c)) ∧
  (∃ (s : State) (q : Fin 64), ∃ a, (s.m.qu q.val).frame.pc = some a ∧ s.m.NoAbort ∧ (s.m.qu q.val).fetched = none ∧ (s.m.qu q.val).frame.pc = some a ∧ a + 16 ≤ (s.m.qu q.val).frame.bound) ∧
  (∃ (s : State) (q : Fin 64), s.m.NoAbort ∧ (s.m.qu q.val).frame.pc = none) :=
   ⟨⟨⟨[], (fun mm : Mach => mm.dramWrite 0x100000 16 (cmdWord 0x40 (⟨0, 0, 0, BitVec.ofNat 64 (2 ^ 40)⟩ : CmdArgs)).toNat) ((fun mm : Mach => mm.modQ 0 fun x => { x with stack := [{ pc := some 0x100000, base := 0x100000, bound := 0x100100, c0 := 0, c1 := 0, c2 := 0, c3 := 0 }], fetched := some (0x100000, false), st := .run }) runM)⟩, 0, (⟨0, 0, 0, BitVec.ofNat 64 (2 ^ 40)⟩ : CmdArgs), ⟨ready_of (by decide +kernel), by decide +kernel⟩⟩,
    ⟨⟨[], (fun mm : Mach => mm.dramWrite 0x100000 16 (cmdWord 0x41 (⟨0, 0, 0, BitVec.ofNat 64 (2 ^ 40)⟩ : CmdArgs)).toNat) ((fun mm : Mach => mm.modQ 0 fun x => { x with stack := [{ pc := some 0x100000, base := 0x100000, bound := 0x100100, c0 := 0, c1 := 0, c2 := 0, c3 := 0 }], fetched := some (0x100000, false), st := .run }) runM)⟩, 0, (⟨0, 0, 0, BitVec.ofNat 64 (2 ^ 40)⟩ : CmdArgs), ready_of (by decide +kernel)⟩,
    ⟨⟨[], (fun mm : Mach => mm.dramWrite 0x100000 16 (cmdWord 0x42 (⟨0, 0, 0, 0⟩ : CmdArgs)).toNat) ((fun mm : Mach => mm.modQ 0 fun x => { x with stack := [{ pc := some 0x100000, base := 0x100000, bound := 0x100100, c0 := 0, c1 := 0, c2 := 0, c3 := 0 }], fetched := some (0x100000, false), st := .run }) runM)⟩, 0, (⟨0, 0, 0, 0⟩ : CmdArgs), ⟨ready_of (by decide +kernel), by decide +kernel⟩⟩,
    ⟨⟨[], (fun mm : Mach => { mm with queues := vmod mm.queues (0 : Fin 64).val fun x__ => { x__ with stack := [.ring] } }) runM⟩, 0, (⟨0, 0, 0, 0⟩ : CmdArgs), ⟨ready_of (by decide +kernel), by decide +kernel⟩⟩,
    ⟨⟨[], (fun mm : Mach => mm.dramWrite 0x100000 16 (cmdWord 0x43 (⟨0, 0, 0, BitVec.ofNat 64 (2 ^ 40)⟩ : CmdArgs)).toNat) ((fun mm : Mach => mm.modQ 0 fun x => { x with stack := [{ pc := some 0x100000, base := 0x100000, bound := 0x100100, c0 := 0, c1 := 0, c2 := 0, c3 := 0 }], fetched := some (0x100000, false), st := .run }) runM)⟩, 0, (⟨0, 0, 0, BitVec.ofNat 64 (2 ^ 40)⟩ : CmdArgs), ⟨ready_of (by decide +kernel), by decide +kernel⟩⟩,
    ⟨⟨[], (fun mm : Mach => mm.dramWrite 0x100000 16 (cmdWord 0x43 (⟨0, 0, 2, BitVec.ofNat 64 (2 ^ 40)⟩ : CmdArgs)).toNat) ((fun mm : Mach => mm.modQ 0 fun x => { x with stack := [{ pc := some 0x100000, base := 0x100000, bound := 0x100100, c0 := 0, c1 := 0, c2 := 0, c3 := 0 }], fetched := some (0x100000, false), st := .run }) runM)⟩, 0, (⟨0, 0, 2, BitVec.ofNat 64 (2 ^ 40)⟩ : CmdArgs), ⟨ready_of (by decide +kernel), by decide +kernel⟩⟩,
    ⟨⟨[], (fun mm : Mach => mm.dramWrite 0x100000 16 (cmdWord 0x43 (⟨0, 0, 2, BitVec.ofNat 64 (2 ^ 40)⟩ : CmdArgs)).toNat) ((fun mm : Mach => mm.modQ 0 fun x => { x with stack := [{ pc := some 0x100000, base := 0x100000, bound := 0x100100, c0 := 1, c1 := 0, c2 := 0, c3 := 0 }], fetched := some (0x100000, false), st := .run }) runM)⟩, 0, (⟨0, 0, 2, BitVec.ofNat 64 (2 ^ 40)⟩ : CmdArgs), ⟨ready_of (by decide +kernel), by decide +kernel⟩⟩,
    ⟨⟨[], runM⟩, 0, (⟨0, 0, 0, 0⟩ : CmdArgs), ready_of (by decide +kernel)⟩,
    ⟨⟨[], runM⟩, 0, (⟨0, 0, 0, 0⟩ : CmdArgs), ready_of (by decide +kernel)⟩,
    ⟨⟨[], runM⟩, 0, (⟨0, 0, 0, 0⟩ : CmdArgs), ready_of (by decide +kernel)⟩,
    ⟨⟨[], (fun mm : Mach => mm.modQ 0 fun x => { x with stack := [{ pc := some 0x100000, base := 0x100000, bound := 0x100100, c0 := 0, c1 := 0, c2 := 0, c3 := 0 }], fetched := none, st := .run }) ((fun mm : Mach => { mm with queues := vmod mm.queues (0 : Fin 64).val fun x__ => { x__ with fetched := none } }) runM)⟩, 0, some_of (by decide +kernel) ⟨noAbort_of (by decide +kernel), by decide +kernel⟩⟩,
    ⟨⟨[], runM⟩, 0, ⟨noAbort_of (by decide +kernel), by decide +kernel⟩⟩⟩

/-- The clauses of `Obligations.QueueWriteCommandsComplete` can be met. -/
theorem test_queue_write_commands_complete_met :
  (∃ (s : State) (q : Fin 64) (c : CmdArgs), s.m.Ready q.val (cmdWord 0x30 c) ∧ s.m.paramReg (cmdWord 0x30 c) = some ⟨.Q_IRQ_EN, 0, 0⟩) ∧
  (∃ (s : State) (q : Fin 64) (c : CmdArgs), s.m.Ready q.val (cmdWord 0x30 c)) ∧
  (∃ (s : State) (q : Fin 64) (c : CmdArgs), s.m.Ready q.val (cmdWord 0x31 c)) ∧
  (∃ (s : State) (q : Fin 64) (c : CmdArgs), s.m.Ready q.val (cmdWord 0x50 c) ∧ s.m.st.on = true) ∧
  (∃ (s : State) (q : Fin 64) (c : CmdArgs), s.m.Ready q.val (cmdWord 0x50 c) ∧ s.m.st.on = false) :=
   ⟨⟨⟨[], runM⟩, 0, ({ flg := 0, tag := 0, p1 := BitVec.ofNat 32 (RegKey.addr ⟨.Q_IRQ_EN, 0, 0⟩), p0 := 0xFFFFFFFF00000001 } : CmdArgs), ⟨ready_of (by decide +kernel), by decide +kernel⟩⟩,
    ⟨⟨[], runM⟩, 0, ({ flg := 0, tag := 0, p1 := BitVec.ofNat 32 (RegKey.addr ⟨.Q_IRQ_EN, 0, 0⟩), p0 := 0xFFFFFFFF00000001 } : CmdArgs), ready_of (by decide +kernel)⟩,
    ⟨⟨[], runM⟩, 0, (⟨0, 0, 0, 0⟩ : CmdArgs), ready_of (by decide +kernel)⟩,
    ⟨⟨[], (fun mm : Mach => { mm with st.on := true }) runM⟩, 0, (⟨0, 0, 0, 0⟩ : CmdArgs), ⟨ready_of (by decide +kernel), by decide +kernel⟩⟩,
    ⟨⟨[], (fun mm : Mach => { mm with st.on := false }) runM⟩, 0, (⟨0, 0, 0, 0⟩ : CmdArgs), ⟨ready_of (by decide +kernel), by decide +kernel⟩⟩⟩

/-- The clauses of `Obligations.MotionCommandsComplete` can be met. -/
theorem test_motion_commands_complete_met :
  (∃ (s : State) (q : Fin 64) (c : CmdArgs), s.m.Ready q.val (cmdWord 0x01 c) ∧ q.val < 48 ∧ s.m.dbgHalt = false ∧ s.m.AxisFree q.val ∧ (s.m.ax q.val).mode = .hold ∧ s.m.latched q.val true = false ∧ s.m.latched q.val false = false ∧ s.m.slimOn q.val = false ∧ isRel (cmdWord 0x01 c) = false) ∧
  (∃ (s : State) (q : Fin 64) (c : CmdArgs), ∃ x, s.m.targetOf q.val ((s.m.ax q.val).planAt (s.m.clk.tick + 1)) (cmdWord 0x02 c) = some x ∧ s.m.Ready q.val (cmdWord 0x02 c) ∧ q.val < 48 ∧ s.m.dbgHalt = false ∧ s.m.AxisFree q.val ∧ (s.m.ax q.val).mode = .hold ∧ s.m.latched q.val true = false ∧ s.m.latched q.val false = false ∧ s.m.slimOn q.val = false) ∧
  (∃ (s : State) (q : Fin 64) (c : CmdArgs), s.m.Ready q.val (cmdWord 0x03 c) ∧ q.val < 48 ∧ s.m.dbgHalt = false ∧ s.m.AxisFree q.val ∧ (s.m.ax q.val).mode = .hold ∧ s.m.latched q.val true = false ∧ s.m.latched q.val false = false ∧ s.m.slimOn q.val = false) ∧
  (∃ (s : State) (q : Fin 64) (c : CmdArgs), s.m.Ready q.val (cmdWord 0x04 c) ∧ q.val < 48 ∧ s.m.dbgHalt = false ∧ s.m.AxisFree q.val ∧ ((s.m.ax q.val).mode = .move ∨ (s.m.ax q.val).mode = .follow) ∧ (s.m.ax q.val).group = none) ∧
  (∃ (s : State) (q : Fin 64) (c : CmdArgs), s.m.Ready q.val (cmdWord 0x04 c) ∧ q.val < 48 ∧ s.m.dbgHalt = false ∧ s.m.AxisFree q.val ∧ (s.m.ax q.val).mode = .hold) ∧
  (∃ (s : State) (q : Fin 64) (c : CmdArgs), s.m.Ready q.val (cmdWord 0x05 c) ∧ q.val < 48 ∧ s.m.dbgHalt = false ∧ s.m.AxisFree q.val ∧ (s.m.ax q.val).mode = .hold) ∧
  (∃ (s : State) (q : Fin 64) (c : CmdArgs), s.m.Ready q.val (cmdWord 0x06 c) ∧ q.val < 48 ∧ s.m.dbgHalt = false ∧ s.m.AxisFree q.val ∧ (s.m.ax q.val).mode = .hold ∧ s.m.rd F.AX_HOME_CFG_METHOD q.val = 0) ∧
  (∃ (s : State) (q : Fin 64) (c : CmdArgs), s.m.Ready q.val (cmdWord 0x06 c) ∧ q.val < 48 ∧ s.m.dbgHalt = false ∧ s.m.AxisFree q.val ∧ (s.m.ax q.val).mode = .hold ∧ s.m.rd F.AX_HOME_CFG_METHOD q.val = 1 ∧ s.m.rd F.AX_HOME_VS_V q.val ≠ 0 ∧ s.m.rd F.AX_HOME_VF_V q.val ≠ 0) ∧
  (∃ (s : State) (q : Fin 64) (c : CmdArgs), ∃ n, (s.m.membersOf (q.val - 48)).head? = some n ∧ ∃ ms, (some (memberList (isRel (cmdWord 0x10 c)) ((s.m.membersOf (q.val - 48)).map fun k => (k, (s.m.ax k).nxt.p)) (s.m.captured q.val (cmdWord 0x10 c)))) = some ms ∧ s.m.Ready q.val (cmdWord 0x10 c) ∧ 48 ≤ q.val ∧ s.m.dbgHalt = false ∧ s.m.groupRunning (q.val - 48) = false ∧ (s.m.membersOf (q.val - 48)).all (fun k => (s.m.ax k).mode == .hold && (s.m.ax k).toTake.isEmpty && (s.m.ax k).kept.isNone && !s.m.latched k true && !s.m.latched k false && !s.m.slimOn k) = true ∧ pathLen ms ≠ 0 ∧ (s.m.groupLim ms (pathLen ms) (profOf (cmdWord 0x10 c))).isSome = true) :=
   ⟨⟨⟨[], (fun mm : Mach => mm.setReg .AX_PROF 0 0 (512 + 1000000 * 2 ^ 32 + 1000000 * 2 ^ 64)) ((fun mm : Mach => { mm with axes := vmod mm.axes (0 : Fin 64).val fun x__ => { x__ with mode := .hold } }) ((fun mm : Mach => { mm with dbgHalt := false }) runM))⟩, 0, (⟨0, 0, 0, 0⟩ : CmdArgs), ⟨ready_of (by decide +kernel), by decide +kernel, by decide +kernel, axisFree_of (by decide +kernel), by decide +kernel⟩⟩,
    ⟨⟨[], (fun mm : Mach => mm.setReg .AX_PROF 0 0 (512 + 1000000 * 2 ^ 32 + 1000000 * 2 ^ 64)) ((fun mm : Mach => { mm with axes := vmod mm.axes (0 : Fin 64).val fun x__ => { x__ with mode := .hold } }) ((fun mm : Mach => { mm with dbgHalt := false }) runM))⟩, 0, (⟨0, 0, 0, 0⟩ : CmdArgs), some_of (by decide +kernel) ⟨ready_of (by decide +kernel), by decide +kernel, by decide +kernel, axisFree_of (by decide +kernel), by decide +kernel⟩⟩,
    ⟨⟨[], (fun mm : Mach => mm.setReg .AX_PROF 0 0 (512 + 1000000 * 2 ^ 32 + 1000000 * 2 ^ 64)) ((fun mm : Mach => { mm with axes := vmod mm.axes (0 : Fin 64).val fun x__ => { x__ with mode := .hold } }) ((fun mm : Mach => { mm with dbgHalt := false }) runM))⟩, 0, (⟨0, 0, 0, 0⟩ : CmdArgs), ⟨ready_of (by decide +kernel), by decide +kernel, by decide +kernel, axisFree_of (by decide +kernel), by decide +kernel⟩⟩,
    ⟨⟨[], (fun mm : Mach => mm.modAx 0 fun x => { x with mode := .move }) ((fun mm : Mach => mm.setReg .AX_PROF 0 0 (512 + 1000000 * 2 ^ 32 + 1000000 * 2 ^ 64)) ((fun mm : Mach => { mm with axes := vmod mm.axes (0 : Fin 64).val fun x__ => { x__ with group := none } }) ((fun mm : Mach => { mm with axes := vmod mm.axes (0 : Fin 64).val fun x__ => { x__ with mode := .move } }) ((fun mm : Mach => { mm with dbgHalt := false }) runM))))⟩, 0, (⟨0, 0, 0, 0⟩ : CmdArgs), ⟨ready_of (by decide +kernel), by decide +kernel, by decide +kernel, axisFree_of (by decide +kernel), by decide +kernel⟩⟩,
    ⟨⟨[], (fun mm : Mach => mm.setReg .AX_PROF 0 0 (512 + 1000000 * 2 ^ 32 + 1000000 * 2 ^ 64)) ((fun mm : Mach => { mm with axes := vmod mm.axes (0 : Fin 64).val fun x__ => { x__ with mode := .hold } }) ((fun mm : Mach => { mm with dbgHalt := false }) runM))⟩, 0, (⟨0, 0, 0, 0⟩ : CmdArgs), ⟨ready_of (by decide +kernel), by decide +kernel, by decide +kernel, axisFree_of (by decide +kernel), by decide +kernel⟩⟩,
    ⟨⟨[], (fun mm : Mach => { mm with axes := vmod mm.axes (0 : Fin 64).val fun x__ => { x__ with mode := .hold } }) ((fun mm : Mach => { mm with dbgHalt := false }) runM)⟩, 0, (⟨0, 0, 0, 0⟩ : CmdArgs), ⟨ready_of (by decide +kernel), by decide +kernel, by decide +kernel, axisFree_of (by decide +kernel), by decide +kernel⟩⟩,
    ⟨⟨[], (fun mm : Mach => mm.setReg .AX_PROF 0 0 (512 + 1000000 * 2 ^ 32 + 1000000 * 2 ^ 64)) ((fun mm : Mach => mm.wr F.AX_HOME_CFG_METHOD (0) (0 : Fin 64).val) ((fun mm : Mach => { mm with axes := vmod mm.axes (0 : Fin 64).val fun x__ => { x__ with mode := .hold } }) ((fun mm : Mach => { mm with dbgHalt := false }) runM)))⟩, 0, (⟨0, 0, 0, 0⟩ : CmdArgs), ⟨ready_of (by decide +kernel), by decide +kernel, by decide +kernel, axisFree_of (by decide +kernel), by decide +kernel⟩⟩,
    ⟨⟨[], (fun mm : Mach => (mm.wr F.AX_HOME_VS_V 1 0).wr F.AX_HOME_VF_V 1 0) ((fun mm : Mach => mm.setReg .AX_PROF 0 0 (512 + 1000000 * 2 ^ 32 + 1000000 * 2 ^ 64)) ((fun mm : Mach => mm.wr F.AX_HOME_CFG_METHOD (1) (0 : Fin 64).val) ((fun mm : Mach => { mm with axes := vmod mm.axes (0 : Fin 64).val fun x__ => { x__ with mode := .hold } }) ((fun mm : Mach => { mm with dbgHalt := false }) runM))))⟩, 0, (⟨0, 0, 0, 0⟩ : CmdArgs), ⟨ready_of (by decide +kernel), by decide +kernel, by decide +kernel, axisFree_of (by decide +kernel), by decide +kernel⟩⟩,
    ⟨⟨[], (fun mm : Mach => mm.setReg .GR_TGT 0 0 (5000 * 2 ^ 24 + 3000 * 2 ^ 24 * 2 ^ 64)) ((fun mm : Mach => mm.modAx 1 fun x => { x with mode := .hold }) ((fun mm : Mach => mm.modAx 0 fun x => { x with mode := .hold }) ((fun mm : Mach => mm.setReg .AX_PROF 1 0 (512 + 1000000 * 2 ^ 32 + 1000000 * 2 ^ 64)) ((fun mm : Mach => mm.setReg .AX_PROF 0 0 (512 + 1000000 * 2 ^ 32 + 1000000 * 2 ^ 64)) ((fun mm : Mach => (mm.setReg .GR_MEMB_LO 0 0 3)) ((fun mm : Mach => { mm with dbgHalt := false }) runM))))))⟩, 48, (⟨0, 0, 1, 0⟩ : CmdArgs), some_of (by decide +kernel) (some_of (by decide +kernel) ⟨ready_of (by decide +kernel), by decide +kernel⟩)⟩⟩

/-- The clauses of `Obligations.AxisModeCommandsComplete` can be met. -/
theorem test_axis_mode_commands_complete_met :
  (∃ (s : State) (q : Fin 64) (c : CmdArgs), s.m.Ready q.val (cmdWord 0x07 c) ∧ q.val < 48 ∧ s.m.dbgHalt = false ∧ s.m.AxisFree q.val ∧ (s.m.ax q.val).mode = .hold ∧ isRel (cmdWord 0x07 c) = false) ∧
  (∃ (s : State) (q : Fin 64) (c : CmdArgs), s.m.Ready q.val (cmdWord 0x08 c) ∧ q.val < 48 ∧ s.m.dbgHalt = false ∧ s.m.AxisFree q.val ∧ (s.m.ax q.val).mode = .off ∧ s.m.enableRefused q.val = false) ∧
  (∃ (s : State) (q : Fin 64) (c : CmdArgs), s.m.Ready q.val (cmdWord 0x09 c) ∧ q.val < 48 ∧ s.m.dbgHalt = false ∧ s.m.AxisFree q.val ∧ (s.m.ax q.val).mode ≠ .off ∧ (s.m.ax q.val).mode ≠ .maquette) ∧
  (∃ (s : State) (q : Fin 64) (c : CmdArgs), s.m.Ready q.val (cmdWord 0x11 c) ∧ q.val < 48 ∧ s.m.dbgHalt = false ∧ s.m.AxisFree q.val ∧ (s.m.ax q.val).mode = .hold ∧ (s.m.ax q.val).group = none ∧ selKind (bitsOf c.p1.toNat 0 16) ≠ 1) ∧
  (∃ (s : State) (q : Fin 64) (c : CmdArgs), s.m.Ready q.val (cmdWord 0x12 c) ∧ q.val < 48 ∧ s.m.dbgHalt = false ∧ s.m.AxisFree q.val ∧ (s.m.ax q.val).mode = .hold ∧ (s.m.ax q.val).group = none ∧ selKind (bitsOf c.p1.toNat 8 16) ≠ 1) ∧
  (∃ (s : State) (q : Fin 64) (c : CmdArgs), s.m.Ready q.val (cmdWord 0x13 c) ∧ q.val < 48 ∧ s.m.dbgHalt = false ∧ s.m.AxisFree q.val ∧ (s.m.ax q.val).mode ≠ .fault ∧ (s.m.ax q.val).mode ≠ .maquette ∧ bitOf c.p1.toNat 3 = true) ∧
  (∃ (s : State) (q : Fin 64) (c : CmdArgs), s.m.Ready q.val (cmdWord 0x13 c) ∧ q.val < 48 ∧ s.m.dbgHalt = false ∧ s.m.AxisFree q.val ∧ (s.m.ax q.val).mode ≠ .fault ∧ (s.m.ax q.val).mode ≠ .maquette ∧ bitOf c.p1.toNat 3 = false) :=
   ⟨⟨⟨[], (fun mm : Mach => { mm with axes := vmod mm.axes (0 : Fin 64).val fun x__ => { x__ with mode := .hold } }) ((fun mm : Mach => { mm with dbgHalt := false }) runM)⟩, 0, (⟨0, 0, 0, 0⟩ : CmdArgs), ⟨ready_of (by decide +kernel), by decide +kernel, by decide +kernel, axisFree_of (by decide +kernel), by decide +kernel⟩⟩,
    ⟨⟨[], (fun mm : Mach => { mm with axes := vmod mm.axes (0 : Fin 64).val fun x__ => { x__ with mode := .off } }) ((fun mm : Mach => { mm with dbgHalt := false }) runM)⟩, 0, (⟨0, 0, 0, 0⟩ : CmdArgs), ⟨ready_of (by decide +kernel), by decide +kernel, by decide +kernel, axisFree_of (by decide +kernel), by decide +kernel⟩⟩,
    ⟨⟨[], (fun mm : Mach => mm.modAx 0 fun x => { x with mode := .hold }) ((fun mm : Mach => { mm with dbgHalt := false }) runM)⟩, 0, (⟨0, 0, 0, 0⟩ : CmdArgs), ⟨ready_of (by decide +kernel), by decide +kernel, by decide +kernel, axisFree_of (by decide +kernel), by decide +kernel⟩⟩,
    ⟨⟨[], (fun mm : Mach => mm.setReg .AX_PROF 0 0 (512 + 1000000 * 2 ^ 32 + 1000000 * 2 ^ 64)) ((fun mm : Mach => { mm with axes := vmod mm.axes (0 : Fin 64).val fun x__ => { x__ with group := none } }) ((fun mm : Mach => { mm with axes := vmod mm.axes (0 : Fin 64).val fun x__ => { x__ with mode := .hold } }) ((fun mm : Mach => { mm with dbgHalt := false }) runM)))⟩, 0, (⟨0, 0, 1, 0⟩ : CmdArgs), ⟨ready_of (by decide +kernel), by decide +kernel, by decide +kernel, axisFree_of (by decide +kernel), by decide +kernel⟩⟩,
    ⟨⟨[], (fun mm : Mach => mm.modQ 0 fun x => { x with vec := true }) ((fun mm : Mach => mm.dramWrite 0x3010 16 (1000 * 2 ^ 24)) ((fun mm : Mach => mm.dramWrite 0x3000 16 (0x43414D54 + 1 * 2 ^ 32 + 4 * 2 ^ 64)) ((fun mm : Mach => mm.setReg .GR_CAMTAB 0 0 0x3000) ((fun mm : Mach => mm.setReg .AX_PROF 0 0 (512 + 1000000 * 2 ^ 32 + 1000000 * 2 ^ 64)) ((fun mm : Mach => { mm with axes := vmod mm.axes (0 : Fin 64).val fun x__ => { x__ with group := none } }) ((fun mm : Mach => { mm with axes := vmod mm.axes (0 : Fin 64).val fun x__ => { x__ with mode := .hold } }) ((fun mm : Mach => { mm with dbgHalt := false }) runM)))))))⟩, 0, (⟨0, 0, BitVec.ofNat 32 (2 ^ 8), 0⟩ : CmdArgs), ⟨ready_of (by decide +kernel), by decide +kernel, by decide +kernel, axisFree_of (by decide +kernel), by decide +kernel⟩⟩,
    ⟨⟨[], (fun mm : Mach => { mm with dbgHalt := false }) runM⟩, 0, (⟨0, 0, 8, 0⟩ : CmdArgs), ⟨ready_of (by decide +kernel), by decide +kernel, by decide +kernel, axisFree_of (by decide +kernel), by decide +kernel⟩⟩,
    ⟨⟨[], (fun mm : Mach => { mm with dbgHalt := false }) runM⟩, 0, (⟨0, 0, 0, 0⟩ : CmdArgs), ⟨ready_of (by decide +kernel), by decide +kernel, by decide +kernel, axisFree_of (by decide +kernel), by decide +kernel⟩⟩⟩

/-- The clauses of `Obligations.AxisClassCommandsDispatch` can be met. -/
theorem test_axis_class_commands_dispatch_met :
  (∃ (s : State) (q : Fin 64) (c : CmdArgs), s.m.Ready q.val (cmdWord 0x01 c)  ∧ s.m.OrdersFree q.val) ∧
  (∃ (s : State) (q : Fin 64) (c : CmdArgs), s.m.Ready q.val (cmdWord 0x02 c)  ∧ s.m.OrdersFree q.val) ∧
  (∃ (s : State) (q : Fin 64) (c : CmdArgs), s.m.Ready q.val (cmdWord 0x03 c)  ∧ s.m.OrdersFree q.val) ∧
  (∃ (s : State) (q : Fin 64) (c : CmdArgs), s.m.Ready q.val (cmdWord 0x04 c)  ∧ s.m.OrdersFree q.val) ∧
  (∃ (s : State) (q : Fin 64) (c : CmdArgs), s.m.Ready q.val (cmdWord 0x05 c)  ∧ s.m.OrdersFree q.val) ∧
  (∃ (s : State) (q : Fin 64) (c : CmdArgs), s.m.Ready q.val (cmdWord 0x06 c)  ∧ s.m.OrdersFree q.val) ∧
  (∃ (s : State) (q : Fin 64) (c : CmdArgs), s.m.Ready q.val (cmdWord 0x07 c)  ∧ s.m.OrdersFree q.val) ∧
  (∃ (s : State) (q : Fin 64) (c : CmdArgs), s.m.Ready q.val (cmdWord 0x08 c)  ∧ s.m.OrdersFree q.val) ∧
  (∃ (s : State) (q : Fin 64) (c : CmdArgs), s.m.Ready q.val (cmdWord 0x09 c)  ∧ s.m.OrdersFree q.val) ∧
  (∃ (s : State) (q : Fin 64) (c : CmdArgs), s.m.Ready q.val (cmdWord 0x10 c)  ∧ s.m.OrdersFree q.val) ∧
  (∃ (s : State) (q : Fin 64) (c : CmdArgs), s.m.Ready q.val (cmdWord 0x11 c)  ∧ s.m.OrdersFree q.val) ∧
  (∃ (s : State) (q : Fin 64) (c : CmdArgs), s.m.Ready q.val (cmdWord 0x12 c)  ∧ s.m.OrdersFree q.val) ∧
  (∃ (s : State) (q : Fin 64) (c : CmdArgs), s.m.Ready q.val (cmdWord 0x13 c)  ∧ s.m.OrdersFree q.val) :=
   ⟨⟨⟨[], (fun mm : Mach => mm.setReg .AX_PROF 0 0 (512 + 1000000 * 2 ^ 32 + 1000000 * 2 ^ 64)) runM⟩, 0, (⟨0, 0, 0, 0⟩ : CmdArgs), ⟨ready_of (by decide +kernel), ordersFree_of (by decide +kernel)⟩⟩,
    ⟨⟨[], (fun mm : Mach => mm.setReg .AX_PROF 0 0 (512 + 1000000 * 2 ^ 32 + 1000000 * 2 ^ 64)) runM⟩, 0, (⟨0, 0, 0, 0⟩ : CmdArgs), ⟨ready_of (by decide +kernel), ordersFree_of (by decide +kernel)⟩⟩,
    ⟨⟨[], (fun mm : Mach => mm.setReg .AX_PROF 0 0 (512 + 1000000 * 2 ^ 32 + 1000000 * 2 ^ 64)) runM⟩, 0, (⟨0, 0, 0, 0⟩ : CmdArgs), ⟨ready_of (by decide +kernel), ordersFree_of (by decide +kernel)⟩⟩,
    ⟨⟨[], (fun mm : Mach => mm.setReg .AX_PROF 0 0 (512 + 1000000 * 2 ^ 32 + 1000000 * 2 ^ 64)) runM⟩, 0, (⟨0, 0, 0, 0⟩ : CmdArgs), ⟨ready_of (by decide +kernel), ordersFree_of (by decide +kernel)⟩⟩,
    ⟨⟨[], runM⟩, 0, (⟨0, 0, 0, 0⟩ : CmdArgs), ⟨ready_of (by decide +kernel), ordersFree_of (by decide +kernel)⟩⟩,
    ⟨⟨[], (fun mm : Mach => mm.setReg .AX_PROF 0 0 (512 + 1000000 * 2 ^ 32 + 1000000 * 2 ^ 64)) runM⟩, 0, (⟨0, 0, 0, 0⟩ : CmdArgs), ⟨ready_of (by decide +kernel), ordersFree_of (by decide +kernel)⟩⟩,
    ⟨⟨[], runM⟩, 0, (⟨0, 0, 0, 0⟩ : CmdArgs), ⟨ready_of (by decide +kernel), ordersFree_of (by decide +kernel)⟩⟩,
    ⟨⟨[], runM⟩, 0, (⟨0, 0, 0, 0⟩ : CmdArgs), ⟨ready_of (by decide +kernel), ordersFree_of (by decide +kernel)⟩⟩,
    ⟨⟨[], runM⟩, 0, (⟨0, 0, 0, 0⟩ : CmdArgs), ⟨ready_of (by decide +kernel), ordersFree_of (by decide +kernel)⟩⟩,
    ⟨⟨[], (fun mm : Mach => mm.setReg .GR_TGT 0 0 (5000 * 2 ^ 24 + 3000 * 2 ^ 24 * 2 ^ 64)) ((fun mm : Mach => mm.modAx 1 fun x => { x with mode := .hold }) ((fun mm : Mach => mm.modAx 0 fun x => { x with mode := .hold }) ((fun mm : Mach => mm.setReg .AX_PROF 1 0 (512 + 1000000 * 2 ^ 32 + 1000000 * 2 ^ 64)) ((fun mm : Mach => mm.setReg .AX_PROF 0 0 (512 + 1000000 * 2 ^ 32 + 1000000 * 2 ^ 64)) ((fun mm : Mach => (mm.setReg .GR_MEMB_LO 0 0 3)) runM)))))⟩, 48, (⟨0, 0, 1, 0⟩ : CmdArgs), ⟨ready_of (by decide +kernel), ordersFree_of (by decide +kernel)⟩⟩,
    ⟨⟨[], (fun mm : Mach => mm.setReg .AX_PROF 0 0 (512 + 1000000 * 2 ^ 32 + 1000000 * 2 ^ 64)) runM⟩, 0, (⟨0, 0, 1, 0⟩ : CmdArgs), ⟨ready_of (by decide +kernel), ordersFree_of (by decide +kernel)⟩⟩,
    ⟨⟨[], (fun mm : Mach => mm.modQ 0 fun x => { x with vec := true }) ((fun mm : Mach => mm.dramWrite 0x3010 16 (1000 * 2 ^ 24)) ((fun mm : Mach => mm.dramWrite 0x3000 16 (0x43414D54 + 1 * 2 ^ 32 + 4 * 2 ^ 64)) ((fun mm : Mach => mm.setReg .GR_CAMTAB 0 0 0x3000) ((fun mm : Mach => mm.setReg .AX_PROF 0 0 (512 + 1000000 * 2 ^ 32 + 1000000 * 2 ^ 64)) runM))))⟩, 0, (⟨0, 0, BitVec.ofNat 32 (2 ^ 8), 0⟩ : CmdArgs), ⟨ready_of (by decide +kernel), ordersFree_of (by decide +kernel)⟩⟩,
    ⟨⟨[], runM⟩, 0, (⟨0, 0, 0, 0⟩ : CmdArgs), ⟨ready_of (by decide +kernel), ordersFree_of (by decide +kernel)⟩⟩⟩

/-- The clauses of `Obligations.QueuePushAndControlComplete` can be met. -/
theorem test_queue_push_and_control_complete_met :
  (∃ (s : State) (q : Fin 64) (w : Word), s.m.NoAbort ∧ s.m.Takes ⟨.Q_PUSH, q.val, 0⟩ w.toNat ∧ (s.m.qu q.val).st ≠ .aborting ∧ (s.m.qu q.val).published.length + (s.m.qu q.val).staged.length < 32) ∧
  (∃ (s : State) (q : Fin 64) (w : Word), s.m.NoAbort ∧ s.m.Takes ⟨.Q_PUSH, q.val, 0⟩ w.toNat ∧ (s.m.qu q.val).st ≠ .aborting ∧ 32 ≤ (s.m.qu q.val).published.length + (s.m.qu q.val).staged.length) ∧
  (∃ (s : State) (q : Fin 64) (w : Word), s.m.NoAbort ∧ s.m.Takes ⟨.Q_PUSH_DB, q.val, 0⟩ w.toNat ∧ (s.m.qu q.val).st ≠ .aborting ∧ (s.m.qu q.val).published.length + (s.m.qu q.val).staged.length < 32) ∧
  (∃ (s : State) (q : Fin 64), s.m.NoAbort ∧ s.m.Takes ⟨.Q_DB, q.val, 0⟩ 1) ∧
  (∃ (s : State) (q : Fin 64), s.m.NoAbort ∧ s.m.Takes ⟨.Q_DB, q.val, 0⟩ 2) ∧
  (∃ (s : State) (hi : Bool) (mask : BitVec 32), s.m.NoAbort ∧ s.m.Takes (if hi then ⟨.Q_MDB_HI, 0, 0⟩ else ⟨.Q_MDB_LO, 0, 0⟩) mask.toNat) ∧
  (∃ (s : State) (q : Fin 64), s.m.NoAbort ∧ s.m.Takes ⟨.Q_CTRL, q.val, 0⟩ 1) ∧
  (∃ (s : State) (q : Fin 64), s.m.NoAbort ∧ s.m.Takes ⟨.Q_CTRL, q.val, 0⟩ 2 ∧ ((s.m.qu q.val).st = .paused ∨ (s.m.qu q.val).st = .halted)) ∧
  (∃ (s : State) (q : Fin 64), s.m.NoAbort ∧ s.m.Takes ⟨.Q_CTRL, q.val, 0⟩ 2 ∧ (s.m.qu q.val).st ≠ .paused ∧ (s.m.qu q.val).st ≠ .halted) ∧
  (∃ (s : State) (q : Fin 64), s.m.NoAbort ∧ s.m.Takes ⟨.Q_CTRL, q.val, 0⟩ 4 ∧ ((s.m.qu q.val).st = .idle ∨ (s.m.qu q.val).st = .paused ∨ (s.m.qu q.val).st = .halted)) ∧
  (∃ (s : State) (q : Fin 64), s.m.NoAbort ∧ s.m.Takes ⟨.Q_CTRL, q.val, 0⟩ 4 ∧ ((s.m.qu q.val).st = .run ∨ (s.m.qu q.val).st = .wait ∨ (s.m.qu q.val).st = .aborting)) ∧
  (∃ (s : State) (q : Fin 64) (rtn : BitVec 8), ∃ x, s.m.routine rtn.toNat = some x ∧ s.m.NoAbort ∧ s.m.Takes ⟨.Q_RTN, q.val, 0⟩ (2 ^ 31 + rtn.toNat) ∧ (s.m.qu q.val).st = .idle) ∧
  (∃ (s : State) (q : Fin 64) (rtn : BitVec 8), s.m.NoAbort ∧ s.m.Takes ⟨.Q_RTN, q.val, 0⟩ (2 ^ 31 + rtn.toNat) ∧ (s.m.qu q.val).st ≠ .idle) :=
   ⟨⟨⟨[], (fun mm : Mach => { mm with kn.phase := if mm.kn.phase == .off || mm.kn.phase == .gasp || mm.kn.phase == .resetLow then .run else mm.kn.phase, kn.done := 0xFFFF }) ((fun mm : Mach => mm.setReg .GL_LOCK 0 0 0) runM)⟩, 0, 0, ⟨noAbort_of (by decide +kernel), takes_of (by decide +kernel), by decide +kernel⟩⟩,
    ⟨⟨[], (fun mm : Mach => mm.modQ 0 fun x => { x with published := List.replicate 32 0 }) ((fun mm : Mach => { mm with kn.phase := if mm.kn.phase == .off || mm.kn.phase == .gasp || mm.kn.phase == .resetLow then .run else mm.kn.phase, kn.done := 0xFFFF }) ((fun mm : Mach => mm.setReg .GL_LOCK 0 0 0) runM))⟩, 0, 0, ⟨noAbort_of (by decide +kernel), takes_of (by decide +kernel), by decide +kernel⟩⟩,
    ⟨⟨[], (fun mm : Mach => { mm with kn.phase := if mm.kn.phase == .off || mm.kn.phase == .gasp || mm.kn.phase == .resetLow then .run else mm.kn.phase, kn.done := 0xFFFF }) ((fun mm : Mach => mm.setReg .GL_LOCK 0 0 0) runM)⟩, 0, 0, ⟨noAbort_of (by decide +kernel), takes_of (by decide +kernel), by decide +kernel⟩⟩,
    ⟨⟨[], (fun mm : Mach => { mm with kn.phase := if mm.kn.phase == .off || mm.kn.phase == .gasp || mm.kn.phase == .resetLow then .run else mm.kn.phase, kn.done := 0xFFFF }) ((fun mm : Mach => mm.setReg .GL_LOCK 0 0 0) runM)⟩, 0, ⟨noAbort_of (by decide +kernel), takes_of (by decide +kernel)⟩⟩,
    ⟨⟨[], (fun mm : Mach => { mm with kn.phase := if mm.kn.phase == .off || mm.kn.phase == .gasp || mm.kn.phase == .resetLow then .run else mm.kn.phase, kn.done := 0xFFFF }) ((fun mm : Mach => mm.setReg .GL_LOCK 0 0 0) runM)⟩, 0, ⟨noAbort_of (by decide +kernel), takes_of (by decide +kernel)⟩⟩,
    ⟨⟨[], (fun mm : Mach => { mm with kn.phase := if mm.kn.phase == .off || mm.kn.phase == .gasp || mm.kn.phase == .resetLow then .run else mm.kn.phase, kn.done := 0xFFFF }) ((fun mm : Mach => mm.setReg .GL_LOCK 0 0 0) runM)⟩, false, 0, ⟨noAbort_of (by decide +kernel), takes_of (by decide +kernel)⟩⟩,
    ⟨⟨[], (fun mm : Mach => { mm with kn.phase := if mm.kn.phase == .off || mm.kn.phase == .gasp || mm.kn.phase == .resetLow then .run else mm.kn.phase, kn.done := 0xFFFF }) ((fun mm : Mach => mm.setReg .GL_LOCK 0 0 0) runM)⟩, 0, ⟨noAbort_of (by decide +kernel), takes_of (by decide +kernel)⟩⟩,
    ⟨⟨[], (fun mm : Mach => { mm with queues := vmod mm.queues (0 : Fin 64).val fun x__ => { x__ with st := .paused } }) ((fun mm : Mach => { mm with kn.phase := if mm.kn.phase == .off || mm.kn.phase == .gasp || mm.kn.phase == .resetLow then .run else mm.kn.phase, kn.done := 0xFFFF }) ((fun mm : Mach => mm.setReg .GL_LOCK 0 0 0) runM))⟩, 0, ⟨noAbort_of (by decide +kernel), takes_of (by decide +kernel), by decide +kernel⟩⟩,
    ⟨⟨[], (fun mm : Mach => { mm with kn.phase := if mm.kn.phase == .off || mm.kn.phase == .gasp || mm.kn.phase == .resetLow then .run else mm.kn.phase, kn.done := 0xFFFF }) ((fun mm : Mach => mm.setReg .GL_LOCK 0 0 0) runM)⟩, 0, ⟨noAbort_of (by decide +kernel), takes_of (by decide +kernel), by decide +kernel⟩⟩,
    ⟨⟨[], (fun mm : Mach => { mm with queues := vmod mm.queues (0 : Fin 64).val fun x__ => { x__ with st := .idle } }) ((fun mm : Mach => { mm with kn.phase := if mm.kn.phase == .off || mm.kn.phase == .gasp || mm.kn.phase == .resetLow then .run else mm.kn.phase, kn.done := 0xFFFF }) ((fun mm : Mach => mm.setReg .GL_LOCK 0 0 0) runM))⟩, 0, ⟨noAbort_of (by decide +kernel), takes_of (by decide +kernel), by decide +kernel⟩⟩,
    ⟨⟨[], (fun mm : Mach => { mm with queues := vmod mm.queues (0 : Fin 64).val fun x__ => { x__ with st := .run } }) ((fun mm : Mach => { mm with kn.phase := if mm.kn.phase == .off || mm.kn.phase == .gasp || mm.kn.phase == .resetLow then .run else mm.kn.phase, kn.done := 0xFFFF }) ((fun mm : Mach => mm.setReg .GL_LOCK 0 0 0) runM))⟩, 0, ⟨noAbort_of (by decide +kernel), takes_of (by decide +kernel), by decide +kernel⟩⟩,
    ⟨⟨[], (fun mm : Mach => { mm with sections := [⟨2, 0, 0, 0, 0x1000, 0x400⟩] }) ((fun mm : Mach => { mm with queues := vmod mm.queues (0 : Fin 64).val fun x__ => { x__ with st := .idle } }) ((fun mm : Mach => { mm with kn.phase := if mm.kn.phase == .off || mm.kn.phase == .gasp || mm.kn.phase == .resetLow then .run else mm.kn.phase, kn.done := 0xFFFF }) ((fun mm : Mach => mm.setReg .GL_LOCK 0 0 0) runM)))⟩, 0, 0, some_of (by decide +kernel) ⟨noAbort_of (by decide +kernel), takes_of (by decide +kernel), by decide +kernel⟩⟩,
    ⟨⟨[], (fun mm : Mach => mm.modQ 0 fun x => { x with st := .paused }) ((fun mm : Mach => { mm with sections := [⟨2, 0, 0, 0, 0x1000, 0x400⟩] }) ((fun mm : Mach => { mm with kn.phase := if mm.kn.phase == .off || mm.kn.phase == .gasp || mm.kn.phase == .resetLow then .run else mm.kn.phase, kn.done := 0xFFFF }) ((fun mm : Mach => mm.setReg .GL_LOCK 0 0 0) runM)))⟩, 0, 0, ⟨noAbort_of (by decide +kernel), takes_of (by decide +kernel), by decide +kernel⟩⟩⟩

/-- The clauses of `Obligations.AbortAndRingReadsComplete` can be met. -/
theorem test_abort_and_ring_reads_complete_met :
  (∃ (s : State) (q : Fin 64) (halt : Bool) (tag : BitVec 16), s.m.NoAbort ∧ s.m.gasp = false ∧ s.m.clk.running = false ∧ (s.m.qu q.val).st ≠ .aborting ∧ s.m.Takes ⟨.Q_ABORT, q.val, 0⟩ (1 + 2 * b2n halt + tag.toNat * 2 ^ 16)) ∧
  (∃ (s : State) (q : Fin 64) (halt : Bool) (tag : BitVec 16), s.m.NoAbort ∧ s.m.gasp = false ∧ s.m.clk.running = true ∧ (s.m.qu q.val).st ≠ .aborting ∧ s.m.Takes ⟨.Q_ABORT, q.val, 0⟩ (1 + 2 * b2n halt + tag.toNat * 2 ^ 16)) ∧
  (∃ (s : State) (q : Fin 64) (halt : Bool) (tag : BitVec 16), s.m.gasp = false ∧ (s.m.qu q.val).st = .aborting ∧ s.m.abortsComplete = [] ∧ s.m.Takes ⟨.Q_ABORT, q.val, 0⟩ (1 + 2 * b2n halt + tag.toNat * 2 ^ 16)) ∧
  (∃ (s : State) (w : BitVec 32), ∃ qs, s.m.abortSet (bitsOf w.toNat 0 3) (bitsOf w.toNat 8 6) = some qs ∧ s.m.NoAbort ∧ s.m.gasp = false ∧ s.m.clk.running = false ∧ (∀ q ∈ qs, (s.m.qu q).st ≠ .aborting) ∧ s.m.Takes ⟨.Q_ABORT_X, 0, 0⟩ w.toNat) ∧
  (∃ (s : State) (w : BitVec 32), ∃ qs, s.m.abortSet (bitsOf w.toNat 0 3) (bitsOf w.toNat 8 6) = some qs ∧ s.m.NoAbort ∧ s.m.gasp = false ∧ s.m.clk.running = true ∧ (∀ q ∈ qs, (s.m.qu q).st ≠ .aborting) ∧ s.m.Takes ⟨.Q_ABORT_X, 0, 0⟩ w.toNat) ∧
  (∃ (s : State) (w : BitVec 32), s.m.NoAbort ∧ s.m.Takes ⟨.Q_ABORT_X, 0, 0⟩ w.toNat ∧ s.m.abortSet (bitsOf w.toNat 0 3) (bitsOf w.toNat 8 6) = none) ∧
  (∃ s : State, s.m.NoAbort ∧ s.m.regAnswers ⟨.Q_CPL_POP, 0, 0⟩ = true ∧ s.m.rings.cplWr ≠ s.m.rings.cplRd) ∧
  (∃ s : State, s.m.NoAbort ∧ s.m.regAnswers ⟨.Q_CPL_POP, 0, 0⟩ = true ∧ s.m.rings.cplWr = s.m.rings.cplRd) ∧
  (∃ (s : State) (v : BitVec 32), s.m.NoAbort ∧ s.m.Takes ⟨.Q_CPL_RD, 0, 0⟩ v.toNat ∧ s.m.cplStall = false) ∧
  (∃ s : State, s.m.NoAbort ∧ s.m.regAnswers ⟨.Q_EVT_POP, 0, 0⟩ = true ∧ s.m.rings.evtWr ≠ s.m.rings.evtRd) ∧
  (∃ s : State, s.m.NoAbort ∧ s.m.regAnswers ⟨.Q_EVT_POP, 0, 0⟩ = true ∧ s.m.rings.evtWr = s.m.rings.evtRd) ∧
  (∃ (s : State) (v : BitVec 32), s.m.NoAbort ∧ s.m.Takes ⟨.Q_EVT_RD, 0, 0⟩ v.toNat ∧ s.m.rings.evtLossDue = false) ∧
  (∃ (s : State) (g : Fin 16) (hi : Bool) (mask : BitVec 32), s.m.Takes (if hi then ⟨.GR_MEMB_HI, g.val, 0⟩ else ⟨.GR_MEMB_LO, g.val, 0⟩) mask.toNat ∧ s.m.groupRunning g.val = false ∧ ((s.m.setReg (if hi then Reg.GR_MEMB_HI else Reg.GR_MEMB_LO) g.val 0 (if hi then mask.toNat % 2 ^ 16 else mask.toNat)).membersOf g.val).length ≤ 16) ∧
  (∃ (s : State) (g : Fin 16) (hi : Bool) (mask : BitVec 32), s.m.Takes (if hi then ⟨.GR_MEMB_HI, g.val, 0⟩ else ⟨.GR_MEMB_LO, g.val, 0⟩) mask.toNat ∧ (s.m.groupRunning g.val = true ∨ 16 < ((s.m.setReg (if hi then Reg.GR_MEMB_HI else Reg.GR_MEMB_LO) g.val 0 (if hi then mask.toNat % 2 ^ 16 else mask.toNat)).membersOf g.val).length)) ∧
  (∃ (s : State) (g : Fin 16), s.m.Takes ⟨.GR_CTRL, g.val, 0⟩ 1 ∧ (s.m.arm g.val).run.isSome = true ∧ (s.m.arm g.val).emergency = false ∧ (s.m.arm g.val).stopping = false) ∧
  (∃ (s : State) (g : Fin 16), s.m.Takes ⟨.GR_CTRL, g.val, 0⟩ 1 ∧ (s.m.arm g.val).run = none) :=
   ⟨⟨⟨[], (fun mm : Mach => { mm with clk.running := false }) ((fun mm : Mach => { mm with kn.phase := if mm.kn.phase == .off || mm.kn.phase == .gasp || mm.kn.phase == .resetLow then .run else mm.kn.phase, kn.done := 0xFFFF }) ((fun mm : Mach => mm.setReg .GL_LOCK 0 0 0) ((fun mm : Mach => { mm with clk.running := false }) ((fun mm : Mach => { mm with gasp := false }) runM))))⟩, 0, false, 5, ⟨noAbort_of (by decide +kernel), by decide +kernel, by decide +kernel, by decide +kernel, takes_of (by decide +kernel)⟩⟩,
    ⟨⟨[], (fun mm : Mach => { mm with kn.phase := if mm.kn.phase == .off || mm.kn.phase == .gasp || mm.kn.phase == .resetLow then .run else mm.kn.phase, kn.done := 0xFFFF }) ((fun mm : Mach => mm.setReg .GL_LOCK 0 0 0) ((fun mm : Mach => { mm with clk.running := true }) ((fun mm : Mach => { mm with gasp := false }) runM)))⟩, 0, false, 5, ⟨noAbort_of (by decide +kernel), by decide +kernel, by decide +kernel, by decide +kernel, takes_of (by decide +kernel)⟩⟩,
    ⟨⟨[], (fun mm : Mach => mm.modQ 0 fun x => { x with st := .aborting, abort := some { anAbort with due := 1000 } }) ((fun mm : Mach => { mm with kn.phase := if mm.kn.phase == .off || mm.kn.phase == .gasp || mm.kn.phase == .resetLow then .run else mm.kn.phase, kn.done := 0xFFFF }) ((fun mm : Mach => mm.setReg .GL_LOCK 0 0 0) ((fun mm : Mach => { mm with queues := vmod mm.queues (0 : Fin 64).val fun x__ => { x__ with st := .aborting } }) ((fun mm : Mach => { mm with gasp := false }) runM))))⟩, 0, false, 5, ⟨by decide +kernel, by decide +kernel, by decide +kernel, takes_of (by decide +kernel)⟩⟩,
    ⟨⟨[], (fun mm : Mach => { mm with clk.running := false }) ((fun mm : Mach => { mm with kn.phase := if mm.kn.phase == .off || mm.kn.phase == .gasp || mm.kn.phase == .resetLow then .run else mm.kn.phase, kn.done := 0xFFFF }) ((fun mm : Mach => mm.setReg .GL_LOCK 0 0 0) ((fun mm : Mach => { mm with clk.running := false }) ((fun mm : Mach => { mm with gasp := false }) runM))))⟩, 4, some_of (by decide +kernel) ⟨noAbort_of (by decide +kernel), by decide +kernel, by decide +kernel, by decide +kernel, takes_of (by decide +kernel)⟩⟩,
    ⟨⟨[], (fun mm : Mach => { mm with kn.phase := if mm.kn.phase == .off || mm.kn.phase == .gasp || mm.kn.phase == .resetLow then .run else mm.kn.phase, kn.done := 0xFFFF }) ((fun mm : Mach => mm.setReg .GL_LOCK 0 0 0) ((fun mm : Mach => { mm with clk.running := true }) ((fun mm : Mach => { mm with gasp := false }) runM)))⟩, 4, some_of (by decide +kernel) ⟨noAbort_of (by decide +kernel), by decide +kernel, by decide +kernel, by decide +kernel, takes_of (by decide +kernel)⟩⟩,
    ⟨⟨[], (fun mm : Mach => { mm with kn.phase := if mm.kn.phase == .off || mm.kn.phase == .gasp || mm.kn.phase == .resetLow then .run else mm.kn.phase, kn.done := 0xFFFF }) ((fun mm : Mach => mm.setReg .GL_LOCK 0 0 0) runM)⟩, 7, ⟨noAbort_of (by decide +kernel), takes_of (by decide +kernel), by decide +kernel⟩⟩,
    ⟨⟨[], (fun mm : Mach => { mm with rings := { mm.rings with cplWr := 1, cpl := [(0, 0)] } }) ((fun mm : Mach => { mm with kn.phase := .run }) runM)⟩, ⟨noAbort_of (by decide +kernel), by decide +kernel⟩⟩,
    ⟨⟨[], (fun mm : Mach => { mm with rings.cplWr := mm.rings.cplRd }) ((fun mm : Mach => { mm with kn.phase := .run }) runM)⟩, ⟨noAbort_of (by decide +kernel), by decide +kernel⟩⟩,
    ⟨⟨[], (fun mm : Mach => mm.wr F.Q_UNIT_CFG_CPL_FULL 1) ((fun mm : Mach => { mm with kn.phase := if mm.kn.phase == .off || mm.kn.phase == .gasp || mm.kn.phase == .resetLow then .run else mm.kn.phase, kn.done := 0xFFFF }) ((fun mm : Mach => mm.setReg .GL_LOCK 0 0 0) runM))⟩, 0, ⟨noAbort_of (by decide +kernel), takes_of (by decide +kernel), by decide +kernel⟩⟩,
    ⟨⟨[], (fun mm : Mach => { mm with rings := { mm.rings with evtWr := 1, evt := [0] } }) ((fun mm : Mach => { mm with kn.phase := .run }) runM)⟩, ⟨noAbort_of (by decide +kernel), by decide +kernel⟩⟩,
    ⟨⟨[], (fun mm : Mach => { mm with rings.evtWr := mm.rings.evtRd }) ((fun mm : Mach => { mm with kn.phase := .run }) runM)⟩, ⟨noAbort_of (by decide +kernel), by decide +kernel⟩⟩,
    ⟨⟨[], (fun mm : Mach => { mm with rings.evtLossDue := false }) ((fun mm : Mach => { mm with kn.phase := if mm.kn.phase == .off || mm.kn.phase == .gasp || mm.kn.phase == .resetLow then .run else mm.kn.phase, kn.done := 0xFFFF }) ((fun mm : Mach => mm.setReg .GL_LOCK 0 0 0) runM))⟩, 0, ⟨noAbort_of (by decide +kernel), takes_of (by decide +kernel), by decide +kernel⟩⟩,
    ⟨⟨[], (fun mm : Mach => { mm with kn.phase := if mm.kn.phase == .off || mm.kn.phase == .gasp || mm.kn.phase == .resetLow then .run else mm.kn.phase, kn.done := 0xFFFF }) ((fun mm : Mach => mm.setReg .GL_LOCK 0 0 0) runM)⟩, 0, false, 0, ⟨takes_of (by decide +kernel), by decide +kernel⟩⟩,
    ⟨⟨[], (fun mm : Mach => mm.modArm 0 fun x => { x with run := some aSeg }) ((fun mm : Mach => { mm with kn.phase := if mm.kn.phase == .off || mm.kn.phase == .gasp || mm.kn.phase == .resetLow then .run else mm.kn.phase, kn.done := 0xFFFF }) ((fun mm : Mach => mm.setReg .GL_LOCK 0 0 0) runM))⟩, 0, false, 0, ⟨takes_of (by decide +kernel), by decide +kernel⟩⟩,
    ⟨⟨[], (fun mm : Mach => mm.modArm 0 fun x => { x with run := some aSeg }) ((fun mm : Mach => { mm with arms := vmod mm.arms (0 : Fin 16).val fun x__ => { x__ with stopping := false } }) ((fun mm : Mach => { mm with arms := vmod mm.arms (0 : Fin 16).val fun x__ => { x__ with emergency := false } }) ((fun mm : Mach => { mm with kn.phase := if mm.kn.phase == .off || mm.kn.phase == .gasp || mm.kn.phase == .resetLow then .run else mm.kn.phase, kn.done := 0xFFFF }) ((fun mm : Mach => mm.setReg .GL_LOCK 0 0 0) runM))))⟩, 0, ⟨takes_of (by decide +kernel), by decide +kernel⟩⟩,
    ⟨⟨[], (fun mm : Mach => { mm with arms := vmod mm.arms (0 : Fin 16).val fun x__ => { x__ with run := none } }) ((fun mm : Mach => { mm with kn.phase := if mm.kn.phase == .off || mm.kn.phase == .gasp || mm.kn.phase == .resetLow then .run else mm.kn.phase, kn.done := 0xFFFF }) ((fun mm : Mach => mm.setReg .GL_LOCK 0 0 0) runM))⟩, 0, ⟨takes_of (by decide +kernel), by decide +kernel⟩⟩⟩

/-- The clauses of `Obligations.BridgeEventsComplete` can be met. -/
theorem test_bridge_events_complete_met :
  (∃ (s : State) (k : Fin 96) (cnt : BitVec 14), ∃ d, ((match (s.m.coil k.val).active with | .quiet d => some d | _ => none)) = some d ∧ s.m.bridgeCh k.val = .drive ∧ (s.m.coil k.val).dac.isSome = true ∧ (s.m.coil k.val).tripAt = none ∧ cnt.toNat < (s.m.coil k.val).endCount ∧ (s.m.coil k.val).active = .quiet d) ∧
  (∃ (s : State) (k : Fin 96) (cnt : BitVec 14), (s.m.coil k.val).tripAt.isSome = true ∨ (s.m.coil k.val).endCount ≤ cnt.toNat) ∧
  (∃ (s : State) (n : Fin 48), (s.m.ax n.val).mode = .hold) ∧
  (∃ (s : State) (b : Fin 4), (s.m.bank b.val).clkStop = true) ∧
  (∃ (s : State) (b : Fin 4), (s.m.bank b.val).clkStop = false) ∧
  (∃ (s : State) (b : Fin 4) (mask : BitVec 12), s.m.Takes ⟨.PW_BFAULT, b.val, 0⟩ mask.toNat) :=
   ⟨⟨⟨[], (fun mm : Mach => mm.modAx 0 fun x => { x with mode := .hold }) ((fun mm : Mach => mm.modCoil 0 fun x => { x with tripAt := none, active := .quiet 1, endCount := 5, dac := some 1, on := true }) ((fun mm : Mach => { mm with coils := vmod mm.coils (0 : Fin 96).val fun x__ => { x__ with tripAt := none } }) runM))⟩, 0, 0, some_of (by decide +kernel) (by decide +kernel)⟩,
    ⟨⟨[], runM⟩, 0, 0, by decide +kernel⟩,
    ⟨⟨[], (fun mm : Mach => { mm with axes := vmod mm.axes (0 : Fin 48).val fun x__ => { x__ with mode := .hold } }) runM⟩, 0, by decide +kernel⟩,
    ⟨⟨[], (fun mm : Mach => { mm with banks := vmod mm.banks (0 : Fin 4).val fun x__ => { x__ with clkStop := true } }) runM⟩, 0, by decide +kernel⟩,
    ⟨⟨[], (fun mm : Mach => { mm with banks := vmod mm.banks (0 : Fin 4).val fun x__ => { x__ with clkStop := false } }) runM⟩, 0, by decide +kernel⟩,
    ⟨⟨[], (fun mm : Mach => { mm with kn.phase := if mm.kn.phase == .off || mm.kn.phase == .gasp || mm.kn.phase == .resetLow then .run else mm.kn.phase, kn.done := 0xFFFF }) ((fun mm : Mach => mm.setReg .GL_LOCK 0 0 0) runM)⟩, 0, 0, takes_of (by decide +kernel)⟩⟩

end Sys2Proof.Tests
end

