-- ==== Sys2Proof/Tests/Completion3.lean ====
section
/-!
SUPPORT. For each statement on how commands complete: a state and operands that meet the hypotheses of each of its clauses.
-/

open Sys2Proof Sys2Proof.Machine Sys2Proof.Tests

namespace Sys2Proof.Tests

-- One proof at a time: the kernel decides each, and waits for those before it.
set_option Elab.async false

/-- The clauses of `Obligations.BridgeRegistersComplete` can be met. -/
theorem test_bridge_registers_complete_met :
  (∃ (s : State) (b : Fin 4) (v : BitVec 14), s.m.Takes ⟨.PW_PERIOD, b.val, 0⟩ v.toNat ∧ s.m.bankOff b.val = true) ∧
  (∃ (s : State) (b : Fin 4) (v : BitVec 14), s.m.Takes ⟨.PW_PERIOD, b.val, 0⟩ v.toNat ∧ s.m.bankOff b.val = false) ∧
  (∃ (s : State) (b : Fin 4) (on : Bool), s.m.Takes ⟨.PW_CFG, b.val, 0⟩ (putBits (s.m.peek ⟨.PW_CFG, b.val, 0⟩ &&& Reg.PW_CFG.desc.rwBits) 3 1 (b2n on)) ∧ s.m.bankOff b.val = true) ∧
  (∃ (s : State) (b : Fin 4) (on : Bool), s.m.Takes ⟨.PW_CFG, b.val, 0⟩ (putBits (s.m.peek ⟨.PW_CFG, b.val, 0⟩ &&& Reg.PW_CFG.desc.rwBits) 3 1 (b2n on)) ∧ s.m.bankOff b.val = false ∧ s.m.rb F.PW_CFG_STAG_USER b.val = !on) ∧
  (∃ (s : State) (b : Fin 4) (k : Fin 24) (v : BitVec 14), s.m.Takes ⟨.PW_CH_OFS, b.val, k.val⟩ v.toNat ∧ s.m.bankOff b.val = true) ∧
  (∃ (s : State) (b : Fin 4) (k : Fin 24) (v : BitVec 14), s.m.Takes ⟨.PW_CH_OFS, b.val, k.val⟩ v.toNat ∧ s.m.bankOff b.val = false) ∧
  (∃ (s : State) (b : Fin 4) (v : BitVec 32), s.m.Takes ⟨.PW_SAFE, b.val, 0⟩ v.toNat) ∧
  (∃ (s : State) (b : Fin 4) (upset : Option (Fin 3 × BitVec 32)), upset = none ∧ (s.m.bank b.val).allDiff = false ∧ (s.m.bank b.val).safe0 = (s.m.bank b.val).safe1 ∧ (s.m.bank b.val).safe2 ≠ (s.m.bank b.val).safe0) ∧
  (∃ (s : State) (b : Fin 4) (upset : Option (Fin 3 × BitVec 32)), upset = none ∧ (s.m.bank b.val).safeOf = none ∧ (s.m.bank b.val).allDiff = false) ∧
  (∃ (s : State) (guard : BitVec 8), s.m.Takes ⟨.GL_DBG, 0, 0⟩ (1 + guard.toNat * 2 ^ 8) ∧ guard = 0xA5 ∧ s.m.dbgHalt = false) ∧
  (∃ (s : State) (guard : BitVec 8), s.m.Takes ⟨.GL_DBG, 0, 0⟩ (1 + guard.toNat * 2 ^ 8) ∧ guard ≠ 0xA5) ∧
  (∃ (s : State) (guard : BitVec 8), s.m.Takes ⟨.GL_DBG, 0, 0⟩ (guard.toNat * 2 ^ 8) ∧ guard = 0xA5 ∧ s.m.dbgHalt = true) ∧
  (∃ (s : State) (guard : BitVec 8), s.m.Takes ⟨.GL_DBG, 0, 0⟩ (guard.toNat * 2 ^ 8) ∧ guard ≠ 0xA5) :=
   ⟨⟨⟨[], (fun mm : Mach => { mm with kn.phase := if mm.kn.phase == .off || mm.kn.phase == .gasp || mm.kn.phase == .resetLow then .run else mm.kn.phase, kn.done := 0xFFFF }) ((fun mm : Mach => mm.setReg .GL_LOCK 0 0 0) runM)⟩, 0, 0, ⟨takes_of (by decide +kernel), by decide +kernel⟩⟩,
    ⟨⟨[], (fun mm : Mach => mm.modAx 0 fun x => { x with mode := .hold }) ((fun mm : Mach => { mm with kn.phase := if mm.kn.phase == .off || mm.kn.phase == .gasp || mm.kn.phase == .resetLow then .run else mm.kn.phase, kn.done := 0xFFFF }) ((fun mm : Mach => mm.setReg .GL_LOCK 0 0 0) runM))⟩, 0, 0, ⟨takes_of (by decide +kernel), by decide +kernel⟩⟩,
    ⟨⟨[], (fun mm : Mach => { mm with kn.phase := if mm.kn.phase == .off || mm.kn.phase == .gasp || mm.kn.phase == .resetLow then .run else mm.kn.phase, kn.done := 0xFFFF }) ((fun mm : Mach => mm.setReg .GL_LOCK 0 0 0) runM)⟩, 0, false, ⟨takes_of (by decide +kernel), by decide +kernel⟩⟩,
    ⟨⟨[], (fun mm : Mach => mm.modAx 0 fun x => { x with mode := .hold }) ((fun mm : Mach => mm.wr F.PW_CFG_STAG_USER (b2n (!(false : Bool))) (0 : Fin 4).val) ((fun mm : Mach => { mm with kn.phase := if mm.kn.phase == .off || mm.kn.phase == .gasp || mm.kn.phase == .resetLow then .run else mm.kn.phase, kn.done := 0xFFFF }) ((fun mm : Mach => mm.setReg .GL_LOCK 0 0 0) runM)))⟩, 0, false, ⟨takes_of (by decide +kernel), by decide +kernel⟩⟩,
    ⟨⟨[], (fun mm : Mach => { mm with kn.phase := if mm.kn.phase == .off || mm.kn.phase == .gasp || mm.kn.phase == .resetLow then .run else mm.kn.phase, kn.done := 0xFFFF }) ((fun mm : Mach => mm.setReg .GL_LOCK 0 0 0) runM)⟩, 0, 0, 0, ⟨takes_of (by decide +kernel), by decide +kernel⟩⟩,
    ⟨⟨[], (fun mm : Mach => mm.modAx 0 fun x => { x with mode := .hold }) ((fun mm : Mach => { mm with kn.phase := if mm.kn.phase == .off || mm.kn.phase == .gasp || mm.kn.phase == .resetLow then .run else mm.kn.phase, kn.done := 0xFFFF }) ((fun mm : Mach => mm.setReg .GL_LOCK 0 0 0) runM))⟩, 0, 0, 0, ⟨takes_of (by decide +kernel), by decide +kernel⟩⟩,
    ⟨⟨[], (fun mm : Mach => { mm with kn.phase := if mm.kn.phase == .off || mm.kn.phase == .gasp || mm.kn.phase == .resetLow then .run else mm.kn.phase, kn.done := 0xFFFF }) ((fun mm : Mach => mm.setReg .GL_LOCK 0 0 0) runM)⟩, 0, 0, takes_of (by decide +kernel)⟩,
    ⟨⟨[], (fun mm : Mach => mm.modBank 0 fun x => { x with safe0 := 1, safe1 := 1, safe2 := 0 }) ((fun mm : Mach => { mm with banks := vmod mm.banks (0 : Fin 4).val fun x__ => { x__ with safe0 := (mm.bank (0 : Fin 4).val).safe1 } }) ((fun mm : Mach => { mm with banks := vmod mm.banks (0 : Fin 4).val fun x__ => { x__ with allDiff := false } }) runM))⟩, 0, none, by decide +kernel⟩,
    ⟨⟨[], (fun mm : Mach => mm.modBank 0 fun x => { x with safe0 := 1, safe1 := 2, safe2 := 0 }) ((fun mm : Mach => { mm with banks := vmod mm.banks (0 : Fin 4).val fun x__ => { x__ with allDiff := false } }) runM)⟩, 0, none, by decide +kernel⟩,
    ⟨⟨[], (fun mm : Mach => { mm with dbgHalt := false }) ((fun mm : Mach => { mm with kn.phase := if mm.kn.phase == .off || mm.kn.phase == .gasp || mm.kn.phase == .resetLow then .run else mm.kn.phase, kn.done := 0xFFFF }) ((fun mm : Mach => mm.setReg .GL_LOCK 0 0 0) runM))⟩, 0xA5, ⟨takes_of (by decide +kernel), by decide +kernel⟩⟩,
    ⟨⟨[], (fun mm : Mach => { mm with kn.phase := if mm.kn.phase == .off || mm.kn.phase == .gasp || mm.kn.phase == .resetLow then .run else mm.kn.phase, kn.done := 0xFFFF }) ((fun mm : Mach => mm.setReg .GL_LOCK 0 0 0) runM)⟩, 0, ⟨takes_of (by decide +kernel), by decide +kernel⟩⟩,
    ⟨⟨[], (fun mm : Mach => { mm with dbgHalt := true }) ((fun mm : Mach => { mm with kn.phase := if mm.kn.phase == .off || mm.kn.phase == .gasp || mm.kn.phase == .resetLow then .run else mm.kn.phase, kn.done := 0xFFFF }) ((fun mm : Mach => mm.setReg .GL_LOCK 0 0 0) runM))⟩, 0xA5, ⟨takes_of (by decide +kernel), by decide +kernel⟩⟩,
    ⟨⟨[], (fun mm : Mach => { mm with kn.phase := if mm.kn.phase == .off || mm.kn.phase == .gasp || mm.kn.phase == .resetLow then .run else mm.kn.phase, kn.done := 0xFFFF }) ((fun mm : Mach => mm.setReg .GL_LOCK 0 0 0) runM)⟩, 0, ⟨takes_of (by decide +kernel), by decide +kernel⟩⟩⟩

/-- The clauses of `Obligations.TripAndSyncEventsComplete` can be met. -/
theorem test_trip_and_sync_events_complete_met :
  (∃ (s : State) (a : Bool) (b : Bool), s.m.sampled = true ∧ s.m.rb F.PW_TRIP_STAT_LATCH = false ∧ ((a = true ∧ s.m.rb F.PW_TRIP_CFG_EN_A = true) ∨ (b = true ∧ s.m.rb F.PW_TRIP_CFG_EN_B = true))) ∧
  (∃ s : State, s.m.sampled = false) ∧
  (∃ (s : State) (a : Bool) (b : Bool), s.m.rb F.PW_TRIP_STAT_LATCH = true ∨ ((a && s.m.rb F.PW_TRIP_CFG_EN_A) = false ∧ (b && s.m.rb F.PW_TRIP_CFG_EN_B) = false)) ∧
  (∃ s : State, s.m.Takes ⟨.PW_TRIP_STAT, 0, 0⟩ 1 ∧ s.m.rb F.PW_TRIP_STAT_LATCH = true ∧ s.m.tripActive = false) ∧
  (∃ s : State, s.m.Takes ⟨.PW_TRIP_STAT, 0, 0⟩ 1 ∧ s.m.rb F.PW_TRIP_STAT_LATCH = true ∧ s.m.tripActive = true) ∧
  (∃ s : State, s.m.rd F.PW_TRIP_CFG_DISC_T ≠ 0 ∧ (s.m.inp.tripA && s.m.rb F.PW_TRIP_CFG_EN_A) ≠ (s.m.inp.tripB && s.m.rb F.PW_TRIP_CFG_EN_B)) ∧
  (∃ s : State, s.m.sync.rewritten = false ∧ s.m.clk.running = true ∧ s.m.sync.role = 2) ∧
  (∃ s : State, s.m.sync.rewritten = false ∧ (s.m.clk.running = false ∨ s.m.sync.role ≠ 2)) ∧
  (∃ s : State, s.m.sync.rewritten = true) ∧
  (∃ s : State, s.m.sync.rewritten = false ∧ s.m.sync.role = 0) ∧
  (∃ s : State, s.m.sync.rewritten = false ∧ s.m.sync.role = 1) ∧
  (∃ s : State, s.m.sync.rewritten = false ∧ s.m.sync.role = 2 ∧ s.m.sync.driving = false) ∧
  (∃ s : State, s.m.sync.rewritten = false ∧ s.m.sync.role = 2 ∧ s.m.sync.driving = true) ∧
  (∃ s : State, s.m.sync.role = 1) ∧
  (∃ s : State, s.m.sync.role ≠ 1) :=
   ⟨⟨⟨[], (fun mm : Mach => mm.wr F.PW_TRIP_CFG_EN_A (b2n (true))) ((fun mm : Mach => mm.wr F.PW_TRIP_STAT_LATCH (b2n (false))) runM)⟩, true, false, by decide +kernel⟩,
    ⟨⟨[], (fun mm : Mach => { mm with kn.phase := .resetLow }) runM⟩, by decide +kernel⟩,
    ⟨⟨[], (fun mm : Mach => mm.wr F.PW_TRIP_STAT_LATCH (b2n (true))) runM⟩, false, false, by decide +kernel⟩,
    ⟨⟨[], (fun mm : Mach => mm.wr F.PW_TRIP_STAT_LATCH (b2n (true))) ((fun mm : Mach => { mm with kn.phase := if mm.kn.phase == .off || mm.kn.phase == .gasp || mm.kn.phase == .resetLow then .run else mm.kn.phase, kn.done := 0xFFFF }) ((fun mm : Mach => mm.setReg .GL_LOCK 0 0 0) runM))⟩, ⟨takes_of (by decide +kernel), by decide +kernel⟩⟩,
    ⟨⟨[], (fun mm : Mach => { mm with inp := { mm.inp with tripA := true } }) ((fun mm : Mach => (mm.wr F.PW_TRIP_CFG_EN_A 1)) ((fun mm : Mach => mm.wr F.PW_TRIP_STAT_LATCH (b2n (true))) ((fun mm : Mach => { mm with kn.phase := if mm.kn.phase == .off || mm.kn.phase == .gasp || mm.kn.phase == .resetLow then .run else mm.kn.phase, kn.done := 0xFFFF }) ((fun mm : Mach => mm.setReg .GL_LOCK 0 0 0) runM))))⟩, ⟨takes_of (by decide +kernel), by decide +kernel⟩⟩,
    ⟨⟨[], (fun mm : Mach => { mm with inp := { mm.inp with tripA := true } }) ((fun mm : Mach => (mm.wr F.PW_TRIP_CFG_EN_A 1)) runM)⟩, by decide +kernel⟩,
    ⟨⟨[], (fun mm : Mach => { mm with sync.role := 2 }) ((fun mm : Mach => { mm with clk.running := true }) ((fun mm : Mach => { mm with sync.rewritten := false }) runM))⟩, by decide +kernel⟩,
    ⟨⟨[], (fun mm : Mach => { mm with clk.running := false }) ((fun mm : Mach => { mm with sync.rewritten := false }) runM)⟩, by decide +kernel⟩,
    ⟨⟨[], (fun mm : Mach => { mm with sync := { mm.sync with rewritten := true } }) ((fun mm : Mach => { mm with sync.rewritten := true }) runM)⟩, by decide +kernel⟩,
    ⟨⟨[], (fun mm : Mach => { mm with sync.role := 0 }) ((fun mm : Mach => { mm with sync.rewritten := false }) runM)⟩, by decide +kernel⟩,
    ⟨⟨[], (fun mm : Mach => { mm with sync.role := 1 }) ((fun mm : Mach => { mm with sync.rewritten := false }) runM)⟩, by decide +kernel⟩,
    ⟨⟨[], (fun mm : Mach => { mm with sync.driving := false }) ((fun mm : Mach => { mm with sync.role := 2 }) ((fun mm : Mach => { mm with sync.rewritten := false }) runM))⟩, by decide +kernel⟩,
    ⟨⟨[], (fun mm : Mach => { mm with sync.driving := true }) ((fun mm : Mach => { mm with sync.role := 2 }) ((fun mm : Mach => { mm with sync.rewritten := false }) runM))⟩, by decide +kernel⟩,
    ⟨⟨[], (fun mm : Mach => { mm with sync.role := 1 }) runM⟩, by decide +kernel⟩,
    ⟨⟨[], runM⟩, by decide +kernel⟩⟩

/-- The clauses of `Obligations.SampleEventsComplete` can be met. -/
theorem test_sample_events_complete_met :
  (∃ (s : State) (k : Fin 96) (kind : Fin 8), ∃ r, ((s.m.coil k.val).reqs.find? (fun x => x.kind = kind.val)) = some r ∧ (s.m.coil k.val).reqs.find? (fun x => x.kind = kind.val) = some r ∧ r.nowin = false) ∧
  (∃ (s : State) (k : Fin 96) (kind : Fin 8), ∃ r, ((s.m.coil k.val).reqs.find? (fun x => x.kind = kind.val)) = some r ∧ (s.m.coil k.val).reqs.find? (fun x => x.kind = kind.val) = some r ∧ r.nowin = true) ∧
  (∃ (s : State) (k : Fin 96) (kind : Fin 8), (s.m.coil k.val).reqs.find? (fun x => x.kind = kind.val) = none) ∧
  (∃ (s : State) (k : Fin 96) (kind : Fin 8), ∃ h, (((s.m.coil k.val).held.find? fun x => x.kind = kind.val)) = some h ∧ True) ∧
  (∃ (s : State) (b : Fin 4) (sl : Fin 5), s.m.shadowing b.val = false ∨ s.m.sliceActive b.val sl.val = false) ∧
  (∃ (s : State) (b : Fin 4) (sl : Fin 5) (pairs : List (Int × Int × Rat)), s.m.shadowing b.val = true ∧ s.m.sliceActive b.val sl.val = true ∧ 1024 < (shownS 16 (s.m.rdS F.CS_SLICE_OFS b.val sl.val + toFixedZero 0 (((fitPairs (pairs.map fun x => ((x.1 : Rat), s.m.corrected b.val ((s.m.spareOf b.val).getD 4) s.m.cyc x.2.1, x.2.2))).o * 16 - (s.m.rdS F.CS_SLICE_OFS b.val sl.val : Rat)) / 4))).natAbs) ∧
  (∃ (s : State) (b : Fin 4), ∃ x, s.m.spareOf b.val = some x ∧ s.m.rd F.CS_CFG_CAL_INT b.val ≠ 0) ∧
  (∃ (s : State) (b : Fin 4), s.m.rd F.CS_CFG_CAL_INT b.val = 0 ∨ s.m.spareOf b.val = none) ∧
  (∃ (s : State) (b : Fin 4) (k : Fin 4), ∃ e, (s.m.bank b.val).trigs.head? = some e ∧ (s.m.bank b.val).trigs = [e] ∧ e.1 = k.val ∧ s.m.rb F.CS_TRIG_EN b.val k.val = true ∧ s.m.rb F.CS_TRIG_ACT b.val k.val = false ∧ (s.m.bank b.val).inj = none ∧ selValid (s.m.rd F.CS_INJ_CTRL_SEL b.val) = true) ∧
  (∃ (s : State) (b : Fin 4) (k : Fin 4), ∃ e, (s.m.bank b.val).trigs.head? = some e ∧ (s.m.bank b.val).trigs = [e] ∧ e.1 = k.val ∧ s.m.rb F.CS_TRIG_EN b.val k.val = true ∧ s.m.rb F.CS_TRIG_ACT b.val k.val = true ∧ (s.m.bank b.val).scan = none ∧ selValid (s.m.rd F.CS_SCAN_LIST_SEL b.val 0) = true) ∧
  (∃ (s : State) (b : Fin 4) (k : Fin 4), ∃ e, (s.m.bank b.val).trigs.head? = some e ∧ (s.m.bank b.val).trigs = [e] ∧ e.1 = k.val ∧ s.m.rb F.CS_TRIG_EN b.val k.val = false) ∧
  (∃ (s : State) (b : Fin 4) (k : Fin 4), (s.m.bank b.val).trigs.find? (fun x => x.1 = k.val) = none) ∧
  (∃ (s : State) (b : Fin 4) (ch : BitVec 5) (range : Bool), s.m.Takes ⟨.CS_PCHK, b.val, 0⟩ (ch.toNat + 32 * b2n range + 2 ^ 8) ∧ ch.toNat < 24 ∧ (s.m.bank b.val).pchk = none ∧ (s.m.ax (12 * b.val + ch.toNat / 2)).mode = .off) ∧
  (∃ (s : State) (b : Fin 4) (ch : BitVec 5) (range : Bool), s.m.Takes ⟨.CS_PCHK, b.val, 0⟩ (ch.toNat + 32 * b2n range + 2 ^ 8) ∧ (24 ≤ ch.toNat ∨ (s.m.bank b.val).pchk.isSome = true)) ∧
  (∃ (s : State) (b : Fin 4), ∃ x, (s.m.bank b.val).pchk = some x ∧ s.m.sf.dacOwner = some (2 + b.val) ∧ s.m.sf.dacWait.contains (2 + b.val) = false) ∧
  (∃ (s : State) (b : Fin 4), s.m.sf.dacOwner ≠ some (2 + b.val)) :=
   ⟨⟨⟨[], (fun mm : Mach => mm.modCoil 0 fun x => { x with reqs := [⟨0, 5, 0, 0, 0, false, 0⟩] }) runM⟩, 0, 0, some_of (by decide +kernel) (by decide +kernel)⟩,
    ⟨⟨[], (fun mm : Mach => mm.modCoil 0 fun x => { x with reqs := [⟨0, 5, 0, 0, 0, true, 0⟩] }) runM⟩, 0, 0, some_of (by decide +kernel) (by decide +kernel)⟩,
    ⟨⟨[], runM⟩, 0, 0, by decide +kernel⟩,
    ⟨⟨[], (fun mm : Mach => mm.modCoil 0 fun x => { x with held := [aHeld 0] }) runM⟩, 0, 0, some_of (by decide +kernel) (trivial)⟩,
    ⟨⟨[], runM⟩, 0, 0, by decide +kernel⟩,
    ⟨⟨[], (fun mm : Mach => mm.wr F.CS_SLICE_ROLE 1 0 4) ((fun mm : Mach => mm.wr F.CS_CFG_SHADOW_EN 1 0) runM)⟩, 0, 0, ([(1000, 0, 0), (1000, 0, 0)] : List (Int × Int × Rat)), by decide +kernel⟩,
    ⟨⟨[], (fun mm : Mach => mm.wr F.CS_SLICE_ROLE 1 0 4) runM⟩, 0, some_of (by decide +kernel) (by decide +kernel)⟩,
    ⟨⟨[], (fun mm : Mach => mm.wr F.CS_CFG_CAL_INT (0) (0 : Fin 4).val) runM⟩, 0, by decide +kernel⟩,
    ⟨⟨[], (fun mm : Mach => mm.wr F.CS_TRIG_EN 1 0) ((fun mm : Mach => mm.modBank 0 fun x => { x with trigs := [(0, 7)] }) runM)⟩, 0, 0, some_of (by decide +kernel) (by decide +kernel)⟩,
    ⟨⟨[], (fun mm : Mach => (mm.wr F.CS_TRIG_EN 1 0).wr F.CS_TRIG_ACT 1 0) ((fun mm : Mach => mm.modBank 0 fun x => { x with trigs := [(0, 7)] }) runM)⟩, 0, 0, some_of (by decide +kernel) (by decide +kernel)⟩,
    ⟨⟨[], (fun mm : Mach => mm.modBank 0 fun x => { x with trigs := [(0, 7)] }) runM⟩, 0, 0, some_of (by decide +kernel) (by decide +kernel)⟩,
    ⟨⟨[], runM⟩, 0, 0, by decide +kernel⟩,
    ⟨⟨[], (fun mm : Mach => { mm with axes := vmod mm.axes (12 * (0 : Fin 4).val + (0 : BitVec 5).toNat / 2) fun x__ => { x__ with mode := .off } }) ((fun mm : Mach => { mm with banks := vmod mm.banks (0 : Fin 4).val fun x__ => { x__ with pchk := none } }) ((fun mm : Mach => { mm with kn.phase := if mm.kn.phase == .off || mm.kn.phase == .gasp || mm.kn.phase == .resetLow then .run else mm.kn.phase, kn.done := 0xFFFF }) ((fun mm : Mach => mm.setReg .GL_LOCK 0 0 0) runM)))⟩, 0, 0, false, ⟨takes_of (by decide +kernel), by decide +kernel⟩⟩,
    ⟨⟨[], (fun mm : Mach => { mm with kn.phase := if mm.kn.phase == .off || mm.kn.phase == .gasp || mm.kn.phase == .resetLow then .run else mm.kn.phase, kn.done := 0xFFFF }) ((fun mm : Mach => mm.setReg .GL_LOCK 0 0 0) runM)⟩, 0, 24, false, ⟨takes_of (by decide +kernel), by decide +kernel⟩⟩,
    ⟨⟨[], (fun mm : Mach => { mm with sf.dacOwner := some (2 + (0 : Fin 4).val) }) ((fun mm : Mach => { mm with banks := vmod mm.banks (0 : Fin 4).val fun x__ => { x__ with pchk := some (aPchk) } }) runM)⟩, 0, some_of (by decide +kernel) (by decide +kernel)⟩,
    ⟨⟨[], runM⟩, 0, by decide +kernel⟩⟩

/-- The clauses of `Obligations.ScanAndInjectionComplete` can be met. -/
theorem test_scan_and_injection_complete_met :
  (∃ (s : State) (b : Fin 4) (sel : BitVec 8), s.m.Takes ⟨.CS_INJ_CTRL, b.val, 0⟩ (sel.toNat + 2 ^ 8) ∧ (s.m.bank b.val).inj = none ∧ selValid sel.toNat = true) ∧
  (∃ (s : State) (b : Fin 4) (sel : BitVec 8), s.m.Takes ⟨.CS_INJ_CTRL, b.val, 0⟩ (sel.toNat + 2 ^ 8) ∧ (s.m.bank b.val).inj = none ∧ selValid sel.toNat = false) ∧
  (∃ (s : State) (b : Fin 4) (sel : BitVec 8), s.m.Takes ⟨.CS_INJ_CTRL, b.val, 0⟩ (sel.toNat + 2 ^ 8) ∧ (s.m.bank b.val).inj.isSome = true) ∧
  (∃ (s : State) (b : Fin 4), ∃ r, (s.m.bank b.val).inj = some r ∧ True) ∧
  (∃ (s : State) (b : Fin 4), (s.m.bank b.val).inj = none) ∧
  (∃ (s : State) (b : Fin 4), s.m.Takes ⟨.CS_SCAN_CFG, b.val, 0⟩ ((s.m.peek ⟨.CS_SCAN_CFG, b.val, 0⟩ &&& Reg.CS_SCAN_CFG.desc.rwBits) + 32) ∧ (s.m.bank b.val).scan = none ∧ selValid (s.m.rd F.CS_SCAN_LIST_SEL b.val 0) = true) ∧
  (∃ (s : State) (b : Fin 4), s.m.Takes ⟨.CS_SCAN_CFG, b.val, 0⟩ ((s.m.peek ⟨.CS_SCAN_CFG, b.val, 0⟩ &&& Reg.CS_SCAN_CFG.desc.rwBits) + 32) ∧ (s.m.bank b.val).scan.isSome = true) ∧
  (∃ (s : State) (b : Fin 4), s.m.Takes ⟨.CS_SCAN_CFG, b.val, 0⟩ ((s.m.peek ⟨.CS_SCAN_CFG, b.val, 0⟩ &&& Reg.CS_SCAN_CFG.desc.rwBits) + 64)) ∧
  (∃ (s : State) (b : Fin 4) (slice : Fin 5), ∃ i, (s.m.bank b.val).scan = some i ∧ (s.m.bank b.val).scanStop = true ∧ s.m.scanGrant b.val slice.val s.m.holdCyc = true) ∧
  (∃ (s : State) (b : Fin 4) (slice : Fin 5), (s.m.bank b.val).scan = none ∨ s.m.scanGrant b.val slice.val s.m.holdCyc = false) ∧
  (∃ (s : State) (b : Fin 4), s.m.regAnswers ⟨.CS_SCAN_POP, b.val, 0⟩ = true) :=
   ⟨⟨⟨[], (fun mm : Mach => { mm with banks := vmod mm.banks (0 : Fin 4).val fun x__ => { x__ with inj := none } }) ((fun mm : Mach => { mm with kn.phase := if mm.kn.phase == .off || mm.kn.phase == .gasp || mm.kn.phase == .resetLow then .run else mm.kn.phase, kn.done := 0xFFFF }) ((fun mm : Mach => mm.setReg .GL_LOCK 0 0 0) runM))⟩, 0, 0, ⟨takes_of (by decide +kernel), by decide +kernel⟩⟩,
    ⟨⟨[], (fun mm : Mach => { mm with banks := vmod mm.banks (0 : Fin 4).val fun x__ => { x__ with inj := none } }) ((fun mm : Mach => { mm with kn.phase := if mm.kn.phase == .off || mm.kn.phase == .gasp || mm.kn.phase == .resetLow then .run else mm.kn.phase, kn.done := 0xFFFF }) ((fun mm : Mach => mm.setReg .GL_LOCK 0 0 0) runM))⟩, 0, 0xFE, ⟨takes_of (by decide +kernel), by decide +kernel⟩⟩,
    ⟨⟨[], (fun mm : Mach => mm.modBank 0 fun x => { x with inj := some anInj }) ((fun mm : Mach => { mm with kn.phase := if mm.kn.phase == .off || mm.kn.phase == .gasp || mm.kn.phase == .resetLow then .run else mm.kn.phase, kn.done := 0xFFFF }) ((fun mm : Mach => mm.setReg .GL_LOCK 0 0 0) runM))⟩, 0, 0, ⟨takes_of (by decide +kernel), by decide +kernel⟩⟩,
    ⟨⟨[], (fun mm : Mach => { mm with banks := vmod mm.banks (0 : Fin 4).val fun x__ => { x__ with inj := some (anInj) } }) runM⟩, 0, some_of (by decide +kernel) (trivial)⟩,
    ⟨⟨[], (fun mm : Mach => { mm with banks := vmod mm.banks (0 : Fin 4).val fun x__ => { x__ with inj := none } }) runM⟩, 0, by decide +kernel⟩,
    ⟨⟨[], (fun mm : Mach => { mm with banks := vmod mm.banks (0 : Fin 4).val fun x__ => { x__ with scan := none } }) ((fun mm : Mach => { mm with kn.phase := if mm.kn.phase == .off || mm.kn.phase == .gasp || mm.kn.phase == .resetLow then .run else mm.kn.phase, kn.done := 0xFFFF }) ((fun mm : Mach => mm.setReg .GL_LOCK 0 0 0) runM))⟩, 0, ⟨takes_of (by decide +kernel), by decide +kernel⟩⟩,
    ⟨⟨[], (fun mm : Mach => mm.modBank 0 fun x => { x with scan := some 0 }) ((fun mm : Mach => { mm with kn.phase := if mm.kn.phase == .off || mm.kn.phase == .gasp || mm.kn.phase == .resetLow then .run else mm.kn.phase, kn.done := 0xFFFF }) ((fun mm : Mach => mm.setReg .GL_LOCK 0 0 0) runM))⟩, 0, ⟨takes_of (by decide +kernel), by decide +kernel⟩⟩,
    ⟨⟨[], (fun mm : Mach => { mm with kn.phase := if mm.kn.phase == .off || mm.kn.phase == .gasp || mm.kn.phase == .resetLow then .run else mm.kn.phase, kn.done := 0xFFFF }) ((fun mm : Mach => mm.setReg .GL_LOCK 0 0 0) runM)⟩, 0, takes_of (by decide +kernel)⟩,
    ⟨⟨[], (fun mm : Mach => { mm with banks := vmod mm.banks (0 : Fin 4).val fun x__ => { x__ with scanStop := true } }) ((fun mm : Mach => { mm with banks := vmod mm.banks (0 : Fin 4).val fun x__ => { x__ with scan := some (aScan) } }) runM)⟩, 0, 0, some_of (by decide +kernel) (by decide +kernel)⟩,
    ⟨⟨[], (fun mm : Mach => { mm with banks := vmod mm.banks (0 : Fin 4).val fun x__ => { x__ with scan := none } }) runM⟩, 0, 0, by decide +kernel⟩,
    ⟨⟨[], (fun mm : Mach => { mm with kn.phase := .run }) runM⟩, 0, by decide +kernel⟩⟩

/-- The clauses of `Obligations.LoadAngleCommandsComplete` can be met. -/
theorem test_load_angle_commands_complete_met :
  (∃ (s : State) (b : Fin 4) (axis : BitVec 4), ∃ p, s.m.verPort (12 * b.val + axis.toNat) = some p ∧ s.m.Takes ⟨.LA_CTRL, b.val, 0⟩ (axis.toNat + 16) ∧ axis.toNat < 12 ∧ (s.m.ax (12 * b.val + axis.toNat)).eff = .hold ∧ s.m.rd F.LA_VER_CFG_OFS_MODE b.val axis.toNat = 1 ∧ s.m.portBad p = false) ∧
  (∃ (s : State) (b : Fin 4) (axis : BitVec 4), s.m.Takes ⟨.LA_CTRL, b.val, 0⟩ (axis.toNat + 16) ∧ axis.toNat < 12 ∧ ((s.m.ax (12 * b.val + axis.toNat)).eff ≠ .hold ∨ s.m.verPort (12 * b.val + axis.toNat) = none)) ∧
  (∃ (s : State) (b : Fin 4) (axis : BitVec 4), s.m.Takes ⟨.LA_CTRL, b.val, 0⟩ (axis.toNat + 32) ∧ axis.toNat < 12) :=
   ⟨⟨⟨[], (fun mm : Mach => mm.modAx 0 fun x => { x with mode := .hold }) ((fun mm : Mach => ((mm.wr F.LA_VER_CFG_EN 1 0 0).wr F.LA_VER_CFG_OFS_MODE 1 0 0).wr F.LA_VER_CFG_PORT 0 0 0) ((fun mm : Mach => { mm with kn.phase := if mm.kn.phase == .off || mm.kn.phase == .gasp || mm.kn.phase == .resetLow then .run else mm.kn.phase, kn.done := 0xFFFF }) ((fun mm : Mach => mm.setReg .GL_LOCK 0 0 0) runM)))⟩, 0, 0, some_of (by decide +kernel) ⟨takes_of (by decide +kernel), by decide +kernel⟩⟩,
    ⟨⟨[], (fun mm : Mach => { mm with kn.phase := if mm.kn.phase == .off || mm.kn.phase == .gasp || mm.kn.phase == .resetLow then .run else mm.kn.phase, kn.done := 0xFFFF }) ((fun mm : Mach => mm.setReg .GL_LOCK 0 0 0) runM)⟩, 0, 0, ⟨takes_of (by decide +kernel), by decide +kernel⟩⟩,
    ⟨⟨[], (fun mm : Mach => { mm with kn.phase := if mm.kn.phase == .off || mm.kn.phase == .gasp || mm.kn.phase == .resetLow then .run else mm.kn.phase, kn.done := 0xFFFF }) ((fun mm : Mach => mm.setReg .GL_LOCK 0 0 0) runM)⟩, 0, 0, ⟨takes_of (by decide +kernel), by decide +kernel⟩⟩⟩

/-- The clauses of `Obligations.PortEdgesComplete` can be met. -/
theorem test_port_edges_complete_met :
  (∃ (s : State) (p : Fin 12) (a : Bool) (b : Bool) (e : QuadAt), s.m.portLive p.val = true ∧ (s.m.portMode p.val = 6 ∨ (s.m.portMode p.val = 1 ∧ (s.m.rb F.FB_CFG_IDX_GATE p.val = true ∨ e.z = false))) ∧ s.m.portLvl p.val % 4 = 0 ∧ a = true ∧ b = false) ∧
  (∃ (s : State) (p : Fin 12) (a : Bool) (b : Bool) (e : QuadAt), s.m.portLive p.val = true ∧ (s.m.portMode p.val = 6 ∨ (s.m.portMode p.val = 1 ∧ (s.m.rb F.FB_CFG_IDX_GATE p.val = true ∨ e.z = false))) ∧ s.m.portLvl p.val % 4 = 0 ∧ a = false ∧ b = true) ∧
  (∃ (s : State) (p : Fin 12) (a : Bool) (b : Bool) (e : QuadAt), s.m.portLive p.val = true ∧ s.m.portMode p.val = 1 ∧ s.m.rb F.FB_CFG_IDX_GATE p.val = false ∧ s.m.portLvl p.val % 8 = 0 ∧ a = true ∧ b = false ∧ e.z = true) ∧
  (∃ (s : State) (p : Fin 12) (a : Bool) (b : Bool), s.m.portLive p.val = true ∧ s.m.portMode p.val = 6 ∧ s.m.portLvl p.val % 4 = 0 ∧ a = true ∧ b = true) ∧
  (∃ (s : State) (p : Fin 12), s.m.portMode p.val = 0 ∨ s.m.portMode p.val = 3 ∨ s.m.portMode p.val = 4 ∨ s.m.portLive p.val = false) ∧
  (∃ (s : State) (p : Fin 12) (code : BitVec 3), s.m.portLive p.val = true ∧ s.m.portMode p.val = 2 ∧ bitsOf (s.m.portLvl p.val) 0 3 = 1 ∧ code = 3) ∧
  (∃ (s : State) (p : Fin 12) (ena : Bool), s.m.portLive p.val = true ∧ s.m.portMode p.val = 5 ∧ (s.m.rb F.FB_CFG_ENA_EN p.val = false ∨ ena = true)) ∧
  (∃ (s : State) (p : Fin 12) (ena : Bool), s.m.portLive p.val = true ∧ s.m.portMode p.val = 5 ∧ s.m.rb F.FB_CFG_ENA_EN p.val = true ∧ ena = false) ∧
  (∃ (s : State) (p : Fin 12), s.m.portLive p.val = true ∧ s.m.portMode p.val = 1 ∧ (s.m.rb F.FB_CFG_IDX_GATE p.val = false ∨ s.m.portLvl p.val % 4 = 3)) ∧
  (∃ (s : State) (p : Fin 12), s.m.portLive p.val = true ∧ s.m.portMode p.val = 1 ∧ s.m.rb F.FB_CFG_IDX_GATE p.val = true ∧ s.m.portLvl p.val % 4 ≠ 3) ∧
  (∃ (s : State) (p : Fin 12), s.m.portLive p.val = false ∨ s.m.portMode p.val = 0 ∨ 3 ≤ s.m.portMode p.val) :=
   ⟨⟨⟨[], (fun mm : Mach => mm.wr F.FB_CFG_MODE 6 0) ((fun mm : Mach => mm.wr F.FB_CFG_IDX_GATE (b2n (true)) (0 : Fin 12).val) runM)⟩, 0, true, false, ({ (⟨0, false⟩ : QuadAt) with z := false } : QuadAt), by decide +kernel⟩,
    ⟨⟨[], (fun mm : Mach => mm.wr F.FB_CFG_MODE 1 0) ((fun mm : Mach => mm.wr F.FB_CFG_IDX_GATE (b2n (true)) (0 : Fin 12).val) runM)⟩, 0, false, true, ({ (⟨0, false⟩ : QuadAt) with z := false } : QuadAt), by decide +kernel⟩,
    ⟨⟨[], (fun mm : Mach => mm.wr F.FB_CFG_MODE 1 0) ((fun mm : Mach => mm.wr F.FB_CFG_IDX_GATE (b2n (false)) (0 : Fin 12).val) runM)⟩, 0, true, false, (⟨0, true⟩ : QuadAt), by decide +kernel⟩,
    ⟨⟨[], (fun mm : Mach => mm.wr F.FB_CFG_MODE 6 0) runM⟩, 0, true, true, by decide +kernel⟩,
    ⟨⟨[], runM⟩, 0, by decide +kernel⟩,
    ⟨⟨[], (fun mm : Mach => mm.modPort 0 fun x => { x with flt := 1 }) ((fun mm : Mach => mm.wr F.FB_CFG_MODE 2 0) runM)⟩, 0, 3, by decide +kernel⟩,
    ⟨⟨[], (fun mm : Mach => mm.wr F.FB_CFG_MODE 5 0) ((fun mm : Mach => mm.wr F.FB_CFG_ENA_EN (b2n (false)) (0 : Fin 12).val) runM)⟩, 0, false, by decide +kernel⟩,
    ⟨⟨[], (fun mm : Mach => mm.wr F.FB_CFG_MODE 5 0) ((fun mm : Mach => mm.wr F.FB_CFG_ENA_EN (b2n (true)) (0 : Fin 12).val) runM)⟩, 0, false, by decide +kernel⟩,
    ⟨⟨[], (fun mm : Mach => mm.wr F.FB_CFG_MODE 1 0) ((fun mm : Mach => mm.wr F.FB_CFG_IDX_GATE (b2n (false)) (0 : Fin 12).val) runM)⟩, 0, by decide +kernel⟩,
    ⟨⟨[], (fun mm : Mach => mm.wr F.FB_CFG_IDX_GATE 1 0) ((fun mm : Mach => mm.wr F.FB_CFG_MODE 1 0) ((fun mm : Mach => mm.wr F.FB_CFG_IDX_GATE (b2n (true)) (0 : Fin 12).val) runM))⟩, 0, by decide +kernel⟩,
    ⟨⟨[], runM⟩, 0, by decide +kernel⟩⟩

/-- The clauses of `Obligations.PortCommandsComplete` can be met. -/
theorem test_port_commands_complete_met :
  (∃ (s : State) (p : Fin 12), s.m.portLive p.val = true ∧ (s.m.portMode p.val = 3 ∨ s.m.portMode p.val = 4) ∧ s.m.readDue p.val = true ∧ (s.m.port p.val).reading = false ∧ (s.m.port p.val).freeAt ≤ s.m.clk.tick * 1000) ∧
  (∃ (s : State) (p : Fin 12), s.m.portLive p.val = true ∧ (s.m.portMode p.val = 3 ∨ s.m.portMode p.val = 4) ∧ s.m.readDue p.val = false) ∧
  (∃ (s : State) (p : Fin 12), s.m.portLive p.val = true ∧ (s.m.portMode p.val = 3 ∨ s.m.portMode p.val = 4) ∧ s.m.readDue p.val = true ∧ (s.m.port p.val).reading = true) ∧
  (∃ (s : State) (p : Fin 12) (waits : FrameWaits), s.m.portLive p.val = true ∧ (s.m.portMode p.val = 3 ∨ s.m.portMode p.val = 4) ∧ (s.m.port p.val).reading = true ∧ s.m.serTimeout p.val waits = true) ∧
  (∃ (s : State) (p : Fin 12) (waits : FrameWaits), s.m.portLive p.val = true ∧ s.m.portMode p.val = 3 ∧ (s.m.port p.val).reading = true ∧ s.m.serTimeout p.val waits = false ∧ (s.m.port p.val).word = none ∧ s.m.rb F.FB_SER_GRAY p.val = false) ∧
  (∃ (s : State) (p : Fin 12), s.m.Takes ⟨.FB_CTRL, p.val, 0⟩ 1) ∧
  (∃ (s : State) (p : Fin 12), s.m.Takes ⟨.FB_CTRL, p.val, 0⟩ 2) ∧
  (∃ (s : State) (p : Fin 12), s.m.Takes ⟨.FB_STAT, p.val, 0⟩ 1) ∧
  (∃ (s : State) (p : Fin 12) (mode : BitVec 3), s.m.Takes ⟨.FB_CFG, p.val, 0⟩ (putBits (s.m.peek ⟨.FB_CFG, p.val, 0⟩ &&& Reg.FB_CFG.desc.rwBits) 0 3 mode.toNat) ∧ s.m.portInUse p.val = false) ∧
  (∃ (s : State) (p : Fin 12) (mode : BitVec 3), s.m.Takes ⟨.FB_CFG, p.val, 0⟩ (putBits (s.m.peek ⟨.FB_CFG, p.val, 0⟩ &&& Reg.FB_CFG.desc.rwBits) 0 3 mode.toNat) ∧ s.m.portInUse p.val = true) ∧
  (∃ (s : State) (p : Fin 12) (axis : BitVec 6) (prof : BitVec 3), s.m.Takes ⟨.FB_FOLLOW, p.val, 0⟩ (1 + axis.toNat * 2 ^ 8 + prof.toNat * 2 ^ 16) ∧ axis.toNat < 48 ∧ (s.m.ax axis.toNat).mode = .hold) ∧
  (∃ (s : State) (p : Fin 12) (axis : BitVec 6) (prof : BitVec 3), s.m.Takes ⟨.FB_FOLLOW, p.val, 0⟩ (1 + axis.toNat * 2 ^ 8 + prof.toNat * 2 ^ 16) ∧ 48 ≤ axis.toNat) ∧
  (∃ (s : State) (p : Fin 12), s.m.Takes ⟨.FB_FOLLOW, p.val, 0⟩ (putBits (s.m.peek ⟨.FB_FOLLOW, p.val, 0⟩ &&& Reg.FB_FOLLOW.desc.rwBits) 0 1 0) ∧ s.m.rd F.FB_FOLLOW_EN p.val = 0) ∧
  (∃ (s : State) (p : Fin 12), s.m.Takes ⟨.FB_FOLLOW, p.val, 0⟩ (putBits (s.m.peek ⟨.FB_FOLLOW, p.val, 0⟩ &&& Reg.FB_FOLLOW.desc.rwBits) 0 1 0) ∧ s.m.rd F.FB_FOLLOW_EN p.val = 1 ∧ (s.m.ax 0).mode = .follow ∧ (s.m.ax 0).follow.map (·.port) = some (some p.val)) :=
   ⟨⟨⟨[], (fun mm : Mach => { mm.wr F.FB_SER_RDIV 0 0 with clk.tick := 1 }) ((fun mm : Mach => mm.wr F.FB_CFG_MODE 3 0) ((fun mm : Mach => { mm with ports := vmod mm.ports (0 : Fin 12).val fun x__ => { x__ with reading := false } }) runM))⟩, 0, by decide +kernel⟩,
    ⟨⟨[], (fun mm : Mach => mm.wr F.FB_CFG_MODE 3 0) runM⟩, 0, by decide +kernel⟩,
    ⟨⟨[], (fun mm : Mach => { mm.wr F.FB_SER_RDIV 0 0 with clk.tick := 1 }) ((fun mm : Mach => mm.wr F.FB_CFG_MODE 3 0) ((fun mm : Mach => { mm with ports := vmod mm.ports (0 : Fin 12).val fun x__ => { x__ with reading := true } }) runM))⟩, 0, by decide +kernel⟩,
    ⟨⟨[], (fun mm : Mach => mm.wr F.FB_CFG_MODE 3 0) ((fun mm : Mach => { mm with ports := vmod mm.ports (0 : Fin 12).val fun x__ => { x__ with reading := true } }) runM)⟩, 0, (⟨100000, 0⟩ : FrameWaits), by decide +kernel⟩,
    ⟨⟨[], (fun mm : Mach => mm.wr F.FB_SER_GRAY 0 0) ((fun mm : Mach => mm.wr F.FB_CFG_MODE 3 0) ((fun mm : Mach => mm.wr F.FB_SER_GRAY (b2n (false)) (0 : Fin 12).val) ((fun mm : Mach => { mm with ports := vmod mm.ports (0 : Fin 12).val fun x__ => { x__ with word := none } }) ((fun mm : Mach => { mm with ports := vmod mm.ports (0 : Fin 12).val fun x__ => { x__ with reading := true } }) runM))))⟩, 0, (⟨0, 0⟩ : FrameWaits), by decide +kernel⟩,
    ⟨⟨[], (fun mm : Mach => { mm with kn.phase := if mm.kn.phase == .off || mm.kn.phase == .gasp || mm.kn.phase == .resetLow then .run else mm.kn.phase, kn.done := 0xFFFF }) ((fun mm : Mach => mm.setReg .GL_LOCK 0 0 0) runM)⟩, 0, takes_of (by decide +kernel)⟩,
    ⟨⟨[], (fun mm : Mach => { mm with kn.phase := if mm.kn.phase == .off || mm.kn.phase == .gasp || mm.kn.phase == .resetLow then .run else mm.kn.phase, kn.done := 0xFFFF }) ((fun mm : Mach => mm.setReg .GL_LOCK 0 0 0) runM)⟩, 0, takes_of (by decide +kernel)⟩,
    ⟨⟨[], (fun mm : Mach => { mm with kn.phase := if mm.kn.phase == .off || mm.kn.phase == .gasp || mm.kn.phase == .resetLow then .run else mm.kn.phase, kn.done := 0xFFFF }) ((fun mm : Mach => mm.setReg .GL_LOCK 0 0 0) runM)⟩, 0, takes_of (by decide +kernel)⟩,
    ⟨⟨[], (fun mm : Mach => { mm with kn.phase := if mm.kn.phase == .off || mm.kn.phase == .gasp || mm.kn.phase == .resetLow then .run else mm.kn.phase, kn.done := 0xFFFF }) ((fun mm : Mach => mm.setReg .GL_LOCK 0 0 0) runM)⟩, 0, 0, ⟨takes_of (by decide +kernel), by decide +kernel⟩⟩,
    ⟨⟨[], (fun mm : Mach => mm.modAx 0 fun x => { x with mode := .follow, follow := some { aFollow with sel := 0x1000 } }) ((fun mm : Mach => mm.modAx 0 fun x => { x with mode := .hold }) ((fun mm : Mach => mm.wr F.LA_VER_CFG_EN 1 0) ((fun mm : Mach => { mm with kn.phase := if mm.kn.phase == .off || mm.kn.phase == .gasp || mm.kn.phase == .resetLow then .run else mm.kn.phase, kn.done := 0xFFFF }) ((fun mm : Mach => mm.setReg .GL_LOCK 0 0 0) runM))))⟩, 0, 1, ⟨takes_of (by decide +kernel), by decide +kernel⟩⟩,
    ⟨⟨[], (fun mm : Mach => mm.modAx 0 fun x => { x with mode := .hold }) ((fun mm : Mach => { mm with kn.phase := if mm.kn.phase == .off || mm.kn.phase == .gasp || mm.kn.phase == .resetLow then .run else mm.kn.phase, kn.done := 0xFFFF }) ((fun mm : Mach => mm.setReg .GL_LOCK 0 0 0) runM))⟩, 0, 0, 0, ⟨takes_of (by decide +kernel), by decide +kernel⟩⟩,
    ⟨⟨[], (fun mm : Mach => { mm with kn.phase := if mm.kn.phase == .off || mm.kn.phase == .gasp || mm.kn.phase == .resetLow then .run else mm.kn.phase, kn.done := 0xFFFF }) ((fun mm : Mach => mm.setReg .GL_LOCK 0 0 0) runM)⟩, 0, 48, 0, ⟨takes_of (by decide +kernel), by decide +kernel⟩⟩,
    ⟨⟨[], (fun mm : Mach => mm.wr F.FB_FOLLOW_EN (0) (0 : Fin 12).val) ((fun mm : Mach => { mm with kn.phase := if mm.kn.phase == .off || mm.kn.phase == .gasp || mm.kn.phase == .resetLow then .run else mm.kn.phase, kn.done := 0xFFFF }) ((fun mm : Mach => mm.setReg .GL_LOCK 0 0 0) runM))⟩, 0, ⟨takes_of (by decide +kernel), by decide +kernel⟩⟩,
    ⟨⟨[], (fun mm : Mach => mm.modAx 0 fun x => { x with mode := .follow, follow := some { aFollow with port := some 0 } }) ((fun mm : Mach => { mm with axes := vmod mm.axes 0 fun x__ => { x__ with mode := .follow } }) ((fun mm : Mach => mm.wr F.FB_FOLLOW_EN (1) (0 : Fin 12).val) ((fun mm : Mach => { mm with kn.phase := if mm.kn.phase == .off || mm.kn.phase == .gasp || mm.kn.phase == .resetLow then .run else mm.kn.phase, kn.done := 0xFFFF }) ((fun mm : Mach => mm.setReg .GL_LOCK 0 0 0) runM))))⟩, 0, ⟨takes_of (by decide +kernel), by decide +kernel⟩⟩⟩

/-- The clauses of `Obligations.FrontEndConversionsComplete` can be met. -/
theorem test_front_end_conversions_complete_met :
  (∃ (s : State) (k : Fin 2), (s.m.conv k.val).run = false ∨ (s.m.conv k.val).conn = none) ∧
  (∃ (s : State) (k : Fin 2), ∃ c, (s.m.conv k.val).conn = some c ∧ (s.m.conv k.val).run = true ∧ s.m.chRef c = none ∧ s.m.refOff c = true ∧ (s.m.conv k.val).stop = true) ∧
  (∃ (s : State) (k : Fin 2), ∃ c, (s.m.conv k.val).conn = some c ∧ (s.m.conv k.val).run = true ∧ s.m.chRef c = none ∧ s.m.refOff c = false ∧ s.m.usesEx c 0 = false ∧ s.m.usesEx c 1 = false ∧ s.m.rb F.SF_CH_CFG_BLANK_EN c = false ∧ (s.m.chan c).drop = false ∧ c < 8) ∧
  (∃ (s : State) (k : Fin 2), s.m.Takes ⟨.SF_AUX_CFG, k.val, 0⟩ ((s.m.peek ⟨.SF_AUX_CFG, k.val, 0⟩ &&& Reg.SF_AUX_CFG.desc.rwBits) + 2 ^ 27) ∧ (s.m.conv k.val).run = true ∧ (s.m.conv k.val).conn.isSome = true) ∧
  (∃ (s : State) (k : Fin 2), s.m.Takes ⟨.SF_AUX_CFG, k.val, 0⟩ ((s.m.peek ⟨.SF_AUX_CFG, k.val, 0⟩ &&& Reg.SF_AUX_CFG.desc.rwBits) + 2 ^ 27) ∧ (s.m.conv k.val).run = false ∧ s.m.clk.running = true ∧ s.m.staged = [] ∧ s.m.chConverts (bitsOf (s.m.rd F.SF_SEQ_CH k.val) 0 3) = true) ∧
  (∃ (s : State) (k : Fin 2), s.m.Takes ⟨.SF_AUX_CFG, k.val, 0⟩ ((s.m.peek ⟨.SF_AUX_CFG, k.val, 0⟩ &&& Reg.SF_AUX_CFG.desc.rwBits) + 2 ^ 28) ∧ (s.m.conv k.val).run = true) ∧
  (∃ (s : State) (e : Fin 2), s.m.exOn e.val = true) ∧
  (∃ (s : State) (e : Fin 2), s.m.exOn e.val = false) ∧
  (∃ (s : State) (e : Fin 2) (v : BitVec 32), s.m.Takes ⟨.SF_EX_CFG, e.val, 0⟩ v.toNat ∧ 0x0F < bitsOf v.toNat 3 5) ∧
  (∃ (s : State) (e : Fin 2) (v : BitVec 32), s.m.Takes ⟨.SF_EX_CFG, e.val, 0⟩ v.toNat ∧ bitOf v.toNat 0 = false ∧ bitsOf v.toNat 3 5 ≤ 0x0F ∧ nodeOk (bitsOf v.toNat 8 5) = true ∧ nodeOk (bitsOf v.toNat 13 5) = true) ∧
  (∃ (s : State) (reg : Fin 3) (c : Fin 8) (v : BitVec 32), s.m.Takes ⟨(match reg.val with | 0 => .SF_CH_CFG | 1 => .SF_CH_BIAS | _ => .SF_CH_CURVE), c.val, 0⟩ v.toNat ∧ s.m.chWriteOk (match reg.val with | 0 => .SF_CH_CFG | 1 => .SF_CH_BIAS | _ => .SF_CH_CURVE) c.val (v.toNat &&& (match reg.val with | 0 => Reg.SF_CH_CFG | 1 => .SF_CH_BIAS | _ => .SF_CH_CURVE).desc.rwBits) false = true) ∧
  (∃ (s : State) (reg : Fin 3) (c : Fin 8) (v : BitVec 32), s.m.Takes ⟨(match reg.val with | 0 => .SF_CH_CFG | 1 => .SF_CH_BIAS | _ => .SF_CH_CURVE), c.val, 0⟩ v.toNat ∧ s.m.chWriteOk (match reg.val with | 0 => .SF_CH_CFG | 1 => .SF_CH_BIAS | _ => .SF_CH_CURVE) c.val (v.toNat &&& (match reg.val with | 0 => Reg.SF_CH_CFG | 1 => .SF_CH_BIAS | _ => .SF_CH_CURVE).desc.rwBits) false = false) :=
   ⟨⟨⟨[], runM⟩, 0, by decide +kernel⟩,
    ⟨⟨[], (fun mm : Mach => mm.wr F.SF_CH_CURVE_RSRC 1 2) ((fun mm : Mach => mm.modConv 0 fun x => { x with conn := some 2, run := true, stop := true }) runM)⟩, 0, some_of (by decide +kernel) (by decide +kernel)⟩,
    ⟨⟨[], (fun mm : Mach => mm.wr F.SF_CH_CFG_BLANK_EN 0 2) ((fun mm : Mach => mm.modConv 0 fun x => { x with conn := some 2, run := true }) runM)⟩, 0, some_of (by decide +kernel) (by decide +kernel)⟩,
    ⟨⟨[], (fun mm : Mach => mm.modConv 0 fun x => { x with run := true, conn := some 2 }) ((fun mm : Mach => { mm with kn.phase := if mm.kn.phase == .off || mm.kn.phase == .gasp || mm.kn.phase == .resetLow then .run else mm.kn.phase, kn.done := 0xFFFF }) ((fun mm : Mach => mm.setReg .GL_LOCK 0 0 0) runM))⟩, 0, ⟨takes_of (by decide +kernel), by decide +kernel⟩⟩,
    ⟨⟨[], (fun mm : Mach => mm.wr F.SF_CH_CFG_EN 1 0) ((fun mm : Mach => { mm with staged := [] }) ((fun mm : Mach => { mm with clk.running := true }) ((fun mm : Mach => { mm with kn.phase := if mm.kn.phase == .off || mm.kn.phase == .gasp || mm.kn.phase == .resetLow then .run else mm.kn.phase, kn.done := 0xFFFF }) ((fun mm : Mach => mm.setReg .GL_LOCK 0 0 0) runM))))⟩, 0, ⟨takes_of (by decide +kernel), by decide +kernel⟩⟩,
    ⟨⟨[], (fun mm : Mach => mm.modConv 0 fun x => { x with run := true }) ((fun mm : Mach => { mm with kn.phase := if mm.kn.phase == .off || mm.kn.phase == .gasp || mm.kn.phase == .resetLow then .run else mm.kn.phase, kn.done := 0xFFFF }) ((fun mm : Mach => mm.setReg .GL_LOCK 0 0 0) runM))⟩, 0, ⟨takes_of (by decide +kernel), by decide +kernel⟩⟩,
    ⟨⟨[], (fun mm : Mach => mm.wr F.SF_EX_CFG_EN 1 0) runM⟩, 0, by decide +kernel⟩,
    ⟨⟨[], runM⟩, 0, by decide +kernel⟩,
    ⟨⟨[], (fun mm : Mach => { mm with kn.phase := if mm.kn.phase == .off || mm.kn.phase == .gasp || mm.kn.phase == .resetLow then .run else mm.kn.phase, kn.done := 0xFFFF }) ((fun mm : Mach => mm.setReg .GL_LOCK 0 0 0) runM)⟩, 0, 0x80, ⟨takes_of (by decide +kernel), by decide +kernel⟩⟩,
    ⟨⟨[], (fun mm : Mach => { mm with kn.phase := if mm.kn.phase == .off || mm.kn.phase == .gasp || mm.kn.phase == .resetLow then .run else mm.kn.phase, kn.done := 0xFFFF }) ((fun mm : Mach => mm.setReg .GL_LOCK 0 0 0) runM)⟩, 0, 0, ⟨takes_of (by decide +kernel), by decide +kernel⟩⟩,
    ⟨⟨[], (fun mm : Mach => { mm with kn.phase := if mm.kn.phase == .off || mm.kn.phase == .gasp || mm.kn.phase == .resetLow then .run else mm.kn.phase, kn.done := 0xFFFF }) ((fun mm : Mach => mm.setReg .GL_LOCK 0 0 0) runM)⟩, 0, 0, 0, ⟨takes_of (by decide +kernel), by decide +kernel⟩⟩,
    ⟨⟨[], (fun mm : Mach => { mm with kn.phase := if mm.kn.phase == .off || mm.kn.phase == .gasp || mm.kn.phase == .resetLow then .run else mm.kn.phase, kn.done := 0xFFFF }) ((fun mm : Mach => mm.setReg .GL_LOCK 0 0 0) runM)⟩, 0, 0, 0xFFFFFFFF, ⟨takes_of (by decide +kernel), by decide +kernel⟩⟩⟩

/-- The clauses of `Obligations.FrontEndChecksComplete` can be met. -/
theorem test_front_end_checks_complete_met :
  (∃ (s : State) (hold : Bool) (code : BitVec 12), s.m.Takes ⟨.SF_TDAC, 0, 0⟩ (code.toNat + b2n hold * 2 ^ 12) ∧ hold = true ∧ ((s.m.sf.dacOwner = none ∧ s.m.sf.dacWait = []) ∨ s.m.sf.dacOwner = some 0)) ∧
  (∃ (s : State) (hold : Bool) (code : BitVec 12), s.m.Takes ⟨.SF_TDAC, 0, 0⟩ (code.toNat + b2n hold * 2 ^ 12) ∧ hold = false) ∧
  (∃ (s : State) (c : Fin 8), s.m.Takes ⟨.SF_CHK, 0, 0⟩ (c.val + 8) ∧ s.m.rb F.SF_CHK_BUSY = false) ∧
  (∃ (s : State) (c : Fin 8), s.m.Takes ⟨.SF_CHK, 0, 0⟩ (c.val + 8) ∧ s.m.rb F.SF_CHK_BUSY = true) ∧
  (∃ s : State, ∃ c, s.m.sf.chk = some c ∧ s.m.sf.dacOwner = some 1) ∧
  (∃ (s : State) (c : Fin 8) (navg : BitVec 4), s.m.Takes ⟨.SF_CAL_CMD, 0, 0⟩ (c.val + 8 + navg.toNat * 2 ^ 8) ∧ s.m.sf.cal = none ∧ ¬(1 ≤ s.m.rd F.SF_CH_CURVE_CURVE c.val ∧ s.m.rd F.SF_CH_CURVE_CURVE c.val ≤ 9)) ∧
  (∃ (s : State) (c : Fin 8) (navg : BitVec 4), s.m.Takes ⟨.SF_CAL_CMD, 0, 0⟩ (c.val + 16 + navg.toNat * 2 ^ 8) ∧ s.m.sf.cal = none ∧ ¬(1 ≤ s.m.rd F.SF_CH_CURVE_CURVE c.val ∧ s.m.rd F.SF_CH_CURVE_CURVE c.val ≤ 9)) ∧
  (∃ (s : State) (c : Fin 8) (navg : BitVec 4), s.m.Takes ⟨.SF_CAL_CMD, 0, 0⟩ (c.val + 8 + navg.toNat * 2 ^ 8) ∧ s.m.sf.cal.isSome = true) ∧
  (∃ (s : State) (c : Fin 8) (navg : BitVec 4), s.m.Takes ⟨.SF_CAL_CMD, 0, 0⟩ (c.val + 16 + navg.toNat * 2 ^ 8) ∧ s.m.sf.cal = none ∧ 1 ≤ s.m.rd F.SF_CH_CURVE_CURVE c.val ∧ s.m.rd F.SF_CH_CURVE_CURVE c.val ≤ 9) ∧
  (∃ s : State, s.m.Takes ⟨.SF_CAL_CMD, 0, 0⟩ ((s.m.peek ⟨.SF_CAL_CMD, 0, 0⟩ &&& Reg.SF_CAL_CMD.desc.rwBits) + 24)) ∧
  (∃ s : State, ∃ x, s.m.sf.cal = some x ∧ True) ∧
  (∃ s : State, s.m.regAnswers ⟨.SF_Q_POP, 0, 0⟩ = true) ∧
  (∃ (s : State) (r : Fin 4), ∃ o, vget none s.m.sf.repNext r.val = some o ∧ True) ∧
  (∃ (s : State) (r : Fin 4) (v : BitVec 32), s.m.Takes ⟨.SF_REP_HOST, r.val, 0⟩ v.toNat) :=
   ⟨⟨⟨[], (fun mm : Mach => { mm with sf.dacWait := [] }) ((fun mm : Mach => { mm with sf.dacOwner := none }) ((fun mm : Mach => { mm with kn.phase := if mm.kn.phase == .off || mm.kn.phase == .gasp || mm.kn.phase == .resetLow then .run else mm.kn.phase, kn.done := 0xFFFF }) ((fun mm : Mach => mm.setReg .GL_LOCK 0 0 0) runM)))⟩, true, 0, ⟨takes_of (by decide +kernel), by decide +kernel⟩⟩,
    ⟨⟨[], (fun mm : Mach => { mm with kn.phase := if mm.kn.phase == .off || mm.kn.phase == .gasp || mm.kn.phase == .resetLow then .run else mm.kn.phase, kn.done := 0xFFFF }) ((fun mm : Mach => mm.setReg .GL_LOCK 0 0 0) runM)⟩, false, 0, ⟨takes_of (by decide +kernel), by decide +kernel⟩⟩,
    ⟨⟨[], (fun mm : Mach => mm.wr F.SF_CHK_BUSY (b2n (false))) ((fun mm : Mach => { mm with kn.phase := if mm.kn.phase == .off || mm.kn.phase == .gasp || mm.kn.phase == .resetLow then .run else mm.kn.phase, kn.done := 0xFFFF }) ((fun mm : Mach => mm.setReg .GL_LOCK 0 0 0) runM))⟩, 0, ⟨takes_of (by decide +kernel), by decide +kernel⟩⟩,
    ⟨⟨[], (fun mm : Mach => mm.wr F.SF_CHK_BUSY (b2n (true))) ((fun mm : Mach => { mm with kn.phase := if mm.kn.phase == .off || mm.kn.phase == .gasp || mm.kn.phase == .resetLow then .run else mm.kn.phase, kn.done := 0xFFFF }) ((fun mm : Mach => mm.setReg .GL_LOCK 0 0 0) runM))⟩, 0, ⟨takes_of (by decide +kernel), by decide +kernel⟩⟩,
    ⟨⟨[], (fun mm : Mach => { mm with sf.dacOwner := some 1 }) ((fun mm : Mach => { mm with sf.chk := some (2) }) runM)⟩, some_of (by decide +kernel) (by decide +kernel)⟩,
    ⟨⟨[], (fun mm : Mach => { mm with sf.cal := none }) ((fun mm : Mach => { mm with kn.phase := if mm.kn.phase == .off || mm.kn.phase == .gasp || mm.kn.phase == .resetLow then .run else mm.kn.phase, kn.done := 0xFFFF }) ((fun mm : Mach => mm.setReg .GL_LOCK 0 0 0) runM))⟩, 0, 0, ⟨takes_of (by decide +kernel), by decide +kernel⟩⟩,
    ⟨⟨[], (fun mm : Mach => { mm with sf.cal := none }) ((fun mm : Mach => { mm with kn.phase := if mm.kn.phase == .off || mm.kn.phase == .gasp || mm.kn.phase == .resetLow then .run else mm.kn.phase, kn.done := 0xFFFF }) ((fun mm : Mach => mm.setReg .GL_LOCK 0 0 0) runM))⟩, 0, 0, ⟨takes_of (by decide +kernel), by decide +kernel⟩⟩,
    ⟨⟨[], (fun mm : Mach => { mm with sf := { mm.sf with cal := some aCal } }) ((fun mm : Mach => { mm with kn.phase := if mm.kn.phase == .off || mm.kn.phase == .gasp || mm.kn.phase == .resetLow then .run else mm.kn.phase, kn.done := 0xFFFF }) ((fun mm : Mach => mm.setReg .GL_LOCK 0 0 0) runM))⟩, 0, 0, ⟨takes_of (by decide +kernel), by decide +kernel⟩⟩,
    ⟨⟨[], (fun mm : Mach => mm.wr F.SF_CH_CURVE_CURVE 1 0) ((fun mm : Mach => { mm with sf.cal := none }) ((fun mm : Mach => { mm with kn.phase := if mm.kn.phase == .off || mm.kn.phase == .gasp || mm.kn.phase == .resetLow then .run else mm.kn.phase, kn.done := 0xFFFF }) ((fun mm : Mach => mm.setReg .GL_LOCK 0 0 0) runM)))⟩, 0, 0, ⟨takes_of (by decide +kernel), by decide +kernel⟩⟩,
    ⟨⟨[], (fun mm : Mach => { mm with kn.phase := if mm.kn.phase == .off || mm.kn.phase == .gasp || mm.kn.phase == .resetLow then .run else mm.kn.phase, kn.done := 0xFFFF }) ((fun mm : Mach => mm.setReg .GL_LOCK 0 0 0) runM)⟩, takes_of (by decide +kernel)⟩,
    ⟨⟨[], (fun mm : Mach => { mm with sf.cal := some (aCal) }) runM⟩, some_of (by decide +kernel) (trivial)⟩,
    ⟨⟨[], (fun mm : Mach => { mm with kn.phase := .run }) runM⟩, by decide +kernel⟩,
    ⟨⟨[], (fun mm : Mach => { mm with sf := { mm.sf with repNext := vmod mm.sf.repNext 0 fun _ => some 0 } }) runM⟩, 0, some_of (by decide +kernel) (trivial)⟩,
    ⟨⟨[], (fun mm : Mach => { mm with kn.phase := if mm.kn.phase == .off || mm.kn.phase == .gasp || mm.kn.phase == .resetLow then .run else mm.kn.phase, kn.done := 0xFFFF }) ((fun mm : Mach => mm.setReg .GL_LOCK 0 0 0) runM)⟩, 0, 0, takes_of (by decide +kernel)⟩⟩

/-- The clauses of `Obligations.UnitFaultEventsComplete` can be met. -/
theorem test_unit_fault_events_complete_met :
  (∃ (s : State) (u : BitVec 8) (mech : BitVec 4), s.m.checkFires u.toNat mech.toNat = true ∧ s.m.clk.running = true ∧ s.m.unitRetired u.toNat = false ∧ s.m.isStandby u.toNat = false ∧ s.m.hasSpare u.toNat = true) ∧
  (∃ (s : State) (u : BitVec 8) (mech : BitVec 4), s.m.checkFires u.toNat mech.toNat = true ∧ s.m.clk.running = true ∧ s.m.unitRetired u.toNat = false ∧ s.m.isStandby u.toNat = true) ∧
  (∃ (s : State) (u : BitVec 8) (mech : BitVec 4), s.m.checkFires u.toNat mech.toNat = true ∧ s.m.clk.running = true ∧ s.m.unitRetired u.toNat = false ∧ s.m.isStandby u.toNat = false ∧ s.m.hasSpare u.toNat = false) ∧
  (∃ (s : State) (u : BitVec 8) (mech : BitVec 4), s.m.clk.running = false ∨ s.m.unitRetired u.toNat = true ∨ s.m.checkFires u.toNat mech.toNat = false) ∧
  (∃ (s : State) (u : BitVec 8), ∃ e, ((match unitKind u.toNat with | .engine e => some e | _ => none)) = some e ∧ unitKind u.toNat = .engine e ∧ s.m.rb F.FM_CFG_AUDIT_E = true ∧ s.m.erFree = true ∧ s.m.dbgHalt = false) ∧
  (∃ (s : State) (u : BitVec 8), ∃ e, ((match unitKind u.toNat with | .engine e => some e | _ => none)) = some e ∧ unitKind u.toNat = .engine e ∧ s.m.rb F.FM_CFG_AUDIT_E = false) ∧
  (∃ (s : State) (u : BitVec 8), ∃ x, ((s.m.fm.tkos.find? fun y => y.unit == u.toNat)) = some x ∧ True) ∧
  (∃ s : State, s.m.clk.running = true ∧ s.m.unitRetired 0x48 = false ∧ s.m.rcFree = true) ∧
  (∃ (s : State) (u : BitVec 8), ∃ d, ((match unitKind u.toNat with | .pll e => some e | _ => none)) = some d ∧ s.m.clk.running = true ∧ unitKind u.toNat = .pll d ∧ s.m.unitRetired u.toNat = false ∧ s.m.splFree = true) ∧
  (∃ (s : State) (asserted : Bool), s.m.dead = false ∧ s.m.faultLow = false ∧ s.m.fm.line = false ∧ asserted = true) ∧
  (∃ (s : State) (asserted : Bool), s.m.dead = false ∧ s.m.faultLow = false ∧ asserted = false) ∧
  (∃ (s : State) (w : BitVec 32), s.m.Takes ⟨.FM_INJECT, 0, 0⟩ w.toNat ∧ bitsOf w.toNat 8 8 = 0xA5 ∧ s.m.rb F.FM_CFG_INJ_EN = true ∧ s.m.clk.running = true ∧ s.m.unitRetired (bitsOf w.toNat 0 8) = false ∧ s.m.isStandby (bitsOf w.toNat 0 8) = false ∧ s.m.hasSpare (bitsOf w.toNat 0 8) = true) ∧
  (∃ (s : State) (w : BitVec 32), s.m.Takes ⟨.FM_INJECT, 0, 0⟩ w.toNat ∧ ¬(bitsOf w.toNat 8 8 = 0xA5 ∧ s.m.rb F.FM_CFG_INJ_EN = true)) :=
   ⟨⟨⟨[], (fun mm : Mach => { mm with clk.running := true }) runM⟩, 0x20, 1, by decide +kernel⟩,
    ⟨⟨[], (fun mm : Mach => { mm with clk.running := true }) runM⟩, 0x28, 1, by decide +kernel⟩,
    ⟨⟨[], (fun mm : Mach => mm.wr F.FM_STATUS_ER_FOR 3) ((fun mm : Mach => { mm with clk.running := true }) runM)⟩, 0x20, 1, by decide +kernel⟩,
    ⟨⟨[], (fun mm : Mach => { mm with clk.running := false }) runM⟩, 0, 0, by decide +kernel⟩,
    ⟨⟨[], (fun mm : Mach => { mm with dbgHalt := false }) ((fun mm : Mach => mm.wr F.FM_CFG_AUDIT_E (b2n (true))) runM)⟩, 0x20, some_of (by decide +kernel) (by decide +kernel)⟩,
    ⟨⟨[], (fun mm : Mach => mm.wr F.FM_CFG_AUDIT_E (b2n (false))) runM⟩, 0x20, some_of (by decide +kernel) (by decide +kernel)⟩,
    ⟨⟨[], (fun mm : Mach => { mm with fm := { mm.fm with tkos := [aTko 0x20] } }) runM⟩, 0x20, some_of (by decide +kernel) (trivial)⟩,
    ⟨⟨[], (fun mm : Mach => { mm with clk.running := true }) runM⟩, by decide +kernel⟩,
    ⟨⟨[], (fun mm : Mach => { mm with clk.running := true }) runM⟩, 0x40, some_of (by decide +kernel) (by decide +kernel)⟩,
    ⟨⟨[], (fun mm : Mach => { mm with fm.line := false }) runM⟩, true, by decide +kernel⟩,
    ⟨⟨[], runM⟩, false, by decide +kernel⟩,
    ⟨⟨[], (fun mm : Mach => { mm with clk.running := true }) ((fun mm : Mach => mm.wr F.FM_CFG_INJ_EN (b2n (true))) ((fun mm : Mach => { mm with kn.phase := if mm.kn.phase == .off || mm.kn.phase == .gasp || mm.kn.phase == .resetLow then .run else mm.kn.phase, kn.done := 0xFFFF }) ((fun mm : Mach => mm.setReg .GL_LOCK 0 0 0) runM)))⟩, 0xA520, ⟨takes_of (by decide +kernel), by decide +kernel⟩⟩,
    ⟨⟨[], (fun mm : Mach => { mm with kn.phase := if mm.kn.phase == .off || mm.kn.phase == .gasp || mm.kn.phase == .resetLow then .run else mm.kn.phase, kn.done := 0xFFFF }) ((fun mm : Mach => mm.setReg .GL_LOCK 0 0 0) runM)⟩, 0, ⟨takes_of (by decide +kernel), by decide +kernel⟩⟩⟩

end Sys2Proof.Tests
end

