-- ==== Sys2Proof/Tests/Completion4.lean ====
section
/-!
SUPPORT. For each statement on how commands complete: a state and operands that meet the hypotheses of each of its clauses.
-/

open Sys2Proof Sys2Proof.Machine Sys2Proof.Tests

namespace Sys2Proof.Tests

-- One proof at a time: the kernel decides each, and waits for those before it.
set_option Elab.async false

/-- The clauses of `Obligations.MemoryCheckAndHeatEventsComplete` can be met. -/
theorem test_memory_check_and_heat_events_complete_met :
  (∃ (dram : Bool), dram = true) ∧
  (∃ (dram : Bool), dram = false) ∧
  (∃ (loc : EccLoc) (addr : BitVec 40), loc = .dram ∧ addr.toNat < 0x04000000) ∧
  (∃ (loc : EccLoc), loc = .other) ∧
  (∃ (s : State) (off : BitVec 32), ∃ x, s.m.nv.inUse = some x ∧ s.m.badWord off.toNat = true ∧ off.toNat / 16 * 16 < x.2.2) ∧
  (∃ (s : State) (dram : Bool), dram = true ∧ s.m.rd F.FM_CFG_SCRUB_H ≠ 0) ∧
  (∃ (s : State) (dram : Bool), dram = false ∨ s.m.rd F.FM_CFG_SCRUB_H = 0) ∧
  (∃ (s : State) (n : Fin 48), 100 ≤ (s.m.hax n.val).jRun ∧ (s.m.ax n.val).mode = .hold) ∧
  (∃ (s : State) (n : Fin 48), (s.m.hax n.val).jRun < 100 ∧ (s.m.hax n.val).wRun < 1000) :=
   ⟨⟨true, by decide +kernel⟩,
    ⟨false, by decide +kernel⟩,
    ⟨(.dram : EccLoc), 0, by decide +kernel⟩,
    ⟨(.other : EccLoc), by decide +kernel⟩,
    ⟨⟨[], (fun mm : Mach => { mm with nv.inUse := some (0, 0x200000, 0x1000) }) ((fun mm : Mach => { mm with fm := { mm.fm with badWords := [(0, 0)] } }) ((fun mm : Mach => { mm with nv.inUse := some ((0, 0x200000, 0x1000)) }) runM))⟩, 0, some_of (by decide +kernel) (by decide +kernel)⟩,
    ⟨⟨[], runM⟩, true, by decide +kernel⟩,
    ⟨⟨[], runM⟩, false, by decide +kernel⟩,
    ⟨⟨[], (fun mm : Mach => mm.modHax 0 fun x => { x with jRun := 100 }) ((fun mm : Mach => { mm with axes := vmod mm.axes (0 : Fin 48).val fun x__ => { x__ with mode := .hold } }) runM)⟩, 0, by decide +kernel⟩,
    ⟨⟨[], runM⟩, 0, by decide +kernel⟩⟩

/-- The clauses of `Obligations.PatinaCompletes` can be met. -/
theorem test_patina_completes_met :
  (∃ s : State, s.m.clk.running = true ∧ s.m.patDue = true ∧ s.m.rb F.PT_CFG_EN = true ∧ s.m.kn.phase = .run) ∧
  (∃ s : State, s.m.clk.running = false ∨ s.m.patDue = false) ∧
  (∃ s : State, s.m.regAnswers ⟨.PT_CTRL, 0, 0⟩ = true ∧ s.m.rb F.PT_CFG_EN = true ∧ s.m.kn.phase = .run) ∧
  (∃ s : State, s.m.Takes ⟨.PT_CTRL, 0, 0⟩ 2) ∧
  (∃ s : State, s.m.clk.running = true) ∧
  (∃ s : State, s.m.clk.running = false) ∧
  (∃ (s : State) (ok : Bool), ∃ r, s.m.pt.staged.head? = some r ∧ ∃ rest, some (s.m.pt.staged.drop 1) = some rest ∧ s.m.pt.staged = r :: rest ∧ (ok = false ∨ s.m.nv.lost = true)) ∧
  (∃ (s : State) (ok : Bool), ∃ r, s.m.pt.staged.head? = some r ∧ ∃ rest, some (s.m.pt.staged.drop 1) = some rest ∧ s.m.pt.staged = r :: rest ∧ ok = true ∧ s.m.nv.lost = false ∧ s.m.patNewest = none) ∧
  (∃ s : State, s.m.pt.staged = []) :=
   ⟨⟨⟨[], (fun mm : Mach => { mm with kn.phase := .run }) ((fun mm : Mach => mm.wr F.PT_CFG_EN (b2n (true))) ((fun mm : Mach => { mm with clk.running := true }) runM))⟩, by decide +kernel⟩,
    ⟨⟨[], (fun mm : Mach => { mm with clk.running := false }) runM⟩, by decide +kernel⟩,
    ⟨⟨[], (fun mm : Mach => { mm with kn.phase := .run }) ((fun mm : Mach => mm.wr F.PT_CFG_EN (b2n (true))) ((fun mm : Mach => { mm with kn.phase := .run }) runM))⟩, by decide +kernel⟩,
    ⟨⟨[], (fun mm : Mach => { mm with kn.phase := if mm.kn.phase == .off || mm.kn.phase == .gasp || mm.kn.phase == .resetLow then .run else mm.kn.phase, kn.done := 0xFFFF }) ((fun mm : Mach => mm.setReg .GL_LOCK 0 0 0) runM)⟩, takes_of (by decide +kernel)⟩,
    ⟨⟨[], (fun mm : Mach => { mm with clk.running := true }) runM⟩, by decide +kernel⟩,
    ⟨⟨[], (fun mm : Mach => { mm with clk.running := false }) runM⟩, by decide +kernel⟩,
    ⟨⟨[], (fun mm : Mach => { mm with pt := { mm.pt with staged := [[]] } }) runM⟩, false, some_of (by decide +kernel) (some_of (by decide +kernel) (by decide +kernel))⟩,
    ⟨⟨[], (fun mm : Mach => { mm with pt := { mm.pt with staged := [[]] } }) ((fun mm : Mach => { mm with nv.lost := false }) runM)⟩, true, some_of (by decide +kernel) (some_of (by decide +kernel) (by decide +kernel))⟩,
    ⟨⟨[], (fun mm : Mach => { mm with pt.staged := [] }) runM⟩, by decide +kernel⟩⟩

/-- The clauses of `Obligations.StrataEventsComplete` can be met. -/
theorem test_strata_events_complete_met :
  (∃ s : State, s.m.st.fired = 0) ∧
  (∃ s : State, ∃ i, ((List.range 16).find? fun i => !s.m.layerUsed i) = some i ∧ s.m.st.fired ≠ 0 ∧ s.m.st.cap = none ∧ s.m.stAccepts = true) ∧
  (∃ s : State, s.m.st.fired ≠ 0 ∧ s.m.st.cap = none ∧ s.m.stAccepts = false) ∧
  (∃ s : State, ∃ p, s.m.st.cap = some p ∧ s.m.st.fired ≠ 0) ∧
  (∃ s : State, ∃ p, s.m.st.cap = some p ∧ p.whole = true) ∧
  (∃ s : State, (s.m.st.cap.map (·.whole)) ≠ some true) ∧
  (∃ s : State, s.m.Takes ⟨.ST_CTRL, 0, 0⟩ 1 ∧ bitOf (s.m.rd F.ST_TRIG_CFG_VALUE) 0 = true) ∧
  (∃ s : State, s.m.Takes ⟨.ST_CTRL, 0, 0⟩ 1 ∧ bitOf (s.m.rd F.ST_TRIG_CFG_VALUE) 0 = false) ∧
  (∃ s : State, s.m.Takes ⟨.ST_CTRL, 0, 0⟩ 2) ∧
  (∃ s : State, s.m.Takes ⟨.ST_CTRL, 0, 0⟩ 4) :=
   ⟨⟨⟨[], (fun mm : Mach => { mm with st.fired := 0 }) runM⟩, by decide +kernel⟩,
    ⟨⟨[], (fun mm : Mach => { mm with st := { mm.st with fired := 1, on := true, armed := true } }) ((fun mm : Mach => { mm with st.cap := none }) runM)⟩, some_of (by decide +kernel) (by decide +kernel)⟩,
    ⟨⟨[], (fun mm : Mach => { mm with st := { mm.st with fired := 1 } }) ((fun mm : Mach => { mm with st.cap := none }) runM)⟩, by decide +kernel⟩,
    ⟨⟨[], (fun mm : Mach => { mm with st := { mm.st with fired := 1 } }) ((fun mm : Mach => { mm with st.cap := some (aCap) }) runM)⟩, some_of (by decide +kernel) (by decide +kernel)⟩,
    ⟨⟨[], (fun mm : Mach => { mm with st.cap := (mm.st.cap).map fun y__ => { y__ with whole := true } }) ((fun mm : Mach => { mm with st.cap := some (aCap) }) runM)⟩, some_of (by decide +kernel) (by decide +kernel)⟩,
    ⟨⟨[], runM⟩, by decide +kernel⟩,
    ⟨⟨[], (fun mm : Mach => mm.wr F.ST_TRIG_CFG_VALUE 1) ((fun mm : Mach => { mm with kn.phase := if mm.kn.phase == .off || mm.kn.phase == .gasp || mm.kn.phase == .resetLow then .run else mm.kn.phase, kn.done := 0xFFFF }) ((fun mm : Mach => mm.setReg .GL_LOCK 0 0 0) runM))⟩, ⟨takes_of (by decide +kernel), by decide +kernel⟩⟩,
    ⟨⟨[], (fun mm : Mach => { mm with kn.phase := if mm.kn.phase == .off || mm.kn.phase == .gasp || mm.kn.phase == .resetLow then .run else mm.kn.phase, kn.done := 0xFFFF }) ((fun mm : Mach => mm.setReg .GL_LOCK 0 0 0) runM)⟩, ⟨takes_of (by decide +kernel), by decide +kernel⟩⟩,
    ⟨⟨[], (fun mm : Mach => { mm with kn.phase := if mm.kn.phase == .off || mm.kn.phase == .gasp || mm.kn.phase == .resetLow then .run else mm.kn.phase, kn.done := 0xFFFF }) ((fun mm : Mach => mm.setReg .GL_LOCK 0 0 0) runM)⟩, takes_of (by decide +kernel)⟩,
    ⟨⟨[], (fun mm : Mach => { mm with kn.phase := if mm.kn.phase == .off || mm.kn.phase == .gasp || mm.kn.phase == .resetLow then .run else mm.kn.phase, kn.done := 0xFFFF }) ((fun mm : Mach => mm.setReg .GL_LOCK 0 0 0) runM)⟩, takes_of (by decide +kernel)⟩⟩

/-- The clauses of `Obligations.StrataRegistersComplete` can be met. -/
theorem test_strata_registers_complete_met :
  (∃ (s : State) (layer : Fin 16), s.m.Takes ⟨.ST_CTRL, 0, 0⟩ (8 + layer.val * 2 ^ 8)) ∧
  (∃ s : State, s.m.Takes ⟨.ST_CTRL, 0, 0⟩ 16) ∧
  (∃ (s : State) (en : Bool), s.m.Takes ⟨.ST_CFG, 0, 0⟩ (putBits (s.m.peek ⟨.ST_CFG, 0, 0⟩ &&& Reg.ST_CFG.desc.rwBits) 0 1 (b2n en)) ∧ en = true ∧ s.m.rb F.ST_CFG_EN = false ∧ s.m.st.on = false) ∧
  (∃ (s : State) (en : Bool), s.m.Takes ⟨.ST_CFG, 0, 0⟩ (putBits (s.m.peek ⟨.ST_CFG, 0, 0⟩ &&& Reg.ST_CFG.desc.rwBits) 0 1 (b2n en)) ∧ en = false ∧ s.m.rb F.ST_CFG_EN = true) ∧
  (∃ (s : State) (v : BitVec 4), s.m.Takes ⟨.ST_REGION, 0, 0⟩ v.toNat ∧ s.m.rb F.ST_CFG_EN = false ∧ s.m.allOff = true) ∧
  (∃ (s : State) (v : BitVec 4), s.m.Takes ⟨.ST_REGION, 0, 0⟩ v.toNat ∧ (s.m.rb F.ST_CFG_EN = true ∨ s.m.allOff = false)) ∧
  (∃ (s : State) (k : Fin 5) (w : Word), s.m.Takes ⟨.ST_SEL, k.val, 0⟩ w.toNat ∧ s.m.stSelOk k.val w.toNat = true) ∧
  (∃ (s : State) (k : Fin 5) (w : Word), s.m.Takes ⟨.ST_SEL, k.val, 0⟩ w.toNat ∧ s.m.stSelOk k.val w.toNat = false) :=
   ⟨⟨⟨[], (fun mm : Mach => { mm with kn.phase := if mm.kn.phase == .off || mm.kn.phase == .gasp || mm.kn.phase == .resetLow then .run else mm.kn.phase, kn.done := 0xFFFF }) ((fun mm : Mach => mm.setReg .GL_LOCK 0 0 0) runM)⟩, 0, takes_of (by decide +kernel)⟩,
    ⟨⟨[], (fun mm : Mach => { mm with kn.phase := if mm.kn.phase == .off || mm.kn.phase == .gasp || mm.kn.phase == .resetLow then .run else mm.kn.phase, kn.done := 0xFFFF }) ((fun mm : Mach => mm.setReg .GL_LOCK 0 0 0) runM)⟩, takes_of (by decide +kernel)⟩,
    ⟨⟨[], (fun mm : Mach => { mm with st.on := false }) ((fun mm : Mach => mm.wr F.ST_CFG_EN (b2n (false))) ((fun mm : Mach => { mm with kn.phase := if mm.kn.phase == .off || mm.kn.phase == .gasp || mm.kn.phase == .resetLow then .run else mm.kn.phase, kn.done := 0xFFFF }) ((fun mm : Mach => mm.setReg .GL_LOCK 0 0 0) runM)))⟩, true, ⟨takes_of (by decide +kernel), by decide +kernel⟩⟩,
    ⟨⟨[], (fun mm : Mach => mm.wr F.ST_CFG_EN (b2n (true))) ((fun mm : Mach => { mm with kn.phase := if mm.kn.phase == .off || mm.kn.phase == .gasp || mm.kn.phase == .resetLow then .run else mm.kn.phase, kn.done := 0xFFFF }) ((fun mm : Mach => mm.setReg .GL_LOCK 0 0 0) runM))⟩, false, ⟨takes_of (by decide +kernel), by decide +kernel⟩⟩,
    ⟨⟨[], (fun mm : Mach => mm.wr F.ST_CFG_EN (b2n (false))) ((fun mm : Mach => { mm with kn.phase := if mm.kn.phase == .off || mm.kn.phase == .gasp || mm.kn.phase == .resetLow then .run else mm.kn.phase, kn.done := 0xFFFF }) ((fun mm : Mach => mm.setReg .GL_LOCK 0 0 0) runM))⟩, 0, ⟨takes_of (by decide +kernel), by decide +kernel⟩⟩,
    ⟨⟨[], (fun mm : Mach => mm.wr F.ST_CFG_EN (b2n (true))) ((fun mm : Mach => { mm with kn.phase := if mm.kn.phase == .off || mm.kn.phase == .gasp || mm.kn.phase == .resetLow then .run else mm.kn.phase, kn.done := 0xFFFF }) ((fun mm : Mach => mm.setReg .GL_LOCK 0 0 0) runM))⟩, 0, ⟨takes_of (by decide +kernel), by decide +kernel⟩⟩,
    ⟨⟨[], (fun mm : Mach => { mm with kn.phase := if mm.kn.phase == .off || mm.kn.phase == .gasp || mm.kn.phase == .resetLow then .run else mm.kn.phase, kn.done := 0xFFFF }) ((fun mm : Mach => mm.setReg .GL_LOCK 0 0 0) runM)⟩, 0, 0, ⟨takes_of (by decide +kernel), by decide +kernel⟩⟩,
    ⟨⟨[], (fun mm : Mach => [0, 1, 2, 3].foldl (fun x b => x.setReg .PW_PERIOD b 0 2000) mm) ((fun mm : Mach => { mm with kn.phase := if mm.kn.phase == .off || mm.kn.phase == .gasp || mm.kn.phase == .resetLow then .run else mm.kn.phase, kn.done := 0xFFFF }) ((fun mm : Mach => mm.setReg .GL_LOCK 0 0 0) runM))⟩, 2, (BitVec.ofNat 128 (2 ^ 48 - 1) : Word), ⟨takes_of (by decide +kernel), by decide +kernel⟩⟩⟩

/-- The clauses of `Obligations.HostFramesComplete` can be met. -/
theorem test_host_frames_complete_met :
  (∃ s : State, s.m.NoAbort ∧ s.m.hp.want = none ∧ (s.m.hp.gen = 1 ∨ s.m.hp.gen = 2 ∨ s.m.hp.gen = 3)) ∧
  (∃ s : State, s.m.NoAbort ∧ s.m.hp.want = none ∧ s.m.hp.gen = 3) ∧
  (∃ s : State, s.m.NoAbort ∧ s.m.hp.want = none ∧ s.m.hp.gen = 0) ∧
  (∃ (s : State) (req : Word), ∃ k, ((slotAddr (bitsOf req.toNat 32 7) (s.m.rd F.GL_AXSEL_AXIS)).bind fun a => (regAt a).map (·.1)) = some k ∧ s.m.NoAbort ∧ s.m.hp.want = none ∧ s.m.hp.gen = 1 ∧ s.m.regAnswers k = true ∧ k.r.desc.wide = false ∧ s.m.live k = [] ∧ k.r ≠ .HP_CFG ∧ k.r ≠ .GL_IDATA) ∧
  (∃ (s : State) (req : Word), ∃ k, (regAt (bitsOf req.toNat 0 40)).map (·.1) = some k ∧ s.m.NoAbort ∧ s.m.hp.want = none ∧ s.m.hp.gen = 3 ∧ bitOf req.toNat 121 = false ∧ bitsOf req.toNat 112 8 = 0 ∧ bitsOf req.toNat 0 40 < 2 ^ 32 ∧ bitsOf req.toNat 0 40 % 4 = 0 ∧ bitsOf req.toNat 0 40 < 0x01000000 ∧ s.m.regAnswers k = true ∧ k.r.desc.wide = false ∧ s.m.live k = [] ∧ k.r ≠ .HP_CFG) ∧
  (∃ (s : State) (req : Word), s.m.NoAbort ∧ s.m.hp.want = none ∧ s.m.hp.gen = 3 ∧ bitOf req.toNat 121 = false ∧ bitsOf req.toNat 112 8 = 0 ∧ bitsOf req.toNat 0 40 < 0x01000000 ∧ bitsOf req.toNat 0 40 % 4 = 0 ∧ regAt (bitsOf req.toNat 0 40) = none) ∧
  (∃ (s : State) (req : Word) (data : List Word), ∃ d, data.head? = some d ∧ s.m.NoAbort ∧ s.m.hp.want = none ∧ s.m.hp.gen = 3 ∧ bitOf req.toNat 121 = false ∧ bitsOf req.toNat 112 8 = 0 ∧ bitsOf req.toNat 0 40 = 0x0C ∧ s.m.Takes ⟨.GL_AXSEL, 0, 0⟩ (d.toNat % 2 ^ 32)) ∧
  (∃ (s : State) (req : Word), s.m.NoAbort ∧ s.m.hp.want = none ∧ s.m.hp.gen = 3 ∧ s.m.rb F.HP_CFG_BCAST_EN = true ∧ (bitsOf req.toNat 124 4 = 0 ∨ bitsOf req.toNat 124 4 = 1)) ∧
  (∃ (s : State) (req : Word) (data : List Word), ∃ d, data.head? = some d ∧ s.m.NoAbort ∧ s.m.hp.want = none ∧ s.m.hp.gen = 3 ∧ s.m.rb F.HP_CFG_BCAST_EN = true ∧ bitsOf req.toNat 124 4 = 2 ∧ bitOf req.toNat 121 = false ∧ bitsOf req.toNat 112 8 = 0 ∧ bitsOf req.toNat 0 40 = 0x0C ∧ s.m.Takes ⟨.GL_AXSEL, 0, 0⟩ (d.toNat % 2 ^ 32)) ∧
  (∃ s : State, s.m.NoAbort ∧ s.m.hp.want = none ∧ (s.m.hp.gen = 1 ∨ s.m.hp.gen = 2) ∧ s.m.rb F.HP_CFG_BCAST_EN = false) :=
   ⟨⟨⟨[], (fun mm : Mach => { mm with hp.gen := 1 }) ((fun mm : Mach => { mm with hp.want := none }) runM)⟩, ⟨noAbort_of (by decide +kernel), by decide +kernel⟩⟩,
    ⟨⟨[], (fun mm : Mach => { mm with hp.gen := 3 }) ((fun mm : Mach => { mm with hp.want := none }) runM)⟩, ⟨noAbort_of (by decide +kernel), by decide +kernel⟩⟩,
    ⟨⟨[], (fun mm : Mach => { mm with hp.gen := 0 }) ((fun mm : Mach => { mm with hp.want := none }) runM)⟩, ⟨noAbort_of (by decide +kernel), by decide +kernel⟩⟩,
    ⟨⟨[], (fun mm : Mach => { mm with hp := { mm.hp with gen := 1 } }) ((fun mm : Mach => { mm with kn.phase := .run }) ((fun mm : Mach => { mm with hp.gen := 1 }) ((fun mm : Mach => { mm with hp.want := none }) runM)))⟩, (BitVec.ofNat 128 (124 * 2 ^ 32) : Word), some_of (by decide +kernel) ⟨noAbort_of (by decide +kernel), by decide +kernel⟩⟩,
    ⟨⟨[], (fun mm : Mach => { mm with kn.phase := .run }) ((fun mm : Mach => { mm with hp.gen := 3 }) ((fun mm : Mach => { mm with hp.want := none }) runM))⟩, 0, some_of (by decide +kernel) ⟨noAbort_of (by decide +kernel), by decide +kernel⟩⟩,
    ⟨⟨[], (fun mm : Mach => { mm with hp.gen := 3 }) ((fun mm : Mach => { mm with hp.want := none }) runM)⟩, (BitVec.ofNat 128 (2 * 2 ^ 124 + 0xFFF0) : Word), ⟨noAbort_of (by decide +kernel), by decide +kernel⟩⟩,
    ⟨⟨[], (fun mm : Mach => { mm with kn.phase := if mm.kn.phase == .off || mm.kn.phase == .gasp || mm.kn.phase == .resetLow then .run else mm.kn.phase, kn.done := 0xFFFF }) ((fun mm : Mach => mm.setReg .GL_LOCK 0 0 0) ((fun mm : Mach => { mm with hp.gen := 3 }) ((fun mm : Mach => { mm with hp.want := none }) runM)))⟩, (BitVec.ofNat 128 (2 * 2 ^ 124 + 0x0C) : Word), ([0] : List Word), some_of (by decide +kernel) ⟨noAbort_of (by decide +kernel), by decide +kernel, by decide +kernel, by decide +kernel, by decide +kernel, by decide +kernel, takes_of (by decide +kernel)⟩⟩,
    ⟨⟨[], (fun mm : Mach => mm.wr F.HP_CFG_BCAST_EN (b2n (true))) ((fun mm : Mach => { mm with hp.gen := 3 }) ((fun mm : Mach => { mm with hp.want := none }) runM))⟩, 0, ⟨noAbort_of (by decide +kernel), by decide +kernel⟩⟩,
    ⟨⟨[], (fun mm : Mach => { mm with kn.phase := if mm.kn.phase == .off || mm.kn.phase == .gasp || mm.kn.phase == .resetLow then .run else mm.kn.phase, kn.done := 0xFFFF }) ((fun mm : Mach => mm.setReg .GL_LOCK 0 0 0) ((fun mm : Mach => mm.wr F.HP_CFG_BCAST_EN (b2n (true))) ((fun mm : Mach => { mm with hp.gen := 3 }) ((fun mm : Mach => { mm with hp.want := none }) runM))))⟩, (BitVec.ofNat 128 (2 * 2 ^ 124 + 0x0C) : Word), ([0] : List Word), some_of (by decide +kernel) ⟨noAbort_of (by decide +kernel), by decide +kernel, by decide +kernel, by decide +kernel, by decide +kernel, by decide +kernel, by decide +kernel, by decide +kernel, takes_of (by decide +kernel)⟩⟩,
    ⟨⟨[], (fun mm : Mach => mm.wr F.HP_CFG_BCAST_EN (b2n (false))) ((fun mm : Mach => { mm with hp.gen := 1 }) ((fun mm : Mach => { mm with hp.want := none }) runM))⟩, ⟨noAbort_of (by decide +kernel), by decide +kernel⟩⟩⟩

/-- The clauses of `Obligations.HostLinkEventsComplete` can be met. -/
theorem test_host_link_events_complete_met :
  (∃ (s : State) (cause : Fin 6) (bcast : Bool), s.m.hp.want = none ∧ s.m.hp.gen ≠ 0 ∧ (bcast = false ∨ cause.val = 3 ∨ s.m.rb F.HP_CFG_BCAST_EN = true)) ∧
  (∃ (s : State) (cause : Fin 6) (bcast : Bool), s.m.hp.want = none ∧ (s.m.hp.gen = 0 ∨ (bcast = true ∧ cause.val ≠ 3 ∧ s.m.rb F.HP_CFG_BCAST_EN = false))) ∧
  (∃ (s : State) (bcast : Bool), s.m.hp.want = none ∧ s.m.hp.gen ≠ 0 ∧ (bcast = false ∨ s.m.rb F.HP_CFG_BCAST_EN = true)) ∧
  (∃ s : State, s.m.hp.want = none ∧ s.m.hp.gen ≠ 0) ∧
  (∃ s : State, ∃ g, s.m.hp.want = some g ∧ s.m.hp.gen ≠ 0) ∧
  (∃ s : State, s.m.hp.want = none) ∧
  (∃ s : State, s.m.Takes ⟨.HP_CTRL, 0, 0⟩ 1) :=
   ⟨⟨⟨[], (fun mm : Mach => { mm with hp := { mm.hp with gen := 1 } }) ((fun mm : Mach => { mm with hp.want := none }) runM)⟩, 0, false, by decide +kernel⟩,
    ⟨⟨[], (fun mm : Mach => { mm with hp.gen := 0 }) ((fun mm : Mach => { mm with hp.want := none }) runM)⟩, 0, false, by decide +kernel⟩,
    ⟨⟨[], (fun mm : Mach => { mm with hp := { mm.hp with gen := 1 } }) ((fun mm : Mach => { mm with hp.want := none }) runM)⟩, false, by decide +kernel⟩,
    ⟨⟨[], (fun mm : Mach => { mm with hp := { mm.hp with gen := 1 } }) ((fun mm : Mach => { mm with hp.want := none }) runM)⟩, by decide +kernel⟩,
    ⟨⟨[], (fun mm : Mach => { mm with hp := { mm.hp with gen := 1 } }) ((fun mm : Mach => { mm with hp.want := some (2) }) runM)⟩, some_of (by decide +kernel) (by decide +kernel)⟩,
    ⟨⟨[], (fun mm : Mach => { mm with hp.want := none }) runM⟩, by decide +kernel⟩,
    ⟨⟨[], (fun mm : Mach => { mm with kn.phase := if mm.kn.phase == .off || mm.kn.phase == .gasp || mm.kn.phase == .resetLow then .run else mm.kn.phase, kn.done := 0xFFFF }) ((fun mm : Mach => mm.setReg .GL_LOCK 0 0 0) runM)⟩, takes_of (by decide +kernel)⟩⟩

/-- The clauses of `Obligations.AddressedWritesComplete` can be met. -/
theorem test_addressed_writes_complete_met :
  (∃ (s : State) (a : BitVec 24), ∃ k, ((regAt (a.toNat / 4 * 4)).bind fun x => if x.2 = 0 then some x.1 else none) = some k ∧ s.m.NoAbort ∧ s.m.regAnswers k = true ∧ k.r = .Q_IRQ_EN ∧ s.m.lockBits = 0) ∧
  (∃ (s : State) (a : BitVec 24) (w : Word), ∃ k, ((regAt (a.toNat / 4 * 4)).bind fun x => if x.2 = 0 then some x.1 else none) = some k ∧ s.m.NoAbort ∧ s.m.Takes k w.toNat ∧ k.r = .Q_IRQ_EN) ∧
  (∃ (s : State) (a : BitVec 24), s.m.NoAbort ∧ regAt (a.toNat / 4 * 4) = none) ∧
  (∃ (s : State) (slot : BitVec 7), s.m.NoAbort ∧ slot = 124 ∧ s.m.regAnswers ⟨.GL_AXSEL, 0, 0⟩ = true) ∧
  (∃ (s : State) (slot : BitVec 7) (axis : BitVec 8), s.m.NoAbort ∧ s.m.hp.clrDue = false ∧ slot.toNat < 96 ∧ 48 ≤ axis.toNat ∧ axis.toNat < 64) ∧
  (∃ (s : State) (hi : Bool) (w : BitVec 32), s.m.Takes (if hi then ⟨.GL_IADDR_HI, 0, 0⟩ else ⟨.GL_IADDR, 0, 0⟩) w.toNat) ∧
  (∃ s : State, s.m.NoAbort ∧ s.m.regAnswers ⟨.GL_IDATA, 0, 0⟩ = true ∧ s.m.rb F.GL_ISTAT_BUSY = true) ∧
  (∃ s : State, s.m.NoAbort ∧ s.m.regAnswers ⟨.GL_IDATA, 0, 0⟩ = true ∧ s.m.rb F.GL_ISTAT_BUSY = false ∧ s.m.hp.preStat = 0) ∧
  (∃ (s : State) (w : BitVec 32), s.m.NoAbort ∧ s.m.regAnswers ⟨.GL_IDATA, 0, 0⟩ = true ∧ s.m.rb F.GL_ISTAT_BUSY = false ∧ s.m.iaddr = 0x0C ∧ s.m.Takes ⟨.GL_AXSEL, 0, 0⟩ w.toNat) ∧
  (∃ s : State, s.m.rb F.GL_ISTAT_BUSY = true) ∧
  (∃ s : State, s.m.rb F.GL_ISTAT_BUSY = false) ∧
  (∃ s : State, s.m.regAnswers ⟨.GL_LOCK, 0, 0⟩ = true) :=
   ⟨⟨⟨[], (fun mm : Mach => mm.setReg .GL_LOCK 0 0 0) ((fun mm : Mach => { mm with kn.phase := .run }) runM)⟩, (BitVec.ofNat 24 (RegKey.addr ⟨.Q_IRQ_EN, 0, 0⟩) : BitVec 24), some_of (by decide +kernel) ⟨noAbort_of (by decide +kernel), by decide +kernel⟩⟩,
    ⟨⟨[], runM⟩, (BitVec.ofNat 24 (RegKey.addr ⟨.Q_IRQ_EN, 0, 0⟩) : BitVec 24), 0, some_of (by decide +kernel) ⟨noAbort_of (by decide +kernel), takes_of (by decide +kernel), by decide +kernel⟩⟩,
    ⟨⟨[], runM⟩, 0xFFF0, ⟨noAbort_of (by decide +kernel), by decide +kernel⟩⟩,
    ⟨⟨[], (fun mm : Mach => { mm with kn.phase := .run }) runM⟩, 124, ⟨noAbort_of (by decide +kernel), by decide +kernel⟩⟩,
    ⟨⟨[], (fun mm : Mach => { mm with hp.clrDue := false }) runM⟩, 0, 48, ⟨noAbort_of (by decide +kernel), by decide +kernel⟩⟩,
    ⟨⟨[], (fun mm : Mach => { mm with kn.phase := if mm.kn.phase == .off || mm.kn.phase == .gasp || mm.kn.phase == .resetLow then .run else mm.kn.phase, kn.done := 0xFFFF }) ((fun mm : Mach => mm.setReg .GL_LOCK 0 0 0) runM)⟩, false, 0, takes_of (by decide +kernel)⟩,
    ⟨⟨[], (fun mm : Mach => mm.wr F.GL_ISTAT_BUSY (b2n (true))) ((fun mm : Mach => { mm with kn.phase := .run }) runM)⟩, ⟨noAbort_of (by decide +kernel), by decide +kernel⟩⟩,
    ⟨⟨[], (fun mm : Mach => { mm with hp.preStat := 0 }) ((fun mm : Mach => mm.wr F.GL_ISTAT_BUSY (b2n (false))) ((fun mm : Mach => { mm with kn.phase := .run }) runM))⟩, ⟨noAbort_of (by decide +kernel), by decide +kernel⟩⟩,
    ⟨⟨[], (fun mm : Mach => mm.setReg .GL_IADDR 0 0 0x0C) ((fun mm : Mach => { mm with kn.phase := if mm.kn.phase == .off || mm.kn.phase == .gasp || mm.kn.phase == .resetLow then .run else mm.kn.phase, kn.done := 0xFFFF }) ((fun mm : Mach => mm.setReg .GL_LOCK 0 0 0) ((fun mm : Mach => mm.wr F.GL_ISTAT_BUSY (b2n (false))) ((fun mm : Mach => { mm with kn.phase := .run }) runM))))⟩, 0, ⟨noAbort_of (by decide +kernel), by decide +kernel, by decide +kernel, by decide +kernel, takes_of (by decide +kernel)⟩⟩,
    ⟨⟨[], (fun mm : Mach => mm.wr F.GL_ISTAT_BUSY (b2n (true))) runM⟩, by decide +kernel⟩,
    ⟨⟨[], (fun mm : Mach => mm.wr F.GL_ISTAT_BUSY (b2n (false))) runM⟩, by decide +kernel⟩,
    ⟨⟨[], (fun mm : Mach => { mm with kn.phase := .run }) runM⟩, by decide +kernel⟩⟩

/-- The clauses of `Obligations.WideWordAccessesComplete` can be met. -/
theorem test_wide_word_accesses_complete_met :
  (∃ (s : State) (a : BitVec 40), ∃ k, ((regAt (a.toNat / 4 * 4)).bind fun x => if x.2 = 0 then some x.1 else none) = some k ∧ s.m.NoAbort ∧ a.toNat % 4 = 0 ∧ a.toNat < 0x01000000 ∧ s.m.regAnswers k = true ∧ k.r.desc.wide = true ∧ s.m.live k = []) ∧
  (∃ (s : State) (a : BitVec 40), ∃ x, regAt a.toNat = some x ∧ ∃ h, s.m.hp.hold = some h ∧ s.m.NoAbort ∧ a.toNat % 4 = 0 ∧ a.toNat < 0x01000000 ∧ s.m.regAnswers x.1 = true ∧ x.1.r.desc.wide = true ∧ x.2 ≠ 0 ∧ h.1 = a.toNat - 4 * x.2) ∧
  (∃ (s : State) (a : BitVec 40), ∃ x, regAt a.toNat = some x ∧ s.m.NoAbort ∧ a.toNat % 4 = 0 ∧ a.toNat < 0x01000000 ∧ s.m.regAnswers x.1 = true ∧ x.1.r.desc.wide = true ∧ x.2 ≠ 0 ∧ s.m.hp.hold = none) ∧
  (∃ (s : State) (a : BitVec 40), ∃ x, regAt a.toNat = some x ∧ s.m.NoAbort ∧ a.toNat % 4 = 0 ∧ a.toNat < 0x01000000 ∧ s.m.regAnswers x.1 = true ∧ x.1.r.desc.wide = true ∧ x.2 ≠ 0 ∧ s.m.hp.stage = none) ∧
  (∃ (s : State) (a : BitVec 40), ∃ x, regAt a.toNat = some x ∧ s.m.NoAbort ∧ a.toNat % 4 = 0 ∧ a.toNat < 0x01000000 ∧ s.m.regAnswers x.1 = true ∧ x.1.r = .AX_RETGT ∧ x.2 = 0 ∧ s.m.hp.stage = none) ∧
  (∃ (s : State) (a : BitVec 40), ∃ x, regAt a.toNat = some x ∧ ∃ g, s.m.hp.stage = some g ∧ s.m.NoAbort ∧ a.toNat % 4 = 0 ∧ a.toNat < 0x01000000 ∧ s.m.regAnswers x.1 = true ∧ x.1.r = .AX_RETGT ∧ x.2 = 0 ∧ g.1 = a.toNat ∧ g.2.1 = 14) :=
   ⟨⟨⟨[], (fun mm : Mach => { mm with kn.phase := .run }) runM⟩, (BitVec.ofNat 40 (RegKey.addr ⟨.AX_RETGT, 0, 0⟩) : BitVec 40), some_of (by decide +kernel) ⟨noAbort_of (by decide +kernel), by decide +kernel⟩⟩,
    ⟨⟨[], (fun mm : Mach => { mm with hp := { mm.hp with hold := some (RegKey.addr ⟨.AX_RETGT, 0, 0⟩, 0) } }) ((fun mm : Mach => { mm with kn.phase := .run }) ((fun mm : Mach => { mm with hp.hold := some ((0, 0)) }) runM))⟩, (BitVec.ofNat 40 (RegKey.addr ⟨.AX_RETGT, 0, 0⟩ + 4) : BitVec 40), some_of (by decide +kernel) (some_of (by decide +kernel) ⟨noAbort_of (by decide +kernel), by decide +kernel⟩)⟩,
    ⟨⟨[], (fun mm : Mach => { mm with hp.hold := none }) ((fun mm : Mach => { mm with kn.phase := .run }) runM)⟩, (BitVec.ofNat 40 (RegKey.addr ⟨.AX_RETGT, 0, 0⟩ + 4) : BitVec 40), some_of (by decide +kernel) ⟨noAbort_of (by decide +kernel), by decide +kernel⟩⟩,
    ⟨⟨[], (fun mm : Mach => { mm with hp.stage := none }) ((fun mm : Mach => { mm with kn.phase := .run }) runM)⟩, (BitVec.ofNat 40 (RegKey.addr ⟨.AX_RETGT, 0, 0⟩ + 4) : BitVec 40), some_of (by decide +kernel) ⟨noAbort_of (by decide +kernel), by decide +kernel⟩⟩,
    ⟨⟨[], (fun mm : Mach => { mm with hp.stage := none }) ((fun mm : Mach => { mm with kn.phase := .run }) runM)⟩, (BitVec.ofNat 40 (RegKey.addr ⟨.AX_RETGT, 0, 0⟩) : BitVec 40), some_of (by decide +kernel) ⟨noAbort_of (by decide +kernel), by decide +kernel⟩⟩,
    ⟨⟨[], (fun mm : Mach => { mm with hp.stage := (mm.hp.stage).map fun y__ => { y__ with 2.1 := 14 } }) ((fun mm : Mach => { mm with hp.stage := (mm.hp.stage).map fun y__ => { y__ with 1 := (BitVec.ofNat 40 (RegKey.addr ⟨.AX_RETGT, 0, 0⟩) : BitVec 40).toNat } }) ((fun mm : Mach => { mm with kn.phase := .run }) ((fun mm : Mach => { mm with hp.stage := some ((0, 0, 0)) }) runM)))⟩, (BitVec.ofNat 40 (RegKey.addr ⟨.AX_RETGT, 0, 0⟩) : BitVec 40), some_of (by decide +kernel) (some_of (by decide +kernel) ⟨noAbort_of (by decide +kernel), by decide +kernel⟩)⟩⟩

/-- The clauses of `Obligations.BoundaryScanCompletes` can be met. -/
theorem test_boundary_scan_completes_met :
  (∃ s : State, s.m.tapLive = true ∧ (∀ g : Fin 16, (s.m.arm g).members = [])) ∧
  (∃ s : State, s.m.tapLive = false) ∧
  (∃ (s : State) (trst : Bool), s.m.tapLive = true ∧ trst = true) ∧
  (∃ (s : State) (trst : Bool), s.m.tapLive = true ∧ trst = false ∧ s.m.tap.st = .shiftDr) ∧
  (∃ (s : State) (trst : Bool), s.m.tapLive = true ∧ trst = false ∧ s.m.tap.st = .captureDr ∧ s.m.tap.ir = 2) ∧
  (∃ (s : State) (trst : Bool), s.m.tapLive = true ∧ trst = false ∧ s.m.tap.st = .shiftIr) ∧
  (∃ (s : State) (trst : Bool) (tms : Bool), s.m.tapLive = true ∧ trst = false ∧ s.m.tap.st = .exit1Ir ∧ tms = true ∧ s.m.tap.irShift % 16 = 0) :=
   ⟨⟨⟨[], runM⟩, by decide +kernel⟩,
    ⟨⟨[], (fun mm : Mach => { mm with kn.phase := .off }) runM⟩, by decide +kernel⟩,
    ⟨⟨[], runM⟩, true, by decide +kernel⟩,
    ⟨⟨[], (fun mm : Mach => { mm with tap.st := .shiftDr }) runM⟩, false, by decide +kernel⟩,
    ⟨⟨[], (fun mm : Mach => { mm with tap.ir := 2 }) ((fun mm : Mach => { mm with tap.st := .captureDr }) runM)⟩, false, by decide +kernel⟩,
    ⟨⟨[], (fun mm : Mach => { mm with tap.st := .shiftIr }) runM⟩, false, by decide +kernel⟩,
    ⟨⟨[], (fun mm : Mach => { mm with tap := { mm.tap with irShift := 0 } }) ((fun mm : Mach => { mm with tap.st := .exit1Ir }) runM)⟩, false, true, by decide +kernel⟩⟩

/-- The clauses of `Obligations.OtherChannelsKeepTheirState` can be met. -/
theorem test_other_channels_keep_their_state_met :
  (∃ s : State, s.m.NoAbort) ∧
  (∃ (s : State) (n : Fin 48), s.m.groupOf n.val = none ∧ (∀ k : Fin 48, ((s.m.ax k).follow.all fun f => f.sel != n.val) = true)) :=
   ⟨⟨⟨[], runM⟩, noAbort_of (by decide +kernel)⟩,
    ⟨⟨[], runM⟩, 0, by decide +kernel⟩⟩

end Sys2Proof.Tests
end

