-- ==== Sys2Proof/WellFormed.lean ====
section
/-!
DEFINITION. Well-formed commands: the lists among a command's operands have the lengths the rules give them. The widths and the
index ranges of all other operands are in their types. A meaning reads a missing entry of a list as zero and ignores a surplus
one, so it is defined on every command.
-/

namespace Sys2Proof

/-- What a start meets: four supplies, 20 slices, 48 axes with gate delays and motors, 16 step durations (R17, R73, R84). -/
def StartMeas.wf (w : StartMeas) : Bool :=
  w.vms.length == 4 && w.slices.length == 20 && w.delays.length == 48 && w.motors.length == 48 && w.durs.length == 16

/-- The window of a patina pass covers the 48 axes (R439). -/
def PatinaWin.wf (w : PatinaWin) : Bool := w.axes.length == 48

/-- R463, R468: a frame has no data words, or as many as its LEN field says. -/
def frameWf (req : Word) (data : List Word) : Bool :=
  data.isEmpty || data.length == bitsOf req.toNat 112 8 + 1

/-- The command is well-formed; a shadow block has 4,096 pairs (R314). -/
def Instr.wf : Instr → Bool
  | .kilnStart w => w.wf
  | .patinaPass w => w.wf
  | .passNow w => w.wf
  | .hpWrite req data => frameWf req data
  | .broadcastFrame req data => frameWf req data
  | .shadowBlockEnd _ _ pairs => pairs.length == 4096
  | _ => true

end Sys2Proof
end

