-- ==== Sys2Proof/Tests/Slice0.lean ====
section
/-!
SUPPORT. Tests: each check of well-formedness refuses an ill-formed command; values the spec works out; and for each statement
with hypotheses that is not about completion, a state and operands that meet them.
-/

namespace Sys2Proof.Tests

-- One proof at a time: the kernel decides each, and waits for those before it.
set_option Elab.async false

open Sys2Proof Sys2Proof.Machine

/-! ### Well-formedness -/

/-- What the characterisation measures on a coil. -/
def aCoil : CoilMeas := { iEnd := 0, trip2 := false, v := 0, i2 := 0, di := 0 }

/-- The measurements of a start with lists of the right lengths. -/
def fullStart : StartMeas :=
  { aStart with
    vms := List.replicate 4 0
    slices := List.replicate 20 (0, 0, 0)
    delays := List.replicate 48 0
    motors := List.replicate 48 { a := aCoil, b := aCoil, ls := [] }
    durs := List.replicate 16 0 }

/-- A patina window over the 48 axes. -/
def fullWin : PatinaWin :=
  { aWin with axes := List.replicate 48 { dly := none } }

theorem test_start_well_formed : (Instr.kilnStart fullStart).wf = true := by decide
theorem test_start_three_supplies : (Instr.kilnStart { fullStart with vms := List.replicate 3 0 }).wf = false := by decide
theorem test_start_no_slices : (Instr.kilnStart { fullStart with slices := [] }).wf = false := by decide
theorem test_start_no_delays : (Instr.kilnStart { fullStart with delays := [] }).wf = false := by decide
theorem test_start_no_motors : (Instr.kilnStart { fullStart with motors := [] }).wf = false := by decide
theorem test_start_no_durations : (Instr.kilnStart { fullStart with durs := [] }).wf = false := by decide
theorem test_pass_well_formed : (Instr.patinaPass fullWin).wf = true ∧ (Instr.passNow fullWin).wf = true := by decide
theorem test_pass_no_axes : (Instr.patinaPass aWin).wf = false ∧ (Instr.passNow aWin).wf = false := by decide
/-- A frame with LEN 0 carries one data word (R468). -/
theorem test_frame_well_formed : (Instr.hpWrite 0 [7]).wf = true ∧ (Instr.broadcastFrame 0 []).wf = true := by decide
theorem test_frame_surplus_data : (Instr.hpWrite 0 [7, 7]).wf = false ∧ (Instr.broadcastFrame 0 [7, 7]).wf = false := by decide
theorem test_shadow_block_empty : (Instr.shadowBlockEnd 0 0 []).wf = false := by decide
theorem test_shadow_block_full : (Instr.shadowBlockEnd 0 0 (List.replicate 4096 (0, 0, 0))).wf = true := by
  simp only [Instr.wf, List.length_replicate, beq_self_eq_true]

/-! ### Values the spec works out -/

/-- 05_motion_profiles.md, the capping-station example: AX_PROF[0] of A18 is at 0x0001_4840. -/
theorem test_ax_prof_address : Reg.AX_PROF.addr 18 0 = 0x00014840 := by decide
/-- 16_host_port.md, the example: AX_STATE of A13 is at 0x0001_3400. -/
theorem test_ax_state_address : regAt 0x00013400 = some (⟨.AX_STATE, 13, 0⟩, 0) := by decide +kernel
/-- 05_motion_profiles.md, the capping-station example: the profile slot as one word. -/
theorem test_ax_prof_fields :
    (let w := 0x00000000002710000027100007D00000
     bitsOf w F.AX_PROF_VMAX.lo F.AX_PROF_VMAX.width = 256000 * 512 ∧ bitsOf w F.AX_PROF_ACC.lo F.AX_PROF_ACC.width = 2560000 ∧
       bitsOf w F.AX_PROF_DEC.lo F.AX_PROF_DEC.width = 2560000) := by decide
/-- R496: GL_ID reads part 0x4860, revision 2. -/
theorem test_gl_id : runM.peek ⟨.GL_ID, 0, 0⟩ = 0x48600002 := by decide +kernel
/-- R117: the number after 0xFFFF_FFFE is zero. -/
theorem test_next_sequence : nextSeqOf 0xFFFFFFFE = 0 ∧ nextSeqOf 5 = 6 := by decide
/-- 14_fault_masking_heat.md, the cold-plate example: CAP 120 is 60 W at 45 °C. -/
theorem test_cap_below_knee : (runM.wr F.HL_CFG_CAP 120).capEff 45 = 60 := by decide +kernel
/-- R17: A18 belongs to bank B1 and to the engine E3. -/
theorem test_bank_of_a18 : bankOf 18 = 1 ∧ 18 / 6 = 3 := by decide

/-! ### The hypotheses of the statements -/

/-- The module in RUN is sound. -/
theorem test_run_sound : runS.Sound := by
  refine ⟨⟨by decide, by decide, by decide, ⟨fun _ _ h => h, fun _ h => h, fun h => h⟩, ?_⟩⟩
  exact ⟨⟨by decide, by decide, by decide, by decide⟩, ⟨by decide, by decide, by decide, by decide⟩⟩

/-- For `StepKeepsStores` and `ProgrammedKeysStay`: a sound state with a command waiting, and its next state. -/
theorem test_step_met : ∃ s t : State, s.Sound ∧ s.pending ≠ [] ∧ step s = .next t :=
  ⟨{ runS with pending := [.vholdCharged] }, _, test_run_sound, by decide, rfl⟩

/-- For `ProgrammedKeysStay`: a key command in RUN with every axis OFF and one with an axis in HOLD, and likewise for the others. -/
theorem test_keys_met :
    (∃ (s : State) (slot : Fin 4), s.m.Takes ⟨.NV_KEY_CMD, 0, 0⟩ (slot.val + 4 + 0xA5 * 2 ^ 8) ∧
      ¬(s.m.kn.phase = .hold ∨ (s.m.kn.phase = .run ∧ s.m.allOff = true))) ∧
    (∃ (s : State) (slot : Fin 4), s.m.Takes ⟨.NV_KEY_CMD, 0, 0⟩ (slot.val + 8 + 0xA5 * 2 ^ 8) ∧
      ¬(s.m.kn.phase = .hold ∨ (s.m.kn.phase = .run ∧ s.m.allOff = true))) ∧
    (∃ s : State, s.m.Takes ⟨.NV_KEY_CMD, 0, 0⟩ (12 + 0xA5 * 2 ^ 8) ∧
      ¬(s.m.kn.phase = .hold ∨ (s.m.kn.phase = .run ∧ s.m.allOff = true))) ∧
    (∃ (s : State) (slot : Fin 4), s.m.Takes ⟨.NV_KEY_CMD, 0, 0⟩ (slot.val + 4 + 0xA5 * 2 ^ 8) ∧
      (s.m.kn.phase = .hold ∨ (s.m.kn.phase = .run ∧ s.m.allOff = true)) ∧ vget none s.m.otp.hashes slot.val = none) ∧
    (∃ (s : State) (slot : Fin 4), s.m.Takes ⟨.NV_KEY_CMD, 0, 0⟩ (slot.val + 8 + 0xA5 * 2 ^ 8) ∧
      (s.m.kn.phase = .hold ∨ (s.m.kn.phase = .run ∧ s.m.allOff = true))) ∧
    (∃ s : State, s.m.Takes ⟨.NV_KEY_CMD, 0, 0⟩ (12 + 0xA5 * 2 ^ 8) ∧
      (s.m.kn.phase = .hold ∨ (s.m.kn.phase = .run ∧ s.m.allOff = true))) :=
  ⟨⟨⟨[], runM.modAx 47 fun a => { a with mode := .hold }⟩, 3, takes_of (by decide +kernel), by decide +kernel⟩,
    ⟨⟨[], runM.modAx 47 fun a => { a with mode := .hold }⟩, 3, takes_of (by decide +kernel), by decide +kernel⟩,
    ⟨⟨[], runM.modAx 47 fun a => { a with mode := .hold }⟩, takes_of (by decide +kernel), by decide +kernel⟩,
    ⟨runS, 3, takes_of (by decide +kernel), by decide +kernel, by decide +kernel⟩,
    ⟨runS, 3, takes_of (by decide +kernel), by decide +kernel⟩, ⟨runS, takes_of (by decide +kernel), by decide +kernel⟩⟩

/-- For `RegisterAddressesDecode`: the last word of the last register of a wide array, and a narrow register. -/
theorem test_addresses_met :
    (∃ (r : Reg) (i j w : Nat), r.desc.wide = true ∧ i + 1 = r.desc.n1 ∧ j + 1 = r.desc.n2 ∧ w = 3 ∧
      w < (if r.desc.wide then 4 else 1)) ∧
    (∃ (r : Reg) (i j w : Nat), r.desc.wide = false ∧ i < r.desc.n1 ∧ j < r.desc.n2 ∧ w < (if r.desc.wide then 4 else 1)) :=
  ⟨⟨.AX_PROF, 47, 7, 3, by decide, by decide, by decide, rfl, by decide⟩, ⟨.GL_ID, 0, 0, 0, by decide, by decide, by decide, by decide⟩⟩

/-- For `ForcedCoastEndsWithItsAxes`: a command after which a bank is off. -/
theorem test_forced_coast_met : ∃ (c : Instr) (s t : State) (b : Nat), exec c s = .next t ∧ b < 4 ∧ t.m.bankOff b = true :=
  ⟨.vholdCharged, { runS with m := runM.modBank 3 fun x => { x with ovForce := true } }, _, 3, rfl, by decide, by decide +kernel⟩

/-- For `EmptyQueueIdles`: a state with no command waiting. -/
theorem test_idle_met : ∃ s : State, s.pending = [] := ⟨runS, rfl⟩

/-- For `EffectiveHeatCap`: the knee itself, a temperature above it, and 150 °C. -/
theorem test_heat_cap_met :
    (∃ (m : Mach) (t : Rat), 1 ≤ m.rd F.HL_CFG_CAP ∧ m.rd F.HL_CFG_CAP ≤ 220 ∧ m.rd F.HL_CFG_KNEE ≤ 100 ∧ t ≤ (m.rd F.HL_CFG_KNEE : Rat)) ∧
    (∃ (m : Mach) (t : Rat), 1 ≤ m.rd F.HL_CFG_CAP ∧ m.rd F.HL_CFG_CAP ≤ 220 ∧ m.rd F.HL_CFG_KNEE ≤ 100 ∧
      (m.rd F.HL_CFG_KNEE : Rat) < t ∧ t < 150) ∧
    (∃ (m : Mach) (t : Rat), 1 ≤ m.rd F.HL_CFG_CAP ∧ m.rd F.HL_CFG_CAP ≤ 220 ∧ m.rd F.HL_CFG_KNEE ≤ 100 ∧ 150 ≤ t) :=
  ⟨⟨runM, 50, by decide +kernel⟩, ⟨runM, 51, by decide +kernel⟩, ⟨runM, 150, by decide +kernel⟩⟩

/-- For the statements on what a command leaves unchanged: from a sound state every command answers a next state. -/
theorem test_frames_met (c : Instr) : ∃ s t : State, s.Sound ∧ exec c s = .next t :=
  ⟨runS, (match exec c runS with | .next t => t | _ => runS), test_run_sound, by cases c <;> rfl⟩

end Sys2Proof.Tests
end

section
/-!
PROOFS. The statements of 01_architecture.md on the events of axes, marks and coils. Both are refuted, each on a state whose
stored data are sound: O20 by an untested axis that KN_MCEN leaves out of the tests, O21 by a coil in strong mode whose target
lies above the limit of its bank's peak-current comparator.
-/

namespace Sys2Proof.Machine

/-- What a command completes with holds of the state it answers, since `exec` answers one state. -/
theorem Completes.of_exec {c : Instr} {s t : State} {P : Mach → Prop} (h : Completes c s P) (ht : exec c s = .next t) : P t.m := by
  obtain ⟨t', ht', -, hP⟩ := h
  obtain rfl : t' = t := by simpa [ht'] using ht
  exact hP

/-! ### The end of ARMING for an axis that is not tested -/

@[simp] theorem Mach.retire_axes (m : Mach) (c : MotionCmd) (st at_ : Nat) : (m.retire c st at_).axes = m.axes := by
  unfold Mach.retire
  split <;> rfl

@[simp] theorem Mach.retireAll_axes (m : Mach) (cs : List MotionCmd) (st at_ : Nat) : (m.retireAll cs st at_).axes = m.axes := by
  unfold Mach.retireAll
  induction cs generalizing m with
  | nil => rfl
  | cons c cs ih => rw [List.foldl_cons, ih, Mach.retire_axes]

@[simp] theorem Mach.setUntested_axes (m : Mach) (n : Nat) (on : Bool) : (m.setUntested n on).axes = m.axes := by
  unfold Mach.setUntested
  split <;> rfl

@[simp] theorem Mach.verCapture_axes (m : Mach) (n : Nat) : (m.verCapture n).axes = m.axes := by
  unfold Mach.verCapture
  split
  · split <;> rfl
  · rfl

/-- Two modules with the same axes agree on each axis. -/
theorem Mach.ax_congr {a b : Mach} (h : a.axes = b.axes) (n : Nat) : a.ax n = b.ax n := by
  rw [Mach.ax, Mach.ax, h]

/-- The end of its ENABLE commands leaves the state of an axis as it is. -/
theorem Mach.endEnable_mode (m : Mach) {n : Nat} (hn : n < 48) (st at_ : Nat) : ((m.endEnable n st at_).ax n).mode = (m.ax n).mode := by
  unfold Mach.endEnable
  rw [Mach.ax_modAx_same _ _ hn, Mach.ax_congr (Mach.retireAll_axes m _ st at_)]

/-- R133: an axis in ARMING whose ramp completes is in HOLD. -/
theorem Mach.armingHold_mode (m : Mach) {n : Nat} (hn : n < 48) (ha : (m.ax n).mode = .arming) : ((m.armingHold n).ax n).mode = .hold := by
  unfold Mach.armingHold
  rw [Mach.ax_congr (Mach.post_axes _ _ _ _), Mach.ax_congr (Mach.verCapture_axes _ _), Mach.endEnable_mode _ hn,
    Mach.ax_modAx_same _ _ hn, Mach.ax_congr (Mach.setUntested_axes _ _ _)]
  simp [Axis.setEff, ha]

/-- R83, R97: an axis that KN_MCEN excludes enters HOLD without a test, whatever its tests would find. -/
theorem Mach.armingDone_excluded (m : Mach) {n : Nat} (ok : Bool) (w : MotorMeas) (ha : (m.ax n).mode = .arming)
    (hx : m.characterised n = false) : m.armingDone n ok w = m.armingHold n := by
  unfold Mach.armingDone
  rw [if_neg (by simp [Axis.eff, ha])]
  simp [hx]

/-- ARMING_COMPLETE takes an axis that KN_MCEN excludes to HOLD. -/
theorem armingComplete_excluded_holds (s : State) (n : Fin 48) (found : ArmingTest) (ha : (s.m.ax n.val).mode = .arming)
    (hx : s.m.characterised n.val = false) : Completes (.armingComplete n found) s fun t => (t.ax n.val).mode = .hold := by
  refine ⟨_, rfl, rfl, ?_⟩
  show (((s.m.begin_.armingDone n.val found.bridgeOk found.motor).settle s.m.begin_).ax n.val).mode = .hold
  have hx' : s.m.begin_.characterised n.val = false := hx
  have ha' : (s.m.begin_.ax n.val).mode = .arming := ha
  rw [Mach.ax_settle, Mach.armingDone_excluded _ _ _ ha' hx']
  exact Mach.armingHold_mode _ n.isLt ha'

/-- A module in RUN: axis 0 is marked untested and in ARMING, and KN_MCEN excludes it. -/
def excludedAxis : State :=
  { pending := []
    m := ((({ Mach.reset with clk.running := true, kn.phase := .run } : Mach).setReg .KN_UNTESTED_LO 0 0 1).setReg
      .KN_MCEN_LO 0 0 0xFFFFFFFE).modAx 0 fun a => { a with mode := .arming } }

/-- The tests of an axis that would all fail. -/
def failedTest : ArmingTest :=
  { bridgeOk := false, motor := { a := ⟨0, false, 0, 0, 0⟩, b := ⟨0, false, 0, 0, 0⟩, ls := [] } }

/-- A module whose memories and rings are empty is sound once its registers are in canonical form. -/
theorem sound_of_regsWf {s : State} (hd : s.m.dram = []) (hf : s.m.flash = []) (ho : s.m.rings = .reset)
    (hr : regsWf s.m.regs = true) : s.Sound := by
  refine ⟨⟨by rw [hd]; rfl, by rw [hf]; rfl, hr, Otp.Keeps.refl _, ?_⟩⟩
  rw [ho]
  exact ⟨by simp [ringFits, Rings.reset], by simp [ringFits, Rings.reset]⟩

/-- The untested axis that KN_MCEN excludes meets what the clause on a failed test asks, in a sound state. -/
theorem excludedAxis_meets : excludedAxis.Sound ∧ (excludedAxis.m.ax 0).mode = .arming ∧ excludedAxis.m.untested 0 = true ∧
    excludedAxis.m.characterised 0 = false :=
  ⟨sound_of_regsWf rfl rfl rfl (by decide +kernel), by decide +kernel, by decide +kernel, by decide +kernel⟩

/-- Refutes O20: its clause on a failed test lets ARMING_COMPLETE end in OFF for every untested axis whose bridge self-test would fail;
an axis that KN_MCEN excludes is not tested (R83, R97) and enters HOLD. -/
theorem not_axisSlotEventsComplete : ¬ Obligations.AxisSlotEventsComplete := by
  unfold Obligations.AxisSlotEventsComplete
  rintro ⟨-, -, -, -, -, -, failedTestLeavesOff, -⟩
  obtain ⟨-, hArming, hUntested, hExcluded⟩ := excludedAxis_meets
  obtain ⟨t, ht, -, hOff, -⟩ := failedTestLeavesOff excludedAxis 0 failedTest ⟨hArming, hUntested, .inl rfl⟩
  have hHold : (t.m.ax 0).mode = .hold := (armingComplete_excluded_holds _ 0 failedTest hArming hExcluded).of_exec ht
  exact absurd (hOff.symm.trans hHold) (by decide)

/-! ### The threshold of a coil in strong mode -/

/-- A module in RUN: axis 0 is in HOLD with a target of 1 A in strong mode, and PW_ILIM limits its bank to 1/16 A. -/
def limitedCoil : State :=
  { pending := []
    m := (({ Mach.reset with clk.running := true, kn.phase := .run } : Mach).setReg .PW_ILIM 0 0 0x100100).modAx 0 fun a =>
      { a with mode := .hold, curReq := { ibase := 0x1000, level := 0, strong := true } } }

/-- A computation at the boundary itself. -/
def atBoundary : CoilAt := { tph := 0, drop := 0 }

/-- The limited coil meets what the clause on an energised coil asks, in a sound state, and its comparator's limit is 1/16 A. -/
theorem limitedCoil_meets : limitedCoil.Sound ∧ limitedCoil.m.repeating 0 = false ∧ limitedCoil.m.regDown 0 = false ∧
    limitedCoil.m.gasp = false ∧ limitedCoil.m.regOn 0 = true ∧ limitedCoil.m.ilim 0 = 0x100 :=
  ⟨sound_of_regsWf rfl rfl rfl (by decide +kernel), by decide +kernel, by decide +kernel, by decide +kernel, by decide +kernel,
    by decide +kernel⟩

/-- COIL_COMPUTE computes a coil whose running period coasts, and does no more to it. -/
theorem coil_after_coilCompute {s t : State} {k : Fin 96} {at_ : CoilAt} (ht : exec (.coilCompute k at_) s = .next t)
    (hr : s.m.repeating k.val = false) (hd : s.m.regDown (k.val / 24) = false) (hg : s.m.gasp = false)
    (hc : (s.m.coil k.val).active = .coast) :
    t.m.coil k.val = (s.m.begin_.coilCompute k.val at_.tph.toNat).coil k.val := by
  have hr' : s.m.begin_.repeating k.val = false := hr
  have hd' : s.m.begin_.regDown (k.val / 24) = false := hd
  simp only [exec, execCoilCompute, State.run, Mach.begin__gasp, hr', hd', hg, Bool.or_false, Bool.false_eq_true, if_false] at ht
  obtain rfl := Host.Outcome.next.inj ht
  rw [Mach.coil_settle, show (s.m.begin_.coil k.val).active = .coast from hc]

/-- R24, R278: the next period's compare values of the limited coil hold the whole target, which the limit bounds only when that
period starts. -/
theorem limitedCoil_computed {t : State} (ht : exec (.coilCompute 0 atBoundary) limitedCoil = .next t) :
    (t.m.coil 0).shadow = .strong false 0xFFF 1250 ∧ (t.m.coil 0).shTag.tgt = 0xFFF := by
  obtain ⟨-, hr, hd, hg, -, -⟩ := limitedCoil_meets
  have hCoil : t.m.coil 0 = (limitedCoil.m.begin_.coilCompute 0 0).coil 0 := coil_after_coilCompute ht hr hd hg (by decide +kernel)
  rw [hCoil]
  exact ⟨by decide +kernel, by decide +kernel⟩

/-- Refutes O21: its clause on an energised coil asks the next compare values for the target limited by PW_ILIM; they hold the whole
target, and the limit bounds the comparator when the period starts (R278), so a target above the limit refutes the clause. -/
theorem not_coilAndMarkEventsComplete : ¬ Obligations.CoilAndMarkEventsComplete := by
  unfold Obligations.CoilAndMarkEventsComplete
  rintro ⟨-, -, -, -, -, -, energisedCoilLimited, -⟩
  obtain ⟨-, hr, hd, hg, hOn, hLimit⟩ := limitedCoil_meets
  obtain ⟨t, ht, -, -, -, -, -, -, hCompare⟩ := energisedCoilLimited limitedCoil 0 atBoundary ⟨hr, hd, hg, hOn⟩
  obtain ⟨hShadow, hTarget⟩ := limitedCoil_computed ht
  simp [hShadow, hTarget, hLimit] at hCompare

end Sys2Proof.Machine
end

section
/-!
PROOFS. The end of a forced coast (R59, R284) and the state before the first VAUX_GOOD.
-/

namespace Sys2Proof.Machine

/-! ### The end of a forced coast -/

/-- Every command ends with what follows every command. -/
theorem exec_settles {c : Instr} {s t : State} (ht : exec c s = .next t) : ∃ m : Mach, t.m = m.settle s.m.begin_ := by
  cases c <;> cases ht <;> exact ⟨_, rfl⟩

/-- What the axes show of a bank does not depend on anything but the axes. -/
theorem Mach.bankOff_congr {a b : Mach} (h : a.axes = b.axes) (k : Nat) : a.bankOff k = b.bankOff k := by
  unfold Mach.bankOff Mach.axisOff Mach.ax
  rw [h]

@[simp] theorem Mach.ovForceEnd_axes (m : Mach) (b : Nat) : (m.ovForceEnd b).axes = m.axes := by
  unfold Mach.ovForceEnd
  split <;> rfl

/-- R59: the end of the forcing is that of a bank whose axes are OFF. -/
theorem Mach.ovForceEnd_ends (m : Mach) {b : Nat} (hb : b < 4) (hoff : m.bankOff b = true) :
    ((m.ovForceEnd b).bank b).ovForce = false := by
  unfold Mach.ovForceEnd
  rw [hoff, Bool.and_true]
  split
  · rw [Mach.bank_modBank_same _ _ hb]
  · rename_i hforced
    exact Bool.eq_false_iff.mpr hforced

/-- A bank that is not forced stays so when the forcing of another ends. -/
theorem Mach.ovForceEnd_unforced (m : Mach) {b : Nat} (k : Nat) (h : (m.bank b).ovForce = false) :
    ((m.ovForceEnd k).bank b).ovForce = false := by
  unfold Mach.ovForceEnd
  split
  · by_cases e : b = k
    · rename_i hforced
      simp [← e, h] at hforced
    · rw [Mach.bank_modBank_other _ _ e, h]
  · exact h

/-- R59: once the banks of a list have been looked at, none of them whose axes are OFF is forced. -/
theorem Mach.ovForceEnds_unforced (l : List Nat) {b : Nat} (hb : b < 4) : ∀ m : Mach, m.bankOff b = true →
    b ∈ l ∨ (m.bank b).ovForce = false → ((l.foldl Mach.ovForceEnd m).bank b).ovForce = false := by
  induction l with
  | nil => intro m _ h; simpa using h
  | cons k rest ih =>
    intro m hoff h
    rw [List.foldl_cons]
    refine ih _ ((Mach.bankOff_congr (m.ovForceEnd_axes k) b).trans hoff) ?_
    rcases h with h | h
    · rcases List.mem_cons.mp h with e | h
      · exact .inr (e ▸ m.ovForceEnd_ends (e ▸ hb) (e ▸ hoff))
      · exact .inl h
    · exact .inr (m.ovForceEnd_unforced k h)

@[simp] theorem Mach.blankStep_banks (m : Mach) : m.blankStep.banks = m.banks := rfl

@[simp] theorem Mach.stSources_banks (m before : Mach) : (m.stSources before).banks = m.banks := by
  obtain ⟨x, hx⟩ := m.stSources_eq before
  rw [hx]

/-- What follows a command does to the banks only what the end of a forced coast does. -/
theorem Mach.settle_banks (m before : Mach) : (m.settle before).banks = (m.each 4 Mach.ovForceEnd).banks := by
  rw [Mach.settle, Mach.stSources_banks, Mach.blankStep_banks]

/-- What follows a command leaves no bank forced whose axes are OFF. -/
theorem Mach.settle_unforced (m before : Mach) {b : Nat} (hb : b < 4) (hoff : (m.settle before).bankOff b = true) :
    ((m.settle before).bank b).ovForce = false := by
  have hoff' : m.bankOff b = true := (Mach.bankOff_congr (m.settle_axes before) b).symm.trans hoff
  rw [Mach.bank, Mach.settle_banks]
  exact Mach.ovForceEnds_unforced (List.range 4) hb m hoff' (.inl (List.mem_range.mpr hb))

/-- Settles O4: every command ends with the check that ends the forcing of a bank whose axes are OFF. -/
theorem forcedCoastEndsWithItsAxes : Obligations.ForcedCoastEndsWithItsAxes := by
  unfold Obligations.ForcedCoastEndsWithItsAxes
  intro c s t ht b hb hoff
  obtain ⟨m, hm⟩ := exec_settles ht
  rw [hm] at hoff ⊢
  exact m.settle_unforced _ hb hoff

/-! ### The reset state -/

/-- At reset every axis is in its reset state. -/
theorem Mach.reset_ax {n : Nat} (hn : n < 48) : Mach.reset.ax n = .reset := by
  simp [Mach.reset, Mach.ax, vget, hn]

/-- At reset no key is programmed. -/
theorem Mach.reset_hash (k : Nat) : vget none Mach.reset.otp.hashes k = none := by
  simp [Mach.reset, Otp.reset, vget]

/-- Settles O7: the reset state lists no register, no memory cell and no record, and every part stands at its reset value. -/
theorem resetStateIsUnpowered : Obligations.ResetStateIsUnpowered := by
  unfold Obligations.ResetStateIsUnpowered
  refine ⟨rfl, fun _ => rfl, rfl, rfl, fun n hn => ?_, rfl, rfl, fun k _ => Mach.reset_hash k, ?_, ?_⟩
  · exact congrArg Axis.mode (Mach.reset_ax hn)
  · exact fun _ => rfl
  · exact fun _ => rfl

end Sys2Proof.Machine
end

section
/-!
PROOFS. Boundary scan (R68). A test instruction gives every axis fault cause 0x08. The predicate `Tested` says what is kept while the
causes reach the axes one after another: the TAP, the test in force and, of an axis that is watched, its state and its cause. It is
stated for every state, also one whose register file is not in canonical form.
-/

namespace Sys2Proof.Machine

/-! ### The entry of a register -/

/-- The word with which a register file lists a register, where a read of the register finds it. -/
def regEntry : List (RegKey × Word) → RegKey → Option Word
  | [], _ => none
  | (x, w) :: rest, k => if x = k then some w else if k.before x then none else regEntry rest k

theorem regGet_of_entry {l : List (RegKey × Word)} {k : RegKey} {w : Word} (h : regEntry l k = some w) : regGet l k = w := by
  induction l with
  | nil => cases h
  | cons x rest ih =>
    obtain ⟨x, v⟩ := x
    simp only [regEntry, regGet] at h ⊢
    split at h
    · rw [if_pos ‹x = k›]
      exact Option.some.inj h
    · split at h
      · cases h
      · rw [if_neg ‹_›, if_neg ‹_›]
        exact ih h

/-- A register set to another value than that of its reset is listed with that value. -/
theorem regEntry_regSet_same (l : List (RegKey × Word)) {k : RegKey} {w : Word} (hw : w ≠ k.resetVal) :
    regEntry (regSet l k w) k = some w := by
  induction l with
  | nil => simp [regSet, regEntry, hw]
  | cons x rest ih =>
    obtain ⟨x, v⟩ := x
    simp only [regSet, if_neg hw]
    split
    · simp [regEntry]
    · split
      · simp [regEntry]
      · simp [regEntry, *]

/-- Setting another register leaves an entry that a read finds. -/
theorem regEntry_regSet_other {l : List (RegKey × Word)} {k z : RegKey} {w : Word} (v : Word) (hk : z ≠ k)
    (h : regEntry l k = some w) : regEntry (regSet l z v) k = some w := by
  induction l with
  | nil => cases h
  | cons x rest ih =>
    obtain ⟨x, u⟩ := x
    simp only [regEntry] at h
    simp only [regSet]
    by_cases hx : x = k
    · subst hx
      rw [if_pos rfl] at h
      rw [if_neg (Ne.symm hk)]
      split
      · rename_i hz
        have hb : x.before z = false := by
          refine Bool.eq_false_iff.mpr fun hb => ?_
          have := RegKey.before_trans hb hz
          rw [RegKey.before_irrefl] at this
          cases this
        split <;> simp [regEntry, hk, hb, h]
      · simpa [regEntry] using h
    · rw [if_neg hx] at h
      by_cases hb : k.before x = true
      · rw [if_pos hb] at h
        cases h
      · rw [if_neg hb] at h
        have hkz : x = z ∨ z.before x = true → k.before z = false := by
          intro hz
          refine Bool.eq_false_iff.mpr fun hkz => hb ?_
          rcases hz with rfl | hz
          · exact hkz
          · exact RegKey.before_trans hkz hz
        split
        · have := hkz (.inl ‹_›)
          split <;> simp [regEntry, hk, this, h]
        · split
          · have := hkz (.inr ‹_›)
            split <;> simp [regEntry, hk, hx, hb, this, h]
          · simp [regEntry, hx, hb, ih h]

/-! ### The cause that AX_FAULT shows -/

/-- The write of AX_FAULT that waits for axis `n`, if any. -/
def Mach.faultStaged (m : Mach) (n : Nat) : Option Staged := m.staged.find? fun s => s.key == (⟨.AX_FAULT, n, 0⟩ : RegKey)

/-- AX_FAULT shows cause `c` for axis `n`: in the value in force beside a staged write, or else in a word that the register file lists. -/
structure Mach.ShowsCause (m : Mach) (n c : Nat) : Prop where
  staged : ∀ s, m.faultStaged n = some s → bitsOf s.force.toNat 0 8 = c
  listed : m.faultStaged n = none → ∃ w, regEntry m.regs ⟨.AX_FAULT, n, 0⟩ = some w ∧ bitsOf w.toNat 0 8 = c

/-- The value in force of a register for which a write waits. -/
theorem Mach.force_of_staged {m : Mach} {r : Reg} {i j : Nat} {s : Staged}
    (h : m.staged.find? (fun s => s.key == (⟨r, i, j⟩ : RegKey)) = some s) : m.force r i j = s.force.toNat := by
  rw [Mach.force, h]

/-- The value in force of a register for which no write waits. -/
theorem Mach.force_of_unstaged {m : Mach} {r : Reg} {i j : Nat}
    (h : m.staged.find? (fun s => s.key == (⟨r, i, j⟩ : RegKey)) = none) : m.force r i j = m.reg r i j := by
  rw [Mach.force, h]

theorem Mach.ShowsCause.rd {m : Mach} {n c : Nat} (h : m.ShowsCause n c) : m.rd F.AX_FAULT_CAUSE n = c := by
  show bitsOf (m.force .AX_FAULT n 0) 0 8 = c
  cases hs : m.faultStaged n with
  | some s =>
    rw [Mach.force_of_staged hs]
    exact h.staged s hs
  | none =>
    obtain ⟨w, hw, hc⟩ := h.listed hs
    rw [Mach.force_of_unstaged hs, Mach.reg, regGet_of_entry hw, hc]

/-- The staged writes of a register other than the one written stay as they are. -/
theorem Mach.staged_wr_other (m : Mach) {f : Fld} (v i j : Nat) {k : RegKey} (hk : (⟨f.reg, i, j⟩ : RegKey) ≠ k) :
    (m.wr f v i j).staged.find? (fun s => s.key == k) = m.staged.find? (fun s => s.key == k) := by
  refine find_map_key _ _ (fun s => ?_) _ (fun s hs => ?_)
  · split <;> rfl
  · rw [if_neg]
    rw [hs]
    exact fun e => hk (eq_of_beq e).symm

/-- A write of a field in the staged writes of its own register. -/
theorem Mach.staged_wr_same (m : Mach) (f : Fld) (v i j : Nat) :
    (m.wr f v i j).staged.find? (fun s => s.key == (⟨f.reg, i, j⟩ : RegKey)) =
      (m.staged.find? (fun s => s.key == (⟨f.reg, i, j⟩ : RegKey))).map fun s =>
        { s with force := BitVec.ofNat 128 (putBits s.force.toNat f.lo f.width v) } := by
  dsimp only [Mach.wr]
  rw [List.find?_map]
  have hp : (fun s : Staged => s.key == (⟨f.reg, i, j⟩ : RegKey)) ∘ (fun s : Staged =>
      if s.key == (⟨f.reg, i, j⟩ : RegKey) then { s with force := BitVec.ofNat 128 (putBits s.force.toNat f.lo f.width v) } else s) =
      fun s : Staged => s.key == (⟨f.reg, i, j⟩ : RegKey) := by
    funext s
    dsimp only [Function.comp]
    split <;> rfl
  rw [hp]
  cases h : (m.setReg f.reg i j (putBits (m.reg f.reg i j) f.lo f.width v)).staged.find? _ with
  | none =>
    rw [show m.staged.find? (fun s => s.key == (⟨f.reg, i, j⟩ : RegKey)) = none from h]
    rfl
  | some s =>
    rw [show m.staged.find? (fun s => s.key == (⟨f.reg, i, j⟩ : RegKey)) = some s from h]
    have hb : (s.key == (⟨f.reg, i, j⟩ : RegKey)) = true := by simpa using List.find?_some h
    simp only [Option.map_some, if_pos hb]

theorem Mach.ShowsCause.wr_other {m : Mach} {n c : Nat} (h : m.ShowsCause n c) {f : Fld} (v i j : Nat)
    (hk : (⟨f.reg, i, j⟩ : RegKey) ≠ ⟨.AX_FAULT, n, 0⟩) : (m.wr f v i j).ShowsCause n c := by
  have hs : (m.wr f v i j).faultStaged n = m.faultStaged n := m.staged_wr_other v i j hk
  refine ⟨hs ▸ h.staged, fun hn => ?_⟩
  obtain ⟨w, hw, hc⟩ := h.listed (hs ▸ hn)
  exact ⟨w, regEntry_regSet_other _ hk hw, hc⟩

/-- The reset value of AX_FAULT shows no cause. -/
theorem cause_resetVal (n : Nat) : bitsOf (RegKey.resetVal ⟨.AX_FAULT, n, 0⟩).toNat 0 8 = 0 := by
  rw [RegKey.resetVal, if_neg (by simp)]
  show bitsOf (BitVec.ofNat 128 (Reg.AX_FAULT.desc.fields.map fun f => f.reset * 2 ^ f.lo).sum).toNat 0 8 = 0
  decide

/-- A field of AX_FAULT is written so that the words show a cause. -/
theorem Mach.ShowsCause.of_wr {m : Mach} {n c v : Nat} {f : Fld} (hc : c ≠ 0) (hf : f.reg = .AX_FAULT)
    (hs : ∀ s, m.faultStaged n = some s → bitsOf (BitVec.ofNat 128 (putBits s.force.toNat f.lo f.width v)).toNat 0 8 = c)
    (hr : m.faultStaged n = none → bitsOf (BitVec.ofNat 128 (putBits (m.reg .AX_FAULT n 0) f.lo f.width v)).toNat 0 8 = c) :
    (m.wr f v n).ShowsCause n c := by
  obtain ⟨r, lo, width⟩ := f
  obtain rfl : r = .AX_FAULT := hf
  have hw := m.staged_wr_same ⟨.AX_FAULT, lo, width⟩ v n 0
  refine ⟨fun s h => ?_, fun h => ?_⟩
  · obtain ⟨s', hs', rfl⟩ := Option.map_eq_some_iff.mp (hw.symm.trans h)
    exact hs s' hs'
  · have hn : m.faultStaged n = none := Option.map_eq_none_iff.mp (hw.symm.trans h)
    refine ⟨_, regEntry_regSet_same _ fun e => hc ?_, hr hn⟩
    have hzero := hr hn
    rw [e, cause_resetVal] at hzero
    exact hzero.symm

/-- R134: the cause that is written is the one shown. -/
theorem Mach.showsCause_wr (m : Mach) (n : Nat) {c : Nat} (hc : c ≠ 0) (hlt : c < 2 ^ 8) : (m.wr F.AX_FAULT_CAUSE c n).ShowsCause n c := by
  have put : ∀ x < 2 ^ 128, bitsOf (BitVec.ofNat 128 (putBits x 0 8 c)).toNat 0 8 = c := fun x hx => by
    rw [BitVec.toNat_ofNat, Nat.mod_eq_of_lt (putBits_lt hx (by decide)), bitsOf_putBits_same, Nat.mod_eq_of_lt hlt]
  exact .of_wr hc rfl (fun s _ => put _ s.force.isLt) fun _ => put _ (m.reg_lt _ _ _)

/-- The other fields of AX_FAULT lie above the cause. -/
theorem Mach.ShowsCause.wr_field {m : Mach} {n c : Nat} (h : m.ShowsCause n c) (hc : c ≠ 0) {f : Fld} (v : Nat) (hf : f.reg = .AX_FAULT)
    (hlo : 8 ≤ f.lo) (hhi : f.lo + f.width ≤ 128) : (m.wr f v n).ShowsCause n c := by
  have put : ∀ x < 2 ^ 128, bitsOf (BitVec.ofNat 128 (putBits x f.lo f.width v)).toNat 0 8 = bitsOf x 0 8 := fun x hx => by
    rw [BitVec.toNat_ofNat, Nat.mod_eq_of_lt (putBits_lt hx hhi), bitsOf_putBits_below (by omega)]
  refine .of_wr hc hf (fun s hs => (put _ s.force.isLt).trans (h.staged s hs)) fun hs => (put _ (m.reg_lt _ _ _)).trans ?_
  obtain ⟨w, hw, hb⟩ := h.listed hs
  rw [Mach.reg, regGet_of_entry hw, hb]

/-- The cause shown rests on the registers and on the writes that wait. -/
theorem Mach.ShowsCause.congr {m m' : Mach} {n c : Nat} (h : m.ShowsCause n c) (hregs : m'.regs = m.regs)
    (hstaged : m'.staged = m.staged) : m'.ShowsCause n c where
  staged := by
    rw [Mach.faultStaged, hstaged]
    exact h.staged
  listed := by
    rw [Mach.faultStaged, hstaged, hregs]
    exact h.listed

/-! ### What the causes of a test instruction keep -/

/-- The TAP is `T` and a test is in force; where `w` names an axis, no armature has members, that axis is in `M`, HOLD or FAULT, and in
FAULT it shows cause 0x08. -/
structure Mach.Tested (T : Tap) (w : Option Nat) (M : AxMode) (m : Mach) : Prop where
  tap : m.tap = T
  test : m.testInstr = true
  path : w.isSome → ∀ g, (m.arm g).members = []
  mode : ∀ n, w = some n → (m.ax n).mode = M
  rests : M = .hold ∨ M = .fault
  cause : ∀ n, w = some n → M = .fault → m.ShowsCause n 8

section
variable {T : Tap} {w : Option Nat} {M : AxMode} {m : Mach}

/-- A change that leaves the TAP, the armatures, the axes and the registers. -/
theorem Mach.Tested.congr {m' : Mach} (h : m.Tested T w M) (htap : m'.tap = m.tap) (htest : m'.testInstr = m.testInstr)
    (harms : m'.arms = m.arms) (haxes : m'.axes = m.axes) (hregs : m'.regs = m.regs) (hstaged : m'.staged = m.staged) :
    m'.Tested T w M where
  tap := htap.trans h.tap
  test := htest.trans h.test
  path hw g := by rw [Mach.arm, harms]; exact h.path hw g
  mode n hn := by rw [Mach.ax, haxes]; exact h.mode n hn
  rests := h.rests
  cause n hn hM := (h.cause n hn hM).congr hregs hstaged

theorem Mach.Tested.modAx (h : m.Tested T w M) (k : Nat) {f : Axis → Axis} (hf : w = some k → ∀ a, (f a).mode = a.mode) :
    (m.modAx k f).Tested T w M where
  tap := h.tap
  test := h.test
  path := h.path
  mode n hn := by
    by_cases e : n = k
    · subst e
      by_cases hlt : n < 48
      · rw [Mach.ax_modAx_same _ _ hlt, hf hn, h.mode n hn]
      · rw [← h.mode n hn]
        simp [Mach.ax, vget, hlt]
    · rw [Mach.ax_modAx_other _ _ e, h.mode n hn]
  rests := h.rests
  cause n hn hM := (h.cause n hn hM).congr rfl rfl

theorem Mach.Tested.modArm (h : m.Tested T w M) (k : Nat) {f : Arm → Arm} (hf : ∀ a, a.members = [] → (f a).members = []) :
    (m.modArm k f).Tested T w M where
  tap := h.tap
  test := h.test
  path hw g := by
    by_cases e : g = k
    · subst e
      by_cases hlt : g < 16
      · rw [Mach.arm_modArm_same _ _ hlt]
        exact hf _ (h.path hw g)
      · simp [Mach.arm, vget, hlt, Arm.reset]
    · rw [Mach.arm_modArm_other _ _ e]
      exact h.path hw g
  mode := h.mode
  rests := h.rests
  cause n hn hM := (h.cause n hn hM).congr rfl rfl

theorem Mach.Tested.wr (h : m.Tested T w M) (f : Fld) (v i j : Nat) (hf : f.reg ≠ .AX_FAULT ∨ w ≠ some i) :
    (m.wr f v i j).Tested T w M where
  tap := h.tap
  test := h.test
  path := h.path
  mode := h.mode
  rests := h.rests
  cause n hn hM := (h.cause n hn hM).wr_other v i j fun e => by
    injection e with hreg hi
    rcases hf with hf | hf
    · exact hf hreg
    · exact hf (hi ▸ hn)

theorem Mach.Tested.when (h : m.Tested T w M) (c : Bool) {f : Mach → Mach} (hf : (f m).Tested T w M) : (m.when c f).Tested T w M := by
  unfold Mach.when
  split
  · exact hf
  · exact h

/-- An operation repeated over a list. -/
theorem Mach.Tested.foldl {α : Type} (l : List α) {f : Mach → α → Mach}
    (hf : ∀ (x : Mach) (a : α), a ∈ l → x.Tested T w M → (f x a).Tested T w M) {m : Mach} (h : m.Tested T w M) :
    (l.foldl f m).Tested T w M := by
  induction l generalizing m with
  | nil => exact h
  | cons a rest ih => exact ih (fun x b hb => hf x b (List.mem_cons_of_mem _ hb)) (hf m a (List.mem_cons_self ..) h)

theorem Mach.Tested.setBitWhen (h : m.Tested T w M) (b : Bool) (f : Fld) (hf : f.reg ≠ .AX_FAULT) :
    (m.when b fun m => m.setBit f).Tested T w M :=
  h.when b (h.wr f 1 0 0 (.inl hf))

/-- A record of the rings and its mirror. -/
theorem Mach.Tested.record (h : m.Tested T w M) (r : Rings) (d : List Host.Cell) :
    ({ m with rings := r, dram := d } : Mach).Tested T w M :=
  h.congr rfl rfl rfl rfl rfl rfl

theorem Mach.Tested.enterEvt (h : m.Tested T w M) (c o d ts : Nat) : (m.enterEvt c o d ts).Tested T w M := by
  have hring := h.record (m.rings.pushEvt (eventWord c o ts d))
    (memWrite dramDefault m.dram (0x04000000 + 16 * (m.rings.evtMwr % 65536)) 16 (eventWord c o ts d).toNat)
  have hlost := hring.setBitWhen m.rings.evtFull F.Q_IRQ_EVT_LOST (by decide)
  exact hlost.setBitWhen _ F.Q_IRQ_EVT (by decide)

theorem Mach.Tested.postAt (h : m.Tested T w M) (c o d ts : Nat) : (m.postAt c o d ts).Tested T w M := by
  unfold Mach.postAt
  split
  · exact h.congr rfl rfl rfl rfl rfl rfl
  · exact h.enterEvt c o d ts

theorem Mach.Tested.post (h : m.Tested T w M) (c o d : Nat) : (m.post c o d).Tested T w M := h.postAt c o d _

theorem Mach.Tested.retire (h : m.Tested T w M) (c : MotionCmd) (st at_ : Nat) : (m.retire c st at_).Tested T w M := by
  unfold Mach.retire
  split
  · exact h
  · exact h.congr rfl rfl rfl rfl rfl rfl

theorem Mach.Tested.retireAll (h : m.Tested T w M) (cs : List MotionCmd) (st at_ : Nat) : (m.retireAll cs st at_).Tested T w M :=
  .foldl cs (fun _ c _ hx => hx.retire c st at_) h

theorem Mach.Tested.dropMotion (h : m.Tested T w M) (n st at_ : Nat) : (m.dropMotion n st at_).Tested T w M :=
  ((h.retireAll _ _ _).retireAll _ _ _).modAx n fun _ _ => rfl

theorem Mach.Tested.homeFail (h : m.Tested T w M) (n code : Nat) : (m.homeFail n code).Tested T w M :=
  (((h.wr F.AX_HOME_STAT_FAIL _ _ _ (.inl (by decide))).wr F.AX_HOME_STAT_CODE _ _ _ (.inl (by decide))).wr F.AX_HOME_STAT_PHASE _ _ _
    (.inl (by decide))).post _ _ _

theorem Mach.Tested.homeCut (h : m.Tested T w M) (n : Nat) : (m.homeCut n).Tested T w M := by
  unfold Mach.homeCut
  split
  · exact h
  · refine Mach.Tested.modAx ?_ n fun _ _ => rfl
    split
    · exact h.homeFail n 3
    · exact h

theorem Mach.Tested.followEnd (h : m.Tested T w M) (n at_ : Nat) : (m.followEnd n at_).Tested T w M := by
  unfold Mach.followEnd
  split
  · exact h
  · refine .foldl _ (fun x r _ hx => ?_) (Mach.Tested.modAx ?_ n fun _ _ => rfl)
    · split
      · exact hx.congr rfl rfl rfl rfl rfl rfl
      · exact hx
    · have retired : ∀ c : Option MotionCmd, (match c with | some c => m.retire c 0x01 at_ | none => m).Tested T w M := by
        intro c
        split
        · exact h.retire _ _ _
        · exact h
      split
      · exact ((retired _).wr F.FB_FOLLOW_EN _ _ _ (.inl (by decide))).post _ _ _
      · exact retired _

theorem Mach.Tested.leaveFollow (h : m.Tested T w M) (n at_ : Nat) : (m.leaveFollow n at_).Tested T w M :=
  (h.followEnd n at_).modAx n fun _ _ => rfl

theorem Mach.Tested.trimStop (h : m.Tested T w M) (n : Nat) : (m.trimStop n).Tested T w M := by
  refine Mach.Tested.wr ?_ F.GR_TRIM_OUT_U _ _ _ (.inl (by decide))
  refine Mach.Tested.wr ?_ F.GR_FSTAT_TRIM_ON _ _ _ (.inl (by decide))
  exact h.modAx n fun _ _ => rfl

theorem Mach.Tested.endEnable (h : m.Tested T w M) (n st at_ : Nat) : (m.endEnable n st at_).Tested T w M :=
  (h.retireAll _ _ _).modAx n fun _ _ => rfl

theorem Mach.Tested.homeFaulted (h : m.Tested T w M) (n : Nat) : (m.homeFaulted n).Tested T w M := by
  unfold Mach.homeFaulted
  dsimp only
  split
  · exact h.congr rfl rfl rfl rfl rfl rfl
  · exact h

theorem Mach.Tested.cutCoil (h : m.Tested T w M) (K : Nat) : (m.cutCoil K).Tested T w M := by
  unfold Mach.cutCoil
  split
  · exact h
  · exact h.congr rfl rfl rfl rfl rfl rfl

theorem Mach.Tested.cutAxis (h : m.Tested T w M) (n : Nat) : (m.cutAxis n).Tested T w M := (h.cutCoil _).cutCoil _

theorem Mach.Tested.cutBank (h : m.Tested T w M) (b : Nat) : (m.cutBank b).Tested T w M :=
  .foldl _ (fun _ _ _ hx => hx.cutCoil _) h

/-- An axis stops by itself; the watched axis does not. -/
theorem Mach.Tested.estopAxis (h : m.Tested T w M) {n : Nat} (hn : w ≠ some n) (cause : Nat) (own : Bool) :
    (m.estopAxis n cause own).Tested T w M := by
  unfold Mach.estopAxis
  extract_lets st m1 m1' m2 m3 m4
  have h3 : m3.Tested T w M :=
    ((((h.homeCut n).dropMotion n _ _).followEnd n _).retireAll _ _ _).modAx n fun e => absurd e hn
  exact (((h3.wr F.AX_FAULT_ESTOP_CAUSE _ _ _ (.inr hn)).wr F.AX_FAULT_ESTOPPED _ _ _ (.inr hn)).wr F.LA_AX_STAT_RETRYING _ _ _
    (.inl (by decide))).post _ _ _

/-- An armature stops along its path; no axis is watched while it has members. -/
theorem Mach.Tested.groupEstop (h : m.Tested T w M) (g n cause : Nat) (skip : Option Nat) (own : List Nat) :
    (m.groupEstop g n cause skip own).Tested T w M := by
  unfold Mach.groupEstop
  extract_lets a st m1 m2 m3 m4
  have h1 : m1.Tested T w M := by
    dsimp only [m1]
    split
    · exact h.retire _ _ _
    · exact h
  have h3 : m3.Tested T w M := (h1.retireAll _ _ _).modArm g fun _ ha => ha
  have h4 : m4.Tested T w M := by
    refine .foldl _ (fun x k hk hx => ?_) h3
    have hnot : w ≠ some k := fun e => by
      rw [show a.members = [] from h.path (by rw [e]; rfl) g] at hk
      cases hk
    split
    · exact hx
    · split
      · exact hx.post _ _ _
      · exact hx.estopAxis hnot _ _
  split
  · exact h
  · split
    · exact h4
    · exact h4.post _ _ _

/-- An ESTOP cause stops no axis in HOLD or FAULT. -/
theorem Mach.Tested.estop (h : m.Tested T w M) (n cause : Nat) : (m.estop n cause).Tested T w M := by
  unfold Mach.estop Mach.estopWith
  split
  · rename_i hs
    have hn : w ≠ some n := fun e => by
      have hmode := h.mode n e
      rcases h.rests with hM | hM <;> simp [Mach.stoppable, Axis.eff, hmode, hM] at hs
    split
    · split
      · exact h.groupEstop _ _ _ _ _
      · exact h.estopAxis hn _ _
    · exact h.estopAxis hn _ _
  · exact h.post _ _ _

theorem Mach.Tested.breakPath (h : m.Tested T w M) (n code : Nat) : (m.breakPath n code).Tested T w M := by
  unfold Mach.breakPath
  split
  · exact h
  · extract_lets m1 m2 m3
    have h1 : m1.Tested T w M := h.modAx n fun _ _ => rfl
    have h2 : m2.Tested T w M := (h1.wr F.GR_STATUS_BROKEN _ _ _ (.inl (by decide))).post _ _ _
    exact (h2.groupEstop _ _ _ _ _).modArm _ fun a ha => by simp [ha]

theorem Mach.Tested.masterLost (h : m.Tested T w M) (n : Nat) : (m.masterLost n).Tested T w M := by
  refine .foldl _ (fun x k _ hx => ?_) h
  split
  · split
    · exact ((hx.wr F.GR_FSTAT_MLOSS _ _ _ (.inl (by decide))).post _ _ _).estop _ _
    · exact hx
  · exact hx

/-- A write of another field of AX_FAULT than the cause. -/
theorem Mach.Tested.wr_fault (h : m.Tested T w M) (f : Fld) (v i : Nat) (hf : f.reg = .AX_FAULT) (hlo : 8 ≤ f.lo)
    (hhi : f.lo + f.width ≤ 128) : (m.wr f v i).Tested T w M where
  tap := h.tap
  test := h.test
  path := h.path
  mode := h.mode
  rests := h.rests
  cause n hn hM := by
    have hc := h.cause n hn hM
    by_cases e : i = n
    · subst e
      exact hc.wr_field (by decide) v hf hlo hhi
    · exact hc.wr_other v i 0 fun hk => e (RegKey.mk.inj hk).2.1

/-- The state of an axis that a fault cause has reached; every other axis stays in `M`. -/
def faultedMode (w : Option Nat) (k : Nat) (M : AxMode) : AxMode := if w = some k then .fault else M

/-- An axis takes FAULT and its cause is shown. -/
theorem Mach.Tested.faulted (h : m.Tested T w M) {k : Nat} (hk : k < 48) {f : Axis → Axis} (hf : ∀ a, (f a).mode = a.mode) :
    ((m.modAx k fun a => (f a).setEff .fault).wr F.AX_FAULT_CAUSE 8 k).Tested T w (faultedMode w k M) := by
  by_cases hw : w = some k
  · rw [faultedMode, if_pos hw]
    refine ⟨h.tap, h.test, h.path, fun n hn => ?_, .inr rfl, fun n hn _ => ?_⟩
    · obtain rfl : k = n := Option.some.inj (hw.symm.trans hn)
      have hmode : ((m.ax k).mode) ≠ .maquette := by
        rcases h.rests with e | e <;> simp [h.mode k hn, e]
      show ((m.modAx k fun a => (f a).setEff .fault).ax k).mode = .fault
      rw [Mach.ax_modAx_same _ _ hk, Axis.setEff, if_neg (by rwa [hf])]
    · obtain rfl : k = n := Option.some.inj (hw.symm.trans hn)
      exact Mach.showsCause_wr _ k (by decide) (by decide)
  · rw [faultedMode, if_neg hw]
    exact (h.modAx k fun e => absurd e hw).wr _ _ _ _ (.inr hw)

/-- R134: an axis enters FAULT with cause 0x08. -/
theorem Mach.Tested.enterFault (h : m.Tested T w M) {k : Nat} (hk : k < 48) (at_ : Nat) :
    (m.enterFault k 8 at_).Tested T w (faultedMode w k M) := by
  unfold Mach.enterFault
  extract_lets before moving waits mh m0 m1 m2 m3 m4 m5 m6
  have h0 : m0.Tested T w M := ((h.homeFaulted k).homeCut k).dropMotion k 0x01 _
  have h2 : m2.Tested T w M := (h0.retireAll _ _ _).breakPath k 8
  have h3 : m3.Tested T w M := ((h2.endEnable k _ _).leaveFollow k _).trimStop k
  have h4 : (m4.wr F.AX_FAULT_CAUSE 8 k).Tested T w (faultedMode w k M) := h3.faulted hk fun _ => rfl
  have h5 : m5.Tested T w (faultedMode w k M) :=
    (h4.wr_fault F.AX_FAULT_FAULTED 1 k rfl (by decide) (by decide)).wr F.LA_AX_STAT_RETRYING _ _ _ (.inl (by decide))
  have h6 : m6.Tested T w (faultedMode w k M) := (h5.cutAxis k).post _ _ _
  refine Mach.Tested.masterLost ?_ k
  clear_value waits
  split
  · exact h6.post _ _ _
  · exact h6

/-- R68, R134: cause 0x08 reaches an axis. -/
theorem Mach.Tested.fault (h : m.Tested T w M) {k : Nat} (hk : k < 48) : (m.fault k 8).Tested T w (faultedMode w k M) := by
  have heff : w = some k → (m.ax k).eff = M := fun hw => by
    rcases h.rests with e | e <;> simp [Axis.eff, h.mode k hw, e]
  have same : (m.ax k).eff ≠ .hold → ((m.ax k).eff ≠ .fault → w ≠ some k) → faultedMode w k M = M := fun h1 h2 => by
    unfold faultedMode
    split
    · rename_i hw
      rcases h.rests with e | e
      · exact absurd ((heff hw).trans e) h1
      · exact e.symm
    · rfl
  have unmet : (m.ax k).eff ≠ .hold → (m.ax k).eff ≠ .fault → w ≠ some k := fun h1 h2 hw => by
    rcases h.rests with e | e
    · exact h1 ((heff hw).trans e)
    · exact h2 ((heff hw).trans e)
  unfold Mach.fault
  split
  · rename_i e
    rw [same (by simp [e]) (unmet (by simp [e]))]
    exact h
  · rename_i e
    rw [same (by simp [e]) (unmet (by simp [e]))]
    exact h
  · rename_i e
    rw [same (by simp [e]) (unmet (by simp [e]))]
    refine Mach.Tested.post (Mach.Tested.cutAxis ?_ k) _ _ _
    exact h.modAx k fun _ _ => rfl
  · exact h.enterFault hk _

/-- Cause 0x08 reaches the axes of a list. -/
theorem Mach.Tested.faults (l : List Nat) (hl : ∀ k ∈ l, k < 48) : ∀ {m : Mach} {M : AxMode}, m.Tested T w M →
    ∃ M', (l.foldl (fun m k => m.fault k 8) m).Tested T w M' ∧ (M = .fault ∨ (∃ k ∈ l, w = some k) → M' = .fault) := by
  induction l with
  | nil => exact fun h => ⟨_, h, by simp⟩
  | cons k rest ih =>
    intro m M h
    obtain ⟨M', h', hM'⟩ := ih (fun j hj => hl j (List.mem_cons_of_mem _ hj)) (h.fault (hl k (List.mem_cons_self ..)))
    refine ⟨M', h', fun hr => hM' ?_⟩
    unfold faultedMode
    split
    · exact .inl rfl
    · refine hr.imp_right ?_
      rintro ⟨j, hj, hw⟩
      rcases List.mem_cons.mp hj with rfl | hj
      · exact absurd hw ‹_›
      · exact ⟨j, hj, hw⟩

theorem Mach.Tested.functionsStop (h : m.Tested T w M) : m.functionsStop.Tested T w M := h.congr rfl rfl rfl rfl rfl rfl

/-- R68: a test instruction comes into force; the watched axis enters FAULT. -/
theorem Mach.Tested.tapTest (h : ({ m with testInstr := true } : Mach).Tested T w M) (hw : ∀ n, w = some n → n < 48) :
    ∃ M', m.tapTest.Tested T w M' ∧ (w.isSome → M' = .fault) := by
  obtain ⟨M', h', hM'⟩ := Mach.Tested.faults (List.range 48) (fun k hk => List.mem_range.mp hk) h
  have hcut : (Mach.each _ 4 Mach.cutBank).Tested T w M' := .foldl (List.range 4) (fun _ b _ hx => hx.cutBank b) h'
  refine ⟨M', hcut.functionsStop, fun hs => hM' ?_⟩
  obtain ⟨n, hn⟩ := Option.isSome_iff_exists.mp hs
  exact .inr ⟨n, List.mem_range.mpr (hw n hn), hn⟩

end

/-! ### The commands of boundary scan -/

/-- A command completes with what holds once its body has led to `m` and what follows every command is done. -/
theorem Completes.of_body {c : Instr} {s : State} {f : Mach → Mach} {m : Mach} {P : Mach → Prop} (hc : exec c s = s.run f)
    (hf : f s.m.begin_ = m) (hP : P (m.settle s.m.begin_)) : Completes c s P := ⟨_, hc, rfl, hf ▸ hP⟩

/-- The TAP with an instruction in force. -/
def Tap.load (t : Tap) (ir : Nat) : Tap := { t with ir := ir }

/-- The module with its TAP replaced. -/
def Mach.withTap (m : Mach) (T : Tap) : Mach := { m with tap := T }

/-- A test that begins watches nothing at first. -/
theorem Mach.Tested.start (m : Mach) (T : Tap) : ({ m.withTap T with testInstr := true } : Mach).Tested T none .hold where
  tap := rfl
  test := rfl
  path h := by cases h
  mode _ h := by cases h
  rests := .inl rfl
  cause _ h := by cases h

/-- An axis in HOLD can be watched where no armature has members. -/
theorem Mach.Tested.start_watched {m : Mach} (T : Tap) {n : Nat} (hp : ∀ g : Fin 16, (m.arm g).members = [])
    (hm : (m.ax n).mode = .hold) : ({ m.withTap T with testInstr := true } : Mach).Tested T (some n) .hold where
  tap := rfl
  test := rfl
  path _ g := by
    by_cases hg : g < 16
    · exact hp ⟨g, hg⟩
    · simp [Mach.arm, vget, hg, Arm.reset]
  mode k hk := by
    obtain rfl : n = k := Option.some.inj hk
    exact hm
  rests := .inl rfl
  cause _ _ hM := by cases hM

/-- R68: the TAP after a test instruction has come into force, and the test in force. -/
theorem Mach.tapTest_tap (m : Mach) (T : Tap) : (m.withTap T).tapTest.tap = T ∧ (m.withTap T).tapTest.testInstr = true := by
  obtain ⟨M, h, -⟩ := Mach.Tested.tapTest (m := m.withTap T) (.start m T) fun _ h => by cases h
  exact ⟨h.tap, h.test⟩

/-- R68: a test instruction takes an axis in HOLD to FAULT with cause 0x08. -/
theorem Mach.tapTest_hold {m : Mach} (T : Tap) {n : Nat} (hn : n < 48) (hp : ∀ g : Fin 16, (m.arm g).members = [])
    (hm : (m.ax n).mode = .hold) :
    ((m.withTap T).tapTest.ax n).mode = .fault ∧ (m.withTap T).tapTest.rd F.AX_FAULT_CAUSE n = 8 := by
  obtain ⟨M, h, hM⟩ := Mach.Tested.tapTest (m := m.withTap T) (.start_watched T hp hm) fun k hk => Option.some.inj hk ▸ hn
  have hM' : M = .fault := hM rfl
  exact ⟨(h.mode n rfl).trans hM', (h.cause n rfl hM').rd⟩

/-- R68: EXTEST, CLAMP and HIGHZ while the TAP operates. -/
theorem tapTestInstruction_completes (s : State) (code : Fin 3) (hl : s.m.tapLive = true)
    (hp : ∀ g : Fin 16, (s.m.arm g).members = []) :
    Completes (.tapTestInstruction code) s fun t => t.testInstr = true ∧ t.tap.ir = tapTestCodes.getD code.val 0 ∧
      (∀ n : Fin 48, (s.m.ax n).mode = .hold → (t.ax n).mode = .fault ∧ t.rd F.AX_FAULT_CAUSE n = 8) := by
  obtain ⟨htap, htest⟩ := s.m.begin_.tapTest_tap (s.m.tap.load (tapTestCodes.getD code.val 0))
  refine .of_body (m := (s.m.begin_.withTap (s.m.tap.load (tapTestCodes.getD code.val 0))).tapTest) rfl (if_pos hl) ?_
  simp only [Mach.settle_testInstr, Mach.settle_tap, Mach.ax_settle, Mach.rd_settle]
  refine ⟨htest, by rw [htap]; rfl, fun n hm => ?_⟩
  exact Mach.tapTest_hold _ n.isLt hp hm

/-- Without VAUX and in a last gasp the TAP does not operate (R63). -/
theorem tapTestInstruction_idle (s : State) (code : Fin 3) (hl : s.m.tapLive = false) :
    Completes (.tapTestInstruction code) s fun t => t.tap = s.m.tap ∧ t.testInstr = s.m.testInstr ∧ t.axes = s.m.axes :=
  .of_body rfl (if_neg (ne_true_of_eq_false hl)) ⟨Mach.settle_tap _ _, Mach.settle_testInstr _ _, Mach.settle_axes _ _⟩

theorem tckEdge_idle (s : State) (trst tms tdi : Bool) (pins : BitVec 201) (hl : s.m.tapLive = false) :
    Completes (.tckEdge trst tms tdi pins) s fun t => t.tap = s.m.tap ∧ t.axes = s.m.axes :=
  .of_body rfl (if_neg (ne_true_of_eq_false hl)) ⟨Mach.settle_tap _ _, Mach.settle_axes _ _⟩

/-- What a clock of the TAP does while it operates: `cells` and `up` are what the captures load. -/
theorem tckEdge_clocked {s : State} {trst tms tdi : Bool} {pins : BitVec 201} {P : Mach → Prop} (hl : s.m.tapLive = true)
    (hP : ∀ cells up T, s.m.tap.clock trst tms tdi cells up = T →
      P (((s.m.begin_.withTap T).when (!trst && T.st == .updateIr && tapTestCodes.contains T.ir) Mach.tapTest).settle s.m.begin_)) :
    Completes (.tckEdge trst tms tdi pins) s P :=
  .of_body rfl (if_pos hl) (hP _ _ _ rfl)

/-- A clock that brings no instruction into force moves the TAP and nothing else. -/
theorem tckEdge_moves {s : State} {trst tms tdi : Bool} {pins : BitVec 201} (hl : s.m.tapLive = true) {T : Tap}
    (hT : ∀ cells up, s.m.tap.clock trst tms tdi cells up = T) (hu : trst = true ∨ T.st ≠ .updateIr) :
    Completes (.tckEdge trst tms tdi pins) s fun t => t.tap = T ∧ t.axes = s.m.axes := by
  refine tckEdge_clocked hl fun cells up T' hT' => ?_
  obtain rfl : T = T' := (hT cells up).symm.trans hT'
  have hno : (!trst && T.st == .updateIr && tapTestCodes.contains T.ir) = false := by
    rcases hu with h | h <;> simp [h]
  rw [hno]
  exact ⟨Mach.settle_tap _ _, Mach.settle_axes _ _⟩

/-- R68: the clock at which EXTEST leaves the instruction register brings it into force. -/
theorem tckEdge_extest {s : State} {tdi : Bool} {pins : BitVec 201} (hl : s.m.tapLive = true)
    (hst : s.m.tap.st = .exit1Ir) (hir : s.m.tap.irShift % 16 = 0) :
    Completes (.tckEdge false true tdi pins) s fun t => t.tap.ir = 0 ∧ t.tap.st = .updateIr ∧ t.testInstr = true := by
  refine tckEdge_clocked hl fun cells up T hT => ?_
  obtain rfl : { s.m.tap with st := .updateIr, ir := 0 } = T := by
    simpa [Tap.clock, Tap.act, Tap.settle, TapState.next, hst, hir] using hT
  obtain ⟨htap, htest⟩ := s.m.begin_.tapTest_tap { s.m.tap with st := .updateIr, ir := 0 }
  have hyes : (!false && TapState.updateIr == .updateIr && tapTestCodes.contains 0) = true := by decide
  rw [hyes, Mach.settle_tap, Mach.settle_testInstr]
  exact ⟨congrArg Tap.ir htap, congrArg Tap.st htap, htest⟩

/-- A completion says no less than what follows from it. -/
theorem Completes.imp {c : Instr} {s : State} {P Q : Mach → Prop} (h : Completes c s P) (hPQ : ∀ t, P t → Q t) : Completes c s Q := by
  obtain ⟨t, ht, hp, hP⟩ := h
  exact ⟨t, ht, hp, hPQ _ hP⟩

/-- What the TAP does on entering a state leaves that state. -/
theorem Tap.settle_st (T : Tap) : T.settle.st = T.st := by
  unfold Tap.settle
  split
  case h_2 => split <;> rfl
  all_goals rfl

/-- A clock in a state whose rising edge makes `u` of the TAP, whatever the captures load, and after which no instruction is updated. -/
theorem tckEdge_acts {s : State} {tms tdi : Bool} {pins : BitVec 201} (hl : s.m.tapLive = true) {u : Tap}
    (hact : ∀ cells up, s.m.tap.act tdi cells up = u) (hu : u.st.next tms ≠ .updateIr) :
    Completes (.tckEdge false tms tdi pins) s fun t => t.tap = Tap.settle { u with st := u.st.next tms } ∧ t.axes = s.m.axes :=
  tckEdge_moves hl (fun cells up => by rw [← hact cells up]; rfl) (.inr (by rwa [Tap.settle_st]))

/-- Settles O49: a clock moves the controller by IEEE 1149.1; a test instruction that comes into force gives every axis cause 0x08, and
of an axis in HOLD no later cause of the same instruction changes that. -/
theorem boundaryScanCompletes : Obligations.BoundaryScanCompletes := by
  unfold Obligations.BoundaryScanCompletes
  refine ⟨fun s code h => tapTestInstruction_completes s code h.1 h.2, tapTestInstruction_idle, ?_, ?_, ?_, ?_, ?_, tckEdge_idle⟩
  · rintro s trst tms tdi pins ⟨hl, rfl⟩
    exact tckEdge_moves hl (fun _ _ => by simp [Tap.clock]) (.inl rfl)
  · rintro s trst tms tdi pins ⟨hl, rfl, hst⟩
    have hact (cells up) : s.m.tap.act tdi cells up = { s.m.tap with dr := shiftIn (tapLength s.m.tap.ir) s.m.tap.dr tdi } := by
      simp [Tap.act, hst]
    refine (tckEdge_acts hl hact (by cases tms <;> simp [hst, TapState.next])).imp fun t ⟨htap, haxes⟩ => ?_
    rw [htap]
    cases tms <;> simp [hst, haxes, TapState.next, Tap.settle]
  · rintro s trst tms tdi pins ⟨hl, rfl, hst, hir⟩
    have hact (cells up) : s.m.tap.act tdi cells up = { s.m.tap with dr := tapIdcode } := by
      simp [Tap.act, hst, hir]
    refine (tckEdge_acts hl hact (by cases tms <;> simp [hst, TapState.next])).imp fun t ⟨htap, _⟩ => ?_
    rw [htap]
    cases tms <;> simp [hst, TapState.next, Tap.settle, tapIdcode]
  · rintro s trst tms tdi pins ⟨hl, rfl, hst⟩
    have hact (cells up) : s.m.tap.act tdi cells up = { s.m.tap with irShift := shiftIn 4 s.m.tap.irShift tdi } := by
      simp [Tap.act, hst]
    refine (tckEdge_acts hl hact (by cases tms <;> simp [hst, TapState.next])).imp fun t ⟨htap, _⟩ => ?_
    rw [htap]
    cases tms <;> simp [hst, TapState.next, Tap.settle]
  · rintro s trst tms tdi pins ⟨hl, rfl, hst, rfl, hir⟩
    exact tckEdge_extest hl hst hir

end Sys2Proof.Machine
end

section
/-!
PROOFS. Three of the statements on supplies and starts fail, because they are made of every state and not of the sound ones that a
command can lead to. Setting a register to its reset value takes its entry off the register file, which makes it read as its reset value
in a file that lists it once (the canonical form, `regsWf`), but uncovers the second word in a file that lists it twice. A write that
takes effect at once drops the value in force beside which an earlier write of the same register waited.
-/

namespace Sys2Proof.Machine

/-- What a completed command leaves is what its body makes, once what follows every command is done. -/
theorem Completes.after_body {c : Instr} {s : State} {f : Mach → Mach} {P : Mach → Prop} (h : Completes c s P)
    (hc : exec c s = s.run f) : P ((f s.m.begin_).settle s.m.begin_) := h.of_exec hc

/-! ### VHOLD_LOW and a register listed twice -/

/-- A module without VAUX whose register file lists KN_MEMO twice. -/
def memoListedTwice : State :=
  { pending := []
    m := { Mach.reset with regs := [(⟨.KN_MEMO, 0, 0⟩, 1), (⟨.KN_MEMO, 0, 0⟩, 2)] } }

/-- R500: what is lost with VHOLD uncovers the second entry of KN_MEMO. -/
theorem memoListedTwice_reveals : memoListedTwice.m.begin_.alwaysOnLost.reg .KN_MEMO 0 0 = 2 := by decide +kernel

/-- R500: in a register file in canonical form KN_MEMO is lost with VHOLD. -/
theorem Mach.alwaysOnLost_memo {m : Mach} (hv : m.kn.vauxGood = false) (hr : regsWf m.regs = true) :
    m.alwaysOnLost.reg .KN_MEMO 0 0 = 0 := by
  rw [Mach.alwaysOnLost, if_neg (ne_true_of_eq_false hv)]
  exact Mach.reg_setReg_same (m := { m with clk := { m.clk with hours := 0 } }) .KN_MEMO 0 0 0 hr

/-- Refutes O11: its clause on VHOLD_LOW asks KN_MEMO to read zero in every state without VAUX. Where the register file lists KN_MEMO
twice, so is not in canonical form, the second entry is read instead; in canonical form the clause holds (`alwaysOnLost_memo`). -/
theorem not_supplyEventsComplete : ¬ Obligations.SupplyEventsComplete := by
  unfold Obligations.SupplyEventsComplete
  rintro ⟨-, -, -, -, -, -, vholdLowClears, -⟩
  obtain ⟨-, hMemo⟩ := (vholdLowClears memoListedTwice rfl).after_body (f := Mach.alwaysOnLost) rfl
  rw [Mach.reg_settle, memoListedTwice_reveals] at hMemo
  cases hMemo

/-! ### RESUME and a value in force that waits -/

/-- A module in RUN where PW_VMON_STAT of bank 0 has RESUME_PEND in its value in force only, beside a write that waits. -/
def resumeWaiting : State :=
  { pending := []
    m := { Mach.reset with
      clk.running := true, kn.phase := .run, kn.vauxGood := true
      staged := [{ key := ⟨.PW_VMON_STAT, 0, 0⟩, force := 32, at_ := .nextTick, choice := 0, ready := false, seen := 0 }] } }

/-- It meets what the clause on RESUME asks, in a sound state. -/
theorem resumeWaiting_meets : resumeWaiting.Sound ∧ resumeWaiting.m.Takes ⟨.PW_VMON_STAT, 0, 0⟩ 64 ∧
    resumeWaiting.m.rb F.PW_VMON_STAT_RESUME_PEND 0 = true :=
  ⟨sound_of_regsWf rfl rfl rfl (by decide +kernel), by
    unfold Mach.Takes
    decide +kernel, by decide +kernel⟩

/-- R491: the write drops the value in force before RESUME is looked at, so no ramp starts. -/
theorem resumeWaiting_idle : ((resumeWaiting.m.begin_.hostWrite ⟨.PW_VMON_STAT, 0, 0⟩ 64).bank 0).rampT0 = none := by decide +kernel

/-- Refutes O12: its clause on RESUME asks a ramp wherever RESUME_PEND reads set. The state is sound, but holds a waiting write of
PW_VMON_STAT, which no command stages; RESUME_PEND reads set in the value in force alone, and the write of RESUME drops that. -/
theorem not_bankMonitorEventsComplete : ¬ Obligations.BankMonitorEventsComplete := by
  unfold Obligations.BankMonitorEventsComplete
  rintro ⟨-, -, resumeStartsRamp, -⟩
  obtain ⟨-, hTakes, hPending⟩ := resumeWaiting_meets
  obtain ⟨-, hRamp⟩ := (resumeStartsRamp resumeWaiting 0 ⟨hTakes, hPending⟩).after_body
    (f := fun m => m.hostWrite ⟨.PW_VMON_STAT, 0, 0⟩ 64) rfl
  obtain ⟨forced, hBank⟩ := (resumeWaiting.m.begin_.hostWrite ⟨.PW_VMON_STAT, 0, 0⟩ 64).bank_settle resumeWaiting.m.begin_ 0
  have hNone := congrArg Bank.rampT0 hBank
  cases (hRamp.symm.trans hNone).trans resumeWaiting_idle

/-! ### KILN_START and a step time listed twice -/

/-- A start about to run step 3, whose register file lists the time of that step twice. -/
def stepTimeListedTwice : State :=
  { pending := []
    m := { Mach.reset with
      kn.phase := .start, kn.step := 3, kn.vauxGood := true
      regs := [(⟨.KN_STEPTIME, 2, 0⟩, 1), (⟨.KN_STEPTIME, 2, 0⟩, 2)] } }

/-- Step 3 by itself: it passes and takes no time. -/
def timelessStep : StartMeas :=
  { upTo := 3, fail := none, xtalOk := true, retrainOk := true, eyes := 0, vaux := 0, vhold := 0, vms := [], rails := 7, rows := [],
    eng := 0, reg := 0, slices := [], bridgeFail := 0, delays := [], front := [], sources := [], rpu := 10000, clampTwice := 0,
    motors := [], ports := [], durs := [], toRun := 0 }

/-- R72: the time zero of the step uncovers the second entry of KN_STEPTIME. -/
theorem stepTimeListedTwice_reveals :
    (Mach.kilnGo timelessStep 16 (stepTimeListedTwice.m.begin_.when (stepTimeListedTwice.m.begin_.kn.phase == .start)
      Mach.hoursPass)).rd F.KN_STEPTIME_DUR 2 = 2 := by decide +kernel

/-- Refutes O13: its clause on step 3 asks KN_STEPTIME to show the step's time in every state. A step that takes no time leaves the reset
value; where the register file lists the step's time twice, so is not in canonical form, the second entry is read instead. -/
theorem not_resetAndKilnStartComplete : ¬ Obligations.ResetAndKilnStartComplete := by
  unfold Obligations.ResetAndKilnStartComplete
  rintro ⟨-, -, -, -, stepThreeTimed, -⟩
  obtain ⟨-, -, -, -, hTime⟩ := (stepThreeTimed stepTimeListedTwice timelessStep ⟨rfl, rfl, rfl, rfl, rfl⟩).after_body
    (f := fun m => Mach.kilnGo timelessStep 16 (m.when (m.kn.phase == .start) Mach.hoursPass)) rfl
  rw [Mach.rd_settle, stepTimeListedTwice_reveals] at hTime
  cases hTime

end Sys2Proof.Machine
end

section
/-!
PROOFS. The statements on what ends a start, on direct accesses of the flash, and on what the commit, flash and key commands leave
unchanged. The frame holds: each command's body stays within a mask of parts and registers (`Laws/Scope.lean`), and the masks fit what
the clauses list. The two statements of completion fail, each on a sound state in which a write of the register concerned waits: the
clauses speak of the value in force beside it.
-/

namespace Sys2Proof.Machine

/-! ### The frame of a command, from what its body stays within -/

theorem mask_and_or_left (a b : Nat) : a &&& (a ||| b) = a :=
  Nat.eq_of_testBit_eq fun i => by
    rw [Nat.testBit_and, Nat.testBit_or]
    cases a.testBit i <;> rfl

theorem mask_and_or_right (a b : Nat) : b &&& (a ||| b) = b := by
  rw [Nat.or_comm]
  exact mask_and_or_left b a

/-- The frame of an event, whose body stays within `K`. -/
theorem event_changes {c : Instr} {s t : State} {f : Mach → Mach} {K : Nat} {parts : List Part} {regs : List Reg}
    (hf : ∀ {T : Scope} {m : Mach}, m.Within T → T.allows K → (f m).Within T) (hc : exec c s = s.run f) (hm : maskFits K parts regs)
    (hs : s.Sound) (ht : exec c s = .next t) : Changes s.m t.m parts regs :=
  State.run_changes hs K (fun _ h => hf h (Nat.and_self K)) (hc.symm.trans ht) hm

/-- The frame of a write of the host to a register without bits that name a state, whose owner stays within `K`. -/
theorem write_changes {c : Instr} {s t : State} {k : RegKey} {w K : Nat} {parts : List Part} {regs : List Reg} (hk : k.r ≠ .GL_IDATA)
    (hl : ∀ x : Mach, x.levelBits k = 0)
    (ho : ∀ {T : Scope} {m : Mach}, m.Within T → T.allows K → (m.ownerWrite k w false).Within T)
    (hc : exec c s = s.run (·.hostWrite k w)) (hm : maskFits (hostMask ||| K) parts regs) (hs : s.Sound) (ht : exec c s = .next t) :
    Changes s.m t.m parts regs :=
  State.run_changes hs (hostMask ||| K)
    (fun _ h => Mach.hostWrite_within h (mask_and_or_left _ _) hk (.inr hl) w fun _ hx => ho hx (mask_and_or_right _ _)) (hc.symm.trans ht) hm

/-! ### The frames of the commit, flash and key commands -/

/-- R92: the sectors ahead of the kiln log are erased once the module runs. -/
theorem logSectorErase_changes {s t : State} (hs : s.Sound) (ht : exec .logSectorErase s = .next t) :
    Changes s.m t.m [.flash, .nv] [] :=
  event_changes (f := fun m => if m.clk.running && !m.nv.lost then m.lgMakeRoom else m)
    (fun h hT => Mach.ite_held _ (Mach.lgMakeRoom_held h hT) h) rfl rfl hs ht

/-- R129: whichever operation is late, of the rings, of a commit or of the host. -/
theorem Mach.flashTimeout_held {T : Scope} {m : Mach} (h : m.Within T) (hT : T.allows 0x800000000000028f00000000000000200001010)
    (late : FlashLate) :
    (if late.ring then m.ringTimeout else if m.nv.commit.isSome then m.commitTimeout late.again else m.accTimeout).Within T := by
  refine Mach.ite_held _ (Mach.ringTimeout_held h (hT.sub (by decide))) (Mach.ite_held _ ?_ ?_)
  · exact Mach.commitTimeout_held h (hT.sub (by decide)) _
  · exact Mach.accTimeout_held h (hT.sub (by decide))

/-- R126: a write of NV_ACC_CTRL with GO stores the register and begins the access it asks for. -/
theorem Mach.accWrite_held {T : Scope} {m : Mach} (h : m.Within T) (hT : T.allows 0x20000000000000000200000000) (w : Nat) :
    (m.ownerWrite ⟨.NV_ACC_CTRL, 0, 0⟩ w false).Within T :=
  Mach.when_held (Mach.store_held h _ (hT.sub (by decide)) w false) _ _ fun _ hx => Mach.accGo_held hx hT _

/-- R126: what a request for a direct access leaves unchanged. -/
theorem accWrite_changes {c : Instr} {s t : State} (w : Nat) (hc : exec c s = s.run (·.hostWrite ⟨.NV_ACC_CTRL, 0, 0⟩ w)) (hs : s.Sound)
    (ht : exec c s = .next t) :
    Changes s.m t.m [.rings, .nv, .hp] [.NV_ACC_CTRL, .Q_IRQ, .HP_ERR, .HP_LAST, .GL_STATUS] :=
  write_changes (by decide) (fun _ => rfl) (fun h hT => Mach.accWrite_held h hT w) hc rfl hs ht

/-- R115: a write of NV_KEY_CMD does at most one of the three key operations. -/
theorem Mach.keyWrite_held {T : Scope} {m : Mach} (h : m.Within T) (hT : T.allows 0x80000000000000000100000000) (w : Nat) :
    (m.ownerWrite ⟨.NV_KEY_CMD, 0, 0⟩ w false).Within T := by
  unfold Mach.ownerWrite
  refine Mach.ite_held _ h ?_
  split
  · exact Mach.keyProgram_held h hT _
  · exact Mach.keyRevoke_held h hT _
  · exact Mach.keyRequireSig_held h hT
  · exact h

/-- R115: what a key command leaves unchanged, whether it executes or not. -/
theorem keyWrite_changes {c : Instr} {s t : State} (w : Nat) (hc : exec c s = s.run (·.hostWrite ⟨.NV_KEY_CMD, 0, 0⟩ w)) (hs : s.Sound)
    (ht : exec c s = .next t) :
    Changes s.m t.m [.rings, .otp, .hp] [.NV_KEY_STAT, .Q_IRQ, .HP_ERR, .HP_LAST, .GL_STATUS] :=
  write_changes (by decide) (fun _ => rfl) (fun h hT => Mach.keyWrite_held h hT w) hc rfl hs ht

/-- R116: what a request for a commit leaves unchanged: `K` is what the commit it names stays within. -/
theorem commitWrite_changes {c : Instr} {s t : State} {w K : Nat} {parts : List Part} {regs : List Reg}
    (ho : ∀ {T : Scope} {m : Mach}, m.Within T → T.allows K → (m.ownerWrite ⟨.NV_COMMIT, 0, 0⟩ w false).Within T)
    (hc : exec c s = s.run (·.hostWrite ⟨.NV_COMMIT, 0, 0⟩ w)) (hm : maskFits (hostMask ||| K) parts regs) (hs : s.Sound)
    (ht : exec c s = .next t) : Changes s.m t.m parts regs :=
  write_changes (by decide) (fun _ => rfl) ho hc hm hs ht

/-- R116: a write of NV_COMMIT with START and KIND 3. -/
theorem Mach.ownerWrite_kind3 (m : Mach) : m.ownerWrite ⟨.NV_COMMIT, 0, 0⟩ 13 false = m.commitKind3 := by
  simp [Mach.ownerWrite, Mach.when, bitOf, bitsOf]

/-- Settles O53: each command's body stays within a mask (`Laws/Scope.lean`) that names no more than its clause lists, and what precedes
and follows every command changes only what `Changes` leaves open. -/
theorem flashFrame : Obligations.FlashFrame := by
  unfold Obligations.FlashFrame
  refine ⟨fun _ _ => logSectorErase_changes, ?image, ?overlay, ?cal, ?kind3, ?tie, ?opDone, ?timeout, ?autoCal, ?calDone,
    fun _ _ => accWrite_changes 4 rfl, fun _ _ => accWrite_changes 5 rfl, fun _ _ => accWrite_changes 6 rfl, fun _ _ => accWrite_changes 7 rfl,
    ?accDone, fun _ _ _ _ => keyWrite_changes _ rfl, fun _ _ _ _ => keyWrite_changes _ rfl, fun _ _ _ => keyWrite_changes _ rfl⟩
  case image => exact fun _ _ => commitWrite_changes (w := 1) Mach.commitImage_held rfl rfl
  case overlay => exact fun _ _ => commitWrite_changes (w := 5) Mach.commitOverlay_held rfl rfl
  case cal => exact fun _ _ => commitWrite_changes (w := 9) Mach.commitCal_held rfl rfl
  case kind3 => exact fun _ _ => commitWrite_changes (w := 13) (fun h hT => Mach.ownerWrite_kind3 _ ▸ Mach.commitKind3_held h hT) rfl rfl
  case tie => exact fun _ _ => commitWrite_changes (w := 2) Mach.tieAck_held rfl rfl
  case opDone => exact fun _ _ readOk => event_changes (fun h hT => Mach.commitOpDone_held h hT readOk) rfl rfl
  case timeout => exact fun _ _ late => event_changes (fun h hT => Mach.flashTimeout_held h hT late) rfl rfl
  case autoCal => exact fun _ _ => event_changes Mach.autoCal_held rfl rfl
  case calDone => exact fun _ _ readOk => event_changes (fun h hT => Mach.calDone_held h hT readOk) rfl rfl
  case accDone => exact fun _ _ => event_changes Mach.accDone_held rfl rfl

/-! ### A request for the next start and a write of KN_MEMO that waits -/

/-- A module in RUN without an open log record, where a write of KN_MEMO waits beside a value in force of zero. -/
def memoWaiting : State :=
  { pending := []
    m := { Mach.reset with
      clk.running := true, kn.phase := .run, kn.vauxGood := true
      staged := [{ key := ⟨.KN_MEMO, 0, 0⟩, force := 0, at_ := .nextTick, choice := 0, ready := false, seen := 0 }] } }

/-- It meets what the clause on DRAM_FAST without a log record asks, in a sound state. -/
theorem memoWaiting_meets : memoWaiting.Sound ∧ memoWaiting.m.Takes ⟨.KN_CTRL, 0, 0⟩ 4 ∧ memoWaiting.m.kn.log = none :=
  ⟨sound_of_regsWf rfl rfl rfl rfl, by
    unfold Mach.Takes
    decide +kernel, rfl⟩

/-- R95: the request goes into the last written value of KN_MEMO; the value in force beside the waiting write stays zero. -/
theorem memoWaiting_unshown : (memoWaiting.m.begin_.hostWrite ⟨.KN_CTRL, 0, 0⟩ 4).rd F.KN_MEMO_REQ = 0 := by decide +kernel

/-- Refutes O14: its clause on DRAM_FAST without an open log record asks the request to show in the value in force of KN_MEMO. The state
is sound, but holds a waiting write of KN_MEMO, whose writes take effect at once; the request goes into the last written value alone. -/
theorem not_startPhaseEventsComplete : ¬ Obligations.StartPhaseEventsComplete := by
  unfold Obligations.StartPhaseEventsComplete
  rintro ⟨-, -, dramFastRequests, -⟩
  obtain ⟨-, hTakes, hLog⟩ := memoWaiting_meets
  have hShown := (dramFastRequests memoWaiting ⟨hTakes, hLog⟩).after_body (f := fun m => m.hostWrite ⟨.KN_CTRL, 0, 0⟩ 4) rfl
  rw [Mach.rd_settle, memoWaiting_unshown] at hShown
  cases hShown

/-! ### A direct access and a write of NV_ACC_CTRL that waits -/

/-- A module in RUN whose NV_ACC_CTRL shows BUSY in its last written value only: a write of it waits beside a value in force of zero. -/
def accessWaiting : State :=
  { pending := []
    m := { Mach.reset with
      clk.running := true, kn.phase := .run, kn.vauxGood := true
      regs := [(⟨.NV_ACC_CTRL, 0, 0⟩, 2 ^ 8)]
      staged := [{ key := ⟨.NV_ACC_CTRL, 0, 0⟩, force := 0, at_ := .nextTick, choice := 0, ready := false, seen := 0 }] } }

/-- It meets what the clause on a read that is not refused asks, in a sound state. -/
theorem accessWaiting_meets : accessWaiting.Sound ∧ accessWaiting.m.Takes ⟨.NV_ACC_CTRL, 0, 0⟩ 4 ∧
    accessWaiting.m.accRefused 0 (accessWaiting.m.rd F.NV_ACC_ADDR_ADDR) = false :=
  ⟨sound_of_regsWf rfl rfl rfl (by decide +kernel), by
    unfold Mach.Takes
    decide +kernel, by decide +kernel⟩

/-- R491: the write drops the value in force before the access is judged, so BUSY refuses it. -/
theorem accessWaiting_refused : (accessWaiting.m.begin_.hostWrite ⟨.NV_ACC_CTRL, 0, 0⟩ 4).nv.acc = none := by decide +kernel

/-- Refutes O17: its clause on NV_ACC_READ judges BUSY by the value in force before the command. The state is sound, but holds a waiting
write of NV_ACC_CTRL, whose writes take effect at once; the write of GO drops the value in force, and BUSY as last written refuses. -/
theorem not_flashAccessCompletes : ¬ Obligations.FlashAccessCompletes := by
  unfold Obligations.FlashAccessCompletes
  rintro ⟨readStarts, -⟩
  obtain ⟨-, hTakes, hAccepted⟩ := accessWaiting_meets
  obtain ⟨-, hAccess⟩ := (readStarts accessWaiting ⟨hTakes, hAccepted⟩).after_body
    (f := fun m => m.hostWrite ⟨.NV_ACC_CTRL, 0, 0⟩ 4) rfl
  rw [Mach.settle_nv, accessWaiting_refused] at hAccess
  cases hAccess

end Sys2Proof.Machine
end

section
/-!
PROOFS. The configuration image: the CRC-32 of R107, the key store of R115, and the two statements on commits. Every command's body keeps
the stored data sound (`Laws/Scope.lean`), the key store among them, so what has been programmed stays. The statements on commits fail on
states whose register file lists a register twice, so is not in canonical form: a field that is cleared uncovers the second word.
-/

namespace Sys2Proof.Machine

/-! ### The CRC-32 of the image -/

/-- R107: bits are taken least significant first, so the polynomial stands reversed. -/
theorem crcPolynomial_reversed : (BitVec.reverse (0x04C11DB7 : BitVec 32)).toNat = 0xEDB88320 := by decide

/-- R107: the CRC register takes one step for each element of a list, whatever the elements are. -/
theorem crcSteps_eq_foldl (l : List Nat) : ∀ c : Nat, crcSteps l.length c =
    l.foldl (fun x _ => if x % 2 = 1 then x / 2 ^^^ (BitVec.reverse (0x04C11DB7 : BitVec 32)).toNat else x / 2) c := by
  rw [crcPolynomial_reversed]
  induction l with
  | nil => exact fun _ => rfl
  | cons _ rest ih => exact fun _ => ih _

/-- Settles O9: a byte enters by eight steps of the register, by induction on the steps. -/
theorem imageChecksumIsIeeeCrc : Obligations.ImageChecksumIsIeeeCrc := by
  unfold Obligations.ImageChecksumIsIeeeCrc
  exact ⟨by decide +kernel, fun _ => rfl, fun _ _ => crcSteps_eq_foldl (List.range 8) _⟩

/-! ### Every command keeps the stored data sound -/

/-- The mask of all parts and registers. -/
abbrev anyMask : Nat := 0x3fffffffffffffffffffffffffffffffffffffffffffffffffffffffffffffffffffffffffff0000003fffffffff

/-- What a command means: an operation that keeps the stored data sound, and what has been programmed into the key store, whatever it may
change. -/
def KeepsStored (meaning : State → Host.Outcome State Fault Refusal) : Prop :=
  ∃ f : Mach → Mach, (∀ s, meaning s = s.run f) ∧ ∀ {T : Scope} {m : Mach}, m.Within T → T.allows anyMask → (f m).Within T

namespace KeepsStored

theorem any {f : Mach → Mach} (hf : ∀ {T : Scope} {m : Mach}, m.Within T → T.allows anyMask → (f m).Within T) :
    KeepsStored fun s => s.run f := ⟨f, fun _ => rfl, hf⟩

/-- An operation with a mask of its own. -/
theorem event {f : Mach → Mach} {K : Nat} (hf : ∀ {T : Scope} {m : Mach}, m.Within T → T.allows K → (f m).Within T)
    (hK : K &&& anyMask = K := by rfl) : KeepsStored fun s => s.run f :=
  .any fun h hT => hf h (hT.sub hK)

/-- An operation under a condition on the module. -/
theorem guarded {f : Mach → Mach} {K : Nat} {p : Mach → Bool}
    (hf : ∀ {T : Scope} {m : Mach}, m.Within T → T.allows K → (f m).Within T)
    (hK : K &&& anyMask = K := by rfl) : KeepsStored fun s => s.run fun m => if p m then f m else m :=
  .any fun h hT => Mach.ite_held _ (hf h (hT.sub hK)) h

/-! Operations that several commands share. -/

theorem hostWrite (k : RegKey) (w : Nat) : KeepsStored fun s => s.run fun m => m.hostWrite k w := .event (Mach.hostWrite_held · · k w)

theorem hostRead (k : RegKey) : KeepsStored fun s => s.run fun m => m.hostRead k := .event (Mach.hostRead_held · · k)

theorem hostField (f : Fld) (i j v : Nat) : KeepsStored fun s => s.run fun m => m.hostField f i j v :=
  .event (Mach.hostField_held · · f i j v)

theorem hostBits (k : RegKey) (bits : Nat) : KeepsStored fun s => s.run fun m => m.hostBits k bits :=
  .event (Mach.hostBits_held · · k bits)

theorem queueWrite (k : RegKey) (w : Nat) : KeepsStored fun s => s.run fun m => m.abortsDue.hostWrite k w :=
  .any fun h hT => Mach.hostWrite_held (Mach.abortsDue_held h (hT.sub rfl)) (hT.sub rfl) k w

theorem queueRead (k : RegKey) : KeepsStored fun s => s.run fun m => m.abortsDue.hostRead k :=
  .any fun h hT => Mach.hostRead_held (Mach.abortsDue_held h (hT.sub rfl)) (hT.sub rfl) k

theorem aliasAt (a : Nat) (al : Alias) (v : Nat) : KeepsStored fun s => s.run fun m => m.abortsDue.aliasAt a al v :=
  .any fun h hT => Mach.aliasAt_held (Mach.abortsDue_held h (hT.sub rfl)) (hT.sub rfl) a al v

theorem hostRead32 (a : Nat) : KeepsStored fun s => s.run fun m => m.abortsDue.hostRead32 a :=
  .any fun h hT => Mach.hostRead32_held (Mach.abortsDue_held h (hT.sub rfl)) (hT.sub rfl) a

theorem hostWrite32 (a v : Nat) : KeepsStored fun s => s.run fun m => m.abortsDue.hostWrite32 a v :=
  .any fun h hT => Mach.hostWrite32_held (Mach.abortsDue_held h (hT.sub rfl)) (hT.sub rfl) a v

theorem frame (req cmd : Nat) (data : List Word) (bcast : Bool) :
    KeepsStored fun s => s.run fun m => m.abortsDue.frame req cmd data bcast :=
  .any fun h hT => Mach.frame_held (Mach.abortsDue_held h (hT.sub rfl)) (hT.sub rfl) req cmd data bcast

theorem discardFrame (cause : Nat) (bcast : Bool) : KeepsStored fun s => s.run fun m => m.discardFrame cause bcast :=
  .event (Mach.discardFrame_held · · cause bcast)

theorem command (q opc : Nat) (c : CmdArgs) : KeepsStored fun s => s.run fun m => m.command q opc c :=
  .event (Mach.command_held · · q opc c)

theorem checkUnit (u mech : Nat) : KeepsStored fun s => s.run fun m => m.checkUnit u mech := .event (Mach.checkUnit_held · · u mech)

end KeepsStored

/-- R24: a coil is computed; one in quiet mode also gives the resistance of its switches and is examined. -/
theorem keepsStored_coilCompute (k : Fin 96) (at_ : CoilAt) : KeepsStored (execCoilCompute k at_) := by
  unfold execCoilCompute
  refine .any fun h hT => Mach.ite_held _ h ?_
  have hComputed := Mach.coilCompute_held h (hT.sub rfl) k.val at_.tph.toNat
  split
  · exact Mach.winExamine_held (Mach.patRon_held hComputed (hT.sub rfl) _ _ _) (hT.sub rfl) _ _ _ _
  · exact hComputed

/-- R272: a period of a channel begins. -/
theorem keepsStored_pwmPeriodStart (k : Fin 96) (vm : BitVec 16) : KeepsStored (execPwmPeriodStart k vm) := by
  unfold execPwmPeriodStart
  refine .any fun {_ m} h hT => ?_
  have hGuard := Mach.when_held h (!(m.coil k.val).fresh && !isCoilB k.val) (fun m => m.guardStep (k.val / 2) (m.periodOf (k.val / 24)) 0)
    fun _ hx => Mach.guardStep_held hx (hT.sub rfl) _ _ _
  have hMeas := Mach.wr_held (Mach.stPeriod_held hGuard (hT.sub rfl) k.val) F.PW_VM_MEAS_VM (hT.sub rfl) vm.toNat (k.val / 24) 0
  have hStart := Mach.periodStart_held hMeas (hT.sub rfl) k.val
  exact Mach.ite_held _ (Mach.scanGo_held hStart (hT.sub rfl) _ _) hStart

/-- A change of the TAP alone. -/
theorem Mach.withTap_held {T : Scope} {m : Mach} (h : m.Within T) (hT : T.allows anyMask) (t : Tap) : (m.withTap t).Within T := by
  refine Mach.held_upd (b := m) ?_ h
  constructor
  case tap => exact .inr (hT.has rfl)
  all_goals first | rfl | exact .inl rfl

/-- R68: a test instruction comes into force by itself. -/
theorem keepsStored_tapTestInstruction (code : Fin 3) : KeepsStored (execTapTestInstruction code) := by
  unfold execTapTestInstruction
  exact .any fun h hT => Mach.ite_held _ (Mach.tapTest_held (Mach.withTap_held h hT _) (hT.sub rfl)) h

/-- R68: a clock of the TAP, at which a test instruction may come into force. -/
theorem keepsStored_tckEdge (trst tms tdi : Bool) (pins : BitVec 201) : KeepsStored (execTckEdge trst tms tdi pins) := by
  unfold execTckEdge
  exact .any fun h hT => Mach.ite_held _ (Mach.when_held (Mach.withTap_held h hT _) _ _ fun _ hx =>
    Mach.tapTest_held hx (hT.sub rfl)) h

/-- R19: a tick boundary: ports, the expander's excitation and the crystal are seen, and the tick begins. -/
theorem keepsStored_tick (lv : TickInputs) : KeepsStored (execTick lv) := by
  unfold execTick
  refine .any fun h hT => ?_
  have hSeen := Mach.xtalSeen_held (Mach.exSensed_held (Mach.takePorts_held h (hT.sub rfl) lv) (hT.sub rfl) lv.sensed) (hT.sub rfl) lv.xtal
  exact Mach.step16Check_held (Mach.tickNow_held hSeen (hT.sub rfl) _) (hT.sub rfl)

/-- R477: a write frame to all modules. -/
theorem keepsStored_broadcastFrame (req : Word) (data : List Word) : KeepsStored (execBroadcastFrame req data) := by
  unfold execBroadcastFrame
  exact .any fun h hT => Mach.ite_held _ (Mach.discardFrame_held h (hT.sub rfl) _ _)
    (Mach.frame_held (Mach.abortsDue_held h (hT.sub rfl)) (hT.sub rfl) _ _ _ _)

/-- Every command's body keeps the stored data sound. The commands of one kind of host access share a line. -/
theorem keepsStored (c : Instr) : KeepsStored (exec c) := by
  cases c
  case resumeBank | restartCmd | dramFast | homeReset | commitImage | commitOverlay | commitCal | commitKind3 | tieAck | nvAccRead |
    nvAccProgram | nvAccErase4k | nvAccErase64k | keyProgram | keyRevoke | keyRequireSig | axCtrlEnable | axCtrlDisable |
    axCtrlEstop | axCtrlMaqEnter | axCtrlMaqExit | axRetgt | limLatchClear | grMemb | grStop | bfaultClear | pwPeriod | pwChOfs |
    pwSafe | dbgHalt | dbgHaltEnd | tripClear | csInjGo | csPchkGo | resync | peakClr | armPort | disarmPort | portFaultClear |
    fbFollowEngage | sfExCfg | sfCrosspointWrite | tdacHold | sfChkGo | calZero | calFullScale | sfRepHost | fmInject | clrLimits |
    stTrig | stArm | stDisarm | stRelease | stReleaseAll | stRegion | stSel | hpClr | iaddrWrite | lockSet =>
    exact .hostWrite _ _
  case qPush | qPushDb | publish | discard | qMdb | pause | qResume | flush | qRtnStart | qAbort | qAbortX | qCplRdWrite |
    qEvtRdWrite | idataWrite =>
    exact .queueWrite _ _
  case moveAbs | moveRel | velCmd | stopCmd | holdCmd | homeCmd | setPos | enableCmd | disableCmd | groupMove | gearCmd | camCmd |
    tensionTrim | waitInput | waitTime | waitQueue | waitPos | setParam | setOutput | jumpCmd | callCmd | returnCmd | loopCmd |
    signalCmd | endCmd | strataMark | nopCmd =>
    exact .command _ _ _
  case stagUserChange | fbMode | fbFollowDisengage | stEn => exact .hostField _ _ _ _
  case scanGo | scanStop | auxGo | auxStop | calCancel =>
    exact .hostBits _ _
  case csScanPop | sfQPop => exact .hostRead _
  case qCplPop | qEvtPop | idataRead => exact .queueRead _
  case aliasSet | aliasClr | aliasTgl | registerWrite => exact .aliasAt _ _ _
  case vholdLow => exact (.event Mach.alwaysOnLost_held : KeepsStored execVholdLow)
  case vmUvRecover => exact (.event (Mach.vmRecovered_held · · _) : KeepsStored (execVmUvRecover _))
  case vmResumeRampEnd => exact (.event (Mach.vmRampEnd_held · · _) : KeepsStored (execVmResumeRampEnd _))
  case vmOvClamp => exact (.event (Mach.clampOn_held · · _ _) : KeepsStored (execVmOvClamp _ _))
  case vmOvRelease => exact (.event (Mach.clampOff_held · · _ _) : KeepsStored (execVmOvRelease _ _))
  case vmOvTimeout => exact (.event (Mach.clampTimeout_held · · _ _) : KeepsStored (execVmOvTimeout _ _))
  case step16Complete => exact (.event Mach.step16Check_held : KeepsStored execStep16Complete)
  case commitFlashOpDone => exact (.event (Mach.commitOpDone_held · · _) : KeepsStored (execCommitFlashOpDone _))
  case autoCalWrite => exact (.event Mach.autoCal_held : KeepsStored execAutoCalWrite)
  case calWriteDone => exact (.event (Mach.calDone_held · · _) : KeepsStored (execCalWriteDone _))
  case nvAccDone => exact (.event Mach.accDone_held : KeepsStored execNvAccDone)
  case armingComplete => exact (.event (Mach.armingDone_held · · _ _ _) : KeepsStored (execArmingComplete _ _))
  case standstillRamp => exact (.event (Mach.stillRamp_held · · _) : KeepsStored (execStandstillRamp _))
  case limitActive => exact (.event (Mach.limitActive_held · · _ _) : KeepsStored (execLimitActive _ _))
  case homeReference => exact (.event (Mach.homeRef_held · · _ _) : KeepsStored (execHomeReference _ _))
  case outputPulseEnd => exact (.event (Mach.pulseEnd_held · · _) : KeepsStored (execOutputPulseEnd _))
  case regMark => exact (.event (Mach.regMark_held · · _ _) : KeepsStored (execRegMark _ _))
  case peakTrip => exact (.event (Mach.peakTrip_held · · _ _) : KeepsStored (execPeakTrip _ _))
  case shortCircuit => exact (.event (Mach.shortCircuit_held · · _ _) : KeepsStored (execShortCircuit _ _))
  case gateUv => exact (.event (Mach.gateLow_held · · _) : KeepsStored (execGateUv _))
  case safeCopyCheck => exact (.event (Mach.safeCheck_held · · _ _) : KeepsStored (execSafeCopyCheck _ _))
  case clockStop => exact (.event (Mach.clockStop_held · · _) : KeepsStored (execClockStop _))
  case clockStopEnd => exact (.event (Mach.clockStopEnd_held · · _) : KeepsStored (execClockStopEnd _))
  case tripInput => exact (.event (Mach.tripLevels_held · · _ _) : KeepsStored (execTripInput _ _))
  case tripDisc => exact (.event Mach.tripDisc_held : KeepsStored execTripDisc)
  case syncDrive => exact (.event Mach.syncDrive_held : KeepsStored execSyncDrive)
  case syncEdge => exact (.event (Mach.syncEdge_held · · _) : KeepsStored (execSyncEdge _))
  case syncLost => exact (.event Mach.syncLost_held : KeepsStored execSyncLost)
  case sampleHold => exact (.event (Mach.sampleHold_held · · _ _) : KeepsStored (execSampleHold _ _))
  case sampleDelivered => exact (.event (Mach.sampleDelivered_held · · _ _ _ _) : KeepsStored (execSampleDelivered _ _ _ _))
  case shadowBlockEnd => exact (.event (Mach.shadowBlock_held · · _ _ _) : KeepsStored (execShadowBlockEnd _ _ _))
  case spareRecal => exact (.event (Mach.spareRecal_held · · _ _ _ _) : KeepsStored (execSpareRecal _ _ _ _))
  case injResult => exact (.event (Mach.injResult_held · · _ _ _) : KeepsStored (execInjResult _ _ _))
  case scanResult => exact (.event (Mach.scanResult_held · · _ _ _ _) : KeepsStored (execScanResult _ _ _ _))
  case csTrigFire => exact (.event (Mach.trigFire_held · · _ _) : KeepsStored (execCsTrigFire _ _))
  case pchkDone => exact (.event (Mach.pchkFinish_held · · _ _ _) : KeepsStored (execPchkDone _ _ _))
  case retryResume => exact (.event (Mach.retryResume_held · · _) : KeepsStored (execRetryResume _))
  case quadEdge => exact (.event (Mach.quadEdge_held · · _ _ _ _ _) : KeepsStored (execQuadEdge _ _ _ _))
  case hallChange => exact (.event (Mach.hallChange_held · · _ _ _) : KeepsStored (execHallChange _ _ _))
  case stepEdge => exact (.event (Mach.stepEdge_held · · _ _ _ _) : KeepsStored (execStepEdge _ _ _ _))
  case indexEdge => exact (.event (Mach.indexEdge_held · · _) : KeepsStored (execIndexEdge _))
  case speedTimeout => exact (.event (Mach.speedTimeout_held · · _) : KeepsStored (execSpeedTimeout _))
  case serialRead => exact (.event (Mach.serialRead_held · · _) : KeepsStored (execSerialRead _))
  case serialWord => exact (.event (Mach.serialWord_held · · _ _ _ _ _ _) : KeepsStored (execSerialWord _ _ _ _ _ _))
  case auxResult => exact (.event (Mach.auxResult_held · · _ _ _) : KeepsStored (execAuxResult _ _ _))
  case exFault => exact (.event (Mach.exFault_held · · _ _) : KeepsStored (execExFault _ _))
  case sfChkDone => exact (.event (Mach.chkDone_held · · _ _) : KeepsStored (execSfChkDone _ _))
  case calTimeout => exact (.event Mach.calTimeout_held : KeepsStored execCalTimeout)
  case repPeriodEnd => exact (.event (Mach.repPeriodEnd_held · · _) : KeepsStored (execRepPeriodEnd _))
  case unitFault | pllFail => exact .checkUnit _ _
  case auditMismatch => exact (.event (Mach.auditMismatch_held · · _ _ _) : KeepsStored (execAuditMismatch _ _ _))
  case takeoverComplete => exact (.event (Mach.tkoDone_held · · _ _ _) : KeepsStored (execTakeoverComplete _ _ _))
  case refFail => exact (.event (Mach.unitFault_held · · _ _) : KeepsStored execRefFail)
  case eccCorrectable => exact (.event (Mach.eccCorr_held · · _ _ _ _) : KeepsStored (execEccCorrectable _ _ _ _))
  case eccUncorrectable => exact (.event (Mach.eccUncorr_held · · _ _) : KeepsStored (execEccUncorrectable _ _))
  case eccRestore => exact (.event (Mach.eccRestore_held · · _) : KeepsStored (execEccRestore _))
  case scrub => exact (.event (Mach.scrub_held · · _ _) : KeepsStored (execScrub _ _))
  case faultLine => exact (.event (Mach.faultLine_held · · _) : KeepsStored (execFaultLine _))
  case ledgerInterval => exact (.event (Mach.ledger_held · · _) : KeepsStored (execLedgerInterval _))
  case thermalFault => exact (.event (Mach.thermalFault_held · · _) : KeepsStored (execThermalFault _))
  case patinaRecordWritten => exact (.event (Mach.patWritten_held · · _) : KeepsStored (execPatinaRecordWritten _))
  case strataTrigger => exact (.event Mach.stTrigger_held : KeepsStored execStrataTrigger)
  case strataFreeze => exact (.event Mach.stDrained_held : KeepsStored execStrataFreeze)
  case frameDiscard | frameTimeout => exact .discardFrame _ _
  case laneReset => exact (.event Mach.laneReset_held : KeepsStored execLaneReset)
  case genChange => exact (.event Mach.genTake_held : KeepsStored execGenChange)
  case prefetchDone => exact (.event Mach.prefetchDone_held : KeepsStored execPrefetchDone)
  case vholdCharged => exact (.any fun h hT => Mach.modKn_held h (hT.sub rfl) _ : KeepsStored execVholdCharged)
  case gateUvRecover => exact (.event (Mach.gateGood_held · · _) : KeepsStored (execGateUvRecover _))
  case exFaultClear => exact (.event (Mach.exFaultClear_held · · _) : KeepsStored (execExFaultClear _))
  case tick => exact keepsStored_tick _
  case coilCompute => exact keepsStored_coilCompute _ _
  case pwmPeriodStart => exact keepsStored_pwmPeriodStart _ _
  case tapTestInstruction => exact keepsStored_tapTestInstruction _
  case tckEdge => exact keepsStored_tckEdge _ _ _ _
  case broadcastFrame => exact keepsStored_broadcastFrame _ _
  case vauxGood =>
    exact (.any fun h hT => Mach.vauxRise_held (Mach.hoursPass_held h (hT.sub rfl)) (hT.sub rfl) _ _ _ _ : KeepsStored (execVauxGood _ _ _))
  case vauxLost =>
    exact (.any fun h hT => Mach.vauxFall_held (Mach.hoursPass_held h (hT.sub rfl)) (hT.sub rfl) _ _ : KeepsStored (execVauxLost _ _))
  case lastGaspEnd =>
    exact (.any fun h hT => Mach.gaspEnd_held (Mach.hoursPass_held h (hT.sub rfl)) (hT.sub rfl) : KeepsStored execLastGaspEnd)
  case resetIn => exact (.any fun h hT => Mach.resetLow_held (Mach.hoursPass_held h (hT.sub rfl)) (hT.sub rfl) : KeepsStored execResetIn)
  case resetNRise =>
    exact (.any fun h hT => Mach.resetRise_held (Mach.hoursPass_held h (hT.sub rfl)) (hT.sub rfl) _ _ : KeepsStored (execResetNRise _ _))
  case internalSuppliesOff =>
    exact (.any fun h hT => Mach.suppliesOff_held (Mach.hoursPass_held h (hT.sub rfl)) (hT.sub rfl) : KeepsStored execInternalSuppliesOff)
  case hpRead | hpWrite | hpNop => exact .frame _ _ _ _
  case maskedWrite =>
    exact (.any fun h hT => Mach.compactWrite_held (Mach.abortsDue_held h (hT.sub rfl)) (hT.sub rfl) _ _ _ :
      KeepsStored (execMaskedWrite _ _ _))
  case wideWord0Read | wideWordRead => exact .hostRead32 _
  case wideWordStage | wideWord0Write => exact .hostWrite32 _ _
  case routineFetch =>
    exact (.any fun h hT => Mach.routineFetch_held (Mach.abortsDue_held h (hT.sub rfl)) (hT.sub rfl) _ _ :
      KeepsStored (execRoutineFetch _ _))
  case abortInput =>
    exact (.any fun h hT => Mach.abortInput_held (Mach.abortsDue_held h (hT.sub rfl)) (hT.sub rfl) _ : KeepsStored (execAbortInput _))
  case axSlim =>
    exact (.any fun h hT => Mach.hostField_held (Mach.hostWrite_held h (hT.sub rfl) _ _) (hT.sub rfl) _ _ _ _ :
      KeepsStored (execAxSlim _ _ _))
  case queueDispatch => exact (.event Mach.queueDispatch_held : KeepsStored execQueueDispatch)
  case flashTimeout => exact (.event (Mach.flashTimeout_held · · _) : KeepsStored (execFlashTimeout _))
  case logSectorErase => exact (.guarded Mach.lgMakeRoom_held : KeepsStored execLogSectorErase)
  case axisSlot => exact (.guarded (Mach.engineSlot_held · · _ _) : KeepsStored (execAxisSlot _ _))
  case patinaPass => exact (.guarded (Mach.patinaPass_held · · _) : KeepsStored (execPatinaPass _))
  case patinaLogMinute => exact (.guarded Mach.patMinute_held : KeepsStored execPatinaLogMinute)
  case lgProgramDone =>
    exact (.any fun h hT => Mach.ite_held _ (Mach.gaspProgram_held (Mach.hoursPass_held h (hT.sub rfl)) (hT.sub rfl)) h :
      KeepsStored execLgProgramDone)
  case kilnStepTimeout =>
    exact (.any fun h hT => Mach.ite_held _ (Mach.kilnFail_held (Mach.hoursPass_held h (hT.sub rfl)) (hT.sub rfl) _ _ _) h :
      KeepsStored execKilnStepTimeout)
  case kilnRestart =>
    exact (.any fun h hT => Mach.ite_held _
      (Mach.startBegin_held (Mach.wipeSoft_held (Mach.hoursPass_held h (hT.sub rfl)) (hT.sub rfl)) (hT.sub rfl) _) h :
      KeepsStored execKilnRestart)
  case kilnStart =>
    exact (.any fun h hT => Mach.kilnGo_held (hT.sub rfl) _ _ (Mach.when_held h _ _ fun _ hx => Mach.hoursPass_held hx (hT.sub rfl)) :
      KeepsStored (execKilnStart _))
  case vioOverload => exact (.any fun h hT => Mach.ite_held _ h (Mach.vioOverload_held h (hT.sub rfl) _) : KeepsStored (execVioOverload _))
  case vmUv =>
    exact (.any fun h hT => Mach.ite_held _ (Mach.gaspUv_held h (hT.sub rfl) _) (Mach.vmUv_held h (hT.sub rfl) _ _) :
      KeepsStored (execVmUv _ _))
  case waitTimeout =>
    exact (.any fun h hT => Mach.retireDue_held (Mach.waitStep_held (Mach.abortsDue_held h (hT.sub rfl)) (hT.sub rfl) _ _) (hT.sub rfl) _ :
      KeepsStored (execWaitTimeout _))
  case axHarmData n isWrite v =>
    exact (.any fun h hT => Mach.ite_held _ (Mach.hostWrite_held h (hT.sub rfl) _ _) (Mach.hostRead_held h (hT.sub rfl) _) :
      KeepsStored (execAxHarmData n isWrite v))
  case passNow =>
    exact (.any fun h hT => Mach.ite_held _ (Mach.patinaPass_held h (hT.sub rfl) _) (Mach.hpError_held h (hT.sub rfl) _ _ _ _) :
      KeepsStored (execPassNow _))

/-- What has been stored stays sound over a step, relative to the key store before it. -/
theorem step_keepsStored {s t : State} (hs : s.Sound) (ht : step s = .next t) : t.m.Sound s.m.otp := by
  unfold step at ht
  split at ht
  · obtain rfl := Host.Outcome.next.inj ht
    exact hs
  · rename_i c rest _
    obtain ⟨f, hc, hf⟩ := keepsStored c
    rw [hc] at ht
    obtain rfl := Host.Outcome.next.inj ht
    have hBegin : s.m.begin_.Within ⟨s.m.otp, s.m.begin_, anyMask⟩ := .start (m := s.m.begin_) ⟨hs.stored⟩ _
    have hAny : Scope.allows ⟨s.m.otp, s.m.begin_, anyMask⟩ anyMask := Nat.and_self _
    exact (Mach.settle_held (hf hBegin hAny) (hAny.sub rfl) _).sound

/-! ### A bit that stays visible -/

/-- The one-bit field `f` reads set, in the value in force beside a staged write or in a word that the register file lists; so it still
does when another register is set, in a register file of any form. -/
structure Mach.ShowsBit (m : Mach) (f : Fld) : Prop where
  staged : ∀ s, m.staged.find? (fun s => s.key == (⟨f.reg, 0, 0⟩ : RegKey)) = some s → bitsOf s.force.toNat f.lo f.width = 1
  listed : m.staged.find? (fun s => s.key == (⟨f.reg, 0, 0⟩ : RegKey)) = none →
    ∃ w, regEntry m.regs ⟨f.reg, 0, 0⟩ = some w ∧ bitsOf w.toNat f.lo f.width = 1

theorem Mach.ShowsBit.rb {m : Mach} {f : Fld} (h : m.ShowsBit f) : m.rb f = true := by
  rw [Mach.rb, Mach.rd, beq_iff_eq]
  cases hs : m.staged.find? (fun s => s.key == (⟨f.reg, 0, 0⟩ : RegKey)) with
  | some s =>
    rw [Mach.force_of_staged hs]
    exact h.staged s hs
  | none =>
    obtain ⟨w, hw, hb⟩ := h.listed hs
    rw [Mach.force_of_unstaged hs, Mach.reg, regGet_of_entry hw, hb]

/-- A bit that is set reads one. -/
theorem bitsOf_putBits_one (x lo : Nat) {w : Nat} (hw : w = 1) : bitsOf (putBits x lo w 1) lo w = 1 := by
  subst hw
  exact bitsOf_putBits_same x lo 1 1

/-- Setting a bit that is clear at reset shows it. -/
theorem Mach.showsBit_setBit (m : Mach) {f : Fld} (hf : f.lo + f.width ≤ 128) (hw : f.width = 1)
    (hReset : bitsOf (RegKey.resetVal ⟨f.reg, 0, 0⟩).toNat f.lo f.width = 0) : (m.setBit f).ShowsBit f := by
  have put : ∀ x < 2 ^ 128, bitsOf (BitVec.ofNat 128 (putBits x f.lo f.width 1)).toNat f.lo f.width = 1 := fun x hx => by
    rw [BitVec.toNat_ofNat, Nat.mod_eq_of_lt (putBits_lt hx hf)]
    exact bitsOf_putBits_one x f.lo hw
  have hStaged := m.staged_wr_same f 1 0 0
  refine ⟨fun s h => ?_, fun _ => ⟨_, regEntry_regSet_same _ fun e => ?_, put _ (m.reg_lt _ _ _)⟩⟩
  · obtain ⟨s', -, rfl⟩ := Option.map_eq_some_iff.mp (hStaged.symm.trans h)
    exact put _ s'.force.isLt
  · have hSet := put _ (m.reg_lt f.reg 0 0)
    rw [e, hReset] at hSet
    cases hSet

/-- R490: the end of a frame records locks, and clears HP_ERR where that is due. -/
theorem Mach.writesDone_eq (m : Mach) (bits : Nat) : ∃ hp,
    m.writesDone bits = { m with hp := hp } ∨ m.writesDone bits = ({ m with hp := hp } : Mach).setReg .HP_ERR 0 0 0 := by
  unfold Mach.writesDone Mach.recordLocks
  dsimp only
  split <;> split
  · exact ⟨_, .inr rfl⟩
  · exact ⟨_, .inl rfl⟩
  · exact ⟨_, .inr rfl⟩
  · exact ⟨_, .inl rfl⟩

@[simp] theorem Mach.writesDone_otp (m : Mach) (bits : Nat) : (m.writesDone bits).otp = m.otp := by
  obtain ⟨hp, e | e⟩ := m.writesDone_eq bits <;> rw [e]
  rfl

theorem Mach.ShowsBit.writesDone {m : Mach} {f : Fld} (h : m.ShowsBit f) (hr : f.reg ≠ .HP_ERR) (bits : Nat) :
    (m.writesDone bits).ShowsBit f := by
  obtain ⟨hp, e | e⟩ := m.writesDone_eq bits <;> rw [e]
  · exact ⟨h.staged, h.listed⟩
  · refine ⟨h.staged, fun hs => ?_⟩
    obtain ⟨w, hw, hb⟩ := h.listed hs
    exact ⟨w, regEntry_regSet_other _ (RegKey.ne_of_reg hr.symm) hw, hb⟩

/-! ### The key operations -/

theorem Mach.keyAllowed_iff {m : Mach} : m.keyAllowed = true ↔ m.kn.phase = .hold ∨ (m.kn.phase = .run ∧ m.allOff = true) := by
  simp [Mach.keyAllowed]

@[simp] theorem Mach.keyShow_otp (m : Mach) : m.keyShow.otp = m.otp := rfl

/-- R115: what NV_KEY_DATA holds, as one number. -/
def Mach.keyData (m : Mach) : Nat := ((List.range 8).map fun i => m.rd F.NV_KEY_DATA_HASH i * 2 ^ (32 * i)).sum

/-- Words of 32 bits, the first the lowest, make a number of as many bits. -/
theorem sum_words_lt {d : Nat → Nat} (hd : ∀ i, d i < 2 ^ 32) (n : Nat) :
    ((List.range n).map fun i => d i * 2 ^ (32 * i)).sum < 2 ^ (32 * n) := by
  induction n with
  | zero => exact Nat.one_pos
  | succ n ih =>
    have hTop : (d n + 1) * 2 ^ (32 * n) ≤ 2 ^ 32 * 2 ^ (32 * n) := Nat.mul_le_mul_right _ (hd n)
    have hPow : 2 ^ (32 * (n + 1)) = 2 ^ 32 * 2 ^ (32 * n) := by rw [← Nat.pow_add, Nat.mul_succ, Nat.add_comm]
    rw [List.range_succ, List.map_append, List.sum_append, List.map_singleton, List.sum_singleton, hPow]
    calc _ < 2 ^ (32 * n) + d n * 2 ^ (32 * n) := Nat.add_lt_add_right ih _
      _ = (d n + 1) * 2 ^ (32 * n) := (Nat.add_comm _ _).trans (Nat.succ_mul (d n) _).symm
      _ ≤ _ := hTop

theorem Mach.keyData_lt (m : Mach) : m.keyData < 2 ^ 256 :=
  sum_words_lt (fun _ => Nat.mod_lt _ (Nat.two_pow_pos 32)) 8

/-- The key store with a slot programmed. -/
def Otp.programmed (o : Otp) (slot h : Nat) : Otp := { o with hashes := vmod o.hashes slot fun _ => some h }

theorem Otp.programmed_hash (o : Otp) {slot : Nat} (h : Nat) (hs : slot < 4) : vget none (o.programmed slot h).hashes slot = some h :=
  vget_vmod_same _ _ _ _ hs

/-- R115: a key operation that does not execute. -/
theorem Mach.showsBit_keyFail (m : Mach) : (m.setBit F.NV_KEY_STAT_FAIL).ShowsBit F.NV_KEY_STAT_FAIL :=
  m.showsBit_setBit (by decide) rfl (by decide)

/-- R115: a key operation that has executed. -/
theorem Mach.showsBit_keyDone (m : Mach) : (m.setBit F.NV_KEY_STAT_DONE).ShowsBit F.NV_KEY_STAT_DONE :=
  m.showsBit_setBit (by decide) rfl (by decide)

theorem Mach.keyProgram_refused {m : Mach} {slot : Nat} (h : m.keyAllowed = false ∨ (vget none m.otp.hashes slot).isSome = true) :
    m.keyProgram slot = m.setBit F.NV_KEY_STAT_FAIL :=
  if_pos (by rcases h with h | h <;> simp [h])

theorem Mach.keyProgram_taken {m : Mach} {slot : Nat} (h : m.keyAllowed = true) (hn : vget none m.otp.hashes slot = none) :
    m.keyProgram slot = ({ m with otp := m.otp.programmed slot m.keyData } : Mach).keyShow.setBit F.NV_KEY_STAT_DONE :=
  if_neg (by simp [h, hn])

theorem Mach.keyRevoke_refused {m : Mach} (slot : Nat) (h : m.keyAllowed = false) : m.keyRevoke slot = m.setBit F.NV_KEY_STAT_FAIL :=
  if_pos (by simp [h])

theorem Mach.keyRevoke_taken {m : Mach} (slot : Nat) (h : m.keyAllowed = true) : m.keyRevoke slot =
    ({ m with otp := { m.otp with revoked := m.otp.revoked ||| 2 ^ slot } } : Mach).keyShow.setBit F.NV_KEY_STAT_DONE :=
  if_neg (by simp [h])

theorem Mach.keyRequireSig_refused {m : Mach} (h : m.keyAllowed = false) : m.keyRequireSig = m.setBit F.NV_KEY_STAT_FAIL :=
  if_pos (by simp [h])

theorem Mach.keyRequireSig_taken {m : Mach} (h : m.keyAllowed = true) : m.keyRequireSig =
    ({ m with otp := { m.otp with reqSig := true } } : Mach).keyShow.setBit F.NV_KEY_STAT_DONE :=
  if_neg (by simp [h])

/-! ### The key commands -/

/-- R115: the fields of a word written to NV_KEY_CMD. -/
theorem bitsOf_keyWord {slot op guard : Nat} (hs : slot < 4) (ho : op < 4) (hg : guard < 2 ^ 8) :
    bitsOf (slot + 4 * op + guard * 2 ^ 8) 0 2 = slot ∧ bitsOf (slot + 4 * op + guard * 2 ^ 8) 2 2 = op ∧
      bitsOf (slot + 4 * op + guard * 2 ^ 8) 8 8 = guard := by
  unfold bitsOf
  omega

theorem Mach.ownerWrite_keyProgram (m : Mach) (slot : Fin 4) :
    m.ownerWrite ⟨.NV_KEY_CMD, 0, 0⟩ (slot.val + 4 + 0xA5 * 2 ^ 8) false = m.keyProgram slot.val := by
  obtain ⟨hSlot, hOp, hGuard⟩ := bitsOf_keyWord (op := 1) (guard := 0xA5) slot.isLt (by decide) (by decide)
  simp only [Mach.ownerWrite, hSlot, hOp, hGuard, ne_eq, not_true_eq_false, if_false]

theorem Mach.ownerWrite_keyRevoke (m : Mach) (slot : Fin 4) :
    m.ownerWrite ⟨.NV_KEY_CMD, 0, 0⟩ (slot.val + 8 + 0xA5 * 2 ^ 8) false = m.keyRevoke slot.val := by
  obtain ⟨hSlot, hOp, hGuard⟩ := bitsOf_keyWord (op := 2) (guard := 0xA5) slot.isLt (by decide) (by decide)
  simp only [Mach.ownerWrite, hSlot, hOp, hGuard, ne_eq, not_true_eq_false, if_false]

theorem Mach.ownerWrite_keyRequireSig (m : Mach) :
    m.ownerWrite ⟨.NV_KEY_CMD, 0, 0⟩ (12 + 0xA5 * 2 ^ 8) false = m.keyRequireSig := rfl

/-- R115: without the guard value a write of NV_KEY_CMD does nothing. -/
theorem Mach.ownerWrite_keyUnguarded (m : Mach) {slot op : Nat} (hs : slot < 4) (ho : op < 4) {guard : BitVec 8} (hg : guard ≠ 0xA5) :
    m.ownerWrite ⟨.NV_KEY_CMD, 0, 0⟩ (slot + 4 * op + guard.toNat * 2 ^ 8) false = m := by
  obtain ⟨-, -, hGuard⟩ := bitsOf_keyWord hs ho guard.isLt
  exact if_pos fun e => hg (BitVec.eq_of_toNat_eq (hGuard.symm.trans e))

/-- A write of NV_KEY_CMD that is taken does what its owner does, and ends the frame. -/
theorem Mach.hostWrite_keyCmd {m : Mach} {w : Nat} (h : m.Takes ⟨.NV_KEY_CMD, 0, 0⟩ w) :
    m.hostWrite ⟨.NV_KEY_CMD, 0, 0⟩ w = (m.ownerWrite ⟨.NV_KEY_CMD, 0, 0⟩ w false).writesDone m.lockBits := by
  obtain ⟨hAnswers, hLocks⟩ := h
  rw [Mach.hostWrite_answers (by decide) hAnswers hLocks, Mach.levelsHold_none rfl]

/-- A key command completes with the key store that its write of NV_KEY_CMD leaves, and with the bits of NV_KEY_STAT that it shows. -/
theorem Completes.of_keyWrite {c : Instr} {s : State} {w : Nat} {m : Mach} {P : Mach → Prop}
    (hc : exec c s = s.run (·.hostWrite ⟨.NV_KEY_CMD, 0, 0⟩ w)) (ht : s.m.Takes ⟨.NV_KEY_CMD, 0, 0⟩ w)
    (ho : s.m.begin_.ownerWrite ⟨.NV_KEY_CMD, 0, 0⟩ w false = m)
    (hP : ∀ t : Mach, t.otp = m.otp → (∀ f, f.reg = .NV_KEY_STAT → m.ShowsBit f → t.rb f = true) → P t) : Completes c s P := by
  have ht' : s.m.begin_.Takes ⟨.NV_KEY_CMD, 0, 0⟩ w := ht
  refine .of_body hc (Mach.hostWrite_keyCmd ht') (hP _ ?_ fun f hf hb => ?_)
  · rw [Mach.settle_otp, Mach.writesDone_otp, ho]
  · rw [Mach.rb_settle, ho]
    exact (hb.writesDone (by simp [hf]) _).rb

/-- R115: a key command that fails shows FAIL and leaves the key store. -/
theorem Completes.of_keyFail {c : Instr} {s : State} {w : Nat} (hc : exec c s = s.run (·.hostWrite ⟨.NV_KEY_CMD, 0, 0⟩ w))
    (ht : s.m.Takes ⟨.NV_KEY_CMD, 0, 0⟩ w)
    (ho : s.m.begin_.ownerWrite ⟨.NV_KEY_CMD, 0, 0⟩ w false = s.m.begin_.setBit F.NV_KEY_STAT_FAIL) :
    Completes c s fun t => t.rb F.NV_KEY_STAT_FAIL = true ∧ t.otp = s.m.otp :=
  .of_keyWrite hc ht ho fun _ hOtp hBits => ⟨hBits _ rfl (Mach.showsBit_keyFail _), hOtp⟩

/-- R115: a key command that executes shows DONE, and the key store is the one it writes. -/
theorem Completes.of_keyDone {c : Instr} {s : State} {w : Nat} {o : Otp} (hc : exec c s = s.run (·.hostWrite ⟨.NV_KEY_CMD, 0, 0⟩ w))
    (ht : s.m.Takes ⟨.NV_KEY_CMD, 0, 0⟩ w)
    (ho : s.m.begin_.ownerWrite ⟨.NV_KEY_CMD, 0, 0⟩ w false =
      ({ s.m.begin_ with otp := o } : Mach).keyShow.setBit F.NV_KEY_STAT_DONE) :
    Completes c s fun t => t.rb F.NV_KEY_STAT_DONE = true ∧ t.otp = o :=
  .of_keyWrite hc ht ho fun _ hOtp hBits => ⟨hBits _ rfl (Mach.showsBit_keyDone _), hOtp⟩

section
variable {s : State} {slot : Fin 4}

theorem keyProgram_fails (ht : s.m.Takes ⟨.NV_KEY_CMD, 0, 0⟩ (slot.val + 4 + 0xA5 * 2 ^ 8))
    (h : s.m.keyAllowed = false ∨ (vget none s.m.otp.hashes slot.val).isSome = true) :
    Completes (.keyProgram slot 0xA5) s fun t => t.rb F.NV_KEY_STAT_FAIL = true ∧ t.otp = s.m.otp :=
  .of_keyFail rfl ht ((Mach.ownerWrite_keyProgram _ slot).trans (Mach.keyProgram_refused h))

theorem keyProgram_programs (ht : s.m.Takes ⟨.NV_KEY_CMD, 0, 0⟩ (slot.val + 4 + 0xA5 * 2 ^ 8)) (h : s.m.keyAllowed = true)
    (hn : vget none s.m.otp.hashes slot.val = none) :
    Completes (.keyProgram slot 0xA5) s fun t => t.rb F.NV_KEY_STAT_DONE = true ∧ t.otp = s.m.otp.programmed slot.val s.m.keyData :=
  .of_keyDone rfl ht ((Mach.ownerWrite_keyProgram _ slot).trans (Mach.keyProgram_taken h hn))

theorem keyRevoke_fails (ht : s.m.Takes ⟨.NV_KEY_CMD, 0, 0⟩ (slot.val + 8 + 0xA5 * 2 ^ 8)) (h : s.m.keyAllowed = false) :
    Completes (.keyRevoke slot 0xA5) s fun t => t.rb F.NV_KEY_STAT_FAIL = true ∧ t.otp = s.m.otp :=
  .of_keyFail rfl ht ((Mach.ownerWrite_keyRevoke _ slot).trans (Mach.keyRevoke_refused _ h))

theorem keyRevoke_revokes (ht : s.m.Takes ⟨.NV_KEY_CMD, 0, 0⟩ (slot.val + 8 + 0xA5 * 2 ^ 8)) (h : s.m.keyAllowed = true) :
    Completes (.keyRevoke slot 0xA5) s fun t =>
      t.rb F.NV_KEY_STAT_DONE = true ∧ t.otp = { s.m.otp with revoked := s.m.otp.revoked ||| 2 ^ slot.val } :=
  .of_keyDone rfl ht ((Mach.ownerWrite_keyRevoke _ slot).trans (Mach.keyRevoke_taken _ h))

theorem keyRequireSig_fails (ht : s.m.Takes ⟨.NV_KEY_CMD, 0, 0⟩ (12 + 0xA5 * 2 ^ 8)) (h : s.m.keyAllowed = false) :
    Completes (.keyRequireSig 0xA5) s fun t => t.rb F.NV_KEY_STAT_FAIL = true ∧ t.otp = s.m.otp :=
  .of_keyFail rfl ht ((Mach.ownerWrite_keyRequireSig _).trans (Mach.keyRequireSig_refused h))

theorem keyRequireSig_requires (ht : s.m.Takes ⟨.NV_KEY_CMD, 0, 0⟩ (12 + 0xA5 * 2 ^ 8)) (h : s.m.keyAllowed = true) :
    Completes (.keyRequireSig 0xA5) s fun t => t.rb F.NV_KEY_STAT_DONE = true ∧ t.otp = { s.m.otp with reqSig := true } :=
  .of_keyDone rfl ht ((Mach.ownerWrite_keyRequireSig _).trans (Mach.keyRequireSig_taken h))

/-- R115: a key command without the guard value leaves the key store. -/
theorem Completes.of_keyUnguarded {c : Instr} {k op : Nat} {guard : BitVec 8}
    (hc : exec c s = s.run (·.hostWrite ⟨.NV_KEY_CMD, 0, 0⟩ (k + 4 * op + guard.toNat * 2 ^ 8)))
    (ht : s.m.Takes ⟨.NV_KEY_CMD, 0, 0⟩ (k + 4 * op + guard.toNat * 2 ^ 8)) (hk : k < 4) (ho : op < 4) (hg : guard ≠ 0xA5) :
    Completes c s fun t => t.otp = s.m.otp :=
  .of_keyWrite hc ht (Mach.ownerWrite_keyUnguarded _ hk ho hg) fun _ hOtp _ => hOtp

end

/-- Settles O2: every command's body keeps the stored data sound relative to the key store before it (`keepsStored`), and each key
command does what its operation does where it executes. -/
theorem programmedKeysStay : Obligations.ProgrammedKeysStay := by
  unfold Obligations.ProgrammedKeysStay
  have refused {m : Mach} (h : ¬(m.kn.phase = .hold ∨ (m.kn.phase = .run ∧ m.allOff = true))) : m.keyAllowed = false :=
    Bool.eq_false_iff.mpr fun e => h (Mach.keyAllowed_iff.mp e)
  refine ⟨fun s t hs ht => (step_keepsStored hs ht).stored.otp, fun s slot ht h => keyProgram_fails ht (.inl (refused h)),
    fun s slot ht h => keyRevoke_fails ht (refused h), fun s ht h => keyRequireSig_fails ht (refused h), ?programs, ?revokes, ?requires⟩
  case programs =>
    intro s slot ht h hn
    refine (keyProgram_programs ht (Mach.keyAllowed_iff.mpr h) hn).imp fun t ⟨_, hOtp⟩ => ⟨s.m.keyData, s.m.keyData_lt, ?_⟩
    rw [hOtp]
    exact Otp.programmed_hash _ _ slot.isLt
  case revokes =>
    intro s slot ht h
    refine (keyRevoke_revokes ht (Mach.keyAllowed_iff.mpr h)).imp fun t ⟨_, hOtp⟩ => ?_
    rw [hOtp, bitOf_or, bitOf_eq_testBit (2 ^ slot.val), Nat.testBit_two_pow_self, Bool.or_true]
  case requires =>
    intro s ht h
    refine (keyRequireSig_requires ht (Mach.keyAllowed_iff.mpr h)).imp fun t ⟨_, hOtp⟩ => ?_
    rw [hOtp]

/-- Settles O18: with the guard value each key command does what its operation does where it executes; without it, nothing. -/
theorem keyCommandsComplete : Obligations.KeyCommandsComplete := by
  unfold Obligations.KeyCommandsComplete
  refine ⟨?programs, ?programFails, ?revokes, ?requires, ?programUnguarded, ?revokeKeeps, ?requireKeeps⟩
  case programs =>
    rintro s slot _ ⟨ht, rfl, h, hn⟩
    refine (keyProgram_programs ht h hn).imp fun t ⟨hDone, hOtp⟩ => ?_
    rw [hOtp]
    exact ⟨hDone, Otp.programmed_hash _ _ slot.isLt, rfl, rfl⟩
  case programFails =>
    rintro s slot _ ⟨ht, rfl, h⟩
    exact keyProgram_fails ht h
  case revokes =>
    rintro s slot _ ⟨ht, rfl, h⟩
    exact keyRevoke_revokes ht h
  case requires =>
    rintro s _ ⟨ht, rfl, h⟩
    exact keyRequireSig_requires ht h
  case programUnguarded =>
    rintro s slot guard ⟨ht, hg⟩
    exact .of_keyUnguarded (op := 1) rfl ht slot.isLt (by decide) hg
  case revokeKeeps =>
    rintro s slot guard ⟨ht, h⟩
    by_cases hg : guard = 0xA5
    · subst hg
      exact (keyRevoke_fails ht (h.resolve_left (absurd rfl))).imp fun _ ⟨_, hOtp⟩ => hOtp
    · exact .of_keyUnguarded (op := 2) rfl ht slot.isLt (by decide) hg
  case requireKeeps =>
    rintro s guard ⟨ht, h⟩
    by_cases hg : guard = 0xA5
    · subst hg
      exact (keyRequireSig_fails ht (h.resolve_left (absurd rfl))).imp fun _ ⟨_, hOtp⟩ => hOtp
    · have hWord : 12 + guard.toNat * 2 ^ 8 = 0 + 4 * 3 + guard.toNat * 2 ^ 8 := rfl
      exact .of_keyUnguarded (k := 0) (op := 3) rfl ht (by decide) (by decide) hg

/-! ### The statements on commits, and registers listed twice -/

/-- In a register file in canonical form a field that is cleared reads zero. -/
theorem Mach.rd_clrFld {m : Mach} (hr : regsWf m.regs = true) {f : Fld} (hf : f.lo + f.width ≤ 128) : (m.clrFld f).rd f = 0 :=
  (Mach.rd_wr_same hr 0 0 0 hf).trans (Nat.zero_mod _)

/-- A module in RUN whose register file lists NV_STATUS twice, with CFG_TIE set in both words. -/
def tieListedTwice : State :=
  { pending := []
    m := { Mach.reset with
      clk.running := true, kn.phase := .run, kn.vauxGood := true
      regs := [(⟨.NV_STATUS, 0, 0⟩, 8), (⟨.NV_STATUS, 0, 0⟩, 8)] } }

/-- It meets what the clause on TIE_ACK with a tie asks. -/
theorem tieListedTwice_meets : tieListedTwice.m.Takes ⟨.NV_COMMIT, 0, 0⟩ 2 ∧ tieListedTwice.m.rb F.NV_STATUS_CFG_TIE = true :=
  ⟨by
    unfold Mach.Takes
    decide +kernel, by decide +kernel⟩

/-- R122: the clear of CFG_TIE takes the first word off the register file and uncovers the second. -/
theorem tieListedTwice_reveals : (tieListedTwice.m.begin_.hostWrite ⟨.NV_COMMIT, 0, 0⟩ 2).rb F.NV_STATUS_CFG_TIE = true := by
  decide +kernel

/-- Refutes O15: its clause on TIE_ACK asks CFG_TIE to read clear in every state. Where the register file lists NV_STATUS twice, so is
not in canonical form, the second word is read instead; in canonical form a cleared field reads zero (`Mach.rd_clrFld`). -/
theorem not_commitRequestsComplete : ¬ Obligations.CommitRequestsComplete := by
  unfold Obligations.CommitRequestsComplete
  rintro ⟨-, -, -, -, -, -, -, tieClears, -⟩
  obtain ⟨hCleared, -⟩ := (tieClears tieListedTwice tieListedTwice_meets).after_body
    (f := fun m => m.hostWrite ⟨.NV_COMMIT, 0, 0⟩ 2) rfl
  rw [Mach.rb_settle, tieListedTwice_reveals] at hCleared
  cases hCleared

/-- A program by the host. -/
def hostProgram : FlashAcc := { op := 1, addr := 0, data := 0 }

/-- A module in RUN with a program of the host in progress, whose register file lists NV_ACC_CTRL twice, with BUSY set in both words. -/
def busyListedTwice : State :=
  { pending := []
    m := { Mach.reset with
      clk.running := true, kn.phase := .run, kn.vauxGood := true
      nv.acc := some hostProgram
      regs := [(⟨.NV_ACC_CTRL, 0, 0⟩, 2 ^ 8), (⟨.NV_ACC_CTRL, 0, 0⟩, 2 ^ 8)] } }

/-- The program of the host stays busy beyond 4 s. -/
def hostLate : FlashLate := { ring := false, again := false }

/-- R129: the clear of BUSY takes the first word off the register file and uncovers the second. -/
theorem busyListedTwice_reveals : busyListedTwice.m.begin_.accTimeout.rb F.NV_ACC_CTRL_BUSY = true := by decide +kernel

/-- Refutes O16: its clause on a timeout of a host operation asks BUSY to read clear in every state. Where the register file lists
NV_ACC_CTRL twice, so is not in canonical form, the second word is read instead; in canonical form a cleared field reads zero
(`Mach.rd_clrFld`). -/
theorem not_commitProgressCompletes : ¬ Obligations.CommitProgressCompletes := by
  unfold Obligations.CommitProgressCompletes
  rintro ⟨-, -, -, -, hostTimeoutEnds, -⟩
  obtain ⟨-, hIdle, -⟩ := (hostTimeoutEnds busyListedTwice hostLate hostProgram rfl ⟨rfl, rfl, by decide⟩).after_body
    (f := Mach.accTimeout) rfl
  rw [Mach.rb_settle, busyListedTwice_reveals] at hIdle
  cases hIdle

end Sys2Proof.Machine
end


section
/-!
PROOFS. What a queue has reached, its call stack, its published entries and the number of its next command, and how the row of an
axis-class command advances it. Nothing that an engine does with the commands it takes, and nothing that the end of step 16 records,
changes what a queue has reached (the `fronts` lemmas), so the dispatch alone decides it.
-/

namespace Sys2Proof.Machine

/-! ### What a dispatch advances in a queue -/

/-- What a queue has reached: its call stack, its published entries and the number of its next command. -/
def Queue.front (x : Queue) : List Frame × List Word × Nat := (x.stack, x.published, x.nextId)

/-- What the queues of a module have reached. -/
def Mach.fronts (m : Mach) (q : Nat) : List Frame × List Word × Nat := (m.qu q).front

theorem Mach.fronts_of_queues {a b : Mach} (h : a.queues = b.queues) : a.fronts = b.fronts := by
  funext q
  rw [Mach.fronts, Mach.fronts, Mach.qu, Mach.qu, h]

/-- A change of a queue that leaves what it has reached. -/
theorem Mach.fronts_modQ {m : Mach} {q : Nat} {f : Queue → Queue} (hf : ∀ x, (f x).front = x.front) : (m.modQ q f).fronts = m.fronts := by
  funext x
  rw [Mach.fronts, Mach.fronts]
  by_cases hx : x = q
  · subst hx
    by_cases hq : x < 64
    · rw [Mach.qu_modQ_same _ _ hq, hf]
    · rw [Mach.modQ, vmod, dif_neg hq]
  · rw [Mach.qu_modQ_other _ _ hx]

theorem Mach.fronts_foldl {α : Type} {f : Mach → α → Mach} (hf : ∀ m x, (f m x).fronts = m.fronts) (l : List α) (m : Mach) :
    (l.foldl f m).fronts = m.fronts := by
  induction l generalizing m with
  | nil => rfl
  | cons x rest ih => exact (ih (f m x)).trans (hf m x)

theorem Mach.fronts_each {f : Mach → Nat → Mach} (hf : ∀ m k, (f m k).fronts = m.fronts) (n : Nat) (m : Mach) :
    (m.each n f).fronts = m.fronts := Mach.fronts_foldl hf _ m

theorem Mach.fronts_forAll {f : Mach → Nat → Mach} (hf : ∀ m k, (f m k).fronts = m.fronts) (l : List Nat) (m : Mach) :
    (m.forAll l f).fronts = m.fronts := Mach.fronts_foldl hf l m

theorem Mach.fronts_when {f : Mach → Mach} (hf : ∀ m, (f m).fronts = m.fronts) (c : Bool) (m : Mach) : (m.when c f).fronts = m.fronts := by
  unfold Mach.when
  split
  · exact hf m
  · rfl

section
variable (m : Mach)

@[simp] theorem Mach.fronts_modAx (n : Nat) (f : Axis → Axis) : (m.modAx n f).fronts = m.fronts := rfl
@[simp] theorem Mach.fronts_modArm (g : Nat) (f : Arm → Arm) : (m.modArm g f).fronts = m.fronts := rfl
@[simp] theorem Mach.fronts_modCoil (k : Nat) (f : Coil → Coil) : (m.modCoil k f).fronts = m.fronts := rfl
@[simp] theorem Mach.fronts_modRegch (r : Nat) (f : RegChan → RegChan) : (m.modRegch r f).fronts = m.fronts := rfl
@[simp] theorem Mach.fronts_modKn (f : Kiln → Kiln) : (m.modKn f).fronts = m.fronts := rfl
@[simp] theorem Mach.fronts_wr (f : Fld) (v i j : Nat) : (m.wr f v i j).fronts = m.fronts := rfl
@[simp] theorem Mach.fronts_wrS (f : Fld) (v : Int) (i j : Nat) : (m.wrS f v i j).fronts = m.fronts := rfl
@[simp] theorem Mach.fronts_setBit (f : Fld) (i j : Nat) : (m.setBit f i j).fronts = m.fronts := rfl
@[simp] theorem Mach.fronts_clrFld (f : Fld) (i j : Nat) : (m.clrFld f i j).fronts = m.fronts := rfl
@[simp] theorem Mach.fronts_postAt (c o d ts : Nat) : (m.postAt c o d ts).fronts = m.fronts := Mach.fronts_of_queues (m.postAt_queues c o d ts)
@[simp] theorem Mach.fronts_post (c o d : Nat) : (m.post c o d).fronts = m.fronts := m.fronts_postAt ..

/-! ### What the engines do leaves the fronts -/

@[simp] theorem Mach.fronts_retire (c : MotionCmd) (st at_ : Nat) : (m.retire c st at_).fronts = m.fronts := by
  unfold Mach.retire
  split
  · rfl
  · exact Mach.fronts_modQ fun _ => rfl

@[simp] theorem Mach.fronts_taken (c : MotionCmd) (st : Nat) : (m.taken c st).fronts = m.fronts := m.fronts_retire ..

@[simp] theorem Mach.fronts_retireAll (cs : List MotionCmd) (st at_ : Nat) : (m.retireAll cs st at_).fronts = m.fronts :=
  Mach.fronts_foldl (fun x c => x.fronts_retire c st at_) cs m

@[simp] theorem Mach.fronts_dropMotion (n st at_ : Nat) : (m.dropMotion n st at_).fronts = m.fronts := by simp [Mach.dropMotion]

@[simp] theorem Mach.fronts_homeFail (n code : Nat) : (m.homeFail n code).fronts = m.fronts := by simp [Mach.homeFail]

@[simp] theorem Mach.fronts_homeCut (n : Nat) : (m.homeCut n).fronts = m.fronts := by
  unfold Mach.homeCut
  split
  · rfl
  · split <;> simp

@[simp] theorem Mach.fronts_followEnd (n at_ : Nat) : (m.followEnd n at_).fronts = m.fronts := by
  unfold Mach.followEnd
  split
  · rfl
  · rw [Mach.fronts_each fun x r => by split <;> simp]
    split <;> split <;> simp

@[simp] theorem Mach.fronts_leaveFollow (n at_ : Nat) : (m.leaveFollow n at_).fronts = m.fronts := by simp [Mach.leaveFollow]

@[simp] theorem Mach.fronts_postCause (n cause : Nat) (estop : Bool) : (m.postCause n cause estop).fronts = m.fronts := m.fronts_post ..

@[simp] theorem Mach.fronts_trimStop (n : Nat) : (m.trimStop n).fronts = m.fronts := rfl

@[simp] theorem Mach.fronts_endEnable (n st at_ : Nat) : (m.endEnable n st at_).fronts = m.fronts := by simp [Mach.endEnable]

@[simp] theorem Mach.fronts_estopAxis (n cause : Nat) (ownPlan : Bool) : (m.estopAxis n cause ownPlan).fronts = m.fronts := by
  simp [Mach.estopAxis]

@[simp] theorem Mach.fronts_groupEstop (g n cause : Nat) (skip : Option Nat) (own : List Nat) :
    (m.groupEstop g n cause skip own).fronts = m.fronts := by
  unfold Mach.groupEstop
  extract_lets a st m1 m2 m3 m4
  split
  · rfl
  · have hCmd : m1.fronts = m.fronts := by
      show (match a.cmd with | some c => m.retire c st (m.clk.tick + 1) | none => m).fronts = m.fronts
      split <;> simp
    have hMembers : m4.fronts = m3.fronts := Mach.fronts_forAll (fun x k => by
      split
      · rfl
      · split <;> simp) _ m3
    have h4 : m4.fronts = m.fronts := hMembers.trans ((m1.fronts_retireAll ..).trans hCmd)
    split <;> simp [h4]

@[simp] theorem Mach.fronts_estop (n cause : Nat) : (m.estop n cause).fronts = m.fronts := by
  unfold Mach.estop Mach.estopWith
  split
  · split
    · split <;> simp
    · simp
  · simp

@[simp] theorem Mach.fronts_breakPath (n code : Nat) : (m.breakPath n code).fronts = m.fronts := by
  unfold Mach.breakPath
  split <;> simp

@[simp] theorem Mach.fronts_masterLost (n : Nat) : (m.masterLost n).fronts = m.fronts :=
  Mach.fronts_each (fun x k => by
    split
    · split <;> simp
    · rfl) 48 m

@[simp] theorem Mach.fronts_keptEnd (n at_ : Nat) : (m.keptEnd n at_).fronts = m.fronts := by
  unfold Mach.keptEnd
  split
  · rfl
  · dsimp only
    split
    · split <;> simp
    · simp

@[simp] theorem Mach.fronts_faultWaits (n cause : Nat) : (m.faultWaits n cause).fronts = m.fronts := by
  unfold Mach.faultWaits
  split <;> simp

@[simp] theorem Mach.fronts_cutCoil (K : Nat) : (m.cutCoil K).fronts = m.fronts := by
  unfold Mach.cutCoil
  split <;> simp

@[simp] theorem Mach.fronts_enterOff (n st : Nat) : (m.enterOff n st).fronts = m.fronts := by
  simp [Mach.enterOff, Mach.cutAxis, Mach.coilsOff]

@[simp] theorem Mach.fronts_disable (n : Nat) : (m.disable n).fronts = m.fronts := by
  unfold Mach.disable
  split <;> simp

@[simp] theorem Mach.fronts_takeEnable (n : Nat) (c : MotionCmd) : (m.takeEnable n c).fronts = m.fronts := by
  unfold Mach.takeEnable
  split
  · split <;> simp [Mach.enterArming]
  · simp

@[simp] theorem Mach.fronts_regStep (n : Nat) : (m.regStep n).1.fronts = m.fronts := by
  unfold Mach.regStep
  refine List.foldlRecOn (motive := fun x : Mach × Rat => x.1.fronts = m.fronts) (List.range 4) _ rfl fun x hx r _ => ?_
  dsimp only
  split
  · exact hx
  · exact hx

@[simp] theorem Mach.fronts_stepTaken (n : Nat) : (m.stepTaken n).fronts = m.fronts := by
  unfold Mach.stepTaken
  split
  · split <;> simp
  · rfl

@[simp] theorem Mach.fronts_startStop (n : Nat) (c : MotionCmd) (B : Nat) : (m.startStop n c B).fronts = m.fronts := by
  simp [Mach.startStop]

@[simp] theorem Mach.fronts_setPosSeg (n B : Nat) (s : Kin) (prof : Nat) (lim : Lim) (t ve : Rat) (st : Nat) :
    (m.setPosSeg n B s prof lim t ve st).fronts = m.fronts := rfl

@[simp] theorem Mach.fronts_setVelSeg (n B : Nat) (s : Kin) (prof : Nat) (lim : Lim) (vt : Rat) :
    (m.setVelSeg n B s prof lim vt).fronts = m.fronts := rfl

@[simp] theorem Mach.fronts_reassign (n : Nat) (d : Rat) : (m.reassign n d).fronts = m.fronts := rfl

@[simp] theorem Mach.fronts_homeDone (n at_ : Nat) (h : Home) : (m.homeDone n at_ h).fronts = m.fronts := by simp [Mach.homeDone]

@[simp] theorem Mach.fronts_homeRun (n B : Nat) (s : Kin) (h : Home) (fast up : Bool) : (m.homeRun n B s h fast up).fronts = m.fronts := rfl

@[simp] theorem Mach.fronts_homePhase (n ph : Nat) : (m.homePhase n ph).fronts = m.fronts := rfl

@[simp] theorem Mach.fronts_startHome (n : Nat) (c : MotionCmd) (B at_ : Nat) (s : Kin) : (m.startHome n c B at_ s).fronts = m.fronts := by
  unfold Mach.startHome
  dsimp only
  repeat' split
  all_goals simp [Mach.enterHold, Mach.homeApproach]

@[simp] theorem Mach.fronts_startMotion (n : Nat) (c : MotionCmd) (B at_ : Nat) (s : Kin) : (m.startMotion n c B at_ s).fronts = m.fronts := by
  unfold Mach.startMotion
  dsimp only
  repeat' split
  all_goals simp

@[simp] theorem Mach.fronts_engage (n sel : Nat) (law : Law) (prof : Nat) (cmd : Option MotionCmd) (port : Option Nat) :
    (m.engage n sel law prof cmd port).fronts = m.fronts := by
  unfold Mach.engage
  dsimp only
  rw [Mach.fronts_when fun x => by simp]
  repeat' split
  all_goals simp

@[simp] theorem Mach.fronts_trimStale (n : Nat) : (m.trimStale n).fronts = m.fronts := by
  unfold Mach.trimStale
  dsimp only
  split <;> simp

@[simp] theorem Mach.fronts_trimCmd (n p1 p0 : Nat) : (m.trimCmd n p1 p0).fronts = m.fronts := by
  unfold Mach.trimCmd
  dsimp only
  split
  · rw [Mach.fronts_when fun x => x.fronts_trimStale n]
    simp [Mach.trimShow]
  · simp

@[simp] theorem Mach.fronts_actNow (n : Nat) (c : MotionCmd) : (m.actNow n c).fronts = m.fronts := by
  unfold Mach.actNow
  dsimp only
  repeat' split
  all_goals simp [Mach.applyHold]

@[simp] theorem Mach.fronts_notBegun (c : MotionCmd) (n : Nat) : (m.notBegun c n).fronts = m.fronts := by
  unfold Mach.notBegun
  split <;> simp

@[simp] theorem Mach.fronts_actOn (n : Nat) (c : MotionCmd) : (m.actOn n c).fronts = m.fronts :=
  (Mach.fronts_when (fun x => x.fronts_notBegun c n) _ _).trans (m.fronts_actNow n c)

@[simp] theorem Mach.fronts_startGroup (g : Nat) (c : MotionCmd) (B at_ : Nat) (vs : Rat) : (m.startGroup g c B at_ vs).fronts = m.fronts := by
  unfold Mach.startGroup
  dsimp only
  repeat' split
  all_goals simp [Mach.fronts_forAll fun x n => x.fronts_modAx n _]

@[simp] theorem Mach.fronts_takeAxis (n : Nat) (c : MotionCmd) : (m.takeAxis n c).fronts = m.fronts := by
  unfold Mach.takeAxis
  split <;> simp

@[simp] theorem Mach.fronts_takeGroup (g : Nat) (c : MotionCmd) : (m.takeGroup g c).fronts = m.fronts := by
  unfold Mach.takeGroup
  extract_lets axs verdict acts m1
  split
  · simp
  · split
    · split <;> simp
    · split
      · simp
      · refine (Mach.fronts_foldl (fun x n => x.fronts_actOn n c) acts m1).trans ?_
        unfold m1
        split
        · exact Mach.fronts_modQ fun _ => rfl
        · rfl

/-- What an engine takes leaves what the queues have reached. -/
theorem Mach.fronts_takeAll (n : Nat) : (m.takeAll n).fronts = m.fronts :=
  (Mach.fronts_foldl (fun x c => by unfold Mach.take; split <;> simp) _ _).trans (m.fronts_modAx n _)

/-! ### The end of a start leaves the fronts -/

@[simp] theorem Mach.flashProgram_queues (l : List Byte) : ∀ (m : Mach) (a : Nat), (m.flashProgram a l).queues = m.queues := by
  induction l with
  | nil => exact fun _ _ => rfl
  | cons b rest ih => exact fun m a => ih _ _

theorem Mach.fronts_ringProgram (a : Nat) (l : List Byte) : (m.ringProgram a l).fronts = m.fronts :=
  Mach.fronts_of_queues (Mach.flashProgram_queues l (m.nvWrite .program a l) a)

@[simp] theorem Mach.fronts_lgPut (o n v : Nat) : (m.lgPut o n v).fronts = m.fronts := by
  unfold Mach.lgPut
  split
  · exact m.fronts_ringProgram ..
  · rfl

@[simp] theorem Mach.fronts_lgMark (o k : Nat) : (m.lgMark o k).fronts = m.fronts := by
  unfold Mach.lgMark
  split <;> simp

@[simp] theorem Mach.fronts_lgCloseNow : m.lgCloseNow.fronts = m.fronts := by
  unfold Mach.lgCloseNow
  split
  · exact m.fronts_ringProgram ..
  · rfl

/-- R88: what the end of step 16 records leaves what the queues have reached. -/
theorem Mach.fronts_step16End : m.step16End.fronts = m.fronts := by
  unfold Mach.step16End
  split
  · have hNotes : ∀ (x : Mach) (n : Nat), (if bitOf x.kn.homeFail n then x.unitNote n 16 0x29 else x).fronts = x.fronts := fun x n => by
      split <;> rfl
    simp [Mach.setCount, Mach.when, Mach.fronts_each hNotes]
  · rfl

theorem Mach.fronts_step16Check : m.step16Check.fronts = m.fronts := by
  unfold Mach.step16Check
  split
  · exact m.fronts_step16End
  · rfl

end

/-! ### The head of a queue leaves it -/

/-- What a queue has reached once its head has been dispatched. -/
def Queue.advanced (x : Queue) : List Frame × List Word × Nat := (x.pop.stack, x.pop.published, x.nextId + 1)

theorem Queue.pop_nextId (x : Queue) : x.pop.nextId = x.nextId := by
  unfold Queue.pop
  split
  · split <;> rfl
  · rfl

/-- R182: a queue that has advanced has let its head go, or its routine has gone on to the next word. -/
theorem Mach.popped_of_advanced {m t : Mach} {q : Nat} (h : t.fronts q = (m.qu q).advanced) :
    (t.qu q).nextId = (m.qu q).nextId + 1 ∧ t.Popped q m := by
  obtain ⟨hStack, hPub, hId⟩ : (t.qu q).stack = (m.qu q).pop.stack ∧ (t.qu q).published = (m.qu q).pop.published ∧
      (t.qu q).nextId = (m.qu q).nextId + 1 := by simpa [Mach.fronts, Queue.front, Queue.advanced] using h
  refine ⟨hId, ?_⟩
  unfold Mach.Popped Queue.inRoutine Queue.frame
  rw [hStack, hPub]
  unfold Queue.pop
  rcases hs : (m.qu q).stack with _ | ⟨f, rest⟩
  · simp [Frame.ring]
  · rcases hp : f.pc with _ | a <;> simp [hp]

/-- The head `w` of queue `q` has come, and the queue may dispatch it. -/
structure Mach.Stands (m : Mach) (q : Nat) (w : Word) : Prop where
  head : m.headWord q = some w
  live : (m.qu q).st = .run ∨ (m.qu q).st = .wait
  within : ∀ a, (m.qu q).frame.pc = some a → a + 16 ≤ (m.qu q).frame.bound
  sound : ∀ x, (m.qu q).fetched = some x → (m.qu q).inRoutine = true → x.2 = false

theorem Mach.headWord_of_ring {m : Mach} {q : Nat} (h : (m.qu q).stack = [.ring]) : m.headWord q = (m.qu q).published.head? := by
  simp [Mach.headWord, Queue.frame, h, Frame.ring]

/-- A queue that is ready for `w` and has a head stands at `w`. -/
theorem Mach.Ready.stands {m : Mach} {q : Nat} {w : Word} (h : m.Ready q w) (hw : m.headWord q ≠ none) : m.Stands q w := by
  obtain ⟨-, -, -, -, -, -, ⟨hStack, hOffer⟩ | ⟨hRtn, hBound, hFetch, hHead, hSt⟩⟩ := h
  · have hPc : (m.qu q).frame.pc = none := by rw [Queue.frame, hStack]; rfl
    have hNone : (m.qu q).inRoutine = false := by rw [Queue.inRoutine, hPc]; rfl
    obtain ⟨hPub, hSt⟩ | ⟨hPub, -⟩ := hOffer
    · exact ⟨(m.headWord_of_ring hStack).trans hPub, hSt, fun a ha => (by rw [hPc] at ha; cases ha),
        fun _ _ hr => (by rw [hNone] at hr; cases hr)⟩
    · exact absurd ((m.headWord_of_ring hStack).trans (by rw [hPub]; rfl)) hw
  · exact ⟨hHead, hSt, hBound, fun x hx _ => by rw [hx] at hFetch; exact Option.some.inj hFetch⟩

theorem Mach.Stands.pastEnd {m : Mach} {q : Nat} {w : Word} (h : m.Stands q w) : m.pastEnd q = m := by
  unfold Mach.pastEnd
  dsimp only
  split
  · next a ha => rw [if_neg (Nat.not_lt.mpr (h.within a ha))]
  · rfl

theorem Mach.Stands.strobeHead {m : Mach} {q : Nat} {w : Word} (h : m.Stands q w) : m.strobeHead q = m.tryHead q w false := by
  have hSettled : (match (m.qu q).frame.pc, (m.qu q).fetched, m.headWord q with
      | some _, none, _ => m.modQ q fun x => { x with st := .wait, why := 6 }
      | some _, some (_, bad), some w => m.tryHead q w bad
      | _, _, some w => m.tryHead q w false
      | _, _, none => m.modQ q fun x => ({ x with st := .run, why := 0 } : Queue).settle) = m.tryHead q w false := by
    have hHead := h.head
    rcases hp : (m.qu q).frame.pc with _ | a
    · rw [hHead]
    · rcases hf : (m.qu q).fetched with _ | ⟨x, bad⟩
      · simp [Mach.headWord, hp, hf] at hHead
      · have hGood : bad = false := h.sound _ hf (by simp [Queue.inRoutine, hp])
        rw [hHead, hGood]
  unfold Mach.strobeHead
  rcases h.live with hs | hs <;> rw [hs] <;> exact hSettled

/-- R182: with nothing in flight and no order kept back, an axis-class head goes to its engine as the command that runs next. -/
theorem Mach.axisPass_run {m : Mach} {q : Nat} {w : Word} (hIdle : (m.qu q).inflight = []) (hFree : m.OrdersFree q) :
    m.axisPass q w = .run := by
  have hKept : (if q < 48 then (m.ax q).kept.isSome else (m.membersOf (q - 48)).any fun n => (m.ax n).kept.isSome) = false := by
    unfold Mach.OrdersFree at hFree
    split
    · next hq => rw [if_pos hq] at hFree; rw [hFree]; rfl
    · next hq =>
      rw [if_neg hq] at hFree
      exact List.any_eq_false.mpr fun n hn => by rw [hFree n hn]; decide
  unfold Mach.axisPass
  extract_lets opc before untaken kept depth ahead blends
  have hBefore : before = [] := by unfold before; rw [hIdle]; rfl
  split
  · rfl
  · rw [if_neg (by rw [show kept = false from hKept]; simp), if_pos (.inr (.inr hBefore))]

/-- R182: nothing holds the head of a queue that is ready for it. -/
theorem Mach.Ready.headHeld {m : Mach} {q : Nat} {w : Word} (h : m.Ready q w) (hFree : m.OrdersFree q) : m.headHeld q w = none := by
  obtain ⟨-, -, hIdle, -, hVec, hRoom, -⟩ := h
  have hStall : ¬(m.cplStall ∧ 960 ≤ m.cplUnread + m.cplReserved) := fun ⟨hs, hr⟩ => by
    rcases hRoom with h | h
    · rw [h] at hs; cases hs
    · omega
  simp only [Mach.headHeld, Mach.axisPass_run hIdle hFree, hIdle]
  simpa [hStall] using hVec

theorem Mach.Ready.tryHead {m : Mach} {q : Nat} {w : Word} (h : m.Ready q w) (hFree : m.OrdersFree q) (hc : axisClass (opcOf w) = true) :
    m.tryHead q w false = (m.modQ q Queue.pop).sendAxis q w .run := by
  have hHeld := h.headHeld hFree
  obtain ⟨-, -, hIdle, hCheck, -⟩ := h
  unfold Mach.tryHead
  rw [hHeld]
  unfold Mach.dispatchWord
  rw [Mach.axisPass_run hIdle hFree, hCheck]
  simp [hc]

theorem Mach.fronts_sendAxis (m : Mach) {q : Nat} (hq : q < 64) (w : Word) (ps : Pass) :
    (m.sendAxis q w ps).fronts q = ((m.qu q).stack, (m.qu q).published, (m.qu q).nextId + 1) := by
  unfold Mach.sendAxis
  extract_lets x members look holds slots e c m1
  have hSent : m1.fronts q = ((m.qu q).stack, (m.qu q).published, (m.qu q).nextId + 1) := by
    rw [Mach.fronts, Mach.qu_modQ_same _ _ hq]
    rfl
  rw [← hSent]
  split
  · rfl
  · split
    · rfl
    · clear_value members
      cases members with
      | nil => rw [m1.fronts_retire]
      | cons n rest => rfl

/-! ### A head that is offered -/

/-- What a row of a queue command does first: unless the head is that word already, the word is pushed and published. -/
def Mach.offer (m : Mach) (q : Nat) (w : Word) : Mach := if m.headWord q = some w then m else (m.push q w).publish q

/-- A queue to which a word has been pushed and published. -/
def Queue.offered (w : Word) (x : Queue) : Queue := ({ x with published := x.published ++ (x.staged ++ [w]), staged := [] } : Queue).settle

theorem Queue.settle_eq (x : Queue) : ∃ st why, x.settle = { x with st := st, why := why } := by
  unfold Queue.settle
  split
  · split <;> exact ⟨_, _, rfl⟩
  · split <;> exact ⟨_, _, rfl⟩
  · split <;> exact ⟨_, _, rfl⟩
  · exact ⟨_, _, rfl⟩

/-- R180: a queue that has something published runs or waits, unless it is held. -/
theorem Queue.settle_live {x : Queue} (hp : x.published ≠ []) (h : x.st = .idle ∨ x.st = .run ∨ x.st = .wait) :
    x.settle.st = .run ∨ x.settle.st = .wait := by
  have hBusy : x.drained = false := by simp [Queue.drained, hp]
  unfold Queue.settle
  rcases h with h | h | h <;> simp [h, hBusy]

theorem vmod_vmod {α : Type} {n : Nat} (v : Vector α n) (k : Nat) (f g : α → α) : vmod (vmod v k f) k g = vmod v k (g ∘ f) := by
  unfold vmod
  split
  · simp
  · rfl

theorem Mach.modQ_modQ (m : Mach) (q : Nat) (f g : Queue → Queue) : (m.modQ q f).modQ q g = m.modQ q (g ∘ f) := by
  unfold Mach.modQ
  simp only [vmod_vmod]

/-- R193, R194: a queue with room takes the word. -/
theorem Mach.push_publish {m : Mach} {q : Nat} (w : Word) (hPub : (m.qu q).published = []) (hStaged : (m.qu q).staged = [])
    (hSt : (m.qu q).st ≠ .aborting) : (m.push q w).publish q = m.modQ q (Queue.offered w) := by
  unfold Mach.push
  dsimp only
  rw [if_neg hSt, if_neg (by rw [hPub, hStaged]; decide), Mach.publish, Mach.modQ_modQ]
  rfl

theorem Mach.chainBack_congr {a b : Mach} (h : a.axes = b.axes) (n k sel : Nat) : a.chainBack n k sel = b.chainBack n k sel := by
  induction k generalizing sel with
  | zero => rfl
  | succ k ih => simp only [Mach.chainBack, Mach.ax, h, ih]

/-- R175: the checks of an axis-class head look neither at the time nor at the queues. -/
theorem Mach.headCheck_with (m : Mach) (c : Clock) (x : Vector Queue 64) (q : Nat) {w : Word} (hc : axisClass (opcOf w) = true) :
    ({ m with clk := c, queues := x } : Mach).headCheck q w = m.headCheck q w := by
  have hRange : ({ m with clk := c, queues := x } : Mach).rangeBad q w = m.rangeBad q w := by
    obtain ⟨h1, h19⟩ := of_decide_eq_true hc
    have hChain := Mach.chainBack_congr (a := { m with clk := c, queues := x }) (b := m) rfl
    unfold Mach.rangeBad
    simp only [hChain]
    split
    -- A jump, a call and a loop look the target up in the queue; no axis-class opcode is one of theirs.
    case h_14 | h_15 | h_16 => omega
    all_goals rfl
  have hLock : ∀ y : Mach, y.lockBad w = false := fun y => by
    have hNot : opcOf w ≠ 0x30 := fun e => by rw [e] at hc; cases hc
    simp [Mach.lockBad, hNot]
  unfold Mach.headCheck
  rw [hRange, hLock, hLock]

/-- A command that begins leaves its queue ready. -/
theorem Mach.Ready.begin_ {m : Mach} {q : Nat} {w : Word} (hc : axisClass (opcOf w) = true) (h : m.Ready q w) : m.begin_.Ready q w := by
  obtain ⟨hUnit, hAbort, hIdle, hCheck, hVec, hRoom, hHead⟩ := h
  exact ⟨hUnit, hAbort, hIdle, (m.headCheck_with _ m.queues q hc).trans hCheck, hVec, hRoom, hHead⟩

theorem vmod_map {α β : Type} {n : Nat} (v : Vector α n) (k : Nat) {f : α → α} {r : α → β} (h : ∀ x, r (f x) = r x) :
    (vmod v k f).toList.map r = v.toList.map r := by
  unfold vmod
  split
  · next hk =>
    rw [Vector.toList_set, List.map_set, h]
    exact List.ext_getElem (by simp) fun i h1 h2 => by
      rw [List.getElem_set]
      split
      · next e => subst e; simp
      · rfl
  · rfl

/-- R197: what is reserved in the completion ring stays where a queue keeps what is in flight. -/
theorem Mach.cplReserved_modQ (m : Mach) (q : Nat) {f : Queue → Queue} (hf : ∀ x, (f x).reserved = x.reserved) :
    (m.modQ q f).cplReserved = m.cplReserved := congrArg List.sum (vmod_map m.queues q hf)

theorem Queue.offered_reserved (w : Word) (x : Queue) : (x.offered w).reserved = x.reserved := by
  obtain ⟨st, why, e⟩ := Queue.settle_eq { x with published := x.published ++ (x.staged ++ [w]), staged := [] }
  rw [Queue.offered, e]
  rfl

/-- The word becomes the head of a queue that is ready for it, which goes on from the same place. -/
theorem Mach.Ready.offer {m : Mach} {q : Nat} (hq : q < 64) {w : Word} (hc : axisClass (opcOf w) = true) (h : m.Ready q w) :
    (m.offer q w).Ready q w ∧ (m.offer q w).headWord q = some w ∧ ((m.offer q w).qu q).advanced = (m.qu q).advanced ∧
      ((m.offer q w).OrdersFree q ↔ m.OrdersFree q) := by
  unfold Mach.offer
  split
  · next hw => exact ⟨h, hw, rfl, .rfl⟩
  · next hw =>
    obtain ⟨hUnit, hAbort, hIdle, hCheck, hVec, hRoom, ⟨hStack, ⟨hHead, -⟩ | ⟨hPub, hStaged, hSt⟩⟩ | hFetched⟩ := h
    · exact absurd ((m.headWord_of_ring hStack).trans hHead) hw
    · rw [Mach.push_publish w hPub hStaged (by rcases hSt with e | e | e <;> rw [e] <;> decide)]
      have hSame := m.qu_modQ_same (Queue.offered w) hq
      obtain ⟨st, why, hSettle⟩ := Queue.settle_eq { m.qu q with published := [w], staged := [] }
      have hOffered : (m.qu q).offered w = { m.qu q with published := [w], staged := [], st := st, why := why } := by
        rw [Queue.offered, hPub, hStaged]
        exact hSettle
      have hLive : st = .run ∨ st = .wait := by
        have hl := Queue.settle_live (x := { m.qu q with published := [w], staged := [] }) (List.cons_ne_nil _ _) hSt
        rw [hSettle] at hl
        exact hl
      rw [hOffered] at hSame
      refine ⟨⟨hUnit, fun p => ?abort, ?idle, ?check, ?vec, ?room, .inl ⟨?stack, .inl ⟨?head, ?live⟩⟩⟩, ?word, ?advanced, ?orders⟩
      case abort =>
        by_cases hp : p.val = q
        · rw [hp, hSame]
          exact hp ▸ hAbort p
        · rw [Mach.qu_modQ_other _ _ hp]
          exact hAbort p
      case idle => rw [hSame]; exact hIdle
      case check => exact (m.headCheck_with m.clk _ q hc).trans hCheck
      case vec => rw [hSame]; exact hVec
      case room => rw [Mach.cplReserved_modQ _ _ (Queue.offered_reserved w)]; exact hRoom
      case stack => rw [hSame]; exact hStack
      case head => rw [hSame]; rfl
      case live => rw [hSame]; exact hLive
      case word => rw [Mach.headWord_of_ring (by rw [hSame]; exact hStack), hSame]; rfl
      case advanced => rw [hSame]; simp [Queue.advanced, Queue.pop, hStack, hPub, Frame.ring]
      case orders => exact .rfl
    · obtain ⟨-, -, -, hHead, -⟩ := hFetched
      exact absurd hHead hw

/-! ### The rows of the axis-class commands -/

/-- R203: where no abort runs, none completes. -/
theorem Mach.abortsDue_of_noAbort {m : Mach} (h : m.NoAbort) : m.abortsDue = m := by
  have hNone : m.abortsComplete = [] := by
    unfold Mach.abortsComplete
    rw [List.filterMap_eq_nil_iff.mpr fun q hq => by rw [h ⟨q, List.mem_range.mp hq⟩]]
    rfl
  rw [Mach.abortsDue, hNone]
  rfl

/-- R182: the row of an axis-class command whose queue is ready for it advances the queue. -/
theorem Mach.fronts_command {m : Mach} {q opc : Nat} {args : CmdArgs} (hq : q < 64) (hc : axisClass (opcOf (cmdWord opc args)) = true)
    (h : m.Ready q (cmdWord opc args)) (hFree : m.OrdersFree q) : (m.command q opc args).fronts q = (m.qu q).advanced := by
  obtain ⟨hReady, hHead, hAdvanced, hOrders⟩ := h.offer hq hc
  have hStands := hReady.stands (by rw [hHead]; exact Option.some_ne_none _)
  have hSent : ((m.offer q (cmdWord opc args)).strobeHead q).fronts q = (m.qu q).advanced := by
    rw [hStands.strobeHead, hReady.tryHead (hOrders.mpr hFree) hc, Mach.fronts_sendAxis _ hq, Mach.qu_modQ_same _ _ hq, ← hAdvanced,
      Queue.pop_nextId]
    rfl
  unfold Mach.command
  rw [Mach.abortsDue_of_noAbort h.2.1]
  extract_lets x w m1 m2 m3
  have e1 : m1 = m.offer q w := rfl
  have e2 : m2 = m.offer q w := hStands.pastEnd
  have e3 : m3 = (m.offer q w).strobeHead q := congrArg (·.strobeHead q) e2
  have hGo : (m1.unitRuns && (m2.headWord q == some w) && ((m2.qu q).st == .run || (m2.qu q).st == .wait)) = true := by
    rw [e1, e2, hReady.1, hHead]
    rcases hStands.live with hs | hs <;> rw [hs] <;> simp [w]
  rw [if_pos hGo, Mach.fronts_step16Check, e3]
  split
  · exact hSent
  · rw [Mach.fronts_forAll (fun x n => x.fronts_takeAll n), hSent]

/-- An axis-class command whose queue is ready for it leaves the ring. -/
theorem axisClass_dispatches {c : Instr} {s : State} {q : Fin 64} {opc : Nat} {args : CmdArgs} (hopc : axisClass opc = true)
    (hc : exec c s = s.run fun m => m.command q.val opc args) (h : s.m.Ready q.val (cmdWord opc args)) (hFree : s.m.OrdersFree q.val) :
    Completes c s fun t => (t.qu q.val).nextId = (s.m.qu q.val).nextId + 1 ∧ t.Popped q.val s.m := by
  have hClass : axisClass (opcOf (cmdWord opc args)) = true := by
    obtain ⟨-, hle⟩ := of_decide_eq_true hopc
    rwa [opcOf_cmdWord opc args (by omega)]
  refine .of_body hc rfl (Mach.popped_of_advanced ?_)
  rw [Mach.fronts_of_queues (Mach.settle_queues _ _)]
  exact Mach.fronts_command q.isLt hClass (h.begin_ hClass) hFree

end Sys2Proof.Machine
end

section
/-!
PROOFS. The statements on axis control and on the axis-class commands. What these commands leave unchanged holds, and so does their
dispatch. The three on completion fail: O25 on a sound state in which a hard stop is due, O19 and O26 on states whose register file
lists a register twice, so is not in canonical form.
-/

namespace Sys2Proof.Machine

/-! ### Every axis-class opcode -/

/-- The frame of a row of an axis-class command: its body stays within what a queue command may change. -/
theorem axisClass_changes {c : Instr} {s t : State} {q opc : Nat} {args : CmdArgs} {parts : List Part} {regs : List Reg}
    (hopc : axisClass opc = true) (hc : exec c s = s.run fun m => m.command q opc args) (hm : maskFits queueMask parts regs)
    (hs : s.Sound) (ht : exec c s = .next t) : Changes s.m t.m parts regs := by
  obtain ⟨-, hle⟩ := of_decide_eq_true hopc
  exact State.run_changes hs queueMask
    (fun _ h => Mach.command_within h (Nat.and_self _) q opc args (by omega) (by omega) (by omega) (by omega) (by omega))
    (hc.symm.trans ht) hm

/-- Settles O55: each clause is the frame of one axis-class opcode, whose mask names no more than the clause lists. -/
theorem axisCommandFrame : Obligations.AxisCommandFrame := by
  unfold Obligations.AxisCommandFrame
  refine ⟨?moveAbs, ?moveRel, ?vel, ?stop, ?hold, ?home, ?setPos, ?enable, ?disable, ?groupMove, ?gear, ?cam, ?trim⟩
  all_goals exact fun _ _ _ _ => axisClass_changes rfl rfl rfl

/-- Settles O27: each clause is the dispatch of one axis-class opcode, which advances its queue; what the engines then do with the
command leaves what the queue has reached. -/
theorem axisClassCommandsDispatch : Obligations.AxisClassCommandsDispatch := by
  unfold Obligations.AxisClassCommandsDispatch
  refine ⟨?moveAbs, ?moveRel, ?vel, ?stop, ?hold, ?home, ?setPos, ?enable, ?disable, ?groupMove, ?gear, ?cam, ?trim⟩
  all_goals exact fun _ _ _ ⟨hReady, hFree⟩ => axisClass_dispatches rfl rfl hReady hFree

/-! ### A STOP taken for the boundary of a hard stop -/

/-- A module in RUN, its start complete, all registers at their start values. -/
def Mach.started : Mach := { Mach.reset with clk.running := true, kn.phase := .run, kn.vauxGood := true, kn.step16 := true }

/-- A queue as after reset is ready for a word that passes the checks and names nothing in the DRAM. -/
theorem Mach.ready_of_resetQueues {m : Mach} {q : Nat} {w : Word} (hq : q < 64) (h : m.queues = Mach.reset.queues) (hUnit : m.unitRuns = true)
    (hCheck : m.headCheck q w = none) (hRead : m.readsDram q w = false) (hRoom : m.cplUnread + m.cplReserved < 960) : m.Ready q w := by
  have hReset : ∀ k < 64, m.qu k = Queue.reset := fun k hk => by simp [Mach.qu, h, Mach.reset, vget, hk]
  refine ⟨hUnit, fun k => by rw [hReset _ k.isLt]; rfl, by rw [hReset q hq]; rfl, hCheck, fun hd => ?_, .inr hRoom, .inl ?_⟩
  · rw [hRead] at hd
    cases hd
  · rw [hReset q hq]
    exact ⟨rfl, .inr ⟨rfl, rfl, .inl rfl⟩⟩

/-- A started module whose axis 0 is in MOVE, with a hard stop due at boundary 1, the next one. -/
def hardStopDue : State :=
  { pending := []
    m := Mach.started.modAx 0 fun a => { a with mode := .move, hardAt := some (1, 0x02) } }

/-- A STOP with slot 7, the slot that is usable at its start values. -/
def stopSlot7 : CmdArgs := { flg := 0x70, tag := 0, p1 := 0, p0 := 0 }

/-- It meets what the clause on STOP in MOVE or FOLLOW asks, in a sound state. -/
theorem hardStopDue_meets : hardStopDue.Sound ∧ hardStopDue.m.Ready 0 (cmdWord 0x04 stopSlot7) ∧ hardStopDue.m.AxisFree 0 ∧
    (hardStopDue.m.ax 0).mode = .move ∧ (hardStopDue.m.ax 0).group = none :=
  ⟨sound_of_regsWf rfl rfl rfl rfl,
    Mach.ready_of_resetQueues (by decide) rfl rfl (by decide +kernel) (by decide +kernel) (by decide +kernel), ⟨rfl, rfl⟩, rfl, rfl⟩

/-- R137: the STOP gives way to the hard stop, and the axis stays in MOVE until that comes. -/
theorem hardStopDue_keepsMove : ((hardStopDue.m.begin_.command 0 0x04 stopSlot7).ax 0).mode = .move := by decide +kernel

/-- Refutes O25: its clause on STOP in MOVE or FOLLOW asks the state STOP and a stop part in every such state. Where a hard stop is due
at the next boundary, as in this sound state, a STOP gives way to it (R137) and the axis stays in MOVE. -/
theorem not_motionCommandsComplete : ¬ Obligations.MotionCommandsComplete := by
  unfold Obligations.MotionCommandsComplete
  rintro ⟨-, -, -, stopDecelerates, -⟩
  obtain ⟨-, hReady, hFree, hMode, hGroup⟩ := hardStopDue_meets
  obtain ⟨hStop, -⟩ := (stopDecelerates hardStopDue 0 stopSlot7 ⟨hReady, by decide, rfl, hFree, .inl hMode, hGroup⟩).after_body
    (f := fun m => m.command 0 0x04 stopSlot7) rfl
  rw [Mach.ax, Mach.settle_axes] at hStop
  cases hardStopDue_keepsMove.symm.trans hStop

/-! ### TENSION_TRIM and a register listed twice -/

/-- A started module whose register file lists GR_FSTAT of axis 0 twice, with TRIM_ON set in both words. -/
def trimListedTwice : State :=
  { pending := []
    m := { Mach.started with regs := [(⟨.GR_FSTAT, 0, 0⟩, 8), (⟨.GR_FSTAT, 0, 0⟩, 8)] } }

/-- The TENSION_TRIM that stops the loop: ON clear, and every other operand zero. -/
def trimOff : CmdArgs := { flg := 0, tag := 0, p1 := 0, p0 := 0 }

/-- It meets what the clause on a TENSION_TRIM with ON clear asks. -/
theorem trimListedTwice_meets : trimListedTwice.m.Ready 0 (cmdWord 0x13 trimOff) ∧ trimListedTwice.m.AxisFree 0 ∧
    (trimListedTwice.m.ax 0).mode = .off :=
  ⟨Mach.ready_of_resetQueues (by decide) rfl rfl (by decide +kernel) (by decide +kernel) (by decide +kernel), ⟨rfl, rfl⟩, rfl⟩

/-- R236: the clear of TRIM_ON takes the first word off the register file and uncovers the second. -/
theorem trimListedTwice_reveals : (trimListedTwice.m.begin_.command 0 0x13 trimOff).rb F.GR_FSTAT_TRIM_ON 0 = true := by
  decide +kernel

/-- Refutes O26: its clause on a TENSION_TRIM with ON clear asks TRIM_ON to read clear in every state. Where the register file lists
GR_FSTAT of the axis twice, so is not in canonical form, the second word is read instead; in canonical form a cleared field reads zero
(`Mach.rd_clrFld`). -/
theorem not_axisModeCommandsComplete : ¬ Obligations.AxisModeCommandsComplete := by
  unfold Obligations.AxisModeCommandsComplete
  rintro ⟨-, -, -, -, -, -, trimStops⟩
  obtain ⟨hReady, hFree, hMode⟩ := trimListedTwice_meets
  have hNot : ∀ x : AxMode, x ≠ .off → (trimListedTwice.m.ax 0).mode ≠ x := fun x hx => fun e => hx (e.symm.trans hMode)
  obtain ⟨-, hOff, -⟩ := (trimStops trimListedTwice 0 trimOff
    ⟨hReady, by decide, rfl, hFree, hNot _ (by decide), hNot _ (by decide), by decide⟩).after_body
    (f := fun m => m.command 0 0x13 trimOff) rfl
  rw [Mach.rb_settle] at hOff
  cases trimListedTwice_reveals.symm.trans hOff

/-! ### The latch of a limit input and a register listed twice -/

/-- A started module whose register file lists AX_LIM_STAT of axis 0 twice, with LATCH_A set in both words; its input LIMA is high. -/
def latchListedTwice : State :=
  { pending := []
    m := { Mach.started with
      inp.limA := 1
      regs := [(⟨.AX_LIM_STAT, 0, 0⟩, 4), (⟨.AX_LIM_STAT, 0, 0⟩, 4)] } }

/-- It meets what the clause on the latches asks, and what its conclusion asks of LATCH_A: the input is not active. -/
theorem latchListedTwice_meets : latchListedTwice.m.Takes ⟨.AX_LIM_STAT, 0, 0⟩ 4 ∧ latchListedTwice.m.limActive 0 false = false :=
  ⟨by
    unfold Mach.Takes
    decide +kernel, by decide +kernel⟩

/-- R154: the clear of LATCH_A takes the first word off the register file and uncovers the second. -/
theorem latchListedTwice_reveals : (latchListedTwice.m.begin_.hostWrite ⟨.AX_LIM_STAT, 0, 0⟩ 4).rb F.AX_LIM_STAT_LATCH_A 0 = true := by
  decide +kernel

/-- Refutes O19: its clause on LIM_LATCH_CLEAR asks LATCH_A to read clear in every state in which the input is not active. Where the
register file lists AX_LIM_STAT of the axis twice, so is not in canonical form, the second word is read instead; in canonical form a
cleared field reads zero (`Mach.rd_clrFld`). -/
theorem not_axisControlCompletes : ¬ Obligations.AxisControlCompletes := by
  unfold Obligations.AxisControlCompletes
  rintro ⟨-, -, -, -, -, -, -, -, -, -, -, -, latchClears⟩
  obtain ⟨hTakes, hInactive⟩ := latchListedTwice_meets
  obtain ⟨hClear, -⟩ := (latchClears latchListedTwice 0 true false hTakes).after_body
    (f := fun m => m.hostWrite ⟨.AX_LIM_STAT, 0, 0⟩ 4) rfl
  have hCleared := hClear ⟨rfl, hInactive⟩
  rw [Mach.rb_settle] at hCleared
  cases latchListedTwice_reveals.symm.trans hCleared

end Sys2Proof.Machine
end

section
/-!
PROOFS. The registers of a queue: pushing, publishing, control and the start of a routine. A write that is taken does what its owner does
(`Mach.EndsAs`); where an owner sets a flag, the predicate `ShowsBitAt` says that the flag stays visible, in a register file of any form.
-/

namespace Sys2Proof.Machine

/-! ### A bit that stays visible at any index -/

/-- The one-bit field `f` of the register at index `i`, clear at reset, reads set, in the value in force beside a staged write or in a word
that the register file lists. -/
structure Mach.ShowsBitAt (m : Mach) (f : Fld) (i : Nat) : Prop where
  clear : bitsOf (RegKey.resetVal ⟨f.reg, i, 0⟩).toNat f.lo f.width = 0
  staged : ∀ s, m.staged.find? (fun s => s.key == (⟨f.reg, i, 0⟩ : RegKey)) = some s → bitsOf s.force.toNat f.lo f.width = 1
  listed : m.staged.find? (fun s => s.key == (⟨f.reg, i, 0⟩ : RegKey)) = none →
    ∃ w, regEntry m.regs ⟨f.reg, i, 0⟩ = some w ∧ bitsOf w.toNat f.lo f.width = 1

theorem Mach.ShowsBitAt.rb {m : Mach} {f : Fld} {i : Nat} (h : m.ShowsBitAt f i) : m.rb f i = true := by
  rw [Mach.rb, Mach.rd, beq_iff_eq]
  cases hs : m.staged.find? (fun s => s.key == (⟨f.reg, i, 0⟩ : RegKey)) with
  | some s =>
    rw [Mach.force_of_staged hs]
    exact h.staged s hs
  | none =>
    obtain ⟨w, hw, hb⟩ := h.listed hs
    rw [Mach.force_of_unstaged hs, Mach.reg, regGet_of_entry hw, hb]

/-- It rests on the registers and on the writes that wait. -/
theorem Mach.ShowsBitAt.congr {m m' : Mach} {f : Fld} {i : Nat} (h : m.ShowsBitAt f i) (hr : m'.regs = m.regs)
    (hs : m'.staged = m.staged) : m'.ShowsBitAt f i := ⟨h.clear, hs ▸ h.staged, hs ▸ hr ▸ h.listed⟩

/-- A field `g` is written in the register of `f`, so that the words show `f` set. -/
theorem Mach.ShowsBitAt.of_wr {m : Mach} {f g : Fld} {i v : Nat} (hReset : bitsOf (RegKey.resetVal ⟨f.reg, i, 0⟩).toNat f.lo f.width = 0)
    (hreg : g.reg = f.reg) (hg : g.lo + g.width ≤ 128)
    (hs : ∀ s, m.staged.find? (fun s => s.key == (⟨f.reg, i, 0⟩ : RegKey)) = some s →
      bitsOf (putBits s.force.toNat g.lo g.width v) f.lo f.width = 1)
    (hr : m.staged.find? (fun s => s.key == (⟨f.reg, i, 0⟩ : RegKey)) = none →
      bitsOf (putBits (m.reg f.reg i 0) g.lo g.width v) f.lo f.width = 1) : (m.wr g v i).ShowsBitAt f i := by
  obtain ⟨r, lo, width⟩ := g
  obtain rfl : r = f.reg := hreg
  have word : ∀ x < 2 ^ 128, (BitVec.ofNat 128 (putBits x lo width v)).toNat = putBits x lo width v := fun x hx => by
    rw [BitVec.toNat_ofNat, Nat.mod_eq_of_lt (putBits_lt hx hg)]
  have hw := m.staged_wr_same ⟨f.reg, lo, width⟩ v i 0
  refine ⟨hReset, fun s h => ?_, fun h => ?_⟩
  · obtain ⟨s', hs', rfl⟩ := Option.map_eq_some_iff.mp (hw.symm.trans h)
    exact (congrArg (bitsOf · f.lo f.width) (word _ s'.force.isLt)).trans (hs s' hs')
  · have hUnstaged := Option.map_eq_none_iff.mp (hw.symm.trans h)
    have hShown := (congrArg (bitsOf · f.lo f.width) (word _ (m.reg_lt f.reg i 0))).trans (hr hUnstaged)
    refine ⟨_, regEntry_regSet_same _ fun e => ?_, hShown⟩
    rw [e] at hShown
    cases hReset.symm.trans hShown

/-- Setting a bit that is clear at reset shows it. -/
theorem Mach.showsBitAt_setBit (m : Mach) {f : Fld} {i : Nat} (hf : f.lo + f.width ≤ 128) (hw : f.width = 1)
    (hReset : bitsOf (RegKey.resetVal ⟨f.reg, i, 0⟩).toNat f.lo f.width = 0) : (m.setBit f i).ShowsBitAt f i :=
  .of_wr hReset rfl hf (fun _ _ => bitsOf_putBits_one _ f.lo hw) fun _ => bitsOf_putBits_one _ f.lo hw

/-- A register other than that of the bit is set. -/
theorem Mach.ShowsBitAt.wr_other {m : Mach} {f g : Fld} {i j k : Nat} (h : m.ShowsBitAt f i) (v : Nat)
    (hk : (⟨g.reg, j, k⟩ : RegKey) ≠ ⟨f.reg, i, 0⟩) : (m.wr g v j k).ShowsBitAt f i := by
  have hs := m.staged_wr_other v j k hk
  refine ⟨h.clear, hs ▸ h.staged, fun hn => ?_⟩
  obtain ⟨w, hw, hb⟩ := h.listed (hs ▸ hn)
  exact ⟨w, regEntry_regSet_other _ hk hw, hb⟩

/-- Another field of the register of the bit is written. -/
theorem Mach.ShowsBitAt.wr_field {m : Mach} {f g : Fld} {i : Nat} (h : m.ShowsBitAt f i) (v : Nat) (hreg : g.reg = f.reg)
    (hg : g.lo + g.width ≤ 128) (hd : f.lo + f.width ≤ g.lo ∨ g.lo + g.width ≤ f.lo) : (m.wr g v i).ShowsBitAt f i := by
  have put : ∀ x, bitsOf (putBits x g.lo g.width v) f.lo f.width = bitsOf x f.lo f.width := fun x =>
    hd.elim bitsOf_putBits_below bitsOf_putBits_above
  refine .of_wr h.clear hreg hg (fun s hs => (put _).trans (h.staged s hs)) fun hs => (put _).trans ?_
  obtain ⟨w, hw, hb⟩ := h.listed hs
  rw [Mach.reg, regGet_of_entry hw, hb]

/-- A field of Q_IRQ that does not meet the bit is written, where the bit is one of Q_IRQ. -/
theorem Mach.ShowsBitAt.irq {m : Mach} {f g : Fld} {i : Nat} (h : m.ShowsBitAt f i) (hg : g.reg = .Q_IRQ) (hlt : g.lo + g.width ≤ 8)
    (hd : f.reg = .Q_IRQ → i = 0 ∧ 8 ≤ f.lo) : (m.setBit g).ShowsBitAt f i := by
  by_cases hf : f.reg = .Q_IRQ
  · obtain ⟨rfl, hlo⟩ := hd hf
    exact h.wr_field 1 (hg.trans hf.symm) (by omega) (.inr (by omega))
  · exact h.wr_other 1 (RegKey.ne_of_reg (hg ▸ Ne.symm hf))

theorem Mach.ShowsBitAt.when {m : Mach} {f : Fld} {i : Nat} (h : m.ShowsBitAt f i) (c : Bool) {g : Mach → Mach}
    (hg : (g m).ShowsBitAt f i) : (m.when c g).ShowsBitAt f i := by
  unfold Mach.when
  split
  · exact hg
  · exact h

/-- A record of the event ring and its mirror. -/
theorem Mach.ShowsBitAt.record {m : Mach} {f : Fld} {i : Nat} (h : m.ShowsBitAt f i) (r : Rings) (a n v : Nat) :
    (({ m with rings := r } : Mach).dramWrite a n v).ShowsBitAt f i := h.congr rfl rfl

/-- An event that enters the ring sets no other bits than those of its own interrupt lines. -/
theorem Mach.ShowsBitAt.enterEvt {m : Mach} {f : Fld} {i : Nat} (h : m.ShowsBitAt f i) (hd : f.reg = .Q_IRQ → i = 0 ∧ 8 ≤ f.lo)
    (code obj data ts : Nat) : (m.enterEvt code obj data ts).ShowsBitAt f i := by
  have line : ∀ {x : Mach} (c : Bool) {g : Fld}, x.ShowsBitAt f i → g.reg = .Q_IRQ → g.lo + g.width ≤ 8 →
      (x.when c fun y => y.setBit g).ShowsBitAt f i := fun c _ hx hg hlt => hx.when c (hx.irq hg hlt hd)
  have hRecord := h.record (m.rings.pushEvt (eventWord code obj ts data))
  exact line _ (line _ (hRecord _ _ _) rfl (by decide)) rfl (by decide)

theorem Mach.ShowsBitAt.post {m : Mach} {f : Fld} {i : Nat} (h : m.ShowsBitAt f i) (hd : f.reg = .Q_IRQ → i = 0 ∧ 8 ≤ f.lo)
    (code obj data : Nat) : (m.post code obj data).ShowsBitAt f i := by
  unfold Mach.post Mach.postAt
  split
  · exact h.congr rfl rfl
  · exact h.enterEvt hd ..

/-- The interrupt line of a push overflow is clear at reset. -/
theorem pushOvfLine_clear : bitsOf (RegKey.resetVal ⟨.Q_IRQ, 0, 0⟩).toNat 8 1 = 0 := by decide

/-- The bits of Q_STATUS are clear at reset. -/
theorem queueStatus_clear (q lo : Nat) : bitsOf (RegKey.resetVal ⟨.Q_STATUS, q, 0⟩).toNat lo 1 = 0 := by
  have hZero : RegKey.resetVal ⟨.Q_STATUS, q, 0⟩ = 0 := by
    rw [RegKey.resetVal, if_neg (by simp)]
    show BitVec.ofNat 128 (Reg.Q_STATUS.desc.fields.map fun f => f.reset * 2 ^ f.lo).sum = 0
    decide
  rw [hZero]
  simp [bitsOf]

/-! ### What a write of a queue register ends in -/

/-- `t` is what a command ends in whose write leaves `o` at the register's owner: the end of the frame and what follows every command
change neither the queues nor the rings, and HP_ERR alone of the registers. -/
structure Mach.EndsAs (t o : Mach) : Prop where
  queues : t.queues = o.queues
  rings : t.rings = o.rings
  kn : t.kn = o.kn
  clk : t.clk = o.clk
  shows : ∀ {f : Fld} {i : Nat}, f.reg ≠ .HP_ERR → o.ShowsBitAt f i → t.rb f i = true

theorem Mach.EndsAs.qu {t o : Mach} (h : t.EndsAs o) (q : Nat) : t.qu q = o.qu q := by
  rw [Mach.qu, Mach.qu, h.queues]

theorem Mach.endsAs_writesDone (o b : Mach) (bits : Nat) : ((o.writesDone bits).settle b).EndsAs o := by
  obtain ⟨hp, e | e⟩ := o.writesDone_eq bits
  all_goals rw [e]
  · refine ⟨by simp, by simp, by simp, by simp, fun _ hb => ?_⟩
    rw [Mach.rb_settle]
    exact (hb.congr rfl rfl).rb
  · refine ⟨Mach.settle_queues _ _, Mach.settle_rings _ _, Mach.settle_kn _ _, Mach.settle_clk _ _, fun {f i} hf hb => ?_⟩
    have hOther : (⟨.HP_ERR, 0, 0⟩ : RegKey) ≠ ⟨f.reg, i, 0⟩ := RegKey.ne_of_reg hf.symm
    rw [Mach.rb_settle]
    refine Mach.ShowsBitAt.rb ⟨hb.clear, hb.staged, fun hn => ?_⟩
    obtain ⟨w, hw, hw1⟩ := hb.listed hn
    exact ⟨w, regEntry_regSet_other _ hOther hw, hw1⟩

/-- The registers with which a host feeds and controls a queue. -/
def queueRegs : List Reg := [.Q_PUSH, .Q_PUSH_DB, .Q_DB, .Q_MDB_LO, .Q_MDB_HI, .Q_CTRL, .Q_RTN]

/-- R488, R489, R495: such a register is none of the indirect access, no lock guards it, and it has no bits that name a state. -/
theorem queueRegs_plain {r : Reg} (hr : r ∈ queueRegs) (i : Nat) :
    r ≠ .GL_IDATA ∧ lockBit ⟨r, i, 0⟩ = none ∧ ∀ x : Mach, x.levelBits ⟨r, i, 0⟩ = 0 := by
  simp only [queueRegs, List.mem_cons, List.not_mem_nil, or_false] at hr
  rcases hr with rfl | rfl | rfl | rfl | rfl | rfl | rfl
  all_goals exact ⟨by decide, rfl, fun _ => rfl⟩

/-- A write of a queue register that is taken completes with what its owner makes of it. -/
theorem Completes.of_queueWrite {c : Instr} {s : State} {r : Reg} {i w : Nat} {o : Mach} {P : Mach → Prop}
    (hc : exec c s = s.run fun m => m.abortsDue.hostWrite ⟨r, i, 0⟩ w) (hN : s.m.NoAbort) (ht : s.m.Takes ⟨r, i, 0⟩ w)
    (hr : r ∈ queueRegs) (ho : s.m.begin_.ownerWrite ⟨r, i, 0⟩ w false = o) (hP : ∀ t : Mach, t.EndsAs o → P t) :
    Completes c s P := by
  obtain ⟨hData, hFree, hLevel⟩ := queueRegs_plain hr i
  have hAnswers : s.m.begin_.regAnswers ⟨r, i, 0⟩ = true := ht.1
  have hLocks : ∀ result, s.m.begin_.lockRefuses s.m.begin_.lockBits ⟨r, i, 0⟩ result = false := fun result => by
    rw [Mach.lockRefuses, hFree]
  refine .of_body hc rfl (hP _ ?_)
  have hBody : s.m.begin_.abortsDue.hostWrite ⟨r, i, 0⟩ w = o.writesDone s.m.begin_.lockBits := by
    rw [Mach.abortsDue_of_noAbort (m := s.m.begin_) hN, Mach.hostWrite_answers hData hAnswers (hLocks _),
      Mach.levelsHold_none (hLevel _), ho]
  exact hBody ▸ o.endsAs_writesDone _ _

/-- R198: a record that enters the event ring is the newest. -/
theorem Rings.mem_pushEvt (r : Rings) (w : Word) : w ∈ (r.pushEvt w).evt := by
  have hEvt : (r.pushEvt w).evt = w :: r.evt.take 4095 := by
    unfold Rings.pushEvt
    exact List.take_succ_cons
  rw [hEvt]
  exact List.mem_cons_self ..

theorem Mach.when_setBit_rings (m : Mach) (c : Bool) (f : Fld) : (m.when c fun x => x.setBit f).rings = m.rings := by
  unfold Mach.when
  split <;> rfl

/-- R198: the rings once an event has entered. -/
theorem Mach.enterEvt_rings (m : Mach) (code obj data ts : Nat) :
    (m.enterEvt code obj data ts).rings = m.rings.pushEvt (eventWord code obj ts data) :=
  (Mach.when_setBit_rings _ _ _).trans (Mach.when_setBit_rings _ _ _)

/-- R196, R87: an event that the owner posts last is posted. -/
theorem Mach.EndsAs.posted {a m t : Mach} {code obj data : Nat} (h : t.EndsAs (m.post code obj data)) (hp : m.kn.phase = a.kn.phase) :
    a.Posted t code obj data := by
  have hStamp : t.stamp = m.stamp := by
    rw [Mach.stamp, h.clk, Mach.post_clk]
    rfl
  unfold Mach.Posted
  split
  · next hs =>
    rw [h.kn, Mach.post, Mach.postAt, if_pos (hp.trans hs)]
    exact List.mem_append_right _ (List.mem_singleton_self _)
  · next hs =>
    rw [h.rings, Mach.post, Mach.postAt, if_neg (hp ▸ hs), hStamp, Mach.enterEvt_rings]
    exact Rings.mem_pushEvt _ _

/-! ### Pushing -/

/-- R193: a word is dropped for want of room: the flags and the event. -/
def Mach.overflow (m : Mach) (q : Nat) (w : Word) : Mach :=
  ((m.setBit F.Q_STATUS_PUSH_OVF q).setBit F.Q_IRQ_PUSH_OVF).post Ev.Q_PUSH_OVF q (tagOf w)

theorem Mach.push_room {m : Mach} {q : Nat} (w : Word) (hSt : (m.qu q).st ≠ .aborting)
    (hRoom : (m.qu q).published.length + (m.qu q).staged.length < 32) :
    m.push q w = m.modQ q fun x => { x with staged := x.staged ++ [w] } := by
  unfold Mach.push
  dsimp only
  rw [if_neg hSt, if_neg (Nat.not_le.mpr hRoom)]

theorem Mach.push_full {m : Mach} {q : Nat} (w : Word) (hSt : (m.qu q).st ≠ .aborting)
    (hFull : 32 ≤ (m.qu q).published.length + (m.qu q).staged.length) : m.push q w = m.overflow q w := by
  unfold Mach.push
  dsimp only
  rw [if_neg hSt, if_pos hFull]
  rfl

theorem Mach.overflow_queues (m : Mach) (q : Nat) (w : Word) : (m.overflow q w).queues = m.queues := Mach.post_queues ..

theorem Mach.overflow_shows (m : Mach) (q : Nat) (w : Word) :
    (m.overflow q w).ShowsBitAt F.Q_STATUS_PUSH_OVF q ∧ (m.overflow q w).ShowsBitAt F.Q_IRQ_PUSH_OVF 0 := by
  have hStatus := (m.showsBitAt_setBit (f := F.Q_STATUS_PUSH_OVF) (i := q) (by decide) rfl (queueStatus_clear q 18)).wr_other
    (g := F.Q_IRQ_PUSH_OVF) (j := 0) (k := 0) 1 (RegKey.ne_of_reg (by decide))
  have hLine := (m.setBit F.Q_STATUS_PUSH_OVF q).showsBitAt_setBit (f := F.Q_IRQ_PUSH_OVF) (by decide) rfl pushOvfLine_clear
  exact ⟨hStatus.post (fun h => by cases h) .., hLine.post (fun _ => ⟨rfl, by decide⟩) ..⟩

/-- R193: the staged entries of a queue are published. -/
def Queue.publish (x : Queue) : Queue := ({ x with published := x.published ++ x.staged, staged := [] } : Queue).settle

theorem Mach.publish_eq (m : Mach) (q : Nat) : m.publish q = m.modQ q Queue.publish := rfl

/-- What is staged follows what was published. -/
theorem Queue.publish_words (x : Queue) : x.publish.staged = [] ∧ x.publish.published = x.published ++ x.staged := by
  obtain ⟨st, why, e⟩ := Queue.settle_eq { x with published := x.published ++ x.staged, staged := [] }
  rw [Queue.publish, e]
  exact ⟨rfl, rfl⟩

/-- R180: an IDLE queue that has something to do runs. -/
theorem Queue.settle_run {x : Queue} (hSt : x.st = .idle) (hBusy : x.drained = false) : x.settle.st = .run := by
  unfold Queue.settle
  simp [hSt, hBusy]

/-- R180: an IDLE queue to which a word is published runs. -/
theorem Queue.publish_run {x : Queue} (hSt : x.st = .idle) (hStaged : x.staged ≠ []) : x.publish.st = .run :=
  Queue.settle_run hSt (by simp [Queue.drained, hStaged])

/-! ### Publishing by a mask -/

/-- The queue of bit `k` of Q_MDB_LO or Q_MDB_HI. -/
def mdbQueue (hi : Bool) (k : Nat) : Nat := if hi then 32 + k else k

/-- What one bit of the mask does. -/
def mdbBit (hi : Bool) (mask : Nat) (m : Mach) (k : Nat) : Mach := if bitOf mask k then m.publish (mdbQueue hi k) else m

theorem mdbQueue_eq {hi : Bool} {i k : Nat} : mdbQueue hi i = mdbQueue hi k ↔ i = k := by
  unfold mdbQueue
  split <;> omega

theorem mdbQueue_lt {hi : Bool} {k : Nat} (h : k < 32) : mdbQueue hi k < 64 := by
  unfold mdbQueue
  split <;> omega

theorem Mach.each_succ (m : Mach) (n : Nat) (f : Mach → Nat → Mach) : m.each (n + 1) f = f (m.each n f) n := by
  rw [Mach.each, List.range_succ, List.foldl_append]
  rfl

/-- A queue of the mask after a bit, by whether the bit is its own. -/
theorem mdbBit_qu (hi : Bool) (mask : Nat) (m : Mach) (i : Nat) {k : Nat} (hk : k < 32) : (mdbBit hi mask m k).qu (mdbQueue hi i) =
    if i = k ∧ bitOf mask k = true then (m.qu (mdbQueue hi i)).publish else m.qu (mdbQueue hi i) := by
  unfold mdbBit
  by_cases hBit : bitOf mask k = true
  · rw [if_pos hBit, Mach.publish_eq]
    by_cases hik : i = k
    · subst hik
      rw [Mach.qu_modQ_same _ _ (mdbQueue_lt hk), if_pos ⟨rfl, hBit⟩]
    · rw [Mach.qu_modQ_other _ _ ((not_congr mdbQueue_eq).mpr hik), if_neg fun h => hik h.1]
  · rw [if_neg hBit, if_neg fun h => hBit h.2]

/-- R194: after the first `n` bits of the mask the queues of those that are set are published, and the others as they were. -/
theorem Mach.mdb_firstBits (m : Mach) (hi : Bool) (mask i : Nat) : ∀ n ≤ 32, (m.each n (mdbBit hi mask)).qu (mdbQueue hi i) =
    if i < n ∧ bitOf mask i = true then (m.qu (mdbQueue hi i)).publish else m.qu (mdbQueue hi i) := by
  intro n
  induction n with
  | zero => exact fun _ => (if_neg fun h => absurd h.1 (Nat.not_lt_zero _)).symm
  | succ n ih =>
    intro hn
    rw [Mach.each_succ, mdbBit_qu _ _ _ _ hn, ih (by omega)]
    by_cases hin : i = n
    · subst hin
      simp
    · have hSame : i < n + 1 ↔ i < n := by omega
      simp [hin, hSame]

/-- R194: a bit of the mask publishes its queue, and no other bit does. -/
theorem Mach.mdb_qu (m : Mach) (hi : Bool) (mask : Nat) {i : Nat} (h : i < 32) : (m.mdb hi mask).qu (mdbQueue hi i) =
    if bitOf mask i = true then (m.qu (mdbQueue hi i)).publish else m.qu (mdbQueue hi i) := by
  refine (m.mdb_firstBits hi mask i 32 (Nat.le_refl _)).trans ?_
  simp only [h, true_and]

/-! ### A routine starts -/

/-- A write that a register takes leaves the queues, the sections of the image and the kiln. -/
theorem Mach.store_keeps (m : Mach) (k : RegKey) (w : Nat) (now : Bool) : (m.store k w now).queues = m.queues ∧
    (m.store k w now).sections = m.sections ∧ (m.store k w now).kn = m.kn := by
  unfold Mach.store
  extract_lets old new force m1 rest
  have h1 : m1.queues = m.queues ∧ m1.sections = m.sections ∧ m1.kn = m.kn := ⟨rfl, rfl, rfl⟩
  split
  · exact h1
  · split <;> exact h1

/-- What a write of Q_RTN stores before its START acts. -/
def Mach.rtnStored (m : Mach) (q w : Nat) : Mach := m.store ⟨.Q_RTN, q, 0⟩ w false

theorem Mach.rtnStored_qu (m : Mach) (q w k : Nat) : (m.rtnStored q w).qu k = m.qu k := by
  rw [Mach.qu, Mach.rtnStored, (m.store_keeps _ _ _).1, Mach.qu]

theorem Mach.rtnStored_routine (m : Mach) (q w n : Nat) : (m.rtnStored q w).routine n = m.routine n := by
  rw [Mach.routine, Mach.rtnStored, (m.store_keeps _ _ _).2.1, Mach.routine]

theorem Mach.rtnStored_kn (m : Mach) (q w : Nat) : (m.rtnStored q w).kn = m.kn := (m.store_keeps _ _ _).2.2

/-- R188: a write of Q_RTN with START starts the routine of its number. -/
theorem Mach.ownerWrite_rtn (m : Mach) (q : Nat) {w rtn : Nat} (hStart : bitOf w 31 = true) (hRtn : bitsOf w 0 8 = rtn) :
    m.ownerWrite ⟨.Q_RTN, q, 0⟩ w false = (m.rtnStored q w).rtnStart q rtn false := by
  show (m.rtnStored q w).when (bitOf w 31) (·.rtnStart q (bitsOf w 0 8) false) = _
  rw [hStart, hRtn]
  rfl

/-- The word of Q_RTN with START. -/
theorem rtnWord_fields (rtn : BitVec 8) : bitOf (2 ^ 31 + rtn.toNat) 31 = true ∧ bitsOf (2 ^ 31 + rtn.toNat) 0 8 = rtn.toNat := by
  have hLt := rtn.isLt
  constructor
  · rw [bitOf, beq_iff_eq]
    omega
  · rw [bitsOf]
    omega

/-- R188: a queue in which a routine has started by a write of Q_RTN. -/
def Queue.rtnStarted (x : Queue) (sec : Section) : Queue :=
  { x with st := .run, why := 0, stack := [.at sec.off sec.off (sec.off + sec.len)], fetched := none, auto_ := false }

/-- R188: an IDLE queue starts a routine that the image holds. -/
theorem Mach.rtnStart_idle {m : Mach} {q rtn : Nat} {sec : Section} (hSt : (m.qu q).st = .idle) (hRtn : m.routine rtn = some sec) :
    m.rtnStart q rtn false = (m.modQ q fun x => x.rtnStarted sec).post Ev.Q_RTN_START q rtn := by
  unfold Mach.rtnStart
  rw [hSt, hRtn]
  rfl

theorem Mach.qu_setBit (m : Mach) (f : Fld) (i j k : Nat) : (m.setBit f i j).qu k = m.qu k := rfl

/-- R188: a queue that is not IDLE refuses. -/
theorem Mach.rtnStart_refused {m : Mach} {q : Nat} (rtn : Nat) (hSt : (m.qu q).st ≠ .idle) :
    m.rtnStart q rtn false = m.setBit F.Q_STATUS_RTN_REFUSED q := by
  unfold Mach.rtnStart
  split
  · exact absurd ‹_› hSt
  · rfl

/-! ### The registers of a queue -/

section
variable {s : State} {q : Fin 64}

/-- A write of a queue register whose owner changes the queue alone completes with the queue so changed. -/
theorem Completes.of_queueChange {c : Instr} {r : Reg} {w : Nat} {f : Queue → Queue} {P : Queue → Prop}
    (hc : exec c s = s.run fun m => m.abortsDue.hostWrite ⟨r, q, 0⟩ w) (hN : s.m.NoAbort) (ht : s.m.Takes ⟨r, q, 0⟩ w)
    (hr : r ∈ queueRegs) (ho : s.m.begin_.ownerWrite ⟨r, q, 0⟩ w false = s.m.begin_.modQ q f)
    (hP : P (f (s.m.qu q))) : Completes c s fun t => P (t.qu q) := by
  refine .of_queueWrite hc hN ht hr ho fun t h => ?_
  rw [h.qu, Mach.qu_modQ_same _ _ q.isLt]
  exact hP

/-- A write of Q_CTRL with one bit set. -/
theorem Completes.of_queueControl {c : Instr} {w : Nat} {f : Queue → Queue} {P : Queue → Prop}
    (hc : exec c s = s.run fun m => m.abortsDue.hostWrite ⟨.Q_CTRL, q, 0⟩ w) (h : s.m.NoAbort ∧ s.m.Takes ⟨.Q_CTRL, q, 0⟩ w)
    (ho : s.m.begin_.writeQCtrl q w = s.m.begin_.modQ q f) (hP : P (f (s.m.qu q))) : Completes c s fun t => P (t.qu q) :=
  .of_queueChange hc h.1 h.2 (by decide) ho hP

/-- R193: a write of Q_PUSH with room stages the word. -/
theorem qPush_stages {w : Word} (hN : s.m.NoAbort) (ht : s.m.Takes ⟨.Q_PUSH, q, 0⟩ w.toNat) (hSt : (s.m.qu q).st ≠ .aborting)
    (hRoom : (s.m.qu q).published.length + (s.m.qu q).staged.length < 32) :
    Completes (.qPush q w) s fun t => (t.qu q).staged = (s.m.qu q).staged ++ [w] ∧
      (t.qu q).published = (s.m.qu q).published ∧ (t.qu q).st = (s.m.qu q).st := by
  have ho : s.m.begin_.ownerWrite ⟨.Q_PUSH, q, 0⟩ w.toNat false =
      s.m.begin_.modQ q fun x => { x with staged := x.staged ++ [w] } := by
    show s.m.begin_.push q (BitVec.ofNat 128 w.toNat) = _
    rw [BitVec.ofNat_toNat, BitVec.setWidth_eq]
    exact Mach.push_room (m := s.m.begin_) w hSt hRoom
  exact .of_queueChange (P := fun x => x.staged = _ ∧ x.published = _ ∧ x.st = _) rfl hN ht (by decide) ho ⟨rfl, rfl, rfl⟩

/-- R193: a write of Q_PUSH without room is dropped, and the overflow is shown and posted. -/
theorem qPush_overflows {w : Word} (hN : s.m.NoAbort) (ht : s.m.Takes ⟨.Q_PUSH, q, 0⟩ w.toNat) (hSt : (s.m.qu q).st ≠ .aborting)
    (hFull : 32 ≤ (s.m.qu q).published.length + (s.m.qu q).staged.length) :
    Completes (.qPush q w) s fun t => t.qu q = s.m.qu q ∧ t.rb F.Q_STATUS_PUSH_OVF q = true ∧
      t.rb F.Q_IRQ_PUSH_OVF = true ∧ s.m.Posted t Ev.Q_PUSH_OVF q (tagOf w) := by
  have ho : s.m.begin_.ownerWrite ⟨.Q_PUSH, q, 0⟩ w.toNat false = s.m.begin_.overflow q w := by
    show s.m.begin_.push q (BitVec.ofNat 128 w.toNat) = _
    rw [BitVec.ofNat_toNat, BitVec.setWidth_eq]
    exact Mach.push_full (m := s.m.begin_) w hSt hFull
  obtain ⟨hStatus, hLine⟩ := s.m.begin_.overflow_shows q w
  refine .of_queueWrite rfl hN ht (by decide) ho fun t h =>
    ⟨?_, h.shows (by decide) hStatus, h.shows (by decide) hLine, h.posted rfl⟩
  rw [Mach.qu, h.queues, Mach.overflow_queues]
  rfl

/-- R193: a write of Q_PUSH_DB with room publishes what is staged and the word. -/
theorem qPushDb_publishes {w : Word} (hN : s.m.NoAbort) (ht : s.m.Takes ⟨.Q_PUSH_DB, q, 0⟩ w.toNat) (hSt : (s.m.qu q).st ≠ .aborting)
    (hRoom : (s.m.qu q).published.length + (s.m.qu q).staged.length < 32) :
    Completes (.qPushDb q w) s fun t => (t.qu q).staged = [] ∧
      (t.qu q).published = (s.m.qu q).published ++ (s.m.qu q).staged ++ [w] ∧ ((s.m.qu q).st = .idle → (t.qu q).st = .run) := by
  have ho : s.m.begin_.ownerWrite ⟨.Q_PUSH_DB, q, 0⟩ w.toNat false =
      s.m.begin_.modQ q fun x => ({ x with staged := x.staged ++ [w] } : Queue).publish := by
    show (s.m.begin_.push q (BitVec.ofNat 128 w.toNat)).publish q = _
    rw [BitVec.ofNat_toNat, BitVec.setWidth_eq, Mach.push_room (m := s.m.begin_) w hSt hRoom, Mach.publish_eq, Mach.modQ_modQ]
    rfl
  obtain ⟨hStaged, hPub⟩ := Queue.publish_words { s.m.qu q with staged := (s.m.qu q).staged ++ [w] }
  refine .of_queueChange (P := fun x => x.staged = [] ∧ x.published = _ ∧ (_ → x.st = .run)) rfl hN ht (by decide) ho
    ⟨hStaged, hPub.trans (List.append_assoc ..).symm, fun hIdle => Queue.publish_run hIdle (by simp)⟩

/-- R188: a write of Q_RTN to an IDLE queue starts the routine. -/
theorem qRtn_starts {rtn : BitVec 8} {sec : Section} (hRtn : s.m.routine rtn.toNat = some sec) (hN : s.m.NoAbort)
    (ht : s.m.Takes ⟨.Q_RTN, q, 0⟩ (2 ^ 31 + rtn.toNat)) (hSt : (s.m.qu q).st = .idle) :
    Completes (.qRtnStart q rtn) s fun t => (t.qu q).st = .run ∧ (t.qu q).stack = [Frame.at sec.off sec.off (sec.off + sec.len)] ∧
      s.m.Posted t Ev.Q_RTN_START q rtn.toNat := by
  obtain ⟨hStart, hNumber⟩ := rtnWord_fields rtn
  have hc : exec (.qRtnStart q rtn) s = s.run fun m => m.abortsDue.hostWrite ⟨.Q_RTN, q, 0⟩ (2 ^ 31 + rtn.toNat) := rfl
  generalize 2 ^ 31 + rtn.toNat = w at hc ht hStart hNumber
  have hSame : (s.m.begin_.rtnStored q w).qu q = s.m.qu q := s.m.begin_.rtnStored_qu q w q
  have hRoutine : (s.m.begin_.rtnStored q w).routine rtn.toNat = some sec := (s.m.begin_.rtnStored_routine q w _).trans hRtn
  have ho := (s.m.begin_.ownerWrite_rtn q hStart hNumber).trans (Mach.rtnStart_idle (hSame ▸ hSt) hRoutine)
  refine .of_queueWrite hc hN ht (by decide) ho fun t h => ?_
  have hQu : t.qu q = (s.m.qu q).rtnStarted sec := by
    rw [Mach.qu, h.queues, Mach.post_queues, ← hSame]
    exact Mach.qu_modQ_same _ _ q.isLt
  rw [hQu]
  exact ⟨rfl, rfl, h.posted (congrArg Kiln.phase (s.m.begin_.rtnStored_kn q w))⟩

/-- R188: a write of Q_RTN to a queue that is not IDLE is refused. -/
theorem qRtn_refused {rtn : BitVec 8} (hN : s.m.NoAbort) (ht : s.m.Takes ⟨.Q_RTN, q, 0⟩ (2 ^ 31 + rtn.toNat))
    (hSt : (s.m.qu q).st ≠ .idle) :
    Completes (.qRtnStart q rtn) s fun t => t.rb F.Q_STATUS_RTN_REFUSED q = true ∧ t.qu q = s.m.qu q := by
  obtain ⟨hStart, hNumber⟩ := rtnWord_fields rtn
  have hc : exec (.qRtnStart q rtn) s = s.run fun m => m.abortsDue.hostWrite ⟨.Q_RTN, q, 0⟩ (2 ^ 31 + rtn.toNat) := rfl
  generalize 2 ^ 31 + rtn.toNat = w at hc ht hStart hNumber
  have hSame : (s.m.begin_.rtnStored q w).qu q = s.m.qu q := s.m.begin_.rtnStored_qu q w q
  have ho := (s.m.begin_.ownerWrite_rtn q hStart hNumber).trans (Mach.rtnStart_refused rtn.toNat (hSame ▸ hSt))
  exact .of_queueWrite hc hN ht (by decide) ho fun t h =>
    ⟨h.shows (by decide) (Mach.showsBitAt_setBit _ (by decide) rfl (queueStatus_clear q 21)),
      (h.qu q).trans ((Mach.qu_setBit ..).trans hSame)⟩

end

/-! ### Control -/

/-- R180: PAUSE. -/
def Queue.paused (x : Queue) : Queue :=
  match x.st with
  | .run | .wait => { x with st := .paused, why := 0 }
  | _ => x

/-- R180: FLUSH. -/
def Queue.flushed (x : Queue) : Queue :=
  match x.st with
  | .idle | .paused | .halted => { x with published := [], staged := [], stack := [.ring], fetched := none, slotNoted := false, vec := false }
  | _ => x

theorem Mach.writeQCtrl_pause (m : Mach) (q : Nat) : m.writeQCtrl q 1 = m.modQ q Queue.paused := rfl
theorem Mach.writeQCtrl_resume (m : Mach) (q : Nat) : m.writeQCtrl q 2 = m.modQ q Queue.resume := rfl
theorem Mach.writeQCtrl_flush (m : Mach) (q : Nat) : m.writeQCtrl q 4 = m.modQ q Queue.flushed := rfl

theorem Queue.paused_st (x : Queue) : x.paused.st = (if x.st = .run ∨ x.st = .wait then .paused else x.st) ∧
    x.paused.published = x.published := by
  unfold Queue.paused
  split
  · next h => exact ⟨(if_pos (.inl h)).symm, rfl⟩
  · next h => exact ⟨(if_pos (.inr h)).symm, rfl⟩
  · next hRun hWait => exact ⟨(if_neg (not_or.mpr ⟨hRun, hWait⟩)).symm, rfl⟩

/-- R180: a queue that leaves PAUSED or HALTED runs, or is IDLE where it has nothing to do. -/
theorem Queue.resume_held {x : Queue} (h : x.st = .paused ∨ x.st = .halted) :
    x.resume.st = (if x.drained then .idle else .run) ∧ x.resume.published = x.published := by
  have hResume : x.resume = ({ x with st := .run, why := 0 } : Queue).settle := by
    unfold Queue.resume
    rcases h with h | h <;> rw [h]
  have hDrained : ({ x with st := .run, why := 0 } : Queue).drained = x.drained := rfl
  rw [hResume, Queue.settle, hDrained]
  dsimp only
  split <;> exact ⟨rfl, rfl⟩

theorem Queue.resume_other {x : Queue} (hp : x.st ≠ .paused) (hh : x.st ≠ .halted) : x.resume = x := by
  unfold Queue.resume
  split
  · exact absurd ‹_› hp
  · exact absurd ‹_› hh
  · rfl

/-- R180: FLUSH empties a queue that is IDLE, PAUSED or HALTED. -/
theorem Queue.flushed_held {x : Queue} (h : x.st = .idle ∨ x.st = .paused ∨ x.st = .halted) :
    x.flushed.published = [] ∧ x.flushed.staged = [] ∧ x.flushed.stack = [.ring] ∧ x.flushed.st = x.st ∧
      x.flushed.inflight = x.inflight := by
  unfold Queue.flushed
  rcases h with h | h | h <;> simp [h]

theorem Queue.flushed_live {x : Queue} (h : x.st = .run ∨ x.st = .wait ∨ x.st = .aborting) : x.flushed = x := by
  unfold Queue.flushed
  rcases h with h | h | h <;> rw [h]

/-- R193: DISCARD drops what is staged. -/
def Queue.discarded (x : Queue) : Queue := { x with staged := [] }

theorem Mach.writeQDb_publish (m : Mach) (q : Nat) : m.writeQDb q 1 = m.modQ q Queue.publish := rfl
theorem Mach.writeQDb_discard (m : Mach) (q : Nat) : m.writeQDb q 2 = m.modQ q Queue.discarded := rfl

/-- R194: a write of Q_MDB_LO or Q_MDB_HI publishes the queues of its set bits and leaves the others of its half. -/
theorem qMdb_publishes {s : State} {hi : Bool} {mask : BitVec 32} (hN : s.m.NoAbort)
    (ht : s.m.Takes (if hi then ⟨.Q_MDB_HI, 0, 0⟩ else ⟨.Q_MDB_LO, 0, 0⟩) mask.toNat) :
    Completes (.qMdb hi mask) s fun t => ∀ i : Fin 32, t.qu (mdbQueue hi i) =
      if bitOf mask.toNat i = true then (s.m.qu (mdbQueue hi i)).publish else s.m.qu (mdbQueue hi i) := by
  cases hi
  all_goals exact .of_queueWrite rfl hN ht (by decide) rfl fun t h i => (h.qu _).trans (s.m.begin_.mdb_qu _ mask.toNat i.isLt)

/-- Settles O28: each clause is one write of a queue register that is taken; what its owner makes of the queue stays to the end of the
command, and so do the flags that it sets and the event that it posts. -/
theorem queuePushAndControlComplete : Obligations.QueuePushAndControlComplete := by
  unfold Obligations.QueuePushAndControlComplete
  refine ⟨?push, ?overflow, ?pushDb, ?publish, ?discard, ?mdb, ?pause, ?resume, ?resumeOther, ?flush, ?flushLive, ?start, ?refused⟩
  case push => exact fun s q w ⟨hN, ht, hSt, hRoom⟩ => qPush_stages hN ht hSt hRoom
  case overflow => exact fun s q w ⟨hN, ht, hSt, hFull⟩ => qPush_overflows hN ht hSt hFull
  case pushDb => exact fun s q w ⟨hN, ht, hSt, hRoom⟩ => qPushDb_publishes hN ht hSt hRoom
  case publish =>
    exact fun s q ⟨hN, ht⟩ => .of_queueChange (P := fun x => x.staged = [] ∧ x.published = _) rfl hN ht (by decide)
      (s.m.begin_.writeQDb_publish q) (Queue.publish_words _)
  case discard =>
    exact fun s q ⟨hN, ht⟩ => .of_queueChange (P := fun x => x.staged = [] ∧ x.published = _ ∧ x.st = _) rfl hN ht (by decide)
      (s.m.begin_.writeQDb_discard q) ⟨rfl, rfl, rfl⟩
  case mdb =>
    rintro s hi mask ⟨hN, ht⟩
    refine (qMdb_publishes hN ht).imp fun t hQueues i => ⟨fun hBit => ?_, fun hBit => ?_⟩
    · have hPublished := (hQueues i).trans (if_pos hBit)
      exact hPublished ▸ Queue.publish_words _
    · exact (hQueues i).trans (if_neg (ne_true_of_eq_false hBit))
  case pause =>
    exact fun s q h => .of_queueControl (P := fun x => x.st = _ ∧ x.published = _) rfl h (s.m.begin_.writeQCtrl_pause q) (Queue.paused_st _)
  case resume =>
    exact fun s q ⟨hN, ht, hSt⟩ => .of_queueControl (P := fun x => x.st = _ ∧ x.published = _) rfl ⟨hN, ht⟩ (s.m.begin_.writeQCtrl_resume q)
      (Queue.resume_held hSt)
  case resumeOther =>
    exact fun s q ⟨hN, ht, hp, hh⟩ => .of_queueControl (P := (· = _)) rfl ⟨hN, ht⟩ (s.m.begin_.writeQCtrl_resume q)
      (Queue.resume_other hp hh)
  case flush =>
    exact fun s q ⟨hN, ht, hSt⟩ => .of_queueControl
      (P := fun x => x.published = _ ∧ x.staged = _ ∧ x.stack = _ ∧ x.st = _ ∧ x.inflight = _) rfl ⟨hN, ht⟩
      (s.m.begin_.writeQCtrl_flush q) (Queue.flushed_held hSt)
  case flushLive =>
    exact fun s q ⟨hN, ht, hSt⟩ => .of_queueControl (P := (· = _)) rfl ⟨hN, ht⟩ (s.m.begin_.writeQCtrl_flush q) (Queue.flushed_live hSt)
  case start => exact fun s q rtn sec hRtn ⟨hN, ht, hSt⟩ => qRtn_starts hRtn hN ht hSt
  case refused => exact fun s q rtn ⟨hN, ht, hSt⟩ => qRtn_refused hN ht hSt

end Sys2Proof.Machine
end

section
/-!
PROOFS. The stored data over a step and at reset, and four statements on queue commands that fail: O22 and O24 on sound states that no run
reaches, O29 on a sound state with a GROUP_MOVE in flight, O23 on a state whose register file lists a register twice, so is not in
canonical form.
-/

namespace Sys2Proof.Machine

/-! ### The stored data -/

/-- Settles O1: every command keeps the stored data sound, relative to the key store before it (`step_keepsStored`); they are then sound
relative to the key store after it. -/
theorem stepKeepsStores : Obligations.StepKeepsStores := by
  unfold Obligations.StepKeepsStores
  intro s t hs ht
  exact ⟨{ (step_keepsStored hs ht).stored with otp := .refl _ }⟩

/-- Settles O8: at reset the memories and the rings are empty and no register is listed. -/
theorem resetIsSound : Obligations.ResetIsSound := by
  unfold Obligations.ResetIsSound
  exact sound_of_regsWf rfl rfl rfl rfl

/-! ### A wait and a command that its axis has not taken -/

/-- Operands that are all zero. -/
def noOperands : CmdArgs := { flg := 0, tag := 0, p1 := 0, p0 := 0 }

/-- A started module whose axis 0, which is OFF, has still to take a VEL with the number that queue 0 gives its next command. -/
def velUntaken : State :=
  { pending := []
    m := Mach.started.modAx 0 fun a => { a with toTake := [{ q := 0, id := some 0, w := cmdWord 0x03 noOperands, tgts := [], axs := [] }] } }

/-- It meets what the clause on WAIT_INPUT asks, in a sound state. -/
theorem velUntaken_meets : velUntaken.Sound ∧ velUntaken.m.Ready 0 (cmdWord 0x20 noOperands) :=
  ⟨sound_of_regsWf rfl rfl rfl rfl,
    Mach.ready_of_resetQueues (by decide) rfl rfl (by decide +kernel) (by decide +kernel) (by decide +kernel)⟩

/-- R177: an axis that is OFF turns the VEL away, and the wait, which bears its number, is marked to retire at the next boundary. -/
theorem velUntaken_retires : ((velUntaken.m.begin_.command 0 0x20 noOperands).qu 0).inflight.map (fun e => (e.w, e.wait.isSome, e.done)) =
    [(cmdWord 0x20 noOperands, true, some (0x82, 1))] := by decide +kernel

/-- Refutes O22: its clause on WAIT_INPUT asks that the wait has not ended, of every state in which the queue can dispatch it. The engine of
the queue's axis then takes what waits for it; in this sound state that is a command with the number of the wait, which the axis turns
away. -/
theorem not_queueWaitsComplete : ¬ Obligations.QueueWaitsComplete := by
  unfold Obligations.QueueWaitsComplete
  rintro ⟨inputWaits, -⟩
  obtain ⟨-, hReady⟩ := velUntaken_meets
  obtain ⟨hWaits, -⟩ := (inputWaits velUntaken 0 noOperands hReady).after_body (f := fun m => m.command 0 0x20 noOperands) rfl
  rw [Mach.qu_settle] at hWaits
  have hDone := velUntaken_retires.symm.trans hWaits
  simp at hDone

/-! ### NOP and a register listed twice -/

/-- A started module whose register file lists Q_LAST of queue 0 twice, with tag 1 in both words. -/
def lastListedTwice : State :=
  { pending := []
    m := { Mach.started with regs := [(⟨.Q_LAST, 0, 0⟩, 1), (⟨.Q_LAST, 0, 0⟩, 1)] } }

/-- It meets what the clause on NOP asks. -/
theorem lastListedTwice_meets : lastListedTwice.m.Ready 0 (cmdWord 0x7F noOperands) :=
  Mach.ready_of_resetQueues (by decide) rfl rfl (by decide +kernel) (by decide +kernel) (by decide +kernel)

/-- R184: the tag zero of the NOP takes the first word off the register file and uncovers the second. -/
theorem lastListedTwice_reveals : (lastListedTwice.m.begin_.command 0 0x7F noOperands).rd F.Q_LAST_TAG 0 = 1 := by decide +kernel

/-- The tag of a word whose operands are all zero. -/
theorem tagOf_noOperands : tagOf (cmdWord 0x7F noOperands) = 0 := by decide

/-- Refutes O23: its clause on NOP asks Q_LAST to show the tag of the command in every state. Where the register file lists Q_LAST of the
queue twice, so is not in canonical form, the second word is read instead of a tag of zero; in canonical form a field reads back what was
written (`Mach.rd_wr_same`). -/
theorem not_queueFlowCommandsComplete : ¬ Obligations.QueueFlowCommandsComplete := by
  unfold Obligations.QueueFlowCommandsComplete
  rintro ⟨-, -, -, -, -, -, -, -, -, nopRetires, -⟩
  obtain ⟨⟨hTag, -⟩, -⟩ := (nopRetires lastListedTwice 0 noOperands lastListedTwice_meets).after_body
    (f := fun m => m.command 0 0x7F noOperands) rfl
  rw [Mach.rd_settle, tagOf_noOperands] at hTag
  cases lastListedTwice_reveals.symm.trans hTag

/-! ### SET_PARAM and a restart -/

/-- The operands of a SET_PARAM that writes 1 to GL_IDATA. -/
def idataOne : CmdArgs := { flg := 0, tag := 0, p1 := 0x28, p0 := 0xFFFFFFFF00000001 }

/-- A module whose queue unit works while the kiln holds; its indirect address names KN_CTRL. -/
def restartIndirect : State :=
  { pending := []
    m := { Mach.started with
      kn.phase := .hold
      regs := [(⟨.GL_IADDR, 0, 0⟩, 0x8014)] } }

/-- It meets what the clause on SET_PARAM of any register asks, in a sound state. -/
theorem restartIndirect_meets : restartIndirect.Sound ∧ restartIndirect.m.Ready 0 (cmdWord 0x30 idataOne) :=
  ⟨sound_of_regsWf rfl rfl rfl (by decide +kernel),
    Mach.ready_of_resetQueues (by decide) rfl rfl (by decide +kernel) (by decide +kernel) (by decide +kernel)⟩

/-- R91, R488: the write reaches KN_CTRL.RESTART through the indirect access, and the restart returns Q_LAST to its reset value. -/
theorem restartIndirect_wipes : (restartIndirect.m.begin_.command 0 0x30 idataOne).rd F.Q_LAST_OPC 0 = 0 := by decide +kernel

/-- The opcode of the SET_PARAM. -/
theorem opcOf_idataOne : opcOf (cmdWord 0x30 idataOne) = 0x30 := by decide

/-- Refutes O24: its clause on SET_PARAM of any register asks Q_LAST to show the command in every state. Through GL_IDATA the command can
write KN_CTRL, whose RESTART leaves kiln hold (R91) and wipes Q_LAST; in this sound state it does. -/
theorem not_queueWriteCommandsComplete : ¬ Obligations.QueueWriteCommandsComplete := by
  unfold Obligations.QueueWriteCommandsComplete
  rintro ⟨-, paramRetires, -⟩
  obtain ⟨-, hReady⟩ := restartIndirect_meets
  obtain ⟨⟨-, -, hOpc⟩, -⟩ := (paramRetires restartIndirect 0 idataOne hReady).after_body (f := fun m => m.command 0 0x30 idataOne) rfl
  rw [Mach.rd_settle, opcOf_idataOne] at hOpc
  cases restartIndirect_wipes.symm.trans hOpc

/-! ### The members of an armature whose GROUP_MOVE is in flight -/

/-- A GROUP_MOVE that has been dispatched and has not retired. -/
def groupMoveFlight : InFlight :=
  { id := 0, w := cmdWord 0x10 noOperands, lookahead := false, slots := 0, parts := 1, worst := 0, reserved := false, auto_ := false
    wait := none, done := none }

/-- A started module in which the queue of armature 0 has a GROUP_MOVE in flight that does not run yet. -/
def groupMoveInFlight : State :=
  { pending := []
    m := Mach.started.modQ 48 fun x => { x with st := .run, inflight := [groupMoveFlight] } }

/-- It meets what the clause on a write of GR_MEMB that is taken asks, in a sound state. -/
theorem groupMoveInFlight_meets : groupMoveInFlight.Sound ∧ groupMoveInFlight.m.Takes ⟨.GR_MEMB_LO, 0, 0⟩ 1 ∧
    groupMoveInFlight.m.groupRunning 0 = false ∧ ((groupMoveInFlight.m.setReg .GR_MEMB_LO 0 0 1).membersOf 0).length ≤ 16 :=
  ⟨sound_of_regsWf rfl rfl rfl rfl, by
    unfold Mach.Takes
    decide +kernel, rfl, by decide +kernel⟩

/-- R211: the write is refused while a GROUP_MOVE of the armature is in flight. -/
theorem groupMoveInFlight_refuses : (groupMoveInFlight.m.begin_.hostWrite ⟨.GR_MEMB_LO, 0, 0⟩ 1).reg .GR_MEMB_LO 0 0 = 0 := by
  decide +kernel

/-- Refutes O29: its clause on GR_MEMB asks a write to be taken whenever no GROUP_MOVE of the armature runs. One that is in flight and does
not run yet refuses the write as well (R211), as in this sound state. -/
theorem not_abortAndRingReadsComplete : ¬ Obligations.AbortAndRingReadsComplete := by
  unfold Obligations.AbortAndRingReadsComplete
  rintro ⟨-, -, -, -, -, -, -, -, -, -, -, -, membersTaken, -⟩
  obtain ⟨-, hTakes, hStill, hFew⟩ := groupMoveInFlight_meets
  obtain ⟨hTaken, -⟩ := (membersTaken groupMoveInFlight 0 false 1 ⟨hTakes, hStill, hFew⟩).after_body
    (f := fun m => m.hostWrite ⟨.GR_MEMB_LO, 0, 0⟩ 1) rfl
  rw [Mach.reg_settle] at hTaken
  cases groupMoveInFlight_refuses.symm.trans hTaken

end Sys2Proof.Machine
end

section
/-!
PROOFS. The statements on the events and the registers of the bridges and on the trip inputs. Each has a clause that fails in a sound
state: O30 in a swap of the PWM PLL, O31 and O32 beside a write that waits.
-/

namespace Sys2Proof.Machine

/-! ### CLOCK_STOP in a swap of the PWM PLL -/

/-- R422: the clock-stop watchdog does not act in a swap of the PWM PLL. -/
theorem Mach.clockStop_of_pwmSwap {m : Mach} (h : m.fm.tkos.any (·.unit == 0x41) = true) (b : Nat) : m.clockStop b = m := if_pos h

/-- A started module whose PWM PLL has lost lock: the spare PLL is taking over the PWM domain. -/
def pwmSwapped : State :=
  { pending := []
    m := Mach.started.unitFault 0x41 8 }

/-- The swap is in progress, in a sound state, and bank 0 has no clock stop. -/
theorem pwmSwapped_meets : pwmSwapped.Sound ∧ pwmSwapped.m.fm.tkos.any (·.unit == 0x41) = true ∧
    (pwmSwapped.m.bank 0).clkStop = false :=
  ⟨sound_of_regsWf (by decide +kernel) (by decide +kernel) rfl (by decide +kernel), by decide +kernel, by decide +kernel⟩

/-- Refutes O30: its clause on CLOCK_STOP asks a clock stop of every state. In a swap of the PWM PLL the watchdog does not act (R422), so in
this sound state, which one PLL failure makes of a started module, the command leaves the bank as it is. -/
theorem not_bridgeEventsComplete : ¬ Obligations.BridgeEventsComplete := by
  unfold Obligations.BridgeEventsComplete
  rintro ⟨-, -, -, -, -, -, -, clockStops, -⟩
  obtain ⟨-, hSwap, hRuns⟩ := pwmSwapped_meets
  have hStop := (clockStops pwmSwapped 0).after_body (f := fun m => m.clockStop 0) rfl
  rw [Mach.clockStop_of_pwmSwap (m := pwmSwapped.m.begin_) hSwap] at hStop
  obtain ⟨forced, hBank⟩ := pwmSwapped.m.begin_.bank_settle pwmSwapped.m.begin_ 0
  cases (hStop.symm.trans (congrArg Bank.clkStop hBank)).trans hRuns

/-! ### PW_PERIOD and a write that waits -/

/-- A started module, all its axes OFF, where a write of PW_PERIOD of bank 0 waits beside a value in force of zero. -/
def periodWaiting : State :=
  { pending := []
    m := { Mach.started with
      staged := [{ key := ⟨.PW_PERIOD, 0, 0⟩, force := 0, at_ := .nextTick, choice := 0, ready := false, seen := 0 }] } }

/-- It meets what the clause on a period that is taken asks, in a sound state. -/
theorem periodWaiting_meets : periodWaiting.Sound ∧ periodWaiting.m.Takes ⟨.PW_PERIOD, 0, 0⟩ 2500 ∧ periodWaiting.m.bankOff 0 = true :=
  ⟨sound_of_regsWf rfl rfl rfl rfl, by
    unfold Mach.Takes
    decide +kernel, by decide +kernel⟩

/-- R267: the period goes into the last written value of PW_PERIOD; the value in force beside the waiting write stays zero, which counts as
the shortest period. -/
theorem periodWaiting_keepsPeriod : (periodWaiting.m.begin_.hostWrite ⟨.PW_PERIOD, 0, 0⟩ 2500).periodOf 0 = 2000 := by decide +kernel

/-- The period of a bank is not touched by what follows a command. -/
theorem Mach.periodOf_settle (m before : Mach) (b : Nat) : (m.settle before).periodOf b = m.periodOf b := by
  rw [Mach.periodOf, Mach.periodOf, Mach.rd_settle]

/-- Refutes O31: its clause on PW_PERIOD asks the bank to run with the period written wherever its axes are OFF. The state is sound, but
holds a waiting write of PW_PERIOD, whose writes take effect at once; the period goes into the last written value alone. -/
theorem not_bridgeRegistersComplete : ¬ Obligations.BridgeRegistersComplete := by
  unfold Obligations.BridgeRegistersComplete
  rintro ⟨periodTaken, -⟩
  obtain ⟨-, hTakes, hOff⟩ := periodWaiting_meets
  obtain ⟨-, hPeriod, -⟩ := (periodTaken periodWaiting 0 2500 ⟨hTakes, hOff⟩).after_body
    (f := fun m => m.hostWrite ⟨.PW_PERIOD, 0, 0⟩ 2500) rfl
  have hClamped : clampNat 2000 12500 (2500 : BitVec 14).toNat = 2500 := by decide
  rw [Mach.periodOf_settle, hClamped] at hPeriod
  cases periodWaiting_keepsPeriod.symm.trans hPeriod

/-! ### TRIP_CLEAR and a latch that waits -/

/-- A started module whose trip input A is active, and whose trip latch is set in the value in force only, beside a write of PW_TRIP_STAT
that waits. -/
def latchWaiting : State :=
  { pending := []
    m := { Mach.started with
      inp.tripA := true
      staged := [{ key := ⟨.PW_TRIP_STAT, 0, 0⟩, force := 1, at_ := .nextTick, choice := 0, ready := false, seen := 0 }] } }

/-- It meets what the clause on a refused clear asks, in a sound state. -/
theorem latchWaiting_meets : latchWaiting.Sound ∧ latchWaiting.m.Takes ⟨.PW_TRIP_STAT, 0, 0⟩ 1 ∧
    latchWaiting.m.rb F.PW_TRIP_STAT_LATCH = true ∧ latchWaiting.m.tripActive = true :=
  ⟨sound_of_regsWf rfl rfl rfl rfl, by
    unfold Mach.Takes
    decide +kernel, by decide +kernel, by decide +kernel⟩

/-- R491: the write drops the value in force before the clear is judged, and the latch with it. -/
theorem latchWaiting_unlatched : (latchWaiting.m.begin_.hostWrite ⟨.PW_TRIP_STAT, 0, 0⟩ 1).rb F.PW_TRIP_STAT_LATCH = false := by
  decide +kernel

/-- Refutes O32: its clause on a refused TRIP_CLEAR asks the latch to stay set wherever it reads set and an enabled input is active. The
state is sound, but holds a waiting write of PW_TRIP_STAT, whose writes take effect at once; the latch reads set in the value in force
alone, and the write of the clear drops that. -/
theorem not_tripAndSyncEventsComplete : ¬ Obligations.TripAndSyncEventsComplete := by
  unfold Obligations.TripAndSyncEventsComplete
  rintro ⟨-, -, -, -, clearRefused, -⟩
  obtain ⟨-, hTakes, hLatch, hActive⟩ := latchWaiting_meets
  obtain ⟨hLatched, -⟩ := (clearRefused latchWaiting ⟨hTakes, hLatch, hActive⟩).after_body
    (f := fun m => m.hostWrite ⟨.PW_TRIP_STAT, 0, 0⟩ 1) rfl
  rw [Mach.rb_settle] at hLatched
  cases latchWaiting_unlatched.symm.trans hLatched

end Sys2Proof.Machine
end

section
/-!
PROOFS. The current sense: what its commands leave unchanged, which holds, and the two statements on what they complete. In each of these
one clause fails where the register file lists a register twice, so is not in canonical form.
-/

namespace Sys2Proof.Machine

/-! ### Writes that store a register and set something off -/

/-- The frame of a write of the host that stores the register and, where `go` holds, sets off `act`, which stays within `K`. -/
theorem storeThen_changes {c : Instr} {s t : State} {r : Reg} {i w K : Nat} {go : Bool} {act : Mach → Mach → Mach} {parts : List Part}
    {regs : List Reg} (hr : r ≠ .GL_IDATA) (hl : ∀ x : Mach, x.levelBits ⟨r, i, 0⟩ = 0)
    (ho : ∀ m : Mach, m.ownerWrite ⟨r, i, 0⟩ w false = (m.store ⟨r, i, 0⟩ w false).when go (act m))
    (ha : ∀ {T : Scope} {m : Mach}, m.Within T → T.allows K → ∀ x, (act x m).Within T)
    (hc : exec c s = s.run (·.hostWrite ⟨r, i, 0⟩ w)) (hm : maskFits (hostMask ||| (r.bit ||| K)) parts regs) (hs : s.Sound)
    (ht : exec c s = .next t) : Changes s.m t.m parts regs :=
  write_changes hr hl
    (fun {_ m} h hT => ho m ▸ Mach.when_held (Mach.store_held h _ (hT.sub (mask_and_or_left _ _)) w false) _ _ fun _ hx =>
      ha hx (hT.sub (mask_and_or_right _ _)) m)
    hc hm hs ht

/-- The frame of a read of the host of a register whose side effect stays within `K`; 512 is the bit of `readData`. -/
theorem read_changes {c : Instr} {s t : State} {r : Reg} {i K : Nat} {parts : List Part} {regs : List Reg} (hr : r ≠ .GL_IDATA)
    (ho : ∀ {T : Scope} {m : Mach}, m.Within T → T.allows K → (m.readEffect ⟨r, i, 0⟩).Within T)
    (hc : exec c s = s.run (·.hostRead ⟨r, i, 0⟩)) (hm : maskFits (hostMask ||| (512 ||| K)) parts regs) (hs : s.Sound)
    (ht : exec c s = .next t) : Changes s.m t.m parts regs := by
  refine State.run_changes hs _ (fun _ h => ?_) (hc.symm.trans ht) hm
  have hRead : Scope.allows ⟨s.m.otp, s.m.begin_, hostMask ||| (512 ||| K)⟩ (512 ||| K) := mask_and_or_right _ _
  exact Mach.hostRead_within h (mask_and_or_left _ _) (hRead.sub (mask_and_or_left _ _)) hr fun _ hx =>
    ho hx (hRead.sub (mask_and_or_right _ _))

/-- A write of command bits is a write of them beside what the register's held fields read as. -/
theorem State.run_hostBits (s : State) (k : RegKey) (bits : Nat) :
    s.run (·.hostBits k bits) = s.run (·.hostWrite k ((s.m.begin_.peek k &&& k.r.desc.rwBits) + bits)) := by
  unfold State.run Mach.hostBits
  rfl

/-- The words that the two scan commands write to CS_SCAN_CFG, whose held fields read `x`: the one has GO, the other STOP. -/
theorem scanCfgWord_bits (x : Nat) :
    (bitOf ((x &&& Reg.CS_SCAN_CFG.desc.rwBits) + 32) 5 = true ∧ bitOf ((x &&& Reg.CS_SCAN_CFG.desc.rwBits) + 32) 6 = false) ∧
      bitOf ((x &&& Reg.CS_SCAN_CFG.desc.rwBits) + 64) 5 = false ∧ bitOf ((x &&& Reg.CS_SCAN_CFG.desc.rwBits) + 64) 6 = true := by
  have hHeld : x &&& Reg.CS_SCAN_CFG.desc.rwBits ≤ 31 := Nat.and_le_right
  generalize x &&& Reg.CS_SCAN_CFG.desc.rwBits = y at hHeld
  simp only [bitOf, beq_iff_eq, beq_eq_false_iff_ne]
  omega

/-- R320: a write of CS_SCAN_CFG with GO alone starts a pass. -/
theorem Mach.ownerWrite_scanGo (m : Mach) (b x : Nat) :
    m.ownerWrite ⟨.CS_SCAN_CFG, b, 0⟩ ((x &&& Reg.CS_SCAN_CFG.desc.rwBits) + 32) false =
      (m.store ⟨.CS_SCAN_CFG, b, 0⟩ ((x &&& Reg.CS_SCAN_CFG.desc.rwBits) + 32) false).when true (·.scanGo b 0xFF) := by
  obtain ⟨⟨hGo, hStop⟩, -⟩ := scanCfgWord_bits x
  simp only [Mach.ownerWrite, hGo, hStop]
  rfl

/-- R320: a write of CS_SCAN_CFG with STOP alone ends the pass. -/
theorem Mach.ownerWrite_scanStop (m : Mach) (b x : Nat) :
    m.ownerWrite ⟨.CS_SCAN_CFG, b, 0⟩ ((x &&& Reg.CS_SCAN_CFG.desc.rwBits) + 64) false =
      (m.store ⟨.CS_SCAN_CFG, b, 0⟩ ((x &&& Reg.CS_SCAN_CFG.desc.rwBits) + 64) false).when true (·.scanStopCmd b) := by
  obtain ⟨-, hGo, hStop⟩ := scanCfgWord_bits x
  simp only [Mach.ownerWrite, hGo, hStop]
  rfl

/-! ### The frames of the current-sensing commands -/

/-- Settles O57: an event stays within the mask of its body, a write within that of the register it stores and of what it sets off; these
masks name no more than the clauses list. -/
theorem currentSenseFrame : Obligations.CurrentSenseFrame := by
  unfold Obligations.CurrentSenseFrame
  refine ⟨?hold, ?delivered, ?shadow, ?recal, ?injGo, ?injResult, ?scanGo, ?scanStop, ?scanResult, ?scanPop, ?trigger, ?pchkGo,
    ?pchkDone⟩
  case hold => exact fun _ _ k kind => event_changes (fun h hT => Mach.sampleHold_held h hT k.val kind.val) rfl rfl
  case delivered => exact fun _ _ k kind raw full => event_changes (fun h hT => Mach.sampleDelivered_held h hT k.val kind.val raw full) rfl rfl
  case shadow => exact fun _ _ b sl pairs => event_changes (fun h hT => Mach.shadowBlock_held h hT b.val sl.val pairs) rfl rfl
  case recal => exact fun _ _ b zero pos neg => event_changes (fun h hT => Mach.spareRecal_held h hT b.val zero pos neg) rfl rfl
  case injResult => exact fun _ _ b raw wait => event_changes (fun h hT => Mach.injResult_held h hT b.val raw wait.toNat) rfl rfl
  case scanResult =>
    exact fun _ _ b slice raw wait => event_changes (fun h hT => Mach.scanResult_held h hT b.val slice.val raw wait.toNat) rfl rfl
  case trigger => exact fun _ _ b k => event_changes (fun h hT => Mach.trigFire_held h hT b.val k.val) rfl rfl
  case pchkDone => exact fun _ _ b s1 s2 => event_changes (fun h hT => Mach.pchkFinish_held h hT b.val s1 s2) rfl rfl
  case injGo =>
    exact fun _ _ b sel => storeThen_changes (r := .CS_INJ_CTRL) (act := fun x m => m.injGo b.val 0xFF x.cyc) (by decide)
      (fun _ => rfl) (fun _ => rfl) (fun h hT _ => Mach.injGo_held h hT _ _ _) rfl rfl
  case scanGo =>
    exact fun _ _ b => storeThen_changes (act := fun _ m => m.scanGo b.val 0xFF) (by decide) (fun _ => rfl)
      (fun m => m.ownerWrite_scanGo b.val _) (fun h hT _ => Mach.scanGo_held h hT _ _) (State.run_hostBits _ _ _) rfl
  case scanStop =>
    exact fun _ _ b => storeThen_changes (act := fun _ m => m.scanStopCmd b.val) (by decide) (fun _ => rfl)
      (fun m => m.ownerWrite_scanStop b.val _) (fun h hT _ => Mach.scanStopCmd_held h hT _) (State.run_hostBits _ _ _) rfl
  case pchkGo =>
    exact fun _ _ b ch range => storeThen_changes (r := .CS_PCHK) (act := fun _ m => m.pchkStart b.val) (by decide)
      (fun _ => rfl) (fun _ => rfl) (fun h hT _ => Mach.pchkStart_held h hT _) rfl rfl
  case scanPop =>
    exact fun _ _ b => read_changes (r := .CS_SCAN_POP) (by decide) (fun h hT => Mach.scanPop_held h hT b.val) rfl rfl

/-! ### A request for channel or selector 0 and a register listed twice -/

/-- What a bank shows apart from the end of a forced coast is not touched by what follows a command. -/
theorem Mach.of_bank_settle {β : Type} {g : Bank → β} (hg : ∀ (x : Bank) (o : Bool), g { x with ovForce := o } = g x) (m before : Mach)
    (b : Nat) : g ((m.settle before).bank b) = g (m.bank b) := by
  obtain ⟨o, hBank⟩ := m.bank_settle before b
  rw [hBank, hg]

/-- A started module whose register file lists register `r` of bank 0 twice, with 1 in both words. -/
def listedTwice (r : Reg) : State :=
  { pending := []
    m := { Mach.started with regs := [(⟨r, 0, 0⟩, 1), (⟨r, 0, 0⟩, 1)] } }

/-- It meets what the clause on a path check that starts asks, for channel 0 in the high range. -/
theorem pchkListedTwice_meets : (listedTwice .CS_PCHK).m.Takes ⟨.CS_PCHK, 0, 0⟩ 256 ∧ ((listedTwice .CS_PCHK).m.bank 0).pchk = none ∧
    ((listedTwice .CS_PCHK).m.ax 0).mode = .off :=
  ⟨by
    unfold Mach.Takes
    decide +kernel, rfl, rfl⟩

/-- R324: the channel zero takes the first word off the register file and uncovers the second, so the check is of channel 1. -/
theorem pchkListedTwice_reveals : (((listedTwice .CS_PCHK).m.begin_.hostWrite ⟨.CS_PCHK, 0, 0⟩ 256).bank 0).pchk = some (1, false, false) := by
  decide +kernel

/-- Refutes O33: its clause on CS_PCHK.GO asks a check of the channel written in every state. Where the register file lists CS_PCHK of the
bank twice, so is not in canonical form, the second word is read instead of a channel of zero; in canonical form a field reads back what
was written (`Mach.rd_wr_same`). -/
theorem not_sampleEventsComplete : ¬ Obligations.SampleEventsComplete := by
  unfold Obligations.SampleEventsComplete
  rintro ⟨-, -, -, -, -, -, -, -, -, -, -, -, checkStarts, -⟩
  obtain ⟨hTakes, hIdle, hOff⟩ := pchkListedTwice_meets
  obtain ⟨hCheck, -⟩ := (checkStarts (listedTwice .CS_PCHK) 0 0 false ⟨hTakes, by decide, hIdle, hOff⟩).after_body
    (f := fun m => m.hostWrite ⟨.CS_PCHK, 0, 0⟩ 256) rfl
  have hShown := (Mach.of_bank_settle (g := Bank.pchk) (fun _ _ => rfl) _ _ _).symm.trans hCheck
  cases pchkListedTwice_reveals.symm.trans hShown

/-- It meets what the clause on an injection of a valid selector asks, for selector 0. -/
theorem injListedTwice_meets : (listedTwice .CS_INJ_CTRL).m.Takes ⟨.CS_INJ_CTRL, 0, 0⟩ 256 ∧
    ((listedTwice .CS_INJ_CTRL).m.bank 0).inj = none :=
  ⟨by
    unfold Mach.Takes
    decide +kernel, rfl⟩

/-- R318: the selector zero takes the first word off the register file and uncovers the second, so the request is for selector 1. -/
theorem injListedTwice_reveals :
    (((listedTwice .CS_INJ_CTRL).m.begin_.hostWrite ⟨.CS_INJ_CTRL, 0, 0⟩ 256).bank 0).inj.map (·.sel) = some 1 := by
  decide +kernel

/-- Refutes O34: its clause on CS_INJ_CTRL.GO asks an injection of the selector written in every state. Where the register file lists
CS_INJ_CTRL of the bank twice, so is not in canonical form, the second word is read instead of a selector of zero; in canonical form a
field reads back what was written (`Mach.rd_wr_same`). -/
theorem not_scanAndInjectionComplete : ¬ Obligations.ScanAndInjectionComplete := by
  unfold Obligations.ScanAndInjectionComplete
  rintro ⟨injects, -⟩
  obtain ⟨hTakes, hIdle⟩ := injListedTwice_meets
  obtain ⟨hInj, -⟩ := (injects (listedTwice .CS_INJ_CTRL) 0 0 ⟨hTakes, hIdle, by decide⟩).after_body
    (f := fun m => m.hostWrite ⟨.CS_INJ_CTRL, 0, 0⟩ 256) rfl
  have hShown := (Mach.of_bank_settle (g := Bank.inj) (fun _ _ => rfl) _ _ _).symm.trans hInj
  cases injListedTwice_reveals.symm.trans (congrArg (Option.map (·.sel)) hShown)

end Sys2Proof.Machine
end

section
/-!
PROOFS. The load angle: the statement on what its commands complete. Its clause on a peak clear fails where the register file lists a
register twice, so is not in canonical form.
-/

namespace Sys2Proof.Machine

/-! ### What a write of LA_CTRL ends in -/

/-- A write of LA_CTRL that is taken does what its owner does, and ends the frame. -/
theorem Mach.hostWrite_laCtrl {m : Mach} {b w : Nat} (h : m.Takes ⟨.LA_CTRL, b, 0⟩ w) :
    m.hostWrite ⟨.LA_CTRL, b, 0⟩ w = (m.writeLaCtrl b w).writesDone m.lockBits := by
  obtain ⟨hAnswers, hLocks⟩ := h
  rw [Mach.hostWrite_answers (show Reg.LA_CTRL ≠ .GL_IDATA by decide) hAnswers hLocks, Mach.levelsHold_none rfl]
  rfl

/-! ### PEAK_CLR and a register listed twice -/

/-- LA_AX with a peak of 1 and all other fields at zero. -/
def peakOfOne : Word := 0x10000000000000000000000

/-- A started module whose register file lists LA_AX of axis 0 twice, with a peak of 1 in both words. -/
def peakListedTwice : State :=
  { pending := []
    m := { Mach.started with regs := [(⟨.LA_AX, 0, 0⟩, peakOfOne), (⟨.LA_AX, 0, 0⟩, peakOfOne)] } }

/-- It meets what the clause on a peak clear asks, for axis 0. -/
theorem peakListedTwice_meets : peakListedTwice.m.Takes ⟨.LA_CTRL, 0, 0⟩ 32 := ⟨rfl, rfl⟩

/-- R352: the first word is the reset value once its peak is cleared, so it leaves the register file and uncovers the second, whose peak
is still 1. -/
theorem peakListedTwice_reveals (before : Mach) :
    ((peakListedTwice.m.begin_.hostWrite ⟨.LA_CTRL, 0, 0⟩ 32).settle before).rd F.LA_AX_PEAK 0 0 = 1 := by
  have hTakes : peakListedTwice.m.begin_.Takes ⟨.LA_CTRL, 0, 0⟩ 32 := peakListedTwice_meets
  rw [Mach.rd_settle, Mach.hostWrite_laCtrl hTakes]
  decide

/-- Refutes O35: its clause on PEAK_CLR asks a peak of zero in every state. Where the register file lists LA_AX of the axis twice, so is
not in canonical form, the second word is read once the first holds its reset value and is no longer listed; in canonical form a field
reads back what was written (`Mach.rd_wr_same`). -/
theorem not_loadAngleCommandsComplete : ¬ Obligations.LoadAngleCommandsComplete := by
  rintro ⟨-, -, peakClears⟩
  obtain ⟨hCleared, -⟩ := (peakClears peakListedTwice 0 0 ⟨peakListedTwice_meets, by decide⟩).after_body
    (f := fun m => m.hostWrite ⟨.LA_CTRL, 0, 0⟩ 32) rfl
  exact Nat.one_ne_zero ((peakListedTwice_reveals _).symm.trans hCleared)

end Sys2Proof.Machine
end

section
/-!
PROOFS. The feedback ports: the two statements on what their events and registers complete. The one on the edges fails where the register
file lists a register twice, so is not in canonical form; the one on the registers fails in a sound state, beside a write that waits.
-/

namespace Sys2Proof.Machine

/-! ### An index edge at count zero and a register listed twice -/

/-- An operation that leaves the module as it is for each number leaves it so for all of them. -/
theorem Mach.each_fixed {m : Mach} {k : Nat} {f : Mach → Nat → Mach} (h : ∀ n, f m n = m) : m.each k f = m :=
  List.foldlRecOn (motive := (· = m)) _ f rfl fun _ hx n _ => by rw [hx, h n]

/-- R368: without a count per revolution nothing deviates from the count expected, so where all axes are as after reset, none of them
homing, an index edge is captured and that is all. -/
theorem Mach.indexTake_captures {m : Mach} {p : Nat} (hCpr : m.rd F.FB_CPR_CPR p = 0) (hAxes : m.axes = Mach.reset.axes) :
    m.indexTake p = (((m.wr F.FB_IDX_CAP_CNT (unsignedOf 64 (m.port p).cnt) p).wr F.FB_IDX_CAP_TS (m.portStamp p) p).setBit
      F.FB_STAT_INDEX_SEEN p).wrS F.FB_IDX_DEV (satSigned 16 0) p := by
  have hHome : ∀ n, (m.ax n).home = none := fun n => by
    rw [Mach.ax, hAxes]
    by_cases hn : n < 48
    · exact congrArg Axis.home (Mach.reset_ax hn)
    · exact congrArg Axis.home (dif_neg hn)
  unfold Mach.indexTake
  simp only [hCpr, Int.natCast_zero, if_true, Int.sub_self, Int.natAbs_zero, Nat.zero_le, decide_true]
  refine Mach.each_fixed fun n => ?_
  split
  case h_1 hSome => cases (hHome n).symm.trans hSome
  case h_2 => rfl

/-- A module whose timestamp does not run yet, whose port 0 counts in ABZ from zero, and whose register file lists FB_IDX_CAP of that port
twice, with a captured count of 1 in both words. -/
def captureListedTwice : State :=
  { pending := []
    m := { (listedTwice .FB_IDX_CAP).m with clk.running := false }.wr F.FB_CFG_MODE 1 0 }

/-- Refutes O36: its clause on an index edge asks FB_IDX_CAP to show the count of the port in every state. Where the register file lists
FB_IDX_CAP of the port twice, so is not in canonical form, the captured count zero takes the first word off the register file and uncovers
the second, whose count is still 1; in canonical form a field reads back what was written (`Mach.rd_wr_same`). -/
theorem not_portEdgesComplete : ¬ Obligations.PortEdgesComplete := by
  rintro ⟨-, -, -, -, -, -, -, -, -, indexTaken, -⟩
  obtain ⟨-, hCount, -⟩ := (indexTaken captureListedTwice 0 (by decide)).after_body (f := fun m => m.indexEdge 0) rfl
  have hZero : (captureListedTwice.m.port (0 : Fin 12)).cnt = 0 := rfl
  have hTaken : captureListedTwice.m.begin_.indexEdge 0 = (captureListedTwice.m.begin_.portLevels 0 4).indexTake 0 := rfl
  have hReveals : (captureListedTwice.m.begin_.indexEdge 0).rd F.FB_IDX_CAP_CNT 0 = 1 := by
    rw [hTaken, Mach.indexTake_captures (m := captureListedTwice.m.begin_.portLevels 0 4) rfl rfl]
    decide
  rw [Mach.rd_settle, hZero] at hCount
  cases hReveals.symm.trans (hCount.trans (Nat.zero_mod _))

/-! ### FB_FOLLOW and a write that waits -/

/-- A started module whose axis 0 is in HOLD, where a write of FB_FOLLOW of port 0 waits beside a value in force of zero. -/
def followWaiting : State :=
  { pending := []
    m := { Mach.started.modAx 0 fun a => { a with mode := .hold } with
      staged := [{ key := ⟨.FB_FOLLOW, 0, 0⟩, force := 0, at_ := .nextTick, choice := 0, ready := false, seen := 0 }] } }

/-- It meets what the clause on an engagement asks, for axis 0 and profile slot 1, in a sound state. -/
theorem followWaiting_meets : followWaiting.Sound ∧ followWaiting.m.Takes ⟨.FB_FOLLOW, 0, 0⟩ 0x10001 ∧
    (followWaiting.m.ax 0).mode = .hold :=
  ⟨sound_of_regsWf rfl rfl rfl rfl, ⟨rfl, rfl⟩, rfl⟩

/-- Refutes O37: its clause on an engagement asks the axis written to engage with the profile slot written wherever it is in HOLD. The state
is sound, but holds a waiting write of FB_FOLLOW, whose writes take effect at once; the slot goes into the last written value alone, and
the axis engages with the slot in force, which stays zero. -/
theorem not_portCommandsComplete : ¬ Obligations.PortCommandsComplete := by
  rintro ⟨-, -, -, -, -, -, -, -, -, -, engages, -⟩
  obtain ⟨-, hTakes, hHold⟩ := followWaiting_meets
  have hEngage := (engages followWaiting 0 0 1 ⟨hTakes, by decide, hHold⟩).after_body
    (f := fun m => m.hostWrite ⟨.FB_FOLLOW, 0, 0⟩ 0x10001) rfl
  have hOther : ((followWaiting.m.begin_.hostWrite ⟨.FB_FOLLOW, 0, 0⟩ 0x10001).ax 0).fbEngage = some (0, 0) := rfl
  rw [Mach.ax_settle] at hEngage
  cases hOther.symm.trans hEngage

end Sys2Proof.Machine
end

section
/-!
PROOFS. The sensor front end: the two statements on what its events and registers complete. Both are made of every state; each has a clause
that fails in a sound state, beside a write that waits of a register whose writes take effect at once.
-/

namespace Sys2Proof.Machine

/-- A started module in which item 0 of register `r` was last written `last` by a write that waits, and has `inForce` in force beside it. -/
def waitingBeside (r : Reg) (last inForce : Word) : State :=
  { pending := []
    m := { Mach.started with
      regs := [(⟨r, 0, 0⟩, last)]
      staged := [{ key := ⟨r, 0, 0⟩, force := inForce, at_ := .nextTick, choice := 0, ready := false, seen := 0 }] } }

/-! ### SF_EX_CFG and a write that waits -/

/-- A module whose SF_EX_CFG[0] is all zero in the last written value, where source 0 drives in current mode by the value in force. -/
def sourceWaiting : State := waitingBeside .SF_EX_CFG 0 5

/-- It meets what the clause on a source that is written off asks, for a word of zero, in a sound state. -/
theorem sourceWaiting_meets : sourceWaiting.Sound ∧ sourceWaiting.m.Takes ⟨.SF_EX_CFG, 0, 0⟩ 0 :=
  ⟨sound_of_regsWf rfl rfl rfl rfl, rfl, rfl⟩

/-- The writes that wait are not touched by the end of a frame. -/
theorem Mach.writesDone_staged (m : Mach) (bits : Nat) : (m.writesDone bits).staged = m.staged := by
  obtain ⟨hp, hDone | hDone⟩ := m.writesDone_eq bits
  · rw [hDone]
  · rw [hDone]
    rfl

/-- R386: a write of SF_EX_CFG that is taken does what its owner does, and ends the frame. -/
theorem Mach.hostWrite_exCfg {m : Mach} {e w : Nat} (h : m.Takes ⟨.SF_EX_CFG, e, 0⟩ w) :
    m.hostWrite ⟨.SF_EX_CFG, e, 0⟩ w = (m.writeExCfg e (w &&& Reg.SF_EX_CFG.desc.rwBits)).writesDone m.lockBits := by
  obtain ⟨hAnswers, hLocks⟩ := h
  rw [Mach.hostWrite_answers (show Reg.SF_EX_CFG ≠ .GL_IDATA by decide) hAnswers hLocks, Mach.levelsHold_none rfl]
  rfl

/-- R386: a word written to SF_EX_CFG goes into the last written value alone, and leaves the write that waits. -/
theorem sourceWaiting_waits : (sourceWaiting.m.begin_.hostWrite ⟨.SF_EX_CFG, 0, 0⟩ 0).staged = sourceWaiting.m.staged := by
  obtain ⟨-, hTakes⟩ := sourceWaiting_meets
  rw [Mach.hostWrite_exCfg (m := sourceWaiting.m.begin_) hTakes, Mach.writesDone_staged]
  rfl

/-- While that write waits, the source drives by the value in force. -/
theorem sourceWaiting_drives {m : Mach} (h : m.staged = sourceWaiting.m.staged) : m.exOn 0 = true := by
  have hForce : m.force .SF_EX_CFG 0 0 = 5 := by
    unfold Mach.force
    rw [h]
    rfl
  change (bitsOf (m.force .SF_EX_CFG 0 0) 0 1 == 1 && bitsOf (m.force .SF_EX_CFG 0 0) 1 2 != 3) = true
  rw [hForce]
  rfl

/-- Refutes O38: its clause on SF_EX_CFG with EN clear asks the source to drive no more. The state is sound, but holds a waiting write of
SF_EX_CFG, whose writes take effect at once; the word goes into the last written value alone, and the source drives on by the value in force. -/
theorem not_frontEndConversionsComplete : ¬ Obligations.FrontEndConversionsComplete := by
  rintro ⟨-, -, -, -, -, -, -, -, -, -, sourceEnds, -⟩
  obtain ⟨-, hTakes⟩ := sourceWaiting_meets
  obtain ⟨-, -, hOff⟩ := (sourceEnds sourceWaiting 0 0 ⟨hTakes, rfl, Nat.zero_le _, rfl, rfl⟩).after_body
    (f := fun m => m.hostWrite ⟨.SF_EX_CFG, 0, 0⟩ 0) rfl
  cases (sourceWaiting_drives ((Mach.settle_staged _ _).trans sourceWaiting_waits)).symm.trans hOff

/-! ### SF_CHK and a write that waits -/

/-- A module without a check, whose SF_CHK has BUSY in the last written value only. -/
def checkWaiting : State := waitingBeside .SF_CHK 16 0

/-- It meets what the clause on a check that starts asks, for channel 0, in a sound state. -/
theorem checkWaiting_meets : checkWaiting.Sound ∧ checkWaiting.m.Takes ⟨.SF_CHK, 0, 0⟩ 8 ∧ checkWaiting.m.rb F.SF_CHK_BUSY = false :=
  ⟨sound_of_regsWf rfl rfl rfl rfl, ⟨rfl, rfl⟩, rfl⟩

/-- The check that runs is not touched by the end of a frame and what follows a command. -/
theorem Mach.chk_settle_writesDone (m before : Mach) (bits : Nat) : ((m.writesDone bits).settle before).sf.chk = m.sf.chk := by
  obtain ⟨act, blankEnd, go, hSf⟩ := (m.writesDone bits).sf_settle before
  rw [hSf]
  obtain ⟨hp, hDone | hDone⟩ := m.writesDone_eq bits
  · rw [hDone]
  · rw [hDone]
    rfl

/-- R402: GO is ignored while BUSY. -/
theorem Mach.chkGo_of_busy {m : Mach} (h : m.rb F.SF_CHK_BUSY = true) : m.chkGo = m := if_pos h

/-- R402: a write of SF_CHK with GO that is taken asks for a check once the register has taken the word, and ends the frame. -/
theorem Mach.hostWrite_chkGo {m : Mach} (h : m.Takes ⟨.SF_CHK, 0, 0⟩ 8) :
    m.hostWrite ⟨.SF_CHK, 0, 0⟩ 8 = (m.store ⟨.SF_CHK, 0, 0⟩ 8 false).chkGo.writesDone m.lockBits := by
  obtain ⟨hAnswers, hLocks⟩ := h
  rw [Mach.hostWrite_answers (by decide) hAnswers hLocks, Mach.levelsHold_none rfl]
  rfl

/-- R491: the write drops the value in force before BUSY is looked at, so BUSY reads set and no check starts. -/
theorem checkWaiting_idle (before : Mach) : ((checkWaiting.m.begin_.hostWrite ⟨.SF_CHK, 0, 0⟩ 8).settle before).sf.chk = none := by
  obtain ⟨-, hTakes, -⟩ := checkWaiting_meets
  have hBusy : (checkWaiting.m.begin_.store ⟨.SF_CHK, 0, 0⟩ 8 false).rb F.SF_CHK_BUSY = true := rfl
  rw [Mach.hostWrite_chkGo (m := checkWaiting.m.begin_) hTakes, Mach.chk_settle_writesDone, Mach.chkGo_of_busy hBusy]
  rfl

/-- Refutes O39: its clause on SF_CHK.GO asks a check of the channel written wherever BUSY reads clear. The state is sound, but holds a
waiting write of SF_CHK, whose writes take effect at once; BUSY reads clear in the value in force alone, and the write of GO drops that. -/
theorem not_frontEndChecksComplete : ¬ Obligations.FrontEndChecksComplete := by
  rintro ⟨-, -, checkStarts, -⟩
  obtain ⟨-, hTakes, hFree⟩ := checkWaiting_meets
  obtain ⟨hCheck, -⟩ := (checkStarts checkWaiting 0 ⟨hTakes, hFree⟩).after_body (f := fun m => m.hostWrite ⟨.SF_CHK, 0, 0⟩ 8) rfl
  cases (checkWaiting_idle _).symm.trans hCheck

end Sys2Proof.Machine
end

section
/-!
PROOFS. The step of the block, and the effective heat cap (R432).
-/

namespace Sys2Proof.Machine


/-- Settles O5: the step takes the front of the queue by its definition. -/
theorem stepRunsFrontCommand : Obligations.StepRunsFrontCommand := by
  exact fun _ _ _ => rfl

/-- Settles O6: with no command in the queue the step has nothing to take (log entry 1). -/
theorem emptyQueueIdles : Obligations.EmptyQueueIdles := by
  intro s hEmpty
  delta step
  rw [hEmpty]

/-- R432: for settings in range the effective cap is made of CAP and KNEE as they read. -/
theorem Mach.capEff_of_range {m : Mach} (h1 : 1 ≤ m.rd F.HL_CFG_CAP) (h2 : m.rd F.HL_CFG_CAP ≤ 220) (h3 : m.rd F.HL_CFG_KNEE ≤ 100)
    (t : Rat) : m.capEff t =
      if t ≤ (m.rd F.HL_CFG_KNEE : Rat) then (m.rd F.HL_CFG_CAP : Rat) / 2 else
        if 150 ≤ t then 0 else (m.rd F.HL_CFG_CAP : Rat) / 2 * (150 - t) / (150 - (m.rd F.HL_CFG_KNEE : Rat)) := by
  have hCap : clampNat 1 220 (m.rd F.HL_CFG_CAP) = m.rd F.HL_CFG_CAP := by
    delta clampNat
    omega
  delta Mach.capEff
  rw [hCap, Nat.min_eq_right h3]

/-- Settles O10: with the settings in range the three clauses are the three cases of the definition; at 150 °C KNEE is exceeded. -/
theorem effectiveHeatCap : Obligations.EffectiveHeatCap := by
  intro m t h1 h2 h3
  rw [Mach.capEff_of_range h1 h2 h3]
  refine ⟨fun h => if_pos h, fun hKnee h150 => ?_, fun h150 => ?_⟩
  · rw [if_neg (not_le.mpr hKnee), if_neg (not_le.mpr h150)]
  · have hKnee : (m.rd F.HL_CFG_KNEE : Rat) ≤ 100 := by exact_mod_cast h3
    rw [if_neg (by linarith), if_pos h150]

end Sys2Proof.Machine
end

section
/-!
PROOFS. What the bank monitor and bridge commands leave unchanged, with the rules that the other frames below use too. The body of a
command stays within what its clause lists (`Laws/Scope.lean`), and what precedes and follows every command changes only what `Changes`
leaves open. A write of the host is its access of the port, which `hostMask` bounds, and what the register's owner makes of the word.
-/

namespace Sys2Proof.Machine


/-- The scope allows what two lists name. -/
def Scope.Lists (T : Scope) (parts : List Part) (regs : List Reg) : Prop := T.allows (listMask parts regs)

section
variable {c : Instr} {s t : State} {parts : List Part} {regs : List Reg}

/-- What the lists name is allowed. The side goal is a comparison of two numerals. -/
theorem Scope.Lists.allows {T : Scope} (h : T.Lists parts regs) {j : Nat} (hj : j &&& listMask parts regs = j) :
    T.allows j := h.sub hj

/-- A register that the lists name takes a word. -/
theorem Mach.store_within {T : Scope} {m : Mach} (h : m.Within T) (hT : T.Lists parts regs) (r : Reg) (i j w : Nat)
    (hr : r.bit &&& listMask parts regs = r.bit) : (m.store ⟨r, i, j⟩ w false).Within T :=
  Mach.store_held h ⟨r, i, j⟩ (hT.allows hr) w false

/-- The frame of a command whose body stays within what two lists name. -/
theorem body_changes {f : Mach → Mach} (hc : exec c s = s.run f)
    (hf : ∀ {T : Scope} {m : Mach}, m.Within T → T.Lists parts regs → (f m).Within T) : s.Sound → exec c s = .next t →
        Changes s.m t.m parts regs :=
  event_changes hf hc (Nat.and_self _)

/-- The lists name what any access of the port may change, and the register is not the one whose access reaches another. -/
def Reg.reachable (r : Reg) (parts : List Part) (regs : List Reg) : Bool :=
  r != .GL_IDATA && (hostMask &&& listMask parts regs == hostMask)

/-- A register that is reached by its own address. -/
theorem Reg.ne_data_of_reachable {r : Reg} (h : r.reachable parts regs = true) : r ≠ .GL_IDATA :=
  bne_iff_ne.mp (Bool.and_eq_true_iff.mp h).1

/-- What any access of the port may change is listed. -/
theorem Reg.host_of_reachable {r : Reg} (h : r.reachable parts regs = true) : hostMask &&& listMask parts regs = hostMask :=
  eq_of_beq (Bool.and_eq_true_iff.mp h).2

/-- The frame of a write of the host: the lists name what any access may change and what the register's owner does with the word. A
register with bits that name a state is itself one of those listed. -/
theorem hostWrite_changes (r : Reg) (i j : Nat) (w : Mach → Nat) (hr : r.reachable parts regs = true)
    (hl : r.bit &&& listMask parts regs = r.bit ∨ ∀ x : Mach, x.levelBits ⟨r, i, j⟩ = 0)
    (hc : exec c s = s.run fun m => m.hostWrite ⟨r, i, j⟩ (w m))
    (ho : ∀ {T : Scope} {m : Mach}, m.Within T → T.Lists parts regs → ∀ x : Mach, (m.ownerWrite ⟨r, i, j⟩ (w x) false).Within T) :
    s.Sound → exec c s = .next t → Changes s.m t.m parts regs :=
  body_changes hc fun {_ m} h hT =>
    Mach.hostWrite_within h (hT.allows (Reg.host_of_reachable hr)) (Reg.ne_data_of_reachable hr) (hl.imp_left (hT.allows ·)) _
      fun _ hx => ho hx hT m

end

/-! ### Bank monitor and bridges -/

/-- R272: at the start of a period the guard of a channel and the recorder take their step, and a continuous scan begins with the bank's
first channel. -/
theorem pwmPeriodStart_changes {s t : State} (k : Fin 96) (vm : BitVec 16) : s.Sound → exec (.pwmPeriodStart k vm) s = .next t →
    Changes s.m t.m [.staged, .rings, .coils, .obs, .banks, .sync, .st] [.PW_VM_MEAS, .Q_IRQ, .AX_CR_STAT, .PW_STAT, .PW_CH_STAT,
      .PW_SYNC_STAT, .CS_STAT, .CS_SCAN_STAT, .FM_CNT] := by
  refine body_changes (by rfl) (f := fun m =>
    let b := k.val / 24
    let m0 := m.when (!(m.coil k.val).fresh && !isCoilB k.val) fun m => m.guardStep (k.val / 2) (m.periodOf b) 0
    let m1 := ((m0.stPeriod k.val).wr F.PW_VM_MEAS_VM vm.toNat b).periodStart k.val
    if k.val % 24 = 0 ∧ m.rb F.CS_SCAN_CFG_CONT b then m1.scanGo b 0xFF else m1) fun {_ m} h hT => ?_
  have hGuard := Mach.when_held h (!(m.coil k.val).fresh && !isCoilB k.val) (fun m => m.guardStep (k.val / 2) (m.periodOf (k.val / 24)) 0)
    fun _ hx => Mach.guardStep_held hx (hT.allows rfl) _ _ _
  have hMeas := Mach.wr_held (Mach.stPeriod_held hGuard (hT.allows rfl) k.val) F.PW_VM_MEAS_VM (hT.allows rfl) vm.toNat (k.val / 24) 0
  have hStart := Mach.periodStart_held hMeas (hT.allows rfl) k.val
  exact Mach.ite_held _ (Mach.scanGo_held hStart (hT.allows rfl) _ _) hStart

/-- R287: a write of GL_DBG without HALT ends a debug halt, or does nothing more than clear HALT. -/
theorem Mach.writeDbg_end_held {T : Scope} {m : Mach} (h : m.Within T) (hT : T.Lists [.rings, .dbgHalt, .hp] [.Q_IRQ, .GL_STATUS, .GL_DBG])
    {v : Nat} (hv : bitOf v 0 = false) : (m.writeDbg v).Within T := by
  have hCleared := Mach.wr_held h F.GL_DBG_HALT (hT.allows rfl) 0 0 0
  have hEnd := Mach.post_held (Mach.debugHaltEnd_held hCleared (hT.allows rfl)) (hT.allows rfl) Ev.GL_DBG_END 0
  delta Mach.writeDbg
  rw [hv]
  split
  · exact Mach.setBit_held h _ _ _ (hT.allows rfl)
  · rw [if_neg Bool.false_ne_true]
    dsimp only
    split
    · exact Mach.modHp_held (hEnd _) (hT.allows rfl) fun x => { x with dbgAt := none }
    · exact hCleared

/-- Settles O52: an event stays within the mask of its body, a write within that of what its register's owner does with the word. -/
theorem bankMonitorFrame : Obligations.BankMonitorFrame := by
  refine ⟨?vmUv, ?vmUvRecover, ?resume, ?rampEnd, ?clamp, ?release, ?timeout,
    fun _ _ => pwmPeriodStart_changes, ?peakTrip, ?short, ?bfaultClear,
    ?gateUv, ?gateRecover, ?period, ?stagUser, ?chOfs, ?safe, ?safeCheck, ?halt, ?haltEnd, ?clockStop, ?clockStopEnd, ?tripInput,
    ?tripClear, ?tripDisc, ?syncDrive, ?syncEdge, ?syncLost⟩
  case vmUv =>
    exact fun _ _ b vm => body_changes (by rfl) (f := fun m =>
        if m.kn.phase == .gasp then m.gaspUv b.val else m.vmUv b.val vm.toNat) fun h hT =>
      Mach.ite_held _ (Mach.gaspUv_held h (hT.allows rfl) b.val) (Mach.vmUv_held h (hT.allows rfl) b.val vm.toNat)
  case vmUvRecover => exact fun _ _ b => body_changes (by rfl) fun h hT => Mach.vmRecovered_held h (hT.allows rfl) b.val
  case rampEnd => exact fun _ _ b => body_changes (by rfl) fun h hT => Mach.vmRampEnd_held h (hT.allows rfl) b.val
  case clamp => exact fun _ _ b vm => body_changes (by rfl) fun h hT => Mach.clampOn_held h (hT.allows rfl) b.val vm.toNat
  case release => exact fun _ _ b dur => body_changes (by rfl) fun h hT => Mach.clampOff_held h (hT.allows rfl) b.val dur.toNat
  case timeout => exact fun _ _ b vm => body_changes (by rfl) fun h hT => Mach.clampTimeout_held h (hT.allows rfl) b.val vm.toNat
  case peakTrip => exact fun _ _ k cnt => body_changes (by rfl) fun h hT => Mach.peakTrip_held h (hT.allows rfl) k.val cnt.toNat
  case short => exact fun _ _ n coilB => body_changes (by rfl) fun h hT => Mach.shortCircuit_held h (hT.allows rfl) n.val coilB
  case gateUv => exact fun _ _ b => body_changes (by rfl) fun h hT => Mach.gateLow_held h (hT.allows rfl) b.val
  case gateRecover => exact fun _ _ b => body_changes (by rfl) fun h hT => Mach.gateGood_held h (hT.allows rfl) b.val
  case safeCheck => exact fun _ _ b upset => body_changes (by rfl) fun h hT => Mach.safeCheck_held h (hT.allows rfl) b.val _
  case clockStop => exact fun _ _ b => body_changes (by rfl) fun h hT => Mach.clockStop_held h (hT.allows rfl) b.val
  case clockStopEnd => exact fun _ _ b => body_changes (by rfl) fun h hT => Mach.clockStopEnd_held h (hT.allows rfl) b.val
  case tripInput => exact fun _ _ a b => body_changes (by rfl) fun h hT => Mach.tripLevels_held h (hT.allows rfl) a b
  case tripDisc => exact fun _ _ => body_changes (by rfl) fun h hT => Mach.tripDisc_held h (hT.allows rfl)
  case syncDrive => exact fun _ _ => body_changes (by rfl) fun h hT => Mach.syncDrive_held h (hT.allows rfl)
  case syncEdge => exact fun _ _ cyc => body_changes (by rfl) fun h hT => Mach.syncEdge_held h (hT.allows rfl) cyc
  case syncLost => exact fun _ _ => body_changes (by rfl) fun h hT => Mach.syncLost_held h (hT.allows rfl)
  case resume =>
    exact fun _ _ b => hostWrite_changes .PW_VMON_STAT b.val 0 (fun _ => 64) rfl (.inl rfl) (by rfl)
      (fun h hT _ => Mach.when_held (Mach.store_within h hT .PW_VMON_STAT b.val 0 64 rfl) (bitOf 64 6) (·.vmResumeCmd b.val)
        fun _ hx => Mach.vmResumeCmd_held hx (hT.allows rfl) b.val)
  case bfaultClear =>
    exact fun _ _ b mask => hostWrite_changes .PW_BFAULT b.val 0 (fun _ => mask.toNat) rfl (.inr fun _ => rfl) (by rfl)
      (fun h hT _ => Mach.bfaultClear_held h (hT.allows rfl) b.val _)
  case period =>
    exact fun _ _ b v => hostWrite_changes .PW_PERIOD b.val 0 (fun _ => v.toNat) rfl (.inr fun _ => rfl) (by rfl)
      (fun h hT _ => Mach.stPeriodChange_held (Mach.writePeriod_held h (hT.allows rfl) b.val _) (hT.allows rfl) _)
  case stagUser =>
    exact fun _ _ b on => hostWrite_changes .PW_CFG b.val 0
      (fun m => putBits (m.peek ⟨.PW_CFG, b.val, 0⟩ &&& Reg.PW_CFG.desc.rwBits) F.PW_CFG_STAG_USER.lo F.PW_CFG_STAG_USER.width (b2n on))
          rfl (.inr fun _ => rfl) (by rfl)
      (fun h hT _ => Mach.writePwCfg_held h (hT.allows rfl) b.val _)
  case chOfs =>
    exact fun _ _ b k v => hostWrite_changes .PW_CH_OFS b.val k.val (fun _ => v.toNat) rfl (.inr fun _ => rfl) (by rfl)
      (fun h hT _ => Mach.writeChOfs_held h (hT.allows rfl) b.val k.val _)
  case safe =>
    exact fun _ _ b v => hostWrite_changes .PW_SAFE b.val 0 (fun _ => v.toNat) rfl (.inr fun _ => rfl) (by rfl)
      (fun h hT _ => Mach.writeSafe_held h (hT.allows rfl) b.val _)
  case halt =>
    exact fun _ _ guard => hostWrite_changes .GL_DBG 0 0 (fun _ => 1 + guard.toNat * 2 ^ 8) rfl (.inr fun _ => rfl) (by rfl)
      (fun h hT _ => Mach.writeDbg_held h (hT.allows rfl) _)
  case haltEnd =>
    exact fun _ _ guard => hostWrite_changes .GL_DBG 0 0 (fun _ => guard.toNat * 2 ^ 8) rfl (.inr fun _ => rfl) (by rfl)
      (fun h hT _ => Mach.writeDbg_end_held h (hT.allows rfl) (by simp [bitOf]; omega))
  case tripClear =>
    exact fun _ _ => hostWrite_changes .PW_TRIP_STAT 0 0 (fun _ => 1) rfl (.inr fun _ => rfl) (by rfl)
      (fun h hT _ => Mach.when_held (Mach.store_within h hT .PW_TRIP_STAT 0 0 _ rfl) _ _ fun _ hx => Mach.tripClear_held hx (hT.allows rfl))

end Sys2Proof.Machine
end

section
/-!
PROOFS. What the supply, reset and start commands leave unchanged. A command that clears the module keeps what a few parts hold, which
the mask of its body leaves out.
-/

namespace Sys2Proof.Machine


/-! ### What is kept by a command that may change nearly everything -/

/-- Everything but the levels of the inputs and the programmed keys. -/
abbrev allButInpOtp : Nat := 0x3fffffffffffffffffffffffffffffffffffffffffffffffffffffffffffffffffffffffffff0000003effffffdd

/-- Everything but the levels of the inputs, the programmed keys and the boundary-scan state. -/
abbrev allButInpOtpTap : Nat := 0x3fffffffffffffffffffffffffffffffffffffffffffffffffffffffffffffffffffffffffff0000001effffffdd

/-- Everything but the levels of the inputs and the boundary-scan state. -/
abbrev allButInpTap : Nat := 0x3fffffffffffffffffffffffffffffffffffffffffffffffffffffffffffffffffffffffffff0000001fffffffdd

section
variable {c : Instr} {s t : State} {f : Mach → Mach} {K : Nat}

/-- What a command leaves of the parts that the mask of its body leaves out. -/
theorem body_keeps (hc : exec c s = s.run f) (hf : ∀ {T : Scope} {m : Mach}, m.Within T → T.allows K → (f m).Within T) (hs : s.Sound)
    (ht : exec c s = .next t) : (K.testBit 5 = false → t.m.inp = s.m.inp) ∧ (K.testBit 32 = false → t.m.otp = s.m.otp) ∧
      (K.testBit 37 = false → t.m.tap = s.m.tap) := by
  have hBody : (f s.m.begin_).Within ⟨s.m.otp, s.m.begin_, K⟩ := hf (Mach.Within.start (m := s.m.begin_) ⟨hs.stored⟩ K) (Nat.and_self K)
  have hNext : t = { s with m := (f s.m.begin_).settle s.m.begin_ } := by
    injection ht.symm.trans (hc.trans rfl)
  rw [hNext]
  exact ⟨fun h => (Mach.settle_inp _ _).trans (Scope.same hBody.inp h), fun h => (Mach.settle_otp _ _).trans (Scope.same hBody.otp h),
    fun h => (Mach.settle_tap _ _).trans (Scope.same hBody.tap h)⟩

/-- A command that keeps the levels of the inputs and the programmed keys. -/
theorem keeps_inp_otp (hc : exec c s = s.run f)
    (hf : ∀ {T : Scope} {m : Mach}, m.Within T → T.allows allButInpOtp → (f m).Within T) (hs : s.Sound)
        (ht : exec c s = .next t) : t.m.inp = s.m.inp ∧ t.m.otp = s.m.otp := by
  obtain ⟨hInp, hOtp, -⟩ := body_keeps hc hf hs ht
  exact ⟨hInp (by decide), hOtp (by decide)⟩

/-- A command that also keeps the boundary-scan state. -/
theorem keeps_inp_otp_tap (hc : exec c s = s.run f)
    (hf : ∀ {T : Scope} {m : Mach}, m.Within T → T.allows allButInpOtpTap → (f m).Within T) (hs : s.Sound) (ht : exec c s = .next t) :
    t.m.inp = s.m.inp ∧ t.m.otp = s.m.otp ∧ t.m.tap = s.m.tap := by
  obtain ⟨hInp, hOtp, hTap⟩ := body_keeps hc hf hs ht
  exact ⟨hInp (by decide), hOtp (by decide), hTap (by decide)⟩

/-- A command that keeps the levels of the inputs and the boundary-scan state. -/
theorem keeps_inp_tap (hc : exec c s = s.run f)
    (hf : ∀ {T : Scope} {m : Mach}, m.Within T → T.allows allButInpTap → (f m).Within T) (hs : s.Sound)
        (ht : exec c s = .next t) : t.m.inp = s.m.inp ∧ t.m.tap = s.m.tap := by
  obtain ⟨hInp, -, hTap⟩ := body_keeps hc hf hs ht
  exact ⟨hInp (by decide), hTap (by decide)⟩

end

/-! ### Supply, reset and start -/

/-- R68: the instruction and the state machine of the TAP are one part. -/
theorem Mach.withTap_within {T : Scope} {m : Mach} (h : m.Within T) (hT : T.allows 0x2000000000) (t : Tap) : (m.withTap t).Within T := by
  refine Mach.held_upd (b := m) ?_ h
  constructor
  case tap => exact .inr (hT.has rfl)
  all_goals first | rfl | exact .inl rfl

/-- R95: a request for the next start by KN_CTRL bit 2. -/
theorem Mach.writeKnCtrl_dramFast (m : Mach) : m.writeKnCtrl 4 = m.knRequest 0 := rfl

/-- R95: a request for the next start by KN_CTRL bit 3. -/
theorem Mach.writeKnCtrl_homeReset (m : Mach) : m.writeKnCtrl 8 = m.knRequest 1 := rfl

/-- Settles O51: what each event's body and each write of KN_CTRL stays within. -/
theorem supplyAndStartFrame : Obligations.SupplyAndStartFrame := by
  refine ⟨?vauxGood, ?vauxLost, ?programDone, ?gaspEnd, ?vholdLow, ?vholdCharged, ?suppliesOff, ?vioOverload, ?resetIn, ?resetRise,
    ?kilnStart, ?stepTimeout, ?kilnRestart, ?step16, ?restart, ?dramFast, ?homeReset, ?testInstruction, ?tckEdge⟩
  case vauxGood =>
    exact fun _ _ vselH vselN v => keeps_inp_otp (by rfl) fun h hT =>
        Mach.vauxRise_held (Mach.hoursPass_held h (hT.sub rfl)) (hT.sub rfl) (!vselH)
      (!vselN) v.vaux.toNat v.vhold.toNat
  case vauxLost =>
    exact fun _ _ vaux vhold => body_changes (by rfl) fun h hT =>
        Mach.vauxFall_held (Mach.hoursPass_held h (hT.allows rfl)) (hT.allows rfl) vaux.toNat vhold.toNat
  case programDone =>
    exact fun _ _ => body_changes (by rfl) (f := fun m => if m.kn.phase == .gasp then m.hoursPass.gaspProgram else m) fun h hT =>
      Mach.ite_held _ (Mach.gaspProgram_held (Mach.hoursPass_held h (hT.allows rfl)) (hT.allows rfl)) h
  case gaspEnd => exact fun _ _ => keeps_inp_otp (by rfl) fun h hT => Mach.gaspEnd_held (Mach.hoursPass_held h (hT.sub rfl)) (hT.sub rfl)
  case vholdLow => exact fun _ _ => body_changes (by rfl) fun h hT => Mach.alwaysOnLost_held h (hT.allows rfl)
  case vholdCharged =>
    exact fun _ _ => body_changes (by rfl)
      (f := fun m => m.modKn fun k => { k with vhold := m.rd F.KN_SUPPLY_VAUX_V - 1024 + m.free 9820 % 1025 })
      fun h hT => Mach.modKn_held h (hT.allows rfl) _
  case suppliesOff => exact fun _ _ => keeps_inp_otp (by rfl) fun h hT =>
      Mach.suppliesOff_held (Mach.hoursPass_held h (hT.sub rfl)) (hT.sub rfl)
  case vioOverload =>
    exact fun _ _ rail => body_changes (by rfl) (f := fun m => if m.dead then m else m.vioOverload rail.val) fun h hT =>
      Mach.ite_held _ h (Mach.vioOverload_held h (hT.allows rfl) rail.val)
  case resetIn => exact fun _ _ => keeps_inp_otp_tap (by rfl) fun h hT =>
      Mach.resetLow_held (Mach.hoursPass_held h (hT.sub rfl)) (hT.sub rfl)
  case resetRise => exact fun _ _ a b => body_changes (by rfl) fun h hT =>
      Mach.resetRise_held (Mach.hoursPass_held h (hT.allows rfl)) (hT.allows rfl) a b
  case kilnStart =>
    exact fun _ _ w => keeps_inp_tap (by rfl) (f := fun m => Mach.kilnGo w 16 (m.when (m.kn.phase == .start) Mach.hoursPass)) fun h hT =>
      Mach.kilnGo_held (hT.sub rfl) w 16 (Mach.when_held h _ Mach.hoursPass fun _ hx => Mach.hoursPass_held hx (hT.sub rfl))
  case stepTimeout =>
    exact fun _ _ => body_changes (by rfl)
      (f := fun m => if m.kn.phase == .start && !m.testInstr && decide (m.kn.step ≤ 14) then
        m.hoursPass.kilnFail m.kn.step 1 (m.free 9710 % 2 ^ 16) else m)
      fun h hT => Mach.ite_held _ (Mach.kilnFail_held (Mach.hoursPass_held h (hT.allows rfl)) (hT.allows rfl) _ _ _) h
  case kilnRestart =>
    exact fun _ _ => keeps_inp_otp_tap (by rfl)
      (f := fun m => if m.kn.phase == .waiting && !m.testInstr then m.hoursPass.wipeSoft.startBegin 2 else m) fun h hT =>
      Mach.ite_held _ (Mach.startBegin_held (Mach.wipeSoft_held (Mach.hoursPass_held h (hT.sub rfl)) (hT.sub rfl)) (hT.sub rfl) 2) h
  case step16 => exact fun _ _ => body_changes (by rfl) fun h hT => Mach.step16Check_held h (hT.allows rfl)
  case restart =>
    exact fun _ _ clrCnt => keeps_inp_otp_tap (by rfl) (f := fun m => m.hostWrite ⟨.KN_CTRL, 0, 0⟩ (1 + 2 * b2n clrCnt)) fun h hT =>
      Mach.hostWrite_within h (hT.sub rfl) (by decide) (.inl (hT.sub rfl)) _ fun _ hx => Mach.writeKnCtrl_held hx (hT.sub rfl) _
  case dramFast =>
    exact fun _ _ => hostWrite_changes .KN_CTRL 0 0 (fun _ => 4) rfl (.inr fun _ => rfl) (by rfl) fun {_ m} h hT _ =>
      show (m.writeKnCtrl 4).Within _ from m.writeKnCtrl_dramFast ▸ Mach.knRequest_held h (hT.allows rfl) 0
  case homeReset =>
    exact fun _ _ => hostWrite_changes .KN_CTRL 0 0 (fun _ => 8) rfl (.inr fun _ => rfl) (by rfl) fun {_ m} h hT _ =>
      show (m.writeKnCtrl 8).Within _ from m.writeKnCtrl_homeReset ▸ Mach.knRequest_held h (hT.allows rfl) 1
  case testInstruction =>
    exact fun _ _ code => body_changes (by rfl) (f := fun m =>
        if m.tapLive then (m.withTap (m.tap.load (tapTestCodes.getD code.val 0))).tapTest else m)
      fun h hT => Mach.ite_held _ (Mach.tapTest_held (Mach.withTap_within h (hT.allows rfl) _) (hT.allows rfl)) h
  case tckEdge =>
    exact fun _ _ trst tms tdi pins => body_changes (by rfl)
      (f := fun m => if m.tapLive then
          let t := m.tap.clock trst tms tdi (m.chainCapture pins.toNat) (m.free 9720)
          (m.withTap t).when (!trst && t.st == .updateIr && tapTestCodes.contains t.ir) Mach.tapTest
        else m)
      fun h hT => Mach.ite_held _ (Mach.when_held (Mach.withTap_within h (hT.allows rfl) _) _ Mach.tapTest fun _ hx =>
        Mach.tapTest_held hx (hT.allows rfl)) h

end Sys2Proof.Machine
end

section
/-!
PROOFS. What the axis events and strobes leave unchanged. A command bit of AX_CTRL or LA_CTRL is one operation; the frame of a strobe
is that of its operation.
-/

namespace Sys2Proof.Machine


/-! ### Strobes as operations -/

/-- A write of the host that the lists name, with what the register's owner does with the word. -/
theorem hostWrite_within {T : Scope} {m : Mach} {parts : List Part} {regs : List Reg} (h : m.Within T) (hT : T.Lists parts regs) (r : Reg)
    (i j w : Nat) (hr : r.reachable parts regs = true) (hl : ∀ x : Mach, x.levelBits ⟨r, i, j⟩ = 0)
    (ho : ∀ {x : Mach}, x.Within T → (x.ownerWrite ⟨r, i, j⟩ w false).Within T) : (m.hostWrite ⟨r, i, j⟩ w).Within T :=
  Mach.hostWrite_within h (hT.allows (Reg.host_of_reachable hr)) (Reg.ne_data_of_reachable hr) (.inr hl) w fun _ hx => ho hx

/-- The write of one field that leaves the register's other fields, as a write of the host. -/
theorem hostField_within {T : Scope} {m : Mach} {parts : List Part} {regs : List Reg} (h : m.Within T) (hT : T.Lists parts regs) (f : Fld)
    (i j v : Nat) (hr : f.reg.reachable parts regs = true) (hl : ∀ x : Mach, x.levelBits ⟨f.reg, i, j⟩ = 0)
    (ho : ∀ {x : Mach}, x.Within T → ∀ w, (x.ownerWrite ⟨f.reg, i, j⟩ w false).Within T) : (m.hostField f i j v).Within T :=
  hostWrite_within h hT f.reg i j _ hr hl fun hx => ho hx _

/-- The frame of a read of the host: it leaves the value read, and the register's side effect may change more. -/
theorem hostRead_within {T : Scope} {m : Mach} {parts : List Part} {regs : List Reg} (h : m.Within T) (hT : T.Lists parts regs) (r : Reg)
    (i j : Nat) (hr : r.reachable parts regs = true) (hd : 512 &&& listMask parts regs = 512)
    (ho : ∀ {x : Mach}, x.Within T → (x.readEffect ⟨r, i, j⟩).Within T) : (m.hostRead ⟨r, i, j⟩).Within T :=
  Mach.hostRead_within h (hT.allows (Reg.host_of_reachable hr)) (hT.allows hd) (Reg.ne_data_of_reachable hr) fun _ hx => ho hx

/-- The frame of a strobe of AX_CTRL. -/
theorem axCtrl_changes {c : Instr} {s t : State} {parts : List Part} {regs : List Reg} (n w : Nat) {f : Mach → Mach}
    (hr : Reg.AX_CTRL.reachable parts regs = true) (hc : exec c s = s.run fun m => m.hostWrite ⟨.AX_CTRL, n, 0⟩ w)
    (hw : ∀ m : Mach, m.writeAxCtrl n w = f m) (ho : ∀ {T : Scope} {m : Mach}, m.Within T → T.Lists parts regs → (f m).Within T) :
    s.Sound → exec c s = .next t → Changes s.m t.m parts regs :=
  hostWrite_changes .AX_CTRL n 0 (fun _ => w) hr (.inr fun _ => rfl) hc fun {_ m} h hT _ =>
    show (m.writeAxCtrl n w).Within _ from hw m ▸ ho h hT

/-- R136: AX_CTRL bit 2 alone is ESTOP. -/
theorem Mach.writeAxCtrl_estop (n : Nat) (m : Mach) : m.writeAxCtrl n 4 = m.ctrlEstop n := by
  delta Mach.writeAxCtrl
  simp [bitOf, bitsOf]

/-- R346: LA_CTRL bit 4 asks for a resynchronisation and nothing else. -/
theorem Mach.writeLaCtrl_resync (m : Mach) (b : Nat) (axis : BitVec 4) : m.writeLaCtrl b (axis.toNat + 16) = m.resync b axis.toNat := by
  have hAxis : bitsOf (axis.toNat + 16) 0 4 = axis.toNat := by have := axis.isLt; simp [bitsOf]; omega
  have hOn : bitOf (axis.toNat + 16) 4 = true := by have := axis.isLt; simp [bitOf]; omega
  have hOff : bitOf (axis.toNat + 16) 5 = false := by have := axis.isLt; simp [bitOf]; omega
  delta Mach.writeLaCtrl
  simp [Mach.when, hAxis, hOn, hOff]

/-- R352: LA_CTRL bit 5 clears a peak and nothing else. -/
theorem Mach.writeLaCtrl_peakClr (m : Mach) (b : Nat) (axis : BitVec 4) : m.writeLaCtrl b (axis.toNat + 32) = m.peakClr b axis.toNat := by
  have hAxis : bitsOf (axis.toNat + 32) 0 4 = axis.toNat := by have := axis.isLt; simp [bitsOf]; omega
  have hOn : bitOf (axis.toNat + 32) 5 = true := by have := axis.isLt; simp [bitOf]; omega
  have hOff : bitOf (axis.toNat + 32) 4 = false := by have := axis.isLt; simp [bitOf]; omega
  delta Mach.writeLaCtrl
  simp [Mach.when, hAxis, hOn, hOff]

/-- R24: a coil is computed unless it repeats its period or its bank is off. -/
theorem coilCompute_changes {s t : State} (k : Fin 96) (at_ : CoilAt) : s.Sound → exec (.coilCompute k at_) s = .next t →
    Changes s.m t.m [.rings, .coils, .obs, .harm, .banks] [.Q_IRQ, .AX_COIL, .AX_CR_STAT, .CS_WIN_STAT, .LA_AX_STAT] := by
  intro hs ht
  change execCoilCompute k at_ s = .next t at ht
  delta execCoilCompute at ht
  refine State.run_changes hs (listMask [.rings, .coils, .obs, .harm, .banks] [.Q_IRQ, .AX_COIL, .AX_CR_STAT, .CS_WIN_STAT, .LA_AX_STAT])
    (fun _ h => Mach.ite_held _ h ?_) ht (Nat.and_self _)
  have hT : (⟨s.m.otp, s.m.begin_, listMask [.rings, .coils, .obs, .harm, .banks]
    [.Q_IRQ, .AX_COIL, .AX_CR_STAT, .CS_WIN_STAT, .LA_AX_STAT]⟩ : Scope).Lists _ _ := Nat.and_self _
  have hComputed := Mach.coilCompute_held h (hT.allows rfl) k.val at_.tph.toNat
  split
  · have hRon := fun drop i => Mach.patRon_held hComputed (hT.allows rfl) (k.val / 2) drop i
    exact Mach.winExamine_held (hRon _ _) (hT.allows rfl) _ _ _ _
  · exact hComputed

/-- Settles O54: what each event's body and each write's operation stays within. -/
theorem axisFrame : Obligations.AxisFrame := by
  refine ⟨?tick, ?slot, ?arming, ?ramp, ?enable, ?disable, ?estop, ?maqEnter, ?maqExit, ?retgt, ?slim, ?limit, ?limClear, ?home,
    ?compute, ?harm, ?mark, ?retry, ?resync, ?peakClr, ?thermal⟩
  case tick =>
    exact fun _ _ lv => body_changes (by rfl)
      (f := fun m => ((((m.takePorts lv).exSensed lv.sensed).xtalSeen lv.xtal).tickNow (m.filterLevels lv.now lv.held)).step16Check)
      fun h hT =>
        have hSeen := Mach.xtalSeen_held (Mach.exSensed_held (Mach.takePorts_held h (hT.allows rfl) lv) (hT.allows rfl) lv.sensed)
            (hT.allows rfl) lv.xtal
        Mach.step16Check_held (Mach.tickNow_held hSeen (hT.allows rfl) _) (hT.allows rfl)
  case slot =>
    exact fun _ _ n camMissing => body_changes (by rfl)
      (f := fun m => if m.clk.running && !m.dbgHalt && !m.gasp then m.engineSlot n.val camMissing else m) fun h hT =>
      Mach.ite_held _ (Mach.engineSlot_held h (hT.allows rfl) n.val camMissing) h
  case arming => exact fun _ _ n found => body_changes (by rfl) fun h hT =>
      Mach.armingDone_held h (hT.allows rfl) n.val found.bridgeOk found.motor
  case ramp => exact fun _ _ n => body_changes (by rfl) fun h hT => Mach.stillRamp_held h (hT.allows rfl) n.val
  case enable => exact fun _ _ n => axCtrl_changes n.val 1 rfl (by rfl) (fun _ => rfl) fun h hT =>
      Mach.ctrlEnable_held h (hT.allows rfl) n.val
  case disable => exact fun _ _ n => axCtrl_changes n.val 2 rfl (by rfl) (fun _ => rfl) fun h hT =>
      Mach.ctrlDisable_held h (hT.allows rfl) n.val
  case estop => exact fun _ _ n => axCtrl_changes n.val 4 rfl (by rfl) (Mach.writeAxCtrl_estop n.val) fun h hT =>
      Mach.ctrlEstop_held h (hT.allows rfl) n.val
  case maqEnter => exact fun _ _ n => axCtrl_changes n.val 8 rfl (by rfl) (fun _ => rfl) fun h hT =>
      Mach.ctrlMaqEnter_held h (hT.allows rfl) n.val
  case maqExit => exact fun _ _ n => axCtrl_changes n.val 16 rfl (by rfl) (fun _ => rfl) fun h hT =>
      Mach.ctrlMaqExit_held h (hT.allows rfl) n.val
  case retgt =>
    exact fun _ _ n w => hostWrite_changes .AX_RETGT n.val 0 (fun _ => w.toNat) rfl (.inr fun _ => rfl) (by rfl) fun h hT _ =>
      Mach.modAx_held (Mach.store_within h hT .AX_RETGT n.val 0 _ rfl) (hT.allows rfl) n.val _
  case slim =>
    exact fun _ _ n enable w => body_changes (by rfl)
      (f := fun m => (m.hostWrite ⟨.AX_SLIM, n.val, 0⟩ w.toNat).hostField F.AX_CFG_SLIM_EN n.val 0 (b2n enable)) fun {_ m} h hT =>
        have hLimits : (m.hostWrite ⟨.AX_SLIM, n.val, 0⟩ w.toNat).Within _ :=
          hostWrite_within h hT .AX_SLIM n.val 0 _ rfl (fun _ => rfl) fun hx =>
            Mach.modAx_held (Mach.store_within hx hT .AX_SLIM n.val 0 _ rfl) (hT.allows rfl) n.val _
        hostField_within hLimits hT F.AX_CFG_SLIM_EN n.val 0 _ rfl (fun _ => rfl)
          fun hx v => Mach.when_held (Mach.store_within hx hT .AX_CFG n.val 0 v rfl) _ _ fun _ hy =>
              Mach.modAx_held hy (hT.allows rfl) n.val _
  case limit => exact fun _ _ n sideB => body_changes (by rfl) fun h hT => Mach.limitActive_held h (hT.allows rfl) n.val sideB
  case limClear =>
    exact fun _ _ n a b => hostWrite_changes .AX_LIM_STAT n.val 0 (fun _ => 4 * b2n a + 8 * b2n b) rfl (.inl rfl) (by rfl)
      (fun h hT _ =>
        have hSideA := Mach.when_held (Mach.store_within h hT .AX_LIM_STAT n.val 0 _ rfl) _ (·.limClear n.val false) fun _ hx =>
          Mach.limClear_held hx (hT.allows rfl) n.val false
        Mach.when_held hSideA _ (·.limClear n.val true) fun _ hx => Mach.limClear_held hx (hT.allows rfl) n.val true)
  case home => exact fun _ _ n ts => body_changes (by rfl) fun h hT => Mach.homeRef_held h (hT.allows rfl) n.val ts.toNat
  case compute => exact fun _ _ k at_ => coilCompute_changes k at_
  case harm =>
    exact fun _ _ n isWrite v => body_changes (by rfl)
      (f := fun m => if isWrite then m.hostWrite ⟨.AX_HARM_DATA, n.val, 0⟩ v.toNat else m.hostRead ⟨.AX_HARM_DATA, n.val, 0⟩)
      fun h hT => Mach.ite_held _
        (hostWrite_within h hT .AX_HARM_DATA n.val 0 _ rfl (fun _ => rfl) fun hx => Mach.writeHarm_held hx (hT.allows rfl) n.val _)
        (hostRead_within h hT .AX_HARM_DATA n.val 0 rfl rfl fun hx => Mach.harmAdvance_held hx (hT.allows rfl) n.val)
  case mark => exact fun _ _ r ts => body_changes (by rfl) fun h hT => Mach.regMark_held h (hT.allows rfl) r.val ts.toNat
  case retry => exact fun _ _ n => body_changes (by rfl) fun h hT => Mach.retryResume_held h (hT.allows rfl) n.val
  case resync =>
    exact fun _ _ b axis => hostWrite_changes .LA_CTRL b.val 0 (fun _ => axis.toNat + 16)
        rfl (.inr fun _ => rfl) (by rfl) fun {_ m} h hT _ =>
      show (m.writeLaCtrl b.val _).Within _ from m.writeLaCtrl_resync b.val axis ▸ Mach.resync_held h (hT.allows rfl) b.val axis.toNat
  case peakClr =>
    exact fun _ _ b axis => hostWrite_changes .LA_CTRL b.val 0 (fun _ => axis.toNat + 32)
        rfl (.inr fun _ => rfl) (by rfl) fun {_ m} h hT _ =>
      show (m.writeLaCtrl b.val _).Within _ from m.writeLaCtrl_peakClr b.val axis ▸ Mach.peakClr_held h (hT.allows rfl) b.val axis.toNat
  case thermal => exact fun _ _ n => body_changes (by rfl) fun h hT => Mach.thermalFault_held h (hT.allows rfl) n.val

end Sys2Proof.Machine
end

section
/-!
PROOFS. What the queue-class commands and the queue registers leave unchanged. Before a queue register is reached, the aborts whose
conditions hold are carried out (R203).
-/

namespace Sys2Proof.Machine


section
variable {c : Instr} {s t : State} {parts : List Part} {regs : List Reg}

/-- What the row of a queue-class command may change: SET_OUTPUT, SIGNAL and STRATA_MARK more than the others. -/
def rowMask (opc : Nat) : Nat :=
  queueMask ||| match opc with
    | 0x31 => 0x180
    | 0x44 => Reg.Q_SIGNAL.bit
    | 0x50 => 0x800000000
    | _ => 0

/-- The lists name what the row of an opcode may change; SET_PARAM, whose operand names a register, is treated apart. -/
def rowFits (opc : Nat) (parts : List Part) (regs : List Reg) : Bool :=
  decide (opc < 256) && opc != 0x30 && (rowMask opc &&& listMask parts regs == rowMask opc)

/-- The check as its three facts. -/
theorem rowFits_iff {opc : Nat} :
    rowFits opc parts regs = true ↔ (opc < 256 ∧ opc ≠ 0x30) ∧ rowMask opc &&& listMask parts regs = rowMask opc := by
  rw [rowFits, Bool.and_eq_true, Bool.and_eq_true, decide_eq_true_iff, bne_iff_ne, beq_iff_eq]

/-- What the aborts that are due may change. -/
abbrev abortsMask : Nat := 0x800010900000000000000000000000080001800

/-- The frame of a row of a queue-class command. -/
theorem queueClass_changes {q : Nat} {args : CmdArgs} (opc : Nat) (hr : rowFits opc parts regs = true)
    (hc : exec c s = s.run fun m => m.command q opc args) : s.Sound → exec c s = .next t → Changes s.m t.m parts regs :=
  body_changes hc fun h hT => by
    obtain ⟨⟨hb, h30⟩, hq⟩ := rowFits_iff.mp hr
    have hRow := hT.allows hq
    refine Mach.command_within h (hRow.sub (mask_and_or_left _ _)) q opc args hb h30 ?_ ?_ ?_
    all_goals
      rintro rfl
      exact hRow.sub (mask_and_or_right _ _)

/-- The frame of a write of a queue register, whose bits name no state. -/
theorem queueWrite_changes (r : Reg) (i j w : Nat)
    (hr : (r.reachable parts regs && (abortsMask &&& listMask parts regs == abortsMask)) = true)
    (hl : ∀ x : Mach, x.levelBits ⟨r, i, j⟩ = 0) (hc : exec c s = s.run fun m => m.abortsDue.hostWrite ⟨r, i, j⟩ w)
    (ho : ∀ {T : Scope} {m : Mach}, m.Within T → T.Lists parts regs → (m.ownerWrite ⟨r, i, j⟩ w false).Within T) :
    s.Sound → exec c s = .next t → Changes s.m t.m parts regs := by
  obtain ⟨hHost, hAborts⟩ := Bool.and_eq_true_iff.mp hr
  exact body_changes hc fun h hT =>
    hostWrite_within (Mach.abortsDue_held h (hT.allows (eq_of_beq hAborts))) hT r i j w hHost hl fun hx => ho hx hT

/-- The frame of a read that takes a record from a ring. -/
theorem queueRead_changes (r : Reg) (hr : (r.reachable parts regs && (abortsMask &&& listMask parts regs == abortsMask)) = true)
    (hv : 512 &&& listMask parts regs = 512) (hc : exec c s = s.run fun m => m.abortsDue.hostRead ⟨r, 0, 0⟩)
    (ho : ∀ {T : Scope} {m : Mach}, m.Within T → T.Lists parts regs → (m.readEffect ⟨r, 0, 0⟩).Within T) :
    s.Sound → exec c s = .next t → Changes s.m t.m parts regs := by
  obtain ⟨hHost, hAborts⟩ := Bool.and_eq_true_iff.mp hr
  exact body_changes hc fun h hT =>
    hostRead_within (Mach.abortsDue_held h (hT.allows (eq_of_beq hAborts))) hT r 0 0 hHost hv fun hx => ho hx hT

end

/-- R194: a doorbell of several queues, by its half. -/
theorem qMdb_changes {s t : State} (hi : Bool) (mask : BitVec 32) : s.Sound → exec (.qMdb hi mask) s = .next t →
    Changes s.m t.m [.queues, .rings, .kn, .hp] [.Q_STATUS, .Q_LAST, .Q_ABORT_STAT, .Q_IRQ, .HP_ERR, .HP_LAST, .GL_STATUS] := by
  cases hi with
  | false => exact queueWrite_changes .Q_MDB_LO 0 0 mask.toNat rfl (fun _ => rfl) (by rfl) fun h hT =>
      Mach.mdb_held h (hT.allows rfl) false _
  | true => exact queueWrite_changes .Q_MDB_HI 0 0 mask.toNat rfl (fun _ => rfl) (by rfl) fun h hT => Mach.mdb_held h (hT.allows rfl) true _

/-- R211: a change of a group's members, by its half. -/
theorem grMemb_changes {s t : State} (g : Fin 16) (hi : Bool) (mask : BitVec 32) : s.Sound → exec (.grMemb g hi mask) s = .next t →
    Changes s.m t.m [.rings, .hp] [.Q_IRQ, .GR_MEMB_LO, .GR_MEMB_HI, .GR_STATUS, .HP_ERR, .HP_LAST, .GL_STATUS] := by
  cases hi with
  | false => exact hostWrite_changes .GR_MEMB_LO g.val 0 (fun _ => mask.toNat) rfl (.inr fun _ => rfl) (by rfl) fun h hT _ =>
      Mach.writeMemb_held h (hT.allows rfl) g.val false _
  | true => exact hostWrite_changes .GR_MEMB_HI g.val 0 (fun _ => mask.toNat) rfl (.inr fun _ => rfl) (by rfl) fun h hT _ =>
      Mach.writeMemb_held h (hT.allows rfl) g.val true _

/-- Settles O56: what each row of the queue commands and each write of a queue register stays within. -/
theorem queueCommandFrame : Obligations.QueueCommandFrame := by
  refine ⟨?dispatch, ?waitInput, ?waitTime, ?waitQueue, ?waitPos, ?waitTimeout, ?setParam, ?setOutput, ?pulseEnd, ?jump, ?call, ?ret,
    ?loop, ?signal, ?finish, ?strataMark, ?nop, ?fetch, ?push, ?pushDb, ?publish, ?discard,
    fun _ _ => qMdb_changes, ?pause, ?resume, ?flush,
    ?rtnStart, ?abort, ?abortX, ?abortInput, ?cplPop, ?cplRd, ?evtPop, ?evtRd, fun _ _ => grMemb_changes, ?grStop⟩
  case dispatch => exact fun _ _ => keeps_inp_tap (by rfl) fun h hT => Mach.queueDispatch_held h (hT.sub rfl)
  case waitInput => exact fun _ _ _ _ => queueClass_changes 0x20 rfl (by rfl)
  case waitTime => exact fun _ _ _ _ => queueClass_changes 0x21 rfl (by rfl)
  case waitQueue => exact fun _ _ _ _ => queueClass_changes 0x22 rfl (by rfl)
  case waitPos => exact fun _ _ _ _ => queueClass_changes 0x23 rfl (by rfl)
  case waitTimeout =>
    exact fun _ _ q => body_changes (by rfl) fun h hT =>
      Mach.retireDue_held (Mach.waitStep_held (Mach.abortsDue_held h (hT.allows rfl)) (hT.allows rfl) q.val true) (hT.allows rfl) q.val
  case setParam => exact fun _ _ q args => keeps_inp_tap (by rfl) fun h hT => Mach.command_held h (hT.sub rfl) q.val 0x30 args
  case setOutput => exact fun _ _ _ _ => queueClass_changes 0x31 rfl (by rfl)
  case pulseEnd => exact fun _ _ outs => body_changes (by rfl) fun h hT => Mach.pulseEnd_held h (hT.allows rfl) outs.toNat
  case jump => exact fun _ _ _ _ => queueClass_changes 0x40 rfl (by rfl)
  case call => exact fun _ _ _ _ => queueClass_changes 0x41 rfl (by rfl)
  case ret => exact fun _ _ _ _ => queueClass_changes 0x42 rfl (by rfl)
  case loop => exact fun _ _ _ _ => queueClass_changes 0x43 rfl (by rfl)
  case signal => exact fun _ _ _ _ => queueClass_changes 0x44 rfl (by rfl)
  case finish => exact fun _ _ _ _ => queueClass_changes 0x45 rfl (by rfl)
  case strataMark => exact fun _ _ _ _ => queueClass_changes 0x50 rfl (by rfl)
  case nop => exact fun _ _ _ _ => queueClass_changes 0x7F rfl (by rfl)
  case fetch => exact fun _ _ q bad => body_changes (by rfl) fun h hT =>
      Mach.routineFetch_held (Mach.abortsDue_held h (hT.allows rfl)) (hT.allows rfl) q.val bad
  case push => exact fun _ _ q w => queueWrite_changes .Q_PUSH q.val 0 w.toNat rfl (fun _ => rfl) (by rfl) fun h hT =>
      Mach.push_held h (hT.allows rfl) q.val _
  case pushDb =>
    exact fun _ _ q w => queueWrite_changes .Q_PUSH_DB q.val 0 w.toNat rfl (fun _ => rfl) (by rfl) fun h hT =>
      Mach.publish_held (Mach.push_held h (hT.allows rfl) q.val _) (hT.allows rfl) q.val
  case publish => exact fun _ _ q => queueWrite_changes .Q_DB q.val 0 1 rfl (fun _ => rfl) (by rfl) fun h hT =>
      Mach.writeQDb_held h (hT.allows rfl) q.val 1
  case discard => exact fun _ _ q => queueWrite_changes .Q_DB q.val 0 2 rfl (fun _ => rfl) (by rfl) fun h hT =>
      Mach.writeQDb_held h (hT.allows rfl) q.val 2
  case pause => exact fun _ _ q => queueWrite_changes .Q_CTRL q.val 0 1 rfl (fun _ => rfl) (by rfl) fun h hT =>
      Mach.writeQCtrl_held h (hT.allows rfl) q.val 1
  case resume => exact fun _ _ q => queueWrite_changes .Q_CTRL q.val 0 2 rfl (fun _ => rfl) (by rfl) fun h hT =>
      Mach.writeQCtrl_held h (hT.allows rfl) q.val 2
  case flush => exact fun _ _ q => queueWrite_changes .Q_CTRL q.val 0 4 rfl (fun _ => rfl) (by rfl) fun h hT =>
      Mach.writeQCtrl_held h (hT.allows rfl) q.val 4
  case rtnStart =>
    exact fun _ _ q rtn => queueWrite_changes .Q_RTN q.val 0 (2 ^ 31 + rtn.toNat) rfl (fun _ => rfl) (by rfl) fun h hT =>
      Mach.when_held (Mach.store_within h hT .Q_RTN q.val 0 _ rfl) _ (·.rtnStart q.val _ false) fun _ hx =>
        Mach.rtnStart_held hx (hT.allows rfl) q.val _ false
  case abort =>
    exact fun _ _ q halt tag => queueWrite_changes .Q_ABORT q.val 0 (1 + 2 * b2n halt + tag.toNat * 2 ^ 16)
        rfl (fun _ => rfl) (by rfl) fun h hT =>
      Mach.writeQAbort_held h (hT.allows rfl) q.val _
  case abortX => exact fun _ _ w => queueWrite_changes .Q_ABORT_X 0 0 w.toNat rfl (fun _ => rfl) (by rfl) fun h hT =>
      Mach.writeAbortX_held h (hT.allows rfl) _
  case abortInput => exact fun _ _ k => body_changes (by rfl) fun h hT =>
      Mach.abortInput_held (Mach.abortsDue_held h (hT.allows rfl)) (hT.allows rfl) k.val
  case cplPop => exact fun _ _ => queueRead_changes .Q_CPL_POP rfl rfl (by rfl) fun h hT => Mach.cplPop_held h (hT.allows rfl)
  case cplRd => exact fun _ _ v => queueWrite_changes .Q_CPL_RD 0 0 v.toNat rfl (fun _ => rfl) (by rfl) fun h hT =>
      Mach.writeCplRd_held h (hT.allows rfl) _
  case evtPop => exact fun _ _ => queueRead_changes .Q_EVT_POP rfl rfl (by rfl) fun h hT => Mach.evtPop_held h (hT.allows rfl)
  case evtRd => exact fun _ _ v => queueWrite_changes .Q_EVT_RD 0 0 v.toNat rfl (fun _ => rfl) (by rfl) fun h hT =>
      Mach.writeEvtRd_held h (hT.allows rfl) _
  case grStop =>
    exact fun _ _ g => hostWrite_changes .GR_CTRL g.val 0 (fun _ => 1) rfl (.inr fun _ => rfl) (by rfl) fun h hT _ =>
      Mach.when_held h _ (·.groupStop g.val) fun _ hx => Mach.groupStop_held hx (hT.allows rfl) g.val

end Sys2Proof.Machine
end

section
/-!
PROOFS. What the feedback-port and front-end commands leave unchanged. FB_FOLLOW and the crosspoint registers do more than one thing by
the word written; each command does one of them.
-/

namespace Sys2Proof.Machine


/-- A bit written with zero reads as clear. -/
theorem bitOf_putBits_clear (x lo : Nat) : bitOf (putBits x lo 1 0) lo = false := by
  have hZero := bitsOf_putBits_same x lo 1 0
  simp only [bitsOf, Nat.pow_one, Nat.zero_mod] at hZero
  rw [bitOf, hZero]
  rfl

/-- R378: a write of FB_FOLLOW with EN asks for following. -/
theorem Mach.writeFbFollow_engage_within {T : Scope} {m : Mach} (h : m.Within T)
    (hT : T.Lists [.axes, .rings, .hp] [.Q_IRQ, .FB_STAT, .FB_FOLLOW, .HP_ERR, .HP_LAST, .GL_STATUS]) (p : Nat) {v : Nat}
    (hv : bitOf v 0 = true) : (m.writeFbFollow p v).Within T := by
  have hWritten := fun x => Mach.setReg_held h .FB_FOLLOW (hT.allows rfl) p 0 x
  delta Mach.writeFbFollow
  dsimp only
  rw [if_pos hv]
  exact Mach.fbEngageReq_held (hWritten _) (hT.allows rfl) p

/-- R378: a write of FB_FOLLOW without EN ends following. -/
theorem Mach.writeFbFollow_disengage_within {T : Scope} {m : Mach} (h : m.Within T)
    (hT : T.Lists [.axes, .queues, .rings, .regchans, .hp] [.AX_HOME_STAT, .Q_IRQ, .LA_AX_STAT, .FB_FOLLOW, .HP_ERR, .HP_LAST, .GL_STATUS])
    (p : Nat) {v : Nat} (hv : bitOf v 0 = false) : (m.writeFbFollow p v).Within T := by
  have hWritten := fun x => Mach.setReg_held h .FB_FOLLOW (hT.allows rfl) p 0 x
  delta Mach.writeFbFollow
  dsimp only
  rw [if_neg (by rw [hv]; exact Bool.false_ne_true)]
  exact Mach.ite_held _ (Mach.fbDisengage_held (hWritten _) (hT.allows rfl) p) (hWritten _)

/-- R381: a write of a crosspoint register is taken, and the conversions go on from it, or it is refused. -/
theorem Mach.writeSfCh_within {T : Scope} {m : Mach} (h : m.Within T)
    (hT : T.Lists [.staged, .rings, .sf, .hp] [.Q_IRQ, .SF_STATUS, .SF_AUX_STAT, .SF_CH_CFG, .SF_CH_BIAS, .SF_CH_CURVE, .SF_CH_STAT,
      .HP_ERR, .HP_LAST, .GL_STATUS]) (r : Reg) (c v : Nat) (now : Bool)
    (hr : r.bit &&& listMask [.staged, .rings, .sf, .hp] [.Q_IRQ, .SF_STATUS, .SF_AUX_STAT, .SF_CH_CFG, .SF_CH_BIAS, .SF_CH_CURVE,
      .SF_CH_STAT, .HP_ERR, .HP_LAST, .GL_STATUS] = r.bit) : (m.writeSfCh ⟨r, c, 0⟩ v now).Within T := by
  have hStored : (m.store ⟨r, c, 0⟩ v now).Within T := Mach.store_held h ⟨r, c, 0⟩ (hT.allows hr) v now
  have hGain := Mach.ite_held (((m.store ⟨r, c, 0⟩ v now).stageAt ⟨r, c, 0⟩).isNone && r == .SF_CH_CFG)
    (Mach.gainAfresh_held hStored (hT.allows rfl) c) hStored
  delta Mach.writeSfCh
  refine Mach.ite_held _ ?_ (Mach.sfCfgBad_held h (hT.allows rfl) _)
  exact Mach.ite_held _ (Mach.sfAfresh_held hGain (hT.allows rfl) c)
    (Mach.each_held hGain _ _ fun _ _ hx => Mach.convKick_held hx (hT.allows rfl) _)

/-- R381: a write of one of the three crosspoint registers of a channel. -/
theorem sfCrosspointWrite_changes {s t : State} (reg : Fin 3) (c : Fin 8) (v : BitVec 32) : s.Sound →
    exec (.sfCrosspointWrite reg c v) s = .next t → Changes s.m t.m [.staged, .rings, .sf, .hp] [.Q_IRQ, .SF_STATUS, .SF_AUX_STAT,
      .SF_CH_CFG, .SF_CH_BIAS, .SF_CH_CURVE, .SF_CH_STAT, .HP_ERR, .HP_LAST, .GL_STATUS] := by
  obtain ⟨_ | _ | _ | _, hReg⟩ := reg
  · exact hostWrite_changes .SF_CH_CFG c.val 0 (fun _ => v.toNat) rfl (.inr fun _ => rfl) (by rfl) fun h hT _ =>
      Mach.writeSfCh_within h hT .SF_CH_CFG c.val _ false rfl
  · exact hostWrite_changes .SF_CH_BIAS c.val 0 (fun _ => v.toNat) rfl (.inr fun _ => rfl) (by rfl) fun h hT _ =>
      Mach.writeSfCh_within h hT .SF_CH_BIAS c.val _ false rfl
  · exact hostWrite_changes .SF_CH_CURVE c.val 0 (fun _ => v.toNat) rfl (.inr fun _ => rfl) (by rfl) fun h hT _ =>
      Mach.writeSfCh_within h hT .SF_CH_CURVE c.val _ false rfl
  · omega

section
variable {c : Instr} {s t : State}

/-- R389: a write of SF_AUX_CFG may stop and start the conversions of its converter. -/
theorem auxCfg_changes (k bits : Nat) (hc : exec c s = s.run fun m => m.hostBits ⟨.SF_AUX_CFG, k, 0⟩ bits) :
    s.Sound → exec c s = .next t → Changes s.m t.m [.staged, .rings, .sf, .hp] [.Q_IRQ, .SF_AUX_CFG, .SF_AUX_STAT, .SF_CH_STAT, .HP_ERR,
      .HP_LAST, .GL_STATUS] :=
  hostWrite_changes .SF_AUX_CFG k 0 (fun m => (m.peek ⟨.SF_AUX_CFG, k, 0⟩ &&& Reg.SF_AUX_CFG.desc.rwBits) + bits) rfl (.inr fun _ => rfl) hc
    (fun h hT _ =>
      have hStop := Mach.when_held (Mach.store_within h hT .SF_AUX_CFG k 0 _ rfl) _ (·.auxStop k) fun _ hx =>
          Mach.auxStop_held hx (hT.allows rfl) k
      Mach.convKick_held (Mach.when_held hStop _ (·.auxGo k) fun _ hx => Mach.auxGo_held hx (hT.allows rfl) k) (hT.allows rfl) k)

end

/-- R400: a write of SF_CAL_CMD starts a calibration, ends one or does neither. -/
theorem Mach.calCmd_within {T : Scope} {m : Mach} (h : m.Within T)
    (hT : T.Lists [.rings, .sf, .hp] [.Q_IRQ, .SF_CAL_CMD, .HP_ERR, .HP_LAST, .GL_STATUS]) (w : Nat) :
    (m.ownerWrite ⟨.SF_CAL_CMD, 0, 0⟩ w false).Within T := by
  have hStored := Mach.store_within h hT .SF_CAL_CMD 0 0 w rfl
  delta Mach.ownerWrite
  dsimp only
  split
  · exact hStored
  · exact Mach.calCancel_held hStored (hT.allows rfl)
  · exact Mach.calStart_held hStored (hT.allows rfl) _ _ _

/-- Settles O58: what each event's body and each write's operation stays within. -/
theorem portAndFrontEndFrame : Obligations.PortAndFrontEndFrame := by
  refine ⟨?quad, ?hall, ?step, ?index, ?speed, ?serialRead, ?serialWord, ?arm, ?disarm, ?faultClear, ?fbMode, ?engage, ?disengage,
    ?auxResult, ?auxGo, ?auxStop, ?exFault, ?exFaultClear, ?exCfg, fun _ _ => sfCrosspointWrite_changes, ?tdac, ?chkGo, ?chkDone, ?calZero,
    ?calFullScale, ?calCancel, ?calTimeout, ?pop, ?repEnd, ?repHost⟩
  case quad => exact fun _ _ p a b e => body_changes (by rfl) fun h hT => Mach.quadEdge_held h (hT.allows rfl) p.val a b e.z e.cyc
  case hall => exact fun _ _ p code cyc => body_changes (by rfl) fun h hT => Mach.hallChange_held h (hT.allows rfl) p.val code.toNat cyc
  case step => exact fun _ _ p dir ena cyc => body_changes (by rfl) fun h hT => Mach.stepEdge_held h (hT.allows rfl) p.val dir ena cyc
  case index => exact fun _ _ p => body_changes (by rfl) fun h hT => Mach.indexEdge_held h (hT.allows rfl) p.val
  case speed => exact fun _ _ p => body_changes (by rfl) fun h hT => Mach.speedTimeout_held h (hT.allows rfl) p.val
  case serialRead => exact fun _ _ p => body_changes (by rfl) fun h hT => Mach.serialRead_held h (hT.allows rfl) p.val
  case serialWord =>
    exact fun _ _ p waits raw eBit wBit crc => body_changes (by rfl) fun h hT =>
      Mach.serialWord_held h (hT.allows rfl) p.val waits raw.toNat eBit wBit crc.toNat
  case arm => exact fun _ _ p => hostWrite_changes .FB_CTRL p.val 0 (fun _ => 1) rfl (.inr fun _ => rfl) (by rfl) fun h hT _ =>
      Mach.writeFbCtrl_held h (hT.allows rfl) p.val 1
  case disarm => exact fun _ _ p => hostWrite_changes .FB_CTRL p.val 0 (fun _ => 2) rfl (.inr fun _ => rfl) (by rfl) fun h hT _ =>
      Mach.writeFbCtrl_held h (hT.allows rfl) p.val 2
  case faultClear =>
    exact fun _ _ p => hostWrite_changes .FB_STAT p.val 0 (fun _ => 1) rfl (.inr fun _ => rfl) (by rfl) fun h hT _ =>
      Mach.when_held (Mach.store_within h hT .FB_STAT p.val 0 _ rfl) _ (·.portFaultClear p.val) fun _ hx =>
        Mach.portFaultClear_held hx (hT.allows rfl) p.val
  case fbMode =>
    exact fun _ _ p mode => body_changes (by rfl) (f := fun m => m.hostField F.FB_CFG_MODE p.val 0 mode.toNat) fun h hT =>
      hostField_within h hT F.FB_CFG_MODE p.val 0 mode.toNat rfl (fun _ => rfl) fun hx v =>
          Mach.writeFbCfg_held hx (hT.allows rfl) p.val v false
  case engage =>
    exact fun _ _ p axis prof => hostWrite_changes .FB_FOLLOW p.val 0 (fun _ =>
        1 + axis.toNat * 2 ^ 8 + prof.toNat * 2 ^ 16) rfl (.inr fun _ => rfl) (by rfl)
      fun h hT _ => Mach.writeFbFollow_engage_within h hT p.val (by simp [bitOf]; omega)
  case disengage =>
    exact fun _ _ p => hostWrite_changes .FB_FOLLOW p.val 0
      (fun m => putBits (m.peek ⟨.FB_FOLLOW, p.val, 0⟩ &&& Reg.FB_FOLLOW.desc.rwBits) F.FB_FOLLOW_EN.lo F.FB_FOLLOW_EN.width 0) rfl
          (.inr fun _ => rfl) (by rfl)
      fun h hT _ => Mach.writeFbFollow_disengage_within h hT p.val (bitOf_putBits_clear _ 0)
  case auxResult => exact fun _ _ k raw meas => body_changes (by rfl) fun h hT =>
      Mach.auxResult_held h (hT.allows rfl) k.val raw.toNat meas.toNat
  case auxGo => exact fun _ _ k => auxCfg_changes k.val (2 ^ 27) (by rfl)
  case auxStop => exact fun _ _ k => auxCfg_changes k.val (2 ^ 28) (by rfl)
  case exFault => exact fun _ _ e bits => body_changes (by rfl) fun h hT => Mach.exFault_held h (hT.allows rfl) e.val bits.toNat
  case exFaultClear => exact fun _ _ e => body_changes (by rfl) fun h hT => Mach.exFaultClear_held h (hT.allows rfl) e.val
  case exCfg =>
    exact fun _ _ e v => hostWrite_changes .SF_EX_CFG e.val 0 (fun _ => v.toNat) rfl (.inr fun _ => rfl) (by rfl) fun h hT _ =>
        Mach.writeExCfg_held h (hT.allows rfl) e.val _
  case tdac =>
    exact fun _ _ hold code => hostWrite_changes .SF_TDAC 0 0 (fun _ => code.toNat + b2n hold * 2 ^ 12)
        rfl (.inr fun _ => rfl) (by rfl) fun h hT _ =>
      Mach.tdacWritten_held (Mach.store_within h hT .SF_TDAC 0 0 _ rfl) (hT.allows rfl)
  case chkGo =>
    exact fun _ _ c => hostWrite_changes .SF_CHK 0 0 (fun _ => c.val + 8) rfl (.inr fun _ => rfl) (by rfl) fun h hT _ =>
      Mach.when_held (Mach.store_within h hT .SF_CHK 0 0 _ rfl) _ Mach.chkGo fun _ hx => Mach.chkGo_held hx (hT.allows rfl)
  case chkDone => exact fun _ _ e1 e2 => body_changes (by rfl) fun h hT => Mach.chkDone_held h (hT.allows rfl) e1 e2
  case calZero =>
    exact fun _ _ c navg => hostWrite_changes .SF_CAL_CMD 0 0 (fun _ => c.val + 8 + navg.toNat * 2 ^ 8)
        rfl (.inr fun _ => rfl) (by rfl) fun h hT _ =>
      Mach.calCmd_within h hT _
  case calFullScale =>
    exact fun _ _ c navg => hostWrite_changes .SF_CAL_CMD 0 0 (fun _ => c.val + 16 + navg.toNat * 2 ^ 8)
        rfl (.inr fun _ => rfl) (by rfl) fun h hT _ =>
      Mach.calCmd_within h hT _
  case calCancel =>
    exact fun _ _ => hostWrite_changes .SF_CAL_CMD 0 0 (fun m =>
        (m.peek ⟨.SF_CAL_CMD, 0, 0⟩ &&& Reg.SF_CAL_CMD.desc.rwBits) + 24) rfl (.inr fun _ => rfl) (by rfl)
      fun h hT _ => Mach.calCmd_within h hT _
  case calTimeout => exact fun _ _ => body_changes (by rfl) fun h hT => Mach.calTimeout_held h (hT.allows rfl)
  case pop =>
    exact fun _ _ => body_changes (by rfl) (f := fun m => m.hostRead ⟨.SF_Q_POP, 0, 0⟩) fun h hT =>
      hostRead_within h hT .SF_Q_POP 0 0 rfl rfl fun hx => Mach.sfPop_held hx (hT.allows rfl)
  case repEnd => exact fun _ _ r => body_changes (by rfl) fun h hT => Mach.repPeriodEnd_held h (hT.allows rfl) r.val
  case repHost =>
    exact fun _ _ r v => hostWrite_changes .SF_REP_HOST r.val 0 (fun _ => v.toNat) rfl (.inr fun _ => rfl) (by rfl) fun h hT _ =>
      Mach.repTake_held (Mach.store_within h hT .SF_REP_HOST r.val 0 _ rfl) (hT.allows rfl) 8 _ r.val

end Sys2Proof.Machine
end

section
/-!
PROOFS. What the fault-masking, ledger, patina and strata commands leave unchanged. A command bit of ST_CTRL or PT_CTRL is one
operation.
-/

namespace Sys2Proof.Machine


/-- R453: ST_CTRL bit 0 alone is a trigger. -/
theorem Mach.writeStCtrl_trigger (m : Mach) : m.writeStCtrl 1 = m.stFire 0 := by
  delta Mach.writeStCtrl
  simp [bitOf]

/-- R453: ST_CTRL bit 1 alone arms the recorder. -/
theorem Mach.writeStCtrl_arm (m : Mach) : m.writeStCtrl 2 = m.modSt fun s => { s with armed := true } := by
  delta Mach.writeStCtrl
  simp [bitOf]

/-- R453: ST_CTRL bit 2 alone disarms it. -/
theorem Mach.writeStCtrl_disarm (m : Mach) : m.writeStCtrl 4 = m.modSt fun s => { s with armed := false } := by
  delta Mach.writeStCtrl
  simp [bitOf]

/-- R453: ST_CTRL bit 4 alone releases every layer. -/
theorem Mach.writeStCtrl_releaseAll (m : Mach) : m.writeStCtrl 16 = m.stReleaseAll := by
  delta Mach.writeStCtrl
  simp [bitOf]

/-- The word of ST_CTRL that releases a layer: bit 3 and the layer, no other bit. -/
theorem stReleaseWord_bits (layer : Fin 16) :
    bitsOf (8 + layer.val * 2 ^ 8) 8 4 = layer.val ∧ bitOf (8 + layer.val * 2 ^ 8) 3 = true ∧ bitOf (8 + layer.val * 2 ^ 8) 4 = false ∧
      bitOf (8 + layer.val * 2 ^ 8) 1 = false ∧ bitOf (8 + layer.val * 2 ^ 8) 2 = false ∧ bitOf (8 + layer.val * 2 ^ 8) 0 = false := by
  revert layer
  decide

/-- R453: ST_CTRL bit 3 alone releases the layer it names. -/
theorem Mach.writeStCtrl_release (m : Mach) (layer : Fin 16) : m.writeStCtrl (8 + layer.val * 2 ^ 8) = m.stRelease layer.val := by
  obtain ⟨hLayer, hRelease, hAll, hArm, hDisarm, hTrig⟩ := stReleaseWord_bits layer
  delta Mach.writeStCtrl
  simp [-Nat.reducePow, hLayer, hRelease, hAll, hArm, hDisarm, hTrig]

/-- R445: PT_CTRL bit 1 alone clears the limits. -/
theorem Mach.ptCtrl_clrLimits (m : Mach) : m.ownerWrite ⟨.PT_CTRL, 0, 0⟩ 2 false = m.clrLimits := by
  delta Mach.ownerWrite
  simp [Mach.when, bitOf]

/-- The frame of a command of the recorder, an operation that one word of ST_CTRL asks for. -/
theorem stCtrl_changes {c : Instr} {s t : State} {parts : List Part} {regs : List Reg} {w : Nat} {f : Mach → Mach}
    (hr : Reg.ST_CTRL.reachable parts regs = true) (hc : exec c s = s.run fun m => m.hostWrite ⟨.ST_CTRL, 0, 0⟩ w)
    (hw : ∀ m : Mach, m.writeStCtrl w = f m) (ho : ∀ {T : Scope} {m : Mach}, m.Within T → T.Lists parts regs → (f m).Within T) :
    s.Sound → exec c s = .next t → Changes s.m t.m parts regs :=
  hostWrite_changes .ST_CTRL 0 0 (fun _ => w) hr (.inr fun _ => rfl) hc fun {_ m} h hT _ =>
    show (m.writeStCtrl w).Within _ from hw m ▸ ho h hT

/-- R451: a selection that fits the rate is taken at the next boundary, and the rate is shown. -/
theorem Mach.writeStSel_within {T : Scope} {m : Mach} (h : m.Within T)
    (hT : T.Lists [.staged, .rings, .hp] [.Q_IRQ, .ST_STAT, .ST_RATE, .ST_SEL, .HP_ERR, .HP_LAST, .GL_STATUS]) (k w : Nat) :
    (m.ownerWrite ⟨.ST_SEL, k, 0⟩ w false).Within T := by
  have hStored := Mach.store_within h hT .ST_SEL k 0 w rfl
  exact Mach.ite_held _ (Mach.stShowRate_held (Mach.stSelWait_held hStored (hT.allows rfl) _) (hT.allows rfl))
    (Mach.setBit_held h F.ST_STAT_RATE_REFUSED _ _ (hT.allows rfl))

/-- R453: the recorder's enable bit; the recorder begins or ends recording when the bit changes. -/
theorem Mach.writeStCfg_within {T : Scope} {m : Mach} (h : m.Within T)
    (hT : T.Lists [.dram, .rings, .st, .hp] [.Q_IRQ, .ST_CFG, .ST_STAT, .ST_WR, .ST_LAYER_ST, .HP_ERR, .HP_LAST, .GL_STATUS]) (w : Nat) :
    (m.ownerWrite ⟨.ST_CFG, 0, 0⟩ w false).Within T := by
  have hStored := Mach.store_within h hT .ST_CFG 0 0 w rfl
  exact Mach.ite_held _ hStored (Mach.stEnable_held hStored (hT.allows rfl) _)

/-- Settles O59: what each event's body and each write's operation stays within. -/
theorem maskingAndRecordFrame : Obligations.MaskingAndRecordFrame := by
  refine ⟨?unitFault, ?audit, ?takeover, ?refFail, ?pllFail, ?eccCorr, ?eccUncorr, ?eccRestore, ?scrub, ?faultLine, ?inject, ?ledger,
    ?pass, ?passNow, ?clrLimits, ?minute, ?written, ?trigger, ?freeze, ?trig, ?arm, ?disarm, ?release, ?releaseAll, ?enable, ?region, ?sel⟩
  case unitFault => exact fun _ _ u mech => body_changes (by rfl) fun h hT => Mach.checkUnit_held h (hT.allows rfl) u.toNat mech.toNat
  case audit => exact fun _ _ u sparePasses axes => body_changes (by rfl) fun h hT =>
      Mach.auditMismatch_held h (hT.allows rfl) u.toNat sparePasses _
  case takeover => exact fun _ _ u dur rep => body_changes (by rfl) fun h hT =>
      Mach.tkoDone_held h (hT.allows rfl) u.toNat dur.toNat rep.toNat
  case refFail => exact fun _ _ => body_changes (by rfl) fun h hT => Mach.unitFault_held h (hT.allows rfl) 0x48 9
  case pllFail => exact fun _ _ u => body_changes (by rfl) fun h hT => Mach.checkUnit_held h (hT.allows rfl) u.toNat 8
  case eccCorr =>
    exact fun _ _ dram addr row reserve => body_changes (by rfl) fun h hT =>
        Mach.eccCorr_held h (hT.allows rfl) dram addr.toNat row.toNat reserve
  case eccUncorr => exact fun _ _ loc addr => body_changes (by rfl) fun h hT => Mach.eccUncorr_held h (hT.allows rfl) loc addr.toNat
  case eccRestore => exact fun _ _ off => body_changes (by rfl) fun h hT => Mach.eccRestore_held h (hT.allows rfl) off.toNat
  case scrub => exact fun _ _ dram progress => body_changes (by rfl) fun h hT => Mach.scrub_held h (hT.allows rfl) dram progress.toNat
  case faultLine => exact fun _ _ asserted => body_changes (by rfl) fun h hT => Mach.faultLine_held h (hT.allows rfl) asserted
  case inject =>
    exact fun _ _ w => hostWrite_changes .FM_INJECT 0 0 (fun _ => w.toNat) rfl (.inr fun _ => rfl) (by rfl) fun h hT _ =>
        Mach.inject_held h (hT.allows rfl) _
  case ledger => exact fun _ _ tbp => body_changes (by rfl) fun h hT => Mach.ledger_held h (hT.allows rfl) tbp.toInt
  case pass =>
    exact fun _ _ w => body_changes (by rfl) (f := fun m => if m.clk.running && m.patDue then m.patinaPass w else m) fun h hT =>
      Mach.ite_held _ (Mach.patinaPass_held h (hT.allows rfl) w) h
  case passNow =>
    exact fun _ _ w => body_changes (by rfl)
      (f := fun m => if m.regAnswers ⟨.PT_CTRL, 0, 0⟩ then m.patinaPass w else m.hpError 1 (RegKey.addr ⟨.PT_CTRL, 0, 0⟩) 0 false)
      fun h hT => Mach.ite_held _ (Mach.patinaPass_held h (hT.allows rfl) w) (Mach.hpError_held h (hT.allows rfl) _ _ _ _)
  case clrLimits =>
    exact fun _ _ => hostWrite_changes .PT_CTRL 0 0 (fun _ => 2) rfl (.inr fun _ => rfl) (by rfl) fun {_ m} h hT _ =>
        m.ptCtrl_clrLimits ▸ Mach.clrLimits_held h (hT.allows rfl)
  case minute =>
    exact fun _ _ => body_changes (by rfl) (f := fun m => if m.clk.running then m.patMinute else m) fun h hT =>
      Mach.ite_held _ (Mach.patMinute_held h (hT.allows rfl)) h
  case written => exact fun _ _ ok => body_changes (by rfl) fun h hT => Mach.patWritten_held h (hT.allows rfl) ok
  case trigger => exact fun _ _ => body_changes (by rfl) fun h hT => Mach.stTrigger_held h (hT.allows rfl)
  case freeze => exact fun _ _ => body_changes (by rfl) fun h hT => Mach.stDrained_held h (hT.allows rfl)
  case trig => exact fun _ _ => stCtrl_changes rfl (by rfl) Mach.writeStCtrl_trigger fun h hT => Mach.stFire_held h (hT.allows rfl) 0
  case arm => exact fun _ _ => stCtrl_changes rfl (by rfl) Mach.writeStCtrl_arm fun h hT => Mach.modSt_held h (hT.allows rfl) _
  case disarm => exact fun _ _ => stCtrl_changes rfl (by rfl) Mach.writeStCtrl_disarm fun h hT => Mach.modSt_held h (hT.allows rfl) _
  case release =>
    exact fun _ _ layer => stCtrl_changes rfl (by rfl) (Mach.writeStCtrl_release · layer) fun h hT =>
      Mach.stRelease_held h (hT.allows rfl) layer.val
  case releaseAll => exact fun _ _ => stCtrl_changes rfl (by rfl) Mach.writeStCtrl_releaseAll fun h hT =>
      Mach.stReleaseAll_held h (hT.allows rfl)
  case enable =>
    exact fun _ _ en => body_changes (by rfl) (f := fun m => m.hostField F.ST_CFG_EN 0 0 (b2n en)) fun h hT =>
      hostField_within h hT F.ST_CFG_EN 0 0 (b2n en) rfl (fun _ => rfl) fun hx v => Mach.writeStCfg_within hx hT v
  case region =>
    exact fun _ _ v => hostWrite_changes .ST_REGION 0 0 (fun _ => v.toNat) rfl (.inr fun _ => rfl) (by rfl) fun h hT _ =>
        Mach.stRegion_held h (hT.allows rfl) _
  case sel => exact fun _ _ k w => hostWrite_changes .ST_SEL k.val 0 (fun _ => w.toNat) rfl (.inr fun _ => rfl) (by rfl) fun h hT _ =>
      Mach.writeStSel_within h hT k.val _

end Sys2Proof.Machine
end

section
/-!
PROOFS. What the host port and the addressed accesses leave unchanged. An access whose address chooses the register may change what any
access may: all registers and all parts but the levels of the inputs and the boundary-scan state.
-/

namespace Sys2Proof.Machine


section
variable {c : Instr} {s t : State}

/-- An access after the aborts that were due: it keeps the levels of the inputs and the boundary-scan state. -/
theorem access_keeps {f : Mach → Mach} (hc : exec c s = s.run fun m => f m.abortsDue)
    (hf : ∀ {T : Scope} {m : Mach}, m.Within T → T.allows allButInpTap → (f m).Within T) : s.Sound → exec c s = .next t →
        t.m.inp = s.m.inp ∧ t.m.tap = s.m.tap :=
  keeps_inp_tap hc fun h hT => hf (Mach.abortsDue_held h (hT.sub rfl)) hT

/-- R488: a write of half of the indirect address fetches the word it names. -/
theorem iaddrWrite_changes (hi : Bool) (w : BitVec 32) : s.Sound → exec (.iaddrWrite hi w) s = .next t →
    Changes s.m t.m [.rings, .hp] [.Q_IRQ, .HP_ERR, .HP_LAST, .GL_STATUS, .GL_IADDR, .GL_IADDR_HI, .GL_ISTAT] := by
  cases hi with
  | false => exact hostWrite_changes .GL_IADDR 0 0 (fun _ => w.toNat) rfl (.inr fun _ => rfl) (by rfl) fun h hT _ =>
      Mach.prefetch_held (Mach.store_within h hT .GL_IADDR 0 0 _ rfl) (hT.allows rfl)
  | true => exact hostWrite_changes .GL_IADDR_HI 0 0 (fun _ => w.toNat) rfl (.inr fun _ => rfl) (by rfl) fun h hT _ =>
      Mach.prefetch_held (Mach.store_within h hT .GL_IADDR_HI 0 0 _ rfl) (hT.allows rfl)

end

/-- Settles O60: the access of each command, what a fixed register's owner makes of the word, and what each event of the link stays
within. -/
theorem hostPortFrame : Obligations.HostPortFrame := by
  refine ⟨?read, ?write, ?nop, ?broadcast, ?discard, ?timeout, ?laneReset, ?gen, ?clear, ?aliasSet, ?aliasClr, ?aliasTgl, ?masked,
    ?word0Read, ?wordRead, ?wordStage, ?word0Write, fun _ _ => iaddrWrite_changes, ?idataRead, ?idataWrite, ?prefetchDone, ?lock, ?register⟩
  case read => exact fun _ _ req => access_keeps (by rfl) fun h hT => Mach.frame_held h (hT.sub rfl) req.toNat 1 [] false
  case write => exact fun _ _ req data => access_keeps (by rfl) fun h hT => Mach.frame_held h (hT.sub rfl) req.toNat 2 data false
  case nop => exact fun _ _ req => access_keeps (by rfl) fun h hT => Mach.frame_held h (hT.sub rfl) req.toNat 0 [] false
  case broadcast =>
    exact fun _ _ req data => keeps_inp_tap (by rfl)
      (f := fun m =>
        if m.hp.gen = 3 ∧ 3 ≤ m.frameCmd req.toNat then m.discardFrame 5 true
        else m.abortsDue.frame req.toNat (m.frameCmd req.toNat) data true)
      fun h hT => Mach.ite_held _ (Mach.discardFrame_held h (hT.sub rfl) 5 true)
        (Mach.frame_held (Mach.abortsDue_held h (hT.sub rfl)) (hT.sub rfl) _ _ _ _)
  case discard => exact fun _ _ cause bcast => body_changes (by rfl) fun h hT => Mach.discardFrame_held h (hT.allows rfl) cause.val bcast
  case timeout => exact fun _ _ bcast => body_changes (by rfl) fun h hT => Mach.discardFrame_held h (hT.allows rfl) 4 bcast
  case laneReset => exact fun _ _ => body_changes (by rfl) fun h hT => Mach.laneReset_held h (hT.allows rfl)
  case gen => exact fun _ _ => body_changes (by rfl) fun h hT => Mach.genTake_held h (hT.allows rfl)
  case clear =>
    exact fun _ _ => hostWrite_changes .HP_CTRL 0 0 (fun _ => 1) rfl (.inr fun _ => rfl) (by rfl) fun h hT _ =>
      Mach.modHp_held h (hT.allows rfl) fun p => { p with clrDue := true }
  case aliasSet => exact fun _ _ a w => access_keeps (by rfl) fun h hT => Mach.aliasAt_held h (hT.sub rfl) a.toNat .set w.toNat
  case aliasClr => exact fun _ _ a w => access_keeps (by rfl) fun h hT => Mach.aliasAt_held h (hT.sub rfl) a.toNat .clr w.toNat
  case aliasTgl => exact fun _ _ a w => access_keeps (by rfl) fun h hT => Mach.aliasAt_held h (hT.sub rfl) a.toNat .tgl w.toNat
  case masked => exact fun _ _ slot axis w => access_keeps (by rfl) fun h hT =>
      Mach.compactWrite_held h (hT.sub rfl) slot.toNat axis.toNat w.toNat
  case word0Read => exact fun _ _ a => access_keeps (by rfl) fun h hT => Mach.hostRead32_held h (hT.sub rfl) a.toNat
  case wordRead => exact fun _ _ a => access_keeps (by rfl) fun h hT => Mach.hostRead32_held h (hT.sub rfl) a.toNat
  case wordStage => exact fun _ _ a w => access_keeps (by rfl) fun h hT => Mach.hostWrite32_held h (hT.sub rfl) a.toNat w.toNat
  case word0Write => exact fun _ _ a w => access_keeps (by rfl) fun h hT => Mach.hostWrite32_held h (hT.sub rfl) a.toNat w.toNat
  case idataRead => exact fun _ _ => access_keeps (by rfl) fun h hT => Mach.hostRead_held h (hT.sub rfl) ⟨.GL_IDATA, 0, 0⟩
  case idataWrite => exact fun _ _ w => access_keeps (by rfl) fun h hT => Mach.hostWrite_held h (hT.sub rfl) ⟨.GL_IDATA, 0, 0⟩ w.toNat
  case prefetchDone => exact fun _ _ => body_changes (by rfl) fun h hT => Mach.prefetchDone_held h (hT.allows rfl)
  case lock =>
    exact fun _ _ bits => hostWrite_changes .GL_LOCK 0 0 (fun _ => bits.toNat) rfl (.inr fun _ => rfl) (by rfl) fun h hT _ =>
        Mach.writeLock_held h (hT.allows rfl) _ false
  case register => exact fun _ _ a w => access_keeps (by rfl) fun h hT => Mach.aliasAt_held h (hT.sub rfl) a.toNat .plain w.toNat

end Sys2Proof.Machine
end

section
/-!
PROOFS. Statements on what memory checks, patina, the strata recorder, the host link and addressed accesses complete. Each is made of
every state, and has a clause that fails where the register file lists a register twice, so is not in canonical form: a word that becomes
the reset value leaves the file and uncovers the second one. In canonical form a field reads back what was written (`Mach.rd_wr_same`).
-/

namespace Sys2Proof.Machine

/-- A started module whose register file lists item 0 of register `r` twice, with `w` in both words. -/
def listedTwiceAs (r : Reg) (w : Word) : State :=
  { pending := []
    m := { Mach.started with regs := [(⟨r, 0, 0⟩, w), (⟨r, 0, 0⟩, w)] } }

/-- No queue of such a module aborts. -/
theorem listedTwiceAs_noAbort (r : Reg) (w : Word) : (listedTwiceAs r w).m.NoAbort := by
  intro q
  simp [listedTwiceAs, Mach.started, Mach.reset, Mach.qu, vget, Queue.reset]

/-! ### Memory checks -/

/-- Refutes O41: its clause on a scrub of DRAM asks the passes to count on by one, modulo the field, in every state. Where FM_SCRUB is listed
twice with the passes at their greatest, the end of a pass uncovers the second word, whose passes are as before. -/
theorem not_memoryCheckAndHeatEventsComplete : ¬ Obligations.MemoryCheckAndHeatEventsComplete := by
  rintro ⟨-, -, -, -, -, scrubbed, -⟩
  obtain ⟨-, hPasses⟩ := (scrubbed (listedTwiceAs .FM_SCRUB 0xFFFF0000) true 0 ⟨rfl, by decide⟩).after_body (f := fun m => m.scrub true 0) rfl
  have hShown : ((listedTwiceAs .FM_SCRUB 0xFFFF0000).m.begin_.scrub true 0).rd F.FM_SCRUB_PASSES = 0xFFFF := by rfl
  rw [Mach.rd_settle, hShown] at hPasses
  cases hPasses

/-! ### Patina -/

/-- PT_PLAN with a limit of 1 and the other fields as after reset. -/
abbrev planOfOne : Word := 0x104000000

/-- Refutes O42: its clause on CLR_LIMITS asks every limit to read zero in every state. Where PT_PLAN of axis 0 is listed twice with a limit
of 1, the first word is the reset value once its limit is cleared, and uncovers the second. -/
theorem not_patinaCompletes : ¬ Obligations.PatinaCompletes := by
  rintro ⟨-, -, -, cleared, -⟩
  have hLimits := (cleared (listedTwiceAs .PT_PLAN planOfOne) ⟨rfl, rfl⟩).after_body (f := fun m => m.hostWrite ⟨.PT_CTRL, 0, 0⟩ 2) rfl
  have hLimit := hLimits 0
  have hShown : ((listedTwiceAs .PT_PLAN planOfOne).m.begin_.hostWrite ⟨.PT_CTRL, 0, 0⟩ 2).rd F.PT_PLAN_VLIM 0 = 1 := by rfl
  rw [Mach.rd_settle] at hLimit
  cases hShown.symm.trans hLimit

/-! ### The strata recorder -/

/-- A capture of layer 0 at the next boundary. -/
def captureNext : Capture := { layer := 0, t := 1, last := 1, whole := false, short := false }

/-- A started module with that capture, where a source has fired that ST_LAYER has no bit for, and ST_LAYER of layer 0 is listed twice, at
first without a cause and then with cause 1. -/
def causeListedTwice : State :=
  { pending := []
    m := { Mach.started with
      regs := [(⟨.ST_LAYER, 0, 0⟩, 0), (⟨.ST_LAYER, 0, 0⟩, BitVec.ofNat 128 (2 ^ F.ST_LAYER_CAUSE.lo))]
      st.cap := some captureNext
      st.fired := 2 ^ F.ST_LAYER_CAUSE.width } }

/-- Refutes O43: its clause on a trigger during a capture asks the layer's cause to gain the bits of the sources in every state. Where
ST_LAYER is listed twice, a cause that stays zero takes the first word off the register file and uncovers the second. -/
theorem not_strataEventsComplete : ¬ Obligations.StrataEventsComplete := by
  rintro ⟨-, -, -, triggered, -⟩
  obtain ⟨-, hCause⟩ := (triggered causeListedTwice captureNext rfl (by decide)).after_body (f := Mach.stTrigger) rfl
  have hShown : (causeListedTwice.m.begin_.stTrigger).rd F.ST_LAYER_CAUSE 0 = 1 := by rfl
  have hAsked : (causeListedTwice.m.rd F.ST_LAYER_CAUSE 0 ||| causeListedTwice.m.st.fired) % 2 ^ F.ST_LAYER_CAUSE.width = 0 := by rfl
  rw [Mach.rd_settle] at hCause
  cases hShown.symm.trans (hCause.trans hAsked)

/-- Refutes O44: its clause on the release of a layer asks ST_LAYER to read zero in every state. Where ST_LAYER of the layer is listed twice,
the release takes the first word off the register file and uncovers the second. -/
theorem not_strataRegistersComplete : ¬ Obligations.StrataRegistersComplete := by
  rintro ⟨released, -⟩
  obtain ⟨hLayer, -⟩ := (released (listedTwiceAs .ST_LAYER 1) 0 ⟨rfl, rfl⟩).after_body (f := fun m => m.hostWrite ⟨.ST_CTRL, 0, 0⟩ 8) rfl
  have hShown : ((listedTwiceAs .ST_LAYER 1).m.begin_.hostWrite ⟨.ST_CTRL, 0, 0⟩ 8).reg .ST_LAYER 0 0 = 1 := by rfl
  rw [Mach.reg_settle] at hLayer
  cases hShown.symm.trans hLayer

/-! ### The host port -/

/-- A module of generation 3 whose HP_FRAMES, at its greatest, is listed twice. -/
def framesListedTwice : State := { listedTwiceAs .HP_FRAMES 0xFFFFFFFF with m.hp.gen := 3 }

/-- Refutes O45: its clause on HP_NOP asks the frames to count on by one, modulo the field, in every state. Where HP_FRAMES is listed twice
at its greatest, the count that wraps to zero uncovers the second word. -/
theorem not_hostFramesComplete : ¬ Obligations.HostFramesComplete := by
  rintro ⟨nopTaken, -⟩
  have hNoAbort : framesListedTwice.m.NoAbort := listedTwiceAs_noAbort .HP_FRAMES 0xFFFFFFFF
  obtain ⟨hCount, -⟩ := (nopTaken framesListedTwice 0 ⟨hNoAbort, rfl, .inr (.inr rfl)⟩).after_body
    (f := fun m => m.abortsDue.frame 0 0 [] false) rfl
  have hShown : (framesListedTwice.m.begin_.frame 0 0 [] false).rd F.HP_FRAMES_CNT = 0xFFFFFFFF := by rfl
  rw [Mach.rd_settle, Mach.abortsDue_of_noAbort (m := framesListedTwice.m.begin_) hNoAbort, hShown] at hCount
  cases hCount

/-- Refutes O46: its clause on the clear of the counters asks HP_ERR to read zero in every state. Where HP_ERR is listed twice, the clear
takes the first word off the register file and uncovers the second. -/
theorem not_hostLinkEventsComplete : ¬ Obligations.HostLinkEventsComplete := by
  rintro ⟨-, -, -, -, -, -, cleared⟩
  obtain ⟨hErr, -⟩ := (cleared (listedTwiceAs .HP_ERR 1) ⟨rfl, rfl⟩).after_body (f := fun m => m.hostWrite ⟨.HP_CTRL, 0, 0⟩ 1) rfl
  have hShown : ((listedTwiceAs .HP_ERR 1).m.begin_.hostWrite ⟨.HP_CTRL, 0, 0⟩ 1).reg .HP_ERR 0 0 = 1 := by rfl
  rw [Mach.reg_settle] at hErr
  cases hShown.symm.trans hErr

/-! ### Addressed accesses -/

/-- Refutes O47: its clause on the end of a prefetch asks BUSY to read clear in every state. Where GL_ISTAT is listed twice with BUSY set, the
first word is the reset value once its BUSY is cleared, and uncovers the second. -/
theorem not_addressedWritesComplete : ¬ Obligations.AddressedWritesComplete := by
  rintro ⟨-, -, -, -, -, -, -, -, -, -, -, fetched, -⟩
  obtain ⟨hFree, -⟩ := (fetched (listedTwiceAs .GL_ISTAT 1) rfl).after_body (f := Mach.prefetchDone) rfl
  have hShown : (listedTwiceAs .GL_ISTAT 1).m.begin_.prefetchDone.rb F.GL_ISTAT_BUSY = true := by rfl
  rw [Mach.rb_settle] at hFree
  cases hShown.symm.trans hFree

/-- Refutes O48: its clause on a write of word 0 asks AX_RETGT to show the word written in every state. Where AX_RETGT of axis 0 is listed
twice, the word zero takes the first word off the register file and uncovers the second. -/
theorem not_wideWordAccessesComplete : ¬ Obligations.WideWordAccessesComplete := by
  rintro ⟨-, -, -, -, written, -⟩
  have hNoAbort := listedTwiceAs_noAbort .AX_RETGT 1
  obtain ⟨-, hTarget⟩ := (written (listedTwiceAs .AX_RETGT 1) 65728 0 (⟨.AX_RETGT, 0, 0⟩, 0) (by rfl)
    ⟨hNoAbort, rfl, by decide, rfl, rfl, rfl, rfl⟩).after_body (f := fun m => m.abortsDue.hostWrite32 65728 0) rfl
  have hShown : ((listedTwiceAs .AX_RETGT 1).m.begin_.hostWrite32 65728 0).reg .AX_RETGT 0 0 = 1 := by rfl
  rw [Mach.reg_settle, Mach.abortsDue_of_noAbort (m := (listedTwiceAs .AX_RETGT 1).m.begin_) hNoAbort, hShown] at hTarget
  cases hTarget

end Sys2Proof.Machine
end

section
/-!
PROOFS. The addresses of the registers (R480): each register is found at each byte of its places, and registers of different names lie in
separate windows modulo one of the strides, so no two of them are found at the same offset.
-/

namespace Sys2Proof.Machine

/-! ### The map of the registers -/

/-- The bytes of one register. -/
def RegDesc.size (d : RegDesc) : Nat := if d.wide then 16 else 4

theorem RegDesc.size_eq (d : RegDesc) : d.size = 4 * if d.wide then 4 else 1 := by
  unfold RegDesc.size
  split <;> rfl

/-- The places of a register do not run into each other: the second index stays within a step of the first, a register within a step of
the second. An index without a stride has one value. -/
def RegDesc.spaced (d : RegDesc) : Bool :=
  decide ((d.st1 = 0 → d.n1 = 1) ∧ (d.st1 ≠ 0 → d.st2 * (d.n2 - 1) + d.size ≤ d.st1) ∧ (d.st2 = 0 → d.n2 = 1) ∧
    (d.st2 ≠ 0 → d.size ≤ d.st2))

/-- The bytes from the first to the last place of a register, counted modulo `M`: an index whose stride is a multiple of `M` adds none. -/
def RegDesc.span (d : RegDesc) (M : Nat) : Nat :=
  d.size + (if d.st2 % M = 0 then 0 else d.st2 * (d.n2 - 1)) + if d.st1 % M = 0 then 0 else d.st1 * (d.n1 - 1)

/-- The two registers lie in separate windows modulo `M`. -/
def RegDesc.apartMod (M : Nat) (a b : RegDesc) : Bool :=
  (Nat.ble (a.base % M + a.span M) (b.base % M) && Nat.ble (b.base % M + b.span M) M) ||
    (Nat.ble (b.base % M + b.span M) (a.base % M) && Nat.ble (a.base % M + a.span M) M)

/-- The moduli that tell the registers apart: the size of the window, and the strides of the blocks and of the arrays in them. -/
def RegDesc.apart (a b : RegDesc) : Bool :=
  [0x1000000, 0x1000, 0x400, 0x200, 0x100, 0x40, 0x20, 0x10, 8].any fun M => RegDesc.apartMod M a b

/-- Every register of a list is apart from those behind it. -/
def allApart : List RegDesc → Bool
  | [] => true
  | d :: ds => ds.all (RegDesc.apart d) && allApart ds

/-- The 64 Kbyte block in which a register begins. -/
def RegDesc.block (d : RegDesc) : Nat := d.base / 0x10000

/-- Every place of the register lies in the block in which it begins. -/
def RegDesc.inBlock (d : RegDesc) : Bool :=
  Nat.ble (d.base % 0x10000 + (d.st1 * (d.n1 - 1) + d.st2 * (d.n2 - 1) + d.size)) 0x10000

/-- The places of the register do not run into each other and lie in one of the first 13 blocks. -/
def RegDesc.laidOut (d : RegDesc) : Bool := d.spaced && d.inBlock && Nat.ble d.block 12

/-- The registers of a list that lie in block `k` are apart. -/
def blockApart (k : Nat) (rs : List Reg) : Bool := allApart ((rs.filter fun r => Nat.beq r.desc.block k).map Reg.desc)

/-- The list runs through the registers numbered from `n` up to `e`, each with its places laid out. -/
def runsFrom (e : Nat) : Nat → List Reg → Bool
  | n, [] => Nat.beq n e
  | n, r :: rs => Nat.beq r.ctorIdx n && r.desc.laidOut && runsFrom e (r.ctorIdx + 1) rs

theorem exists_of_runsFrom {c e : Nat} (hc : c < e) (l : List Reg) :
    ∀ n, runsFrom e n l = true → n ≤ c → ∃ r ∈ l, r.ctorIdx = c ∧ r.desc.laidOut = true := by
  induction l with
  | nil =>
    intro n h hn
    have := Nat.eq_of_beq_eq_true h
    omega
  | cons r rs ih =>
    intro n h hn
    obtain ⟨hHead, hRest⟩ := Bool.and_eq_true_iff.mp h
    obtain ⟨hIdx, hLaid⟩ := Bool.and_eq_true_iff.mp hHead
    have hNumber := Nat.eq_of_beq_eq_true hIdx
    by_cases hEq : r.ctorIdx = c
    · exact ⟨r, List.mem_cons_self, hEq, hLaid⟩
    · obtain ⟨x, hx, found⟩ := ih _ hRest (by omega)
      exact ⟨x, List.mem_cons_of_mem _ hx, found⟩

/-- The list of the registers, 64 at a time. -/
theorem Reg.all_runs {k : Nat} (hk : k ≤ 4) : runsFrom (min 302 (64 * k + 64)) (64 * k) ((Reg.all.drop (64 * k)).take 64) = true := by
  interval_cases k <;> rfl

theorem Reg.ctorIdx_lt (r : Reg) : r.ctorIdx < 302 := by
  by_contra h
  have hBit := r.all_bits'
  rw [show 64 + r.ctorIdx = 366 + (r.ctorIdx - 302) by omega, ← Nat.testBit_shiftRight] at hBit
  simp at hBit

/-- What the list and the map say of one register. -/
theorem Reg.listed (r : Reg) : r ∈ Reg.all ∧ r.desc.laidOut = true := by
  have hIdx := r.ctorIdx_lt
  obtain ⟨x, hx, e, hLaid⟩ := exists_of_runsFrom (c := r.ctorIdx) (by omega) _ _ (Reg.all_runs (k := r.ctorIdx / 64) (by omega)) (by omega)
  obtain rfl : x = r := by rw [← Reg.ofNat_ctorIdx r, ← e, Reg.ofNat_ctorIdx x]
  exact ⟨List.mem_of_mem_drop (List.mem_of_mem_take hx), hLaid⟩

/-- What the map says of one register. -/
theorem Reg.desc_laidOut (r : Reg) : r.desc.spaced = true ∧ r.desc.inBlock = true ∧ r.desc.block ≤ 12 := by
  obtain ⟨-, hLaid⟩ := r.listed
  obtain ⟨hPlaces, hBlock⟩ := Bool.and_eq_true_iff.mp hLaid
  obtain ⟨hSpaced, hIn⟩ := Bool.and_eq_true_iff.mp hPlaces
  exact ⟨hSpaced, hIn, Nat.le_of_ble_eq_true hBlock⟩

/-! The registers of one block are apart. What a theorem evaluates is kept until it is checked, so a few blocks are taken at a time. -/

theorem Reg.apart_block0 : blockApart 0 Reg.all = true := by rfl

theorem Reg.apart_block1 : blockApart 1 Reg.all = true := by rfl

theorem Reg.apart_block2 : blockApart 2 Reg.all = true := by rfl

theorem Reg.apart_blocks3To6 {k : Nat} (h : 3 ≤ k) (hk : k ≤ 6) : blockApart k Reg.all = true := by interval_cases k <;> rfl

theorem Reg.apart_blocks7To12 {k : Nat} (h : 7 ≤ k) (hk : k ≤ 12) : blockApart k Reg.all = true := by interval_cases k <;> rfl

theorem Reg.all_apart {k : Nat} (hk : k ≤ 12) : blockApart k Reg.all = true := by
  by_cases h7 : 7 ≤ k
  · exact Reg.apart_blocks7To12 h7 hk
  by_cases h3 : 3 ≤ k
  · exact Reg.apart_blocks3To6 h3 (by omega)
  interval_cases k
  · exact Reg.apart_block0
  · exact Reg.apart_block1
  · exact Reg.apart_block2

/-! ### The places of a register -/

/-- The index that a stride gives is the one that was multiplied into the offset. -/
theorem index_of_offset {st n i rest : Nat} (h0 : st = 0 → n = 1) (hi : i < n) (hr : st ≠ 0 → rest < st) :
    (if st = 0 then 0 else (st * i + rest) / st) = i := by
  split
  · have := h0 ‹_›
    omega
  · rw [Nat.mul_add_div (by omega), Nat.div_eq_of_lt (hr ‹_›), Nat.add_zero]

/-- R480: a register is found at each byte of each of its places. -/
theorem Reg.hit_place (r : Reg) {i j o : Nat} (hi : i < r.desc.n1) (hj : j < r.desc.n2) (ho : o < r.desc.size) :
    r.hit (r.addr i j + o) = some (⟨r, i, j⟩, o / 4) := by
  obtain ⟨hSpaced, -⟩ := r.desc_laidOut
  obtain ⟨one1, step1, one2, step2⟩ := of_decide_eq_true hSpaced
  have hInner : r.desc.st2 * j ≤ r.desc.st2 * (r.desc.n2 - 1) := Nat.mul_le_mul_left _ (by omega)
  have hOuter := index_of_offset (rest := r.desc.st2 * j + o) one1 hi fun h => by
    have := step1 h
    omega
  have hIndex := index_of_offset one2 hj fun h => ho.trans_le (step2 h)
  have e1 : r.addr i j + o - r.desc.base = r.desc.st1 * i + (r.desc.st2 * j + o) := by
    unfold Reg.addr
    omega
  have e2 : r.desc.st1 * i + (r.desc.st2 * j + o) - i * r.desc.st1 = r.desc.st2 * j + o := by
    rw [Nat.mul_comm i]
    omega
  have e3 : r.desc.st2 * j + o - j * r.desc.st2 = o := by
    rw [Nat.mul_comm j]
    omega
  have hBase : ¬ r.addr i j + o < r.desc.base := by
    unfold Reg.addr
    omega
  unfold Reg.hit
  dsimp only
  rw [if_neg hBase, e1, hOuter, e2, hIndex, e3]
  exact if_pos ⟨hi, hj, ho⟩

/-- The places that a stride has passed lie within the offset. -/
theorem stride_le (y st : Nat) : (if st = 0 then 0 else y / st) * st ≤ y := by
  split
  · omega
  · exact Nat.div_mul_le_self y st

/-- A register that is found at an offset has a place there. -/
theorem Reg.place_of_hit {r : Reg} {x : Nat} (h : (r.hit x).isSome = true) :
    ∃ i j o, i < r.desc.n1 ∧ j < r.desc.n2 ∧ o < r.desc.size ∧ x = r.addr i j + o := by
  unfold Reg.hit at h
  dsimp only at h
  split at h
  · simp at h
  · rename_i hBase
    have h1 := stride_le (x - r.desc.base) r.desc.st1
    generalize (if r.desc.st1 = 0 then 0 else (x - r.desc.base) / r.desc.st1) = i at h h1
    have h2 := stride_le (x - r.desc.base - i * r.desc.st1) r.desc.st2
    generalize (if r.desc.st2 = 0 then 0 else (x - r.desc.base - i * r.desc.st1) / r.desc.st2) = j at h h2
    by_cases hIn : i < r.desc.n1 ∧ j < r.desc.n2 ∧ x - r.desc.base - i * r.desc.st1 - j * r.desc.st2 < r.desc.size
    · obtain ⟨hi, hj, ho⟩ := hIn
      refine ⟨i, j, _, hi, hj, ho, ?_⟩
      rw [Reg.addr, Nat.mul_comm r.desc.st1, Nat.mul_comm r.desc.st2]
      omega
    · rw [RegDesc.size] at hIn
      rw [if_neg hIn] at h
      cases h

/-! ### No two registers share a place -/

/-- A multiple of the modulus drops out, another one counts in full. -/
theorem stride_mod (st k n M : Nat) (hk : k < n) :
    ∃ o, o ≤ (if st % M = 0 then 0 else st * (n - 1)) ∧ ∀ y, (y + st * k) % M = (y + o) % M := by
  split
  · rename_i h
    refine ⟨0, le_rfl, fun y => ?_⟩
    rw [Nat.add_mod, Nat.mul_mod, h]
    simp
  · exact ⟨st * k, Nat.mul_le_mul_left _ (by omega), fun _ => rfl⟩

/-- A register found at `x` has `x` in its window modulo `M`. -/
theorem Reg.window_of_hit {r : Reg} {x : Nat} (h : (r.hit x).isSome = true) (M : Nat) :
    ∃ o < r.desc.span M, x % M = (r.desc.base % M + o) % M := by
  obtain ⟨i, j, o, hi, hj, ho, rfl⟩ := Reg.place_of_hit h
  obtain ⟨a, ha, e1⟩ := stride_mod r.desc.st1 i r.desc.n1 M hi
  obtain ⟨b, hb, e2⟩ := stride_mod r.desc.st2 j r.desc.n2 M hj
  refine ⟨a + b + o, by unfold RegDesc.span; omega, ?_⟩
  rw [Nat.mod_add_mod]
  calc (r.addr i j + o) % M = (r.desc.base + r.desc.st2 * j + o + r.desc.st1 * i) % M := by congr 1; unfold Reg.addr; omega
    _ = (r.desc.base + o + a + r.desc.st2 * j) % M := by rw [e1]; congr 1; omega
    _ = (r.desc.base + (a + b + o)) % M := by rw [e2]; congr 1; omega

/-- Where one window ends before the other begins, no offset lies in both. -/
theorem windows_disjoint {M x a b m n o p : Nat} (hb : b + n ≤ M) (hab : a + m ≤ b) (ho : o < m) (hp : p < n)
    (e1 : x % M = (a + o) % M) (e2 : x % M = (b + p) % M) : False := by
  rw [Nat.mod_eq_of_lt (show a + o < M by omega)] at e1
  rw [Nat.mod_eq_of_lt (show b + p < M by omega)] at e2
  omega

/-- Registers that are apart are not found at the same offset. -/
theorem Reg.not_hit_of_apart {r r' : Reg} {x : Nat} (hApart : RegDesc.apart r.desc r'.desc = true) (h : (r.hit x).isSome = true)
    (h' : (r'.hit x).isSome = true) : False := by
  obtain ⟨M, -, hM⟩ := List.any_eq_true.mp hApart
  obtain ⟨o, ho, e⟩ := Reg.window_of_hit h M
  obtain ⟨p, hp, e'⟩ := Reg.window_of_hit h' M
  rcases Bool.or_eq_true_iff.mp hM with hM | hM <;> obtain ⟨hab, hb⟩ := Bool.and_eq_true_iff.mp hM
  · exact windows_disjoint (Nat.le_of_ble_eq_true hb) (Nat.le_of_ble_eq_true hab) ho hp e e'
  · exact windows_disjoint (Nat.le_of_ble_eq_true hb) (Nat.le_of_ble_eq_true hab) hp ho e' e

/-- A register that stays in its block is found there only. -/
theorem Reg.block_of_hit {r : Reg} {x : Nat} (hBlock : r.desc.inBlock = true) (h : (r.hit x).isSome = true) : x / 0x10000 = r.desc.block := by
  obtain ⟨i, j, o, hi, hj, ho, rfl⟩ := Reg.place_of_hit h
  have hFits := Nat.le_of_ble_eq_true hBlock
  have h1 : r.desc.st1 * i ≤ r.desc.st1 * (r.desc.n1 - 1) := Nat.mul_le_mul_left _ (by omega)
  have h2 : r.desc.st2 * j ≤ r.desc.st2 * (r.desc.n2 - 1) := Nat.mul_le_mul_left _ (by omega)
  unfold RegDesc.block Reg.addr
  omega

/-- In a list whose registers are apart, one register at most is found at an offset. -/
theorem eq_of_allApart {r r' : Reg} {x : Nat} (h : (r.hit x).isSome = true) (h' : (r'.hit x).isSome = true) (l : List Reg)
    (hl : allApart (l.map Reg.desc) = true) (hr : r ∈ l) (hr' : r' ∈ l) : r = r' := by
  induction l with
  | nil => cases hr
  | cons y l ih =>
    obtain ⟨hy, hl⟩ := Bool.and_eq_true_iff.mp hl
    have hBehind : ∀ z ∈ l, (y.hit x).isSome = true → (z.hit x).isSome = true → False := fun z hz =>
      Reg.not_hit_of_apart (List.all_eq_true.mp hy _ (List.mem_map_of_mem hz))
    rcases List.mem_cons.mp hr with rfl | hIn <;> rcases List.mem_cons.mp hr' with rfl | hIn'
    · rfl
    · exact (hBehind _ hIn' h h').elim
    · exact (hBehind _ hIn h' h).elim
    · exact ih hl hIn hIn'

/-- One register at most is found at an offset. -/
theorem Reg.eq_of_hit {r r' : Reg} {x : Nat} (h : (r.hit x).isSome = true) (h' : (r'.hit x).isSome = true) : r = r' := by
  obtain ⟨hMem, -⟩ := r.listed
  obtain ⟨hMem', -⟩ := r'.listed
  obtain ⟨-, hr, hLe⟩ := r.desc_laidOut
  obtain ⟨-, hr', -⟩ := r'.desc_laidOut
  have hSame : r'.desc.block = r.desc.block := (Reg.block_of_hit hr' h').symm.trans (Reg.block_of_hit hr h)
  have hBlock := Reg.all_apart hLe
  exact eq_of_allApart h h' _ hBlock (List.mem_filter.mpr ⟨hMem, Nat.beq_refl _⟩)
    (List.mem_filter.mpr ⟨hMem', show Nat.beq r'.desc.block r.desc.block = true from hSame ▸ Nat.beq_refl _⟩)

/-- A list that holds the one register found at an offset finds it. -/
theorem findSome?_hit {r : Reg} {x : Nat} {v : RegKey × Nat} (h : r.hit x = some v) (l : List Reg) (hr : r ∈ l) :
    l.findSome? (fun r => r.hit x) = some v := by
  induction l with
  | nil => cases hr
  | cons y l ih =>
    rw [List.findSome?_cons]
    cases hy : y.hit x with
    | some w =>
      obtain rfl : r = y := Reg.eq_of_hit (x := x) (by rw [h]; rfl) (by rw [hy]; rfl)
      exact hy.symm.trans h
    | none =>
      rcases List.mem_cons.mp hr with rfl | hr
      · cases h.symm.trans hy
      · exact ih hr

/-- R480: the address of each word of a register names it. -/
theorem regAt_place (r : Reg) {i j o : Nat} (hi : i < r.desc.n1) (hj : j < r.desc.n2) (ho : o < r.desc.size) :
    regAt (r.addr i j + o) = some (⟨r, i, j⟩, o / 4) :=
  findSome?_hit (r.hit_place hi hj ho) Reg.all r.listed.1

/-- Settles O3: a register is found at its own places (`Reg.hit_place`), and no other one is found there (`Reg.eq_of_hit`). -/
theorem registerAddressesDecode : Obligations.RegisterAddressesDecode := by
  intro r i j hi hj w hw
  have ho : 4 * w < r.desc.size := by
    rw [RegDesc.size_eq]
    omega
  rw [regAt_place r hi hj ho, Nat.mul_div_cancel_left w (by decide)]

end Sys2Proof.Machine
end

section
/-!
PROOFS. A command of one queue, axis, port, coil or bank leaves the others as they are (log entry 5). The parts of the module that hold its
channels are looked at together: what an operation does besides, in the registers, the rings and elsewhere, leaves all of them.
-/

namespace Sys2Proof.Machine

/-! ### Channels -/

/-- The channels of the module: axes, queues, coils, banks and ports. -/
abbrev Channels := Vector Axis 48 × Vector Queue 64 × Vector Coil 96 × Vector Bank 4 × Vector Port 12

/-- The channels as they are. -/
def Mach.channels (m : Mach) : Channels := (m.axes, m.queues, m.coils, m.banks, m.ports)

/-- Axis `j`. -/
def Channels.ax (c : Channels) (j : Nat) : Axis := vget .reset c.1 j

/-- Queue `j`. -/
def Channels.qu (c : Channels) (j : Nat) : Queue := vget .reset c.2.1 j

/-- Coil `j`. -/
def Channels.coil (c : Channels) (j : Nat) : Coil := vget .reset c.2.2.1 j

/-- A coil but for what it is learning. -/
def Coil.out (c : Coil) : Coil := { c with acc := [] }

theorem Coil.eq_of_out {x y : Coil} (h : x.out = y.out) : x = { y with acc := x.acc } :=
  congrArg (fun c : Coil => { c with acc := x.acc }) h

/-- Coil `j` but for what it is learning. -/
def Channels.coilOut (c : Channels) (j : Nat) : Coil := (c.coil j).out

/-- Bank `j`. -/
def Channels.bank (c : Channels) (j : Nat) : Bank := vget .reset c.2.2.2.1 j

/-- Port `j`. -/
def Channels.port (c : Channels) (j : Nat) : Port := vget .reset c.2.2.2.2 j

/-- Seen through `p`, every channel but `k` is in `m` as in `b`. -/
@[irreducible] def Mach.Spares {α : Type} (p : Channels → Nat → α) (k : Nat) (b m : Mach) : Prop :=
  ∀ j, j ≠ k → p m.channels j = p b.channels j

theorem Mach.spares_iff {α : Type} {p : Channels → Nat → α} {k : Nat} {b m : Mach} :
    b.Spares p k m ↔ ∀ j, j ≠ k → p m.channels j = p b.channels j := by
  delta Mach.Spares
  exact Iff.rfl

section
variable {α : Type} {p : Channels → Nat → α} {k : Nat} {b m x y : Mach}

theorem Mach.Spares.refl : m.Spares p k m := Mach.spares_iff.mpr fun _ _ => rfl

theorem Mach.Spares.same (h : b.Spares p k m) {j : Nat} (hj : j ≠ k) : p m.channels j = p b.channels j := Mach.spares_iff.mp h j hj

theorem Mach.Spares.trans (h : b.Spares p k m) (h' : m.Spares p k x) : b.Spares p k x :=
  Mach.spares_iff.mpr fun _ hj => (h'.same hj).trans (h.same hj)

/-- An operation that leaves all channels. -/
theorem Mach.Spares.keep (h : b.Spares p k m) (e : x.channels = m.channels) : b.Spares p k x := Mach.spares_iff.mpr fun _ hj => by
  rw [e]
  exact h.same hj

theorem Mach.Spares.ite {c : Prop} [Decidable c] (hx : b.Spares p k x) (hy : b.Spares p k y) : b.Spares p k (if c then x else y) := by
  split
  · exact hx
  · exact hy

theorem Mach.Spares.when {f : Mach → Mach} (h : b.Spares p k m) (c : Bool) (hf : b.Spares p k (f m)) : b.Spares p k (m.when c f) := hf.ite h

/-- A fold of operations that each leave the other channels. -/
theorem Mach.Spares.forAll {f : Mach → Nat → Mach} (h : b.Spares p k m) (l : List Nat)
    (hf : ∀ x n, b.Spares p k x → b.Spares p k (f x n)) : b.Spares p k (m.forAll l f) :=
  List.foldlRecOn (motive := (b.Spares p k ·)) l f h fun x hx n _ => hf x n hx

theorem Mach.Spares.each {f : Mach → Nat → Mach} (h : b.Spares p k m) (n : Nat)
    (hf : ∀ x n, b.Spares p k x → b.Spares p k (f x n)) : b.Spares p k (m.each n f) := h.forAll _ hf

end

section
variable {k : Nat} {b m : Mach}

theorem Mach.Spares.modAx (h : b.Spares Channels.ax k m) {f : Axis → Axis} : b.Spares Channels.ax k (m.modAx k f) :=
  Mach.spares_iff.mpr fun _ hj => (Mach.ax_modAx_other m f hj).trans (h.same hj)

theorem Mach.Spares.modQ (h : b.Spares Channels.qu k m) {f : Queue → Queue} : b.Spares Channels.qu k (m.modQ k f) :=
  Mach.spares_iff.mpr fun _ hj => (Mach.qu_modQ_other m f hj).trans (h.same hj)

theorem Mach.Spares.modCoil (h : b.Spares Channels.coil k m) {f : Coil → Coil} : b.Spares Channels.coil k (m.modCoil k f) :=
  Mach.spares_iff.mpr fun _ hj => (Mach.coil_modCoil_other m f hj).trans (h.same hj)

theorem Mach.Spares.modBank (h : b.Spares Channels.bank k m) {f : Bank → Bank} : b.Spares Channels.bank k (m.modBank k f) :=
  Mach.spares_iff.mpr fun _ hj => (Mach.bank_modBank_other m f hj).trans (h.same hj)

theorem Mach.Spares.modPort (h : b.Spares Channels.port k m) {f : Port → Port} : b.Spares Channels.port k (m.modPort k f) :=
  Mach.spares_iff.mpr fun _ hj => (Mach.port_modPort_other m f hj).trans (h.same hj)

end

/-! ### What leaves all channels -/

section
variable (m : Mach)

@[simp] theorem Mach.channels_setReg (r : Reg) (i j v : Nat) : (m.setReg r i j v).channels = m.channels := rfl
@[simp] theorem Mach.channels_wr (f : Fld) (v i j : Nat) : (m.wr f v i j).channels = m.channels := rfl
@[simp] theorem Mach.channels_wrS (f : Fld) (v : Int) (i j : Nat) : (m.wrS f v i j).channels = m.channels := rfl
@[simp] theorem Mach.channels_setBit (f : Fld) (i j : Nat) : (m.setBit f i j).channels = m.channels := rfl
@[simp] theorem Mach.channels_clrFld (f : Fld) (i j : Nat) : (m.clrFld f i j).channels = m.channels := rfl
@[simp] theorem Mach.channels_bump (f : Fld) (i j : Nat) : (m.bump f i j).channels = m.channels := rfl
@[simp] theorem Mach.channels_wrap (f : Fld) (i j : Nat) : (m.wrap f i j).channels = m.channels := rfl
@[simp] theorem Mach.channels_modOb (n : Nat) (f : Obs → Obs) : (m.modOb n f).channels = m.channels := rfl
@[simp] theorem Mach.channels_setBin (n b : Nat) (coilB : Bool) (v : Int) : (m.setBin n b coilB v).channels = m.channels := rfl

@[simp] theorem Mach.channels_post (c o d : Nat) : (m.post c o d).channels = m.channels := by
  delta Mach.channels
  rw [Mach.post_axes, Mach.post_queues, Mach.post_coils, Mach.post_banks, Mach.post_ports]

@[simp] theorem Mach.channels_hpError (status addr seq : Nat) (bcast : Bool) : (m.hpError status addr seq bcast).channels = m.channels := by
  unfold Mach.hpError
  extract_lets m1 m2 m3
  have h1 : m1.channels = m.channels := by
    dsimp only [m1]
    split <;> rfl
  have h3 : m3.channels = m2.channels := by
    change Mach.channels (if _ then _ else _) = _
    split
    · rfl
    · exact m2.channels_post ..
  exact h3.trans h1

@[simp] theorem Mach.channels_store (k : RegKey) (w : Nat) (now : Bool) : (m.store k w now).channels = m.channels := by
  unfold Mach.store
  extract_lets old new force m1 rest
  split
  · rfl
  · split <;> rfl

@[simp] theorem Mach.channels_levelsHold (k : RegKey) (old : Nat) : (m.levelsHold k old).channels = m.channels := by
  unfold Mach.levelsHold
  dsimp only
  split <;> rfl

@[simp] theorem Mach.channels_writesDone (bits : Nat) : (m.writesDone bits).channels = m.channels := by
  obtain ⟨hp, h | h⟩ := m.writesDone_eq bits
  all_goals
    rw [h]
    rfl

end

section
variable {α : Type} {p : Channels → Nat → α} {k : Nat} {b m : Mach}

theorem Mach.Spares.setReg (h : b.Spares p k m) {r : Reg} {i j v : Nat} : b.Spares p k (m.setReg r i j v) := h.keep (m.channels_setReg ..)
theorem Mach.Spares.wr (h : b.Spares p k m) {f : Fld} {v i j : Nat} : b.Spares p k (m.wr f v i j) := h.keep (m.channels_wr ..)
theorem Mach.Spares.wrS (h : b.Spares p k m) {f : Fld} {v : Int} {i j : Nat} : b.Spares p k (m.wrS f v i j) := h.keep (m.channels_wrS ..)
theorem Mach.Spares.setBit (h : b.Spares p k m) {f : Fld} {i j : Nat} : b.Spares p k (m.setBit f i j) := h.keep (m.channels_setBit ..)
theorem Mach.Spares.clrFld (h : b.Spares p k m) {f : Fld} {i j : Nat} : b.Spares p k (m.clrFld f i j) := h.keep (m.channels_clrFld ..)
theorem Mach.Spares.bump (h : b.Spares p k m) {f : Fld} {i j : Nat} : b.Spares p k (m.bump f i j) := h.keep (m.channels_bump ..)
theorem Mach.Spares.wrap (h : b.Spares p k m) {f : Fld} {i j : Nat} : b.Spares p k (m.wrap f i j) := h.keep (m.channels_wrap ..)
theorem Mach.Spares.modOb (h : b.Spares p k m) {n : Nat} {f : Obs → Obs} : b.Spares p k (m.modOb n f) := h.keep (m.channels_modOb ..)
theorem Mach.Spares.post (h : b.Spares p k m) {c o d : Nat} : b.Spares p k (m.post c o d) := h.keep (m.channels_post ..)
theorem Mach.Spares.store (h : b.Spares p k m) {r : RegKey} {w : Nat} {now : Bool} : b.Spares p k (m.store r w now) :=
  h.keep (m.channels_store ..)

end

/-! ### Writes of the host -/

section
variable {α : Type} {p : Channels → Nat → α} {n : Nat} {b m : Mach}

/-- A write of the host leaves the other channels where the register's owner does. -/
theorem Mach.Spares.hostWrite (h : b.Spares p n m) {k : RegKey} {w : Nat} (hk : k.r ≠ .GL_IDATA)
    (ho : b.Spares p n (m.ownerWrite k w false)) : b.Spares p n (m.hostWrite k w) := by
  unfold Mach.hostWrite Mach.hostAlias Mach.unitWrite
  dsimp only
  rw [if_neg hk]
  refine .keep ?_ (Mach.channels_writesDone ..)
  unfold Mach.regWrite Mach.lockedWrite
  rw [RegDesc.aliasWord_plain]
  dsimp only
  split
  · exact .ite h (h.keep (Mach.channels_hpError ..))
  · split
    · exact .ite (h.keep rfl) (h.keep (Mach.channels_hpError ..))
    · have hHeld := ho.keep (Mach.channels_levelsHold _ k (m.reg k.r k.i k.j))
      exact .ite hHeld (hHeld.keep (Mach.channels_hpError ..))

end

/-! ### How a command completes -/

section
variable {c : Instr} {s : State} {k : Nat} {x : Mach}

theorem Completes.sparesAxes (hc : exec c s = .next { s with m := x.settle s.m.begin_ }) (h : s.m.begin_.Spares Channels.ax k x) :
    Completes c s fun t => ∀ j : Fin 48, j.val ≠ k → t.ax j.val = s.m.ax j.val :=
  ⟨_, hc, rfl, fun _ hj => (Mach.ax_settle ..).trans (h.same hj)⟩

theorem Completes.sparesQueues (hc : exec c s = .next { s with m := x.settle s.m.begin_ }) (h : s.m.begin_.Spares Channels.qu k x) :
    Completes c s fun t => ∀ j : Fin 64, j.val ≠ k → t.qu j.val = s.m.qu j.val :=
  ⟨_, hc, rfl, fun _ hj => (Mach.qu_settle ..).trans (h.same hj)⟩

theorem Completes.sparesPorts (hc : exec c s = .next { s with m := x.settle s.m.begin_ }) (h : s.m.begin_.Spares Channels.port k x) :
    Completes c s fun t => ∀ j : Fin 12, j.val ≠ k → t.port j.val = s.m.port j.val :=
  ⟨_, hc, rfl, fun _ hj => (Mach.port_settle ..).trans (h.same hj)⟩

theorem Completes.sparesCoils (hc : exec c s = .next { s with m := x.settle s.m.begin_ }) (h : s.m.begin_.Spares Channels.coil k x) :
    Completes c s fun t => ∀ j : Fin 96, j.val ≠ k → t.coil j.val = s.m.coil j.val :=
  ⟨_, hc, rfl, fun _ hj => (Mach.coil_settle ..).trans (h.same hj)⟩

/-- A command after which another coil may have learnt. -/
theorem Completes.sparesCoilsOut (hc : exec c s = .next { s with m := x.settle s.m.begin_ }) (h : s.m.begin_.Spares Channels.coilOut k x) :
    Completes c s fun t => ∀ j : Fin 96, j.val ≠ k → t.coil j.val = { s.m.coil j.val with acc := (t.coil j.val).acc } :=
  ⟨_, hc, rfl, fun j hj => by
    have hCoil : (x.settle s.m.begin_).coil j.val = x.coil j.val := Mach.coil_settle ..
    rw [hCoil]
    exact Coil.eq_of_out (h.same hj)⟩

/-- The end of a forced coast follows every command. -/
theorem Completes.sparesBanks (hc : exec c s = .next { s with m := x.settle s.m.begin_ }) (h : s.m.begin_.Spares Channels.bank k x) :
    Completes c s fun t => ∀ j : Fin 4, j.val ≠ k → t.bank j.val = { s.m.bank j.val with ovForce := (t.bank j.val).ovForce } :=
  ⟨_, hc, rfl, fun j hj => by
    obtain ⟨o, hBank⟩ := x.bank_settle s.m.begin_ j.val
    have hSame : x.bank j.val = s.m.bank j.val := h.same hj
    rw [hBank, hSame]⟩

end

/-! ### A queue -/

section
variable {q : Nat} {b m : Mach}

theorem Mach.Spares.push (h : b.Spares Channels.qu q m) (w : Word) : b.Spares Channels.qu q (m.push q w) :=
  .ite h.setBit (.ite h.setBit.setBit.post h.modQ)

theorem Mach.Spares.publish (h : b.Spares Channels.qu q m) : b.Spares Channels.qu q (m.publish q) := h.modQ

theorem Mach.Spares.writeQDb (h : b.Spares Channels.qu q m) (v : Nat) : b.Spares Channels.qu q (m.writeQDb q v) :=
  .ite h.modQ (.ite h.publish h)

theorem Mach.Spares.writeQCtrl (h : b.Spares Channels.qu q m) (v : Nat) : b.Spares Channels.qu q (m.writeQCtrl q v) := by
  have hFlush : b.Spares Channels.qu q (m.when (bitOf v 2) (·.flush q)) := h.when _ h.modQ
  have hResume := hFlush.when (f := (·.qResume q)) (bitOf v 1) hFlush.modQ
  exact hResume.when _ hResume.modQ

theorem Mach.Spares.rtnStart (h : b.Spares Channels.qu q m) (rtn : Nat) (auto : Bool) : b.Spares Channels.qu q (m.rtnStart q rtn auto) := by
  unfold Mach.rtnStart
  split
  · exact h.modQ.post
  · exact h.setBit

theorem Mach.Spares.qRtn (h : b.Spares Channels.qu q m) (j w : Nat) (image : Bool) :
    b.Spares Channels.qu q (m.ownerWrite ⟨.Q_RTN, q, j⟩ w image) := .ite (h.store.rtnStart ..) h.store

theorem Mach.Spares.pastEnd (h : b.Spares Channels.qu q m) : b.Spares Channels.qu q (m.pastEnd q) := by
  unfold Mach.pastEnd
  dsimp only
  split
  · exact .ite h.modQ.post.modQ h
  · exact h

theorem Mach.Spares.routineFetch (h : b.Spares Channels.qu q m) (bad : Bool) : b.Spares Channels.qu q (m.routineFetch q bad) := by
  have hEnd := h.pastEnd
  unfold Mach.routineFetch
  dsimp only
  split
  · exact .ite hEnd.modQ hEnd.modQ
  · exact hEnd.modQ

end

section
variable {c : Instr} {s : State} {q : Fin 64}

theorem begin_abortsDue (h : s.m.NoAbort) : s.m.begin_.abortsDue = s.m.begin_ := Mach.abortsDue_of_noAbort (m := s.m.begin_) h

/-- A write of a queue's register, in a state in which no abort runs. -/
theorem Completes.sparesQueuesWrite {r : Reg} {w : Nat}
    (hc : exec c s = .next { s with m := (s.m.begin_.abortsDue.hostWrite ⟨r, q.val, 0⟩ w).settle s.m.begin_ })
    (hr : r ≠ .GL_IDATA) (h : s.m.NoAbort)
    (ho : s.m.begin_.Spares Channels.qu q.val (s.m.begin_.ownerWrite ⟨r, q.val, 0⟩ w false)) :
    Completes c s fun t => ∀ j : Fin 64, j.val ≠ q.val → t.qu j.val = s.m.qu j.val :=
  .sparesQueues hc <| by
    rw [begin_abortsDue h]
    exact .hostWrite .refl hr ho

/-- A write of a port's register. -/
theorem Completes.sparesPortsWrite {r : Reg} {w : Nat} {p : Fin 12}
    (hc : exec c s = .next { s with m := (s.m.begin_.hostWrite ⟨r, p.val, 0⟩ w).settle s.m.begin_ })
    (hr : r ≠ .GL_IDATA) (ho : s.m.begin_.Spares Channels.port p.val (s.m.begin_.ownerWrite ⟨r, p.val, 0⟩ w false)) :
    Completes c s fun t => ∀ j : Fin 12, j.val ≠ p.val → t.port j.val = s.m.port j.val :=
  .sparesPorts hc (.hostWrite .refl hr ho)

/-- A write of an axis's register. -/
theorem Completes.sparesAxesWrite {r : Reg} {w : Nat} {n : Fin 48}
    (hc : exec c s = .next { s with m := (s.m.begin_.hostWrite ⟨r, n.val, 0⟩ w).settle s.m.begin_ })
    (hr : r ≠ .GL_IDATA) (ho : s.m.begin_.Spares Channels.ax n.val (s.m.begin_.ownerWrite ⟨r, n.val, 0⟩ w false)) :
    Completes c s fun t => ∀ j : Fin 48, j.val ≠ n.val → t.ax j.val = s.m.ax j.val :=
  .sparesAxes hc (.hostWrite .refl hr ho)

end

/-! ### An axis -/

section
variable {n : Nat} {b m : Mach}

theorem Mach.Spares.limClear (h : b.Spares Channels.ax n m) (sideB : Bool) : b.Spares Channels.ax n (m.limClear n sideB) :=
  .ite h.setBit (.ite h.clrFld.post h)

theorem Mach.Spares.axRetgt (h : b.Spares Channels.ax n m) (j w : Nat) (image : Bool) :
    b.Spares Channels.ax n (m.ownerWrite ⟨.AX_RETGT, n, j⟩ w image) :=
  .modAx h.store

theorem Mach.Spares.axSlim (h : b.Spares Channels.ax n m) (j w : Nat) (image : Bool) :
    b.Spares Channels.ax n (m.ownerWrite ⟨.AX_SLIM, n, j⟩ w image) :=
  .modAx h.store

theorem Mach.Spares.axCfg (h : b.Spares Channels.ax n m) (j w : Nat) (image : Bool) :
    b.Spares Channels.ax n (m.ownerWrite ⟨.AX_CFG, n, j⟩ w image) :=
  .ite h.store.modAx h.store

theorem Mach.Spares.axLimStat (h : b.Spares Channels.ax n m) (j w : Nat) (image : Bool) :
    b.Spares Channels.ax n (m.ownerWrite ⟨.AX_LIM_STAT, n, j⟩ w image) :=
  have hA (x : Mach) (hx : b.Spares Channels.ax n x) (c : Bool) : b.Spares Channels.ax n (x.when c (·.limClear n false)) :=
    .ite (hx.limClear _) hx
  .ite ((hA _ h.store _).limClear _) (hA _ h.store _)

theorem Mach.Spares.stillRamp (h : b.Spares Channels.ax n m) : b.Spares Channels.ax n (m.stillRamp n) := .ite h.modAx h

theorem Mach.Spares.ctrlMaqEnter (h : b.Spares Channels.ax n m) : b.Spares Channels.ax n (m.ctrlMaqEnter n) :=
  .ite (h.modAx.post) h.setBit

/-- What leaves all axes. -/
theorem Mach.Spares.keepAxes {x : Mach} (h : b.Spares Channels.ax n m) (e : x.axes = m.axes) : b.Spares Channels.ax n x :=
  Mach.spares_iff.mpr fun j hj => (congrArg (vget Axis.reset · j) e).trans (h.same hj)

theorem Mach.Spares.endEnable (h : b.Spares Channels.ax n m) (st at_ : Nat) : b.Spares Channels.ax n (m.endEnable n st at_) :=
  .modAx (h.keepAxes (Mach.retireAll_axes ..))

theorem Mach.Spares.followEnd (h : b.Spares Channels.ax n m) (at_ : Nat) : b.Spares Channels.ax n (m.followEnd n at_) := by
  unfold Mach.followEnd
  split
  · exact h
  · rename_i f _
    refine .each (.modAx ?_) 4 fun x r hx => .ite (hx.keep rfl) hx
    cases f.port <;> cases f.cmd
    · exact h
    · exact h.keepAxes (Mach.retire_axes ..)
    · exact h.clrFld.post
    · exact (h.keepAxes (Mach.retire_axes ..)).clrFld.post

theorem Mach.Spares.leaveFollow (h : b.Spares Channels.ax n m) (at_ : Nat) : b.Spares Channels.ax n (m.leaveFollow n at_) :=
  (h.followEnd at_).modAx

theorem Mach.Spares.trimStop (h : b.Spares Channels.ax n m) : b.Spares Channels.ax n (m.trimStop n) := (h.modAx.clrFld).wrS

end

/-- Only axis `n` may have changed, and it is in the group it was in. -/
abbrev Mach.Alone (n : Nat) (b m : Mach) : Prop := b.Spares Channels.ax n m ∧ m.groupOf n = b.groupOf n

theorem Mach.Alone.others {n : Nat} {b m : Mach} (h : b.Alone n m) : b.Spares Channels.ax n m := h.1

theorem Mach.Alone.group {n : Nat} {b m : Mach} (h : b.Alone n m) : m.groupOf n = b.groupOf n := h.2

section
variable {n : Nat} {b m x y : Mach}

theorem Mach.Alone.keepAxes (h : b.Alone n m) (e : x.axes = m.axes) : b.Alone n x :=
  ⟨h.others.keepAxes e, (congrArg Axis.group (Mach.ax_congr e n)).trans h.group⟩

theorem Mach.Alone.ite {c : Prop} [Decidable c] (hx : b.Alone n x) (hy : b.Alone n y) : b.Alone n (if c then x else y) := by
  split
  · exact hx
  · exact hy

theorem Mach.Alone.modAx (h : b.Alone n m) (hn : n < 48) {f : Axis → Axis} (hf : ∀ a, (f a).group = a.group) :
    b.Alone n (m.modAx n f) :=
  ⟨h.others.modAx, by rw [Mach.groupOf, m.ax_modAx_same f hn, hf, ← h.group, Mach.groupOf]⟩

theorem Mach.homeFail_axes (m : Mach) (n code : Nat) : (m.homeFail n code).axes = m.axes := Mach.post_axes ..

theorem Mach.Alone.homeCut (h : b.Alone n m) (hn : n < 48) : b.Alone n (m.homeCut n) := by
  unfold Mach.homeCut
  split
  · exact h
  · exact .modAx (.ite (h.keepAxes (Mach.homeFail_axes ..)) h) hn fun _ => rfl

theorem Mach.Alone.dropMotion (h : b.Alone n m) (hn : n < 48) (st at_ : Nat) : b.Alone n (m.dropMotion n st at_) :=
  .modAx (h.keepAxes ((Mach.retireAll_axes ..).trans (Mach.retireAll_axes ..))) hn fun _ => rfl

theorem Mach.Alone.keptEnd (h : b.Alone n m) (hn : n < 48) (at_ : Nat) : b.Alone n (m.keptEnd n at_) := by
  unfold Mach.keptEnd
  split
  · exact h
  · rename_i k _
    have hCut : b.Alone n ((((m.retireAll (k.cmds ++ k.stops) 0x01 at_).retireAll k.ahead 0x85 at_).modAx n
        fun a => { a with kept := none })) :=
      .modAx (h.keepAxes ((Mach.retireAll_axes ..).trans (Mach.retireAll_axes ..))) hn fun _ => rfl
    dsimp only
    split
    · exact .ite (hCut.keepAxes (Mach.homeFail_axes ..)) hCut
    · exact hCut

theorem Mach.breakPath_of_alone (h : m.groupOf n = none) (code : Nat) : m.breakPath n code = m := by
  rw [Mach.breakPath, h]

theorem Mach.masterLost_of_unfollowed (h : ∀ k : Nat, ∀ f ∈ (m.ax k).follow, f.sel ≠ n) : m.masterLost n = m :=
  Mach.each_fixed fun k => by
    split
    · rename_i f hFollow
      exact if_neg (h k f hFollow)
    · rfl

theorem Mach.Spares.masterLost (h : b.Spares Channels.ax n m) (hOwn : (m.ax n).follow = none)
    (hOthers : ∀ k : Fin 48, ((b.ax k).follow.all fun f => f.sel != n) = true) : b.Spares Channels.ax n (m.masterLost n) := by
  rw [Mach.masterLost_of_unfollowed]
  · exact h
  · intro k f hFollow
    by_cases hk : k = n
    · rw [hk, hOwn] at hFollow
      cases hFollow
    · rw [show m.ax k = b.ax k from h.same hk] at hFollow
      by_cases hMax : k < 48
      · exact bne_iff_ne.mp ((Option.all_eq_true ..).mp (hOthers ⟨k, hMax⟩) f hFollow)
      · rw [Mach.ax, vget, dif_neg hMax] at hFollow
        cases hFollow

theorem Mach.follow_leaveFollow (m : Mach) (hn : n < 48) (at_ : Nat) : ((m.leaveFollow n at_).ax n).follow = none := by
  rw [Mach.leaveFollow, Mach.ax_modAx_same _ _ hn]

theorem Mach.follow_trimStop (m : Mach) (hn : n < 48) : ((m.trimStop n).ax n).follow = (m.ax n).follow := by
  have hAxes : (m.trimStop n).axes = (m.modAx n fun a => { a with trim := .off }).axes := rfl
  rw [Mach.ax_congr hAxes, Mach.ax_modAx_same _ _ hn]

/-- The exit from MAQUETTE of an axis of no group that no follower has as its master. -/
theorem Mach.Spares.ctrlMaqExit (hn : n < 48) (hGroup : b.groupOf n = none)
    (hOthers : ∀ k : Fin 48, ((b.ax k).follow.all fun f => f.sel != n) = true) : b.Spares Channels.ax n (b.ctrlMaqExit n) := by
  have hAlone : b.Alone n b := ⟨.refl, rfl⟩
  have hDropped := (hAlone.homeCut hn).dropMotion hn 0x01 (b.clk.tick + 1)
  have hKept := (hDropped.keepAxes (Mach.retireAll_axes _ (b.ax n).stopCmds 0x01 (b.clk.tick + 1))).keptEnd hn (b.clk.tick + 1)
  refine .ite ?_ (.setBit .refl)
  rw [Mach.breakPath_of_alone (hKept.group.trans hGroup)]
  refine .masterLost (.post (.modAx (.trimStop ((hKept.others.endEnable _ _).leaveFollow _)))) ?_ hOthers
  rw [Mach.ax_congr (Mach.post_axes ..), Mach.ax_modAx_same _ _ hn]
  exact (Mach.follow_trimStop _ hn).trans (Mach.follow_leaveFollow _ hn _)

end

/-! ### What a fault of a port leaves -/

/-- An operation that leaves the ports, done to each of a list. -/
theorem Mach.forAll_ports {f : Mach → Nat → Mach} (hf : ∀ x n, (f x n).ports = x.ports) (m : Mach) (l : List Nat) :
    (m.forAll l f).ports = m.ports :=
  List.foldlRecOn (motive := fun x : Mach => x.ports = m.ports) l f rfl fun _ hx n _ => (hf _ n).trans hx

theorem Mach.ite_ports {x y m : Mach} {c : Prop} [Decidable c] (hx : x.ports = m.ports) (hy : y.ports = m.ports) :
    (if c then x else y).ports = m.ports := by
  split
  · exact hx
  · exact hy

section
variable (m : Mach) (n : Nat)

@[simp] theorem Mach.retire_ports (c : MotionCmd) (st at_ : Nat) : (m.retire c st at_).ports = m.ports := by
  unfold Mach.retire
  split <;> rfl

@[simp] theorem Mach.retireAll_ports (cs : List MotionCmd) (st at_ : Nat) : (m.retireAll cs st at_).ports = m.ports :=
  List.foldlRecOn (motive := fun x : Mach => x.ports = m.ports) cs _ rfl fun x hx c _ => (x.retire_ports c st at_).trans hx

@[simp] theorem Mach.dropMotion_ports (st at_ : Nat) : (m.dropMotion n st at_).ports = m.ports :=
  (Mach.retireAll_ports ..).trans (Mach.retireAll_ports ..)

@[simp] theorem Mach.homeFail_ports (code : Nat) : (m.homeFail n code).ports = m.ports := Mach.post_ports ..

@[simp] theorem Mach.homeCut_ports : (m.homeCut n).ports = m.ports := by
  unfold Mach.homeCut
  split
  · rfl
  · exact Mach.ite_ports (Mach.homeFail_ports ..) rfl

@[simp] theorem Mach.followEnd_ports (at_ : Nat) : (m.followEnd n at_).ports = m.ports := by
  unfold Mach.followEnd
  split
  · rfl
  · rename_i f _
    refine (Mach.forAll_ports (fun x r => ?_) _ _).trans ?_
    · exact Mach.ite_ports rfl rfl
    · cases f.port <;> cases f.cmd
      · rfl
      · exact Mach.retire_ports ..
      · exact Mach.post_ports ..
      · exact (Mach.post_ports ..).trans (Mach.retire_ports ..)

@[simp] theorem Mach.postCause_ports (cause : Nat) (estop : Bool) : (m.postCause n cause estop).ports = m.ports := Mach.post_ports ..

@[simp] theorem Mach.estopAxis_ports (cause : Nat) (ownPlan : Bool) : (m.estopAxis n cause ownPlan).ports = m.ports :=
  calc (m.estopAxis n cause ownPlan).ports
    _ = (((m.homeCut n).dropMotion n (if cause = 3 ∨ cause = 4 then 0x02 else 0x01) (m.clk.tick + 1)).followEnd n (m.clk.tick + 1)).ports :=
      (Mach.post_ports ..).trans (Mach.retireAll_ports ..)
    _ = m.ports := (Mach.followEnd_ports ..).trans ((Mach.dropMotion_ports ..).trans (Mach.homeCut_ports ..))

@[simp] theorem Mach.groupEstop_ports (g cause : Nat) (skip : Option Nat) (own : List Nat) :
    (m.groupEstop g n cause skip own).ports = m.ports := by
  have hMembers (x : Mach) (l : List Nat) :
      (x.forAll l fun m k =>
        if skip = some k ∨ m.groupOf k ≠ some g then m
        else if (m.ax k).hardAt.isSome then m.postCause k (if own.contains k then cause else 8) true
        else m.estopAxis k (if own.contains k then cause else 8) false).ports = x.ports :=
    Mach.forAll_ports (fun _ _ => Mach.ite_ports rfl (Mach.ite_ports (Mach.postCause_ports ..) (Mach.estopAxis_ports ..))) x l
  have hBefore (x : Mach) (h : x.ports = m.ports) :
      (if skip.isSome then x else x.post Ev.GR_PATH_ESTOP g (n + 256 * cause)).ports = m.ports :=
    Mach.ite_ports h ((Mach.post_ports ..).trans h)
  unfold Mach.groupEstop
  refine Mach.ite_ports rfl (hBefore _ ((hMembers _ _).trans ?_))
  cases (m.arm g).cmd with
  | none => exact Mach.retireAll_ports ..
  | some c => exact (Mach.retireAll_ports ..).trans (Mach.retire_ports ..)

@[simp] theorem Mach.estopWith_ports (cause : Nat) (own : List Nat) : (m.estopWith n cause own).ports = m.ports := by
  unfold Mach.estopWith
  refine Mach.ite_ports ?_ (Mach.postCause_ports ..)
  split
  · exact Mach.ite_ports (Mach.groupEstop_ports ..) (Mach.estopAxis_ports ..)
  · exact Mach.estopAxis_ports ..

@[simp] theorem Mach.faultWaits_ports (cause : Nat) : (m.faultWaits n cause).ports = m.ports := by
  unfold Mach.faultWaits
  split
  · rfl
  · rfl
  · exact Mach.postCause_ports ..
  · exact Mach.postCause_ports ..
  · rfl

theorem Mach.faultAfterEstop_ports (ns : List Nat) (fcause ecause : Nat) : (m.faultAfterEstop ns fcause ecause).ports = m.ports :=
  (Mach.forAll_ports (fun x k => x.faultWaits_ports k fcause) _ _).trans
    (Mach.forAll_ports (fun x k => Mach.ite_ports rfl (x.estopWith_ports k ecause _)) _ _)

@[simp] theorem Mach.homePhase_ports (ph : Nat) : (m.homePhase n ph).ports = m.ports := rfl

@[simp] theorem Mach.homeEdge_ports (index : Bool) (p : Rat) (ts : Nat) : (m.homeEdge n index p ts).ports = m.ports := by
  unfold Mach.homeEdge
  dsimp only
  split
  · rfl
  · exact Mach.ite_ports rfl (Mach.ite_ports rfl (Mach.ite_ports rfl (Mach.ite_ports rfl (Mach.ite_ports rfl rfl))))

end

/-! ### A port -/

section
variable {p : Nat} {b m x : Mach}

/-- What leaves all ports. -/
theorem Mach.Spares.keepPorts (h : b.Spares Channels.port p m) (e : x.ports = m.ports) : b.Spares Channels.port p x :=
  Mach.spares_iff.mpr fun j hj => (congrArg (vget Port.reset · j) e).trans (h.same hj)

theorem Mach.Spares.portFault (h : b.Spares Channels.port p m) (cause code data : Nat) :
    b.Spares Channels.port p (m.portFault p cause code data) :=
  .ite h (.keepPorts (.post (.wr h.setBit)) (Mach.faultAfterEstop_ports ..))

theorem Mach.Spares.portEvent (h : b.Spares Channels.port p m) : b.Spares Channels.port p (m.portEvent p) :=
  .ite h.modPort.clrFld h.modPort

theorem Mach.Spares.portErr (h : b.Spares Channels.port p m) (hall : Bool) : b.Spares Channels.port p (m.portErr p hall) :=
  have hCounted := h.bump.bump.modPort
  .portEvent (.ite (hCounted.portFault ..) hCounted)

theorem Mach.Spares.portCount (h : b.Spares Channels.port p m) (d : Int) (cyc : Nat) : b.Spares Channels.port p (m.portCount p d cyc) :=
  h.modPort.clrFld.wr.portEvent

theorem Mach.Spares.quadTake (h : b.Spares Channels.port p m) (old new cyc : Nat) : b.Spares Channels.port p (m.quadTake p old new cyc) :=
  .ite (h.portErr _) (.ite (h.portCount ..) (.ite (h.portCount ..) h))

theorem Mach.Spares.hallTake (h : b.Spares Channels.port p m) (old new cyc : Nat) : b.Spares Channels.port p (m.hallTake p old new cyc) := by
  unfold Mach.hallTake
  refine .ite h ?_
  split
  · exact h.portErr _
  · exact h
  · exact .ite (h.portCount ..) (.ite (h.portCount ..) (.ite h (h.portErr _)))

theorem Mach.Spares.stepTake (h : b.Spares Channels.port p m) (dir : Bool) (new cyc : Nat) :
    b.Spares Channels.port p (m.stepTake p dir new cyc) := .ite h (h.portCount ..)

theorem Mach.Spares.indexTake (h : b.Spares Channels.port p m) : b.Spares Channels.port p (m.indexTake p) := by
  have hRead (c t : Nat) (d : Int) : b.Spares Channels.port p ((((m.wr F.FB_IDX_CAP_CNT c p).wr F.FB_IDX_CAP_TS t p).setBit
      F.FB_STAT_INDEX_SEEN p).wrS F.FB_IDX_DEV d p) := h.wr.wr.setBit.wrS
  unfold Mach.indexTake
  refine .each ?_ 48 fun x n hx => ?_
  · dsimp only
    split
    · exact .ite (hRead ..).modPort (hRead ..).setBit.post
    · exact .ite (hRead ..) (.ite (hRead ..).modPort.clrFld (hRead ..).setBit.post)
    · exact .ite (hRead ..) (hRead ..).setBit.post
  · split
    · exact .ite (hx.keepPorts (Mach.homeEdge_ports ..)) hx
    · exact hx

theorem Mach.Spares.portTake (h : b.Spares Channels.port p m) (old cyc : Nat) : b.Spares Channels.port p (m.portTake p old cyc) := by
  unfold Mach.portTake
  refine .ite h ?_
  split
  · have hQuad := h.quadTake old (m.portLvl p) cyc
    exact .ite hQuad.indexTake hQuad
  · exact h.quadTake ..
  · exact h.hallTake ..
  · exact .ite (h.stepTake ..) h
  · exact h

theorem Mach.Spares.writeFbCtrl (h : b.Spares Channels.port p m) (v : Nat) : b.Spares Channels.port p (m.writeFbCtrl p v) :=
  .ite h.clrFld (.ite h.setBit h)

theorem Mach.Spares.fbStat (h : b.Spares Channels.port p m) (j w : Nat) (image : Bool) :
    b.Spares Channels.port p (m.ownerWrite ⟨.FB_STAT, p, j⟩ w image) := .ite h.store.clrFld.clrFld.clrFld.clrFld.post h.store

theorem Mach.Spares.serialRead (h : b.Spares Channels.port p m) : b.Spares Channels.port p (m.serialRead p) :=
  .ite h (.ite h.setBit h.modPort)

theorem Mach.Spares.serialWord (h : b.Spares Channels.port p m) (waits : FrameWaits) (raw : Nat) (eBit wBit : Bool) (crc : Nat) :
    b.Spares Channels.port p (m.serialWord p waits raw eBit wBit crc) := by
  unfold Mach.serialWord
  extract_lets x md ssi dlen timeout latch ew data w err warn c0 c1 c2 crcBad jmp delta jump cause done rest ts m0 m1 cnt m2 k sc dt d
    m2 m3 m4 m5
  have h0 : b.Spares Channels.port p m0 := h.modPort
  have h1 : b.Spares Channels.port p m1 := .ite h0 h0.setReg
  have hFailed (cnt : Fld) := (h1.bump (f := cnt) (i := p) (j := 0)).bump (f := F.FB_ERR_CONSEC) (i := p) (j := 0)
  have h4 : b.Spares Channels.port p m4 := (h1.modPort.clrFld.clrFld.wr).modPort
  refine .ite h (.ite (.ite ((hFailed _).portFault ..) (hFailed _)) (.ite h4 ?_))
  exact .ite h4.setBit h4.setBit.post

end

end Sys2Proof.Machine
end

section
/-!
PROOFS. What the commands of a coil and of a bank do to the others, and that each command of one channel completes (O50).
-/

namespace Sys2Proof.Machine

/-! ### What a coil's period does besides -/

section
variable {α : Type} {p : Channels → Nat → α} {k : Nat} {b m : Mach}

theorem Mach.Spares.guardStep (h : b.Spares p k m) (n P amp : Nat) : b.Spares p k (m.guardStep n P amp) :=
  .ite h.modOb.wr.setBit.post h.modOb.wr

theorem Mach.Spares.stPeriod (h : b.Spares p k m) (K : Nat) : b.Spares p k (m.stPeriod K) := .ite (h.keep rfl) h

theorem Mach.Spares.syncLock (h : b.Spares p k m) : b.Spares p k m.syncLock := .ite h.setBit.post (.ite h h.clrFld)

theorem Mach.Spares.obsLost (h : b.Spares p k m) (n src : Nat) : b.Spares p k (m.obsLost n src) := .ite h.setBit.post h

theorem Mach.Spares.patRon (h : b.Spares p k m) (n : Nat) (drop i : Rat) : b.Spares p k (m.patRon n drop i) := .ite h h.modOb

theorem Mach.Spares.patBlock (h : b.Spares p k m) (K : Nat) (est : Option Rat) : b.Spares p k (m.patBlock K est) := by
  unfold Mach.patBlock
  split
  · exact h.modOb
  · exact h

theorem Mach.Spares.patPeriod (h : b.Spares p k m) (K iamp : Nat) (im : Rat) : b.Spares p k (m.patPeriod K iamp im) := by
  unfold Mach.patPeriod
  dsimp only
  split
  · exact .ite h.modOb h
  · exact h

theorem Mach.Spares.emfFilter (h : b.Spares p k m) (n : Nat) (a : Int) (ea eb : Rat) : b.Spares p k (m.emfFilter n a ea eb) := h.modOb

theorem Mach.Spares.coilShow (h : b.Spares p k m) (K : Nat) (req : Req) (duty : Int) (lf cap : Bool) :
    b.Spares p k (m.coilShow K req duty lf cap) :=
  (Mach.Spares.ite h.wr.wrS.wrS.wr h.wr.wr.wr.wrS.wrS.wr).wr.wr.wr.wr.wr.wr.wr

/-- The steps of a scan change only its bank. -/
theorem Mach.Spares.scanNext {bk : Nat} (hBank : ∀ x f, b.Spares p k x → b.Spares p k (x.modBank bk f)) (fuel : Nat) (h : b.Spares p k m)
    (i : Nat) : b.Spares p k (m.scanNext bk fuel i) := by
  induction fuel generalizing m i with
  | zero => exact (hBank _ _ h).clrFld
  | succ fuel ih => exact .ite (hBank _ _ h).clrFld (.ite (hBank _ _ h).setBit (ih h.setBit.post _))

theorem Mach.Spares.scanGo {bk : Nat} (hBank : ∀ x f, b.Spares p k x → b.Spares p k (x.modBank bk f)) (h : b.Spares p k m) (trig : Nat) :
    b.Spares p k (m.scanGo bk trig) := .ite h (.scanNext hBank _ (hBank _ _ h) _)

end

/-! ### A coil -/

section
variable {K : Nat} {b m x : Mach}

/-- What leaves all coils. -/
theorem Mach.Spares.keepCoils (h : b.Spares Channels.coil K m) (e : x.coils = m.coils) : b.Spares Channels.coil K x :=
  Mach.spares_iff.mpr fun j hj => (congrArg (vget Coil.reset · j) e).trans (h.same hj)

theorem Mach.Spares.coil_modBank (h : b.Spares Channels.coil K m) {n : Nat} {f : Bank → Bank} : b.Spares Channels.coil K (m.modBank n f) :=
  h.keepCoils rfl

theorem Mach.Spares.useSlice (h : b.Spares Channels.coil K m) (n s t : Nat) : b.Spares Channels.coil K (m.useSlice n s t) := h.coil_modBank

theorem Mach.Spares.trigMoved (h : b.Spares Channels.coil K m) (n ch was : Nat) : b.Spares Channels.coil K (m.trigMoved n ch was) :=
  h.coil_modBank

theorem Mach.Spares.trigEvent (h : b.Spares Channels.coil K m) (n src ch t : Nat) : b.Spares Channels.coil K (m.trigEvent n src ch t) :=
  .ite h h.coil_modBank

theorem Mach.Spares.syncMeasure (h : b.Spares Channels.coil K m) (n : Nat) : b.Spares Channels.coil K (m.syncMeasure n) := by
  unfold Mach.syncMeasure
  dsimp only
  split
  · exact h.coil_modBank
  · exact .ite h.coil_modBank.syncLock (.syncLock (.keepCoils (.ite h.coil_modBank.wr h.coil_modBank) rfl))

theorem Mach.Spares.winExamine (h : b.Spares Channels.coil K m) (n src sel : Nat) (val : Int) :
    b.Spares Channels.coil K (m.winExamine n src sel val) :=
  .each h 8 fun _ _ hx => .ite hx (.ite hx.coil_modBank (.ite hx.coil_modBank hx.coil_modBank.coil_modBank.wr.post))

theorem Mach.Spares.deliverSample (h : b.Spares Channels.coil K m) (d : Held) (raw : Int) (conv full : Bool) :
    b.Spares Channels.coil K (m.deliverSample K d raw conv full) := by
  unfold Mach.deliverSample
  extract_lets n ch c maq clip lost subst q meas val s ripple m1 m2 m3 m4
  have h1 : b.Spares Channels.coil K m1 := h.modCoil
  have hClip := h1.when (f := (·.setBit F.CS_STAT_CLIP n)) clip h1.setBit
  have hEdge := hClip.when (f := (·.setBit F.CS_STAT_EDGE n)) d.edge hClip.setBit
  have hNowin := hEdge.when (f := (·.setBit F.CS_STAT_NOWIN n)) d.nowin hEdge.setBit
  have h2 : b.Spares Channels.coil K m2 := hNowin.when _ hNowin.bump
  have h4 : b.Spares Channels.coil K m4 := (h2.when _ h2.setBit.bump.post).wr
  exact .ite h4 (h4.winExamine ..)

theorem Mach.Spares.sampleHold (h : b.Spares Channels.coil K m) (kind : Nat) : b.Spares Channels.coil K (m.sampleHold K kind) := by
  unfold Mach.sampleHold
  dsimp only
  split
  · exact h
  · refine .ite (h.modCoil.deliverSample ..) (.ite h.modCoil.modCoil ?_)
    split
    · exact .ite (h.modCoil.modCoil.useSlice ..).coil_modBank.wrap h.modCoil.modCoil.coil_modBank
    · exact h.modCoil.modCoil

theorem Mach.Spares.sampleDelivered (h : b.Spares Channels.coil K m) (kind : Nat) (raw : Int) (full : Bool) :
    b.Spares Channels.coil K (m.sampleDelivered K kind raw full) := by
  unfold Mach.sampleDelivered
  split
  · exact h.deliverSample ..
  · exact h

theorem Mach.Spares.peakTrip (h : b.Spares Channels.coil K m) (cnt : Nat) : b.Spares Channels.coil K (m.peakTrip K cnt) := by
  unfold Mach.peakTrip
  refine .ite h ?_
  split
  · exact h
  · exact .ite ((h.modCoil.trigMoved ..).trigEvent ..).bump.modCoil.post ((h.modCoil.trigMoved ..).trigEvent ..).bump
  · exact .ite h (h.trigEvent ..).modCoil

theorem Mach.Spares.periodEnd (h : b.Spares Channels.coil K m) : b.Spares Channels.coil K (m.periodEnd K) := by
  unfold Mach.periodEnd
  extract_lets c n ton m1 run m2
  have h1 : b.Spares Channels.coil K m1 := by
    dsimp only [m1]
    split
    · exact h.modCoil
    · exact .ite h.modCoil h
    · exact h.modCoil
  have h2 : b.Spares Channels.coil K m2 := h1.modCoil
  exact .ite h2.modCoil.post h2

theorem Mach.Spares.periodStart (h : b.Spares Channels.coil K m) : b.Spares Channels.coil K (m.periodStart K) := by
  unfold Mach.periodStart
  extract_lets n ch ax m0 c x adjMax m1 adj next P t0 ref m2 repeat_ m3
  have h0 : b.Spares Channels.coil K m0 := h.periodEnd.keepCoils rfl
  have h1 : b.Spares Channels.coil K m1 := .ite h0.coil_modBank h0
  have h2 : b.Spares Channels.coil K m2 := .ite ((h1.coil_modBank.trigEvent ..).syncMeasure _) h1
  have h3 : b.Spares Channels.coil K m3 := .ite h2.bump.bump h2
  clear_value m3
  split
  exact .ite ((h3.modCoil.setReg.trigEvent _ _ _ _).trigEvent ..) (h3.modCoil.setReg.trigEvent ..)

end

/-! ### The computation of a coil -/

section
variable {K : Nat} {b m : Mach}

theorem Mach.Spares.observe (h : b.Spares Channels.coil K m) (a : Int) (im v : Rat) (iamp : Nat) :
    b.Spares Channels.coil K (m.observe K a im v iamp) := by
  unfold Mach.observe
  extract_lets n bk j c e m1 ca m2 gapN o fast runE gap run' need ok m3 m4 s used num den all cond full hit gapR lostR m5 m6 est m7
  have h1 : b.Spares Channels.coil K m1 := h.modCoil
  have h2 : b.Spares Channels.coil K m2 := by
    refine .ite ?_ h1
    split
    · exact (h1.emfFilter ..).modOb
    · exact h1.modOb
  have h3 : b.Spares Channels.coil K m3 := h2.modOb
  have h4 : b.Spares Channels.coil K m4 := (Mach.Spares.ite (h3.obsLost ..) h3).patPeriod ..
  have h6 : b.Spares Channels.coil K m6 := h4.modCoil.modCoil.modOb
  have h7 : b.Spares Channels.coil K m7 := (h6.patBlock ..).modOb
  refine .ite h6.modOb (.ite (Mach.Spares.ite (h6.obsLost ..) h6).modOb (.ite h6 ?_))
  split
  · split
    · exact h7.modOb
    · exact h7.modOb
  · exact .ite h7.modOb h7

theorem Mach.Spares.placeOne (h : b.Spares Channels.coil K m) (P t0 : Nat) (w : Windows) (kind : Nat) :
    b.Spares Channels.coil K (m.placeOne K P t0 w kind) := by
  unfold Mach.placeOne
  dsimp only
  split
  · exact h.modCoil
  · split
    · exact h.modCoil
    · exact (h.useSlice ..).coil_modBank.modCoil

theorem Mach.Spares.placeReqs (h : b.Spares Channels.coil K m) (ton : Nat) : b.Spares Channels.coil K (m.placeReqs K ton) :=
  List.foldlRecOn (motive := (b.Spares Channels.coil K ·)) _ _ h.modCoil fun _ hx k _ => hx.placeOne _ _ _ k

/-- What another coil shows besides what it is learning is unchanged with the coil. -/
theorem Mach.Spares.out (h : b.Spares Channels.coil K m) : b.Spares Channels.coilOut K m :=
  Mach.spares_iff.mpr fun _ hj => congrArg Coil.out (h.same hj)

theorem Mach.Spares.modCoil_out (h : b.Spares Channels.coilOut K m) {f : Coil → Coil} : b.Spares Channels.coilOut K (m.modCoil K f) :=
  h.trans (Mach.Spares.modCoil .refl).out

theorem Mach.Spares.placeReqs_out (h : b.Spares Channels.coilOut K m) (ton : Nat) : b.Spares Channels.coilOut K (m.placeReqs K ton) :=
  h.trans (Mach.Spares.placeReqs .refl ton).out

/-- A change of what coil `k`, this one or another, is learning. -/
theorem Mach.Spares.learnt (h : b.Spares Channels.coilOut K m) {k : Nat} {f : Coil → Coil} (hf : ∀ c, (f c).out = c.out) :
    b.Spares Channels.coilOut K (m.modCoil k f) := by
  refine h.trans (Mach.spares_iff.mpr fun j _ => ?_)
  change ((m.modCoil k f).coil j).out = (m.coil j).out
  by_cases hjk : j = k
  · rw [hjk]
    by_cases hk : k < 96
    · rw [Mach.coil_modCoil_same _ _ hk, hf]
    · rw [Mach.coil, Mach.coil, vget, vget, dif_neg hk, dif_neg hk]
  · rw [Mach.coil_modCoil_other _ _ hjk]

theorem Mach.Spares.forget (h : b.Spares Channels.coilOut K m) (k : Nat) :
    b.Spares Channels.coilOut K (m.modCoil k fun c => { c with acc := [] }) := h.learnt fun _ => rfl

theorem Mach.Spares.learnCoil (h : b.Spares Channels.coilOut K m) (n k iamp : Nat) :
    b.Spares Channels.coilOut K (m.learnCoil n k iamp) := by
  unfold Mach.learnCoil
  extract_lets sh lim cb amp m1
  have h1 : b.Spares Channels.coilOut K m1 :=
    List.foldlRecOn (motive := (b.Spares Channels.coilOut K ·)) _ _ h fun _ hx _ _ =>
      .ite (hx.keep (Mach.channels_setBin ..)).setBit.post (hx.keep (Mach.channels_setBin ..))
  exact h1.forget k

theorem Mach.Spares.learn (h : b.Spares Channels.coilOut K m) (res : Kin) (aNow aOld : Int) (e : Rat) (iamp : Nat) :
    b.Spares Channels.coilOut K (m.learn K res aNow aOld e iamp) := by
  unfold Mach.learn
  extract_lets n c other st lo hi v quiet ok m1 t
  have h1 : b.Spares Channels.coilOut K m1 := .ite h (h.learnt fun _ => rfl)
  exact .ite ((h.forget _).forget _).modOb (.ite h1 (.ite ((h1.learnCoil ..).learnCoil ..).modOb h1.modOb))

theorem Mach.Spares.coilCompute (h : b.Spares Channels.coil K m) (tph : Nat) : b.Spares Channels.coilOut K (m.coilCompute K tph) := by
  unfold Mach.coilCompute
  extract_lets n bk cb a c P ahead exact_ res req dt pos ac still im m0
  have h0 : b.Spares Channels.coil K m0 := h.modCoil
  split
  rename_i amp lf cap _
  extract_lets
  refine .ite (.out (.placeReqs (.coilShow (.ite (h0.observe ..).modCoil ((h0.observe ..).modCoil.guardStep ..)) ..) _)) ?_
  split
  extract_lets integ cmp satRun m3 m4 m5 slewing m6 m7 shown
  have h3 : b.Spares Channels.coilOut K m3 := ((h0.observe ..).out.learn ..).modCoil_out
  have h4 : b.Spares Channels.coilOut K m4 := h3.wr
  have h5 : b.Spares Channels.coilOut K m5 := .ite h4.modCoil_out.setBit.post h4
  have h6 : b.Spares Channels.coilOut K m6 := .ite (.ite h5.setBit h5.setBit.post) h5
  have h7 : b.Spares Channels.coilOut K m7 := .ite h6 (h6.guardStep ..)
  exact (h7.coilShow ..).placeReqs_out _

end

/-! ### A bank -/

section
variable {n : Nat} {b m x : Mach}

theorem Mach.Spares.bank_modAx (h : b.Spares Channels.bank n m) {k : Nat} {f : Axis → Axis} : b.Spares Channels.bank n (m.modAx k f) :=
  Mach.spares_iff.mpr fun _ hj => h.same hj

theorem Mach.Spares.vmResume (h : b.Spares Channels.bank n m) (mode : Nat) : b.Spares Channels.bank n (m.vmResume n mode) :=
  .forAll h.clrFld.post.modBank _ fun _ _ hx => .ite hx.bank_modAx hx

theorem Mach.Spares.vmRecovered (h : b.Spares Channels.bank n m) : b.Spares Channels.bank n (m.vmRecovered n) := by
  unfold Mach.vmRecovered
  refine .ite h ?_
  dsimp only
  split
  · exact h.clrFld.setBit.vmResume _
  · exact h.clrFld.setBit.vmResume _
  · exact h.clrFld.setBit

theorem Mach.Spares.injGo (h : b.Spares Channels.bank n m) (trig at_ : Nat) : b.Spares Channels.bank n (m.injGo n trig at_) :=
  .ite h.setBit (.ite h.setBit.post h.modBank.setBit)

theorem Mach.Spares.injCtrl (h : b.Spares Channels.bank n m) (j w : Nat) (image : Bool) :
    b.Spares Channels.bank n (m.ownerWrite ⟨.CS_INJ_CTRL, n, j⟩ w image) := .ite (h.store.injGo ..) h.store

theorem Mach.Spares.scanCfg (h : b.Spares Channels.bank n m) (j w : Nat) (image : Bool) :
    b.Spares Channels.bank n (m.ownerWrite ⟨.CS_SCAN_CFG, n, j⟩ w image) := by
  have hStop : b.Spares Channels.bank n ((m.store ⟨.CS_SCAN_CFG, n, j⟩ w image).when (bitOf w 6) (·.scanStopCmd n)) :=
    .ite h.store.modBank h.store
  exact .ite (.scanGo (fun _ _ hx => hx.modBank) hStop _) hStop

end

section
variable {c : Instr} {s : State} {b : Fin 4}

/-- A write of a bank's register. -/
theorem Completes.sparesBanksWrite {r : Reg} {w : Nat}
    (hc : exec c s = .next { s with m := (s.m.begin_.hostWrite ⟨r, b.val, 0⟩ w).settle s.m.begin_ })
    (hr : r ≠ .GL_IDATA) (ho : s.m.begin_.Spares Channels.bank b.val (s.m.begin_.ownerWrite ⟨r, b.val, 0⟩ w false)) :
    Completes c s fun t => ∀ j : Fin 4, j.val ≠ b.val → t.bank j.val = { s.m.bank j.val with ovForce := (t.bank j.val).ovForce } :=
  .sparesBanks hc (.hostWrite .refl hr ho)

end

/-! ### The commands of one channel -/

section
variable (s : State)

/-- The period of coil `k` starts, and with that of its bank's first coil a continuous scan. -/
theorem pwmPeriodStart_spares (k : Fin 96) (vm : BitVec 16) :
    Completes (.pwmPeriodStart k vm) s fun t => ∀ j : Fin 96, j.val ≠ k.val → t.coil j.val = s.m.coil j.val := by
  refine .sparesCoils rfl ?_
  have hGuard : s.m.begin_.Spares Channels.coil k.val (s.m.begin_.when (!(s.m.begin_.coil k.val).fresh && !isCoilB k.val) fun m =>
      m.guardStep (k.val / 2) (m.periodOf (k.val / 24)) 0) := .ite (.guardStep .refl ..) .refl
  have hStart := ((hGuard.stPeriod k.val).wr (f := F.PW_VM_MEAS_VM) (v := vm.toNat) (i := k.val / 24) (j := 0)).periodStart
  exact .ite (.scanGo (fun _ _ hx => hx.coil_modBank) hStart _) hStart

theorem coilCompute_spares (k : Fin 96) (at_ : CoilAt) :
    Completes (.coilCompute k at_) s fun t => ∀ j : Fin 96, j.val ≠ k.val →
      t.coil j.val = { s.m.coil j.val with acc := (t.coil j.val).acc } := by
  refine .sparesCoilsOut rfl (.ite .refl ?_)
  have hDone := Mach.Spares.coilCompute (K := k.val) (m := s.m.begin_) .refl at_.tph.toNat
  dsimp only
  split
  · exact (hDone.patRon ..).trans (Mach.Spares.winExamine .refl ..).out
  · exact hDone

/-- The profile slim bits of an axis are written with its word. -/
theorem axSlim_spares (n : Fin 48) (enable : Bool) (w : Word) :
    Completes (.axSlim n enable w) s fun t => ∀ j : Fin 48, j.val ≠ n.val → t.ax j.val = s.m.ax j.val := by
  have hSlim : s.m.begin_.Spares Channels.ax n.val (s.m.begin_.hostWrite ⟨.AX_SLIM, n.val, 0⟩ w.toNat) :=
    .hostWrite .refl (show Reg.AX_SLIM ≠ .GL_IDATA by decide) (.axSlim .refl ..)
  exact .sparesAxes rfl (.hostWrite hSlim (show Reg.AX_CFG ≠ .GL_IDATA by decide) (hSlim.axCfg ..))

end

/-- Settles O50: what a command does to its own channel, besides registers, rings and events, leaves the others. -/
theorem otherChannelsKeepTheirState : Obligations.OtherChannelsKeepTheirState := by
  refine ⟨?push, ?pushDb, ?publish, ?discard, ?pause, ?resume, ?flush, ?rtnStart, ?fetch, ?retgt, ?slim, ?limClear, ?still, ?maqEnter,
    ?maqExit, ?arm, ?disarm, ?faultClear, ?index, ?quad, ?hall, ?step, ?timeout, ?read, ?word, ?peak, ?hold, ?delivered, ?period,
    ?compute, ?gate, ?vm, ?inject, ?scanGo, ?scanStop⟩
  case push => exact fun _ _ _ h => .sparesQueuesWrite rfl (by decide) h (.push .refl _)
  case pushDb => exact fun _ _ _ h => .sparesQueuesWrite rfl (by decide) h (.publish (.push .refl _))
  case publish => exact fun _ _ h => .sparesQueuesWrite rfl (by decide) h (.writeQDb .refl _)
  case discard => exact fun _ _ h => .sparesQueuesWrite rfl (by decide) h (.writeQDb .refl _)
  case pause => exact fun _ _ h => .sparesQueuesWrite rfl (by decide) h (.writeQCtrl .refl _)
  case resume => exact fun _ _ h => .sparesQueuesWrite rfl (by decide) h (.writeQCtrl .refl _)
  case flush => exact fun _ _ h => .sparesQueuesWrite rfl (by decide) h (.writeQCtrl .refl _)
  case rtnStart => exact fun _ _ _ h => .sparesQueuesWrite rfl (by decide) h (.qRtn .refl ..)
  case fetch =>
    intro s q eccError h
    refine .sparesQueues rfl ?_
    dsimp only
    rw [begin_abortsDue h]
    exact .routineFetch .refl eccError
  case retgt => exact fun _ _ _ => .sparesAxesWrite rfl (by decide) (.axRetgt .refl ..)
  case slim => exact axSlim_spares
  case limClear => exact fun _ _ _ _ => .sparesAxesWrite rfl (by decide) (.axLimStat .refl ..)
  case still => exact fun _ _ => .sparesAxes rfl (.stillRamp .refl)
  case maqEnter => exact fun _ _ => .sparesAxesWrite rfl (by decide) (.ctrlMaqEnter .refl)
  case maqExit =>
    intro s n h
    obtain ⟨hGroup, hOthers⟩ := h
    exact .sparesAxesWrite rfl (by decide) (.ctrlMaqExit n.isLt hGroup hOthers)
  case arm => exact fun _ _ => .sparesPortsWrite rfl (by decide) (.writeFbCtrl .refl _)
  case disarm => exact fun _ _ => .sparesPortsWrite rfl (by decide) (.writeFbCtrl .refl _)
  case faultClear => exact fun _ _ => .sparesPortsWrite rfl (by decide) (.fbStat .refl ..)
  case index => exact fun _ _ => .sparesPorts rfl (.portTake (.modPort .refl) ..)
  case quad => exact fun _ _ _ _ _ => .sparesPorts rfl (.portTake (.modPort .refl) ..)
  case hall => exact fun _ _ _ _ => .sparesPorts rfl (.portTake (.modPort (.modPort .refl)) ..)
  case step => exact fun _ _ _ _ _ => .sparesPorts rfl (.portTake (.modPort .refl) ..)
  case timeout => exact fun _ _ => .sparesPorts rfl (.setBit (.modPort .refl))
  case read => exact fun _ _ => .sparesPorts rfl (.serialRead .refl)
  case word => exact fun _ _ _ _ _ _ _ => .sparesPorts rfl (.serialWord .refl ..)
  case peak => exact fun _ _ _ => .sparesCoils rfl (.peakTrip .refl _)
  case hold => exact fun _ _ _ => .sparesCoils rfl (.sampleHold .refl _)
  case delivered => exact fun _ _ _ _ _ => .sparesCoils rfl (.sampleDelivered .refl ..)
  case period => exact pwmPeriodStart_spares
  case compute => exact coilCompute_spares
  case gate => exact fun _ _ => .sparesBanks rfl (.modBank .refl)
  case vm => exact fun _ _ => .sparesBanks rfl (.vmRecovered .refl)
  case inject => exact fun _ _ _ => .sparesBanksWrite rfl (by decide) (.injCtrl .refl ..)
  case scanGo => exact fun _ _ => .sparesBanksWrite rfl (by decide) (.scanCfg .refl ..)
  case scanStop => exact fun _ _ => .sparesBanksWrite rfl (by decide) (.scanCfg .refl ..)

end Sys2Proof.Machine
end
